-- ==== Sys2Proof/Word.lean ====
section
/-! DEFINITION. The word types of the block: bytes, the 32-bit and 64-bit register widths of R10, and byte strings. -/
namespace Sys2Proof

/-- One byte of device memory, of a mailbox slot or of a packet. -/
abbrev Byte := BitVec 8

/-- A string of bytes, lowest address first. -/
abbrev Bytes := List Byte

/-- A 32-bit register or an FP32 bit pattern. -/
abbrev W32 := BitVec 32

/-- A 64-bit register. -/
abbrev W64 := BitVec 64

end Sys2Proof
end

