-- ==== Sys2Proof/Syntax.lean ====
section
/-! DEFINITION. The commands of the block: one constructor per row of spec/opcode_table.json, in the table's order but for
the rare rows at the end (Lean compiles the first 245 constructors of a type as values).
Every row carries `dt`, the number of 2 ns ticks of the time-base PLL that pass before it (R127; log entry 2).
The row of a host command carries `id`, the acceptance number of the command it runs, whose header and parameters
COMMAND_ACCEPT copied from the mailbox slot (R75). The row of an event carries what the world brings with it. -/
namespace Sys2Proof

/-- PCIe configuration registers whose content the spec states, R59, R60, and any other dword by number. -/
inductive CfgReg where
  | ids | command | classCode | header | bar (n : Nat) | subsystem | interruptPin
  | capability (id : Nat) | extCapability (id : Nat)
  | powerState | devCap | devControl | linkCap | linkCap2 | devCap2 | devControl2
  | msixControl | msixTable | msixPba | serialLo | serialHi | aerUncorr | aerCorr
  | other (dword : Nat)
deriving DecidableEq, Repr

/-- What resets the host port under R62. -/
inductive LinkResetCause where
  | perst | hotReset | linkDown
deriving DecidableEq, Repr

/-- The errors of R93, in the order of its rows. -/
inductive PcieErr where
  | receiver | badTlp | badDllp | replayTimeout | replayRollover | correctedInternal
  | poisonedTlp | unsupportedRequest | completionTimeout | unexpectedCompletion | uncorrectableInternal
  | malformedTlp | dataLinkProtocol | flowControlProtocol | receiverOverflow
deriving DecidableEq, Repr

/-- A write to the data-port pointer, R67. -/
inductive PtrWrite where
  | full (v : W64) | low (v : W32) | high (v : W32)
deriving DecidableEq, Repr

/-- Who writes a register: the host through BAR 0, Bivexa on a control core, or the Island cores for P0. -/
inductive Writer where
  | host | bivexa | p0
deriving DecidableEq, Repr

/-- PTP messages that a MAC receives (R146, R147), with the instants in ns and the correctionField in units of 2^−16 ns that they, or their
follow-up, carry. An Announce names a grandmaster, which wins the best master clock algorithm or not; a Sync comes with the increment that
the servo's rate estimate gives, if any. -/
inductive PtpMsg where
  | announce (gm : W64) (wins : Bool)
  | sync (origin : Nat) (corr : Int) (incNew : Option W64)
  | delayReq
  | delayResp (rx : Nat) (corr : Int)
  | pdelayReq
  | pdelayResp (rx tx : Nat) (corr : Int)
  | other
deriving DecidableEq, Repr

/-- The messages that a configured domain sends at its intervals (R146). -/
inductive PtpTx where
  | sync | announce | delayReq
deriving DecidableEq, Repr

/-- What a packet is within its frame, as the front end sees it (R166). -/
inductive PktRole where
  | data | frameStart | frameEnd | whole
deriving DecidableEq, Repr

/-- A packet arriving at a sensor port (R165, R166, R168). `sel` is what the selector is matched against: virtual channel in
bits 4:0 and data type in 13:8 (CSI-2), EtherType (Ethernet), identifier (CAN FD); `udp` is the UDP destination port of an Ethernet packet.
`slotBytes` gives the bytes of each TDM slot or PDM input. The row is taken when the packet would become whole in its queue;
`stampAge` is the age of its stamp point then, in 2 ns ticks (log entry 40). -/
structure SensorPacket where
  kind : Nat
  port : Nat
  sel : Nat
  role : PktRole
  payload : Bytes
  udp : Option Nat := none
  slotBytes : List Bytes := []
  stampAge : Nat := 0
  phyErr : Bool := false
  eccFixed : Bool := false
  fifoFull : Bool := false
deriving DecidableEq, Repr

/-- Identification that a link peer sends in clear (R329). -/
structure LinkPeer where
  setId : W64
  dev : Nat
  port : Nat
  nonce : Bytes
deriving DecidableEq, Repr

/-- What the flit checks of R331 find. -/
inductive FlitCheck where
  | good | fecFail | gcmFail
deriving DecidableEq, Repr

/-- Traffic inside a flit: for this device (a write into memory for a partition number; a sequence that a peer sends, R372, with its
pool's ptok, n_layers, h_kv, d and format; a receiver's status for a sequence sent; nothing to store) or to forward. -/
inductive FlitBody where
  | write (part : Nat) (addr : Nat) (bytes : Bytes)
  | kvSequence (peer matchId ptok layers heads d fmt len : Nat) (tag : W64 × W64) (pages : List Bytes)
  | kvReply (peer matchId status : Nat)
  | forward (dev : Nat) (hops : Nat) (bytes : Nat)
  | control
deriving DecidableEq, Repr

/-- A request that arrives at an arbiter (R387); `cmd` is the acceptance number of the command it is made for, from which its
latest-service instant is derived (R389). -/
structure ArbReq where
  input : Nat
  part : Nat
  len : Nat
  cmd : Option Nat
deriving DecidableEq, Repr

/-- A matching record of a collective (R336). -/
structure CollRecord where
  dev : Nat
  op : Nat
  redop : Nat
  root : Nat
  members : Nat
  fmt : Nat
  exts : List Nat
  src : Bytes
  tag : W64 × W64
deriving DecidableEq, Repr

/-- The three monitored rails of R472. -/
inductive Rail where
  | vcore | vsafe | vio
deriving DecidableEq, Repr

/-- The reference clocks of R494 that have a loss detector. -/
inductive RefClk where
  | pcie | timeref | sref0 | sref1
deriving DecidableEq, Repr

/-- Which pointer pair disagrees (R182). -/
inductive QPtr where
  | read | write | tap
deriving DecidableEq, Repr

/-- What a scrub read finds in the line (R379). -/
inductive ScrubFind where
  | clean | corrected | uncorrectable
deriving DecidableEq, Repr

/-- The cause of a main-domain reset entry (R479, R482). -/
inductive ResetCause where
  | warmHost | warmP0 | vcore | thermal
deriving DecidableEq, Repr

/-- What a tile's residue check, shadow and memory find (R431, R432, R309); `primary` says that it is a tile of the primary output; `shadow` holds, for each element of a picked tile, the
FP32 patterns of its value as written and of its value as recomputed. -/
structure TileReport where
  residueBad : Bool := false
  recomputeBad : Bool := false
  memBad : Option Nat := none
  primary : Bool := true
  shadow : List (W32 × W32) := []
deriving DecidableEq, Repr

/-- A bank's report to a snapshot epoch: the stamp of its acknowledgement on TB0, and the counters that no register shows (R159, R160). -/
structure BankReport where
  ack : Nat
  counters : List W64
deriving DecidableEq, Repr

/-- An operation of the Island's matrix unit (R399) in a loop's run: `rows` rows at `a` by the 64 × 64 matrix at `b` into sums at `dst`, offsets of
Island memory. -/
structure MatrixOp where
  bf16 : Bool
  rows : Nat
  a : Nat
  b : Nat
  dst : Nat
deriving DecidableEq, Repr

/-- What the regulator answers at a set point step: the VCORE voltage in mV, and whether its output has settled (R43, R44). -/
structure VcoreRead where
  mv : Nat
  settled : Bool
deriving DecidableEq, Repr

/-- What the power of a tick is made of (R478): the VCORE current that the regulator reports, in 0.1 A, and the on-die estimate of every other
rail, in 0.1 W. -/
structure PowerRead where
  amps : Nat
  rest : Nat
deriving DecidableEq, Repr

/-- What a run of a reflex loop leaves: the operations of the matrix unit that it used, in order (R399), and the payload it commits, empty where
it commits nothing. -/
structure LoopRun where
  ops : List MatrixOp
  payload : Bytes
deriving DecidableEq, Repr

/-- The commands: one constructor per row of spec/opcode_table.json. -/
inductive Instr where
  -- host port (R59–R93)
  | configRequest (dt : Nat) (reg : CfgReg) (wr : Option W32)
  | pciePerstRelease (dt : Nat)
  | pcieLinkReset (dt : Nat) (cause : LinkResetCause)
  | pcieLinkUp (dt : Nat)
  | hostLinkRestored (dt : Nat)
  | pcieD3hotEntry (dt : Nat)
  | pcieD0Return (dt : Nat)
  | pcieError (dt : Nat) (err : PcieErr)
  | mboxSlotWrite (dt off : Nat) (bytes : Bytes) (poisoned : Bool)
  | commandAccept (dt : Nat)
  | commandDispatch (dt id : Nat)
  | commandCommit (dt id : Nat)
  | responseWrite (dt : Nat)
  | eventSlotWrite (dt : Nat)
  | msixModerationExpiry (dt v : Nat)
  | msixUnmask (dt : Nat) (v : Option Nat)
  | dportPtrWrite (dt : Nat) (w : PtrWrite)
  | dportWrite (dt : Nat) (dws : List W32) (firstBe lastBe : BitVec 4) (poisoned : Bool)
  | dportRead (dt dws : Nat)
  | warmResetRequestWrite (dt : Nat) (v : W32)
  | registerWrite (dt : Nat) (who : Writer) (addr size : Nat) (v : W64)
  -- pace and governor (R36–R56)
  | paceIntervalEnd (dt ss : Nat) (ops probes : List Nat)
  | avsSetPointStep (dt : Nat) (v : VcoreRead)
  | powerLimitTick (dt : Nat) (p : PowerRead) (busyPct : Nat)
  | burstEnd (dt : Nat)
  | thermalThrottleTick (dt : Nat)
  | avsFault (dt : Nat)
  | paceTableMerge (dt : Nat)
  -- Control group (R97) and its events
  | ctrlAbort (dt id : Nat)
  | ctrlFuncDisable (dt id : Nat)
  | ctrlFuncEnable (dt id : Nat)
  | drainTimeout (dt id : Nat)
  | ctrlPartDefine (dt id : Nat)
  | ctrlPartStart (dt id : Nat)
  | ctrlPartStop (dt id : Nat)
  | ctrlPartRestart (dt id : Nat)
  | partitionRestartEnd (dt p : Nat)
  | partitionRestartTimeout (dt p : Nat)
  | ctrlSetHostRanges (dt id : Nat)
  | ctrlSetWindows (dt id : Nat)
  | windowScheduleStart (dt : Nat)
  | windowBoundary (dt core : Nat)
  | ctrlFwUpdate (dt id : Nat)
  | fwUpdateSwap (dt id : Nat)
  | ctrlCoreRetire (dt id : Nat)
  -- Power group (R48, R487)
  | powerSetLimit (dt id : Nat)
  | powerSetPolicy (dt id : Nat)
  | powerSetMargin (dt id : Nat)
  | powerReadPaceTable (dt id : Nat)
  | powerLoadPaceTable (dt id : Nat)
  | powerSetWarn (dt id : Nat)
  | powerStatus (dt id : Nat)
  -- time (R127–R164)
  | timebasePllLock (dt : Nat)
  | timeSetFormat (dt id : Nat)
  | timeSetSource (dt id : Nat)
  | timeSetIncrement (dt id : Nat)
  | timeStep (dt id : Nat)
  | timeStepUnlock (dt id : Nat)
  | timeSetJumpThreshold (dt id : Nat)
  | timeRead (dt id : Nat)
  | timePpsConfig (dt id : Nat)
  | timePtpConfig (dt id : Nat)
  | timeSnapshot (dt id : Nat)
  | timeLaunchAdd (dt id : Nat)
  | timeLaunchCancel (dt id : Nat)
  | timeLaunchStatus (dt id : Nat)
  | tbIncWrite (dt : Nat) (who : Writer) (tb : Nat) (v : W64)
  | tbStepWrite (dt : Nat) (who : Writer) (tb : Nat) (v : W64)
  | tbUnlockWrite (dt tb : Nat) (v : W32)
  | tbUnlockExpiry (dt tb : Nat)
  | tbSecRead (dt tb : Nat)
  | timeBaseStepApply (dt tb : Nat)
  | xstampWrite (dt : Nat) (v : W32)
  | captureEdge (dt src : Nat) (rising : Bool)
  | capStatRead (dt ch : Nat)
  | compareFire (dt k : Nat)
  | timerefLost (dt : Nat)
  | timerefRestored (dt : Nat)
  | ppsInEdge (dt : Nat) (rising : Bool)
  | ppsOutPulse (dt : Nat)
  | ptpEventRx (dt port tb : Nat) (msg : PtpMsg)
  | geyserEntryWriteP0 (dt i off : Nat) (bytes : Bytes)
  | geyserFetch (dt i : Nat)
  | geyserFetchDone (dt i : Nat)
  | geyserLaunchTick (dt i : Nat)
  | geyserHeldStart (dt i : Nat)
  | geyserTransmitDone (dt i : Nat)
  | snapshotEpoch (dt : Nat)
  | snapshotRecordWrite (dt : Nat) (banks : List BankReport)
  -- intake (R165–R188)
  | intakePortConfig (dt id : Nat)
  | intakeStreamConfig (dt id : Nat)
  | intakeE2eConfig (dt id : Nat)
  | intakeStreamEnable (dt id : Nat)
  | intakeStreamDisable (dt id : Nat)
  | intakeResync (dt id : Nat)
  | intakeSetProfile (dt id : Nat)
  | intakeStreamStatus (dt id : Nat)
  | sensorPacketRx (dt : Nat) (pkt : SensorPacket)
  | encoderSampleTick (dt port : Nat) (pos : W32) (idx : BitVec 16) (status : BitVec 16) (edgeNs : W32)
  | streamSilentTimeout (dt st : Nat)
  | queueRead (dt st : Nat)
  | qDropRestWrite (dt st : Nat)
  | tapDelivery (dt tap : Nat)
  -- Churn alignment (R189–R217)
  | churnOpenInstant (dt id : Nat)
  | churnCloseSchedule (dt id : Nat)
  | churnStreamRole (dt id : Nat)
  | churnSetEgo (dt id : Nat)
  | churnSetTransform (dt id : Nat)
  | churnInstantStatus (dt id : Nat)
  | egoExtTWrite (dt : Nat) (who : Writer) (v : W64)
  | instantOpen (dt sched : Nat)
  | instantCloseWatermark (dt sched : Nat)
  | instantCloseLimit (dt sched : Nat)
  | instantRecordCommit (dt sched k : Nat)
  | revisionRecordCommit (dt sched k : Nat)
  | instantSeal (dt sched k : Nat)
  -- Churn points (R218–R247)
  | churnPointFormat (dt id : Nat)
  | churnVoxelConfig (dt id : Nat)
  | churnOctreeConfig (dt id : Nat)
  | churnOctreeClear (dt id : Nat)
  | churnTableSplit (dt id : Nat)
  | tableSplitApply (dt id : Nat)
  | churnVoxelStatus (dt id : Nat)
  | pointFrameBuild (dt : Nat)
  -- Churn tracks (R248–R260)
  | churnTrackConfig (dt id : Nat)
  | churnAssociate (dt id : Nat)
  | churnTrackDrop (dt id : Nat)
  | churnTrackStatus (dt id : Nat)
  -- Planner (R261–R285)
  | planGridConfig (dt id : Nat)
  | planGridWrite (dt id : Nat)
  | planModelSet (dt id : Nat)
  | planCheck (dt id : Nat)
  | planSearch (dt id : Nat)
  | planStopConfig (dt id : Nat)
  | planStatus (dt id : Nat)
  | gridFill (dt : Nat)
  | checkJob (dt : Nat)
  | searchTimeout (dt id : Nat)
  | stopRecordBuild (dt : Nat)
  -- Tensor (R286–R312, R349–R354, R428–R436)
  | tensorMatmul (dt id : Nat)
  | tensorVector (dt id : Nat)
  | tensorSpconv (dt id : Nat)
  | tensorChain (dt id : Nat)
  | tensorRngSeed (dt id : Nat)
  | tensorCoreStatus (dt id : Nat)
  | attnFwd (dt id : Nat)
  | attnBwd (dt id : Nat)
  | rngSeedHiWrite (dt core : Nat) (v : W64)
  | descriptorStart (dt core : Nat)
  | tileComplete (dt core : Nat) (rep : TileReport)
  | checkerRerunStart (dt id slot : Nat)
  | checkVerdict (dt id : Nat) (rerun : List (W32 × W32))
  | starterWindowOpen (dt slot : Nat)
  | starterComplete (dt slot : Nat) (out : Bytes)
  -- movement and links (R313–R342)
  | moveCopy (dt id : Nat)
  | moveConcat (dt id : Nat)
  | moveGather (dt id : Nat)
  | moveScatter (dt id : Nat)
  | moveQueueRead (dt id : Nat)
  | moveFrameRing (dt id : Nat)
  | movePushHost (dt id : Nat)
  | moveLinkConfig (dt id : Nat)
  | moveLinkRetrain (dt id : Nat)
  | linkRetrainStart (dt id : Nat)
  | moveLinkStatus (dt id : Nat)
  | moveCollective (dt id : Nat)
  | collMatchRecordRx (dt collId : Nat) (rec : CollRecord)
  | collTimeout (dt id : Nat)
  | linkSignalDetect (dt port : Nat)
  | linkEqualizeDone (dt port : Nat) (width : Option Nat)
  | linkIdentifyRx (dt port : Nat) (peer : LinkPeer)
  | linkAuthConfirm (dt port : Nat) (tag : Bytes)
  | linkLossOfLock (dt port : Nat)
  | linkFlitRx (dt port : Nat) (chk : FlitCheck) (body : FlitBody)
  -- KV pages (R355–R375)
  | kvInit (dt id : Nat)
  | kvPoolCreate (dt id : Nat)
  | kvCellarConfig (dt id : Nat)
  | kvSeqCreate (dt id : Nat)
  | kvSeqFork (dt id : Nat)
  | kvSeqTruncate (dt id : Nat)
  | kvSeqRelease (dt id : Nat)
  | kvAppend (dt id : Nat)
  | kvPublish (dt id : Nat)
  | kvPrefetch (dt id : Nat)
  | kvSeqSend (dt id : Nat)
  | kvSeqRecv (dt id : Nat)
  | kvSetRole (dt id : Nat)
  | kvSeqStatus (dt id : Nat)
  | kvWalkEmit (dt id : Nat)
  | kvReclaim (dt pool : Nat)
  | kvSpillDone (dt pool page : Nat)
  | kvFetchDone (dt pool page : Nat) (slot : Bytes)
  -- memory and arbiters (R376–R396)
  | memArbConfig (dt id : Nat)
  | memArbStatus (dt id : Nat)
  | memErrStatus (dt id : Nat)
  | arbiterDecision (dt arb : Nat) (arrivals : List ArbReq)
  | arbiterSliceBoundary (dt arb : Nat)
  | arbFreezeWrite (dt : Nat) (who : Writer) (arb : Nat) (v : Bool)
  -- safety (R397–R448)
  | safetyConfigLoad (dt id : Nat)
  | safetyBandLoad (dt id : Nat)
  | safetyFramesetConfig (dt id : Nat)
  | safetySafeState (dt id : Nat)
  | safetyStatus (dt id : Nat)
  | safetyStandbyConfig (dt id : Nat)
  | safetyTrajOffer (dt id : Nat)
  | safetyReflexMode (dt id : Nat)
  | safetyReflexStatus (dt id : Nat)
  | heartbeatTx (dt : Nat)
  | heartbeatRx (dt dev : Nat)
  | heartbeatMissTimeout (dt dev : Nat)
  | reflexLoopRelease (dt n : Nat)
  | reflexLoopComplete (dt n entry descOff runNs : Nat) (run : LoopRun)
  | trajSwap (dt : Nat)
  | trajStarved (dt : Nat)
  | stopStandstill (dt : Nat)
  | safeAliveToggle (dt : Nat)
  -- security (R449–R468)
  | secGetIdentity (dt id : Nat)
  | secAttest (dt id : Nat)
  | secRollbackCommit (dt id : Nat)
  | secRootRevoke (dt id : Nat)
  | secWeightLoad (dt id : Nat)
  | secWeightRelease (dt id : Nat)
  | secConfidentialEnter (dt id : Nat)
  | secDebugUnlock (dt id : Nat)
  -- power, reset and start-up (R469–R487, R494)
  | porstLow (dt : Nat) (vaon : Bool)
  | coldStart (dt : Nat)
  | vcorePgTimeout (dt : Nat)
  | hbmInitDone (dt : Nat)
  | imageVerifyDone (dt : Nat)
  | bivexaReady (dt : Nat)
  | p0WarmResetRequest (dt : Nat)
  | mainResetEntry (dt : Nat) (cause : ResetCause)
  | mainDomainRelease (dt : Nat)
  | supplyWarning (dt : Nat) (rail : Rail) (mv : Nat)
  | supplyRestored (dt : Nat) (rail : Rail)
  | vcoreResetThreshold (dt : Nat)
  | supplyResetThreshold (dt : Nat) (rail : Rail)
  | vcoreRecovered (dt : Nat)
  | tjSample (dt : Nat) (tj : Int)
  | refclkLost (dt : Nat) (ref : RefClk)
  | refclkRestored (dt : Nat) (ref : RefClk)
  | vcorePgSeen (dt : Nat)
  | vaonPowerOnRelease (dt : Nat)
  -- rows that only rare faults and timeouts bring (chapters 3, 5 to 7, 11 to 13, 15, 16, 18)
  | canArbitrationLost (dt i : Nat)
  | starterWindowClose (dt slot : Nat)
  | starterDigestCheck (dt : Nat)
  | checkerWaitTimeout (dt id : Nat)
  | linkRekey (dt port : Nat) (peerNonce : Bytes)
  | linkDetectRetry (dt port : Nat)
  | ptpMessageInterval (dt tb : Nat) (tx : PtpTx)
  | kvSeqRecvTimeout (dt id : Nat)
  | bridgeTransparentCorrect (dt inPort outPort tb : Nat) (frame : Bytes) (rx tx : Nat)
  | ppsMissingTimeout (dt tb : Nat)
  | ptpAnnounceTimeout (dt tb : Nat)
  | shortTbEntryHandoff (dt i : Nat)
  | shortTbWrapRead (dt tb : Nat)
  | islandMonitorFail (dt : Nat)
  | lockstepMismatch (dt addr : Nat)
  | patrolScrub (dt : Nat) (find : ScrubFind)
  | hostCompletionTimeout (dt id : Nat)
  | avsRetry (dt : Nat) (ok : Bool)
  | queuePtrMismatch (dt st : Nat) (ptr : QPtr)
  | egoInvalidTimeout (dt : Nat)
  | kvFetchTimeout (dt pool page : Nat)
  | controlCoreWatchdogTimeout (dt cc : Nat)
  | warmBoundTimeout (dt : Nat)
  | vcoreRecoveryTimeout (dt : Nat)
  | stopMirrorCopy (dt : Nat)
deriving DecidableEq, Repr

end Sys2Proof
end

