-- ==== Sys2Proof/Machine/Crc.lean ====
section
/-! DEFINITION. The cyclic redundancy checks of R177 and R179. -/
namespace Sys2Proof.Machine

/-- One bit step of a check register that shifts toward its most significant bit. -/
def crcStep {w : Nat} (poly : BitVec w) (r : BitVec w) : BitVec w :=
  if r.msb then (r <<< 1) ^^^ poly else r <<< 1

/-- A check register over bytes, most significant bit first, without reflection and without a final XOR. -/
def crcMsb {w : Nat} (poly init : BitVec w) (b : Bytes) : BitVec w :=
  b.foldl (fun r x => Nat.repeat (crcStep poly) 8 (r ^^^ BitVec.ofNat w (x.toNat <<< (w - 8)))) init

/-- One bit step of a reflected check register. -/
def crcStepR {w : Nat} (poly : BitVec w) (r : BitVec w) : BitVec w :=
  if r.getLsbD 0 then (r >>> 1) ^^^ poly else r >>> 1

/-- A reflected check register over bytes. -/
def crcLsb {w : Nat} (poly init : BitVec w) (b : Bytes) : BitVec w :=
  b.foldl (fun r x => Nat.repeat (crcStepR poly) 8 (r ^^^ x.zeroExtend w)) init

/-- CRC-64 with the ECMA-182 polynomial, R179. -/
def crc64 (b : Bytes) : W64 := crcMsb 0x42F0E1EBA9EA3693#64 0 b

/-- CRC-32 of IEEE 802.3, R177. -/
def crc32 (b : Bytes) : W32 := ~~~(crcLsb 0xEDB88320#32 0xFFFFFFFF#32 b)

/-- CRC-32C, R177. -/
def crc32c (b : Bytes) : W32 := ~~~(crcLsb 0x82F63B78#32 0xFFFFFFFF#32 b)

/-- CRC-16/CCITT-FALSE, R177. -/
def crc16 (b : Bytes) : BitVec 16 := crcMsb 0x1021#16 0xFFFF#16 b

end Sys2Proof.Machine
end

