-- ==== Sys2Proof/Machine/Bits.lean ====
section
/-! DEFINITION. Bit fields of registers, little-endian byte strings, saturating and wrapping counters, two's complement. -/
namespace Sys2Proof.Machine

/-- Field of `len` bits from bit `lo`, R9. -/
def fld {w : Nat} (v : BitVec w) (lo len : Nat) : Nat :=
  (v.toNat >>> lo) % 2 ^ len

/-- Bit `i`. -/
def bit {w : Nat} (v : BitVec w) (i : Nat) : Bool := v.getLsbD i

/-- Replaces a field of `len` bits from bit `lo`. -/
def setFld {w : Nat} (v : BitVec w) (lo len x : Nat) : BitVec w :=
  (v &&& ~~~(BitVec.ofNat w ((2 ^ len - 1) <<< lo))) ||| BitVec.ofNat w ((x % 2 ^ len) <<< lo)

/-- Replaces one bit. -/
def setBit {w : Nat} (v : BitVec w) (i : Nat) (b : Bool) : BitVec w :=
  setFld v i 1 (if b then 1 else 0)

/-- A counter field that saturates at all ones. -/
def incSat {w : Nat} (v : BitVec w) (lo len k : Nat) : BitVec w :=
  setFld v lo len (Nat.min (fld v lo len + k) (2 ^ len - 1))

/-- A counter field that wraps. -/
def incWrap {w : Nat} (v : BitVec w) (lo len k : Nat) : BitVec w :=
  setFld v lo len (fld v lo len + k)

/-- A number as n little-endian bytes, R122. -/
def leBytes : Nat → Nat → Bytes
  | 0, _ => []
  | n + 1, v => BitVec.ofNat 8 v :: leBytes n (v / 256)

/-- The number that a little-endian byte string holds. -/
def leVal : Bytes → Nat
  | [] => 0
  | b :: r => b.toNat + 256 * leVal r

/-- The n-byte little-endian number at offset o of a byte string; bytes past its end read 0. -/
def numAt (p : Bytes) (o n : Nat) : Nat := leVal ((p.drop o).take n)

/-- n bytes from offset o, padded with zeros. -/
def cut (p : Bytes) (o n : Nat) : Bytes :=
  let q := (p.drop o).take n
  q ++ List.replicate (n - q.length) 0

/-- Overwrites bytes from offset o. -/
def putAt (p : Bytes) (o : Nat) (b : Bytes) : Bytes :=
  cut p 0 o ++ b ++ p.drop (o + b.length)

/-- The two's complement value of the low w bits. -/
def sgn (w n : Nat) : Int :=
  if n % 2 ^ w < 2 ^ (w - 1) then (n % 2 ^ w : Nat) else (n % 2 ^ w : Nat) - (2 ^ w : Nat)

/-- An integer in w bits, two's complement. -/
def unsgn (w : Nat) (x : Int) : Nat := (x % (2 ^ w : Nat)).toNat

/-- Clamps an integer into a w-bit signed range. -/
def clampS (w : Nat) (x : Int) : Int :=
  max (-(2 ^ (w - 1) : Nat) : Int) (min ((2 ^ (w - 1) : Nat) - 1) x)

/-- Rounds n up to a multiple of m. -/
def roundUp (n m : Nat) : Nat := (n + m - 1) / m * m

/-- Ceiling division. -/
def ceilDiv (a b : Nat) : Nat := (a + b - 1) / b

/-- The number of bits set among the low n. -/
def popCount (n v : Nat) : Nat := ((List.range n).filter fun i => v.testBit i).length

/-- The numbers of the bits set among the low n, ascending. -/
def bitsOf (n v : Nat) : List Nat := (List.range n).filter fun i => v.testBit i

end Sys2Proof.Machine
end

