-- ==== Sys2Proof/Machine/Sparse.lean ====
section
/-! DEFINITION. Sparse tables: the one representation of device memory, of the mailboxes and of every table of records that is
numbered. A table lists (number, value) pairs with strictly rising numbers and lists no value equal to its default. -/
namespace Sys2Proof.Machine

/-- The value at number k: the listed one, else the default. -/
def sget {α : Type} (d : α) : List (Nat × α) → Nat → α
  | [], _ => d
  | (a, v) :: r, k => if a = k then v else sget d r k

/-- The table without number k. -/
def sdel {α : Type} (m : List (Nat × α)) (k : Nat) : List (Nat × α) :=
  m.filter fun e => !(e.1 == k)

/-- Puts number k, which the table does not list, at its place. -/
def sins {α : Type} : List (Nat × α) → Nat → α → List (Nat × α)
  | [], k, v => [(k, v)]
  | (a, w) :: r, k, v => if k < a then (k, v) :: (a, w) :: r else (a, w) :: sins r k v

/-- Sets the value at number k; a value equal to the default leaves the number unlisted. -/
def sset {α : Type} [DecidableEq α] (d : α) (m : List (Nat × α)) (k : Nat) (v : α) : List (Nat × α) :=
  if v = d then sdel m k else sins (sdel m k) k v

/-- Every number of the table is above k, and the numbers rise. -/
def risesFrom {α : Type} : Option Nat → List (Nat × α) → Bool
  | _, [] => true
  | none, (a, _) :: r => risesFrom (some a) r
  | some b, (a, _) :: r => (b < a) && risesFrom (some a) r

/-- The canonical form: strictly rising numbers, no listed value equal to the default. -/
def swf {α : Type} [DecidableEq α] (d : α) (m : List (Nat × α)) : Bool :=
  risesFrom none m && m.all fun e => !(decide (e.2 = d))

/-- Writes a string of values at rising numbers from k. -/
def ssetAll {α : Type} [DecidableEq α] (d : α) (m : List (Nat × α)) : Nat → List α → List (Nat × α)
  | _, [] => m
  | k, v :: r => ssetAll d (sset d m k v) (k + 1) r

/-- Reads n values from number k. -/
def sgetAll {α : Type} (d : α) (m : List (Nat × α)) (k n : Nat) : List α :=
  (List.range n).map fun i => sget d m (k + i)

/-- Replaces the first element that satisfies p. -/
def updFirst {α : Type} (p : α → Bool) (f : α → α) : List α → List α
  | [] => []
  | x :: r => if p x then f x :: r else x :: updFirst p f r

end Sys2Proof.Machine
end

