-- ==== Sys2Proof/Config.lean ====
section
/-! DEFINITION. What a device fixes and the spec does not state: per-device constants, functions that the spec only names,
and the free values. None but `orderCode`, which follows from `orderAq`, has a body, so no proof can see a value. -/
namespace Sys2Proof.Config

/-- Per-device: whether the device was ordered as FN7240-AQ; it is FN7240-IX otherwise (R1; log entry 4). -/
opaque orderAq : Bool
/-- The ordering code that CCX_ID_ORDER reads: 0 for FN7240-AQ, 1 for FN7240-IX; R1 and R64 know no other. -/
def orderCode : W32 := if orderAq then 0 else 1
/-- Per-device: 64-bit set identifier of R64, R3 (log entry 4). -/
opaque setId : W64
/-- Per-device: 64-bit serial number of R60 (log entry 4). -/
opaque serial : W64
/-- Per-device: fuse counter blown at manufacture or since, R454 (log entry 4). -/
opaque fuseCounter : BitVec 6
/-- Per-device: root-key slots already revoked, R453 (log entry 4). -/
opaque revokedSlots : BitVec 4
/-- Per-device: the identity certificate's bytes of R456 (log entry 4). -/
opaque certificate : Bytes
/-- Per-device: 64-byte root-key hash of slot n, R449 (log entry 4). -/
opaque rootHash : Nat → Bytes
/-- Per-device: the production entry of pace-table cell (VCORE step, Tj step, band) of R51, R36 (log entry 4). -/
opaque productionPace : Nat → Nat → Nat → BitVec 64
/-- Dexien's PCIe vendor ID, which the spec names and does not state, R59 (log entry 4). -/
opaque vendorId : BitVec 16
/-- PCIe configuration registers whose content the spec leaves to the PCIe specification (log entry 14). -/
opaque cfgOther : Nat → W32
/-- The version and next-pointer bits of a capability header, by capability number: the spec gives no order of the list (log entry 14). -/
opaque capLink : Nat → W32

/-- A fresh free word for the n-th value the spec leaves open (log entry 3). -/
opaque freeWord : Nat → W64
/-- A fresh free FP32 pattern (log entry 3). -/
opaque freeF32 : Nat → W32
/-- A fresh free rational number (log entry 3). -/
opaque freeRat : Nat → Rat
/-- A fresh free byte string of the asked length's content, by counter and index (log entry 3). -/
opaque freeByte : Nat → Nat → Byte

/-- SHAKE256 of a byte string, cut to a length, R330, R365, R451 (log entry 19). -/
opaque shake256 : Bytes → Nat → Bytes
/-- Falcon-1024 verification of (public key, digest, signature), R451 (log entry 19). -/
opaque falconVerify : Bytes → Bytes → Bytes → Bool
/-- Falcon-1024 signature under the device's identity key, R457 (log entry 19). -/
opaque falconSign : Bytes → Bytes
/-- Content key unwrapped from a wrap entry (R459), none when the key wrap's integrity check fails (log entry 19). -/
opaque unwrapKey : Bytes → Bytes → Option Bytes
/-- AES-256-GCM decryption (key, iv, additional data, ciphertext, tag), none when the tag fails (log entry 19). -/
opaque gcmOpen : Bytes → Bytes → Bytes → Bytes → Bytes → Option Bytes
/-- AES-256-GCM encryption (key, iv, additional data, plaintext): ciphertext and tag (log entry 19). -/
opaque gcmSeal : Bytes → Bytes → Bytes → Bytes → Bytes × Bytes
/-- The device's memory key of R2, R378, R449, fixed at manufacture (log entry 19). -/
opaque memoryKey : Bytes
/-- AES-256-XTS encryption of a 64-byte line (key, tweak, line), R378 (log entry 19). -/
opaque xtsSeal : Bytes → Nat → Bytes → Bytes
/-- The set link key of R449 (log entry 19). -/
opaque linkKey : Bytes
/-- The on-die entropy source, by draw number: 16 bytes for a generator, 32 for a nonce, R299, R463 (log entry 20). -/
opaque entropy : Nat → Bytes

/-- Square root of a non-negative rational that is no square of a rational, as the fabric forms it (log entry 18). -/
opaque sqrtFree : Rat → Rat
/-- Sine and cosine of an angle as the filter forms them, R200 (log entry 18). -/
opaque sinFree : Rat → Rat
opaque cosFree : Rat → Rat
/-- The arc tangent of y / x in the right quadrant, for a yaw taken from a quaternion, R257, R276 (log entry 18). -/
opaque atan2Free : Rat → Rat → Rat
/-- FP32 pattern of a rational that FP32 cannot hold exactly, where the spec names no rounding (log entry 18). -/
opaque f32Inexact : Rat → W32

/-- BF16 pattern of a rational that BF16 cannot hold exactly, where the spec names no rounding (log entry 18). -/
opaque bf16Inexact : Rat → BitVec 16

/-- Position, velocity and covariance of a track after a detection is assigned to it, from the predicted ones and the detection's
position and covariance: the spec names the update and states no formula, R254, R258 (log entry 54). -/
opaque trackUpdate : List Rat → List Rat → List Rat

/-- The free value of one element: by the counter at its command and by its place (log entry 3). -/
opaque freeAt : Nat → Nat → Rat
/-- The 16 random bits of stochastic rounding for one element, R298, R299 (log entry 20). -/
opaque srAt : Nat → Nat → BitVec 16
/-- Whether an element is in band where an infinity or a band that is no number enters the comparison of R430, by the two tolerances
and the FP32 patterns of the element and its reference (log entry 81). -/
opaque bandFree : W32 → W32 → W32 → W32 → Bool
/-- GELU in its tanh form (2) and SiLU (3), R305: the spec states no accuracy (log entry 18). -/
opaque epilogueFree : Nat → Rat → Rat

end Sys2Proof.Config
end

