-- ==== Sys2Proof/Machine/Num.lean ====
section
/-! DEFINITION. FP32 and exact rational arithmetic: decoding, encoding, square roots, vectors, quaternions and rotations. Where the
spec names no rounding, a result that FP32 cannot hold is a free value of Config (log entry 18). -/
namespace Sys2Proof.Machine

/-- The value of a floating-point pattern. -/
inductive FVal where
  | nan
  | inf (neg : Bool)
  | fin (neg : Bool) (q : Rat)
deriving DecidableEq, Repr

/-- Two to an integer power. -/
def pow2 (e : Int) : Rat := if 0 ≤ e then ((2 ^ e.toNat : Nat) : Rat) else 1 / ((2 ^ (-e).toNat : Nat) : Rat)

/-- The integer part of the base-2 logarithm of a positive rational. -/
def ilog2 (q : Rat) : Int :=
  let e : Int := (Nat.log2 q.num.natAbs : Int) - (Nat.log2 q.den : Int)
  if pow2 e ≤ q then (if pow2 (e + 1) ≤ q then e + 1 else e) else e - 1

/-- Rounds a non-negative rational to the nearest integer, ties to even. -/
def roundEven (q : Rat) : Nat :=
  let n := q.floor.toNat
  let r := q - (n : Rat)
  if r < 1 / 2 then n else if 1 / 2 < r then n + 1 else if n % 2 = 0 then n else n + 1

/-- The value of an FP32 pattern. -/
def f32Val (w : W32) : FVal :=
  let e := fld w 23 8
  let m := fld w 0 23
  let neg := bit w 31
  if e = 255 then (if m = 0 then .inf neg else .nan)
  else
    let q := if e = 0 then (m : Rat) * pow2 (-149) else ((2 ^ 23 + m : Nat) : Rat) * pow2 ((e : Int) - 150)
    .fin neg (if neg then -q else q)

/-- The finite value of an FP32 pattern; none for an infinity or a NaN. -/
def f32? (w : W32) : Option Rat :=
  match f32Val w with
  | .fin _ q => some q
  | _ => none

/-- The rational of an FP32 pattern in memory; a pattern without one reads as 0 where the caller has checked it. -/
def f32Rat (w : W32) : Rat := (f32? w).getD 0

/-- The magnitude of a finite FP32 result rounded to nearest, ties to even: its significand in units of 2^e. -/
def f32Unit (q : Rat) : Int := max (ilog2 q) (-126) - 23

/-- The FP32 pattern of a rational rounded to nearest, ties to even; past the range it is an infinity. -/
def f32Round (q : Rat) : W32 :=
  if q = 0 then 0
  else
    let a := if q < 0 then -q else q
    let u := f32Unit a
    let k := roundEven (a / pow2 u)
    let (k, u) := if k = 2 ^ 24 then (2 ^ 23, u + 1) else (k, u)
    let mag := if u > 104 then 0x7F800000 else if k < 2 ^ 23 then k else ((u + 150).toNat) * 2 ^ 23 + (k - 2 ^ 23)
    BitVec.ofNat 32 ((if q < 0 then 2 ^ 31 else 0) + mag)

/-- The FP32 pattern of a rational: exact where FP32 holds it, else a free value (log entry 18). -/
def f32Of (q : Rat) : W32 :=
  let w := f32Round q
  if f32? w = some q then w else Config.f32Inexact q

/-- Whether an FP32 pattern is finite and within a range, whose decimal bounds are taken as FP32 holds them. -/
def inF32 (w : W32) (lo hi : Rat) : Bool :=
  match f32? w with
  | some q => decide (f32Rat (f32Round lo) ≤ q ∧ q ≤ f32Rat (f32Round hi))
  | none => false

/-- The n-th FP32 value of a byte string from offset o. -/
def f32At (b : Bytes) (o : Nat) : W32 := BitVec.ofNat 32 (numAt b o 4)

def f32Bytes (q : Rat) : Bytes := leBytes 4 (f32Of q).toNat

/-! Square roots and functions -/

/-- Integer square root by its bits. -/
def isqrtGo : Nat → Nat → Nat → Nat
  | 0, _, r => r
  | i + 1, n, r => isqrtGo i n (if (r + 2 ^ i) * (r + 2 ^ i) ≤ n then r + 2 ^ i else r)

def isqrt (n : Nat) : Nat := isqrtGo (Nat.log2 n / 2 + 1) n 0

/-- Square root: exact for the square of a rational, 0 for a negative argument, else free (log entry 18). -/
def sqrtRat (q : Rat) : Rat :=
  let a := isqrt q.num.natAbs
  let b := isqrt q.den
  if q ≤ 0 then 0 else if a * a = q.num.natAbs ∧ b * b = q.den then (a : Rat) / (b : Rat) else Config.sqrtFree q

def sinRat (q : Rat) : Rat := if q = 0 then 0 else Config.sinFree q
def cosRat (q : Rat) : Rat := if q = 0 then 1 else Config.cosFree q
def atan2Rat (y x : Rat) : Rat := if y = 0 ∧ 0 ≤ x then 0 else Config.atan2Free y x

/-- π to 50 digits, for the heading bins of R276 (log entry 18). -/
def piRat : Rat := 314159265358979323846264338327950288419716939937510 / 100000000000000000000000000000000000000000000000000

def absR (q : Rat) : Rat := if q < 0 then -q else q

/-! Vectors, quaternions, rigid transforms -/

structure V3 where
  x : Rat := 0
  y : Rat := 0
  z : Rat := 0
deriving DecidableEq, Repr

def V3.add (a b : V3) : V3 := ⟨a.x + b.x, a.y + b.y, a.z + b.z⟩
def V3.sub (a b : V3) : V3 := ⟨a.x - b.x, a.y - b.y, a.z - b.z⟩
def V3.scale (k : Rat) (a : V3) : V3 := ⟨k * a.x, k * a.y, k * a.z⟩
def V3.dot (a b : V3) : Rat := a.x * b.x + a.y * b.y + a.z * b.z
def V3.cross (a b : V3) : V3 := ⟨a.y * b.z - a.z * b.y, a.z * b.x - a.x * b.z, a.x * b.y - a.y * b.x⟩
def V3.norm (a : V3) : Rat := sqrtRat (a.dot a)
def V3.bytes (a : V3) : Bytes := f32Bytes a.x ++ f32Bytes a.y ++ f32Bytes a.z
/-- Three FP32 values from offset o. -/
def V3.at (b : Bytes) (o : Nat) : V3 := ⟨f32Rat (f32At b o), f32Rat (f32At b (o + 4)), f32Rat (f32At b (o + 8))⟩

/-- A quaternion w, x, y, z; the default is the identity. -/
structure Quat where
  w : Rat := 1
  x : Rat := 0
  y : Rat := 0
  z : Rat := 0
deriving DecidableEq, Repr

def Quat.mul (a b : Quat) : Quat :=
  ⟨a.w * b.w - a.x * b.x - a.y * b.y - a.z * b.z, a.w * b.x + a.x * b.w + a.y * b.z - a.z * b.y,
   a.w * b.y - a.x * b.z + a.y * b.w + a.z * b.x, a.w * b.z + a.x * b.y - a.y * b.x + a.z * b.w⟩

def Quat.normalise (q : Quat) : Quat :=
  let n := sqrtRat (q.w * q.w + q.x * q.x + q.y * q.y + q.z * q.z)
  if n = 0 then {} else ⟨q.w / n, q.x / n, q.y / n, q.z / n⟩

/-- The rotation of |v| about v, R200. -/
def Quat.ofVec (v : V3) : Quat :=
  if v = {} then {}
  else
    let n := v.norm
    let k := sinRat (n / 2) / n
    ⟨cosRat (n / 2), k * v.x, k * v.y, k * v.z⟩

def Quat.bytes (q : Quat) : Bytes := f32Bytes q.w ++ f32Bytes q.x ++ f32Bytes q.y ++ f32Bytes q.z

/-- A 3 × 3 matrix by rows. -/
structure M3 where
  a : V3 := ⟨1, 0, 0⟩
  b : V3 := ⟨0, 1, 0⟩
  c : V3 := ⟨0, 0, 1⟩
deriving DecidableEq, Repr

def M3.app (m : M3) (v : V3) : V3 := ⟨m.a.dot v, m.b.dot v, m.c.dot v⟩
def M3.tr (m : M3) : M3 := ⟨⟨m.a.x, m.b.x, m.c.x⟩, ⟨m.a.y, m.b.y, m.c.y⟩, ⟨m.a.z, m.b.z, m.c.z⟩⟩
def M3.mul (m n : M3) : M3 :=
  let t := n.tr
  ⟨⟨m.a.dot t.a, m.a.dot t.b, m.a.dot t.c⟩, ⟨m.b.dot t.a, m.b.dot t.b, m.b.dot t.c⟩, ⟨m.c.dot t.a, m.c.dot t.b, m.c.dot t.c⟩⟩

/-- The rotation matrix of a unit quaternion. -/
def Quat.mat (q : Quat) : M3 :=
  ⟨⟨1 - 2 * (q.y * q.y + q.z * q.z), 2 * (q.x * q.y - q.w * q.z), 2 * (q.x * q.z + q.w * q.y)⟩,
   ⟨2 * (q.x * q.y + q.w * q.z), 1 - 2 * (q.x * q.x + q.z * q.z), 2 * (q.y * q.z - q.w * q.x)⟩,
   ⟨2 * (q.x * q.z - q.w * q.y), 2 * (q.y * q.z + q.w * q.x), 1 - 2 * (q.x * q.x + q.y * q.y)⟩⟩

/-- A unit quaternion of a rotation matrix; of the two, the one with w ≥ 0 (log entry 48). -/
def M3.quat (m : M3) : Quat :=
  let t := m.a.x + m.b.y + m.c.z
  if 0 < 1 + t then
    let w := sqrtRat (1 + t) / 2
    ⟨w, (m.c.y - m.b.z) / (4 * w), (m.a.z - m.c.x) / (4 * w), (m.b.x - m.a.y) / (4 * w)⟩
  else
    let x := sqrtRat ((1 + m.a.x) / 2)
    let y := sqrtRat ((1 + m.b.y) / 2)
    let z := sqrtRat ((1 + m.c.z) / 2)
    if x ≠ 0 then ⟨0, x, m.a.y / (2 * x), m.a.z / (2 * x)⟩
    else if y ≠ 0 then ⟨0, 0, y, m.b.z / (2 * y)⟩
    else ⟨0, 0, 0, z⟩

/-- A rigid transform: rotation, then translation. -/
structure Rigid where
  r : M3 := {}
  t : V3 := {}
deriving DecidableEq, Repr

def Rigid.app (g : Rigid) (p : V3) : V3 := (g.r.app p).add g.t
/-- First h, then g. -/
def Rigid.mul (g h : Rigid) : Rigid := ⟨g.r.mul h.r, g.app h.t⟩
def Rigid.inv (g : Rigid) : Rigid := ⟨g.r.tr, V3.scale (-1) (g.r.tr.app g.t)⟩
def Rigid.bytes (g : Rigid) : Bytes := g.t.bytes ++ g.r.quat.bytes

/-- The yaw of a rotation. -/
def M3.yaw (m : M3) : Rat := atan2Rat m.b.x m.a.x

end Sys2Proof.Machine
end

