-- ==== Sys2Proof/Machine/Records.lean ====
section
/-! DEFINITION. The plain records that the Control Complex, the host port and the power logic hold: commands, events, partitions,
functions, window schedules, the voltage governor and the reset sequencer. -/
namespace Sys2Proof.Machine

/-- The command states of R78. -/
inductive CmdState where
  | posted | accepted | running | completed | aborted | failed | discarded
deriving DecidableEq, Repr

/-- The state codes of R78. -/
def CmdState.num : CmdState → Nat
  | .posted => 0 | .accepted => 1 | .running => 2 | .completed => 3 | .aborted => 4 | .failed => 5 | .discarded => 6

/-- The final states of R78. -/
def CmdState.final : CmdState → Bool
  | .completed | .aborted | .failed | .discarded => true
  | _ => false

/-- A time tag, R19. -/
structure Tag where
  inst : Nat := 0
  window : Nat := 0
  origin : Nat := 0
  revised : Bool := false
  valid : Bool := false
deriving DecidableEq, Repr

/-- A command that Bivexa accepted, R74, R77, R98. `started` says that its own row has run; `verdict` holds the status its
unit ends it with, once that is known, until COMMAND_COMMIT or another end row makes it final. `seen` is device memory as it was when the command became RUNNING, out of
which its row reads the tables that it names (R509). -/
structure Cmd where
  id : Nat
  slot : Nat
  part : Nat
  fence : Bool
  irq : Bool
  code : Nat
  tag : W32
  deadline : Nat
  cost : Nat
  params : Bytes
  state : CmdState := .accepted
  status : Nat := 0
  accept : Nat := 0
  acceptNs : Nat := 0
  commit : Nat := 0
  results : Bytes := []
  started : Bool := false
  verdict : Option Nat := none
  ins : List Tag := []
  outs : List Nat := []
  discard : Bool := false
  units : List (Nat × Nat) := []
  paceUse : Nat := 0
  ranAt : Nat := 0
  rspSlot : Option Nat := none
  responded : Bool := false
  aux : List Nat := []
  seen : Option (List (Nat × Byte)) := none
deriving DecidableEq, Repr

/-- An event, R79. -/
structure Event where
  code : Nat
  part : Nat := 0
  inst : Nat := 0
  repeats : Nat := 0
  data : Bytes := []
deriving DecidableEq, Repr

/-- When a limited event of an object was last raised and how many repeats were suppressed since, R79. -/
structure EvLimit where
  code : Nat
  obj : Nat
  last : Nat
  held : Nat
deriving DecidableEq, Repr

/-- The AVSBus commands that the part sends; it uses no others, R43. -/
inductive AvsCmd where
  | voltageWrite (mv : Nat) | voltageRead | currentRead | temperatureRead | statusRead
deriving DecidableEq, Repr

/-- The PTP messages that a port sends, R146, with the stamps they carry: a one-step message its own, a two-step one none, followed by the
message that carries it. -/
inductive PtpFrame where
  | sync (origin : Option Int) | followUp (origin : Int)
  | announce (prio1 prio2 : Nat)
  | delayReq | delayResp (rx : Int)
  | pdelayReq | pdelayResp (rx : Int) (tx : Option Int) | pdelayRespFollowUp (tx : Int)
deriving DecidableEq, Repr

/-- What leaves the part at its pins and ports, in order (the model's own port). Pins 0 to 15 are the timed GPIO, 16 to 31 the camera
triggers; a pulse returns low after its width in ns. -/
inductive OutItem where
  | avs (rail : Nat) (c : AvsCmd)
  | msix (v : Nat)
  | cfgRead (v : Nat)
  | readData (bytes : Bytes) (ep : Bool)
  | words (bytes : Bytes)
  | hostWrite (addr : Nat) (bytes : Bytes) (relaxed noSnoop : Bool)
  | hostRead (addr bytes : Nat)
  | unsupported
  | p0Event (e : Event)
  | frame (kind port : Nat) (bytes : Bytes)
  | edge (pin : Nat) (level : Bool)
  | pulse (pin width : Nat)
  | cmpIrq (unit : Nat) (owner : Writer)
  | ptp (port tb transport domain : Nat) (f : PtpFrame)
  | bridged (port : Nat) (frame : Bytes)
  | pps (tb width : Nat)
  | linkIdent (port : Nat) (bytes : Bytes)
  | linkSend (port : Nat) (part addr : Nat) (bytes : Bytes)
  | linkRead (port : Nat) (part addr n : Nat)
  | collRecord (bytes : Bytes)
  | heartbeat (dev : Nat)
  | jtag (open_ : Bool)
deriving DecidableEq, Repr

/-- The host port, R59 to R93. `aer` is the log of errors whose status bits are set; `reads` names the commands whose push reads its last DW
back (R91). -/
structure HostPort where
  perstHigh : Bool := false
  linkUp : Bool := false
  d3hot : Bool := false
  cfgCommand : W32 := 0
  cfgDevControl : W32 := 0
  cfgDevControl2 : W32 := 0
  cfgMsix : W32 := 0
  cfgBars : List (Nat × W32) := []
  cfgOther : List (Nat × W32) := []
  aer : List PcieErr := []
  mbox : List (Nat × Byte) := []
  posted : List Nat := []
  rspNext : Nat := 0
  evtNext : Nat := 0
  rspSeq : Nat := 0
  evtSeq : Nat := 0
  rspQ : List Nat := []
  evtQ : List Event := []
  evtLost : Nat := 0
  rspDiscarded : Nat := 0
  evtDiscarded : Nat := 0
  restoreDue : Bool := false
  dportHigh : Option W32 := none
  warmSeq : Option Nat := none
  modLast : List (Nat × Nat) := []
  modMerged : List Nat := []
  reads : List Nat := []
deriving DecidableEq, Repr

/-- A function of R108 that is disabled, or whose disable has not committed. -/
structure FuncRec where
  kind : Nat
  idx : Nat
  discard : Bool
  due : Nat
  waiting : List Nat
  cmds : List Nat
  ended : Nat
  failed : Nat
  committed : Bool
  restarting : List Nat := []
deriving DecidableEq, Repr

/-- The partition states of R114. -/
inductive PartState where
  | undefined | defined | active | stopping | paused | restarting
deriving DecidableEq, Repr

/-- State codes that EV_PART_STATE carries: the order of R114 (DESIGN CHOICE, log entry 6). -/
def PartState.num : PartState → Nat
  | .undefined => 0 | .defined => 1 | .active => 2 | .stopping => 3 | .paused => 4 | .restarting => 5

/-- A stop in progress, R117. -/
structure StopRec where
  cmd : Nat
  due : Nat
  ended : Nat
  failed : Nat
  timedOut : Bool := false
deriving DecidableEq, Repr

/-- A restart in progress. `toDefined` says that it ends DEFINED (R114); `cause` is the code EV_PART_RESTARTED reports. -/
structure RestartRec where
  cause : Nat
  at_ : Nat
  toDefined : Bool
  cmd : Option Nat := none
deriving DecidableEq, Repr

/-- A partition, R114. Its ranges are the registers MMV_RANGE_p_r, its quotas MMV_ARB_QUOTA. `entries` holds the instants of its
safe-state entries, `bands` its tolerance bands (R430), `checked` the verdicts of its last checked commands (true: disagree), `safe`
the triggers of the safe-state entry that runs (R438). -/
structure Part where
  state : PartState := .undefined
  core : Nat := 0
  stop : Option StopRec := none
  restart : Option RestartRec := none
  entries : List Nat := []
  bands : List (W32 × W32 × Nat × Bool) := []
  checked : List Bool := []
  safe : List Nat := []
  safeStop : Bool := false
deriving DecidableEq, Repr

/-- A window entry, R119. -/
structure Win where
  mask : Nat
  part : Nat
  start : Nat
  len : Nat
deriving DecidableEq, Repr

/-- A window schedule, R119; `from_` is the TB0 instant at which it takes effect. -/
structure WinSched where
  period : Nat
  wins : List Win
  from_ : Nat
deriving DecidableEq, Repr

/-- What a core's windows hold: the partition of the open window, and the shortening that overruns carry over, R120. -/
structure WinCore where
  open_ : Option Nat := none
  opens : Nat := 0
  closes : Nat := 0
  shorten : List (Nat × Nat) := []
deriving DecidableEq, Repr

/-- A component of the running firmware, R122, R124. -/
structure Comp where
  id : Nat
  scope : Nat
  version : Nat
deriving DecidableEq, Repr

/-- A live update in progress, R125. -/
structure FwUpd where
  cmd : Nat
  core : Nat
  comp : Comp
  due : Nat
  pausedAt : Nat
  mask : List Nat
  digest : Bytes
  timedOut : Bool := false
deriving DecidableEq, Repr

/-- The Control Complex. `comps` are the components of the image, `live` those that a live update replaced, with their control core (R124),
`order` the commands that an update held, which are dispatched in this order (R125). `imageHdr` holds, in stage LOAD, one bit for each of the first 4,096 bytes of the image that has arrived (R123). -/
structure Ccx where
  cmds : List Cmd := []
  nextId : Nat := 0
  limits : List EvLimit := []
  funcs : List FuncRec := []
  parts : List (Nat × Part) := []
  win : Option WinSched := none
  winNext : Option WinSched := none
  winCore : List (Nat × WinCore) := []
  comps : List Comp := []
  live : List (Nat × Comp) := []
  order : List Nat := []
  fwUpd : Option FwUpd := none
  fwChain : List (Comp × Bytes) := []
  imageLen : Nat := 0
  imageHdr : Nat := 0
  imageRollback : Nat := 0
  imageVersion : Nat := 0
  imageDigest : Bytes := []
  imageSlot : Nat := 0
deriving DecidableEq, Repr

/-- Probe statistics of a cell and band that wait for a merge, R54. -/
structure PaceStat where
  v : Nat
  t : Nat
  band : Nat
  sum : Nat
  vsum : Nat
  tsum : Int
  n : Nat
  droop : Nat
deriving DecidableEq, Repr

/-- The measurement interval of a subsystem, R38, R40, in µs: the one in force, the length of the interval that the latched counts
belong to, the TB0 instant of the last latch, and the TB0 instant of the last write of a new interval. -/
structure PaceIv where
  iv : Nat := 100
  counted : Nat := 100
  last : Nat := 0
  since : Nat := 0
deriving DecidableEq, Repr

/-- The voltage governor, R44 to R56. Voltages in mV, power in 0.1 W. `stepAt` is the instant of the last set point sent, `thermalAt` of
the last thermal step, `avsAt` of the AVSBus fault or the last retry, `admitAt` the TB0 instant of the last admission decision; `pace`
holds the intervals of the subsystems. -/
structure Gov where
  target : Nat := 700
  ceiling : Nat := 1
  burstMs : Nat := 2000
  burstAt : Option Nat := none
  holdUntil : Nat := 0
  margin : Nat := 15
  windowMs : Nat := 100
  samples : List Nat := []
  busyPct : Nat := 0
  gatedSince : Option Nat := none
  gatedTold : Bool := false
  avsBad : Bool := false
  table : List (Nat × W64) := []
  stats : List PaceStat := []
  paceAt : Nat := 0
  thermalAt : Option Nat := none
  stepAt : Option Nat := none
  avsAt : Nat := 0
  admitAt : Option Nat := none
  pace : List (Nat × PaceIv) := []
deriving DecidableEq, Repr

/-- A warm start-up in progress, R482: its cause code, the instant of the request or cause, whether it goes to stage LOAD instead of
verifying in place, whether the main domain is held, since when its bound and the recovery of VCORE count, whether VCORE_EN was cycled
and whether the bound was missed. -/
structure Warm where
  code : Nat
  at_ : Nat
  load : Bool
  held : Bool := true
  boundAt : Nat
  lowAt : Nat := 0
  cycled : Bool := false
  missed : Bool := false
deriving DecidableEq, Repr

/-- Power, supplies, temperature and reset, R469 to R487. `porstHigh` says that the part is released from cold reset; `enDue` is the
instant at which VCORE_EN is asserted again, `riseAt` the one at which it was; `reqs` holds the latched reset causes with their
instants; `srefAt` is the instant since which SREF0 is present. -/
structure Pwr where
  vaon : Bool := false
  porstHigh : Bool := false
  pllLocked : Bool := false
  mainUp : Bool := false
  phyUp : Bool := false
  vcoreTries : Nat := 0
  tj : Int := 25
  tjHigh : Option Int := none
  warm : Option Warm := none
  reqs : List (Nat × Nat) := []
  riseAt : Nat := 0
  enDue : Option Nat := none
  coldAt : Nat := 0
  hbmPoison : List Nat := []
  scrubPos : Nat := 0
  scrubFrom : Nat := 0
  refs : List RefClk := [.pcie, .timeref, .sref0, .sref1]
  srefAt : Nat := 0
deriving DecidableEq, Repr

end Sys2Proof.Machine
end

