-- ==== Sys2Proof/Machine/RecChn.lean ====
section
/-! DEFINITION. The plain records of the Churn fusion engine: schedules, instants, ego-motion, transforms, points, tracks. -/
namespace Sys2Proof.Machine

/-- How a stream takes part in fusion, R195, R196: selection 0 NEAREST, 1 BRACKET, 2 WINDOW. -/
structure Role where
  sel : Nat
  xform : Nat
  window : Nat
deriving DecidableEq, Repr

/-- A frame-end header that Churn holds, R196, or a BRACKET sample: its packet's bytes and payload and its frame-ring slot. -/
structure Sample where
  stamp : Nat
  flags : BitVec 16
  frame : Nat
  bytes : Bytes
  payload : Bytes
  addr : Option Nat
deriving DecidableEq, Repr

/-- A whole frame of a WINDOW stream. -/
structure PFrame where
  stamp : Nat
  flags : BitVec 16
  frame : Nat
  pkts : List Bytes
deriving DecidableEq, Repr

/-- The point format of a stream, R220; the default is the spec's. -/
structure PointFmt where
  coord : Nat := 0
  int_ : Nat := 1
  time : Nat := 0
  stride : Nat := 16
  skip : Nat := 0
  xo : Nat := 0
  yo : Nat := 4
  zo : Nat := 8
  io : Nat := 12
  tof : Nat := 0
  scale : Rat := 1
  unit : Nat := 1
  minRange : Rat := 0
deriving DecidableEq, Repr

/-- A point: sensor frame when decoded, body frame when deskewed; `src` stays its position in the sensor frame. -/
structure Pt where
  stream : Nat
  time : Nat
  pos : V3
  int_ : Nat
  carried : Bool := false
  src : V3 := {}
deriving DecidableEq, Repr

/-- A transform version, R204. -/
structure XVer where
  rot : M3
  trans : V3
  effective : Nat
  version : Nat
  parent : Nat
  valid : Bool
deriving DecidableEq, Repr

/-- A transform entry: owner and versions, newest first. -/
structure XEntry where
  owner : Option Nat := none
  vers : List XVer := []
  next : Nat := 0
deriving DecidableEq, Repr

/-- The ego configuration of R199; `imu` 255 is none. -/
structure EgoCfg where
  imu : Nat := 255
  wheelL : Nat := 0
  wheelR : Nat := 0
  src : Nat := 2
  fmt : Nat := 0
  kTilt : Nat := 10
  off : Nat := 0
  gyroScale : Rat := 0
  accelScale : Rat := 0
  ticks : Rat := 1
  rate : Nat := 1000
  xform : Nat := 0
  extrap : Nat := 20000000
  bias : V3 := {}
deriving DecidableEq, Repr

/-- What an ego source brings. -/
inductive EgoVal where
  | imu (gyro accel : V3)
  | wheel (left : Bool) (pos : Int)
  | ext (v : V3)
deriving DecidableEq, Repr

structure EgoIn where
  stamp : Nat
  val : EgoVal
deriving DecidableEq, Repr

/-- A history entry, R202. -/
structure EgoEntry where
  stamp : Nat
  p : V3
  q : Quat
  v : V3
  wb : V3
  valid : Bool
deriving DecidableEq, Repr

/-- The filter of R200 with its history, oldest first. `newL` and `newR` are encoder samples that wait for their pair. -/
structure Ego where
  p : V3 := {}
  q : Quat := {}
  v : V3 := {}
  wb : V3 := {}
  last : Option Nat := none
  prevL : Option (Nat × Int) := none
  prevR : Option (Nat × Int) := none
  newL : Option (Nat × Int) := none
  newR : Option (Nat × Int) := none
  hist : List EgoEntry := []
deriving DecidableEq, Repr

/-- A pose, R203. -/
structure Pose where
  p : V3 := {}
  q : Quat := {}
  v : V3 := {}
  wb : V3 := {}
  extrap : Bool := false
deriving DecidableEq, Repr

/-- The stream entry of a record, R210; the bracketing samples are carried beside it. -/
structure REntry where
  stream : Nat
  sel : Nat
  verdict : Nat := 0
  eflags : Nat := 0
  xver : Nat := 0xFFFF
  count : Nat := 0
  weight : Nat := 0
  ref : Nat := 0
  frame : Nat := 0
  first : Nat := 0
  last : Nat := 0
  place : Rigid := {}
  excluded : Nat := 0
  carried : Nat := 0
  kept : Nat := 0
  before : Option Bytes := none
  after : Option Bytes := none
  links : List (Nat × Nat) := []
deriving DecidableEq, Repr

inductive InstState where
  | opened | building | published | sealed
deriving DecidableEq, Repr

/-- What the point pipeline gave an instant, R224, R232. -/
structure Built where
  first : Nat := 0
  len : Nat := 0
  level : Nat := 0
  vflags : Nat := 0
  cap : Nat := 0xFFFF
  edge : Rat := 0
  sites : Nat := 0
  vset : Nat := 0
  droppedTrunc : Nat := 0
  droppedRoi : Nat := 0
  octGen : Nat := 0
  pts : List Pt := []
deriving DecidableEq, Repr

/-- What selection and deskew give an instant, R198, R207. -/
structure InstSel where
  entries : List REntry := []
  pose : Option Pose := none
  isStatic : Bool := false
  pts : List Pt := []
deriving DecidableEq, Repr

/-- An instant that has been opened, R192. `carry` holds the late points that were carried into it (R211), `revSel` the selection of the
revision that is due after instant `revAfter`, made when that one closed (R212); none where a transform version had been overwritten. -/
structure Inst where
  k : Nat
  t : Nat
  state : InstState := .opened
  reason : Nat := 0
  closedAt : Nat := 0
  entries : List REntry := []
  pose : Option Pose := none
  isStatic : Bool := false
  pts : List Pt := []
  built : Option Built := none
  noMagic : Bool := false
  discardRun : Bool := false
  rev : Nat := 0
  late : Bool := false
  revAfter : Option Nat := none
  seq : Nat := 0
  stepped : Bool := false
  carry : List Pt := []
  revSel : Option InstSel := none
deriving DecidableEq, Repr

/-- A rulebook spec, R236. -/
structure RbSpec where
  kind : Nat
  kernel : Nat
  inSet : Nat
  pair : Nat
deriving DecidableEq, Repr

/-- The voxel configuration of a schedule, R225; the default is the spec's. -/
structure VoxCfg where
  edge : W32 := 0x3DCCCCCD
  lo : V3 := ⟨-100, -100, -10⟩
  hi : V3 := ⟨100, 100, 10⟩
  maxSites : Nat := 524288
  halfNs : Nat := 100000000
  slots : Nat := 0
  addr : Nat := 0
  slotBytes : Nat := 0
  hold : Nat := 2
  specs : List RbSpec := []
  loBytes : Bytes := []
deriving DecidableEq, Repr

/-- A close of a schedule in progress, R216. -/
structure CloseRec where
  cmd : Nat
  dropped : Nat
deriving DecidableEq, Repr

/-- A fusion schedule beyond its registers, R189 to R192; `opened` says that a partition has opened it and owns it. -/
structure Sched where
  first : Nat := 0
  count : Nat := 0
  limit : Nat := 0
  mask : Nat := 0
  ring : Nat := 0
  slots : Nat := 0
  horizon : Nat := 0
  tagWin : Nat := 0
  kNext : Nat := 0
  insts : List Inst := []
  carry : List Pt := []
  lastClosed : Option Nat := none
  closing : Option CloseRec := none
  halted : Bool := false
  opened : Bool := false
  vox : VoxCfg := {}
  voxNext : Nat := 0
deriving DecidableEq, Repr

/-- A run of the point table that is held, R223. -/
structure PRun where
  sched : Nat
  k : Nat
  first : Nat
  len : Nat
  released : Bool := false
deriving DecidableEq, Repr

/-- An octree node, R241. -/
structure ONode where
  child : Nat := 0xFFFFFFFF
  states : BitVec 16 := 0
  age : Nat := 0
  level : Nat := 0
  parent : Nat := 0xFFFFFFFF
deriving DecidableEq, Repr

/-- The octree, R240. `sched` none is disabled. -/
structure Oct where
  sched : Option Nat := none
  depth : Nat := 0
  persist : Nat := 0
  leaf : Rat := 0
  centre : V3 := {}
  nodes : List (Nat × ONode) := []
deriving DecidableEq, Repr

/-- A table re-split in progress, R243; `restarted` holds the partitions that its timeout restarted. -/
structure Split where
  cmd : Nat
  oct : Nat
  due : Nat
  started : Nat
  timedOut : Bool := false
  restarted : List Nat := []
deriving DecidableEq, Repr

/-- The Churn fusion engine but for the tracker. `egoSet` says that CHURN_SET_EGO has run, `imuAt` when, by the ticks, the newest eligible
inertial sample came. -/
structure Chn where
  scheds : List (Nat × Sched) := []
  roles : List (Nat × Role) := []
  fmts : List (Nat × PointFmt) := []
  samples : List (Nat × List Sample) := []
  partial_ : List (Nat × List Bytes) := []
  frames : List (Nat × List PFrame) := []
  egoCfg : EgoCfg := {}
  ego : Ego := {}
  egoIns : List EgoIn := []
  extAt : Option Nat := none
  egoSet : Bool := false
  imuAt : Option Nat := none
  xforms : List (Nat × XEntry) := []
  order : List (Nat × Nat) := []
  runs : List PRun := []
  oct : Oct := {}
  split : Option Split := none
deriving DecidableEq, Repr

/-- A track, R250. -/
structure Track where
  id : Nat
  state : Nat
  cls : Nat
  hits : Nat
  misses : Nat
  gen : Nat
  born : Nat
  updated : Nat
  pos : V3
  vel : V3
  cov : List Rat
  extent : Bytes
  yaw : Rat
  score : W32
  recSeq : Nat
  cost : W32
  user : Bytes
deriving DecidableEq, Repr

/-- The tracker's configuration, R249. -/
structure TrkCfg where
  confirm : Nat := 3
  tent : Nat := 2
  coast : Nat := 10
  slots : Nat := 2
  gate : Rat := 0
  penalty : Rat := 0
  noise : Rat := 0
  velVar : Rat := 0
  ring : Nat := 0
  coastNs : Nat := 0
deriving DecidableEq, Repr

/-- An association whose solver has chosen, R253 to R256: its pairs (entry, detection, cost), births (entry, detection), births
refused, components solved, halvings and oversize components (tracks, detections), until its commit point. -/
structure Assoc where
  cmd : Nat
  t : Nat
  recSeq : Nat
  ego : Option Rigid
  tag : Tag
  dets : List Bytes
  pairs : List (Nat × Nat × Rat) := []
  births : List (Nat × Nat) := []
  full : Nat := 0
  comps : Nat := 0
  halvings : Nat := 0
  excess : List (List Nat × List Nat) := []
deriving DecidableEq, Repr

/-- The tracker: entries in use by index, the generation that the next use of each entry takes, the last associated instant and the
association that waits for its commit point. -/
structure Trk where
  cfg : TrkCfg := {}
  tracks : List (Nat × Track) := []
  gens : List (Nat × Nat) := []
  associated : Option Nat := none
  pend : Option Assoc := none
deriving DecidableEq, Repr

end Sys2Proof.Machine
end

