-- ==== Sys2Proof/Machine/RecTar.lean ====
section
/-! DEFINITION. The plain records of the Tensor Array, its checks and its starters, and tensor descriptors. -/
namespace Sys2Proof.Machine

/-- A tensor descriptor, R313. -/
structure Desc where
  addr : Nat
  base : Nat
  fmt : Nat
  rank : Nat
  dev : Nat
  mark : Bool
  exts : List Nat
  strides : List Nat
  tag : Tag
deriving DecidableEq, Repr

/-- A core descriptor in the queue of a logical core or in flight, R288, R290. `ds` holds the tensor descriptors it names, by the offset of their
address field; `outs` the offsets of its outputs; `units` the (lengths row, KV head) pairs of an attention job, or the (lengths row, page entry) of a page descriptor (R354, R362); `tags`
the tags of its inputs; `rerun` 0 none, 1 due, 2 running on checker slot `rerunSlot`, 3 dropped (R433); `slot` the voxel-set slot it reads
(R239). -/
structure TJob where
  cmd : Nat
  seq : Nat
  part : Nat
  core : Nat
  raw : Bytes
  ds : List (Nat × Desc) := []
  outs : List Nat := []
  units : List (Nat × Nat) := []
  started : Bool := false
  startedAt : Nat := 0
  ran : Bool := false
  set : Nat := 0
  band : Nat := 0
  tags : List Tag := []
  tiles : Nat := 0
  pick : Nat := 0
  shadowBad : Nat := 0
  disagrees : Bool := false
  rerun : Nat := 0
  rerunSlot : Nat := 0
  ranAt : Nat := 0
  slot : Option Nat := none
  truncated : Bool := false
deriving DecidableEq, Repr

/-- A TENSOR_CHAIN: the core descriptors that have not been queued yet, their core, and how many have completed, R303. -/
structure Chain where
  cmd : Nat
  core : Nat
  rest : List Bytes
  done : Nat := 0
  suspect : Bool := false
  truncated : Bool := false
deriving DecidableEq, Repr

/-- A frame set, R433, R434; `count` counts its checked commands for sampling. -/
structure FrameSet where
  part : Nat
  set : Nat
  sampleN : Nat
  recAddr : Nat
  count : Nat := 0
  frame : Nat := 0
  goodFrame : Nat := 0
  goodDesc : Nat := 0
  goodBase : Nat × Nat := (0, 0)
  goodTag : Tag := {}
  suspect : Bool := false
  suspects : Nat := 0
deriving DecidableEq, Repr

/-- A starter that runs, R436: `slot` is the checker slot, or 16 + the physical core of the active side of a pair; a window closes
at `closes`. -/
structure StarterRun where
  slot : Nat
  set : Nat
  opened : Nat
  closes : Nat := 0
  late : Bool := false
  pair : Bool := false
deriving DecidableEq, Repr

/-- A starter pair that waits for its two sides, R434, R436: the active core, the checker core if one was involved, the partition. -/
structure StarterPair where
  core : Nat
  checker : Option Nat
  part : Nat
  frame : Bool
  active : Option Bool := none
  side : Option Bool := none
deriving DecidableEq, Repr

/-- A core retirement that waits for drained work or a promotion, R126. -/
structure Retire where
  cmd : Option Nat
  phys : Nat
  promote : Bool
deriving DecidableEq, Repr

/-- The Tensor Array. `rngPend` holds the reseeds that wait for the next descriptor start, `rngLo` the low halves of seeds being
written; `slots` holds the voxel-set slots that commands in flight read (R239); `residAt` and `memAt` the instants of residue mismatches and uncorrectable errors of each physical core. -/
structure Tar where
  jobs : List TJob := []
  nextSeq : Nat := 0
  chains : List Chain := []
  rng : List (Nat × Bytes) := []
  rngPend : List (Nat × Bytes) := []
  rngLo : List (Nat × W64) := []
  sets : List FrameSet := []
  starters : List StarterRun := []
  pairs : List StarterPair := []
  starterNext : Nat := 0
  starterBad : List Nat := []
  residAt : List (Nat × List Nat) := []
  memAt : List (Nat × List Nat) := []
  retires : List Retire := []
  slots : List (Nat × Nat) := []
deriving DecidableEq, Repr

end Sys2Proof.Machine
end

