-- ==== Sys2Proof/Machine/RecKv.lean ====
section
/-! DEFINITION. The plain records of the KV page cache: pools, pages, sequences, prefix nodes, fetches, walks and transfers. -/
namespace Sys2Proof.Machine

/-- A Cellar region, R367: target 0 none, 1 peer, 2 host. -/
structure Cellar where
  target : Nat := 0
  dev : Nat := 0
  timeoutMs : Nat := 0
  base : Nat := 0
  slots : Nat := 0
  apOff : Nat := 0
deriving DecidableEq, Repr

/-- A pool, R356, R374; `idBase` places its page descriptors in the metadata region; `size` is page_bytes. -/
structure KvPool where
  ptok : Nat
  fmt : Nat
  sharing : Bool
  layers : Nat
  heads : Nat
  d : Nat
  frames : Nat
  addr : Nat
  ids : Nat
  reserve : Nat
  prefetch : Nat
  salt : Bytes
  idBase : Nat
  size : Nat
  cellar : Cellar := {}
deriving DecidableEq, Repr

/-- A page, R357: state 0 FREE, 1 RESIDENT, 2 SPILLING, 3 CELLAR, 4 FETCHING, 5 LOST. -/
structure KvPage where
  state : Nat := 0
  node : Bool := false
  refs : Nat := 0
  frame : Nat := 0
  slot : Nat := 0
  last : Nat := 0
  gen : Nat := 0
  pins : Nat := 0
deriving DecidableEq, Repr

/-- A sequence, R359, R360. -/
structure KvSeq where
  pool : Nat
  len : Nat := 0
  table : List Nat := []
  tag : Tag := {}
  broken : Bool := false
deriving DecidableEq, Repr

/-- A node of a pool's prefix tree, R365. -/
structure KvNode where
  pool : Nat
  hash : Nat
  parent : Nat
  depth : Nat
  page : Nat
deriving DecidableEq, Repr

/-- A fetch from the Cellar in flight, R369. -/
structure KvFetch where
  pool : Nat
  page : Nat
  since : Nat
deriving DecidableEq, Repr

/-- The walk of a paged ATTN_FWD, R362: the (row, page entry) pairs that are still to be emitted, the job
that each page descriptor is made of; `stalled` marks a wait that was counted. -/
structure KvWalk where
  cmd : Nat
  job : TJob
  pool : Nat
  todo : List (Nat × Nat)
  stalled : Bool := false
deriving DecidableEq, Repr

/-- A sequence that a peer sends, R372. -/
structure KvInbox where
  peer : Nat
  matchId : Nat
  ptok : Nat
  layers : Nat
  heads : Nat
  d : Nat
  fmt : Nat
  len : Nat
  tag : Tag
  pages : List Bytes
deriving DecidableEq, Repr

/-- The KV machinery. `names` lists, per command between ACCEPTED and its end, the sequences it names; `pages` are kept by
pool × 2²⁴ + id; `fetchedBy` counts the fetches that ended for a command. -/
structure Kv where
  metaAddr : Nat := 0
  metaBytes : Nat := 0
  maxSeq : Nat := 0
  ptBlocks : Nat := 0
  maxNodes : Nat := 0
  maxIds : Nat := 0
  key : Bytes := []
  pools : List (Nat × KvPool) := []
  pages : List (Nat × KvPage) := []
  seqs : List (Nat × KvSeq) := []
  nodes : List KvNode := []
  names : List (Nat × List Nat) := []
  fetches : List KvFetch := []
  fetchedBy : List (Nat × Nat) := []
  walks : List KvWalk := []
  inbox : List KvInbox := []
deriving DecidableEq, Repr

end Sys2Proof.Machine
end

