-- ==== Sys2Proof/Machine/RecMmv.lean ====
section
/-! DEFINITION. The plain records of Memory and Movement: movement commands in flight, frame rings, Chamerline ports, collectives and
arbiters. -/
namespace Sys2Proof.Machine

/-- A movement command in flight: its tensors by the offset of their address field (sources of a concatenation from 0x100 on), and the
offsets of its outputs, R317. -/
structure MoveJob where
  cmd : Nat
  ds : List (Nat × Desc)
  outs : List Nat
deriving DecidableEq, Repr

/-- The frame that a ring is writing, R324. -/
structure RingFrame where
  slot : Nat
  frame : Nat
  pkts : Nat := 0
  length : Nat := 0
  longest : Nat := 0
  stamp : Nat := 0
  trunc : Bool := false
deriving DecidableEq, Repr

/-- A frame ring, R323. -/
structure Ring where
  stream : Nat
  slots : Nat
  lines : Bool
  slotBytes : Nat
  addr : Nat
  pitch : Nat
  window : Nat
  part : Nat
  next : Nat := 0
  cur : Option RingFrame := none
deriving DecidableEq, Repr

/-- A Chamerline port beyond its registers, R329 to R331: the width trained, both nonces, the peer, the keys (64 bytes), the instants of
GCM failures, the instant it left UP or DETECT. -/
structure Port where
  width : Nat := 0
  nonce : Bytes := []
  peerNonce : Bytes := []
  peerDev : Nat := 0
  peerPort : Nat := 0
  keys : Bytes := []
  gcmAt : List Nat := []
  since : Nat := 0
deriving DecidableEq, Repr

/-- A MOVE_LINK_RETRAIN in progress, R333; `training` says that step 3 has begun, `restarted` names the partitions that its
timeout restarts. -/
structure Retrain where
  cmd : Nat
  port : Nat
  due : Nat
  training : Bool := false
  downAt : Nat := 0
  timedOut : Bool := false
  restarted : List Nat := []
deriving DecidableEq, Repr

/-- A collective of this device, R334 to R336. -/
structure Coll where
  cmd : Nat
  id : Nat
  op : Nat
  redop : Nat
  root : Nat
  members : Nat
  timeoutMs : Nat
  since : Nat
  src : Option Desc
  dst : Option Desc
  recs : List CollRecord := []
deriving DecidableEq, Repr

/-- A request parked at an arbiter, R391, or the owner of its grant. -/
structure Parked where
  input : Nat
  part : Nat
  len : Nat
  latest : Option Nat
  since : Nat
deriving DecidableEq, Repr

/-- An arbiter beyond its registers, R386 to R391: its owner, its pending queue in arrival order, the quotas in force, and the units
granted to each partition and in all in the slice that runs and, newest first, in the 63 before it. -/
structure Arb where
  owner : Option Parked := none
  queue : List Parked := []
  quota : List Nat := []
  cur : List Nat := []
  total : Nat := 0
  slices : List (List Nat) := []
deriving DecidableEq, Repr

/-- Memory and Movement. `peers` lists, per command, the peer device and port its traffic uses. -/
structure Mmv where
  moves : List MoveJob := []
  rings : List (Nat × Ring) := []
  ports : List (Nat × Port) := []
  retrains : List Retrain := []
  colls : List Coll := []
  arrived : List (Nat × CollRecord) := []
  peers : List (Nat × Nat × Nat) := []
  arbs : List (Nat × Arb) := []
deriving DecidableEq, Repr

end Sys2Proof.Machine
end

