-- ==== Sys2Proof/Machine/RecPln.lean ====
section
/-! DEFINITION. The plain records of the Planner: grid, body models, check jobs, searches, stop service. -/
namespace Sys2Proof.Machine

/-- A primitive of a body model, R268. -/
structure Prim where
  capsule : Bool
  link : Nat
  ground : Bool
  radius : Rat
  a : V3
  b : V3
deriving DecidableEq, Repr

structure BodyModel where
  links : Nat
  prims : List Prim
deriving DecidableEq, Repr

/-- A waypoint, R269; `tOff` is in µs. -/
structure Way where
  pos : V3 := {}
  q : Quat := {}
  tOff : Nat := 0
  links : List (V3 × Quat) := []
deriving DecidableEq, Repr

/-- What a check tests with, R270, R271, R274. -/
structure ChkPar where
  model : Nat
  unknownHit : Bool
  outHit : Bool
  margin : Rat
  floorZ : Rat
  step : Rat
deriving DecidableEq, Repr

/-- What a job is for, R273, R284: 2 PLAN_CHECK, 3 expansion, 4 revalidation; stop jobs are built and run in one. -/
inductive JobUse where
  | check (cmd path : Nat)
  | expand (cmd node prim : Nat)
  | candidate (cmd index : Nat)
  | revalidate (cmd : Nat)
deriving DecidableEq, Repr

/-- The command a job serves. -/
def JobUse.cmd : JobUse → Nat
  | .check c _ => c | .expand c _ _ => c | .candidate c _ => c | .revalidate c => c

/-- A check job in the queue, R273; deadline 0 is none. -/
structure Job where
  use : JobUse
  deadline : Nat
  par : ChkPar
  path : List Way
deriving DecidableEq, Repr

/-- The first hit of a check, R274. -/
structure Hit where
  state : Nat
  prim : Nat
  at_ : Nat
  seg : Nat := 0
  frac : Rat := 0
  cell : Nat
deriving DecidableEq, Repr

/-- A PLAN_CHECK in progress: paths left, results done, what was found, and the tag of the newest generation used. -/
structure ChkCmd where
  cmd : Nat
  results : Nat
  firstClear : Bool
  left : Nat
  clear : Nat := 0
  hits : Nat := 0
  tag : Tag := {}
deriving DecidableEq, Repr

/-- The states of a search, R277. -/
inductive SrchState where
  | queued | searching | selected | revalidating
deriving DecidableEq, Repr

/-- A node of a lattice search, R276: grid column, heading bin, cost so far, and how it was reached. -/
structure SNode where
  cx : Int
  cy : Int
  h : Nat
  g : Rat
  parent : Nat
  prim : Nat
  closed : Bool := false
deriving DecidableEq, Repr

/-- A lattice primitive, R276. -/
structure LPrim where
  h0 : Nat
  h1 : Nat
  dx : Int
  dy : Int
  cost : Rat
  poses : List (Rat × Rat × Rat)
deriving DecidableEq, Repr

/-- A candidate path: its cost and waypoints. -/
structure Cand where
  cost : W32
  path : List Way
deriving DecidableEq, Repr

/-- A search, R275 to R279. -/
structure Search where
  cmd : Nat
  state : SrchState := .queued
  deadline : Nat
  reserve : Nat
  lattice : Bool
  retries : Nat
  par : ChkPar
  start : Way
  startTag : Tag
  goal : V3
  posTol : Rat
  yawTol : Rat
  vNom : Rat
  maxWp : Nat
  out : Nat
  outBase : Nat
  prims : List LPrim := []
  cands : List Cand := []
  nodes : List SNode := []
  expanded : Nat := 0
  invalid : Nat := 0
  path : List Way := []
  cost : W32 := 0
  gen : Nat := 0
deriving DecidableEq, Repr

/-- A fill that waits, R264: the record's kept points, ego pose and tag, and each stream's sensor origin in the body frame. -/
structure Fill where
  inst : Nat
  tag : Tag
  pose : Option Pose
  isStatic : Bool
  pts : List Pt
  origins : List (Nat × V3)
  since : Nat
deriving DecidableEq, Repr

/-- A PLAN_GRID_WRITE that waits for the hold or a fill, R273, and since when. -/
structure GridWr where
  cmd : Nat
  since : Nat
deriving DecidableEq, Repr

/-- The stop service, R280. -/
structure StopCfg where
  on : Bool := false
  ring : Nat := 0
  slots : Nat := 2
  model : Nat := 0
  unknownHit : Bool := false
  decel : Rat := 1
  margin : Rat := 0
  floorZ : Rat := 0
deriving DecidableEq, Repr

/-- The published path that the stop service follows, R281. -/
structure PubPath where
  start : Nat
  path : List Way
deriving DecidableEq, Repr

/-- The Planner. The origin of the grid is held exactly; its registers show it in FP32. -/
structure Pln where
  ox : Rat := 0
  oy : Rat := 0
  oz : Rat := 0
  maxRange : Rat := 0
  tag : Tag := {}
  ego : Option Pose := none
  lastPose : Pose := {}
  models : List (Nat × BodyModel) := []
  jobs : List Job := []
  checks : List ChkCmd := []
  resultTags : List (Nat × Tag) := []
  searches : List Search := []
  fills : List Fill := []
  writes : List GridWr := []
  stop : StopCfg := {}
  stopDue : Nat := 0
  pub : Option PubPath := none
deriving DecidableEq, Repr

end Sys2Proof.Machine
end

