-- ==== Sys2Proof/Machine/RecSiu.lean ====
section
/-! DEFINITION. The plain records of the Sensor Intake Unit: packets, frames in progress, streams, ports, calibration. -/
namespace Sys2Proof.Machine

/-- A packet in a stream queue: the fields of its header word (R180) and its payload. `emb` marks a CSI-2 embedded-data packet. -/
structure Pkt where
  kind : Nat
  stamp : Nat
  pin : Nat
  flags : BitVec 16
  stream : Nat
  frame : Nat
  seq : Nat
  payload : Bytes
  emb : Bool := false
deriving DecidableEq, Repr

/-- A frame in progress, R166: `start` is the alignment code it started in (R174), `y` its observation (R169, R172), `parts`
its payloads in order with their embedded-data mark, `seed` whether its counter seeds the slot. `discarding` says that its rest
is discarded. -/
structure OpenFrame where
  start : Nat
  y : Nat
  first : Nat
  last : Nat
  parts : List (Bool × Bytes) := []
  index : Option Nat := none
  phy : Bool := false
  discarding : Bool := false
deriving DecidableEq, Repr

/-- What an end-to-end slot checks on a stream, R176, R177, R185. -/
structure E2e where
  cntLoc : Nat := 0
  cntWidth : Nat := 0
  cntOff : Nat := 0
  chkLoc : Nat := 0
  chkAlg : Nat := 0
  chkOff : Nat := 0
  stampChk : Bool := false
  cover : Nat := 0
deriving DecidableEq, Repr

/-- A calibration entry of a stream and band, R170. -/
structure CalEntry where
  maxNs : Nat
  pace : Nat
  mv : Nat
  tj : Int
deriving DecidableEq, Repr

/-- A stream beyond its registers, R166 to R182; `heads` holds the frame-end headers whose copies Churn has not taken yet (R196). -/
structure Strm where
  owner : Option Nat := none
  framePkts : Nat := 1
  nativeFmt : Nat := 0
  nativeOff : Nat := 0
  kp : Nat := 3
  ki : Nat := 8
  lead : Nat := 0
  guard : Nat := 0
  e2e : E2e := {}
  cur : Option OpenFrame := none
  ethN : Nat := 0
  genCnt : Nat := 0
  slotOn : Bool := false
  prevCnt : Option Nat := none
  prevTs : Option Nat := none
  index : Option Nat := none
  fit : List (Nat × Nat) := []
  fails : Nat := 0
  resync : Bool := false
  leads : List Nat := []
  calMax : List (Nat × CalEntry) := []
  cal : List (Nat × CalEntry) := []
  sigSeen : Bool := false
  differ : Nat := 0
  dropPending : Bool := false
  dropNext : Bool := false
  queue : List Pkt := []
  headOff : Nat := 0
  tapQ : List Pkt := []
  tapResets : Nat := 0
  seq : Nat := 0
  flushes : Nat := 0
  resets : List Nat := []
  lastStart : Nat := 0
  heads : List Pkt := []
deriving DecidableEq, Repr

/-- The Sensor Intake Unit. `ports` holds the configuration bytes 0x22 to 0x2F of each port, by kind and number (R187). -/
structure Siu where
  streams : List (Nat × Strm) := []
  ports : List ((Nat × Nat) × Bytes) := []
deriving DecidableEq, Repr

end Sys2Proof.Machine
end

