-- ==== Sys2Proof/Machine/RecSsi.lean ====
section
/-! DEFINITION. The plain records of the Safety and Security Island: the safety configuration, the reflex lane, the standby group, the
SAFE pins, and security. -/
namespace Sys2Proof.Machine

/-- A loop of the reflex lane, R401, R425, and its run: `next` counts the periodic releases passed, `last` is the last release. -/
structure Loop where
  period : Nat
  phase : Nat
  budget : Nat
  trigger : Nat
  critical : Bool
  tracking : Bool
  overrunMax : Nat
  entry : Nat
  running : Bool := false
  started : Nat := 0
  noInput : Bool := false
  last : Nat := 0
  skipRow : Nat := 0
  cleanFrom : Nat := 0
  arrived : Bool := false
deriving DecidableEq, Repr

/-- A stream tap, R404, R423: its ring starts at `base` of Island memory; `next` counts the slots written. -/
structure Tap where
  stream : Nat
  slots : Nat
  slotBytes : Nat
  window : Nat
  base : Nat
  next : Nat := 0
deriving DecidableEq, Repr

/-- A channel of the motion entry, R426: FP32 patterns. -/
structure Chan where
  lo : W32
  hi : W32
  rate : W32
  step : W32
deriving DecidableEq, Repr

/-- The motion entry, R426. -/
structure Motion where
  part : Nat
  fbMode : Nat
  ageLimit : Nat
  stopNs : Nat
  stopHardNs : Nat
  chans : List Chan
deriving DecidableEq, Repr

/-- A trajectory, R410: points by row, FP32. `buf` is its buffer in Island memory; `swap` the instant of its swap. -/
structure Traj where
  seq : Nat
  start : Nat
  dtNs : Nat
  chans : Nat
  points : List (List W32)
  tag : Tag
  buf : Nat
  swap : Nat := 0
deriving DecidableEq, Repr

/-- The reflex lane, R397 to R418. `base` holds the setpoints of IDLE and of a hold; `from_` is the instant a STOP replays from and
`stopT` its stop time. -/
structure Rfx where
  loops : List Loop := []
  taps : List Tap := []
  motion : Option Motion := none
  traj : Option Traj := none
  offers : List (Nat × Traj) := []
  nextSeq : Nat := 1
  base : List Rat := []
  from_ : Nat := 0
  stopT : Nat := 0
  mirror : Bytes := []
deriving DecidableEq, Repr

/-- A band of R430. -/
structure Band where
  absTol : W32 := 0
  relTol : W32 := 0
  ppm : Nat := 0
  nanEq : Bool := false
deriving DecidableEq, Repr

/-- A starter set, R435. -/
structure StarterSet where
  listAddr : Nat
  n : Nat
  expectLen : Nat
  band : Band
  expectAddr : Nat
  digest : Bytes
  bad : Bool := false
deriving DecidableEq, Repr

/-- The policy of R424. -/
structure Policy where
  disagreeMax : Nat := 3
  disagreeFrames : Nat := 100
  qResetMax : Nat := 3
  residMax : Nat := 8
  memUeMax : Nat := 2
  safeMax : Nat := 3
  starterPeriod : Nat := 1000000000
  starterLen : Nat := 10000
  starterPhase : Nat := 0
  checkWait : Nat := 1000000
deriving DecidableEq, Repr

/-- The standby group, R442, R443: the last heartbeat of each member, by device, and the lost ones. -/
structure Standby where
  role : Nat := 0
  period : Nat := 10
  group : Nat := 0
  misses : Nat := 3
  seen : List (Nat × Nat) := []
  lost : List Nat := []
  sentAt : Nat := 0
  joined : Nat := 0
deriving DecidableEq, Repr

/-- Security beyond its registers: the policy digest of R464 and the digest of the safety configuration, R457. -/
structure Sec where
  policy : Bytes := []
  cfgDigest : Bytes := []
deriving DecidableEq, Repr

/-- The Safety and Security Island. -/
structure Ssi where
  policy : Policy := {}
  cfgVersion : Nat := 0
  starters : List StarterSet := []
  rfx : Rfx := {}
  standby : Standby := {}
  sec : Sec := {}
  causes : List Nat := [1]
  aliveLevel : Bool := false
  aliveAt : Nat := 0
  alive : Bool := true
  digestAt : Nat := 0
  slotNext : List (Nat × Nat) := []
deriving DecidableEq, Repr

end Sys2Proof.Machine
end

