-- ==== Sys2Proof/Machine/RecTime.lean ====
section
/-! DEFINITION. The plain records of the Time and Network Unit: time bases, steps, PTP domains, launch entries, epochs. -/
namespace Sys2Proof.Machine

/-- A step that waits for its tick, R135. `who` is the requester that EV_TIME_JUMP reports, `written` the tick of its write. -/
structure StepReq where
  off : Int
  forced : Bool
  who : Writer
  cmd : Option Nat := none
  written : Nat := 0
deriving DecidableEq, Repr

/-- A PTP or gPTP domain bound to a time base, R146, R163. -/
structure PtpCfg where
  profile : Nat
  ports : Nat
  role : Nat
  transport : Nat
  oneStep : Bool
  prio1 : Nat
  prio2 : Nat
  logSync : Int
  logAnnounce : Int
deriving DecidableEq, Repr

/-- A time base, R127 to R136: `acc` counts nanoseconds with 32 fraction bits, wide enough for 48 bits of seconds; `wraps` and `lastCount` are
what Bivexa read last of a short one; `stepTick` is the tick of the last step. -/
structure TimeBase where
  acc : BitVec 128 := 0
  wraps : Int := 0
  lastCount : Nat := 0
  steps : List StepReq := []
  stepTick : Option Nat := none
  unlock : Option (Nat × Nat) := none
  p0Key : Bool := false
  p0Open : Option Nat := none
  ppsLocked : Bool := false
  ppsLast : Nat := 0
  ppsSpurious : Nat := 0
  ptp : Option PtpCfg := none
  gm : W64 := 0
  lastAnnounce : Nat := 0
deriving DecidableEq, Repr

/-- The states of a launch entry, R153. -/
inductive GeyState where
  | free | armed | fetching | ready | held | launching | refused | cancelled
deriving DecidableEq, Repr

def GeyState.num : GeyState → Nat
  | .free => 0 | .armed => 1 | .fetching => 2 | .ready => 3 | .held => 4 | .launching => 5 | .refused => 6 | .cancelled => 7

/-- A launch entry with its share of the Geyser buffer, R151, R153, R154. -/
structure Gey where
  inst : Nat := 0
  period : Nat := 0
  ageLimit : Nat := 0
  plDesc : Nat := 0
  fbDesc : Nat := 0
  kind : Nat := 0
  index : Nat := 0
  tb : Nat := 0
  flags : BitVec 8 := 0
  lead : Nat := 0
  plLen : Nat := 0
  fbLen : Nat := 0
  owner : Nat := 255
  state : GeyState := .free
  status : Nat := 0
  attempts : Nat := 0
  launchedAt : Nat := 0
  skipped : Nat := 0
  pl : Bytes := []
  plTag : Tag := {}
  plMark : Bool := false
  fb : Bytes := []
  fbMark : Bool := false
  fbHave : Bool := false
  fetchErr : Option (Nat × Nat × Nat) := none
  freeSince : Nat := 0
  noRearm : Bool := false
  fbDue : Bool := false
  startedAt : Nat := 0
  held : Bool := false
deriving DecidableEq, Repr

/-- An entry that waits in software until it is less than 2,000,000,000 ns ahead on its short time base, R129: its entry
number and its 64-bit instant. -/
structure Handoff where
  idx : Nat
  inst : Nat
deriving DecidableEq, Repr

/-- What a port's delay exchange holds for one domain, R147: origin and stamp of the last Sync, and the stamp of the last delay request. -/
structure DelayExch where
  origin : Int := 0
  syncAt : Int := 0
  reqAt : Int := 0
deriving DecidableEq, Repr

/-- An entry of a gate control list, R149: the gates open in it, by traffic class, and its length in ns. -/
structure GateEntry where
  gates : BitVec 8
  ns : Nat
deriving DecidableEq, Repr

/-- A credit-based shaper, R149: bits per second it earns, and its credit in bits at a tick. -/
structure Shaper where
  slope : Nat
  credit : Int := 0
  at_ : Nat := 0
deriving DecidableEq, Repr

/-- A port of the TSN bridge, R149: VLAN membership by ID, the gate control list with its time base and start, and the shapers of classes
6 and 7. `members` none takes every VLAN. -/
structure BridgePort where
  members : Option (List Nat) := none
  gates : List GateEntry := []
  gateTb : Nat := 1
  gateBase : Nat := 0
  shapers : List (Nat × Shaper) := []
deriving DecidableEq, Repr

/-- A snapshot epoch that is pending, R158 to R161, with the shadows its banks latched. -/
structure Epoch where
  inst : Nat
  dst : Nat
  cmd : Nat
  part : Nat
  latched : Bool := false
  late : Bool := false
  shadow : List (List W64) := []
deriving DecidableEq, Repr

/-- The Time and Network Unit. `pins` holds the levels of the timed GPIO (15:0) and of the camera triggers (31:16), `falls` the ends of the
pulses on them and `ppsFall` that of a PPS_OUT pulse, by the ticks in ns; `cmpOwner` who set a compare unit up; the delays are by 8 × tb + port. -/
structure Tnu where
  tbs : List (Nat × TimeBase) := []
  capUnread : List Nat := []
  capEdges : List (Nat × List (Nat × Nat)) := []
  pins : W32 := 0
  falls : List (Nat × Nat) := []
  cmpOwner : List (Nat × Writer) := []
  ppsPolarity : Nat := 0
  ppsOutTb : Nat := 255
  ppsOutOff : Int := 0
  ppsOutWidth : Nat := 100000000
  ppsOutNext : Nat := 0
  ppsFall : Option Nat := none
  macDelay : List (Nat × Int) := []
  exch : List (Nat × DelayExch) := []
  bridge : List (Nat × BridgePort) := []
  gey : List (Nat × Gey) := []
  handoff : List Handoff := []
  busy : List (Nat × Nat × Nat) := []
  epochs : List Epoch := []
  nextEpoch : Nat := 0
deriving DecidableEq, Repr

end Sys2Proof.Machine
end

