-- ==== Sys2Proof/Machine/Regs.lean ====
section
/-! DEFINITION. The registers of the block, R10 and R31: one constructor per register of the spec's register tables, with its
bank index; their addresses, access types and reset values. BAR 0 registers (identity block, host port, MSI-X table) carry
their BAR 0 offset as address; every other register its address in the control and status register space of R28. -/
namespace Sys2Proof.Machine

/-- Units of the pace bank of subsystem ss, R39. The spec gives 14 for TAR, 5 for MMV and the range 1 to 16; the other
subsystems' counts are a DESIGN CHOICE (log entry 5). -/
def paceUnitsReset (ss : Nat) : W64 :=
  if ss = 5 then 14 else if ss = 6 then 5 else 1

/-- Default burst limit of arbiter n, R383. -/
def arbBurstReset (n : Nat) : W64 :=
  if n < 32 then 32 else if n < 56 then 16 else if n = 56 then 1000 else 4

/-- Default urgency threshold of arbiter n in ns, R383. -/
def arbUrgencyReset (n : Nat) : W64 :=
  if n < 32 then 1000 else if n < 48 then 500 else if n < 56 then 5000 else if n = 56 then 2000000 else 10000

/-- Default window of arbiter n in units, R383. -/
def arbWindowReset (n : Nat) : W64 :=
  if n < 48 then 65536 else if n < 56 then 4096 else if n = 56 then 1000000 else 4096

/-- SSI_SEC_FUSE as the device's fuses give it, R466 (log entry 4). -/
def fuseReset : W64 :=
  (Config.revokedSlots.setWidth 64 <<< 28) ||| Config.fuseCounter.setWidth 64

/-- The access types of R10. A register with W1C flags beside read-only fields is `roW1c`. -/
inductive Access where
  | ro | rw | w1c | wo | rws | roW1c
deriving DecidableEq, Repr

/-- The registers. -/
inductive Reg where
  /-- SS_PACE_CTL, R39: Interval and enables -/
  | paceCtl (ss : Nat)
  /-- SS_PACE_STAT, R39: Interval sequence number and overrun flag -/
  | paceStat (ss : Nat)
  /-- SS_PACE_UNITS, R39: Number of units, 1–16 -/
  | paceUnits (ss : Nat)
  /-- SS_PACE_OPS_k, R39: Operations completed by unit k in the last interval -/
  | paceOps (ss k : Nat)
  /-- SS_PACE_PROBE_k, R39: Probe count of unit k in the last interval -/
  | paceProbe (ss k : Nat)
  /-- CCX_PWR_VSET, R49: Last VCORE set point sent, in mV -/
  | ccxPwrVset
  /-- CCX_PWR_VMEAS, R49: VCORE read back from the regulator, in mV -/
  | ccxPwrVmeas
  /-- CCX_PWR_PPL, R49: PPL in W -/
  | ccxPwrPpl
  /-- CCX_PWR_PKG, R49: Package power, 1 ms average, in units of 0.1 W. In confidential mode it is quantised to 5 W with 100 ms averaging. -/
  | ccxPwrPkg
  /-- CCX_PWR_PACE, R49: Device pace and load band -/
  | ccxPwrPace
  /-- CCX_PWR_FLAGS, R49: Governor conditions -/
  | ccxPwrFlags
  /-- CCX_ID_DEVICE, R64: Device ID in bits 31:16; silicon stepping in bits 7:0 -/
  | ccxIdDevice
  /-- CCX_ID_ORDER, R64: Ordering code: 0 FN7240-AQ, 1 FN7240-IX -/
  | ccxIdOrder
  /-- CCX_ID_SET, R64: 64-bit set identifier; 0 for a set of one -/
  | ccxIdSet
  /-- CCX_ID_STATE, R64: Start-up stage, last reset cause, readiness -/
  | ccxIdState
  /-- CCX_ID_GEN, R64: Main-domain resets since the last cold reset; wraps at 2^32 -/
  | ccxIdGen
  /-- CCX_ID_BOOT_ERR, R64: Status code of the last failed boot step in bits 7:0; 0 when none -/
  | ccxIdBootErr
  /-- CCX_HP_DPORT_PTR, R66: 64-bit data-port pointer, a device address -/
  | ccxHpDportPtr
  /-- CCX_HP_DPORT_STAT, R66: Outstanding reads and drop flags -/
  | ccxHpDportStat
  /-- CCX_HP_DPORT_DROPS, R66: Dropped write TLPs plus zero-filled reads, saturating; a write of 0 clears it -/
  | ccxHpDportDrops
  /-- CCX_HP_IRQ_CTL, R66: Vector enables -/
  | ccxHpIrqCtl
  /-- CCX_HP_IRQ_STAT, R66: Causes seen per vector -/
  | ccxHpIrqStat
  /-- CCX_HP_IRQ_MOD_v, R66: Minimum gap between messages of vector v (v = 0, 1, 4, 5) -/
  | ccxHpIrqMod (v : Nat)
  /-- CCX_HP_MBOX_ERR, R66: Mailbox protocol errors -/
  | ccxHpMboxErr
  /-- CCX_HP_MBOX_REQ_OWN, R66: Bit n is 1 while request slot n is device-owned -/
  | ccxHpMboxReqOwn
  /-- CCX_HP_MBOX_RSP_OWN, R66: Bit n is 1 while response slot n is host-owned, that is, it holds a response -/
  | ccxHpMboxRspOwn
  /-- CCX_HP_MBOX_EVT_OWN, R66: Bit n is 1 while event slot n is host-owned -/
  | ccxHpMboxEvtOwn
  /-- CCX_HP_ERR_CNT, R66: Host-port error counts -/
  | ccxHpErrCnt
  /-- CCX_HP_RESET, R66: Warm reset request -/
  | ccxHpReset
  /-- TNU_TB_CTL, R133: Format, source, PTP domain, P0 lock -/
  | tnuTbCtl (n : Nat)
  /-- TNU_TB_STAT, R133: Step, jump and discipline flags -/
  | tnuTbStat (n : Nat)
  /-- TNU_TB_INC, R133: Increment per tick, 8.32 fixed point, bits 39:0 -/
  | tnuTbInc (n : Nat)
  /-- TNU_TB_SEC, R133: Extended: seconds in bits 47:0. Short: reads 0. A read latches TNU_TB_NS -/
  | tnuTbSec (n : Nat)
  /-- TNU_TB_NS, R133: Extended: nanoseconds, 0–999,999,999. Short: the 32-bit count. As latched by the last read of TNU_TB_SEC -/
  | tnuTbNs (n : Nat)
  /-- TNU_TB_NOW, R133: 64-bit instant, read atomically -/
  | tnuTbNow (n : Nat)
  /-- TNU_TB_JUMP_THR, R133: Jump threshold in ns, 1,000–1,000,000,000; other writes are ignored -/
  | tnuTbJumpThr (n : Nat)
  /-- TNU_TB_STEP, R133: Signed 64-bit step in ns -/
  | tnuTbStep (n : Nat)
  /-- TNU_TB_UNLOCK, R133: Forced-step unlock -/
  | tnuTbUnlock (n : Nat)
  /-- TNU_TB_STEPS, R133: Steps refused in bits 31:16 and applied in bits 15:0, each saturating -/
  | tnuTbSteps (n : Nat)
  /-- TNU_XSTAMP_CTL, R143: Bit 0: take a cross-stamp -/
  | tnuXstampCtl
  /-- TNU_XSTAMP_TBn, R143: TBn at the cross-stamp tick -/
  | tnuXstampTb (n : Nat)
  /-- TNU_PLL_STAT, R143: Bit 1 holdover; bit 0 locked -/
  | tnuPllStat
  /-- TNU_CAP_CTL_k, R143: Bits 15:8 source; bits 6:4 time base; bits 1:0 edge (0 off, 1 rising, 2 falling, 3 both) -/
  | tnuCapCtl (k : Nat)
  /-- TNU_CAP_STAT_k, R143: Bits 31:16 overruns, saturating; bits 15:0 captures, wrapping; reading clears the overrun count -/
  | tnuCapStat (k : Nat)
  /-- TNU_CAP_VAL_k, R143: Last captured instant -/
  | tnuCapVal (k : Nat)
  /-- TNU_CMP_CTL_k, R143: Bit 31 enable; bits 14:12 time base; bits 11:8 GPIO; bits 6:4 action (0 interrupt, 1 low, 2 high, 3 toggle, 4 pulse); bit 0 fired (W1C) -/
  | tnuCmpCtl (k : Nat)
  /-- TNU_CMP_AT_k, R143: Compare instant -/
  | tnuCmpAt (k : Nat)
  /-- TNU_CMP_PER_k, R143: Period in ns; 0 single-shot, otherwise at least 1,000 -/
  | tnuCmpPer (k : Nat)
  /-- TNU_CMP_PULSE_k, R143: Pulse width in ns, at least 20 -/
  | tnuCmpPulse (k : Nat)
  /-- TNU_CMP_SKIP_k, R143: Periods skipped by steps -/
  | tnuCmpSkip (k : Nat)
  /-- TNU_GPIO_SEL, R143: Bit n: 0 GPIO n driven by Geyser, 1 by its compare unit -/
  | tnuGpioSel
  /-- TNU_GEY_STAT, R156: Bits 24:16 entries in use, 0–256; bits 15:0 launches, wrapping -/
  | tnuGeyStat
  /-- TNU_GEY_REFUSED, R156: Refusal counts by check; a write of 0 clears all -/
  | tnuGeyRefused
  /-- TNU_GEY_LATE, R156: Late launches, saturating; a write of 0 clears it -/
  | tnuGeyLate
  /-- SIU_CTL, R183: Bit 0 profile: 0 Compact, 1 Full -/
  | siuCtl
  /-- SIU_STAT, R183: Bits 22:16 enabled streams; bits 3:0 slots in use -/
  | siuStat
  /-- SIU_QMEM, R183: Free queue units, 0–1,024 -/
  | siuQmem
  /-- SIU_E2E_MAP, R183: Byte k: stream of slot k; 0xFF free -/
  | siuE2eMap
  /-- SIU_STREAM_CTL, R183: Enable, model, time bases, crit, lock_frames -/
  | siuStreamCtl (n : Nat)
  /-- SIU_STREAM_SRC, R183: Bits 31:24 kind; bits 23:16 port; the selector of R166, up to bits 31:0, is held in SIU_STREAM_SEL -/
  | siuStreamSrc (n : Nat)
  /-- SIU_STREAM_PERIOD, R183: period_ns -/
  | siuStreamPeriod (n : Nat)
  /-- SIU_STREAM_SLAT, R183: slat_ns, signed -/
  | siuStreamSlat (n : Nat)
  /-- SIU_STREAM_STATE, R183: State and flags -/
  | siuStreamState (n : Nat)
  /-- SIU_STREAM_FLAGS, R183: Sticky conditions -/
  | siuStreamFlags (n : Nat)
  /-- SIU_STREAM_ANCHOR_X, R183: x_a -/
  | siuStreamAnchorX (n : Nat)
  /-- SIU_STREAM_ANCHOR_T, R183: t_a on TB0 -/
  | siuStreamAnchorT (n : Nat)
  /-- SIU_STREAM_RATE, R183: Rate, signed ppb -/
  | siuStreamRate (n : Nat)
  /-- SIU_STREAM_RESID, R183: Last residual, signed ns, saturating -/
  | siuStreamResid (n : Nat)
  /-- SIU_STREAM_WMARK, R183: Watermark in ns -/
  | siuStreamWmark (n : Nat)
  /-- SIU_STREAM_FROZEN_CTL, R183: Bits 15:8 frozen_clear; bits 7:0 frozen_set -/
  | siuStreamFrozenCtl (n : Nat)
  /-- SIU_STREAM_SIG, R183: Last frame signature -/
  | siuStreamSig (n : Nat)
  /-- SIU_STREAM_FRAMES, R183: Frames received, wrapping -/
  | siuStreamFrames (n : Nat)
  /-- SIU_STREAM_DROPS, R183: Bits 31:16 queue-full drops; bits 15:0 ingress drops under R58 and R513; both saturating -/
  | siuStreamDrops (n : Nat)
  /-- SIU_Q_CFG, R183: Bit 31 consumer (0 CHN, 1 MMV); bit 30 tap; bits 25:16 base unit; bits 8:0 size in units -/
  | siuQCfg (n : Nat)
  /-- SIU_Q_STAT, R183: Queue fill -/
  | siuQStat (n : Nat)
  /-- SIU_Q_DROP_REST, R183: Any write drops the rest of the current packet -/
  | siuQDropRest (n : Nat)
  /-- SIU_Q_CNT, R183: Bits 31:16 resets; bits 15:0 consumer drops; both saturating -/
  | siuQCnt (n : Nat)
  /-- SIU_E2E_CNT, R183: Bits 23:16 check, 15:8 stamp, 7:0 counter errors; each saturating -/
  | siuE2eCnt (n : Nat)
  /-- SIU_STREAM_SEL, R183: Selector of R166 -/
  | siuStreamSel (n : Nat)
  /-- SIU_CSI_ERR_p, R183: Camera port p: bits 31:16 corrected header errors, bits 15:0 uncorrectable errors; both saturating -/
  | siuCsiErr (p : Nat)
  /-- CHN_ALIGN_STAT, R214: Bits 29:24 instants OPEN or BUILDING, 0–32; bits 3:0 enabled schedules -/
  | chnAlignStat
  /-- CHN_SCHED_CTL, R214: Enable, options, owner -/
  | chnSchedCtl (s : Nat)
  /-- CHN_SCHED_STAT, R214: Instants in flight and newest index -/
  | chnSchedStat (s : Nat)
  /-- CHN_SCHED_NEXT, R214: Next instant to open -/
  | chnSchedNext (s : Nat)
  /-- CHN_SCHED_LAST, R214: Last published instant -/
  | chnSchedLast (s : Nat)
  /-- CHN_SCHED_SEQ, R214: Next seq -/
  | chnSchedSeq (s : Nat)
  /-- CHN_SCHED_PUB, R214: Records committed, revisions included, wrapping -/
  | chnSchedPub (s : Nat)
  /-- CHN_SCHED_DROP, R214: Bits 31:16 instants DROPPED; bits 15:0 closes by limit; both saturating -/
  | chnSchedDrop (s : Nat)
  /-- CHN_SCHED_LATE, R214: Bits 31:16 late samples dropped; bits 15:0 late samples carried; both saturating -/
  | chnSchedLate (s : Nat)
  /-- CHN_SCHED_REV, R214: Bits 31:16 revisions not built; bits 15:0 revisions committed; both saturating -/
  | chnSchedRev (s : Nat)
  /-- CHN_SCHED_PERIOD, R214: period_ns -/
  | chnSchedPeriod (s : Nat)
  /-- CHN_EGO_STAT, R214: History fill and ego condition -/
  | chnEgoStat
  /-- CHN_EGO_NEWEST, R214: Stamp of the newest history entry -/
  | chnEgoNewest
  /-- CHN_EGO_EXT_VX, R214: External body velocity x, FP32, m/s -/
  | chnEgoExtVx
  /-- CHN_EGO_EXT_VY, R214: External body velocity y, FP32, m/s -/
  | chnEgoExtVy
  /-- CHN_EGO_EXT_VZ, R214: External body velocity z, FP32, m/s -/
  | chnEgoExtVz
  /-- CHN_EGO_EXT_T, R214: TB0 stamp of the vector; the write commits it -/
  | chnEgoExtT
  /-- CHN_EGO_CNT, R214: Bits 31:16 gaps; bits 15:0 invalid intervals; both saturating -/
  | chnEgoCnt
  /-- CHN_VOX_STAT, R244: Build in progress -/
  | chnVoxStat
  /-- CHN_SPLIT, R244: Bits 2:0 octree pool in MiB -/
  | chnSplit
  /-- CHN_PT_ENTRIES, R244: Point-table entries -/
  | chnPtEntries
  /-- CHN_PT_USED, R244: Occupancy under R223 -/
  | chnPtUsed
  /-- CHN_PT_HEAD, R244: Next logical index -/
  | chnPtHead
  /-- CHN_PT_OLDEST, R244: Oldest held logical index -/
  | chnPtOldest
  /-- CHN_VH_USED, R244: Bits 19:0 sites of the build in progress -/
  | chnVhUsed
  /-- CHN_VH_STASH, R244: Stash use -/
  | chnVhStash
  /-- CHN_VOX_SKIM, R244: Frames by outcome -/
  | chnVoxSkim
  /-- CHN_VOX_DROP_TRUNC, R244: Points dropped by truncation, saturating -/
  | chnVoxDropTrunc
  /-- CHN_VOX_DROP_ROI, R244: Points outside the region, saturating -/
  | chnVoxDropRoi
  /-- CHN_RB_STAT, R244: Bits 31:16 overflowed specs, saturating; bits 15:0 overflow mask of the last frame -/
  | chnRbStat
  /-- CHN_VSET_SKIP, R244: Voxel sets skipped, saturating -/
  | chnVsetSkip
  /-- CHN_OCT_STAT, R244: Pool use -/
  | chnOctStat
  /-- CHN_OCT_REFUSED, R244: Bits 31:16 pool refusals; bits 15:0 outside the root; both saturating -/
  | chnOctRefused
  /-- CHN_OCT_GEN, R244: Octree generation -/
  | chnOctGen
  /-- CHN_TRK_CTL, R259: Enable, options, owner, schedule -/
  | chnTrkCtl
  /-- CHN_TRK_STAT, R259: Phase and track counts -/
  | chnTrkStat
  /-- CHN_TRK_SEQ, R259: Next association seq -/
  | chnTrkSeq
  /-- CHN_TRK_LAST, R259: Last associated instant -/
  | chnTrkLast
  /-- CHN_TRK_BORN_DEL, R259: Bits 31:16 deletions; bits 15:0 births; both wrapping -/
  | chnTrkBornDel
  /-- CHN_TRK_FULL, R259: Births refused, saturating -/
  | chnTrkFull
  /-- CHN_TRK_OVERSIZE, R259: Bits 31:16 failed associations; bits 15:0 components missed; both saturating -/
  | chnTrkOversize
  /-- CHN_TRK_VOID, R259: Pairs voided, saturating -/
  | chnTrkVoid
  /-- CHN_TRK_NEXT_ID, R259: Next track_id -/
  | chnTrkNextId
  /-- PLN_GRID_CTL, R283: Enable, options, owner, source -/
  | plnGridCtl
  /-- PLN_GRID_STAT, R283: Update, hold and job counts -/
  | plnGridStat
  /-- PLN_GRID_EDGE, R283: edge, FP32 -/
  | plnGridEdge
  /-- PLN_GRID_ORG_X, R283: origin.x, FP32 -/
  | plnGridOrgX
  /-- PLN_GRID_ORG_Y, R283: origin.y, FP32 -/
  | plnGridOrgY
  /-- PLN_GRID_ORG_Z, R283: origin.z, FP32 -/
  | plnGridOrgZ
  /-- PLN_GRID_GEN, R283: Generation -/
  | plnGridGen
  /-- PLN_GRID_TAG_T, R283: tag_instant of the grid tag -/
  | plnGridTagT
  /-- PLN_GRID_SCROLL, R283: Bits 24:16 sy; bits 8:0 sx -/
  | plnGridScroll
  /-- PLN_GRID_SKIP, R283: Fills skipped, saturating -/
  | plnGridSkip
  /-- PLN_GRID_WAIT_NS, R283: Longest wait of R273, saturating; a write of 0 clears it -/
  | plnGridWaitNs
  /-- PLN_CHK_STAT, R283: Checker state -/
  | plnChkStat
  /-- PLN_CHK_CNT, R283: Bits 31:16 hits; bits 15:0 jobs; both wrapping -/
  | plnChkCnt
  /-- PLN_SRCH_CNT, R283: Bits 31:24 invalidations, 23:16 timeouts, 15:8 no path, 7:0 published; each saturating -/
  | plnSrchCnt
  /-- PLN_STOP_SEQ, R283: Next stop seq -/
  | plnStopSeq
  /-- PLN_STOP_HITS, R283: Stop records with hit, saturating -/
  | plnStopHits
  /-- TAR_ISSUE_GATE, R310: Bits 6:0 MXE duty in 1/64 (R45), 1–64; other writes ignored; written only by Bivexa -/
  | tarIssueGate
  /-- TAR_CORE_RETIRED, R310: Bit p: physical core p retired -/
  | tarCoreRetired
  /-- TAR_ROLES, R310: Bits 2p + 1:2p: role of physical core p (R286); written only by Bivexa -/
  | tarRoles
  /-- TAR_LMAP, R310: Bits 4l + 3:4l: physical core of logical core l; 0xF none; written only by Bivexa -/
  | tarLmap
  /-- TAR_CORE_STAT, R310: Activity and queue -/
  | tarCoreStat (p : Nat)
  /-- TAR_WIN_OVERRUN_NS, R310: Window overrun (R120), saturating; a write of 0 clears it -/
  | tarWinOverrunNs (p : Nat)
  /-- TAR_CORE_BLOCKS, R310: Block pairs visited by the MXEs, wrapping -/
  | tarCoreBlocks (p : Nat)
  /-- TAR_CORE_ZBLOCKS, R310: Of those, pairs completed early (R300), wrapping -/
  | tarCoreZblocks (p : Nat)
  /-- TAR_CORE_CONV, R310: Bits 31:16 saturations; bits 15:0 NaN flushes; both saturating -/
  | tarCoreConv (p : Nat)
  /-- TAR_CORE_ECC, R310: Bits 31:16 corrected; bits 15:0 uncorrectable; both saturating -/
  | tarCoreEcc (p : Nat)
  /-- TAR_CORE_DONE, R310: Descriptors completed, wrapping -/
  | tarCoreDone (p : Nat)
  /-- TAR_CORE_RESID, R310: Residue mismatches, saturating -/
  | tarCoreResid (p : Nat)
  /-- TAR_RNG_SEED_LO, R310: Seed bits 63:0 -/
  | tarRngSeedLo (p : Nat)
  /-- TAR_RNG_SEED_HI, R310: Seed bits 127:64; the write commits the seed under R299 -/
  | tarRngSeedHi (p : Nat)
  /-- MMV_MOVE_STAT, R339: Bits 11:8 commands RUNNING, 0–8; bits 7:0 commands waiting under R317, saturating -/
  | mmvMoveStat
  /-- MMV_MOVE_CNT, R339: Bits 31:16 scatter indices out of range; bits 15:0 gather indices out of range; both saturating -/
  | mmvMoveCnt
  /-- MMV_FR_TRUNC, R339: Frames truncated in rings, saturating -/
  | mmvFrTrunc
  /-- MMV_DEV_NUM, R339: Bit 7 set; bits 4:0 device number -/
  | mmvDevNum
  /-- MMV_ROUTE_d, R339: Bits 7:4 alternate port; bits 3:0 primary port; 0xF none -/
  | mmvRoute (d : Nat)
  /-- MMV_COLL_STAT, R339: Bits 12:8 collectives RUNNING, 0–16; bits 2:0 transferring, 0–4 -/
  | mmvCollStat
  /-- MMV_LINK_CTL, R339: Enable and width; written by Bivexa -/
  | mmvLinkCtl (p : Nat)
  /-- MMV_LINK_STAT, R339: State, width and reason -/
  | mmvLinkStat (p : Nat)
  /-- MMV_LINK_PEER, R339: Bits 10:8 peer port; bits 4:0 peer device number -/
  | mmvLinkPeer (p : Nat)
  /-- MMV_LINK_ERR, R339: Bits 31:16 GCM failures; bits 15:0 uncorrected FEC codewords; both saturating -/
  | mmvLinkErr (p : Nat)
  /-- MMV_LINK_RETRY, R339: Flits replayed, saturating -/
  | mmvLinkRetry (p : Nat)
  /-- MMV_LINK_TRAIN, R339: Bits 31:16 rekeys; bits 15:0 trainings; both wrapping -/
  | mmvLinkTrain (p : Nat)
  /-- MMV_LINK_TX_BYTES, R339: Payload bytes sent, wrapping -/
  | mmvLinkTxBytes (p : Nat)
  /-- MMV_LINK_RX_BYTES, R339: Payload bytes received, wrapping -/
  | mmvLinkRxBytes (p : Nat)
  /-- MMV_KV_CTL, R373: Initialisation, owner and role; written by Bivexa -/
  | mmvKvCtl
  /-- MMV_KV_SEQ, R373: Bits 16:0 live sequences, 0–65,536 -/
  | mmvKvSeq
  /-- MMV_KV_NODES, R373: Prefix nodes in use -/
  | mmvKvNodes
  /-- MMV_KV_POOL_FREE, R373: Free frames -/
  | mmvKvPoolFree (p : Nat)
  /-- MMV_KV_POOL_IDS, R373: Logical IDs in use -/
  | mmvKvPoolIds (p : Nat)
  /-- MMV_KV_POOL_CELLAR, R373: Pages in CELLAR -/
  | mmvKvPoolCellar (p : Nat)
  /-- MMV_KV_SPILL, R373: Bits 31:16 spills cancelled; bits 15:0 spills -/
  | mmvKvSpill (p : Nat)
  /-- MMV_KV_FETCH, R373: Bits 31:16 late fetches; bits 15:0 fetches -/
  | mmvKvFetch (p : Nat)
  /-- MMV_KV_COW, R373: Copies on write -/
  | mmvKvCow (p : Nat)
  /-- MMV_KV_PREFIX, R373: Bits 31:16 blocks missed; bits 15:0 blocks matched -/
  | mmvKvPrefix (p : Nat)
  /-- MMV_KV_LOST, R373: Pages lost -/
  | mmvKvLost (p : Nat)
  /-- MMV_MEM_CTL, R393: Scrub control -/
  | mmvMemCtl
  /-- MMV_MEM_STAT, R393: Initialisation, self-refresh, scrub state -/
  | mmvMemStat
  /-- MMV_MEM_TEMP, R393: Bits 15:8 stack 1, bits 7:0 stack 0, signed °C -/
  | mmvMemTemp
  /-- MMV_STG_ECC, R393: Bits 31:16 corrected; bits 15:0 uncorrectable -/
  | mmvStgEcc
  /-- MMV_STG_LAST_UE, R393: Address of the last uncorrectable staging read -/
  | mmvStgLastUe
  /-- MMV_MC_CE, R393: Bits 31:16 corrected by the controller; bits 15:0 corrected on-die -/
  | mmvMcCe (c : Nat)
  /-- MMV_MC_UE, R393: Uncorrectable reads -/
  | mmvMcUe (c : Nat)
  /-- MMV_MC_LAST_UE, R393: Device address of the last uncorrectable read -/
  | mmvMcLastUe (c : Nat)
  /-- MMV_MC_RMW, R393: Partial-line writes, wrapping -/
  | mmvMcRmw (c : Nat)
  /-- MMV_RANGE_p_r bits 63:0, R393: Range r of bank p: base -/
  | mmvRangeBase (p r : Nat)
  /-- MMV_RANGE_p_r bits 127:64, R393: Range r of bank p: size in 64 KiB in bits 31:0, flags in 63:32 -/
  | mmvRangeSize (p r : Nat)
  /-- MMV_RANGE_CNT_p, R393: Bits 31:16 hole accesses (R32); bits 15:0 range violations -/
  | mmvRangeCnt (p : Nat)
  /-- MMV_RANGE_LAST_p, R393: Address of the last failure -/
  | mmvRangeLast (p : Nat)
  /-- MMV_ARB_CTL, R393: Freeze and burst limit -/
  | mmvArbCtl (n : Nat)
  /-- MMV_ARB_URGENCY, R393: Urgency threshold in ns, 0–100,000,000; 0 disables the deadline tier -/
  | mmvArbUrgency (n : Nat)
  /-- MMV_ARB_WINDOW, R393: Window in units under R388; other writes ignored -/
  | mmvArbWindow (n : Nat)
  /-- MMV_ARB_STAT, R393: Owner and queue -/
  | mmvArbStat (n : Nat)
  /-- MMV_ARB_RANK_w, R393: Byte i: bits 4:0 rank of input 4w + i, w = 0–7 -/
  | mmvArbRank (n w : Nat)
  /-- MMV_ARB_QUOTA, R393: Byte p: quota of Pp in 1/64 -/
  | mmvArbQuota (n : Nat)
  /-- MMV_ARB_USE_j, R393: Bits 31:16 use of P(2j + 1); bits 15:0 use of P(2j), in units, saturating at 65,535 -/
  | mmvArbUse (n j : Nat)
  /-- MMV_ARB_GRANTS, R393: Grants, wrapping -/
  | mmvArbGrants (n : Nat)
  /-- MMV_ARB_DL_GRANTS, R393: Grants in the deadline tier, wrapping -/
  | mmvArbDlGrants (n : Nat)
  /-- MMV_ARB_MISSED, R393: Grants after the latest-service instant -/
  | mmvArbMissed (n : Nat)
  /-- MMV_ARB_QFULL, R393: Stalls with the pending queue full -/
  | mmvArbQfull (n : Nat)
  /-- MMV_ARB_MAXWAIT, R393: Longest wait from request to grant in ns; a write of 0 clears it -/
  | mmvArbMaxwait (n : Nat)
  /-- SSI_RFX_STAT, R417: Mode and triggers -/
  | ssiRfxStat
  /-- SSI_RFX_TRAJ_SEQ, R417: traj_seq of the accepted trajectory -/
  | ssiRfxTrajSeq
  /-- SSI_RFX_TRAJ_T, R417: Its start_instant -/
  | ssiRfxTrajT
  /-- SSI_RFX_REFUSED, R417: Offers refused -/
  | ssiRfxRefused
  /-- SSI_RFX_LOOP_n, R417: Bits 31:16 skips; bits 15:0 releases with no_input -/
  | ssiRfxLoop (n : Nat)
  /-- SSI_RFX_LOOP_MAX_n, R417: Longest run in ns -/
  | ssiRfxLoopMax (n : Nat)
  /-- SSI_TAP_k, R417: Bits 7:0 stream, 0xFF none; bits 31:16 overwrites -/
  | ssiTap (k : Nat)
  /-- SSI_TAP_DROP_k, R417: Packets longer than the slot -/
  | ssiTapDrop (k : Nat)
  /-- SSI_SAFE_STAT, R444: Configuration, pin and partition state -/
  | ssiSafeStat
  /-- SSI_SAFE_CFG_VER, R444: Version of the accepted configuration -/
  | ssiSafeCfgVer
  /-- SSI_PART_SAFE_p, R444: Safety counts of partition p -/
  | ssiPartSafe (p : Nat)
  /-- SSI_CHK_CNT, R444: Bits 31:16 disagreements; bits 15:0 transients -/
  | ssiChkCnt
  /-- SSI_CHK_SKIP, R444: Reruns dropped -/
  | ssiChkSkip
  /-- SSI_STARTER_STAT_k, R444: Slot k: bits 31:16 runs, wrapping; bits 15:8 late; bits 7:0 failures -/
  | ssiStarterStat (k : Nat)
  /-- SSI_STARTER_DEFER_k, R444: Longest deferral of slot k in ns -/
  | ssiStarterDefer (k : Nat)
  /-- SSI_STARTER_CORE_k, R444: Physical core of slot k; 0xF none -/
  | ssiStarterCore (k : Nat)
  /-- SSI_SEC_STAT, R466: Mode, debug and region state -/
  | ssiSecStat
  /-- SSI_SEC_FUSE, R466: Fuse counter and revocations -/
  | ssiSecFuse
  /-- SSI_SEC_CNT, R466: Bits 31:16 chunk tag failures; bits 15:0 unwrap failures; both saturating -/
  | ssiSecCnt
  /-- SSI_SEC_DBG_NONCE, R466: 32-byte debug nonce, eight bytes at a time -/
  | ssiSecDbgNonce (i : Nat)
  /-- SSI_SEC_PROT_BASE_n, R466: Base of region n -/
  | ssiSecProtBase (n : Nat)
  /-- SSI_SEC_PROT_SIZE_n, R466: Size in 64 KiB; 0 free -/
  | ssiSecProtSize (n : Nat)
  /-- SSI_SEC_PROT_PART_n, R466: Bits 2:0 owning partition -/
  | ssiSecProtPart (n : Nat)
  /-- SSI_PWR_STAT, R486: Enables, power-good, warnings, thermal state -/
  | ssiPwrStat
  /-- SSI_PWR_VCORE_WARN, R486: VCORE warning threshold -/
  | ssiPwrVcoreWarn
  /-- SSI_PWR_COLD_SRC, R486: Source of the last cold reset; held while VAON is present -/
  | ssiPwrColdSrc
  /-- SSI_PWR_TJ, R486: Bits 15:8 highest Tj since cold reset; bits 7:0 present Tj; signed °C -/
  | ssiPwrTj
  /-- SSI_PWR_WARN_CNT, R486: Bits 23:16 VIO, 15:8 VSAFE, 7:0 VCORE warnings -/
  | ssiPwrWarnCnt
  /-- SSI_PWR_RST_CNT, R486: Bits 31:24 thermal trips, 23:16 VCORE resets, 15:8 warm by P0 or SSI, 7:0 warm by host -/
  | ssiPwrRstCnt
  /-- TNU_MAC_IG_LAT_p, R147: External PHY ingress latency in ns -/
  | tnuMacIgLat (p : Nat)
  /-- TNU_MAC_EG_LAT_p, R147: External PHY egress latency in ns -/
  | tnuMacEgLat (p : Nat)
  /-- TNU_MAC_ASYM_p, R147: Signed link asymmetry in ns -/
  | tnuMacAsym (p : Nat)
  /-- MSI-X table, R84: Dword w of MSI-X table entry v; bit 0 of dword 3 masks the vector and is set at reset, PRESUMED from PCIe (log entry 14) -/
  | msixEntry (v w : Nat)
  /-- MSI-X pending bits, R84: Pending-bit array -/
  | msixPba
deriving DecidableEq, Repr

/-- The address of a register: a BAR 0 offset, or an address in the register space of R28 and R31. -/
def Reg.addr : Reg → Nat
  | .paceCtl ss => 0x500000f000 + 0x1000000 * ss
  | .paceStat ss => 0x500000f004 + 0x1000000 * ss
  | .paceUnits ss => 0x500000f008 + 0x1000000 * ss
  | .paceOps ss k => 0x500000f100 + 0x1000000 * ss + 0x8 * k
  | .paceProbe ss k => 0x500000f104 + 0x1000000 * ss + 0x8 * k
  | .ccxPwrVset => 0x500000e000
  | .ccxPwrVmeas => 0x500000e004
  | .ccxPwrPpl => 0x500000e008
  | .ccxPwrPkg => 0x500000e00c
  | .ccxPwrPace => 0x500000e010
  | .ccxPwrFlags => 0x500000e014
  | .ccxIdDevice => 0x0
  | .ccxIdOrder => 0x4
  | .ccxIdSet => 0x8
  | .ccxIdState => 0x10
  | .ccxIdGen => 0x14
  | .ccxIdBootErr => 0x18
  | .ccxHpDportPtr => 0x10000
  | .ccxHpDportStat => 0x10008
  | .ccxHpDportDrops => 0x1000c
  | .ccxHpIrqCtl => 0x10010
  | .ccxHpIrqStat => 0x10014
  | .ccxHpIrqMod v => 0x10020 + 0x4 * v
  | .ccxHpMboxErr => 0x10040
  | .ccxHpMboxReqOwn => 0x10044
  | .ccxHpMboxRspOwn => 0x10048
  | .ccxHpMboxEvtOwn => 0x1004c
  | .ccxHpErrCnt => 0x10050
  | .ccxHpReset => 0x10070
  | .tnuTbCtl n => 0x5001000000 + 0x100 * n
  | .tnuTbStat n => 0x5001000004 + 0x100 * n
  | .tnuTbInc n => 0x5001000008 + 0x100 * n
  | .tnuTbSec n => 0x5001000010 + 0x100 * n
  | .tnuTbNs n => 0x5001000018 + 0x100 * n
  | .tnuTbNow n => 0x5001000020 + 0x100 * n
  | .tnuTbJumpThr n => 0x5001000028 + 0x100 * n
  | .tnuTbStep n => 0x5001000030 + 0x100 * n
  | .tnuTbUnlock n => 0x5001000038 + 0x100 * n
  | .tnuTbSteps n => 0x500100003c + 0x100 * n
  | .tnuXstampCtl => 0x5001000800
  | .tnuXstampTb n => 0x5001000808 + 0x8 * n
  | .tnuPllStat => 0x5001000900
  | .tnuCapCtl k => 0x5001001000 + 0x20 * k
  | .tnuCapStat k => 0x5001001004 + 0x20 * k
  | .tnuCapVal k => 0x5001001008 + 0x20 * k
  | .tnuCmpCtl k => 0x5001002000 + 0x20 * k
  | .tnuCmpAt k => 0x5001002008 + 0x20 * k
  | .tnuCmpPer k => 0x5001002010 + 0x20 * k
  | .tnuCmpPulse k => 0x5001002014 + 0x20 * k
  | .tnuCmpSkip k => 0x5001002018 + 0x20 * k
  | .tnuGpioSel => 0x5001002400
  | .tnuGeyStat => 0x5001003000
  | .tnuGeyRefused => 0x5001003004
  | .tnuGeyLate => 0x5001003008
  | .siuCtl => 0x5002000000
  | .siuStat => 0x5002000004
  | .siuQmem => 0x5002000008
  | .siuE2eMap => 0x5002000010
  | .siuStreamCtl n => 0x5002001000 + 0x80 * n
  | .siuStreamSrc n => 0x5002001004 + 0x80 * n
  | .siuStreamPeriod n => 0x5002001008 + 0x80 * n
  | .siuStreamSlat n => 0x500200100c + 0x80 * n
  | .siuStreamState n => 0x5002001010 + 0x80 * n
  | .siuStreamFlags n => 0x5002001014 + 0x80 * n
  | .siuStreamAnchorX n => 0x5002001018 + 0x80 * n
  | .siuStreamAnchorT n => 0x5002001020 + 0x80 * n
  | .siuStreamRate n => 0x5002001028 + 0x80 * n
  | .siuStreamResid n => 0x500200102c + 0x80 * n
  | .siuStreamWmark n => 0x5002001030 + 0x80 * n
  | .siuStreamFrozenCtl n => 0x5002001034 + 0x80 * n
  | .siuStreamSig n => 0x5002001038 + 0x80 * n
  | .siuStreamFrames n => 0x5002001040 + 0x80 * n
  | .siuStreamDrops n => 0x5002001044 + 0x80 * n
  | .siuQCfg n => 0x5002001048 + 0x80 * n
  | .siuQStat n => 0x500200104c + 0x80 * n
  | .siuQDropRest n => 0x5002001050 + 0x80 * n
  | .siuQCnt n => 0x5002001054 + 0x80 * n
  | .siuE2eCnt n => 0x5002001058 + 0x80 * n
  | .siuStreamSel n => 0x500200105c + 0x80 * n
  | .siuCsiErr p => 0x5002006000 + 0x10 * p
  | .chnAlignStat => 0x5003000000
  | .chnSchedCtl s => 0x5003000100 + 0x40 * s
  | .chnSchedStat s => 0x5003000104 + 0x40 * s
  | .chnSchedNext s => 0x5003000108 + 0x40 * s
  | .chnSchedLast s => 0x5003000110 + 0x40 * s
  | .chnSchedSeq s => 0x5003000118 + 0x40 * s
  | .chnSchedPub s => 0x5003000120 + 0x40 * s
  | .chnSchedDrop s => 0x5003000124 + 0x40 * s
  | .chnSchedLate s => 0x5003000128 + 0x40 * s
  | .chnSchedRev s => 0x500300012c + 0x40 * s
  | .chnSchedPeriod s => 0x5003000130 + 0x40 * s
  | .chnEgoStat => 0x5003000800
  | .chnEgoNewest => 0x5003000808
  | .chnEgoExtVx => 0x5003000810
  | .chnEgoExtVy => 0x5003000814
  | .chnEgoExtVz => 0x5003000818
  | .chnEgoExtT => 0x5003000820
  | .chnEgoCnt => 0x5003000828
  | .chnVoxStat => 0x5003001000
  | .chnSplit => 0x5003001004
  | .chnPtEntries => 0x5003001008
  | .chnPtUsed => 0x500300100c
  | .chnPtHead => 0x5003001010
  | .chnPtOldest => 0x5003001018
  | .chnVhUsed => 0x5003001020
  | .chnVhStash => 0x5003001024
  | .chnVoxSkim => 0x5003001028
  | .chnVoxDropTrunc => 0x500300102c
  | .chnVoxDropRoi => 0x5003001030
  | .chnRbStat => 0x5003001034
  | .chnVsetSkip => 0x5003001038
  | .chnOctStat => 0x5003001040
  | .chnOctRefused => 0x5003001044
  | .chnOctGen => 0x5003001048
  | .chnTrkCtl => 0x5003002000
  | .chnTrkStat => 0x5003002004
  | .chnTrkSeq => 0x5003002008
  | .chnTrkLast => 0x5003002010
  | .chnTrkBornDel => 0x5003002018
  | .chnTrkFull => 0x500300201c
  | .chnTrkOversize => 0x5003002020
  | .chnTrkVoid => 0x5003002024
  | .chnTrkNextId => 0x5003002028
  | .plnGridCtl => 0x5004000000
  | .plnGridStat => 0x5004000004
  | .plnGridEdge => 0x5004000008
  | .plnGridOrgX => 0x5004000010
  | .plnGridOrgY => 0x5004000014
  | .plnGridOrgZ => 0x5004000018
  | .plnGridGen => 0x5004000020
  | .plnGridTagT => 0x5004000028
  | .plnGridScroll => 0x5004000030
  | .plnGridSkip => 0x5004000034
  | .plnGridWaitNs => 0x5004000038
  | .plnChkStat => 0x5004000100
  | .plnChkCnt => 0x5004000104
  | .plnSrchCnt => 0x5004000200
  | .plnStopSeq => 0x5004000300
  | .plnStopHits => 0x5004000308
  | .tarIssueGate => 0x5005000000
  | .tarCoreRetired => 0x5005000004
  | .tarRoles => 0x5005000008
  | .tarLmap => 0x5005000010
  | .tarCoreStat p => 0x5005001000 + 0x100 * p
  | .tarWinOverrunNs p => 0x5005001008 + 0x100 * p
  | .tarCoreBlocks p => 0x5005001010 + 0x100 * p
  | .tarCoreZblocks p => 0x5005001018 + 0x100 * p
  | .tarCoreConv p => 0x5005001020 + 0x100 * p
  | .tarCoreEcc p => 0x5005001024 + 0x100 * p
  | .tarCoreDone p => 0x5005001028 + 0x100 * p
  | .tarCoreResid p => 0x500500102c + 0x100 * p
  | .tarRngSeedLo p => 0x5005001030 + 0x100 * p
  | .tarRngSeedHi p => 0x5005001038 + 0x100 * p
  | .mmvMoveStat => 0x5006003000
  | .mmvMoveCnt => 0x5006003004
  | .mmvFrTrunc => 0x5006003008
  | .mmvDevNum => 0x5006003100
  | .mmvRoute d => 0x5006003200 + 0x4 * d
  | .mmvCollStat => 0x5006003300
  | .mmvLinkCtl p => 0x5006004000 + 0x100 * p
  | .mmvLinkStat p => 0x5006004004 + 0x100 * p
  | .mmvLinkPeer p => 0x5006004008 + 0x100 * p
  | .mmvLinkErr p => 0x500600400c + 0x100 * p
  | .mmvLinkRetry p => 0x5006004010 + 0x100 * p
  | .mmvLinkTrain p => 0x5006004014 + 0x100 * p
  | .mmvLinkTxBytes p => 0x5006004018 + 0x100 * p
  | .mmvLinkRxBytes p => 0x5006004020 + 0x100 * p
  | .mmvKvCtl => 0x5006005000
  | .mmvKvSeq => 0x5006005004
  | .mmvKvNodes => 0x5006005008
  | .mmvKvPoolFree p => 0x5006005100 + 0x20 * p
  | .mmvKvPoolIds p => 0x5006005104 + 0x20 * p
  | .mmvKvPoolCellar p => 0x5006005108 + 0x20 * p
  | .mmvKvSpill p => 0x500600510c + 0x20 * p
  | .mmvKvFetch p => 0x5006005110 + 0x20 * p
  | .mmvKvCow p => 0x5006005114 + 0x20 * p
  | .mmvKvPrefix p => 0x5006005118 + 0x20 * p
  | .mmvKvLost p => 0x500600511c + 0x20 * p
  | .mmvMemCtl => 0x5006000000
  | .mmvMemStat => 0x5006000004
  | .mmvMemTemp => 0x5006000008
  | .mmvStgEcc => 0x5006000800
  | .mmvStgLastUe => 0x5006000808
  | .mmvMcCe c => 0x5006000100 + 0x20 * c
  | .mmvMcUe c => 0x5006000104 + 0x20 * c
  | .mmvMcLastUe c => 0x5006000108 + 0x20 * c
  | .mmvMcRmw c => 0x5006000110 + 0x20 * c
  | .mmvRangeBase p r => 0x5006001000 + 0x100 * p + 0x10 * r
  | .mmvRangeSize p r => 0x5006001008 + 0x100 * p + 0x10 * r
  | .mmvRangeCnt p => 0x5006001900 + 0x10 * p
  | .mmvRangeLast p => 0x5006001908 + 0x10 * p
  | .mmvArbCtl n => 0x5006006000 + 0x80 * n
  | .mmvArbUrgency n => 0x5006006004 + 0x80 * n
  | .mmvArbWindow n => 0x5006006008 + 0x80 * n
  | .mmvArbStat n => 0x500600600c + 0x80 * n
  | .mmvArbRank n w => 0x5006006010 + 0x80 * n + 0x4 * w
  | .mmvArbQuota n => 0x5006006030 + 0x80 * n
  | .mmvArbUse n j => 0x5006006040 + 0x80 * n + 0x4 * j
  | .mmvArbGrants n => 0x5006006050 + 0x80 * n
  | .mmvArbDlGrants n => 0x5006006054 + 0x80 * n
  | .mmvArbMissed n => 0x5006006058 + 0x80 * n
  | .mmvArbQfull n => 0x500600605c + 0x80 * n
  | .mmvArbMaxwait n => 0x5006006060 + 0x80 * n
  | .ssiRfxStat => 0x5007008000
  | .ssiRfxTrajSeq => 0x5007008008
  | .ssiRfxTrajT => 0x5007008010
  | .ssiRfxRefused => 0x5007008018
  | .ssiRfxLoop n => 0x5007008100 + 0x20 * n
  | .ssiRfxLoopMax n => 0x5007008104 + 0x20 * n
  | .ssiTap k => 0x5007008200 + 0x10 * k
  | .ssiTapDrop k => 0x5007008204 + 0x10 * k
  | .ssiSafeStat => 0x5007001000
  | .ssiSafeCfgVer => 0x5007001008
  | .ssiPartSafe p => 0x5007001010 + 0x4 * p
  | .ssiChkCnt => 0x5007001100
  | .ssiChkSkip => 0x5007001104
  | .ssiStarterStat k => 0x5007001110 + 0x10 * k
  | .ssiStarterDefer k => 0x5007001114 + 0x10 * k
  | .ssiStarterCore k => 0x5007001118 + 0x10 * k
  | .ssiSecStat => 0x5007002000
  | .ssiSecFuse => 0x5007002004
  | .ssiSecCnt => 0x5007002008
  | .ssiSecDbgNonce i => 0x5007002020 + 0x8 * i
  | .ssiSecProtBase n => 0x5007002100 + 0x10 * n
  | .ssiSecProtSize n => 0x5007002108 + 0x10 * n
  | .ssiSecProtPart n => 0x500700210c + 0x10 * n
  | .ssiPwrStat => 0x5007003000
  | .ssiPwrVcoreWarn => 0x5007003004
  | .ssiPwrColdSrc => 0x5007003008
  | .ssiPwrTj => 0x500700300c
  | .ssiPwrWarnCnt => 0x5007003010
  | .ssiPwrRstCnt => 0x5007003014
  | .tnuMacIgLat p => 0x5001008000 + 0x40 * p
  | .tnuMacEgLat p => 0x5001008004 + 0x40 * p
  | .tnuMacAsym p => 0x5001008008 + 0x40 * p
  | .msixEntry v w => 0x20000 + 0x10 * v + 0x4 * w
  | .msixPba => 0x21000

/-- The value of a register after reset, from the Reset column of its table. -/
def Reg.resetVal : Reg → W64
  | .paceCtl _ => 0x00064003
  | .paceUnits ss => paceUnitsReset ss
  | .ccxPwrVset => 0x000002BC
  | .ccxPwrPpl => 0x000000F0
  | .ccxIdDevice => 0x72400001
  | .ccxIdOrder => Config.orderCode.setWidth 64
  | .ccxIdSet => Config.setId
  | .ccxHpIrqCtl => 0x0000003F
  | .tnuTbInc _ => 0x0000000200000000
  | .tnuTbJumpThr _ => 0x000F4240
  | .siuQmem => 0x00000400
  | .siuE2eMap => 0xFFFFFFFFFFFFFFFF
  | .siuStreamCtl _ => 0x00000400
  | .siuStreamState _ => 0xFF000000
  | .siuStreamFrozenCtl _ => 0x00000803
  | .chnSplit => 0x00000002
  | .chnPtEntries => 0x00100000
  | .chnTrkNextId => 0x00000001
  | .tarIssueGate => 0x00000040
  | .tarRoles => 0x05000000
  | .tarLmap => 0x00DCBA9876543210
  | .mmvRoute _ => 0x000000FF
  | .mmvMemCtl => 0x00001801
  | .mmvArbCtl n => arbBurstReset n
  | .mmvArbUrgency n => arbUrgencyReset n
  | .mmvArbWindow n => arbWindowReset n
  | .mmvArbRank _ w => 0x03020100#64 + 0x04040404#64 * BitVec.ofNat 64 w
  | .ssiTap _ => 0x000000FF
  | .ssiStarterCore k => BitVec.ofNat 64 (12 + k)
  | .ssiSecFuse => fuseReset
  | .ssiPwrVcoreWarn => 0x000001F4
  | .ssiPwrColdSrc => 0x00010001
  | .msixEntry _ w => if w = 3 then 1 else 0
  | _ => 0

/-- The access type of a register, from the Access column of its table. -/
def Reg.access : Reg → Access
  | .paceCtl _ => .rw
  | .paceStat _ => .roW1c
  | .ccxPwrFlags => .w1c
  | .ccxHpDportPtr => .rw
  | .ccxHpDportStat => .roW1c
  | .ccxHpDportDrops => .rw
  | .ccxHpIrqCtl => .rw
  | .ccxHpIrqStat => .w1c
  | .ccxHpIrqMod _ => .rw
  | .ccxHpMboxErr => .roW1c
  | .ccxHpReset => .wo
  | .tnuTbCtl _ => .rw
  | .tnuTbStat _ => .w1c
  | .tnuTbInc _ => .rw
  | .tnuTbJumpThr _ => .rw
  | .tnuTbStep _ => .wo
  | .tnuTbUnlock _ => .wo
  | .tnuXstampCtl => .wo
  | .tnuCapCtl _ => .rw
  | .tnuCmpCtl _ => .rw
  | .tnuCmpAt _ => .rw
  | .tnuCmpPer _ => .rw
  | .tnuCmpPulse _ => .rw
  | .tnuGpioSel => .rw
  | .tnuGeyRefused => .rw
  | .tnuGeyLate => .rw
  | .siuCtl => .rw
  | .siuStreamCtl _ => .rw
  | .siuStreamSrc _ => .rw
  | .siuStreamPeriod _ => .rw
  | .siuStreamSlat _ => .rw
  | .siuStreamFlags _ => .w1c
  | .siuStreamFrozenCtl _ => .rw
  | .siuQCfg _ => .rw
  | .siuQDropRest _ => .wo
  | .siuStreamSel _ => .rw
  | .chnSchedCtl _ => .rw
  | .chnEgoExtVx => .wo
  | .chnEgoExtVy => .wo
  | .chnEgoExtVz => .wo
  | .chnEgoExtT => .wo
  | .chnTrkCtl => .rw
  | .plnGridCtl => .rw
  | .plnGridWaitNs => .rw
  | .tarIssueGate => .rw
  | .tarCoreRetired => .rws
  | .tarRoles => .rws
  | .tarLmap => .rws
  | .tarWinOverrunNs _ => .rw
  | .tarRngSeedLo _ => .wo
  | .tarRngSeedHi _ => .wo
  | .mmvLinkCtl _ => .rw
  | .mmvKvCtl => .rw
  | .mmvMemCtl => .rw
  | .mmvArbCtl _ => .rw
  | .mmvArbUrgency _ => .rw
  | .mmvArbWindow _ => .rw
  | .mmvArbRank _ _ => .rw
  | .mmvArbMaxwait _ => .rw
  | .ssiPwrVcoreWarn => .rw
  | .tnuMacIgLat _ => .rw
  | .tnuMacEgLat _ => .rw
  | .tnuMacAsym _ => .rw
  | .msixEntry _ _ => .rw
  | _ => .ro

/-- The index of address a in a bank of `count` registers `stride` apart from `base`. -/
def bankIdx (a base stride count : Nat) : Option Nat :=
  if base ≤ a ∧ (a - base) % stride = 0 ∧ (a - base) / stride < count then some ((a - base) / stride) else none

/-- The pair of indices of address a in a bank of banks. -/
def bankIdx2 (a base stride count stride2 count2 : Nat) : Option (Nat × Nat) :=
  if base ≤ a ∧ (a - base) / stride < count then
    (bankIdx (a - (a - base) / stride * stride) base stride2 count2).map fun j => ((a - base) / stride, j)
  else none

/-- The register at an address, part 1 of the table. -/
def regAt0 (a : Nat) : List (Option Reg) :=
  [
    (bankIdx a 0x500000f000 0x1000000 8).map .paceCtl,
    (bankIdx a 0x500000f004 0x1000000 8).map .paceStat,
    (bankIdx a 0x500000f008 0x1000000 8).map .paceUnits,
    (bankIdx2 a 0x500000f100 0x1000000 8 0x8 16).map fun q => .paceOps q.1 q.2,
    (bankIdx2 a 0x500000f104 0x1000000 8 0x8 16).map fun q => .paceProbe q.1 q.2,
    (if a = 0x500000e000 then some .ccxPwrVset else none),
    (if a = 0x500000e004 then some .ccxPwrVmeas else none),
    (if a = 0x500000e008 then some .ccxPwrPpl else none),
    (if a = 0x500000e00c then some .ccxPwrPkg else none),
    (if a = 0x500000e010 then some .ccxPwrPace else none),
    (if a = 0x500000e014 then some .ccxPwrFlags else none),
    (if a = 0x0 then some .ccxIdDevice else none),
    (if a = 0x4 then some .ccxIdOrder else none),
    (if a = 0x8 then some .ccxIdSet else none),
    (if a = 0x10 then some .ccxIdState else none),
    (if a = 0x14 then some .ccxIdGen else none),
    (if a = 0x18 then some .ccxIdBootErr else none),
    (if a = 0x10000 then some .ccxHpDportPtr else none),
    (if a = 0x10008 then some .ccxHpDportStat else none),
    (if a = 0x1000c then some .ccxHpDportDrops else none),
    (if a = 0x10010 then some .ccxHpIrqCtl else none),
    (if a = 0x10014 then some .ccxHpIrqStat else none),
    (bankIdx a 0x10020 0x4 6).map .ccxHpIrqMod,
    (if a = 0x10040 then some .ccxHpMboxErr else none),
    (if a = 0x10044 then some .ccxHpMboxReqOwn else none),
    (if a = 0x10048 then some .ccxHpMboxRspOwn else none),
    (if a = 0x1004c then some .ccxHpMboxEvtOwn else none),
    (if a = 0x10050 then some .ccxHpErrCnt else none),
    (if a = 0x10070 then some .ccxHpReset else none),
    (bankIdx a 0x5001000000 0x100 8).map .tnuTbCtl,
    (bankIdx a 0x5001000004 0x100 8).map .tnuTbStat,
    (bankIdx a 0x5001000008 0x100 8).map .tnuTbInc,
    (bankIdx a 0x5001000010 0x100 8).map .tnuTbSec,
    (bankIdx a 0x5001000018 0x100 8).map .tnuTbNs,
    (bankIdx a 0x5001000020 0x100 8).map .tnuTbNow,
    (bankIdx a 0x5001000028 0x100 8).map .tnuTbJumpThr,
    (bankIdx a 0x5001000030 0x100 8).map .tnuTbStep,
    (bankIdx a 0x5001000038 0x100 8).map .tnuTbUnlock,
    (bankIdx a 0x500100003c 0x100 8).map .tnuTbSteps,
    (if a = 0x5001000800 then some .tnuXstampCtl else none)]

/-- The register at an address, part 2 of the table. -/
def regAt1 (a : Nat) : List (Option Reg) :=
  [
    (bankIdx a 0x5001000808 0x8 8).map .tnuXstampTb,
    (if a = 0x5001000900 then some .tnuPllStat else none),
    (bankIdx a 0x5001001000 0x20 32).map .tnuCapCtl,
    (bankIdx a 0x5001001004 0x20 32).map .tnuCapStat,
    (bankIdx a 0x5001001008 0x20 32).map .tnuCapVal,
    (bankIdx a 0x5001002000 0x20 16).map .tnuCmpCtl,
    (bankIdx a 0x5001002008 0x20 16).map .tnuCmpAt,
    (bankIdx a 0x5001002010 0x20 16).map .tnuCmpPer,
    (bankIdx a 0x5001002014 0x20 16).map .tnuCmpPulse,
    (bankIdx a 0x5001002018 0x20 16).map .tnuCmpSkip,
    (if a = 0x5001002400 then some .tnuGpioSel else none),
    (if a = 0x5001003000 then some .tnuGeyStat else none),
    (if a = 0x5001003004 then some .tnuGeyRefused else none),
    (if a = 0x5001003008 then some .tnuGeyLate else none),
    (if a = 0x5002000000 then some .siuCtl else none),
    (if a = 0x5002000004 then some .siuStat else none),
    (if a = 0x5002000008 then some .siuQmem else none),
    (if a = 0x5002000010 then some .siuE2eMap else none),
    (bankIdx a 0x5002001000 0x80 64).map .siuStreamCtl,
    (bankIdx a 0x5002001004 0x80 64).map .siuStreamSrc,
    (bankIdx a 0x5002001008 0x80 64).map .siuStreamPeriod,
    (bankIdx a 0x500200100c 0x80 64).map .siuStreamSlat,
    (bankIdx a 0x5002001010 0x80 64).map .siuStreamState,
    (bankIdx a 0x5002001014 0x80 64).map .siuStreamFlags,
    (bankIdx a 0x5002001018 0x80 64).map .siuStreamAnchorX,
    (bankIdx a 0x5002001020 0x80 64).map .siuStreamAnchorT,
    (bankIdx a 0x5002001028 0x80 64).map .siuStreamRate,
    (bankIdx a 0x500200102c 0x80 64).map .siuStreamResid,
    (bankIdx a 0x5002001030 0x80 64).map .siuStreamWmark,
    (bankIdx a 0x5002001034 0x80 64).map .siuStreamFrozenCtl,
    (bankIdx a 0x5002001038 0x80 64).map .siuStreamSig,
    (bankIdx a 0x5002001040 0x80 64).map .siuStreamFrames,
    (bankIdx a 0x5002001044 0x80 64).map .siuStreamDrops,
    (bankIdx a 0x5002001048 0x80 64).map .siuQCfg,
    (bankIdx a 0x500200104c 0x80 64).map .siuQStat,
    (bankIdx a 0x5002001050 0x80 64).map .siuQDropRest,
    (bankIdx a 0x5002001054 0x80 64).map .siuQCnt,
    (bankIdx a 0x5002001058 0x80 64).map .siuE2eCnt,
    (bankIdx a 0x500200105c 0x80 64).map .siuStreamSel,
    (bankIdx a 0x5002006000 0x10 16).map .siuCsiErr]

/-- The register at an address, part 3 of the table. -/
def regAt2 (a : Nat) : List (Option Reg) :=
  [
    (if a = 0x5003000000 then some .chnAlignStat else none),
    (bankIdx a 0x5003000100 0x40 4).map .chnSchedCtl,
    (bankIdx a 0x5003000104 0x40 4).map .chnSchedStat,
    (bankIdx a 0x5003000108 0x40 4).map .chnSchedNext,
    (bankIdx a 0x5003000110 0x40 4).map .chnSchedLast,
    (bankIdx a 0x5003000118 0x40 4).map .chnSchedSeq,
    (bankIdx a 0x5003000120 0x40 4).map .chnSchedPub,
    (bankIdx a 0x5003000124 0x40 4).map .chnSchedDrop,
    (bankIdx a 0x5003000128 0x40 4).map .chnSchedLate,
    (bankIdx a 0x500300012c 0x40 4).map .chnSchedRev,
    (bankIdx a 0x5003000130 0x40 4).map .chnSchedPeriod,
    (if a = 0x5003000800 then some .chnEgoStat else none),
    (if a = 0x5003000808 then some .chnEgoNewest else none),
    (if a = 0x5003000810 then some .chnEgoExtVx else none),
    (if a = 0x5003000814 then some .chnEgoExtVy else none),
    (if a = 0x5003000818 then some .chnEgoExtVz else none),
    (if a = 0x5003000820 then some .chnEgoExtT else none),
    (if a = 0x5003000828 then some .chnEgoCnt else none),
    (if a = 0x5003001000 then some .chnVoxStat else none),
    (if a = 0x5003001004 then some .chnSplit else none),
    (if a = 0x5003001008 then some .chnPtEntries else none),
    (if a = 0x500300100c then some .chnPtUsed else none),
    (if a = 0x5003001010 then some .chnPtHead else none),
    (if a = 0x5003001018 then some .chnPtOldest else none),
    (if a = 0x5003001020 then some .chnVhUsed else none),
    (if a = 0x5003001024 then some .chnVhStash else none),
    (if a = 0x5003001028 then some .chnVoxSkim else none),
    (if a = 0x500300102c then some .chnVoxDropTrunc else none),
    (if a = 0x5003001030 then some .chnVoxDropRoi else none),
    (if a = 0x5003001034 then some .chnRbStat else none),
    (if a = 0x5003001038 then some .chnVsetSkip else none),
    (if a = 0x5003001040 then some .chnOctStat else none),
    (if a = 0x5003001044 then some .chnOctRefused else none),
    (if a = 0x5003001048 then some .chnOctGen else none),
    (if a = 0x5003002000 then some .chnTrkCtl else none),
    (if a = 0x5003002004 then some .chnTrkStat else none),
    (if a = 0x5003002008 then some .chnTrkSeq else none),
    (if a = 0x5003002010 then some .chnTrkLast else none),
    (if a = 0x5003002018 then some .chnTrkBornDel else none),
    (if a = 0x500300201c then some .chnTrkFull else none)]

/-- The register at an address, part 4 of the table. -/
def regAt3 (a : Nat) : List (Option Reg) :=
  [
    (if a = 0x5003002020 then some .chnTrkOversize else none),
    (if a = 0x5003002024 then some .chnTrkVoid else none),
    (if a = 0x5003002028 then some .chnTrkNextId else none),
    (if a = 0x5004000000 then some .plnGridCtl else none),
    (if a = 0x5004000004 then some .plnGridStat else none),
    (if a = 0x5004000008 then some .plnGridEdge else none),
    (if a = 0x5004000010 then some .plnGridOrgX else none),
    (if a = 0x5004000014 then some .plnGridOrgY else none),
    (if a = 0x5004000018 then some .plnGridOrgZ else none),
    (if a = 0x5004000020 then some .plnGridGen else none),
    (if a = 0x5004000028 then some .plnGridTagT else none),
    (if a = 0x5004000030 then some .plnGridScroll else none),
    (if a = 0x5004000034 then some .plnGridSkip else none),
    (if a = 0x5004000038 then some .plnGridWaitNs else none),
    (if a = 0x5004000100 then some .plnChkStat else none),
    (if a = 0x5004000104 then some .plnChkCnt else none),
    (if a = 0x5004000200 then some .plnSrchCnt else none),
    (if a = 0x5004000300 then some .plnStopSeq else none),
    (if a = 0x5004000308 then some .plnStopHits else none),
    (if a = 0x5005000000 then some .tarIssueGate else none),
    (if a = 0x5005000004 then some .tarCoreRetired else none),
    (if a = 0x5005000008 then some .tarRoles else none),
    (if a = 0x5005000010 then some .tarLmap else none),
    (bankIdx a 0x5005001000 0x100 14).map .tarCoreStat,
    (bankIdx a 0x5005001008 0x100 14).map .tarWinOverrunNs,
    (bankIdx a 0x5005001010 0x100 14).map .tarCoreBlocks,
    (bankIdx a 0x5005001018 0x100 14).map .tarCoreZblocks,
    (bankIdx a 0x5005001020 0x100 14).map .tarCoreConv,
    (bankIdx a 0x5005001024 0x100 14).map .tarCoreEcc,
    (bankIdx a 0x5005001028 0x100 14).map .tarCoreDone,
    (bankIdx a 0x500500102c 0x100 14).map .tarCoreResid,
    (bankIdx a 0x5005001030 0x100 14).map .tarRngSeedLo,
    (bankIdx a 0x5005001038 0x100 14).map .tarRngSeedHi,
    (if a = 0x5006003000 then some .mmvMoveStat else none),
    (if a = 0x5006003004 then some .mmvMoveCnt else none),
    (if a = 0x5006003008 then some .mmvFrTrunc else none),
    (if a = 0x5006003100 then some .mmvDevNum else none),
    (bankIdx a 0x5006003200 0x4 32).map .mmvRoute,
    (if a = 0x5006003300 then some .mmvCollStat else none),
    (bankIdx a 0x5006004000 0x100 8).map .mmvLinkCtl]

/-- The register at an address, part 5 of the table. -/
def regAt4 (a : Nat) : List (Option Reg) :=
  [
    (bankIdx a 0x5006004004 0x100 8).map .mmvLinkStat,
    (bankIdx a 0x5006004008 0x100 8).map .mmvLinkPeer,
    (bankIdx a 0x500600400c 0x100 8).map .mmvLinkErr,
    (bankIdx a 0x5006004010 0x100 8).map .mmvLinkRetry,
    (bankIdx a 0x5006004014 0x100 8).map .mmvLinkTrain,
    (bankIdx a 0x5006004018 0x100 8).map .mmvLinkTxBytes,
    (bankIdx a 0x5006004020 0x100 8).map .mmvLinkRxBytes,
    (if a = 0x5006005000 then some .mmvKvCtl else none),
    (if a = 0x5006005004 then some .mmvKvSeq else none),
    (if a = 0x5006005008 then some .mmvKvNodes else none),
    (bankIdx a 0x5006005100 0x20 8).map .mmvKvPoolFree,
    (bankIdx a 0x5006005104 0x20 8).map .mmvKvPoolIds,
    (bankIdx a 0x5006005108 0x20 8).map .mmvKvPoolCellar,
    (bankIdx a 0x500600510c 0x20 8).map .mmvKvSpill,
    (bankIdx a 0x5006005110 0x20 8).map .mmvKvFetch,
    (bankIdx a 0x5006005114 0x20 8).map .mmvKvCow,
    (bankIdx a 0x5006005118 0x20 8).map .mmvKvPrefix,
    (bankIdx a 0x500600511c 0x20 8).map .mmvKvLost,
    (if a = 0x5006000000 then some .mmvMemCtl else none),
    (if a = 0x5006000004 then some .mmvMemStat else none),
    (if a = 0x5006000008 then some .mmvMemTemp else none),
    (if a = 0x5006000800 then some .mmvStgEcc else none),
    (if a = 0x5006000808 then some .mmvStgLastUe else none),
    (bankIdx a 0x5006000100 0x20 32).map .mmvMcCe,
    (bankIdx a 0x5006000104 0x20 32).map .mmvMcUe,
    (bankIdx a 0x5006000108 0x20 32).map .mmvMcLastUe,
    (bankIdx a 0x5006000110 0x20 32).map .mmvMcRmw,
    (bankIdx2 a 0x5006001000 0x100 9 0x10 16).map fun q => .mmvRangeBase q.1 q.2,
    (bankIdx2 a 0x5006001008 0x100 9 0x10 16).map fun q => .mmvRangeSize q.1 q.2,
    (bankIdx a 0x5006001900 0x10 9).map .mmvRangeCnt,
    (bankIdx a 0x5006001908 0x10 9).map .mmvRangeLast,
    (bankIdx a 0x5006006000 0x80 58).map .mmvArbCtl,
    (bankIdx a 0x5006006004 0x80 58).map .mmvArbUrgency,
    (bankIdx a 0x5006006008 0x80 58).map .mmvArbWindow,
    (bankIdx a 0x500600600c 0x80 58).map .mmvArbStat,
    (bankIdx2 a 0x5006006010 0x80 58 0x4 8).map fun q => .mmvArbRank q.1 q.2,
    (bankIdx a 0x5006006030 0x80 58).map .mmvArbQuota,
    (bankIdx2 a 0x5006006040 0x80 58 0x4 4).map fun q => .mmvArbUse q.1 q.2,
    (bankIdx a 0x5006006050 0x80 58).map .mmvArbGrants,
    (bankIdx a 0x5006006054 0x80 58).map .mmvArbDlGrants]

/-- The register at an address, part 6 of the table. -/
def regAt5 (a : Nat) : List (Option Reg) :=
  [
    (bankIdx a 0x5006006058 0x80 58).map .mmvArbMissed,
    (bankIdx a 0x500600605c 0x80 58).map .mmvArbQfull,
    (bankIdx a 0x5006006060 0x80 58).map .mmvArbMaxwait,
    (if a = 0x5007008000 then some .ssiRfxStat else none),
    (if a = 0x5007008008 then some .ssiRfxTrajSeq else none),
    (if a = 0x5007008010 then some .ssiRfxTrajT else none),
    (if a = 0x5007008018 then some .ssiRfxRefused else none),
    (bankIdx a 0x5007008100 0x20 8).map .ssiRfxLoop,
    (bankIdx a 0x5007008104 0x20 8).map .ssiRfxLoopMax,
    (bankIdx a 0x5007008200 0x10 16).map .ssiTap,
    (bankIdx a 0x5007008204 0x10 16).map .ssiTapDrop,
    (if a = 0x5007001000 then some .ssiSafeStat else none),
    (if a = 0x5007001008 then some .ssiSafeCfgVer else none),
    (bankIdx a 0x5007001010 0x4 8).map .ssiPartSafe,
    (if a = 0x5007001100 then some .ssiChkCnt else none),
    (if a = 0x5007001104 then some .ssiChkSkip else none),
    (bankIdx a 0x5007001110 0x10 2).map .ssiStarterStat,
    (bankIdx a 0x5007001114 0x10 2).map .ssiStarterDefer,
    (bankIdx a 0x5007001118 0x10 2).map .ssiStarterCore,
    (if a = 0x5007002000 then some .ssiSecStat else none),
    (if a = 0x5007002004 then some .ssiSecFuse else none),
    (if a = 0x5007002008 then some .ssiSecCnt else none),
    (bankIdx a 0x5007002020 0x8 4).map .ssiSecDbgNonce,
    (bankIdx a 0x5007002100 0x10 16).map .ssiSecProtBase,
    (bankIdx a 0x5007002108 0x10 16).map .ssiSecProtSize,
    (bankIdx a 0x500700210c 0x10 16).map .ssiSecProtPart,
    (if a = 0x5007003000 then some .ssiPwrStat else none),
    (if a = 0x5007003004 then some .ssiPwrVcoreWarn else none),
    (if a = 0x5007003008 then some .ssiPwrColdSrc else none),
    (if a = 0x500700300c then some .ssiPwrTj else none),
    (if a = 0x5007003010 then some .ssiPwrWarnCnt else none),
    (if a = 0x5007003014 then some .ssiPwrRstCnt else none),
    (bankIdx a 0x5001008000 0x40 8).map .tnuMacIgLat,
    (bankIdx a 0x5001008004 0x40 8).map .tnuMacEgLat,
    (bankIdx a 0x5001008008 0x40 8).map .tnuMacAsym,
    (bankIdx2 a 0x20000 0x10 8 0x4 4).map fun q => .msixEntry q.1 q.2,
    (if a = 0x21000 then some .msixPba else none)]

/-- The register at an address; none where no register is (R31: such an address reads 0 and ignores writes). -/
def Reg.ofAddr (a : Nat) : Option Reg :=
  (regAt0 a ++ regAt1 a ++ regAt2 a ++ regAt3 a ++ regAt4 a ++ regAt5 a).findSome? id

end Sys2Proof.Machine
end

