-- ==== Sys2Proof/Machine/State.lean ====
section
/-! DEFINITION. The state of the block: every register, memory, table, queue, counter and pin that the spec gives it, as plain
data, and the queue of the commands that wait. -/
namespace Sys2Proof.Machine

/-- How a command stops with a fault. The spec names no fault that stops the block: every failure it describes is a status, an
event, a counter or a pin. The type is empty, and no meaning answers with a fault (safe). -/
inductive Fault where
deriving DecidableEq, Repr

/-- How a command is refused. -/
inductive Refusal where
  /-- The command of this mnemonic has no meaning yet; answered by an arm of exec only (safe). -/
  | notModelled (mnemonic : String)
deriving DecidableEq, Repr

/-- The state. `ticks` counts the 2 ns ticks since power was applied (log entry 2); `freeCtr` counts the free values drawn
(log entry 3); both are the model's own. Registers live in `csr` and nowhere else. -/
structure State where
  pending : List Instr := []
  ticks : Nat := 0
  freeCtr : Nat := 0
  csr : List (Reg × W64) := []
  mem : List Host.Cell := []
  island : List Host.Cell := []
  hp : HostPort := {}
  ccx : Ccx := {}
  gov : Gov := {}
  pwr : Pwr := {}
  tnu : Tnu := {}
  tar : Tar := {}
  siu : Siu := {}
  chn : Chn := {}
  trk : Trk := {}
  pln : Pln := {}
  mmv : Mmv := {}
  kv : Kv := {}
  ssi : Ssi := {}
  out : List OutItem := []
deriving DecidableEq, Repr

/-- The mailboxes at cold reset and under R62: request slots 0, response and event slots with own = 1 and the rest 0 (R70). -/
def mboxReset : List (Nat × Byte) :=
  (List.range 64).map fun i => (0x2003 + 0x100 * i, 0x80#8)

/-- The machine right after reset: power-on with VAON below its power-on level, PORST_N low, every register at its reset value,
no command waiting. -/
def State.reset : State := { hp := { mbox := mboxReset } }

end Sys2Proof.Machine
end

