-- ==== Sys2Proof/Machine/Ops.lean ====
section
/-! DEFINITION. The named operations every meaning shares: registers, time, free values, outputs, device memory with its range
and hole checks, events, interrupt causes, and the ends of host commands. -/
namespace Sys2Proof.Machine

/-! Registers -/

/-- The value a register holds: the written one, else its reset value. -/
def csrGet (c : List (Reg × W64)) (r : Reg) : W64 :=
  match c with
  | [] => r.resetVal
  | (q, v) :: t => if q = r then v else csrGet t r

/-- Sets a register, in place. -/
def csrSet (c : List (Reg × W64)) (r : Reg) (v : W64) : List (Reg × W64) :=
  match c with
  | [] => [(r, v)]
  | (q, w) :: t => if q = r then (q, v) :: t else (q, w) :: csrSet t r v

def State.reg (s : State) (r : Reg) : W64 := csrGet s.csr r

def State.setReg (s : State) (r : Reg) (v : W64) : State := { s with csr := csrSet s.csr r v }

def State.modReg (s : State) (r : Reg) (f : W64 → W64) : State := s.setReg r (f (s.reg r))

/-- A field of a register. -/
def State.fldOf (s : State) (r : Reg) (lo len : Nat) : Nat := fld (s.reg r) lo len

/-- Replaces a field of a register. -/
def State.setFldOf (s : State) (r : Reg) (lo len x : Nat) : State := s.modReg r fun v => setFld v lo len x

/-- A counter field of a register counts one and saturates. -/
def State.countSat (s : State) (r : Reg) (lo len : Nat) : State := s.modReg r fun v => incSat v lo len 1

/-- A counter field of a register counts k and wraps. -/
def State.countWrap (s : State) (r : Reg) (lo len k : Nat) : State := s.modReg r fun v => incWrap v lo len k

/-- A counter field of a register counts k and saturates. -/
def State.addSat (s : State) (r : Reg) (lo len k : Nat) : State := s.modReg r fun v => incSat v lo len k

/-- A register keeps the largest value it has seen in a field. -/
def State.maxFld (s : State) (r : Reg) (lo len x : Nat) : State :=
  s.modReg r fun v => setFld v lo len (Nat.max (fld v lo len) (Nat.min x (2 ^ len - 1)))

/-- Forgets what the registers of a set hold: each reads its reset value again. -/
def State.resetRegs (s : State) (p : Reg → Bool) : State :=
  { s with csr := s.csr.filter fun e => !(p e.1) }

/-! Time -/

/-- Nanoseconds since power was applied, by the 2 ns tick of the PLL (R127; log entry 2). -/
def State.ns (s : State) : Nat := 2 * s.ticks

def State.tbase (s : State) (n : Nat) : TimeBase := sget {} s.tnu.tbs n

def State.setTbase (s : State) (n : Nat) (t : TimeBase) : State :=
  { s with tnu := { s.tnu with tbs := sset {} s.tnu.tbs n t } }

/-- Whether time base n is short, R128; TB0 never is, R130. -/
def State.tbShort (s : State) (n : Nat) : Bool := n != 0 && bit (s.reg (.tnuTbCtl n)) 8

/-- The 64-bit instant of a time base, R128: the nanoseconds, modulo 2^32 in the short format. -/
def State.tbNow (s : State) (n : Nat) : Nat :=
  ((s.tbase n).acc.toNat >>> 32) % 2 ^ (if s.tbShort n then 32 else 64)

/-- The seconds count of an extended time base, R128. -/
def State.tbSec (s : State) (n : Nat) : Nat := (s.tbase n).acc.toNat >>> 32 / 1000000000 % 2 ^ 48

/-- The present instant on TB0, which is always extended (R130). -/
def State.now (s : State) : Nat := ((s.tbase 0).acc.toNat >>> 32) % 2 ^ 64

/-- One time base after dt ticks: each tick adds the increment, R134. -/
def tbAdvance (c : List (Reg × W64)) (dt : Nat) (m : List (Nat × TimeBase)) (n : Nat) : List (Nat × TimeBase) :=
  let t := sget {} m n
  sset {} m n { t with acc := t.acc + BitVec.ofNat 128 (dt * (csrGet c (.tnuTbInc n)).toNat) }

/-- dt ticks pass. The time bases count from the first lock of the PLL on, R131. -/
def State.elapse (s : State) (dt : Nat) : State :=
  { s with
    ticks := s.ticks + dt
    tnu := if s.pwr.pllLocked then
        { s.tnu with tbs := (List.range 8).foldl (tbAdvance s.csr dt) s.tnu.tbs }
      else s.tnu }

/-! Free values and outputs -/

/-- Draws a fresh free word (log entry 3). -/
def State.fresh (s : State) : W64 × State := (Config.freeWord s.freeCtr, { s with freeCtr := s.freeCtr + 1 })

/-- Draws n fresh free bytes (log entry 3). -/
def State.freshBytes (s : State) (n : Nat) : Bytes × State :=
  ((List.range n).map (Config.freeByte s.freeCtr), { s with freeCtr := s.freeCtr + 1 })

/-- Draws from the entropy source, R299, R463 (log entry 20). -/
def State.draw (s : State) (n : Nat) : Bytes × State :=
  (cut (Config.entropy s.freeCtr) 0 n, { s with freeCtr := s.freeCtr + 1 })

def State.emit (s : State) (o : OutItem) : State := { s with out := s.out ++ [o] }

/-! Start-up stage, R65 -/

def State.stage (s : State) : Nat := s.fldOf .ccxIdState 16 8

/-- 1 while stage is READY: Bivexa runs, the mailboxes are open. -/
def State.ready (s : State) : Bool := bit (s.reg .ccxIdState) 0

/-! Device memory -/

/-- The byte at a device address; a byte that nothing has written reads 0 (R379, log entry 10). -/
def State.rdByte (s : State) (a : Nat) : Byte := sget 0 s.mem a

def State.rd (s : State) (a n : Nat) : Bytes := sgetAll 0 s.mem a n

def State.wr (s : State) (a : Nat) (b : Bytes) : State := { s with mem := ssetAll 0 s.mem a b }

/-- The little-endian number of n bytes at an address. -/
def State.rdNum (s : State) (a n : Nat) : Nat := leVal (s.rd a n)

/-- Island memory, R400, by offset. -/
def State.isl (s : State) (o n : Nat) : Bytes := sgetAll 0 s.island o n

def State.wrIsl (s : State) (o : Nat) (b : Bytes) : State := { s with island := ssetAll 0 s.island o b }

/-- Whether [a, a+n) lies inside [lo, lo+size). -/
def inside (a n lo size : Nat) : Bool := decide (lo ≤ a ∧ a + n ≤ lo + size)

/-- Whether [a, a+n) and [lo, lo+size) share a byte. -/
def meets (a n lo size : Nat) : Bool := decide (a < lo + size ∧ lo < a + n)

def hbmSize : Nat := 0x1200000000
def loadBase : Nat := 0x11F0000000
def loadSize : Nat := 0x10000000
def coreBase (n : Nat) : Nat := 0x4000000000 + n * 0x2000000
def stagingBase : Nat := 0x401C000000
def stagingSize : Nat := 0x3000000
def churnBase : Nat := 0x4020000000
def churnSize : Nat := 0x2000000
def gridBase : Nat := 0x4022000000
def gridSize : Nat := 0x400000
def csrBase : Nat := 0x5000000000
def csrSize : Nat := 0x8000000
def cellarBase : Nat := 0x6000000000
def cellarSize : Nat := 0x2000000000

/-- The mapped regions of R28 and R29: their bases and sizes. The block of a logical core that maps to none is a hole (R126, R287). -/
def State.regions (s : State) : List (Nat × Nat) :=
  [(0, hbmSize)] ++
  ((List.range 14).filter fun n => decide (s.fldOf .tarLmap (4 * n) 4 < 14)).flatMap
    (fun n => [(coreBase n, 0x1000000 + 0x400000)]) ++
  [(stagingBase, stagingSize), (churnBase, churnSize + gridSize), (csrBase, csrSize), (cellarBase, cellarSize)]

/-- Whether some byte of [a, a+n) falls in a hole of R28. -/
def State.inHole (s : State) (a n : Nat) : Bool := !(s.regions.any fun r => inside a n r.1 r.2)

/-- The requester identities of R381. -/
inductive Req where
  | part (p : Nat) | host | system
deriving DecidableEq, Repr

/-- The number of a requester's range bank and counters, R393, and its owner_part code, R517. -/
def Req.num : Req → Nat
  | .part p => p | .host => 8 | .system => 9

/-- The partition that the event slot of a failed access names: the requester, and P0 for HOST and SYSTEM (log entry 7). -/
def Req.slotPart : Req → Nat
  | .part p => p % 8
  | _ => 0

/-- The ranges of bank p: base, size in bytes, flags (R115, R393). -/
def State.ranges (s : State) (p : Nat) : List (Nat × Nat × Nat) :=
  ((List.range 16).map fun r =>
    ((s.reg (.mmvRangeBase p r)).toNat, s.fldOf (.mmvRangeSize p r) 0 32 * 65536, s.fldOf (.mmvRangeSize p r) 32 32)).filter
    fun e => decide (e.2.1 ≠ 0)

/-- Whether one range of the requester covers the access and allows it, R381. -/
def State.inRange (s : State) (q : Req) (write : Bool) (a n : Nat) : Bool :=
  match q with
  | .system => true
  | q => (s.ranges q.num).any fun e => inside a n e.1 e.2.1 && e.2.2.testBit (if write then 1 else 0)

def stRange : Nat := 0x20
def stHole : Nat := 0x21

/-- The check of R32: ranges first, then holes; none when the access passes. -/
def State.check (s : State) (q : Req) (write : Bool) (a n : Nat) : Option Nat :=
  if !(s.inRange q write a n) then some stRange
  else if s.inHole a n then some stHole
  else none

/-- The protected regions of R460: base, size in bytes, owner. -/
def State.protRegions (s : State) : List (Nat × Nat × Nat) :=
  ((List.range 16).map fun n =>
    ((s.reg (.ssiSecProtBase n)).toNat, (s.reg (.ssiSecProtSize n)).toNat * 65536, s.fldOf (.ssiSecProtPart n) 0 3)).filter
    fun e => decide (e.2.1 ≠ 0)

/-- Whether a read of [a, a+n) meets a line that carries a poison marker or an uncorrectable error, R379. -/
def State.poisoned (s : State) (a n : Nat) : Bool := s.pwr.hbmPoison.any fun l => meets a n l 64

def State.meetsProt (s : State) (a n : Nat) : Bool := s.protRegions.any fun e => meets a n e.1 e.2.1

/-! Events -/

/-- Event data: each item of the spec's list as 8 little-endian bytes, in the order given (DESIGN CHOICE, log entry 7). -/
def evData (l : List Nat) : Bytes := l.flatMap (leBytes 8)

/-- Adds an event to the backlog of 256, R82: a full backlog gives up its oldest event of another group for one of group 8 or
9, and loses any other new one. -/
def evAdd (q : List Event) (e : Event) : List Event × Bool :=
  let urgent := fun (x : Event) => decide (x.code / 256 = 8 ∨ x.code / 256 = 9)
  if q.length < 256 then (q ++ [e], false)
  else if urgent e then
    match q.findIdx? fun x => !(urgent x) with
    | some i => (q.eraseIdx i ++ [e], true)
    | none => (q, true)
  else (q, true)

/-- Queues an event for the host, R79, R82, R63: discarded and counted while the link is down. -/
def State.queueEvent (s : State) (e : Event) : State :=
  if !s.ready then s
  else if !s.hp.linkUp then { s with hp := { s.hp with evtDiscarded := s.hp.evtDiscarded + 1 } }
  else
    let r := evAdd s.hp.evtQ e
    let s := { s with hp := { s.hp with evtQ := r.1 } }
    if r.2 then ({ s with hp := { s.hp with evtLost := s.hp.evtLost + 1 } }).setFldOf .ccxHpMboxErr 2 1 1 else s

/-- Delivers an event record: to P0 always, to the host unless its low byte is 0x80 or above (R113). -/
def State.deliver (s : State) (e : Event) : State :=
  let s := s.emit (.p0Event e)
  if e.code % 256 < 128 then s.queueEvent e else s

/-- Raises an event now, R79. -/
def State.raise (s : State) (code part : Nat) (data : Bytes := []) : State :=
  s.deliver { code := code, part := part, inst := s.now, data := data }

/-- Replaces the limit record of an event and object. -/
def State.updLimit (s : State) (code obj : Nat) (f : EvLimit → EvLimit) : State :=
  { s with ccx := { s.ccx with limits := updFirst (fun x => x.code == code && x.obj == obj) f s.ccx.limits } }

/-- Raises an event that is limited to one a second per object, R79: repeats in between are counted. -/
def State.raiseLim (s : State) (code obj part : Nat) (data : Bytes := []) : State :=
  match s.ccx.limits.find? fun l => l.code == code && l.obj == obj with
  | some l =>
    if s.ns < l.last + 1000000000 then s.updLimit code obj fun x => { x with held := x.held + 1 }
    else
      (s.updLimit code obj fun x => { x with last := s.ns, held := 0 }).deliver
        { code := code, part := part, inst := s.now, repeats := l.held, data := data }
  | none =>
    ({ s with ccx := { s.ccx with limits := s.ccx.limits ++ [EvLimit.mk code obj s.ns 0] } }).raise code part data

/-- Counts and reports an access that failed the check of R32, R382, R517; `inp` is the input number of R384. -/
def State.failAccess (s : State) (q : Req) (inp a st : Nat) : State :=
  let data := evData [q.num, a, inp]
  let s := if q = .system then s else s.setReg (.mmvRangeLast q.num) (BitVec.ofNat 64 a)
  if st = stRange then
    (s.countSat (.mmvRangeCnt q.num) 0 16).raiseLim 0x0742 q.num q.slotPart data
  else
    (if q = .system then s else s.countSat (.mmvRangeCnt q.num) 16 16).raiseLim 0x0743 q.num q.slotPart data

/-! Interrupt causes, R84, R85 -/

/-- Whether MSI-X messages can leave: link up, D0, Bus Master and MSI-X enabled (R63; PCIe). -/
def State.msixOpen (s : State) : Bool := s.hp.linkUp && !s.hp.d3hot && bit s.hp.cfgCommand 2 && bit s.hp.cfgMsix 31

/-- Whether vector v is masked, by function or by vector. -/
def State.msixMasked (s : State) (v : Nat) : Bool := bit s.hp.cfgMsix 30 || bit (s.reg (.msixEntry v 3)) 0

/-- Sends vector v, or sets its pending bit while it cannot be sent. -/
def State.msixSend (s : State) (v : Nat) : State :=
  if s.msixOpen && !(s.msixMasked v) then
    ({ s with hp := { s.hp with modLast := sset 0 s.hp.modLast v (s.ns + 1) } }).emit (.msix v)
  else s.modReg .msixPba fun p => setBit p v true

/-- Whether the moderation gap of vector v still runs; vectors 2 and 3 are never moderated. -/
def State.inGap (s : State) (v : Nat) : Bool :=
  let gap := s.fldOf (.ccxHpIrqMod v) 0 10
  let last := sget 0 s.hp.modLast v
  (v = 0 || v = 1 || v = 4 || v = 5) && decide (gap ≠ 0) && decide (last ≠ 0) && decide (s.ns + 1 < last + gap * 1000)

/-- A cause of vector v occurs. -/
def State.cause (s : State) (v : Nat) : State :=
  let s := s.modReg .ccxHpIrqStat fun x => setBit x v true
  if !(bit (s.reg .ccxHpIrqCtl) v) then s
  else if s.inGap v then
    if s.hp.modMerged.contains v then s else { s with hp := { s.hp with modMerged := s.hp.modMerged ++ [v] } }
  else s.msixSend v

/-- Stage or ready changes: vector 3, R65. -/
def State.setStage (s : State) (st : Nat) : State :=
  ((s.setFldOf .ccxIdState 16 8 st).setFldOf .ccxIdState 0 1 (if st = 5 then 1 else 0)).cause 3

/-! KV pages, R357: their descriptors in the metadata region, and their pins, R358 -/

def kvKey (pool id : Nat) : Nat := pool * 0x1000000 + id

def State.kvPage (s : State) (pool id : Nat) : KvPage := sget {} s.kv.pages (kvKey pool id)

/-- The 32-byte page descriptor. -/
def KvPage.bytes (p : KvPage) : Bytes :=
  leBytes 1 p.state ++ leBytes 1 (if p.node then 1 else 0) ++ leBytes 2 p.refs ++
  leBytes 4 (if p.state = 3 ∨ p.state = 4 then p.slot else p.frame) ++ leBytes 8 p.last ++ leBytes 8 p.gen ++ leBytes 4 p.pins ++ leBytes 4 0

/-- The address of a page descriptor: after the header, the sequences, the page-table blocks and the nodes (log entry 61). -/
def State.kvDescAt (s : State) (pool id : Nat) : Nat :=
  s.kv.metaAddr + 4096 + 256 * s.kv.maxSeq + 1024 * s.kv.ptBlocks + 64 * s.kv.maxNodes +
    32 * ((match s.kv.pools.find? fun e => e.1 == pool with | some e => e.2.idBase | none => 0) + id)

def State.setKvPage (s : State) (pool id : Nat) (p : KvPage) : State :=
  ({ s with kv := { s.kv with pages := sset {} s.kv.pages (kvKey pool id) p } }).wr (s.kvDescAt pool id) p.bytes

/-- The commands that pin a page, R358: they name a sequence whose table holds it. -/
def State.kvPins (s : State) (pool id : Nat) : Nat :=
  s.kv.names.foldl (fun (n : Nat) e => n + (e.2.filter fun q =>
    s.kv.seqs.any fun x => x.1 == q && x.2.pool == pool && x.2.table.contains id).length) 0

/-- Every page descriptor carries its pins. -/
def State.kvSync (s : State) : State :=
  s.kv.pages.foldl (fun (s : State) e =>
    let n := s.kvPins (e.1 / 0x1000000) (e.1 % 0x1000000)
    if e.2.pins = n then s else s.setKvPage (e.1 / 0x1000000) (e.1 % 0x1000000) { e.2 with pins := n }) s

/-- A command that has ended names no sequence any more. -/
def State.unname (s : State) (id : Nat) : State :=
  if s.kv.names.any fun e => e.1 == id then
    let names := s.kv.names.filter fun e => e.1 != id
    let by_ := s.kv.fetchedBy.filter fun e => e.1 != id
    ({ s with kv := { s.kv with names := names, fetchedBy := by_ } }).kvSync
  else s

/-! Commands -/

def State.cmd? (s : State) (id : Nat) : Option Cmd := s.ccx.cmds.find? fun c => c.id == id

def State.updCmd (s : State) (id : Nat) (f : Cmd → Cmd) : State :=
  { s with ccx := { s.ccx with cmds := updFirst (fun c => c.id == id) f s.ccx.cmds } }

/-- A command reaches a final state, R98, R99: its response waits in the backlog, or is discarded and counted while the host
link is down (R63). A command that is final already stays as it is. -/
def State.endCmd (s : State) (id : Nat) (st : CmdState) (status : Nat) : State :=
  match s.cmd? id with
  | none => s
  | some c =>
    if c.state.final then s
    else
      let s := s.updCmd id fun c => { c with
        state := st, status := status, commit := if st = .completed then s.now else 0, verdict := none }
      let s := s.unname id
      if s.hp.linkUp then { s with hp := { s.hp with rspQ := s.hp.rspQ ++ [id] } }
      else
        (s.updCmd id fun c => { c with responded := true }).setFldOf .ccxHpMboxErr 1 1 1 |> fun s =>
          { s with hp := { s.hp with rspDiscarded := s.hp.rspDiscarded + 1 } }

def State.failCmd (s : State) (id status : Nat) : State := s.endCmd id .failed status

/-- Results of a command: the bytes at slot offset o, R77. -/
def State.setResult (s : State) (id o : Nat) (b : Bytes) : State :=
  s.updCmd id fun c => { c with results := putAt c.results (o - 0x20) b }

/-- The n-byte parameter at slot offset o. -/
def Cmd.p (c : Cmd) (o n : Nat) : Nat := numAt c.params (o - 0x20) n

/-- The status of a command that commits now: ST_DEADLINE_MISSED after its deadline, R101. -/
def State.doneStatus (s : State) (c : Cmd) : Nat :=
  if c.deadline ≠ 0 ∧ c.deadline < s.now then 0x02 else 0x00

end Sys2Proof.Machine
end

