-- ==== Sys2Proof/Machine/Cmds.lean ====
section
/-! DEFINITION. How a host command's own row runs it, the output tag and the result-valid marks of a commit, and the drains and
stops that wait for commands to end. -/
namespace Sys2Proof.Machine

/-- The command that a row runs: it is RUNNING, has the row's code, and its row has not run yet (log entry 8). -/
def State.runs (s : State) (id code : Nat) : Option Cmd :=
  match s.cmd? id with
  | some c => if c.state = .running ∧ c.code = code ∧ c.started = false then some c else none
  | none => none

def State.start (s : State) (id : Nat) : State := s.updCmd id fun c => { c with started := true, seen := none }

/-- Every byte of the parameters at the offsets given is 0. -/
def Cmd.zero (c : Cmd) (o n : Nat) : Bool := c.p o n == 0

/-! Tags, R19 and R20 -/

/-- The instant at which a tag expires. -/
def Tag.expiry (t : Tag) : Nat := t.inst + t.window

/-- The tag as its 16 little-endian bytes, R19. -/
def Tag.bytes (t : Tag) : Bytes :=
  leBytes 1 ((if t.valid then 1 else 0) + (if t.revised then 2 else 0)) ++ leBytes 1 t.origin ++ leBytes 2 0 ++
  leBytes 4 t.window ++ leBytes 8 t.inst

/-- The tag that 16 bytes hold. -/
def Tag.ofBytes (b : Bytes) : Tag :=
  { inst := numAt b 8 8, window := numAt b 4 4, origin := numAt b 1 1,
    revised := (numAt b 0 1).testBit 1, valid := (numAt b 0 1).testBit 0 }

/-- Whether tag a sets the output's instant rather than b, which stands in an earlier slot, R20. -/
def Tag.older (a b : Tag) : Bool :=
  decide (a.inst < b.inst ∨ (a.inst = b.inst ∧ a.expiry < b.expiry))

/-- The output tag of R20 over the tagged inputs, in slot order. -/
def tagOut (ins : List Tag) : Tag :=
  match ins.filter fun t => t.valid with
  | [] => {}
  | t :: r =>
    let least := r.foldl (fun (b a : Tag) => if a.older b then a else b) t
    let expiry := r.foldl (fun (e : Nat) a => Nat.min e a.expiry) t.expiry
    { inst := least.inst, window := expiry - least.inst, origin := least.origin,
      revised := (t :: r).any fun a => a.revised, valid := true }

/-- The tag of the descriptor at an address, R313. -/
def State.descTag (s : State) (d : Nat) : Tag := Tag.ofBytes (s.rd (d + 0x50) 16)

/-- The result-valid mark of a descriptor, R313. -/
def State.descMark (s : State) (d : Nat) : Bool := bit (s.rdByte (d + 0x0A)) 0

def State.setMark (s : State) (d : Nat) (b : Bool) : State :=
  s.wr (d + 0x0A) [setBit (s.rdByte (d + 0x0A)) 0 b]

/-- Writes the tag and sets the mark of an output descriptor at the commit point, R100, R21, R316. -/
def State.publish (s : State) (t : Tag) (d : Nat) : State := (s.wr (d + 0x50) t.bytes).setMark d true

/-- A command that only changes configuration commits with a status, R99, or meets its natural end under DISCARD, R110. -/
def State.finish (s : State) (id status : Nat) : State :=
  match s.cmd? id with
  | none => s
  | some c => if c.discard then s.endCmd id .discarded 0x1D else s.endCmd id .completed status

/-- A command reaches its commit point with a status of COMPLETED, R99, R100: the tags and marks of its outputs are written. -/
def State.complete (s : State) (id status : Nat) : State :=
  match s.cmd? id with
  | none => s
  | some c => if c.state.final || c.discard then s.finish id status else (c.outs.foldl (fun s d => s.publish (tagOut c.ins) d) s).finish id status

/-- A command that only changes configuration commits, R99. -/
def State.done (s : State) (c : Cmd) : State := s.finish c.id (s.doneStatus c)

/-- A command commits with result bytes at slot offset 0x20. -/
def State.doneWith (s : State) (c : Cmd) (b : Bytes) : State := (s.setResult c.id 0x20 b).done c

/-- A command's unit has finished; COMMAND_COMMIT makes the status final. -/
def State.setVerdict (s : State) (id status : Nat) : State := s.updCmd id fun c => { c with verdict := some status }

/-! Partitions -/

def State.part (s : State) (p : Nat) : Part := sget {} s.ccx.parts p

def State.setPart (s : State) (p : Nat) (x : Part) : State :=
  { s with ccx := { s.ccx with parts := sset {} s.ccx.parts p x } }

/-- The state of a partition; P0 is always ACTIVE, R114. -/
def State.partState (s : State) (p : Nat) : PartState := if p = 0 then .active else (s.part p).state

/-- A partition changes state, and EV_PART_STATE tells it, R117. -/
def State.toState (s : State) (p : Nat) (st : PartState) : State :=
  if (s.part p).state = st then s
  else (s.setPart p { s.part p with state := st }).raise 0x0110 p (evData [p, (s.part p).state.num, st.num])

/-- The group of a command code, R13. -/
def Cmd.group (c : Cmd) : Nat := c.code / 256

/-- Groups whose part field is ignored, R74. -/
def Cmd.noPart (c : Cmd) : Bool := c.group == 1 || c.group == 10

/-- The RUNNING commands of a partition. -/
def State.runningOf (s : State) (p : Nat) : List Cmd :=
  s.ccx.cmds.filter fun c => c.state == .running && !c.noPart && c.part == p

/-- Whether the command of this number is still RUNNING. -/
def State.isRunning (s : State) (id : Nat) : Bool :=
  match s.cmd? id with
  | some c => c.state == .running
  | none => false

/-- Whether a partition runs anything: one that is UNDEFINED or DEFINED does not, R114. -/
def State.runsWork (s : State) (p : Nat) : Bool := s.partState p != .undefined && s.partState p != .defined

/-- Whether the row of a command that acted at its acceptance has still to run: it cannot end before it has been RUNNING, R98. -/
def State.waitsRow (s : State) (id : Nat) : Bool :=
  match s.cmd? id with
  | some c => !c.state.final && !c.started
  | none => false

/-! Drains and stops that wait for commands, R110, R117 -/

/-- A disable whose last RUNNING command has ended commits, R110; one that timed out ends FAILED once the restarts it caused have
ended. -/
def settleFunc (s : State) (f : FuncRec) : State :=
  let upd := fun (s : State) (g : FuncRec → FuncRec) =>
    { s with ccx := { s.ccx with funcs := updFirst (fun x => x.kind == f.kind && x.idx == f.idx) g s.ccx.funcs } }
  if f.committed then s
  else if f.restarting ≠ [] then
    if f.restarting.any fun p => s.partState p == .restarting then s
    else
      let s := upd s fun x => { x with committed := true, cmds := [], restarting := [] }
      let s := s.raise 0x0112 0 (evData [f.kind, f.idx, f.restarting.foldl (fun m p => m + 2 ^ p) 0])
      f.cmds.foldl (fun s id => (s.setResult id 0x20 (leBytes 4 f.ended ++ leBytes 4 f.failed)).failCmd id 0x19) s
  else if f.waiting.any s.isRunning || f.cmds.any s.waitsRow then s
  else
    let s := upd s fun x => { x with committed := true, cmds := [] }
    f.cmds.foldl (fun s id =>
      (s.setResult id 0x20 (leBytes 4 f.ended ++ leBytes 4 f.failed)).finish id
        (match s.cmd? id with | some c => s.doneStatus c | none => 0)) s

/-- A stopping partition whose last RUNNING command has ended is DEFINED, and its stop commits, R117. -/
def settleStop (s : State) (p : Nat) : State :=
  match (s.part p).state, (s.part p).stop with
  | .stopping, some k =>
    if (s.runningOf p).isEmpty && !(s.waitsRow k.cmd) then
      let s := (s.setPart p { s.part p with stop := none }).toState p .defined
      (s.setResult k.cmd 0x20 (leBytes 4 k.ended ++ leBytes 4 k.failed ++ leBytes 1 0)).finish k.cmd
        (match s.cmd? k.cmd with | some c => s.doneStatus c | none => 0)
    else s
  | _, _ => s

/-- A tensor command gives back a voxel-set slot that it reads as it ends, R239. -/
def State.releaseSlot (s : State) (e : Nat × Nat) : State := s.wr (e.2 + 0x1C) (leBytes 4 (s.rdNum (e.2 + 0x1C) 4 - 1))

/-- Work whose command has ended is gone: descriptors, chains and reruns, movements, collectives, walks (R106, R121). -/
def State.pruneTar (s : State) : State :=
  let s := (s.tar.slots.filter fun e => !(s.isRunning e.1)).foldl State.releaseSlot s
  let slots := s.tar.slots.filter fun e => s.isRunning e.1
  let jobs := s.tar.jobs.filter fun j => s.isRunning j.cmd
  let chains := s.tar.chains.filter fun k => s.isRunning k.cmd
  let moves := s.mmv.moves.filter fun j => s.isRunning j.cmd
  let peers := s.mmv.peers.filter fun e => s.isRunning e.1
  let colls := s.mmv.colls.filter fun j => s.isRunning j.cmd
  let walks := s.kv.walks.filter fun w => s.isRunning w.cmd
  let tar : Tar := { s.tar with jobs := jobs, chains := chains, slots := slots }
  let mmv : Mmv := { s.mmv with moves := moves, peers := peers, colls := colls }
  let kv : Kv := { s.kv with walks := walks }
  { s with tar := tar, mmv := mmv, kv := kv }

/-- Every drain and stop whose wait is over ends, and work whose command has ended is gone. -/
def State.settle (s : State) : State :=
  (List.range 8).foldl settleStop (s.ccx.funcs.foldl settleFunc s.pruneTar)

/-- The end of every row that leaves t: no engine works for a command that has ended (R106, R121), dt ticks have passed since s, and
the queue is as the row found it. -/
def State.close (s : State) (dt : Nat) (t : State) : State :=
  { t.pruneTar with pending := s.pending, ticks := s.ticks + dt }

/-- Runs the row of a host command: time passes, then the command named by id acts if it is the row's, and what waited for it
ends. -/
def runCmd (dt id code : Nat) (f : Cmd → State → State) (s : State) : Host.Outcome State Fault Refusal :=
  .next (s.close dt (match (s.elapse dt).runs id code with
    | some c => (f c ((s.elapse dt).start id)).settle
    | none => s.elapse dt))

/-- Runs the row of an event: time passes, then it acts. -/
def runEvent (dt : Nat) (f : State → State) (s : State) : Host.Outcome State Fault Refusal :=
  .next (s.close dt (f (s.elapse dt)))

/-- The status codes that several families name, R112. -/
def stBadParam : Nat := 0x11
def stNotPermitted : Nat := 0x12
def stPartState : Nat := 0x13
def stBusy : Nat := 0x14
def stAlignment : Nat := 0x24
def stFormat : Nat := 0x62

/-- Ends a command FAILED with the first status that applies, in the order given. -/
def State.firstFail (s : State) (c : Cmd) (l : List (Bool × Nat)) (ok : State → State) : State :=
  match l.find? fun e => e.1 with
  | some e => s.failCmd c.id e.2
  | none => ok s

end Sys2Proof.Machine
end

