-- ==== Sys2Proof/Machine/Access.lean ====
section
/-! DEFINITION. Accesses to the device address map beyond the check of R32: protected regions, the Churn tables, the Planner grid,
the Cellar aperture, and reads that meet an uncorrectable error. -/
namespace Sys2Proof.Machine

/-- What an access is made for: the rules of R460 differ for the owner's tensor commands and for its movement and collectives. -/
inductive Purpose where
  | tensor | move | other
deriving DecidableEq, Repr

/-- Whether R460 refuses an access to a protected region it meets. -/
def State.protRefuses (s : State) (q : Req) (u : Purpose) (write : Bool) (a n : Nat) : Bool :=
  s.protRegions.any fun r => meets a n r.1 r.2.1 &&
    !(u != .other && !write && q == .part r.2.2 && inside a n r.1 r.2.1)

/-- Whether [a, a+n) meets a window that only its own unit writes: the Churn tables (R219) or the Planner grid (R262). -/
def meetsOwned (a n : Nat) : Bool := meets a n churnBase churnSize || meets a n gridBase gridSize

/-- Whether [a, a+n) meets the KV metadata region or a pool's frames, which only the KV machinery writes, R355. -/
def State.meetsKv (s : State) (a n : Nat) : Bool :=
  meets a n s.kv.metaAddr s.kv.metaBytes || s.kv.pools.any fun e => meets a n e.2.addr (e.2.frames * e.2.size)

/-- A write that covers a poisoned line only in part: its merge reads the poison, R379. -/
def State.mergesPoison (s : State) (a n : Nat) : Bool := s.pwr.hbmPoison.any fun l => meets a n l 64 && !(inside l 64 a n)

/-- The status an access fails with, none when it passes: R32, R460, then R219, R262, R355, R367 and R379. -/
def State.access (s : State) (q : Req) (u : Purpose) (write : Bool) (a n : Nat) : Option Nat :=
  match s.check q write a n with
  | some st => some st
  | none =>
    if s.protRefuses q u write a n then some stRange
    else if write && (meetsOwned a n || s.meetsKv a n) then some stNotPermitted
    else if meets a n cellarBase cellarSize then some stNotPermitted
    else if write && s.mergesPoison a n then some 0x25
    else none

/-- What the stacks hold of the HBM3E line at a device address, R378: the line under AES-256-XTS with the device's memory key, its address
the tweak. `mem` keeps what a read returns, which the controllers decrypt; the key stays the same over every reset, so what was stored reads
back. Staging, core and the other on-chip memories hold their bytes as they are. -/
def State.hbmLine (s : State) (a : Nat) : Bytes := Config.xtsSeal Config.memoryKey (a / 64 * 64) (s.rd (a / 64 * 64) 64)

/-- The channel of a device address, R376. -/
def channelOf (a : Nat) : Nat := ((a >>> 8) ^^^ (a >>> 13) ^^^ (a >>> 18)) % 32

/-- A read met an uncorrectable error, R379: counted, held and told with the requester's input number. -/
def State.memUe (s : State) (q : Req) (inp a : Nat) : State :=
  let c := channelOf a
  ((s.countSat (.mmvMcUe c) 0 32).setReg (.mmvMcLastUe c) (BitVec.ofNat 64 a)).raise 0x0741 q.slotPart (evData [c, a, inp])

/-- The first line of [a, a+n) that reads as uncorrectable. -/
def State.ueLine (s : State) (a n : Nat) : Nat :=
  match s.pwr.hbmPoison.find? fun l => meets a n l 64 with
  | some l => l
  | none => a

/-- The number of the first protected region that an access meets. -/
def State.protIndex (s : State) (a n : Nat) : Nat :=
  ((List.range 16).find? fun i => meets a n (s.reg (.ssiSecProtBase i)).toNat ((s.reg (.ssiSecProtSize i)).toNat * 65536)).getD 0

/-- Counts and reports a failed access: R382, and EV_PROTECTED_ACCESS for one that a protected region refuses (R460). -/
def State.reportAccess (s : State) (q : Req) (u : Purpose) (write : Bool) (inp a n st : Nat) : State :=
  if st = stRange ∨ st = stHole then
    let s' := s.failAccess q inp a st
    if s.check q write a n = none ∧ s.protRefuses q u write a n then
      s'.raiseLim 0x0906 q.num (q.num % 8) (evData [s.protIndex a n, inp, q.num])
    else s'
  else if st = 0x25 then s.memUe q inp (s.ueLine a n)
  else s

/-- A read as its requester sees it: the Churn working state reads 0, R219. -/
def State.rdSeen (s : State) (a n : Nat) : Bytes :=
  (List.range n).map fun i =>
    if inside (a + i) 1 (churnBase + 0x1F50000) 0xB0000 then 0 else s.rdByte (a + i)

/-- A write of whole lines takes their poison markers away, R379. -/
def State.clearPoison (s : State) (a n : Nat) : State :=
  { s with pwr := { s.pwr with hbmPoison := s.pwr.hbmPoison.filter fun l => !(inside l 64 a n) } }

/-- The number of lines that [a, a+n) covers only in part, R379. -/
def partialLines (a n : Nat) : Nat :=
  if n = 0 then 0
  else if a / 64 = (a + n - 1) / 64 then (if a % 64 = 0 ∧ n = 64 then 0 else 1)
  else (if a % 64 = 0 then 0 else 1) + (if (a + n) % 64 = 0 then 0 else 1)

/-- A store of a unit: whole lines replace poison, partial lines of HBM3E are counted in MMV_MC_RMW, R379. -/
def State.store (s : State) (a : Nat) (b : Bytes) : State :=
  let s := (s.wr a b).clearPoison a b.length
  if a + b.length ≤ hbmSize ∧ partialLines a b.length ≠ 0 then
    let s := if a % 64 ≠ 0 ∨ a / 64 = (a + b.length - 1) / 64 then s.countWrap (.mmvMcRmw (channelOf a)) 0 32 1 else s
    if partialLines a b.length = 2 ∨ (a % 64 = 0 ∧ a / 64 ≠ (a + b.length - 1) / 64) then
      s.countWrap (.mmvMcRmw (channelOf (a + b.length - 1))) 0 32 1
    else s
  else s

/-- Who reads a command's tables, R509: SYSTEM for groups 0x01 and 0x0A, the command's partition otherwise. -/
def Cmd.tableReq (c : Cmd) : Req := if c.noPart then .system else .part c.part

/-- Why a table of n bytes at an address cannot be read by q; one that overlaps a protected region is a range failure. An empty table is
not read. -/
def State.tableErr (s : State) (q : Req) (a n : Nat) : Option Nat :=
  if n = 0 then none
  else match s.check q false a n with
  | some st => some st
  | none => if s.meetsProt a n then some stRange else if s.poisoned a n then some 0x25 else none

/-- The bytes of a table that a command names, as they were when it became RUNNING, R509. -/
def State.tableAt (s : State) (c : Cmd) (a n : Nat) : Bytes :=
  match c.seen with
  | some m => ({ s with mem := m }).rdSeen a n
  | none => s.rdSeen a n

/-- Reads a table and goes on, or ends the command with the failure reported, R509, R517. -/
def State.withTableAs (s : State) (q : Req) (c : Cmd) (a n : Nat) (k : Bytes → State → State) : State :=
  match s.tableErr q a n with
  | none => k (s.tableAt c a n) s
  | some st =>
    let s := if st = 0x25 then s.memUe q 7 (s.ueLine a n) else s.failAccess q 7 a st
    s.failCmd c.id st

/-- A table that a command names in device memory, R509. -/
def State.withTable (s : State) (c : Cmd) (a n : Nat) (k : Bytes → State → State) : State := s.withTableAs c.tableReq c a n k

end Sys2Proof.Machine
end

