-- ==== Sys2Proof/Machine/Pace.lean ====
section
/-! DEFINITION. Pace, the voltage governor, the pace table and deadline admission: R36 to R56, R94, R95, R475, R487 and R510. -/
namespace Sys2Proof.Machine

/-! The pace table, R51 -/

/-- Maximum Tj of the ordering code, R477. -/
def maxTj : Int := if Config.orderCode = 0 then 125 else 105

/-- VCORE of step v in mV and Tj of step t in °C. -/
def cellMv (v : Nat) : Nat := 480 + 10 * v
def cellTj (t : Nat) : Int := -40 + 5 * (t : Int)

def cellIdx (v t b : Nat) : Nat := (v * 34 + t) * 3 + b

/-- An entry of R51. Samples saturate as the rule says; a droop above 255 mV wraps modulo 256, since the rule says neither saturate nor
wrap (DESIGN CHOICE, log entry 85). -/
def paceEntry (pace mv : Nat) (tj : Int) (band source samples droop : Nat) : W64 :=
  BitVec.ofNat 64 (pace % 2 ^ 16 * 2 ^ 48 + mv % 2 ^ 10 * 2 ^ 38 + unsgn 8 tj * 2 ^ 30 + band % 4 * 2 ^ 28 +
    source % 4 * 2 ^ 26 + Nat.min samples 255 * 2 ^ 18 + droop % 256 * 2 ^ 10)

def entryPace (e : W64) : Nat := fld e 48 16
def entryBand (e : W64) : Nat := fld e 28 2
def entrySource (e : W64) : Nat := fld e 26 2

/-- The cells and bands that production test fills, R51. -/
def prodCell (v t b : Nat) : Bool :=
  decide (v < 43) && (((b == 0 || b == 2) && (t == 13 || t == 22)) ||
    (b == 0 && (t == 0 || cellTj t == maxTj)))

/-- The production entry of a device: its pace is the device's own (log entry 4), with the screening limits of R36. Its vcore_mv and tj_c are
the cell's own VCORE and Tj, though the fields are measured means of the device (DESIGN CHOICE, log entry 85). -/
def prodEntry (v t b : Nat) : W64 :=
  let p := fld (Config.productionPace v t b) 48 16
  let p := if v = 27 ∧ t = 22 ∧ b = 2 then Nat.max p 0x4000
    else if v = 7 ∧ t = 22 ∧ b = 2 then Nat.max p 0x1EB9 else p
  paceEntry p (cellMv v) (cellTj t) b 1 (fld (Config.productionPace v t b) 18 8) (fld (Config.productionPace v t b) 10 8)

/-- The entry of a cell and band; 0 where it is empty. -/
def State.paceCell (s : State) (v t b : Nat) : W64 :=
  if prodCell v t b then prodEntry v t b else sget 0 s.gov.table (cellIdx v t b)

def State.setPaceCell (s : State) (v t b : Nat) (e : W64) : State :=
  { s with gov := { s.gov with table := sset 0 s.gov.table (cellIdx v t b) e } }

/-- Every entry in the order of R95. -/
def State.paceTable (s : State) : List W64 :=
  (List.range 43).flatMap fun v => (List.range 34).flatMap fun t => (List.range 3).map fun b => s.paceCell v t b

/-- The band of a busy fraction in percent, R51. -/
def bandOf (pct : Nat) : Nat := if pct < 25 then 0 else if pct < 65 then 1 else 2

/-! Admission, R52, R53, R510 -/

/-- Whether a cell holds any entry. -/
def State.cellFilled (s : State) (v t : Nat) : Bool := (List.range 3).any fun b => entrySource (s.paceCell v t b) != 0

/-- The nearest filled cell at the same VCORE toward 70 °C, R510: the search takes 5 °C steps and ends at 70 °C. -/
def State.substitute (s : State) (v : Nat) : Nat → Nat → Nat
  | 0, t => t
  | fuel + 1, t =>
    if s.cellFilled v t then t else if t = 22 then t else s.substitute v fuel (if t < 22 then t + 1 else t - 1)

/-- The entry used of a cell: the heaviest band at most the predicted one, else the lightest heavier, R52. -/
def State.bandEntry (s : State) (v t band : Nat) : W64 :=
  let l := (List.range 3).map fun b => s.paceCell v t b
  match (l.take (band + 1)).reverse.find? fun e => entrySource e != 0 with
  | some e => e
  | none => (l.find? fun e => entrySource e != 0).getD 0

/-- The pace of one bracketing cell and whether it was derated, R52. -/
def State.cellPace (s : State) (v t band : Nat) : Rat × Bool :=
  let t' := s.substitute v 34 t
  let e := s.bandEntry v t' band
  let out := entryBand e < band ∨ t' ≠ t
  let p : Rat := (entryPace e : Rat) / 16384
  (if out then p * ((100 - s.gov.margin : Nat) : Rat) / 100 else p, decide out)

/-- The pace expected at a set point, Tj and band by bilinear interpolation, and the cells that lay outside their envelope. -/
def State.expectPace (s : State) (mv : Nat) (tj : Int) (band : Nat) : Rat × List Nat :=
  let vx := Nat.min (Nat.max mv 480) 900 - 480
  let tx := (max (-40) (min 125 tj) + 40).toNat
  let v0 := vx / 10
  let v1 := Nat.min (v0 + (if vx % 10 = 0 then 0 else 1)) 42
  let t0 := tx / 5
  let t1 := Nat.min (t0 + (if tx % 5 = 0 then 0 else 1)) 33
  let fv : Rat := ((vx % 10 : Nat) : Rat) / 10
  let ft : Rat := ((tx % 5 : Nat) : Rat) / 5
  let c := fun v t => s.cellPace v t band
  let p := (c v0 t0).1 * (1 - fv) * (1 - ft) + (c v1 t0).1 * fv * (1 - ft) + (c v0 t1).1 * (1 - fv) * ft + (c v1 t1).1 * fv * ft
  (p, ([(v0, t0), (v1, t0), (v0, t1), (v1, t1)].filter fun q => (c q.1 q.2).2).map fun q => q.1 * 34 + q.2)

/-- VCORE of the ceiling point, R44. -/
def ceilingMv (c : Nat) : Nat := if c = 0 then 550 else if c = 1 then 750 else 850

/-- The set point in use: the last one sent, R49. -/
def State.vset (s : State) : Nat := (s.reg .ccxPwrVset).toNat

/-- The average package power over the PPL window in 0.1 W. Right after READY the window holds fewer samples than it spans; the average is
taken over those there are (DESIGN CHOICE, log entry 85). -/
def State.powerAvg (s : State) : Nat :=
  let l := s.gov.samples.take s.gov.windowMs
  if l.isEmpty then 0 else l.foldl (· + ·) 0 / l.length

/-- The three conditions of a burst, R46, and the hold-off after the last one. -/
def State.burstAllowed (s : State) : Bool :=
  decide (s.powerAvg < 10 * (s.reg .ccxPwrPpl).toNat) && decide (s.pwr.tj ≤ maxTj - 10) && decide (s.gov.holdUntil ≤ s.ns) &&
  (match s.gov.burstAt with | some t => decide (s.ns ≤ t + s.gov.burstMs * 1000000) | none => true)

/-- Whether a set point lies within policy, PPL and R46 for admission, R52, R510. -/
def State.mayRaise (s : State) (mv : Nat) : Bool :=
  decide (mv ≤ ceilingMv s.gov.ceiling) && (decide (mv ≤ 750) || s.burstAllowed) && decide (s.pwr.tj < maxTj - 5) &&
  !s.gov.avsBad && !(bit (s.reg .ssiPwrStat) 0) && decide (s.powerAvg ≤ 10 * (s.reg .ccxPwrPpl).toNat)

/-! Governor rows, R44 to R50 -/

/-- The lowest set point of R44: the warning threshold plus 20 mV, 0.50 V, and the lowest voltage, in steps of 1 mV (R43), whose pace is at
least 0.40. Where no voltage up to 0.90 V reaches that pace, 900 mV stands for it (DESIGN CHOICE, log entry 85). -/
def State.floorMv (s : State) : Nat :=
  let band := bandOf s.gov.busyPct
  let ok := ((List.range 401).map fun i => 500 + i).find? fun mv => decide ((2 : Rat) / 5 ≤ (s.expectPace mv s.pwr.tj band).1)
  Nat.max (Nat.max ((s.reg .ssiPwrVcoreWarn).toNat + 20) 500) (ok.getD 900)

def State.setFlag (s : State) (i : Nat) : State := s.modReg .ccxPwrFlags fun v => setBit v i true

/-- Tj lies within 5 °C of its maximum, R47. -/
def State.hot (s : State) : Bool := decide (maxTj - 5 ≤ s.pwr.tj)

/-- The PPL window average lies above the PPL, R45. -/
def State.overPpl (s : State) : Bool := decide (10 * (s.reg .ccxPwrPpl).toNat < s.powerAvg)

/-- The set point the governor may go to: within the ceiling and R46; not above the present one under a VCORE warning (R474), near the
maximum Tj (R47) or above the PPL (R6); and not below the floor. Where the lowest set point lies above one of these, the floor wins, which
the rules do not say (DESIGN CHOICE, log entry 85). -/
def State.clampTarget (s : State) : Nat :=
  let hi := Nat.min s.gov.target (ceilingMv s.gov.ceiling)
  let hi := if hi > 750 ∧ !s.burstAllowed then 750 else hi
  let hi := if bit (s.reg .ssiPwrStat) 0 || s.hot || s.overPpl then Nat.min hi s.vset else hi
  Nat.max hi s.floorMv

/-- The burst record once a set point is sent: above 0.75 V a burst begins or goes on, at or below it a burst has ended, and no other may
begin for as long as it lasted, R46. -/
def Gov.sent (g : Gov) (at_ mv : Nat) : Gov :=
  if 750 < mv then { g with stepAt := some at_, burstAt := some (g.burstAt.getD at_) }
  else match g.burstAt with
    | some t => { g with stepAt := some at_, burstAt := none, holdUntil := at_ + (at_ - t) }
    | none => { g with stepAt := some at_ }

/-- A set point is sent to the regulator, R43, R49. -/
def State.sendVset (s : State) (mv : Nat) : State :=
  let s := (s.emit (.avs 0 (.voltageWrite mv))).setReg .ccxPwrVset (BitVec.ofNat 64 mv)
  { s with gov := s.gov.sent s.ns mv }

/-- The next set point on the way from cur to t: at most 25 mV away, R44. -/
def stepToward (cur t : Nat) : Nat := if cur < t then Nat.min (cur + 25) t else Nat.max (cur - 25) t

/-- The set points on the way from cur to t, R44. -/
def stepsTo (cur t : Nat) : List Nat :=
  (List.range (((t - cur) + (cur - t) + 24) / 25)).map fun i =>
    if cur < t then Nat.min (cur + 25 * (i + 1)) t else Nat.max (cur - 25 * (i + 1)) t

/-- All steps to a set point, where one row makes the whole change: their waits are not shown (log entry 38). -/
def State.stepTo (s : State) (t : Nat) : State := (stepsTo s.vset t).foldl State.sendVset s

/-- The wait of R44 after a step: the output is reported settled, and 20 µs have passed. -/
def State.stepReady (s : State) (settled : Bool) : Bool := settled && (match s.gov.stepAt with | some t => decide (t + 20000 ≤ s.ns) | none => true)

/-- AVS_SET_POINT_STEP: the status and the voltage are read, and one step of at most 25 mV goes toward the target once the last one has
settled, R44; the floor is flagged where it holds the governor; nothing is sent under an AVSBus fault, R50. -/
def avsSetPointStep (v : VcoreRead) (s : State) : State :=
  if s.gov.avsBad || !s.ready || !(s.stepReady v.settled) then s
  else
    let t := s.clampTarget
    let s := (s.emit (.avs 0 .statusRead)).emit (.avs 0 .voltageRead)
    let s := if s.gov.target < s.floorMv then s.setFlag 3 else s
    let s := if s.vset = t then s else s.sendVset (stepToward s.vset t)
    s.setReg .ccxPwrVmeas (BitVec.ofNat 64 v.mv)

def execAvsSetPointStep (dt : Nat) (v : VcoreRead) (s : State) : Host.Outcome State Fault Refusal :=
  runEvent dt (avsSetPointStep v) s

/-- The target falls 25 mV below the set point, not below the floor; a governor that the floor holds is flagged, R47, R50, R6. -/
def State.lowerTarget (s : State) : State :=
  let wish := Nat.min s.gov.target (s.vset - 25)
  let low := s.floorMv
  let s := { s with gov := { s.gov with target := Nat.max low wish } }
  if wish < low then s.setFlag 3 else s

/-- The present duty of the issue gate in 1/64, R310. -/
def State.gate (s : State) : Nat := s.fldOf .tarIssueGate 0 7

/-- The issue gate takes a duty; limiting is set while it is below 64/64, and EV_PPL_LIMITING is raised once the gated state has
lasted 1 ms, R45. -/
def State.setGate (s : State) (d : Nat) : State :=
  let s := s.setFldOf .tarIssueGate 0 7 d
  if d < 64 then
    let s := s.setFlag 0
    match s.gov.gatedSince with
    | none => { s with gov := { s.gov with gatedSince := some s.ns, gatedTold := false } }
    | some t =>
      if t + 1000000 ≤ s.ns ∧ !s.gov.gatedTold then
        ({ s with gov := { s.gov with gatedTold := true } }).raise 0x0A01 0
      else s
  else { s with gov := { s.gov with gatedSince := none, gatedTold := false } }

/-- The package power of R478 in 0.1 W: the VCORE current times VMEAS, and the on-die estimate of every other rail; under an AVSBus
fault the on-die estimate is all there is (R50). -/
def State.pkgPower (s : State) (p : PowerRead) : Nat :=
  if s.gov.avsBad then p.rest else p.amps * (s.reg .ccxPwrVmeas).toNat / 1000 + p.rest

/-- POWER_LIMIT_TICK: the regulator's current and temperature are read (R43), the 1 ms power average is recorded, the gate follows it, and the
set point falls while the window average lies above the PPL, R6, R45, R49, R465, R474. A duty in proportion to the excess is a DESIGN CHOICE
(log entry 37). -/
def powerLimitTick (p : PowerRead) (busyPct : Nat) (s : State) : State :=
  if !s.ready then s
  else
    let pkg := s.pkgPower p
    let s := if s.gov.avsBad then s else (s.emit (.avs 0 .currentRead)).emit (.avs 0 .temperatureRead)
    let s := { s with gov := { s.gov with samples := (pkg :: s.gov.samples).take 1000, busyPct := Nat.min busyPct 100 } }
    let l := s.gov.samples.take 100
    let shown := if bit (s.reg .ssiSecStat) 31 then (l.foldl (· + ·) 0 / Nat.max 1 l.length) / 50 * 50 else pkg
    let s := (s.setReg .ccxPwrPkg (BitVec.ofNat 64 shown)).setFldOf .ccxPwrPace 16 2 (bandOf s.gov.busyPct)
    let ppl := 10 * (s.reg .ccxPwrPpl).toNat
    let worst := Nat.max pkg s.powerAvg
    let d := if worst > ppl then Nat.max 1 (s.gate * ppl / worst)
      else if s.gov.avsBad ∧ s.hot = true then s.gate else 64
    let s := if s.overPpl && !s.gov.avsBad then s.lowerTarget else s
    s.setGate (if bit (s.reg .ssiPwrStat) 0 then Nat.min d 32 else d)

def execPowerLimitTick (dt : Nat) (p : PowerRead) (busyPct : Nat) (s : State) : Host.Outcome State Fault Refusal :=
  runEvent dt (powerLimitTick p busyPct) s

/-- BURST_END: a burst at its limit or without its conditions ends: the set point returns to 0.75 V, and stays at or below it for as long as
the burst lasted, R46. Under an AVSBus fault no set point is sent (R50). -/
def burstEnd (s : State) : State :=
  if s.gov.burstAt.isNone || s.burstAllowed || !s.ready then s
  else
    let s := { s with gov := { s.gov with target := Nat.min s.gov.target 750 } }
    if s.gov.avsBad then s else s.stepTo (Nat.min s.vset 750)

def execBurstEnd (dt : Nat) (s : State) : Host.Outcome State Fault Refusal := runEvent dt burstEnd s

/-- THERMAL_THROTTLE_TICK: within 5 °C of the maximum Tj the set point falls 25 mV, or the gate 1/64 under an AVSBus fault, once a
millisecond, R47, R50. -/
def thermalThrottleTick (s : State) : State :=
  let due := match s.gov.thermalAt with | some t => decide (t + 1000000 ≤ s.ns) | none => true
  if !s.ready || !s.hot || !due then s
  else
    let s := { s with gov := { s.gov with thermalAt := some s.ns } }
    if s.gov.avsBad then s.setGate (Nat.max 1 (s.gate - 1))
    else
      let s := s.lowerTarget
      if s.vset ≤ s.gov.target then s else s.sendVset (stepToward s.vset s.gov.target)

def execThermalThrottleTick (dt : Nat) (s : State) : Host.Outcome State Fault Refusal := runEvent dt thermalThrottleTick s

/-- AVS_FAULT: the third bad transfer in a row, R50. -/
def avsFault (s : State) : State :=
  if s.ready ∧ !s.gov.avsBad then
    (({ s with gov := { s.gov with avsBad := true, avsAt := s.ns } }).setFlag 2).raise 0x0A02 0
  else s

def execAvsFault (dt : Nat) (s : State) : Host.Outcome State Fault Refusal := runEvent dt avsFault s

/-- AVS_RETRY: once a second the status is read; the first read that succeeds clears the fault state and the governor resumes, with the
ceiling set meanwhile. -/
def avsRetry (ok : Bool) (s : State) : State :=
  if s.gov.avsBad = false ∨ s.ns < s.gov.avsAt + 1000000000 then s
  else
    let s := s.emit (.avs 0 .statusRead)
    if ok then { s with gov := { s.gov with avsBad := false, target := Nat.min s.gov.target (ceilingMv s.gov.ceiling) } }
    else { s with gov := { s.gov with avsAt := s.ns } }

def execAvsRetry (dt : Nat) (ok : Bool) (s : State) : Host.Outcome State Fault Refusal := runEvent dt (avsRetry ok) s

/-! Pace measurement, R37, R38, R54 -/

def State.paceIv (s : State) (ss : Nat) : PaceIv := sget {} s.gov.pace ss

def State.setPaceIv (s : State) (ss : Nat) (x : PaceIv) : State := { s with gov := { s.gov with pace := sset {} s.gov.pace ss x } }

/-- A TB0 instant that is a whole multiple of n µs lies after a and not after b, R38. -/
def boundaryIn (n a b : Nat) : Bool := decide (a / (1000 * Nat.max 1 n) < b / (1000 * Nat.max 1 n))

/-- The interval that SS_PACE_CTL holds; it is in force from its own next boundary on, R40. -/
def State.ivWritten (s : State) (ss : Nat) : Nat := s.fldOf (.paceCtl ss) 12 20

/-- A boundary of a new interval has come since it was written, R40. -/
def State.ivChanges (s : State) (ss : Nat) : Bool :=
  s.ivWritten ss != (s.paceIv ss).iv && boundaryIn (s.ivWritten ss) (Nat.max (s.paceIv ss).last (s.paceIv ss).since) s.now

/-- An interval of a subsystem has ended: a boundary of the interval in force has come since the last latch, or one of a new interval. -/
def State.ivEnds (s : State) (ss : Nat) : Bool := boundaryIn (s.paceIv ss).iv (s.paceIv ss).last s.now || s.ivChanges ss

/-- The interval record after an end: counts latched at a boundary of the interval in force belong to that interval; an interval that a new
one cuts short has the length that has passed (log entry 86). -/
def State.nextIv (s : State) (ss : Nat) : PaceIv :=
  let x := s.paceIv ss
  if boundaryIn x.iv x.last s.now then { x with counted := x.iv, iv := if s.ivChanges ss then s.ivWritten ss else x.iv, last := s.now }
  else { x with counted := Nat.max 1 ((s.now - x.last) / 1000), iv := s.ivWritten ss, last := s.now }

/-- Latches the counts of one subsystem at an interval's end, R38 to R41. -/
def State.latchPace (s : State) (ss : Nat) (ops probes : List Nat) : State :=
  let ctl := s.reg (.paceCtl ss)
  let lim := 0xFFFFFFFF
  let units := Nat.min 16 (s.reg (.paceUnits ss)).toNat
  let ovr := (ops.take units).any (fun x => decide (x > lim)) || (probes.take units).any (fun x => decide (x > lim))
  let s := (List.range units).foldl (fun s k =>
    let s := if bit ctl 0 then s.setReg (.paceOps ss k) (BitVec.ofNat 64 (Nat.min ((ops[k]?).getD 0) lim)) else s
    if bit ctl 1 then s.setReg (.paceProbe ss k) (BitVec.ofNat 64 (Nat.min ((probes[k]?).getD 0) lim)) else s) s
  let s := if ovr then s.modReg (.paceStat ss) fun v => setBit v 15 true else s
  s.countWrap (.paceStat ss) 0 15 1

/-- The relative pace of a core in Q2.14 from its probe count, R37. -/
def State.corePace (s : State) (p : Nat) : Nat :=
  (s.reg (.paceProbe 5 p)).toNat * 16384 / (2000 * Nat.max 1 (s.paceIv 5).counted)

/-- The lowest pace of the cores, R50; a RETIRED core runs nothing (R286) and has none. -/
def State.devicePace (s : State) : Nat :=
  let l := ((List.range 14).filter fun p => s.fldOf .tarRoles (2 * p) 2 != 2).map s.corePace
  l.foldl Nat.min 0xFFFF

/-- The probe pace now, in Q2.14: what Bivexa reads in the probes, also where CCX_PWR_PACE lags behind it (R42); 0 until an interval has
ended. -/
def State.probePace (s : State) : Nat := s.devicePace

/-- The cell that a measurement belongs to, R51: VMEAS within ±5 mV and Tj within ±2.5 °C. A voltage exactly 5 mV from two cells matches
both; the lower one is taken (DESIGN CHOICE, log entry 85). -/
def measuredCell (mv : Nat) (tj : Int) : Option (Nat × Nat) :=
  match (List.range 43).find? fun v => decide (cellMv v ≤ mv + 5 ∧ mv ≤ cellMv v + 5),
        (List.range 34).find? fun t => decide (2 * (cellTj t - tj).natAbs ≤ 5) with
  | some v, some t => some (v, t)
  | _, _ => none

/-- Accumulates probe statistics of the present cell and band, R54. -/
def State.addStat (s : State) (pace : Nat) : State :=
  let mv := (s.reg .ccxPwrVmeas).toNat
  match measuredCell mv s.pwr.tj with
  | none => s
  | some (v, t) =>
    let b := bandOf s.gov.busyPct
    let droop := s.vset - mv
    let same := fun (x : PaceStat) => x.v == v && x.t == t && x.band == b
    let l := if s.gov.stats.any same then
        updFirst same (fun (x : PaceStat) => { x with
          sum := x.sum + pace, vsum := x.vsum + mv, tsum := x.tsum + s.pwr.tj, n := x.n + 1, droop := Nat.max x.droop droop }) s.gov.stats
      else s.gov.stats ++ [{ v := v, t := t, band := b, sum := pace, vsum := mv, tsum := s.pwr.tj, n := 1, droop := droop }]
    { s with gov := { s.gov with stats := l } }

/-- The device pace after a TAR interval, R50, once a millisecond in confidential mode (R42); pace below what running work was
admitted on sets pace_low and raises EV_PACE_LOW (R52), again at every interval at which it stays below: the rules do not say that the event
marks the fall alone (DESIGN CHOICE, log entry 85). -/
def State.updatePace (s : State) : State :=
  let p := s.devicePace
  let s := s.addStat p
  let s := if bit (s.reg .ssiSecStat) 31 ∧ s.ns < s.gov.paceAt + 1000000 then s
    else ({ s with gov := { s.gov with paceAt := s.ns } }).setFldOf .ccxPwrPace 0 16 p
  if s.ccx.cmds.any fun c => c.state == .running && decide (p < c.paceUse) then (s.setFlag 4).raise 0x0A04 0 else s

/-- The entry after statistics are merged into what its cell holds, R54, R55: nothing where production test filled the cell; a
loaded entry gives way when the measurement differs from it by more than 3 %. The rules name no form of the merge: pace, VCORE and Tj are
means weighted by intervals, an interval's pace is the lowest TAR core pace, the droop is the deepest of both (DESIGN CHOICE, log
entry 85). -/
def mergeEntry (old : W64) (x : PaceStat) : W64 :=
  let n := Nat.max 1 x.n
  let mean := x.sum / n
  let new := fun (pace samples : Nat) => paceEntry pace (x.vsum / n) (x.tsum / (n : Int)) x.band 2 samples x.droop
  if entrySource old = 3 then
    if 100 * ((mean : Int) - (entryPace old : Int)).natAbs > 3 * entryPace old then new mean n else old
  else if entrySource old = 2 then
    let k := fld old 18 8
    let m := Nat.max 1 (k + n)
    paceEntry ((entryPace old * k + x.sum) / m) ((fld old 38 10 * k + x.vsum) / m) ((sgn 8 (fld old 30 8) * (k : Int) + x.tsum) / (m : Int)) x.band 2
      (k + n) (Nat.max (fld old 10 8) x.droop)
  else new mean n

/-- The merge of R54, and the copy of the production and field entries in the last 64 KiB of the load region, R51. -/
def State.mergePace (s : State) : State :=
  let s' := s.gov.stats.foldl (fun (s : State) x =>
    if prodCell x.v x.t x.band then s else s.setPaceCell x.v x.t x.band (mergeEntry (s.paceCell x.v x.t x.band) x)) s
  let s' := { s' with gov := { s'.gov with stats := [] } }
  let keep := fun (e : W64) => if entrySource e = 1 ∨ entrySource e = 2 then e else 0
  s'.wr 0x11FFFF0000 (s'.paceTable.flatMap fun e => leBytes 8 (keep e).toNat)

/-! Power commands, R48, R94, R95, R475, R487 -/

/-- POWER_SET_LIMIT. -/
def powerSetLimit (c : Cmd) (s : State) : State :=
  let w := c.p 0x20 2
  let ms := c.p 0x22 2
  s.firstFail c [(w < 60 || w > 260 || ms < 10 || ms > 1000, stBadParam)] fun s =>
    (({ s with gov := { s.gov with windowMs := ms } }).setReg .ccxPwrPpl (BitVec.ofNat 64 w)).done c

def execPowerSetLimit (dt id : Nat) (s : State) : Host.Outcome State Fault Refusal := runCmd dt id 0x0A01 powerSetLimit s

/-- POWER_SET_POLICY: under an AVSBus fault the ceiling takes effect when the governor resumes, R50. -/
def powerSetPolicy (c : Cmd) (s : State) : State :=
  let k := c.p 0x20 1
  let ms := c.p 0x24 4
  s.firstFail c [(k > 2 || ms < 10 || ms > 10000, stBadParam)] fun s =>
    let t := if s.gov.avsBad then s.gov.target else if k = 1 then 750 else Nat.min s.gov.target (ceilingMv k)
    ({ s with gov := { s.gov with ceiling := k, burstMs := ms, target := t } }).done c

def execPowerSetPolicy (dt id : Nat) (s : State) : Host.Outcome State Fault Refusal := runCmd dt id 0x0A02 powerSetPolicy s

/-- POWER_SET_MARGIN. -/
def powerSetMargin (c : Cmd) (s : State) : State :=
  let m := c.p 0x20 1
  s.firstFail c [(m > 50, stBadParam)] fun s => ({ s with gov := { s.gov with margin := m } }).done c

def execPowerSetMargin (dt id : Nat) (s : State) : Host.Outcome State Fault Refusal := runCmd dt id 0x0A03 powerSetMargin s

/-- Whether a push may start: Bus Master Enable is set, R91, and the function is not in D3hot, in which it sends nothing (R63). -/
def State.busMaster (s : State) : Bool := s.hp.linkUp && !s.hp.d3hot && bit s.hp.cfgCommand 2

/-- The Max Payload Size that the host programmed, at most the 512 bytes supported, R59, R91. -/
def State.maxPayload (s : State) : Nat := 128 * 2 ^ Nat.min 2 (fld s.hp.cfgDevControl 5 3)

/-- Memory writes of at most m bytes, which end at multiples of m (log entry 87); fuel is the number of bytes. -/
def payloads (m : Nat) : Nat → Nat → Bytes → List (Nat × Bytes)
  | 0, _, _ => []
  | fuel + 1, a, b =>
    if b = [] then [] else (a, b.take (m - a % m)) :: payloads m fuel (a + (m - a % m)) (b.drop (m - a % m))

/-- The part writes to host memory as requester, R91; the writes go Relaxed Ordering when Device Control enables it. -/
def State.hostWrites (s : State) (addr : Nat) (b : Bytes) (noSnoop : Bool) : State :=
  (payloads s.maxPayload b.length addr b).foldl
    (fun (s : State) e => s.emit (.hostWrite e.1 e.2 (bit s.hp.cfgDevControl 4) noSnoop)) s

/-- A command pushes to host memory, R91. Under Relaxed Ordering it reads the last DW that it wrote back, and its commit point is that
read's completion. -/
def State.push (s : State) (id addr : Nat) (b : Bytes) (noSnoop : Bool) : State :=
  let s := s.hostWrites addr b noSnoop
  if bit s.hp.cfgDevControl 4 then
    let at_ := (addr + b.length - 1) / 4 * 4
    ({ s with hp := { s.hp with reads := (s.hp.reads.filter s.isRunning) ++ [id] } }).emit (.hostRead at_ 4)
  else s

/-- POWER_READ_PACE_TABLE: R95, R465; COMMAND_COMMIT ends it after the last write (R91). -/
def powerReadPaceTable (c : Cmd) (s : State) : State :=
  s.firstFail c [(c.p 0x28 4 < 35088, stBadParam), (bit (s.reg .ssiSecStat) 31, 0x84), (!s.busMaster, 0x41)] fun s =>
    ((s.push c.id (c.p 0x20 8) (s.paceTable.flatMap fun e => leBytes 8 e.toNat) false).setResult c.id 0x20 (leBytes 4 4386)).setVerdict c.id 0

def execPowerReadPaceTable (dt id : Nat) (s : State) : Host.Outcome State Fault Refusal := runCmd dt id 0x0A04 powerReadPaceTable s

/-- The cell that an entry's fields name under R51; none for an empty entry or one that matches no cell. -/
def loadCell (e : W64) : Option (Nat × Nat) :=
  if entrySource e = 0 ∨ entryBand e > 2 then none else measuredCell (fld e 38 10) (sgn 8 (fld e 30 8))

/-- Loads one entry, R95: source 3; ignored where production test filled the cell and band. -/
def State.loadEntry (s : State) (e : W64) : State × Bool :=
  match loadCell e with
  | none => (s, false)
  | some (v, t) =>
    if prodCell v t (entryBand e) then (s, false)
    else (s.setPaceCell v t (entryBand e) (setFld e 26 2 3), true)

/-- POWER_LOAD_PACE_TABLE: R55, R95. -/
def powerLoadPaceTable (c : Cmd) (s : State) : State :=
  let n := c.p 0x28 4
  s.firstFail c [(n % 8 != 0 || n > 35088, stBadParam)] fun s =>
    s.withTable c (c.p 0x20 8) n fun b s =>
      let r := (List.range (n / 8)).foldl (fun (x : State × Nat × Nat) i =>
        let y := x.1.loadEntry (BitVec.ofNat 64 (numAt b (8 * i) 8))
        (y.1, if y.2 then (x.2.1 + 1, x.2.2) else (x.2.1, x.2.2 + 1))) (s, 0, 0)
      r.1.doneWith c (leBytes 4 r.2.1 ++ leBytes 4 r.2.2)

def execPowerLoadPaceTable (dt id : Nat) (s : State) : Host.Outcome State Fault Refusal := runCmd dt id 0x0A05 powerLoadPaceTable s

/-- The table as a warm start-up finds it: production entries are the device's, field entries come from the copy, R51, R55. -/
def State.restorePace (s : State) : State :=
  (List.range 43).foldl (fun (s : State) v => (List.range 34).foldl (fun (s : State) t => (List.range 3).foldl (fun (s : State) b =>
    let e := BitVec.ofNat 64 (s.rdNum (0x11FFFF0000 + 8 * cellIdx v t b) 8)
    if entrySource e = 2 then s.setPaceCell v t b e else s) s) s) { s with gov := { s.gov with table := [] } }

/-- POWER_SET_WARN: R475. The set point is raised first when it must be, in steps of 25 mV that the command makes; under an AVSBus fault no
set point is sent (R50), and the threshold is written all the same (DEDUCED, log entry 38). -/
def powerSetWarn (c : Cmd) (s : State) : State :=
  let w := c.p 0x20 2
  s.firstFail c [(w < 460 || w > 700 || w + 20 > ceilingMv s.gov.ceiling, stBadParam)] fun s =>
    let s := if w + 20 > s.vset then { s with gov := { s.gov with target := Nat.max s.gov.target (w + 20) } } else s
    let s := if w + 20 > s.vset ∧ s.gov.avsBad = false then s.stepTo (w + 20) else s
    (s.setReg .ssiPwrVcoreWarn (BitVec.ofNat 64 w)).done c

def execPowerSetWarn (dt id : Nat) (s : State) : Host.Outcome State Fault Refusal := runCmd dt id 0x0A06 powerSetWarn s

/-- POWER_STATUS: the SSI power bank, bytes 0x00_3000 to 0x00_3017, R487. -/
def powerStatus (c : Cmd) (s : State) : State :=
  s.doneWith c (([.ssiPwrStat, .ssiPwrVcoreWarn, .ssiPwrColdSrc, .ssiPwrTj, .ssiPwrWarnCnt, .ssiPwrRstCnt] : List Reg).flatMap
    fun r => leBytes 4 (s.reg r).toNat)

def execPowerStatus (dt id : Nat) (s : State) : Host.Outcome State Fault Refusal := runCmd dt id 0x0A07 powerStatus s

end Sys2Proof.Machine
end

