-- ==== Sys2Proof/Machine/Banks.lean ====
section
/-! DEFINITION. The counter banks of snapshot epochs, R158: the registers whose counters each bank holds, and the shadows that the banks latch, R159.
The spec names the banks and which registers belong to those of streams, camera ports, channels and Planner parts; the place of the other
counters, and their order, is a DESIGN CHOICE (log entry 92). Counters that no register shows come with a bank's report. -/
namespace Sys2Proof.Machine

/-- The pace counters of unit k of a subsystem, R38. -/
def paceRegs (ss k : Nat) : List Reg := [.paceOps ss k, .paceProbe ss k]

/-- TAR: the sequencer of a physical core holds the core's counters and those of its pace bank, R287, R310. -/
def tarBank (i : Nat) : List Reg :=
  let p := i / 7
  if i % 7 = 0 then [.tarCoreBlocks p, .tarCoreZblocks p, .tarCoreConv p, .tarCoreEcc p, .tarCoreDone p, .tarCoreResid p] ++ paceRegs 5 p else []

/-- SIU: S0 to S63, then camera ports 0 to 15, R183. -/
def siuBank (i : Nat) : List Reg :=
  if i < 64 then
    [.siuStreamFrames i, .siuStreamDrops i, .siuQCnt i, .siuE2eCnt i] ++ (if i = 0 then paceRegs 2 0 else [])
  else [.siuCsiErr (i - 64)]

/-- TNU: TB0 to TB7, MACs, bridge ports, Geyser, PTP engine. -/
def tnuBank (i : Nat) : List Reg :=
  if i < 8 then [.tnuTbSteps i] ++ (if i = 0 then paceRegs 1 0 else [])
  else if i = 24 then [.tnuGeyStat, .tnuGeyRefused, .tnuGeyLate]
  else []

/-- PLN: the grid, the checker, search and the stop service, R283. -/
def plnBank (i : Nat) : List Reg :=
  match i with
  | 0 => [.plnGridScroll, .plnGridSkip, .plnGridWaitNs] ++ paceRegs 4 0
  | 1 => [.plnChkCnt]
  | 2 => [.plnSrchCnt]
  | _ => [.plnStopHits]

/-- MMV: channels (R376), staging banks, ports, movement engine, exchange network, collective engine, KV machinery, Cellar, range checker. -/
def mmvBank (i : Nat) : List Reg :=
  if i < 32 then [.mmvMcCe i, .mmvMcUe i, .mmvMcRmw i] ++ (if i < 2 then paceRegs 6 (3 + i) else [])
  else if i = 32 then [.mmvStgEcc]
  else if i < 48 then []
  else if i < 56 then [.mmvLinkErr (i - 48), .mmvLinkRetry (i - 48), .mmvLinkTrain (i - 48), .mmvLinkTxBytes (i - 48), .mmvLinkRxBytes (i - 48)]
  else if i = 56 then [.mmvMoveCnt, .mmvFrTrunc] ++ paceRegs 6 1
  else if i = 57 then paceRegs 6 0
  else if i = 58 then paceRegs 6 2
  else if i = 59 then (List.range 8).flatMap fun p => [.mmvKvSpill p, .mmvKvFetch p, .mmvKvCow p, .mmvKvPrefix p, .mmvKvLost p]
  else if i = 61 then (List.range 9).map .mmvRangeCnt
  else []

/-- The registers whose counters bank i holds. -/
def bankRegs (i : Nat) : List Reg :=
  if i < 98 then tarBank i
  else if i < 178 then siuBank (i - 98)
  else if i < 204 then tnuBank (i - 178)
  else if i = 204 then [.chnEgoCnt] ++ paceRegs 3 0
  else if i < 220 then []
  else if i < 224 then plnBank (i - 220)
  else if i < 286 then mmvBank (i - 224)
  else if i = 286 then paceRegs 0 0
  else if i = 294 then [.ccxHpErrCnt, .ccxHpDportDrops]
  else if i = 296 then [.ssiChkCnt, .ssiChkSkip]
  else if i = 297 then [.ssiRfxRefused] ++ paceRegs 7 0
  else if i = 298 then [.ssiSecCnt]
  else if i = 299 then [.ssiPwrWarnCnt]
  else []

/-- What every bank copies into its shadow at one instant, in bank-ID order, R159. -/
def State.shadows (s : State) : List (List W64) := (List.range 300).map fun i => (bankRegs i).map s.reg

end Sys2Proof.Machine
end

