-- ==== Sys2Proof/Machine/Time.lean ====
section
/-! DEFINITION. Time bases, steps, PPS, PTP, capture, compare and snapshot epochs: R127 to R150 and R158 to R164. -/
namespace Sys2Proof.Machine

/-! Instants -/

/-- How far a time base has passed an instant: the signed difference of R128. -/
def State.pastBy (s : State) (tb inst : Nat) : Int :=
  let w := if s.tbShort tb then 32 else 64
  sgn w (s.tbNow tb + (2 ^ w - inst % 2 ^ w))

/-- Whether an instant has been reached on a time base, R128. -/
def State.reached (s : State) (tb inst : Nat) : Bool := decide (0 ≤ s.pastBy tb inst)

/-- The whole count of a time base: on a short one the wrap count that Bivexa keeps, one more where the count has wrapped since it was read
last, over the 32-bit count, R129. -/
def State.tbWide (s : State) (tb : Nat) : Int :=
  let t := s.tbase tb
  if s.tbShort tb then (t.wraps + (if s.tbNow tb < t.lastCount then 1 else 0)) * (2 ^ 32 : Nat) + (s.tbNow tb : Nat)
  else ((t.acc.toNat >>> 32 : Nat) : Int)

/-- The 64-bit instant by which commands name a time base, R129. -/
def State.tbFull (s : State) (tb : Nat) : Nat := if s.tbShort tb then (s.tbWide tb).toNat else s.tbNow tb

/-- The largest seconds count that can take command instants, R129. -/
def maxSeconds : Nat := 18446744072

/-- An extended time base past its last command instant, R129. -/
def State.noInstants (s : State) (tb : Nat) : Bool := !(s.tbShort tb) && decide (s.tbSec tb > maxSeconds)

/-- The field lock_p0 of TNU_TB_CTL. -/
def State.locked (s : State) (tb : Nat) : Bool := bit (s.reg (.tnuTbCtl tb)) 31

/-- The discipline source of a time base. -/
def State.source (s : State) (tb : Nat) : Nat := s.fldOf (.tnuTbCtl tb) 12 4

/-- Whether a discipline owns the increment and the unforced steps, R137. -/
def State.disciplined (s : State) (tb : Nat) : Bool := decide (2 ≤ s.source tb ∧ s.source tb ≤ 5)

def incMin : Nat := 0x1FFBE76C9
def incMax : Nat := 0x200418937

/-- Whether an increment lies within ±500 ppm, R134. -/
def incOk (v : Nat) : Bool := decide (incMin ≤ v ∧ v ≤ incMax)

def State.setTbStat (s : State) (tb i : Nat) : State := s.modReg (.tnuTbStat tb) fun v => setBit v i true

/-! Steps, R135, R136, R138 -/

/-- The requester code in EV_TIME_JUMP: 0 the host, 1 Bivexa, 2 P0 (DESIGN CHOICE, log entry 7). -/
def writerNum : Writer → Nat
  | .host => 0 | .bivexa => 1 | .p0 => 2

/-- A step above the threshold is refused: it changes nothing but the flag and the count, and EV_TIME_JUMP tells it. -/
def State.refuseStep (s : State) (tb part : Nat) (r : StepReq) : State :=
  ((s.setTbStat tb 0).countSat (.tnuTbSteps tb) 16 16).raise 0x0201 part
    (evData [tb, unsgn 64 r.off, (s.reg (.tnuTbJumpThr tb)).toNat, writerNum r.who])

/-- Whether a step is applied: forced, or at most the jump threshold. -/
def State.stepAllowed (s : State) (tb : Nat) (r : StepReq) : Bool :=
  r.forced || decide (r.off.natAbs ≤ (s.reg (.tnuTbJumpThr tb)).toNat)

def State.queueStep (s : State) (tb : Nat) (r : StepReq) : State :=
  s.setTbase tb { s.tbase tb with steps := (s.tbase tb).steps ++ [{ r with written := s.ticks }] }

/-- A step uses up every unlock of its time base, forced or not; a write that cancels an unlock does the same, R136. -/
def State.dropUnlock (s : State) (tb : Nat) : State :=
  s.setTbase tb { s.tbase tb with unlock := none, p0Key := false, p0Open := none }

/-- The range of a step request, R129, R135. -/
def State.stepRange (s : State) (tb : Nat) (off : Int) : Bool :=
  let t := s.tbWide tb + off
  decide (t < 0) || (!(s.tbShort tb) && decide (t / 1000000000 > maxSeconds))

/-- A step from a servo or a register write: queued, or refused. On an extended time base one out of range changes nothing. -/
def State.offerStep (s : State) (tb : Nat) (r : StepReq) : State :=
  let s := s.dropUnlock tb
  if !(s.tbShort tb) && s.stepRange tb r.off then s
  else if s.stepAllowed tb r then s.queueStep tb r
  else s.refuseStep tb 0 r

/-- A servo's unforced step: none while P0 has locked the time base, R133, R150. -/
def State.servoStep (s : State) (tb : Nat) (off : Int) : State :=
  if off = 0 || s.locked tb then s else s.offerStep tb { off := off, forced := false, who := .bivexa }

/-- Marks the epochs whose instant a forward step of TB0 passes, R138, R160. -/
def lateEpochs (old new : Nat) (l : List Epoch) : List Epoch :=
  l.map fun e => if !e.latched && decide (old < e.inst ∧ e.inst ≤ new) then { e with late := true } else e

/-- Adds a step's offset to a time base at its tick, R135, with the wrap count that Bivexa keeps, R129. -/
def State.applyStep (s : State) (tb : Nat) (r : StepReq) : State :=
  let t := s.tbase tb
  let old := s.now
  let full := s.tbWide tb + r.off
  let acc := t.acc + BitVec.ofInt 128 (r.off * (2 ^ 32 : Nat))
  let s := s.setTbase tb { t with
    acc := acc, steps := t.steps.drop 1, stepTick := some s.ticks
    wraps := if s.tbShort tb then full / (2 ^ 32 : Nat) else t.wraps
    lastCount := if s.tbShort tb then (full % (2 ^ 32 : Nat)).toNat else t.lastCount }
  let s := (s.setTbStat tb 2).countSat (.tnuTbSteps tb) 0 16
  let s := if r.forced then (s.setTbStat tb 1).raise 0x0202 0 (evData [tb, unsgn 64 r.off]) else s
  if tb = 0 then { s with tnu := { s.tnu with epochs := lateEpochs old s.now s.tnu.epochs } } else s

/-- Whether the first step of a time base may be added now: at a tick after its write, at most one per tick, R135. -/
def State.stepTime (s : State) (tb : Nat) (r : StepReq) : Bool :=
  decide (r.written < s.ticks) && (s.tbase tb).stepTick.all fun k => decide (k < s.ticks)

/-- Whether a step that waited would now leave the range: the hardware asks this of no write to a short time base, R135. -/
def State.stepBad (s : State) (tb : Nat) (r : StepReq) : Bool := (r.cmd.isSome || !(s.tbShort tb)) && s.stepRange tb r.off

/-! Host commands of the time bases, R163 -/

/-- Whether anything refers to a time base, R132. -/
def State.tbReferred (s : State) (tb : Nat) : Bool :=
  ((List.range 32).any fun k => s.fldOf (.tnuCapCtl k) 0 2 != 0 && s.fldOf (.tnuCapCtl k) 4 3 == tb) ||
  ((List.range 16).any fun k => bit (s.reg (.tnuCmpCtl k)) 31 && s.fldOf (.tnuCmpCtl k) 12 3 == tb) ||
  (s.tnu.gey.any fun e => e.2.state != .free && e.2.tb == tb) ||
  s.tnu.ppsOutTb == tb || (s.tbase tb).ptp.isSome

/-- A time base takes a format, R132: the count keeps its low 32 bits. -/
def State.setFormat (s : State) (tb f : Nat) : State :=
  let t := s.tbase tb
  let n := s.tbNow tb % 2 ^ 32
  let s := if s.tbShort tb = (f == 1) then s
    else s.setTbase tb { t with acc := BitVec.ofNat 128 (n * 2 ^ 32 + t.acc.toNat % 2 ^ 32), wraps := 0, lastCount := n }
  s.setFldOf (.tnuTbCtl tb) 8 1 f

/-- TIME_SET_FORMAT: R130, R132, R137. -/
def timeSetFormat (c : Cmd) (s : State) : State :=
  let tb := c.p 0x20 1
  let f := c.p 0x21 1
  s.firstFail c [(tb > 7 || f > 1, stBadParam), (tb == 0 || s.locked tb, stNotPermitted), (s.tbReferred tb, stBusy)] fun s =>
    (s.setFormat tb f).done c

def execTimeSetFormat (dt id : Nat) (s : State) : Host.Outcome State Fault Refusal := runCmd dt id 0x0201 timeSetFormat s

/-- The discipline of a time base starts anew, R144. -/
def State.newSource (s : State) (tb : Nat) : State := s.setTbase tb { s.tbase tb with ppsLocked := false, ppsLast := s.ns }

/-- TIME_SET_SOURCE: R133, R137. PPS takes an extended time base only (R144). -/
def timeSetSource (c : Cmd) (s : State) : State :=
  let tb := c.p 0x20 1
  let src := c.p 0x21 1
  s.firstFail c [(tb > 7 || src > 5, stBadParam), (s.locked tb || (src == 4 && s.tbShort tb), stNotPermitted)] fun s =>
    let s := (s.setFldOf (.tnuTbCtl tb) 12 4 src).setFldOf (.tnuTbCtl tb) 16 8 (c.p 0x22 1)
    (s.newSource tb).done c

def execTimeSetSource (dt id : Nat) (s : State) : Host.Outcome State Fault Refusal := runCmd dt id 0x0202 timeSetSource s

/-- TIME_SET_INCREMENT: R134, R137. -/
def timeSetIncrement (c : Cmd) (s : State) : State :=
  let tb := c.p 0x20 1
  let v := c.p 0x28 8 % 2 ^ 40
  s.firstFail c [(tb > 7 || !(incOk v), stBadParam), (s.locked tb || s.disciplined tb, stNotPermitted)] fun s =>
    (s.setReg (.tnuTbInc tb) (BitVec.ofNat 64 v)).done c

def execTimeSetIncrement (dt id : Nat) (s : State) : Host.Outcome State Fault Refusal := runCmd dt id 0x0203 timeSetIncrement s

/-- Whether the host unlock of R136 is open for a command's forced step. -/
def State.unlockOpen (s : State) (c : Cmd) (tb : Nat) : Bool :=
  match (s.tbase tb).unlock with
  | some (p, at_) => p == c.part && c.p 0x24 4 == 0x5AA5 && decide (c.acceptNs ≤ at_ + 10000000)
  | none => false

/-- TIME_STEP: R135 to R137. An allowed step is queued; it commits when TIME_BASE_STEP_APPLY applies it. -/
def timeStep (c : Cmd) (s : State) : State :=
  let tb := c.p 0x20 1
  let forced := (c.p 0x21 1).testBit 0
  let r : StepReq := { off := sgn 64 (c.p 0x28 8), forced := forced, who := .host, cmd := some c.id }
  s.firstFail c [(tb > 7, stBadParam), (s.locked tb || (!forced && s.disciplined tb), stNotPermitted)] fun s =>
    if forced && !(s.unlockOpen c tb) then (s.dropUnlock tb).failCmd c.id 0x35
    else if s.stepRange tb r.off then (s.dropUnlock tb).failCmd c.id stBadParam
    else if s.stepAllowed tb r then (s.dropUnlock tb).queueStep tb r
    else ((s.dropUnlock tb).refuseStep tb c.part r).failCmd c.id 0x34

def execTimeStep (dt id : Nat) (s : State) : Host.Outcome State Fault Refusal := runCmd dt id 0x0204 timeStep s

/-- TIME_STEP_UNLOCK: R136. -/
def timeStepUnlock (c : Cmd) (s : State) : State :=
  let tb := c.p 0x20 1
  s.firstFail c [(tb > 7, stBadParam), (s.locked tb, stNotPermitted)] fun s =>
    if c.p 0x24 4 = 0xA55A then (s.setTbase tb { s.tbase tb with unlock := some (c.part, s.ns) }).done c
    else (s.dropUnlock tb).failCmd c.id stBadParam

def execTimeStepUnlock (dt id : Nat) (s : State) : Host.Outcome State Fault Refusal := runCmd dt id 0x0205 timeStepUnlock s

/-- TIME_SET_JUMP_THRESHOLD: R133, R137. -/
def timeSetJumpThreshold (c : Cmd) (s : State) : State :=
  let tb := c.p 0x20 1
  let v := c.p 0x24 4
  s.firstFail c [(tb > 7 || v < 1000 || v > 1000000000, stBadParam), (s.locked tb, stNotPermitted)] fun s =>
    (s.setReg (.tnuTbJumpThr tb) (BitVec.ofNat 64 v)).done c

def execTimeSetJumpThreshold (dt id : Nat) (s : State) : Host.Outcome State Fault Refusal :=
  runCmd dt id 0x0206 timeSetJumpThreshold s

/-- A cross-stamp latches the eight time bases at one tick, R142. -/
def State.crossStamp (s : State) : State :=
  (List.range 8).foldl (fun s n => s.setReg (.tnuXstampTb n) (BitVec.ofNat 64 (s.tbNow n))) s

/-- TIME_READ: a cross-stamp, and the eight instants in the form of R129. -/
def timeRead (c : Cmd) (s : State) : State :=
  s.crossStamp.doneWith c ((List.range 8).flatMap fun n => leBytes 8 (s.tbFull n))

def execTimeRead (dt id : Nat) (s : State) : Host.Outcome State Fault Refusal := runCmd dt id 0x0207 timeRead s

/-- The index of the first whole second of PPS_OUT that lies ahead. -/
def State.nextSecond (s : State) (tb : Nat) (off : Int) : Nat :=
  ((((s.tbNow tb : Nat) : Int) - off) / 1000000000).toNat + 1

/-- TIME_PPS_CONFIG: R144, R145. -/
def timePpsConfig (c : Cmd) (s : State) : State :=
  let tb := c.p 0x21 1
  let off := sgn 32 (c.p 0x24 4)
  let w := c.p 0x28 4
  s.firstFail c [(c.p 0x20 1 > 1 || (tb > 7 && tb != 255) || decide (off < -1000000 ∨ 1000000 < off) || w < 1000 ||
      w > 500000000, stBadParam), (tb != 255 && s.tbShort tb, stNotPermitted)] fun s =>
    ({ s with tnu := { s.tnu with
        ppsPolarity := c.p 0x20 1, ppsOutTb := tb, ppsOutOff := off, ppsOutWidth := w,
        ppsOutNext := s.nextSecond tb off } }).done c

def execTimePpsConfig (dt id : Nat) (s : State) : Host.Outcome State Fault Refusal := runCmd dt id 0x0208 timePpsConfig s

/-- TIME_PTP_CONFIG: R146, R163. One domain per time base, on TB1 to TB7; an empty port mask removes it (log entry 21). -/
def timePtpConfig (c : Cmd) (s : State) : State :=
  let tb := c.p 0x20 1
  let ls := sgn 8 (c.p 0x28 1)
  let la := sgn 8 (c.p 0x29 1)
  s.firstFail c [(tb == 0 || tb > 7 || c.p 0x21 1 > 2 || c.p 0x23 1 > 2 || c.p 0x24 1 > 2 || c.p 0x25 1 > 1 ||
      decide (ls < -7 ∨ 4 < ls ∨ la < -3 ∨ 4 < la), stBadParam), (s.locked tb, stNotPermitted)] fun s =>
    let cfg : PtpCfg := {
      profile := c.p 0x21 1, ports := c.p 0x22 1, role := c.p 0x23 1, transport := c.p 0x24 1, oneStep := c.p 0x25 1 == 1
      prio1 := c.p 0x26 1, prio2 := c.p 0x27 1, logSync := ls, logAnnounce := la }
    (s.setTbase tb { s.tbase tb with
      ptp := if c.p 0x22 1 = 0 then none else some cfg, gm := 0, lastAnnounce := s.ns }).done c

def execTimePtpConfig (dt id : Nat) (s : State) : Host.Outcome State Fault Refusal := runCmd dt id 0x0209 timePtpConfig s

/-! Snapshot epochs, R158 to R162 -/

def snapBytes : Nat := 616864

/-- The pending epochs whose command still runs. -/
def State.liveEpochs (s : State) : List Epoch := s.tnu.epochs.filter fun e => s.isRunning e.cmd

/-- TIME_SNAPSHOT: R160, R161. It commits with its record. -/
def timeSnapshot (c : Cmd) (s : State) : State :=
  let inst := c.p 0x20 8
  let dst := c.p 0x28 8
  let l := s.liveEpochs
  s.firstFail c [(inst < c.accept + 100000 || s.noInstants 0, stBadParam),
      (!(s.inRange (.part c.part) true dst snapBytes && s.inRange .host false dst snapBytes), stRange),
      (s.inHole dst snapBytes, stHole),
      (l.length ≥ 4 || (l.any fun e => decide (inst < e.inst + 5000000 ∧ e.inst < inst + 5000000)), stBusy)] fun s =>
    { s with tnu := { s.tnu with epochs := l ++ [{ inst := inst, dst := dst, cmd := c.id, part := c.part }] } }

def execTimeSnapshot (dt id : Nat) (s : State) : Host.Outcome State Fault Refusal := runCmd dt id 0x0210 timeSnapshot s

/-- The pending epoch that is due first, by its instant, R138. -/
def State.dueEpoch (s : State) : Option Epoch :=
  s.liveEpochs.foldl (fun (b : Option Epoch) e =>
    if !e.latched && s.reached 0 e.inst && b.all fun x => decide (e.inst < x.inst) then some e else b) none

/-- SNAPSHOT_EPOCH: the epoch instant is reached on TB0 and every bank copies its counters into its shadow, R159. -/
def snapshotEpoch (s : State) : State :=
  match s.dueEpoch with
  | none => s
  | some d =>
    let l := s.liveEpochs.map fun e => if e.cmd = d.cmd then { e with latched := true, shadow := s.shadows } else e
    { s with tnu := { s.tnu with epochs := l } }

def execSnapshotEpoch (dt : Nat) (s : State) : Host.Outcome State Fault Refusal := runEvent dt snapshotEpoch s

/-- Confidential mode, R465: bit 31 of SSI_SEC_STAT. -/
def State.confidential (s : State) : Bool := bit (s.reg .ssiSecStat) 31

/-- What bank i reports: in confidential mode only TB0 and CC0 report counters, those of CC0 coarsened, R162. -/
def bankCounters (conf : Bool) (i : Nat) (counters : List W64) : List W64 :=
  let l := counters.take 256
  if !conf then l
  else if i = 178 then l
  else if i = 286 then l.map fun v => BitVec.ofNat 64 (v.toNat - v.toNat % 1000000)
  else []

/-- The largest skew of a bank, R159: 1 µs at the voltage of NP, 2.1 µs below it (log entry 27). -/
def State.skewLimit (s : State) : Nat := if 750 ≤ (s.reg .ccxPwrVset).toNat then 1000 else 2100

/-- A snapshot record, R160, R162: each bank's shadow, with the counters that it alone knows behind it, and its skew. -/
def snapRecord (conf : Bool) (limit epoch : Nat) (e : Epoch) (banks : List BankReport) : Bytes × Nat :=
  let all := (List.range 300).map fun i =>
    let b := (banks[i]?).getD ⟨0, []⟩
    (i, Nat.min (b.ack - e.inst) limit, bankCounters conf i (e.shadow.getD i [] ++ b.counters))
  let worst := all.foldl (fun m b => Nat.max m b.2.1) 0
  let body := all.flatMap fun b =>
    leBytes 2 b.1 ++ leBytes 2 b.2.2.length ++ leBytes 4 b.2.1 ++ b.2.2.flatMap fun v => leBytes 8 v.toNat
  let total := 64 + body.length
  (leBytes 4 0x534E4150 ++ leBytes 4 epoch ++ leBytes 8 e.inst ++ leBytes 4 worst ++ leBytes 2 300 ++
    leBytes 2 ((if conf then 1 else 0) + (if e.late then 2 else 0)) ++ leBytes 4 total ++ leBytes 36 0 ++ body, worst)

/-- SNAPSHOT_RECORD_WRITE: Bivexa collects the shadows of the first latched epoch, and the command commits, R160. -/
def snapshotRecordWrite (banks : List BankReport) (s : State) : State :=
  match s.liveEpochs.find? fun e => e.latched with
  | none => s
  | some e =>
    match s.cmd? e.cmd with
    | none => s
    | some c =>
      let r := snapRecord s.confidential s.skewLimit s.tnu.nextEpoch e banks
      let id := s.tnu.nextEpoch
      let s := { s with tnu := { s.tnu with
        epochs := s.liveEpochs.filter fun x => x.cmd != e.cmd, nextEpoch := (id + 1) % 2 ^ 32 } }
      ((s.wr e.dst r.1).doneWith c (leBytes 4 id ++ leBytes 4 r.2 ++ leBytes 4 r.1.length)).settle

def execSnapshotRecordWrite (dt : Nat) (banks : List BankReport) (s : State) : Host.Outcome State Fault Refusal :=
  runEvent dt (snapshotRecordWrite banks) s

/-! Events of the time bases -/

/-- TIMEBASE_PLL_LOCK: the PLL first locks and every time base starts counting from 0, R131. -/
def timebasePllLock (s : State) : State :=
  if s.pwr.porstHigh && !s.pwr.pllLocked && s.pwr.refs.contains .timeref then
    ({ s with
        pwr := { s.pwr with pllLocked := true }
        tnu := { s.tnu with tbs := (List.range 8).foldl (fun m n => sset ({} : TimeBase) m n { sget ({} : TimeBase) m n with acc := 0 }) s.tnu.tbs } }
      ).setFldOf .tnuPllStat 0 2 1
  else s

def execTimebasePllLock (dt : Nat) (s : State) : Host.Outcome State Fault Refusal := runEvent dt timebasePllLock s

/-- Whether a writer may change a time base: not the host (R35), and only P0 while lock_p0 is set (R133). -/
def State.mayWriteTb (s : State) (who : Writer) (tb : Nat) : Bool :=
  match who with
  | .host => false
  | .bivexa => !(s.locked tb)
  | .p0 => true

/-- TB_INC_WRITE: a write outside ±500 ppm is ignored, R134. -/
def tbIncWrite (who : Writer) (tb : Nat) (v : W64) (s : State) : State :=
  if s.mayWriteTb who tb && incOk (v.toNat % 2 ^ 40) && tb < 8 then
    s.setReg (.tnuTbInc tb) (BitVec.ofNat 64 (v.toNat % 2 ^ 40))
  else s

def execTbIncWrite (dt : Nat) (who : Writer) (tb : Nat) (v : W64) (s : State) : Host.Outcome State Fault Refusal :=
  runEvent dt (tbIncWrite who tb v) s

/-- TB_STEP_WRITE: R135, R136. A step of P0 is forced within 100 µs of its unlock, which any step uses up. -/
def tbStepWrite (who : Writer) (tb : Nat) (v : W64) (s : State) : State :=
  if s.mayWriteTb who tb && tb < 8 then
    let t := s.tbase tb
    let open_ := match t.p0Open with | some at_ => decide (s.ns ≤ at_ + 100000) | none => false
    s.offerStep tb { off := v.toInt, forced := (who == .p0) && open_, who := who }
  else s

def execTbStepWrite (dt : Nat) (who : Writer) (tb : Nat) (v : W64) (s : State) : Host.Outcome State Fault Refusal :=
  runEvent dt (tbStepWrite who tb v) s

/-- TB_UNLOCK_WRITE: the two-write unlock of P0, R136. -/
def tbUnlockWrite (tb : Nat) (v : W32) (s : State) : State :=
  let t := s.tbase tb
  if v.toNat = 0xA55A then s.setTbase tb { t with p0Key := true, p0Open := none }
  else if v.toNat = 0x5AA5 ∧ t.p0Key then s.setTbase tb { t with p0Key := false, p0Open := some s.ns }
  else s.dropUnlock tb

def execTbUnlockWrite (dt tb : Nat) (v : W32) (s : State) : Host.Outcome State Fault Refusal :=
  runEvent dt (tbUnlockWrite tb v) s

/-- TB_UNLOCK_EXPIRY: an unlock that no step used in its time is gone, R136. -/
def tbUnlockExpiry (tb : Nat) (s : State) : State :=
  let t := s.tbase tb
  s.setTbase tb { t with
    unlock := match t.unlock with | some (p, a) => if s.ns ≤ a + 10000000 then some (p, a) else none | none => none
    p0Open := match t.p0Open with | some a => if s.ns ≤ a + 100000 then some a else none | none => none }

def execTbUnlockExpiry (dt tb : Nat) (s : State) : Host.Outcome State Fault Refusal := runEvent dt (tbUnlockExpiry tb) s

/-- TB_SEC_READ: a read of the seconds latches the nanoseconds, R133. -/
def tbSecRead (tb : Nat) (s : State) : State :=
  let n := s.tbNow tb
  if s.tbShort tb then (s.setReg (.tnuTbNs tb) (BitVec.ofNat 64 n)).emit (.words (leBytes 8 0))
  else (s.setReg (.tnuTbNs tb) (BitVec.ofNat 64 ((s.tbase tb).acc.toNat >>> 32 % 1000000000))).emit (.words (leBytes 8 (s.tbSec tb)))

def execTbSecRead (dt tb : Nat) (s : State) : Host.Outcome State Fault Refusal := runEvent dt (tbSecRead tb) s

/-- XSTAMP_WRITE: bit 0 takes a cross-stamp, R142. -/
def xstampWrite (v : W32) (s : State) : State := if bit v 0 then s.crossStamp else s

def execXstampWrite (dt : Nat) (v : W32) (s : State) : Host.Outcome State Fault Refusal := runEvent dt (xstampWrite v) s

/-- SHORT_TB_WRAP_READ: Bivexa reads a short time base and keeps its wrap count, R129. -/
def shortTbWrapRead (tb : Nat) (s : State) : State :=
  if s.tbShort tb then
    s.setTbase tb { s.tbase tb with wraps := s.tbWide tb / (2 ^ 32 : Nat), lastCount := s.tbNow tb }
  else s

def execShortTbWrapRead (dt tb : Nat) (s : State) : Host.Outcome State Fault Refusal := runEvent dt (shortTbWrapRead tb) s

/-- One capture channel sees an edge, R139. -/
def State.capture (s : State) (src : Nat) (rising : Bool) (k : Nat) : State :=
  let v := s.reg (.tnuCapCtl k)
  let e := fld v 0 2
  if fld v 8 8 = src ∧ (e = 3 ∨ e = (if rising then 1 else 2)) then
    let late := s.tnu.capUnread.contains k
    let first := s.fldOf (.tnuCapStat k) 16 16 == 0
    let s := (s.setReg (.tnuCapVal k) (BitVec.ofNat 64 (s.tbNow (fld v 4 3)))).countWrap (.tnuCapStat k) 0 16 1
    let s := { s with tnu := { s.tnu with capEdges := sset [] s.tnu.capEdges k ((s.ns, s.now) :: sget [] s.tnu.capEdges k) } }
    if late then
      let s := s.countSat (.tnuCapStat k) 16 16
      if first then s.raise 0x020A 0 (evData [k]) else s
    else { s with tnu := { s.tnu with capUnread := s.tnu.capUnread ++ [k] } }
  else s

/-- Every channel with the source sees the edge. -/
def State.captureAll (s : State) (src : Nat) (rising : Bool) : State :=
  (List.range 32).foldl (fun s k => s.capture src rising k) s

/-- CAPTURE_EDGE: R139. PPS_OUT falls when its pulse ends; its rising edge is that of PPS_OUT_PULSE. -/
def captureEdge (src : Nat) (rising : Bool) (s : State) : State :=
  if src = 0x11 then
    if !rising && s.tnu.ppsFall.any fun t => decide (t ≤ s.ns) then
      ({ s with tnu := { s.tnu with ppsFall := none } }).captureAll src rising
    else s
  else s.captureAll src rising

def execCaptureEdge (dt src : Nat) (rising : Bool) (s : State) : Host.Outcome State Fault Refusal :=
  runEvent dt (captureEdge src rising) s

/-- CAP_STAT_READ: reading clears the overrun count, R143, and the captured value counts as read (log entry 92). -/
def capStatRead (ch : Nat) (s : State) : State :=
  let v := s.reg (.tnuCapStat ch)
  let s := (s.emit (.words (leBytes 4 v.toNat))).setFldOf (.tnuCapStat ch) 16 16 0
  { s with tnu := { s.tnu with capUnread := s.tnu.capUnread.filter fun k => k != ch } }

def execCapStatRead (dt ch : Nat) (s : State) : Host.Outcome State Fault Refusal := runEvent dt (capStatRead ch) s

/-- The level of a pin: a pulse that has ended is low again. -/
def State.pinLevel (s : State) (pin : Nat) : Bool :=
  bit s.tnu.pins pin && !(s.tnu.falls.any fun f => f.1 == pin && decide (f.2 ≤ s.ns))

/-- Drives a timed GPIO or camera trigger: 0 low, 1 high, 2 toggle, 3 a pulse of a width in ns. -/
def State.drive (s : State) (pin act width : Nat) : State :=
  let falls := s.tnu.falls.filter fun f => f.1 != pin
  if act = 3 then
    ({ s with tnu := { s.tnu with pins := setBit s.tnu.pins pin true, falls := falls ++ [(pin, s.ns + width)] } }).emit (.pulse pin width)
  else
    let level := if act = 2 then !(s.pinLevel pin) else act == 1
    ({ s with tnu := { s.tnu with pins := setBit s.tnu.pins pin level, falls := falls } }).emit (.edge pin level)

/-- The first instant of a series later than a value, and how many periods it passes. -/
def nextOf (inst period after : Nat) : Nat × Nat :=
  let k := if inst ≤ after then (after - inst) / period + 1 else 1
  (inst + k * period, k - 1)

/-- Whether compare unit k is enabled and its instant is reached. -/
def State.cmpDue (s : State) (k : Nat) : Bool :=
  bit (s.reg (.tnuCmpCtl k)) 31 && s.reached (s.fldOf (.tnuCmpCtl k) 12 3) (s.reg (.tnuCmpAt k)).toNat

/-- How far compare unit k has passed its instant. -/
def State.cmpPast (s : State) (k : Nat) : Int := s.pastBy (s.fldOf (.tnuCmpCtl k) 12 3) (s.reg (.tnuCmpAt k)).toNat

/-- Whether no unit of the same time base passed its instant before unit k: units that a step passed act in the order of their instants, R138. -/
def State.cmpFirst (s : State) (k : Nat) : Bool :=
  !((List.range 16).any fun j => j != k && s.cmpDue j && s.fldOf (.tnuCmpCtl j) 12 3 == s.fldOf (.tnuCmpCtl k) 12 3 &&
    decide (s.cmpPast k < s.cmpPast j))

/-- The action of a compare unit, R140, R141: an interrupt to its owner, or its timed GPIO; a pulse lasts at least 20 ns (log entry 92). -/
def State.cmpAct (s : State) (k : Nat) : State :=
  let pin := s.fldOf (.tnuCmpCtl k) 8 4
  let act := s.fldOf (.tnuCmpCtl k) 4 3
  if act = 0 then s.emit (.cmpIrq k (sget .bivexa s.tnu.cmpOwner k))
  else if act ≤ 4 ∧ bit (s.reg .tnuGpioSel) pin then s.drive pin (act - 1) (Nat.max 20 (s.reg (.tnuCmpPulse k)).toNat)
  else s

/-- COMPARE_FIRE: R140, R138, R141. A single-shot unit is disabled when it has fired (log entry 22). -/
def compareFire (k : Nat) (s : State) : State :=
  let inst := (s.reg (.tnuCmpAt k)).toNat
  let per := (s.reg (.tnuCmpPer k)).toNat
  if k < 16 && s.cmpDue k && s.cmpFirst k then
    let n := nextOf inst per (inst + (s.cmpPast k).toNat)
    let s := (s.modReg (.tnuCmpCtl k) fun v => setBit v 0 true).cmpAct k
    if per = 0 then s.modReg (.tnuCmpCtl k) fun v => setBit v 31 false
    else (s.setReg (.tnuCmpAt k) (BitVec.ofNat 64 n.1)).addSat (.tnuCmpSkip k) 0 32 n.2
  else s

def execCompareFire (dt k : Nat) (s : State) : Host.Outcome State Fault Refusal := runEvent dt (compareFire k) s

/-- TIMEREF_LOST: the PLL enters holdover, every time base keeps counting, R143; EV_REFCLK_LOST tells it, R494. -/
def timerefLost (s : State) : State :=
  if s.pwr.refs.contains .timeref then
    let s := { s with pwr := { s.pwr with refs := s.pwr.refs.filter fun r => r != RefClk.timeref } }
    let s := if s.pwr.pllLocked then (s.setFldOf .tnuPllStat 0 2 2).raise 0x0203 0 else s
    s.raise 0x0A09 0 (evData [1])
  else s

def execTimerefLost (dt : Nat) (s : State) : Host.Outcome State Fault Refusal := runEvent dt timerefLost s

/-- TIMEREF_RESTORED: the PLL relocks without a phase step, R143. -/
def timerefRestored (s : State) : State :=
  if s.pwr.refs.contains .timeref then s
  else
    let s := { s with pwr := { s.pwr with refs := s.pwr.refs ++ [RefClk.timeref] } }
    if s.pwr.pllLocked then (s.setFldOf .tnuPllStat 0 2 1).raise 0x0204 0 else s

def execTimerefRestored (dt : Nat) (s : State) : Host.Outcome State Fault Refusal := runEvent dt timerefRestored s

/-- A valid PPS edge on one time base under source PPS: an edge more than 1 ms off is spurious once locked; otherwise the
discipline steps the edge onto the whole second, within the jump threshold, R144. -/
def State.ppsEdge (s : State) (tb : Nat) : State :=
  if s.source tb = 4 ∧ !(s.tbShort tb) then
    let t := s.tbase tb
    let frac := s.tbNow tb % 1000000000
    let off : Int := if frac < 500000000 then -(frac : Int) else 1000000000 - (frac : Int)
    if t.ppsLocked && decide (off.natAbs > 1000000) then s.setTbase tb { t with ppsSpurious := t.ppsSpurious + 1 }
    else
      (s.setTbase tb { t with ppsLocked := true, ppsLast := s.ns }).servoStep tb off
  else s

/-- PPS_IN_EDGE: R144, and R139 for capture channels with source 0x10. -/
def ppsInEdge (rising : Bool) (s : State) : State :=
  let s := s.captureAll 0x10 rising
  if rising = (s.tnu.ppsPolarity == 0) then (List.range 8).foldl (fun s tb => s.ppsEdge tb) s else s

def execPpsInEdge (dt : Nat) (rising : Bool) (s : State) : Host.Outcome State Fault Refusal := runEvent dt (ppsInEdge rising) s

/-- PPS_MISSING_TIMEOUT: 1.5 s without a valid edge, R144. -/
def ppsMissingTimeout (tb : Nat) (s : State) : State :=
  let t := s.tbase tb
  if s.source tb = 4 ∧ t.ppsLast + 1500000000 ≤ s.ns ∧ !(bit (s.reg (.tnuTbStat tb)) 4 && !t.ppsLocked) then
    (((s.setTbase tb { t with ppsLocked := false }).setTbStat tb 4).setTbStat tb 5).raise 0x0207 0 (evData [tb])
  else s

def execPpsMissingTimeout (dt tb : Nat) (s : State) : Host.Outcome State Fault Refusal := runEvent dt (ppsMissingTimeout tb) s

/-- PPS_OUT_PULSE: the pulse at the next whole second of the selected time base, R145, read back at its ball, R139. -/
def ppsOutPulse (s : State) : State :=
  let tb := s.tnu.ppsOutTb
  if tb ≤ 7 ∧ (s.tnu.ppsOutNext : Int) * 1000000000 + s.tnu.ppsOutOff ≤ ((s.tbNow tb : Nat) : Int) then
    let s := { s with tnu := { s.tnu with
      ppsOutNext := s.nextSecond tb s.tnu.ppsOutOff, ppsFall := some (s.ns + s.tnu.ppsOutWidth) } }
    (s.emit (.pps tb s.tnu.ppsOutWidth)).captureAll 0x11 true
  else s

def execPpsOutPulse (dt : Nat) (s : State) : Host.Outcome State Fault Refusal := runEvent dt ppsOutPulse s

/-! PTP, R146 to R150 -/

/-- Whether a port takes part in the domain of a time base, in a role that follows a master. -/
def State.ptpOn (s : State) (port tb : Nat) : Option PtpCfg :=
  match (s.tbase tb).ptp with
  | some g => if g.ports.testBit port then some g else none
  | none => none

/-- The stamp of an event message that a port receives: taken at the MAC on its domain's time base, less the PHY's ingress latency, R147. -/
def State.igStamp (s : State) (port tb : Nat) : Int := s.tbWide tb - (s.reg (.tnuMacIgLat port)).toNat

/-- The stamp of an event message that a port sends: the PHY's egress latency after the MAC, R147. -/
def State.egStamp (s : State) (port tb : Nat) : Int := s.tbWide tb + (s.reg (.tnuMacEgLat port)).toNat

/-- The exchange and the delay of a port's domain lie under this key. -/
def domKey (port tb : Nat) : Nat := 8 * tb + port

def State.exch (s : State) (port tb : Nat) : DelayExch := sget {} s.tnu.exch (domKey port tb)

def State.setExch (s : State) (port tb : Nat) (x : DelayExch) : State :=
  { s with tnu := { s.tnu with exch := sset {} s.tnu.exch (domKey port tb) x } }

/-- The measured delay of a port's link or path from the master, with the link asymmetry, R147. -/
def State.delayOf (s : State) (port tb : Nat) : Int := sget 0 s.tnu.macDelay (domKey port tb)

/-- A delay exchange ends: its mean, and the asymmetry of R147 (log entry 92). -/
def State.setDelay (s : State) (port tb : Nat) (twice : Int) : State :=
  { s with tnu := { s.tnu with
      macDelay := sset 0 s.tnu.macDelay (domKey port tb) (twice / 2 + sgn 32 (s.reg (.tnuMacAsym port)).toNat) } }

/-- A domain's message leaves a port, R146. -/
def State.sendPtp (s : State) (port tb : Nat) (g : PtpCfg) (f : PtpFrame) : State :=
  s.emit (.ptp port tb g.transport (s.fldOf (.tnuTbCtl tb) 16 8) f)

/-- An Announce: a grandmaster that wins is followed, R150. -/
def State.ptpAnnounce (s : State) (tb : Nat) (g : PtpCfg) (gm : W64) (wins : Bool) : State :=
  let t := s.tbase tb
  let s := s.setTbase tb { t with lastAnnounce := s.ns }
  if wins ∧ g.role ≠ 1 ∧ gm ≠ t.gm then
    (s.setTbase tb { s.tbase tb with gm := gm }).raise 0x0205 0 (evData [tb, t.gm.toNat, gm.toNat])
  else s

/-- A Sync: its stamp and origin are held for the delay exchange. The servo corrects rate through the increment, and the offset of the
domain's master from the time base through unforced steps, while PTP or gPTP is the source, R150. -/
def State.ptpSync (s : State) (port tb : Nat) (g : PtpCfg) (origin : Nat) (corr : Int) (inc : Option W64) : State :=
  let at_ := s.igStamp port tb
  let o : Int := origin + corr / 65536
  let s := s.setExch port tb { s.exch port tb with origin := o, syncAt := at_ }
  if (s.source tb = 2 ∨ s.source tb = 3) ∧ !(s.locked tb) ∧ g.role ≠ 1 then
    let s := match inc with
      | some v => if incOk v.toNat then s.setReg (.tnuTbInc tb) v else s
      | none => s
    s.servoStep tb (o + s.delayOf port tb - at_)
  else s

/-- PTP_EVENT_RX: a message is received on a port of a domain; R146, R147, R150. Request-response delay belongs to profile 0, peer delay to
profiles 1 and 2. -/
def ptpEventRx (port tb : Nat) (msg : PtpMsg) (s : State) : State :=
  match s.ptpOn port tb with
  | none => s
  | some g =>
    let x := s.exch port tb
    let at_ := s.igStamp port tb
    match msg with
    | .announce gm wins => s.ptpAnnounce tb g gm wins
    | .sync origin corr inc => s.ptpSync port tb g origin corr inc
    | .delayReq => if g.profile = 0 ∧ g.role ≠ 2 then s.sendPtp port tb g (.delayResp at_) else s
    | .delayResp rx corr =>
      if g.profile = 0 then s.setDelay port tb ((x.syncAt - x.origin) + (rx - corr / 65536 - x.reqAt)) else s
    | .pdelayReq =>
      if g.profile = 0 then s
      else if g.oneStep then s.sendPtp port tb g (.pdelayResp at_ (some (s.egStamp port tb)))
      else (s.sendPtp port tb g (.pdelayResp at_ none)).sendPtp port tb g (.pdelayRespFollowUp (s.egStamp port tb))
    | .pdelayResp rx tx corr =>
      if g.profile = 0 then s else s.setDelay port tb ((at_ - x.reqAt) - ((tx : Int) - rx) - corr / 65536)
    | .other => s

def execPtpEventRx (dt port tb : Nat) (msg : PtpMsg) (s : State) : Host.Outcome State Fault Refusal :=
  runEvent dt (ptpEventRx port tb msg) s

/-- An interval of 2^k s in ns, for the logarithmic intervals of R146. -/
def logIntervalNs (k : Int) : Nat := if 0 ≤ k then 1000000000 * 2 ^ k.toNat else 1000000000 / 2 ^ (-k).toNat

/-- The domain of a time base has lost its master: holdover with the last increment, R150. -/
def State.ptpLost (s : State) (tb : Nat) : State :=
  (((s.setTbase tb { s.tbase tb with gm := 0 }).setTbStat tb 3).setTbStat tb 5).raise 0x0206 0 (evData [tb])

/-- PTP_ANNOUNCE_TIMEOUT: no Announce for three intervals. -/
def ptpAnnounceTimeout (tb : Nat) (s : State) : State :=
  let t := s.tbase tb
  match t.ptp with
  | none => s
  | some g => if g.role ≠ 1 ∧ t.gm ≠ 0 ∧ t.lastAnnounce + 3 * logIntervalNs g.logAnnounce ≤ s.ns then s.ptpLost tb else s

def execPtpAnnounceTimeout (dt tb : Nat) (s : State) : Host.Outcome State Fault Refusal := runEvent dt (ptpAnnounceTimeout tb) s

/-- What a domain sends on one port at an interval, R146: a two-step Sync is followed by its stamp; a delay request leaves its stamp for the
exchange. -/
def State.ptpSend (s : State) (tb : Nat) (g : PtpCfg) (tx : PtpTx) (port : Nat) : State :=
  let at_ := s.egStamp port tb
  match tx with
  | .sync =>
    if g.oneStep then s.sendPtp port tb g (.sync (some at_))
    else (s.sendPtp port tb g (.sync none)).sendPtp port tb g (.followUp at_)
  | .announce => s.sendPtp port tb g (.announce g.prio1 g.prio2)
  | .delayReq =>
    (s.setExch port tb { s.exch port tb with reqAt := at_ }).sendPtp port tb g (if g.profile = 0 then .delayReq else .pdelayReq)

/-- Whether a domain's role sends a message: Sync and Announce unless it is slave only, Delay_Req unless it is master only; the peer delay
of a link is measured from both its ends. -/
def PtpCfg.sends (g : PtpCfg) (tx : PtpTx) : Bool :=
  if tx = .delayReq then g.profile != 0 || g.role != 1 else g.role != 2

/-- PTP_MESSAGE_INTERVAL: a configured domain sends on each of its ports at its interval, R146. -/
def ptpMessageInterval (tb : Nat) (tx : PtpTx) (s : State) : State :=
  match (s.tbase tb).ptp with
  | none => s
  | some g => if g.sends tx then (bitsOf 8 g.ports).foldl (fun s p => s.ptpSend tb g tx p) s else s

def execPtpMessageInterval (dt tb : Nat) (tx : PtpTx) (s : State) : Host.Outcome State Fault Refusal :=
  runEvent dt (ptpMessageInterval tb tx) s

end Sys2Proof.Machine
end

