-- ==== Sys2Proof/Machine/Siu.lean ====
section
/-! DEFINITION. The Sensor Intake Unit: stream queues, time models, end-to-end checks, the frozen-frame detector, watermarks and the
intake commands: R165 to R188, R513 and R514. -/
namespace Sys2Proof.Machine

/-! Streams and their queues -/

def State.strm (s : State) (n : Nat) : Strm := sget {} s.siu.streams n

def State.setStrm (s : State) (n : Nat) (x : Strm) : State := { s with siu := { s.siu with streams := sset {} s.siu.streams n x } }

def State.modStrm (s : State) (n : Nat) (f : Strm → Strm) : State := s.setStrm n (f (s.strm n))

def State.strmOn (s : State) (n : Nat) : Bool := bit (s.reg (.siuStreamCtl n)) 31
/-- Whether a stream takes in packets: it is on and its partition runs, or P0 taps it; a partition that is only DEFINED runs nothing, R114. -/
def State.strmLive (s : State) (n : Nat) : Bool :=
  s.strmOn n && (bit (s.reg (.siuQCfg n)) 30 || s.runsWork ((s.strm n).owner.getD 0))
def State.strmKind (s : State) (n : Nat) : Nat := s.fldOf (.siuStreamSrc n) 24 8
def State.strmPort (s : State) (n : Nat) : Nat := s.fldOf (.siuStreamSrc n) 16 8
def State.strmModel (s : State) (n : Nat) : Nat := s.fldOf (.siuStreamCtl n) 28 3
def State.strmPeriod (s : State) (n : Nat) : Nat := (s.reg (.siuStreamPeriod n)).toNat
def State.strmPart (s : State) (n : Nat) : Nat := (s.strm n).owner.getD 0
/-- The alignment state code, R174. -/
def State.align (s : State) (n : Nat) : Nat := s.fldOf (.siuStreamState n) 0 3
def State.setAlign (s : State) (n v : Nat) : State := s.setFldOf (.siuStreamState n) 0 3 v
def State.frozen (s : State) (n : Nat) : Bool := bit (s.reg (.siuStreamState n)) 3
def State.tapOn (s : State) (n : Nat) : Bool := bit (s.reg (.siuQCfg n)) 30
/-- The consumer of a queue: whether it is MMV rather than CHN, R180. -/
def State.mmvQueue (s : State) (n : Nat) : Bool := bit (s.reg (.siuQCfg n)) 31

def State.setSticky (s : State) (n i : Nat) : State := s.modReg (.siuStreamFlags n) fun v => setBit v i true

/-- Queue words of a packet: one header word and the payload in words of 32 bytes, R180. -/
def Pkt.words (p : Pkt) : Nat := 1 + ceilDiv p.payload.length 32

/-- The header word, R180. -/
def Pkt.header (p : Pkt) : Bytes :=
  leBytes 8 p.stamp ++ leBytes 8 p.pin ++ leBytes 4 p.payload.length ++ leBytes 2 p.flags.toNat ++ leBytes 1 p.stream ++
    leBytes 1 p.kind ++ leBytes 4 p.frame ++ leBytes 4 p.seq

/-- Header word and payload, the last word padded with zeros. -/
def Pkt.bytes (p : Pkt) : Bytes := p.header ++ cut p.payload 0 (32 * (p.words - 1))

/-- The words that wait in a queue. -/
def Strm.words (x : Strm) : Nat := (x.queue.foldl (fun n p => n + p.words) 0) - x.headOff

/-- SIU_Q_STAT shows the fill of the queue, R184. -/
def State.syncQ (s : State) (n : Nat) : State :=
  (s.setFldOf (.siuQStat n) 0 16 (s.strm n).words).setFldOf (.siuQStat n) 16 12 (Nat.min (s.strm n).queue.length 4095)

/-- The words of queue memory that a stream has, R180. -/
def State.qWords (s : State) (n : Nat) : Nat := s.fldOf (.siuQCfg n) 0 9 * 128

/-- Whether a packet fits beside the two words held in reserve. -/
def State.qRoom (s : State) (n : Nat) (p : Pkt) : Bool := decide ((s.strm n).words + p.words + 2 ≤ s.qWords n)

/-- A whole packet enters the queue and the tap, R180; a drop that waits at the queue's end takes it instead (R181). Churn gets a copy of
every frame-end header of a stream that MMV consumes, R196. -/
def State.enqueue (s : State) (n : Nat) (p : Pkt) : State :=
  let x := s.strm n
  let x := if s.mmvQueue n && decide (2 ≤ p.kind) then { x with heads := x.heads ++ [{ p with payload := [] }] } else x
  let p := { p with seq := x.seq % 2 ^ 32 }
  let tap := if s.tapOn n then x.tapQ ++ [p] else x.tapQ
  if x.dropNext then
    (s.setStrm n { x with seq := x.seq + 1, tapQ := tap, dropNext := false }).countSat (.siuQCnt n) 0 16
  else (s.setStrm n { x with seq := x.seq + 1, tapQ := tap, queue := x.queue ++ [p] }).syncQ n

/-- The header flags at a packet's first word, R180, for a frame that started in state `start`. -/
def State.hdrFlags (s : State) (n start : Nat) (drop : Bool) : BitVec 16 :=
  BitVec.ofNat 16 ((if bit (s.reg (.siuStreamState n)) 7 then 0x800 else 0) + (if start = 1 then 0x200 else 0) +
    (if drop then 0x100 else 0) + (if s.frozen n then 8 else 0) + (if start = 3 then 4 else 0))

/-- A packet or frame of a stream was dropped: drop, drop_before of the next frame, and EV_STREAM_DROP, limited. -/
def State.noteDrop (s : State) (n : Nat) : State :=
  ((s.modStrm n fun x => { x with dropPending := true }).setSticky n 6).raiseLim 0x0309 n (s.strmPart n) (evData [n])

/-- The SIU's own count of frames received, R172, R514. -/
def State.ownCount (s : State) (n : Nat) : Nat := (s.reg (.siuStreamFrames n)).toNat

/-- Closes the frame in progress with a synthetic frame end and discards its rest, R180, R513. -/
def State.closeFrame (s : State) (n : Nat) : State :=
  match (s.strm n).cur with
  | none => s
  | some f =>
    if f.discarding then s
    else
      let r := s.fresh
      let s := r.2
      let p : Pkt := {
        kind := 4, stamp := f.y, pin := r.1.toNat, flags := s.hdrFlags n f.start false ||| (if f.phy then 0x1404 else 0x1004), stream := n,
        frame := (f.index.getD (s.ownCount n)) % 2 ^ 32, seq := 0, payload := [] }
      let s := if (s.strm n).words + 1 ≤ s.qWords n then s.enqueue n p else s
      (s.modStrm n fun x => { x with cur := some { f with discarding := true } }).countWrap (.siuStreamFrames n) 0 32 1

/-- A packet finds its queue full: the rest of its frame is discarded, R180. -/
def State.queueFull (s : State) (n : Nat) : State :=
  ((s.closeFrame n).countSat (.siuStreamDrops n) 16 16).noteDrop n

/-- A packet is dropped before its queue, R58, R513. -/
def State.ingressDrop (s : State) (n : Nat) : State := (s.countSat (.siuStreamDrops n) 0 16).noteDrop n

/-! Fields inside a frame, R172, R176, R177 -/

/-- The part of a frame that a location names and where the field begins in it: code 1 first embedded packet, 2 first packet with
payload, 3 last packet with payload, counted from its end. -/
def fieldAt (parts : List (Bool × Bytes)) (loc off : Nat) : Option (Nat × Nat) :=
  let ix := parts.zipIdx
  let data := ix.filter fun e => !e.1.1 && !e.1.2.isEmpty
  if loc = 1 then (ix.find? fun e => e.1.1).map fun e => (e.2, off)
  else if loc = 2 then (data.head?).map fun e => (e.2, off)
  else if loc = 3 then
    match data.getLast? with
    | some e => if off ≤ e.1.2.length then some (e.2, e.1.2.length - off) else none
    | none => none
  else none

/-- The value of a field of `size` bytes; none where it lies beyond its packet or the packet is missing. -/
def readField (parts : List (Bool × Bytes)) (at_ : Option (Nat × Nat)) (size : Nat) : Option Nat :=
  match at_ with
  | none => none
  | some (i, o) =>
    match parts[i]? with
    | none => none
    | some p => if o + size ≤ p.2.length then some (numAt p.2 o size) else none

/-- The payload bytes of a frame in arrival order, without embedded data and without the fields given as (part, offset, size). -/
def strip (parts : List (Bool × Bytes)) (fields : List (Nat × Nat × Nat)) : Bytes :=
  parts.zipIdx.flatMap fun e =>
    if e.1.1 then []
    else (e.1.2.zipIdx.filter fun b => !(fields.any fun f => f.1 == e.2 && decide (f.2.1 ≤ b.2 ∧ b.2 < f.2.1 + f.2.2))).map (·.1)

def withSize (f : Option (Nat × Nat)) (size : Nat) : List (Nat × Nat × Nat) :=
  match f with | some (i, o) => [(i, o, size)] | none => []

/-- Bytes of a check value. -/
def chkSize (alg : Nat) : Nat := if alg = 3 then 2 else if alg = 0 then 0 else 4

def chkValue (alg : Nat) (b : Bytes) : Nat :=
  if alg = 1 then (crc32 b).toNat else if alg = 2 then (crc32c b).toNat else (crc16 b).toNat

/-- Where the sensor timestamp of a stream lies, R172. -/
def State.tsField (s : State) (n : Nat) (parts : List (Bool × Bytes)) : Option (Nat × Nat) :=
  let x := s.strm n
  fieldAt parts (if s.strmKind n = 1 ∧ !(x.nativeFmt.testBit 2) then 1 else 2) x.nativeOff

def Strm.tsSize (x : Strm) : Nat := if x.nativeFmt.testBit 0 then 8 else 4

/-- The sensor timestamp in ns. -/
def State.sensorTs (s : State) (n : Nat) (parts : List (Bool × Bytes)) : Option Nat :=
  let x := s.strm n
  (readField parts (s.tsField n parts) x.tsSize).map fun v => if x.nativeFmt.testBit 1 then v * 1000 else v

/-- Whether the stream's slot checks a sensor's frame counter. -/
def Strm.counts (x : Strm) : Bool := x.slotOn && decide (1 ≤ x.e2e.cntLoc ∧ x.e2e.cntLoc ≤ 3)

/-- The frame counter in a frame. -/
def Strm.counter (x : Strm) (parts : List (Bool × Bytes)) : Option Nat :=
  readField parts (fieldAt parts x.e2e.cntLoc x.e2e.cntOff) (x.e2e.cntWidth / 8)

/-- The frame index that a sensor's counter gives: its advance since the last frame extends the last index (log entry 41). -/
def Strm.indexOf (x : Strm) (c : Nat) : Nat :=
  match x.index, x.prevCnt with
  | some i, some p => i + (c + 2 ^ x.e2e.cntWidth - p) % 2 ^ x.e2e.cntWidth
  | _, _ => c

/-- The frame index of R172 as far as the packets so far tell it; a counter that they do not hold is a free value (log entry 41). -/
def State.frameIndex (s : State) (n : Nat) (parts : List (Bool × Bytes)) : Nat × State :=
  let x := s.strm n
  if x.counts then
    match x.counter parts with
    | some c => (x.indexOf c, s)
    | none => let r := s.fresh; (r.1.toNat, r.2)
  else (s.ownCount n, s)

/-! End-to-end checks, R176 -/

/-- The verdict bits 7:4 of a frame, and the state after its counts, flags and event. -/
def State.verdict (s : State) (n : Nat) (f : OpenFrame) : Nat × State :=
  let x := s.strm n
  if !x.slotOn then (0, s)
  else
    let e := x.e2e
    let w := 2 ^ e.cntWidth
    let got := if e.cntLoc = 4 then some ((x.genCnt + w - 1) % w) else if x.counts then x.counter f.parts else none
    let hasCnt := decide (1 ≤ e.cntLoc ∧ e.cntLoc ≤ 4)
    let expect := x.prevCnt.map fun p => (p + 1) % w
    let cntErr := hasCnt && (match got, expect with | none, _ => true | some g, some v => g != v | some _, none => false)
    let free := s.fresh
    let adv := if hasCnt then
        match got, x.prevCnt with
        | some g, some p => (g + w - p) % w
        | some _, none => 1
        | none, _ => free.1.toNat
      else 1
    let s := if hasCnt && got.isNone then free.2 else s
    let native := decide (s.strmModel n = 2 ∨ s.strmModel n = 3)
    let ts := if native then s.sensorTs n f.parts else some f.first
    let p := s.strmPeriod n
    let tsErr := e.stampChk && (match ts, x.prevTs with
      | none, _ => true
      | some t, some o => decide (2 * t < 2 * o + p * adv ∨ 2 * o + 3 * p * adv < 2 * t)
      | some _, none => false)
    let chkAt := fieldAt f.parts e.chkLoc e.chkOff
    let body := strip f.parts (withSize chkAt (chkSize e.chkAlg))
    let body := if e.cover = 0 then body else body.take e.cover
    let chkErr := decide (1 ≤ e.chkAlg ∧ e.chkAlg ≤ 3) &&
      (match readField f.parts chkAt (chkSize e.chkAlg) with | none => true | some v => v != chkValue e.chkAlg body)
    let s := s.setStrm n { x with
      prevCnt := if hasCnt then (match got with | some g => some g | none => x.prevCnt) else none,
      prevTs := match ts with | some t => some t | none => x.prevTs }
    let s := if cntErr then (s.countSat (.siuE2eCnt n) 0 8).setSticky n 2 else s
    let s := if tsErr then (s.countSat (.siuE2eCnt n) 8 8).setSticky n 3 else s
    let s := if chkErr then (s.countSat (.siuE2eCnt n) 16 8).setSticky n 4 else s
    let bits := 0x10 + (if cntErr then 0x20 else 0) + (if tsErr then 0x40 else 0) + (if chkErr then 0x80 else 0)
    (bits, if bits = 0x10 then s
      else s.raiseLim 0x0306 n (s.strmPart n) (evData [n, bits - 0x10, expect.getD 0, got.getD 0]))

/-! The frozen-frame detector, R179 -/

/-- FROZEN clears: the event is raised and the run of differing frames starts anew. -/
def State.unfreeze (s : State) (n : Nat) : State :=
  if s.frozen n then
    (((s.modReg (.siuStreamState n) fun v => setBit v 3 false).modStrm n fun x => { x with differ := 0 })).raise 0x0305
      (s.strmPart n) (evData [n])
  else s

/-- The signature of a whole frame is compared with that of the frame before it. -/
def State.freezeCheck (s : State) (n : Nat) (f : OpenFrame) : State :=
  let x := s.strm n
  let native := decide (s.strmModel n = 2 ∨ s.strmModel n = 3)
  let fields := withSize (fieldAt f.parts x.e2e.cntLoc x.e2e.cntOff) (x.e2e.cntWidth / 8) ++
    withSize (fieldAt f.parts x.e2e.chkLoc x.e2e.chkOff) (chkSize x.e2e.chkAlg) ++
    (if native then withSize (s.tsField n f.parts) x.tsSize else [])
  let sig := crc64 (strip f.parts fields)
  let same := x.sigSeen && sig == s.reg (.siuStreamSig n)
  let s := (s.setReg (.siuStreamSig n) sig).setStrm n { x with sigSeen := true, differ := if same then 0 else x.differ + 1 }
  let set := s.fldOf (.siuStreamFrozenCtl n) 0 8
  let clear := s.fldOf (.siuStreamFrozenCtl n) 8 8
  if same then
    let s := s.countSat (.siuStreamState n) 16 8
    if set ≠ 0 ∧ !s.frozen n ∧ set ≤ s.fldOf (.siuStreamState n) 16 8 then
      (((s.modReg (.siuStreamState n) fun v => setBit v 3 true).setSticky n 1).modStrm n fun x => { x with differ := 0 }).raise
        0x0304 (s.strmPart n) (evData [n])
    else s
  else
    let s := s.setFldOf (.siuStreamState n) 16 8 0
    if s.frozen n ∧ clear ≤ (s.strm n).differ then s.unfreeze n else s

/-! Time models, R172 to R174, R514 -/

/-- Rounds a / b to the nearest integer, ties upward; b is positive. -/
def divNear (a b : Int) : Int := (2 * a + b) / (2 * b)

/-- Rounds a rational to the nearest integer, ties upward. -/
def ratNear (q : Rat) : Int := divNear q.num q.den

/-- The magnitude of a rational. -/
def ratAbs (q : Rat) : Rat := if q < 0 then -q else q

/-- A rate in ppb, clamped to ±1,000,000. -/
def clampRate (r : Int) : Int := max (-1000000) (min 1000000 r)

def State.strmRate (s : State) (n : Nat) : Int := sgn 32 (s.reg (.siuStreamRate n)).toNat

/-- Sets the anchor and the rate of a model, R173. -/
def State.setModel (s : State) (n x t : Nat) (rate : Int) : State :=
  ((s.setReg (.siuStreamAnchorX n) (BitVec.ofNat 64 x)).setReg (.siuStreamAnchorT n) (BitVec.ofNat 64 t)).setReg
    (.siuStreamRate n) (BitVec.ofNat 64 (unsgn 32 rate))

/-- The update of an ALIGNED stream's model: the frame's stamp and whether the stream became UNALIGNED. -/
def State.modelUpdate (s : State) (n x y idx : Nat) : Nat × Bool × State :=
  let xa : Int := (s.reg (.siuStreamAnchorX n)).toNat
  let ta : Int := (s.reg (.siuStreamAnchorT n)).toNat
  let dx : Int := (x : Int) - xa
  let rate := s.strmRate n
  let pred := ta + dx + divNear (dx * rate) 1000000000
  let r := (y : Int) - pred
  let s := s.setReg (.siuStreamResid n) (BitVec.ofNat 64 (unsgn 32 (clampS 32 r)))
  if s.strmPeriod n < r.natAbs then
    (y, true, (((s.setAlign n 3).setSticky n 0).raise 0x0301 (s.strmPart n) (evData [n, unsgn 64 r, idx])))
  else
    let t := pred + divNear r (2 ^ (s.strm n).kp : Nat)
    let rate := if dx = 0 then rate
      else clampRate (rate + ratNear ((r * 1000000000 : Int) / ((dx : Rat) * ((2 ^ (s.strm n).ki : Nat) : Rat))))
    (t.toNat, false, s.setModel n x t.toNat rate)

/-- The least-squares line through points relative to the last one: its slope and value there, and its largest residual; none
when every x is equal. -/
def lineFit (pts : List (Nat × Nat)) (x0 y0 : Nat) : Option (Rat × Rat × Rat) :=
  let k : Rat := pts.length
  let q : List (Rat × Rat) := pts.map fun p => (((p.1 : Int) - (x0 : Int) : Int), ((p.2 : Int) - (y0 : Int) : Int))
  let sx := q.foldl (fun a p => a + p.1) 0
  let sy := q.foldl (fun a p => a + p.2) 0
  let sxx := q.foldl (fun a p => a + p.1 * p.1) 0
  let sxy := q.foldl (fun a p => a + p.1 * p.2) 0
  let d := k * sxx - sx * sx
  if d = 0 then none
  else
    let b := (k * sxy - sx * sy) / d
    let a := (sy - b * sx) / k
    some (b, a, q.foldl (fun m p => max m (ratAbs (p.2 - a - b * p.1))) 0)

/-- A frame of an ACQUIRING stream: the fit over lock_frames frames makes the stream ALIGNED or starts anew, R174. -/
def State.acquire (s : State) (n x y : Nat) : State :=
  let st := s.strm n
  let pts := st.fit ++ [(x, y)]
  if pts.length < s.fldOf (.siuStreamCtl n) 8 8 then s.setStrm n { st with fit := pts }
  else
    let ok := match lineFit pts x y with
      | some (b, a, m) => if m * 4 ≤ (s.strmPeriod n : Rat) then some (b, a) else none
      | none => none
    match ok with
    | some (b, a) =>
      let t := ((y : Int) + ratNear a).toNat
      let rate := clampRate (ratNear ((b - 1) * 1000000000))
      (((s.setStrm n { st with fit := [], fails := 0 }).setAlign n 2).setModel n x t rate).raise 0x0302 (s.strmPart n)
        (evData [n, unsgn 64 ((t : Int) - (x : Int)), unsgn 64 rate])
    | none =>
      let s := s.setStrm n { st with fit := [], fails := st.fails + 1 }
      if (st.fails + 1) % 4 = 0 then s.raise 0x0303 (s.strmPart n) (evData [n]) else s

/-- The model input x of a whole frame, R172; none when its sensor timestamp is missing (R514). -/
def State.modelInput (s : State) (n idx : Nat) (f : OpenFrame) : Option Nat :=
  if s.strmModel n = 0 ∨ s.strmModel n = 1 then some (idx * s.strmPeriod n) else s.sensorTs n f.parts

/-- The time model takes a whole frame: its stamp, whether its last header carries unaligned on that account, and the state. -/
def State.model (s : State) (n idx : Nat) (f : OpenFrame) : Nat × Bool × State :=
  match s.modelInput n idx f with
  | none => (f.y, true, s)
  | some x =>
    if f.start = 2 ∧ s.align n = 2 then s.modelUpdate n x f.y idx
    else if f.start = 1 ∧ s.align n = 1 then (f.y, false, s.acquire n x f.y)
    else (f.y, false, s)

/-! Latency, R170, R171 -/

/-- The probe pace of the SIU in Q2.14, R37: block 2, unit 0. -/
def State.siuPace (s : State) : Nat :=
  (s.reg (.paceProbe 2 0)).toNat * 16384 / (2000 * Nat.max 1 (s.fldOf (.paceCtl 2) 12 20))

/-- The load band in force, R51. -/
def State.band (s : State) : Nat := bandOf s.gov.busyPct

/-- The lead and the fabric latency of a whole frame are recorded. -/
def State.measure (s : State) (n : Nat) (f : OpenFrame) (fab : Nat) : State :=
  let x := s.strm n
  let e : CalEntry := { maxNs := fab, pace := s.siuPace, mv := (s.reg .ccxPwrVmeas).toNat, tj := s.pwr.tj }
  let old := x.calMax.find? fun c => c.1 == s.band
  let keep := match old with | some c => decide (fab ≤ c.2.maxNs) | none => false
  s.setStrm n { x with
    leads := ((f.last - f.y) :: x.leads).take 64,
    calMax := if keep then x.calMax else (x.calMax.filter fun c => c.1 != s.band) ++ [(s.band, e)] }

/-- The calibration merge of a quiet interval, R170. -/
def Strm.mergeCal (x : Strm) : Strm :=
  { x with cal := (x.cal.filter fun c => !(x.calMax.any fun m => m.1 == c.1)) ++ x.calMax, calMax := [] }

/-- The watermark of a stream and whether it is derated, R171. A pace of 0, before any interval has ended, counts as the entry's. -/
def State.watermark (s : State) (n : Nat) : Nat × Bool :=
  let x := s.strm n
  let e := [2, 1, 0].findSome? fun b => if b ≤ s.band then x.cal.find? (fun c => c.1 == b) else none
  let r : Rat × Bool := match e with
    | none => (500000, true)
    | some (b, e) =>
      ((e.maxNs : Rat) * (if s.siuPace = 0 then 1 else (e.pace : Rat) / (s.siuPace : Rat)), decide (b < s.band))
  let fab : Rat := if r.2 then r.1 * 100 / ((100 - s.gov.margin : Nat) : Rat) else r.1
  let lead := Nat.max x.lead (x.leads.foldl Nat.max 0)
  (Nat.min (lead + (fab.ceil.toNat) + x.guard) 0xFFFFFFFF, r.2)

/-- Recomputes the watermarks of the enabled streams, R171. -/
def State.watermarks (s : State) : State :=
  (List.range 64).foldl (fun s n =>
    if s.strmOn n then
      let w := s.watermark n
      let s := (s.setReg (.siuStreamWmark n) (BitVec.ofNat 64 w.1)).modReg (.siuStreamState n) fun v => setBit v 7 w.2
      if w.2 then s.raiseLim 0x0A03 (0x10000 + n) (s.strmPart n) (evData [s.vset, unsgn 64 s.pwr.tj, s.band]) else s
    else s) s

/-! Slots, R178 -/

/-- Whether a stream carries a counter or a check value. -/
def E2e.carries (e : E2e) : Bool := e.cntLoc != 0 || e.chkAlg != 0

def State.slotMap (s : State) : List Nat := (List.range 8).map fun k => s.fldOf .siuE2eMap (8 * k) 8

/-- The streams that are to hold the slots: by descending crit, then ascending number. -/
def State.slotStreams (s : State) : List Nat :=
  let l := (List.range 64).filter fun n => s.strmOn n && (s.strm n).e2e.carries
  (((List.range 16).reverse.flatMap fun c => l.filter fun n => s.fldOf (.siuStreamCtl n) 16 4 == c)).take 8

/-- The assignment is recomputed, and EV_E2E_SLOT_CHANGED tells a change. -/
def State.assignSlots (s : State) : State :=
  let old := s.slotMap
  let want := s.slotStreams
  let kept := old.map fun n => if want.contains n then n else 0xFF
  let new := want.foldl (fun (m : List Nat) n => if m.contains n then m else m.set (m.findIdx (· == 0xFF)) n) kept
  let s := (List.range 8).foldl (fun s k => s.setFldOf .siuE2eMap (8 * k) 8 (new.getD k 0xFF)) s
  let s := (List.range 64).foldl (fun s n =>
    s.setFldOf (.siuStreamState n) 24 8 (if new.contains n then new.findIdx (· == n) else 0xFF)) s
  let s := (s.setFldOf .siuStat 0 4 (new.filter (· != 0xFF)).length).setFldOf .siuStat 16 7
    ((List.range 64).filter s.strmOn).length
  if new = old then s
  else s.raise 0x030A 0 (evData [leVal (old.map (BitVec.ofNat 8)), leVal (new.map (BitVec.ofNat 8))])

/-! Packets, R166 to R169, R513 -/

/-- The instant of a time base a number of ticks ago. -/
def State.tbAgo (s : State) (tb age : Nat) : Nat :=
  (((s.tbase tb).acc - BitVec.ofNat 128 (age * (s.reg (.tnuTbInc tb)).toNat)).toNat >>> 32) % 2 ^ (if s.tbShort tb then 32 else 64)

/-- The observation of a frame whose first packet bears this pin stamp, taken at `at_` by the ticks, R172: under CAPTURE the last edge before
the packet. A CAPTURE channel that has seen no edge before it gives a free value. -/
def State.observe (s : State) (n pin at_ : Nat) : Nat × State :=
  let slat := sgn 32 (s.reg (.siuStreamSlat n)).toNat
  if s.strmModel n = 1 then
    match (sget [] s.tnu.capEdges (s.fldOf (.siuStreamCtl n) 20 5)).find? fun e => decide (e.1 < at_) with
    | none => let r := s.fresh; (r.1.toNat, r.2)
    | some e => (((e.2 : Int) + slat).toNat, s)
  else (((pin : Int) - slat).toNat, s)

/-- Under model PTP, the model starts from the cross-stamp of its time base, R514. -/
def State.ptpStart (s : State) (n : Nat) : State :=
  let tb := s.fldOf (.siuStreamCtl n) 25 3
  if s.strmModel n = 3 then
    let i0 : Int := (s.reg (.tnuTbInc 0)).toNat
    let i : Int := (s.reg (.tnuTbInc tb)).toNat
    s.setModel n (s.tbNow tb) s.now (if i ≤ 0 then 0 else clampRate (divNear ((i0 - i) * 1000000000) i))
  else s

/-- A resync takes effect: ACQUIRING, FROZEN cleared, and the detector starts anew, R174, R179 (log entry 83). -/
def State.resyncNow (s : State) (n : Nat) : State :=
  ((((s.modStrm n fun x => { x with resync := false, fit := [], fails := 0, sigSeen := false }).setAlign n 1).unfreeze n).setFldOf
    (.siuStreamState n) 16 8 0).ptpStart n

/-- A frame starts, R166, R174, R175, R178; its first packet was stamped `age` ns ago. -/
def State.frameStart (s : State) (n pin age : Nat) : State :=
  let s := if (s.strm n).resync then s.resyncNow n else s
  let on := s.fldOf (.siuStreamState n) 24 8 != 0xFF
  let s := s.modStrm n fun x =>
    { x with slotOn := on, prevCnt := if x.slotOn then x.prevCnt else none, prevTs := if x.slotOn then x.prevTs else none,
             index := if x.slotOn then x.index else none, lastStart := s.ns }
  let s := s.modReg (.siuStreamState n) fun v => setBit (setBit v 4 on) 6 false
  let r := s.observe n pin (s.ns - age)
  r.2.modStrm n fun x => { x with cur := some { start := s.align n, y := r.1, first := pin, last := pin } }

/-- The last packet of a frame is whole: verdict, model, frozen check, measurements; then it is queued with what they gave. -/
def State.frameDone (s : State) (n : Nat) (f : OpenFrame) (p : Pkt) (fab : Nat) : State :=
  let ix := s.frameIndex n f.parts
  let s := ix.2
  let cnt := (s.strm n).counter f.parts
  let s := if (s.strm n).counts && cnt.isSome then s.modStrm n fun x => { x with index := some ix.1 } else s
  let v := s.verdict n f
  let m := v.2.model n ix.1 f
  let s := (m.2.2.freezeCheck n f).measure n f fab
  let flags := p.flags ||| BitVec.ofNat 16 (v.1 + (if f.phy then 0x400 else 0) + (if m.2.1 then 4 else 0))
  let s := s.enqueue n { p with stamp := m.1, flags := flags, frame := ix.1 % 2 ^ 32 }
  (s.modStrm n fun x => { x with cur := none }).countWrap (.siuStreamFrames n) 0 32 1

/-- A packet of a stream comes in: `kind` is its pkt_kind, `pin0` its pin stamp on TB0, `pin` that on stamp_tb, `fab` the time in ns since the
pin stamp. -/
def State.ingress (s : State) (n kind : Nat) (emb : Bool) (b : Bytes) (pin0 pin fab : Nat) (phy full : Bool) : State :=
  let starts := kind == 1 || kind == 3
  let ends := kind == 2 || kind == 3
  let s := if starts then s.modStrm n fun x => { x with genCnt := x.genCnt + 1 } else s
  let endOpen := fun (s : State) => if ends then s.modStrm n fun x => { x with cur := none } else s
  if full then
    endOpen ((if starts then (s.closeFrame n).modStrm n fun x => { x with cur := none } else s.closeFrame n).ingressDrop n)
  else
    let s := if starts then (s.closeFrame n).frameStart n pin0 fab else s
    match (s.strm n).cur with
    | none => s.ingressDrop n
    | some f =>
      if f.discarding then endOpen s
      else
        let f := { f with parts := f.parts ++ [(emb, b)], last := pin0, phy := f.phy || phy }
        let ix := s.frameIndex n f.parts
        let s := ix.2
        let drop := (s.strm n).dropPending && starts
        let p : Pkt := {
          kind := kind, stamp := f.y, pin := pin, flags := s.hdrFlags n f.start drop, stream := n,
          frame := ix.1 % 2 ^ 32, seq := 0, payload := b, emb := emb }
        if !(s.qRoom n p) ∧ !(s.strm n).dropNext then endOpen (s.queueFull n)
        else
          let s := s.modStrm n fun x => { x with cur := some { f with index := some ix.1 }, dropPending := x.dropPending && !drop }
          if ends then s.frameDone n f p fab else s.enqueue n p

/-- The enabled streams of a port, in ascending order. -/
def State.portStreams (s : State) (kind port : Nat) : List Nat :=
  (List.range 64).filter fun n => s.strmOn n && s.strmKind n == kind && s.strmPort n == port

/-- Whether a packet's selector value matches a stream's selector, R166. -/
def State.selMatch (s : State) (n : Nat) (k : SensorPacket) : Bool :=
  let sel := (s.reg (.siuStreamSel n)).toNat
  if k.kind = 1 then decide (sel % 32 = k.sel % 32 ∧ sel / 256 % 64 = k.sel / 256 % 64)
  else if k.kind = 2 then (if sel.testBit 16 then sel % 65536 == k.sel % 65536 else k.udp == some (sel % 65536))
  else if k.kind = 3 then decide (sel % 2 ^ 29 = k.sel % 2 ^ 29 ∧ sel / 2 ^ 31 % 2 = k.sel / 2 ^ 31 % 2)
  else true

/-- The streams that a packet goes to, with its pkt_kind, embedded-data mark and payload in each, R166. -/
def State.route (s : State) (k : SensorPacket) : List (Nat × Nat × Bool × Bytes) :=
  let l := (s.portStreams k.kind k.port).filter s.strmLive
  if k.kind = 1 then
    let vc := l.filter fun n => (s.reg (.siuStreamSel n)).toNat % 32 == k.sel % 32
    match k.role with
    | .frameStart => vc.map fun n => (n, 1, false, [])
    | .frameEnd => vc.map fun n => (n, 2, false, [])
    | _ =>
      if k.sel / 256 % 64 = 0x12 then
        vc.map fun n => (n, 0, (s.reg (.siuStreamSel n)).toNat / 256 % 64 != 0x12, k.payload)
      else match l.find? fun n => s.selMatch n k with | some n => [(n, 0, false, k.payload)] | none => []
  else if k.kind = 6 ∨ k.kind = 7 then
    let width := if k.kind = 6 then 16 else 8
    (l.foldl (fun (a : List Nat × List (Nat × Nat × Bool × Bytes)) n =>
      let mine := (bitsOf width (s.reg (.siuStreamSel n)).toNat).filter fun i => !(a.1.contains i)
      (a.1 ++ mine, if mine.isEmpty then a.2 else a.2 ++ [(n, 3, false, mine.flatMap fun i => (k.slotBytes[i]?).getD [])]))
      ([], [])).2
  else match l.find? fun n => s.selMatch n k with
    | none => []
    | some n =>
      if k.kind = 2 then
        let x := s.strm n
        let first := x.ethN == 0
        let last := decide (x.framePkts ≤ x.ethN + 1)
        [(n, if first && last then 3 else if first then 1 else if last then 2 else 0, false, k.payload)]
      else [(n, 3, false, k.payload)]

/-- Errors that a CSI-2 packet carries are counted at its port, R183, R188. -/
def State.phyErrors (s : State) (k : SensorPacket) (rt : List Nat) : State :=
  if k.kind ≠ 1 then s
  else
    let s := if k.eccFixed then s.countSat (.siuCsiErr k.port) 16 16 else s
    if k.phyErr then
      rt.foldl (fun s n => (s.setSticky n 7).raiseLim 0x030B n (s.strmPart n) (evData [k.port, n])) (s.countSat (.siuCsiErr k.port) 0 16)
    else s

/-- A packet arrives at a sensor port. -/
def State.sensorPacket (s : State) (k : SensorPacket) : State :=
  let rt := s.route k
  let lat := if k.kind = 2 then (s.reg (.tnuMacIgLat k.port)).toNat else 0
  let s := s.phyErrors k (rt.map (·.1))
  rt.foldl (fun s r =>
    let n := r.1
    let s := if k.kind = 2 then
        s.modStrm n fun x => { x with ethN := if x.framePkts ≤ x.ethN + 1 then 0 else x.ethN + 1 }
      else s
    let tb := s.fldOf (.siuStreamCtl n) 5 3
    s.ingress n r.2.1 r.2.2.1 r.2.2.2 (s.tbAgo 0 k.stampAge - lat) (s.tbAgo tb k.stampAge - lat) (2 * k.stampAge + lat)
      (k.phyErr && k.kind == 1) k.fifoFull) s

/-- An encoder sample: position, index count, status and edge time, padded to 16 bytes, R169. -/
def encoderBytes (pos : W32) (idx status : BitVec 16) (edgeNs : W32) : Bytes :=
  cut (leBytes 4 pos.toNat ++ leBytes 2 idx.toNat ++ leBytes 2 status.toNat ++ leBytes 4 edgeNs.toNat) 0 16

/-! Reads, drops and resets of a queue, R181, R182 -/

/-- The consumer takes the packet at the head of a queue, or its rest. -/
def State.takeHead (s : State) (n : Nat) : State :=
  (s.modStrm n fun x => { x with queue := x.queue.drop 1, headOff := 0 }).syncQ n

/-- QUEUE_READ: one word of a whole packet with its end mark, R181. -/
def queueRead (n : Nat) (s : State) : State :=
  let x := s.strm n
  match x.queue with
  | [] => s
  | p :: _ =>
    let last := decide (p.words ≤ x.headOff + 1)
    let s := s.emit (.words (cut p.bytes (32 * x.headOff) 32 ++ [if last then 1 else 0]))
    if last then s.takeHead n else (s.setStrm n { x with headOff := x.headOff + 1 }).syncQ n

def execQueueRead (dt st : Nat) (s : State) : Host.Outcome State Fault Refusal := runEvent dt (queueRead st) s

/-- Q_DROP_REST_WRITE: drops to the next end mark; at an empty queue the next packet goes as it arrives, R181. -/
def qDropRest (n : Nat) (s : State) : State :=
  if 64 ≤ n then s
  else if (s.strm n).queue.isEmpty then s.modStrm n fun x => { x with dropNext := true }
  else (s.takeHead n).countSat (.siuQCnt n) 0 16

def execQDropRestWrite (dt st : Nat) (s : State) : Host.Outcome State Fault Refusal := runEvent dt (qDropRest st) s

/-- Empties a queue. -/
def State.emptyQ (s : State) (n : Nat) : State :=
  (s.modStrm n fun x => { x with queue := [], headOff := 0, dropNext := false }).syncQ n

/-- The frame in progress of a queue that was reset loses its rest without a synthetic end, R182. -/
def State.loseFrame (s : State) (n : Nat) : State :=
  match (s.strm n).cur with
  | none => s.modStrm n fun x => { x with dropPending := true }
  | some f =>
    let s := if f.discarding then s else s.countWrap (.siuStreamFrames n) 0 32 1
    s.modStrm n fun x => { x with cur := some { f with discarding := true }, dropPending := true }

/-- The code of the pointer that failed in EV_QUEUE_PTR_MISMATCH: 0 read, 1 write, 2 tap (log entry 7). -/
def qPtrNum : QPtr → Nat
  | .read => 0 | .write => 1 | .tap => 2

/-- The SIU's part of a pointer mismatch, R182; a mismatch of the tap's pointers resets only the tap. -/
def State.queueReset (s : State) (n : Nat) (ptr : QPtr) : State :=
  let ev := fun (s : State) => s.raise 0x0307 (s.strmPart n) (evData [n, qPtrNum ptr])
  if ptr = .tap then ev (s.modStrm n fun x => { x with tapQ := [], tapResets := x.tapResets + 1 })
  else
    let s := (s.emptyQ n).loseFrame n
    let s := s.modStrm n fun x => { x with seq := 0, resets := x.resets ++ [s.now] }
    ev (((s.countWrap (.siuQStat n) 28 4 1).countSat (.siuQCnt n) 16 16).setSticky n 5)

/-- STREAM_SILENT_TIMEOUT: no frame started for 4 periods, R175. -/
def streamSilent (n : Nat) (s : State) : State :=
  if s.strmLive n && !(bit (s.reg (.siuStreamState n)) 6) && decide ((s.strm n).lastStart + 4 * s.strmPeriod n ≤ s.ns) then
    (s.modReg (.siuStreamState n) fun v => setBit v 6 true).raise 0x0308 (s.strmPart n) (evData [n])
  else s

def execStreamSilentTimeout (dt st : Nat) (s : State) : Host.Outcome State Fault Refusal := runEvent dt (streamSilent st) s

/-! Intake commands, R185 to R187 -/

/-- The number of ports of a kind, R165. -/
def portCount (kind : Nat) : Nat :=
  match kind with
  | 1 => 16 | 2 => 8 | 3 => 8 | 4 => 8 | 5 => 8 | 6 => 2 | 7 => 8 | _ => 0

/-- Whether the kind-specific bytes of INTAKE_PORT_CONFIG are in the ranges of R165 and R187. -/
def portOk (c : Cmd) : Bool :=
  match c.p 0x20 1 with
  | 1 =>
    if c.p 0x22 1 = 0 then [1, 2, 4].contains (c.p 0x23 1) && decide (80 ≤ c.p 0x24 2 ∧ c.p 0x24 2 ≤ 4500)
    else c.p 0x22 1 == 1 && decide (1 ≤ c.p 0x23 1 ∧ c.p 0x23 1 ≤ 3) && decide (80 ≤ c.p 0x24 2 ∧ c.p 0x24 2 ≤ 6000)
  | 2 => decide (c.p 0x22 1 ≤ 4)
  | 3 => decide (125000 ≤ c.p 0x24 4 ∧ c.p 0x24 4 ≤ 1000000 ∧ 1000000 ≤ c.p 0x28 4 ∧ c.p 0x28 4 ≤ 8000000 ∧
      c.p 0x2C 1 ≤ 100 ∧ c.p 0x2D 1 ≤ 100)
  | 4 => decide (100000 ≤ c.p 0x24 4 ∧ c.p 0x24 4 ≤ 50000000 ∧ c.p 0x28 1 ≤ 3 ∧ c.p 0x29 1 ≤ 1)
  | 5 => [1, 2, 4].contains (c.p 0x22 1) && decide (c.p 0x24 2 ≤ 10000 ∧ c.p 0x24 2 % 2 = 0)
  | 6 => decide (c.p 0x22 1 ≤ 1 ∧ 1 ≤ c.p 0x23 1 ∧ c.p 0x23 1 ≤ 16 ∧ 8000 ≤ c.p 0x28 4 ∧ c.p 0x28 4 ≤ 192000 ∧
      16 ≤ c.p 0x2C 2 ∧ c.p 0x2C 2 ≤ 1024) && [16, 24, 32].contains (c.p 0x24 1)
  | 7 => decide (768000 ≤ c.p 0x24 4 ∧ c.p 0x24 4 ≤ 4800000 ∧ 16 ≤ c.p 0x2C 2 ∧ c.p 0x2C 2 ≤ 1024) &&
      [8000, 16000, 24000, 48000].contains (c.p 0x28 4)
  | _ => false

/-- INTAKE_PORT_CONFIG: R187. -/
def intakePortConfig (c : Cmd) (s : State) : State :=
  let kind := c.p 0x20 1
  let port := c.p 0x21 1
  s.firstFail c [(decide (portCount kind ≤ port) || !(portOk c), stBadParam), (!(s.portStreams kind port).isEmpty, stBusy)] fun s =>
    ({ s with siu := { s.siu with
      ports := (s.siu.ports.filter fun (e : (Nat × Nat) × Bytes) => e.1 != (kind, port)) ++ [((kind, port), cut c.params 2 14)] } }).done c

def execIntakePortConfig (dt id : Nat) (s : State) : Host.Outcome State Fault Refusal := runCmd dt id 0x0301 intakePortConfig s

/-- Whether a stream belongs to another partition than the command's, R185. -/
def State.foreignStream (s : State) (n part : Nat) : Bool :=
  match (s.strm n).owner with
  | some p => p != part
  | none => false

/-- The CSI-2 data types of R165: embedded data, YUV422 8-bit and 10-bit, RGB565, RGB888, RAW6 to RAW20, user-defined; their codes are those of
the MIPI standard (PRESUMED, log entry 91). -/
def csiTypes : List Nat := [0x12, 0x1E, 0x1F, 0x22, 0x24] ++ [0x28, 0x29, 0x2A, 0x2B, 0x2C, 0x2D, 0x2E, 0x2F] ++ (List.range 8).map (0x30 + ·)

/-- Whether a selector names what R165 and R166 give the kind. -/
def selectorOk (kind sel : Nat) : Bool :=
  match kind with
  | 1 => decide (sel % 256 ≤ 15 ∧ sel < 2 ^ 14) && csiTypes.contains (sel / 256)
  | 2 => decide (sel < 2 ^ 17)
  | 3 => decide (sel / 2 ^ 29 % 4 = 0)
  | 6 => decide (sel < 2 ^ 16)
  | 7 => decide (sel < 2 ^ 8)
  | _ => true

/-- The fields of R186, as the 48 bytes of its table: whether each lies in its range. -/
def State.streamFieldsOk (s : State) (b : Bytes) : Bool :=
  let g := numAt b
  let slat := sgn 32 (g 0x10 4)
  let n := g 0 1
  decide (n ≤ 63 ∧ g 2 1 < portCount (g 1 1) ∧ g 3 1 ≤ 3 ∧ (g 1 1 = 2 → 1 ≤ g 8 2 ∧ g 8 2 ≤ 4096) ∧ g 0xA 1 ≤ 7 ∧ g 0xB 1 ≤ 7 ∧
    20000 ≤ g 0xC 4 ∧ g 0xC 4 ≤ 1000000000 ∧ slat.natAbs ≤ 100000000 ∧ g 0x14 2 ≤ 4095 ∧ 2 ≤ g 0x17 1 ∧ g 0x18 1 ≤ 15 ∧
    g 0x19 1 ≤ 3) &&
  decide (1 ≤ g 0x1A 2 ∧ g 0x1A 2 ≤ 256 ∧ g 0x1A 2 ≤ (s.reg .siuQmem).toNat + s.fldOf (.siuQCfg n) 0 9 ∧ g 0x1C 1 ≠ 1 ∧
    1 ≤ g 0x1D 1 ∧ g 0x1E 1 ≤ 15 ∧ g 0x1F 1 ≤ 15 ∧ g 0x20 4 ≤ 1000000000 ∧ g 0x24 4 ≤ 100000000 ∧ g 0x28 8 = 0) &&
  selectorOk (g 1 1) (g 4 4) &&
  decide (((List.range 64).filter fun m => m != n && s.strmKind m == g 1 1 && s.strmPort m == g 2 1).length < 8)

/-- A stream takes a configuration, R183, R186; the base unit of its queue is the part's own (log entry 42). `tap` is set by the safety
configuration alone, R404. -/
def State.configStream (s : State) (b : Bytes) (owner : Nat) (tap : Bool) : State :=
  let g := numAt b
  let n := g 0 1
  let old := s.fldOf (.siuQCfg n) 0 9
  let r := s.fresh
  let s := r.2
  let ctl := g 3 1 * 2 ^ 28 + g 0x16 1 / 32 * 2 ^ 25 + g 0x16 1 % 32 * 2 ^ 20 + g 0x18 1 * 2 ^ 16 + g 0x17 1 * 256 + g 0xB 1 * 32
  let s := (s.setReg (.siuStreamCtl n) (BitVec.ofNat 64 ctl)).setReg (.siuStreamSrc n) (BitVec.ofNat 64 (g 1 1 * 2 ^ 24 + g 2 1 * 2 ^ 16))
  let s := (s.setReg (.siuStreamPeriod n) (BitVec.ofNat 64 (g 0xC 4))).setReg (.siuStreamSlat n) (BitVec.ofNat 64 (g 0x10 4))
  let s := (s.setReg (.siuStreamFrozenCtl n) (BitVec.ofNat 64 (g 0x1D 1 * 256 + g 0x1C 1))).setReg (.siuStreamSel n) (BitVec.ofNat 64 (g 4 4))
  let q := g 0x19 1 % 2 * 2 ^ 31 + (if tap then 2 ^ 30 else 0) + r.1.toNat % 1024 * 2 ^ 16 + g 0x1A 2
  let s := (s.setReg (.siuQCfg n) (BitVec.ofNat 64 q)).setReg .siuQmem (BitVec.ofNat 64 ((s.reg .siuQmem).toNat + old - g 0x1A 2))
  let s := s.modReg (.siuStreamState n) fun v => setBit v 5 tap
  s.modStrm n fun x => { x with
    owner := some owner, framePkts := if g 1 1 = 2 then g 8 2 else 1, nativeFmt := g 0xA 1, nativeOff := g 0x14 2,
    kp := g 0x1E 1, ki := g 0x1F 1, lead := g 0x20 4, guard := g 0x24 4, ethN := 0, queue := [], headOff := 0, cur := none }

/-- INTAKE_STREAM_CONFIG: R186. -/
def intakeStreamConfig (c : Cmd) (s : State) : State :=
  let b := cut c.params 0 48
  let n := c.p 0x20 1
  s.firstFail c [(!(s.streamFieldsOk b), stBadParam), (s.foreignStream n c.part || bit (BitVec.ofNat 8 (c.p 0x39 1)) 1, stNotPermitted),
      (s.strmOn n, stBusy)] fun s => ((s.configStream b c.part (s.tapOn n)).syncQ n).done c

def execIntakeStreamConfig (dt id : Nat) (s : State) : Host.Outcome State Fault Refusal := runCmd dt id 0x0302 intakeStreamConfig s

/-- Whether the check locations of R177 go together for a stream of this kind. -/
def e2eOk (b : Bytes) (kind : Nat) : Bool :=
  let g := numAt b
  let cl := g 1 1
  let alg := g 3 1
  let loc := g 8 1
  decide (g 0 1 ≤ 63 ∧ cl ≤ 4 ∧ alg ≤ 4 ∧ loc ≤ 4 ∧ (alg = 0 ↔ loc = 0) ∧ (alg = 4 ↔ loc = 4) ∧ ((cl = 1 ∨ loc = 1) → kind = 1) ∧
    g 9 1 ≤ 1) && (cl == 0 || [8, 16, 32].contains (g 2 1))

/-- A stream takes the checks of the 16 parameter bytes of R185. -/
def State.configE2e (s : State) (b : Bytes) (owner : Nat) : State :=
  let g := numAt b
  s.modStrm (g 0 1) fun x => { x with
    owner := match x.owner with | some p => some p | none => some owner,
    slotOn := false, prevCnt := none, prevTs := none, index := none,
    e2e := { cntLoc := g 1 1, cntWidth := g 2 1, chkAlg := g 3 1, cntOff := g 4 2, chkOff := g 6 2, chkLoc := g 8 1,
             stampChk := (g 9 1).testBit 0, cover := g 0xC 4 } }

/-- INTAKE_E2E_CONFIG: R177, R185. -/
def intakeE2eConfig (c : Cmd) (s : State) : State :=
  let b := cut c.params 0 16
  let n := c.p 0x20 1
  s.firstFail c [(!(e2eOk b (s.strmKind n)), stBadParam), (s.foreignStream n c.part, stNotPermitted), (s.strmOn n, stBusy)] fun s =>
    (s.configE2e b c.part).done c

def execIntakeE2eConfig (dt id : Nat) (s : State) : Host.Outcome State Fault Refusal := runCmd dt id 0x0303 intakeE2eConfig s

/-- Whether the profile refuses to enable a stream, R178. -/
def State.profileRefuses (s : State) (n : Nat) : Bool :=
  !(bit (s.reg .siuCtl) 0) && (decide (8 ≤ ((List.range 64).filter s.strmOn).length) || !((s.strm n).e2e.carries))

/-- A stream becomes ACQUIRING, R174. -/
def State.enableStream (s : State) (n : Nat) : State :=
  let s := s.modReg (.siuStreamCtl n) fun v => setBit v 31 true
  let s := s.modStrm n fun x => { x with cur := none, ethN := 0, fit := [], fails := 0, resync := false, leads := [], slotOn := false,
                                         index := none, lastStart := s.ns }
  ((s.modReg (.siuStreamState n) fun v => setBit (setBit v 6 false) 4 false).setAlign n 1 |>.ptpStart n).assignSlots

/-- INTAKE_STREAM_ENABLE: R178, R185. -/
def intakeStreamEnable (c : Cmd) (s : State) : State :=
  let n := c.p 0x20 1
  s.firstFail c [(decide (63 < n) || s.strmKind n == 0, stBadParam),
      (s.foreignStream n c.part || (!(s.strmOn n) && s.profileRefuses n), stNotPermitted)] fun s =>
    let s := if s.strmOn n then s else s.enableStream n
    s.doneWith c (leBytes 1 (s.fldOf (.siuStreamState n) 24 8))

def execIntakeStreamEnable (dt id : Nat) (s : State) : Host.Outcome State Fault Refusal := runCmd dt id 0x0304 intakeStreamEnable s

/-- A stream goes OFF: its frame in progress is closed, R174, R182. -/
def State.disableStream (s : State) (n : Nat) : State :=
  let s := (s.closeFrame n).modStrm n fun x => { x with cur := none, resync := false, slotOn := false }
  ((s.modReg (.siuStreamCtl n) fun v => setBit v 31 false).setAlign n 0 |>.modReg (.siuStreamState n) fun v => setBit v 4 false).assignSlots

/-- INTAKE_RESYNC: takes effect at the next frame start, R174, R185. -/
def intakeResync (c : Cmd) (s : State) : State :=
  let n := c.p 0x20 1
  s.firstFail c [(decide (63 < n), stBadParam), (s.foreignStream n c.part, stNotPermitted), (s.align n == 0, stBadParam)] fun s =>
    (s.modStrm n fun x => { x with resync := true }).done c

def execIntakeResync (dt id : Nat) (s : State) : Host.Outcome State Fault Refusal := runCmd dt id 0x0306 intakeResync s

/-- INTAKE_SET_PROFILE: R178. -/
def intakeSetProfile (c : Cmd) (s : State) : State :=
  let p := c.p 0x20 1
  s.firstFail c [(decide (1 < p), stBadParam), ((List.range 64).any s.strmOn, stBusy)] fun s => (s.setFldOf .siuCtl 0 1 p).done c

def execIntakeSetProfile (dt id : Nat) (s : State) : Host.Outcome State Fault Refusal := runCmd dt id 0x0307 intakeSetProfile s

/-- Bytes 0x00 to 0x5F of a stream bank, R183; SIU_Q_DROP_REST is write-only and reads 0. -/
def State.streamBank (s : State) (n : Nat) : Bytes :=
  let r4 := fun (r : Reg) => leBytes 4 (s.reg r).toNat
  let r8 := fun (r : Reg) => leBytes 8 (s.reg r).toNat
  r4 (.siuStreamCtl n) ++ r4 (.siuStreamSrc n) ++ r4 (.siuStreamPeriod n) ++ r4 (.siuStreamSlat n) ++ r4 (.siuStreamState n) ++
  r4 (.siuStreamFlags n) ++ r8 (.siuStreamAnchorX n) ++ r8 (.siuStreamAnchorT n) ++ r4 (.siuStreamRate n) ++ r4 (.siuStreamResid n) ++
  r4 (.siuStreamWmark n) ++ r4 (.siuStreamFrozenCtl n) ++ r8 (.siuStreamSig n) ++ r4 (.siuStreamFrames n) ++ r4 (.siuStreamDrops n) ++
  r4 (.siuQCfg n) ++ r4 (.siuQStat n) ++ leBytes 4 0 ++ r4 (.siuQCnt n) ++ r4 (.siuE2eCnt n) ++ r4 (.siuStreamSel n)

/-- INTAKE_STREAM_STATUS: R185. -/
def intakeStreamStatus (c : Cmd) (s : State) : State :=
  let n := c.p 0x20 1
  s.firstFail c [(decide (63 < n), stBadParam), (s.foreignStream n c.part, stNotPermitted)] fun s => s.doneWith c (s.streamBank n)

def execIntakeStreamStatus (dt id : Nat) (s : State) : Host.Outcome State Fault Refusal := runCmd dt id 0x0308 intakeStreamStatus s

/-- A TB0 step shifts the models and what the SIU holds on TB0 at the same tick, R138, R175. -/
def State.shiftModels (s : State) (off : Int) : State :=
  let sh := fun (t : Nat) => ((t : Int) + off).toNat
  (List.range 64).foldl (fun s n =>
    let s := if s.align n ≠ 0 then s.modReg (.siuStreamAnchorT n) fun v => BitVec.ofNat 64 (sh v.toNat) else s
    s.modStrm n fun x => { x with
      fit := x.fit.map fun p => (p.1, sh p.2),
      cur := x.cur.map fun f => { f with y := sh f.y, first := sh f.first, last := sh f.last } }) s

/-- A partition restart flushes the queues of its streams and counts the flush; models and alignment stay, R182. -/
def State.flushStreams (s : State) (p : Nat) : State :=
  (List.range 64).foldl (fun s n =>
    if (s.strm n).owner = some p then
      ((s.emptyQ n).loseFrame n).modStrm n fun x => { x with flushes := x.flushes + 1, dropPending := x.dropPending || x.cur.isSome }
    else s) s

end Sys2Proof.Machine
end

