-- ==== Sys2Proof/Machine/Ego.lean ====
section
/-! DEFINITION. Churn's ego-motion filter, its history, and the transform table: R199 to R206. -/
namespace Sys2Proof.Machine

/-- Whether the function of a kind and index is disabled, R108. -/
def State.funcOff (s : State) (kind idx : Nat) : Bool := s.ccx.funcs.any fun f => f.kind == kind && f.idx == idx

def State.sched (s : State) (i : Nat) : Sched := sget {} s.chn.scheds i

def State.setSched (s : State) (i : Nat) (x : Sched) : State := { s with chn := { s.chn with scheds := sset {} s.chn.scheds i x } }

def State.modSched (s : State) (i : Nat) (f : Sched → Sched) : State := s.setSched i (f (s.sched i))

def State.schedOn (s : State) (i : Nat) : Bool := bit (s.reg (.chnSchedCtl i)) 31
def State.schedOwner (s : State) (i : Nat) : Nat := s.fldOf (.chnSchedCtl i) 26 3

/-! Transforms, R204 to R206 -/

/-- The version of an entry in force at a TB0 instant: the latest effective at or before it. -/
def Chn.verAt (c : Chn) (i t : Nat) : Option XVer :=
  (sget {} c.xforms i).vers.foldl (fun (b : Option XVer) v =>
    if v.effective ≤ t then
      match b with
      | none => some v
      | some w => if w.effective < v.effective then some v else b
    else b) none

/-- The rotation of a transform entry at an instant; the identity where none is in force. -/
def Chn.rotAt (c : Chn) (i t : Nat) : M3 :=
  match c.verAt i t with | some v => v.rot | none => {}

/-- The owner of a schedule: a schedule that nobody has opened belongs to anyone (log entry 50). -/
def State.ownsSched (s : State) (j part : Nat) : Bool := !(s.sched j).opened || s.schedOwner j == part

/-- Whether a schedule's owner runs: in a partition that is DEFINED a schedule stands still, R114. -/
def State.schedRuns (s : State) (j : Nat) : Bool := s.runsWork (s.schedOwner j)

/-- The composed transform of a chain of at most 4 links to the body frame, and the versions used; none is the verdict XFORM. -/
def Chn.chain (c : Chn) (t : Nat) : Nat → Nat → Option (Rigid × List (Nat × Nat))
  | 0, _ => none
  | fuel + 1, i =>
    match c.verAt i t with
    | none => none
    | some v =>
      if !v.valid then none
      else
        let own : Rigid := ⟨v.rot, v.trans⟩
        if v.parent = 0xFF then some (own, [(i, v.version)])
        else match c.chain t fuel v.parent with
          | none => none
          | some (g, l) => some (g.mul own, (i, v.version) :: l)

/-- Whether a rotation departs from orthonormal by at most 1 × 10^−4 in any element, R206. -/
def M3.orthonormal (m : M3) : Bool :=
  let p := m.mul m.tr
  ([p.a.x - 1, p.a.y, p.a.z, p.b.x, p.b.y - 1, p.b.z, p.c.x, p.c.y, p.c.z - 1]).all fun d => decide (absR d ≤ 1 / 10000)

/-- Whether n FP32 values from an offset are all finite. -/
def finiteAt (b : Bytes) (o n : Nat) : Bool := (List.range n).all fun i => (f32? (f32At b (o + 4 * i))).isSome

/-- The latest closed instants of the enabled schedules lie before an instant. -/
def State.afterClosed (s : State) (t : Nat) : Bool :=
  (List.range 4).all fun i => !(s.schedOn i) ||
    (match (s.sched i).lastClosed with | some l => decide (l < t) | none => true)

/-- CHURN_SET_TRANSFORM: R206. -/
def churnSetTransform (c : Cmd) (s : State) : State :=
  let i := c.p 0x20 1
  let b := cut c.params 8 60
  let e := sget {} s.chn.xforms i
  let eff := numAt b 0x30 8
  let par := numAt b 0x3A 1
  let rot : M3 := ⟨V3.at b 0, V3.at b 12, V3.at b 24⟩
  let stale := match e.vers.head? with | some v => decide (eff ≤ v.effective) | none => false
  s.firstFail c [(decide (127 < i) || (decide (127 < par) && par != 0xFF), stBadParam),
      (match e.owner with | some p => p != c.part | none => false, stNotPermitted),
      (!(finiteAt b 0 12) || !rot.orthonormal || !(s.afterClosed eff) || stale, stBadParam)] fun s =>
    let v : XVer := { rot := rot, trans := V3.at b 0x24, effective := eff, version := e.next % 65536, parent := par,
                      valid := (numAt b 0x3B 1).testBit 0 }
    let e : XEntry := { owner := some (e.owner.getD c.part), vers := (v :: e.vers).take 8, next := e.next + 1 }
    ({ s with chn := { s.chn with xforms := sset {} s.chn.xforms i e } }).doneWith c (leBytes 2 v.version)

def execChurnSetTransform (dt id : Nat) (s : State) : Host.Outcome State Fault Refusal := runCmd dt id 0x0405 churnSetTransform s

/-! The filter, R200, R202 -/

def gravity : Rat := 980665 / 100000

/-- Body velocity from a new encoder sample pair, when both wheels have one. -/
def Ego.wheelPair (g : Ego) (k : EgoCfg) : Ego :=
  match g.newL, g.newR with
  | some l, some r =>
    let v := match g.prevL, g.prevR with
      | some pl, some pr =>
        let dt : Rat := ((l.1 : Int) - (pl.1 : Int) : Int) / 1000000000
        if dt = 0 ∨ k.ticks = 0 then g.v
        else { x := (((l.2 - pl.2 : Int) : Rat) + ((r.2 - pr.2 : Int) : Rat)) / 2 / k.ticks / dt }
      | _, _ => g.v
    { g with v := v, prevL := some l, prevR := some r, newL := none, newR := none }
  | _, _ => g

/-- The pose update over dt seconds at a body rate and velocity, without tilt correction. -/
def Ego.move (g : Ego) (wb : V3) (dt : Rat) : Ego :=
  let q := (g.q.mul (Quat.ofVec (wb.scale dt))).normalise
  { g with q := q, wb := wb, p := g.p.add ((q.mat.app g.v).scale dt) }

/-- How many multiples of 1 / ego_rate_hz an instant has reached, R202. -/
def EgoCfg.marks (k : EgoCfg) (t : Nat) : Nat := t * k.rate / 1000000000

/-- A sample of the inertial unit: pose, tilt and position, with the held rate and velocity across a gap (R201), then the history
entry, at the first sample at or after a mark (R202). `period` is the unit's stream period. -/
def Ego.imu (g : Ego) (k : EgoCfg) (m : M3) (period stamp : Nat) (gyro accel : V3) (valid : Bool) : Ego :=
  match g.last with
  | none => { g with last := some stamp }
  | some l =>
    let dt : Rat := ((stamp : Int) - (l : Int) : Int) / 1000000000
    let gap := decide (l + 4 * period < stamp)
    let wb := if gap then g.wb else m.app (gyro.sub k.bias)
    let ab := m.app accel
    let q := (g.q.mul (Quat.ofVec (wb.scale dt))).normalise
    let n := ab.norm
    let q := if decide (absR (n - gravity) < 1 / 2) then
        let up := (q.mat.app ab).scale (1 / n)
        ((Quat.ofVec ((up.cross ⟨0, 0, 1⟩).scale (1 / ((2 ^ k.kTilt : Nat) : Rat)))).mul q).normalise
      else q
    let g := { g with q := q, wb := wb, p := g.p.add ((q.mat.app g.v).scale dt), last := some stamp }
    if k.marks l < k.marks stamp then
      let e : EgoEntry := { stamp := stamp, p := g.p, q := g.q, v := g.v, wb := g.wb, valid := valid && !gap }
      { g with hist := (g.hist ++ [e]).drop (g.hist.length + 1 - 4096) }
    else g

/-- One input of the filter. -/
def Ego.step (g : Ego) (k : EgoCfg) (rot : Nat → M3) (period : Nat) (valid : Bool) (i : EgoIn) : Ego :=
  match i.val with
  | .imu gy ac => g.imu k (rot i.stamp) period i.stamp gy ac valid
  | .wheel left pos => (if left then { g with newL := some (i.stamp, pos) } else { g with newR := some (i.stamp, pos) }).wheelPair k
  | .ext v => { g with v := v }

/-- Inserts an input by its stamp, after those of the same stamp. -/
def insertIn (l : List EgoIn) (i : EgoIn) : List EgoIn :=
  (l.takeWhile fun x => decide (x.stamp ≤ i.stamp)) ++ [i] ++ (l.dropWhile fun x => decide (x.stamp ≤ i.stamp))

/-- CHN_EGO_STAT and CHN_EGO_NEWEST show the history, R215. -/
def State.syncEgo (s : State) : State :=
  let s := s.setFldOf .chnEgoStat 16 13 s.chn.ego.hist.length
  match s.chn.ego.hist.getLast? with
  | some e => s.setReg .chnEgoNewest (BitVec.ofNat 64 e.stamp)
  | none => s.setReg .chnEgoNewest 0

def State.egoValid (s : State) : Bool := bit (s.reg .chnEgoStat) 0

def State.imuPeriod (s : State) : Nat := s.strmPeriod s.chn.egoCfg.imu

/-- An input reaches the filter: in order it takes one step; a late one re-runs the filter from its stamp onward, R211. -/
def State.egoInput (s : State) (i : EgoIn) (rerun : Bool) : State :=
  let c := s.chn
  let f := fun (g : Ego) (x : EgoIn) => g.step c.egoCfg (fun t => c.rotAt c.egoCfg.xform t) s.imuPeriod s.egoValid x
  let newest := match c.egoIns.getLast? with | some x => x.stamp | none => 0
  let ins := insertIn c.egoIns i
  let late := rerun && decide (i.stamp < newest)
  let g := if late then ins.foldl f {} else f c.ego i
  let keep := fun (e : EgoEntry) => match c.ego.hist.find? fun o => o.stamp == e.stamp with
    | some o => { e with valid := o.valid } | none => e
  let g := if late then { g with hist := g.hist.map keep } else g
  ({ s with chn := { c with ego := g, egoIns := if late then ins else c.egoIns ++ [i] } }).syncEgo

/-- Whether the filter bridges a gap now, R201: no eligible inertial sample has come for more than 4 periods since the newest one came. -/
def State.egoGap (s : State) : Bool :=
  match s.chn.imuAt with
  | some l => decide (l + 4 * s.imuPeriod < s.ns)
  | none => false

/-- Whether the external vector is older than 100,000,000 ns, R201. -/
def State.extStale (s : State) : Bool :=
  match s.chn.extAt with
  | some t => decide (t + 100000000 < s.ns)
  | none => true

/-- Whether ego is valid, R201; before the first inertial sample it is not (log entry 89). -/
def State.egoGood (s : State) : Bool :=
  let k := s.chn.egoCfg
  k.imu != 255 && s.align k.imu == 2 && !(s.frozen k.imu) && s.chn.imuAt.isSome && !s.egoGap &&
  (k.src != 0 || (s.align k.wheelL == 2 && s.align k.wheelR == 2)) && (k.src != 1 || !s.extStale)

/-- Ego's condition is evaluated, once CHURN_SET_EGO has run; a transition raises its event, R201, R215. -/
def State.egoCheck (s : State) : State :=
  let k := s.chn.egoCfg
  if s.chn.egoSet = false then s
  else
    let was := s.egoValid
    let good := s.egoGood
    let gap := s.egoGap
    let wasGap := bit (s.reg .chnEgoStat) 1
    let noVel := k.src == 2 || (k.src == 1 && s.chn.extAt.isNone)
    let s := s.modReg .chnEgoStat fun v =>
      setBit (setBit (setBit (setBit v 0 good) 1 gap) 2 s.extStale) 3 noVel
    let s := if gap && !wasGap then s.countSat .chnEgoCnt 16 16 else s
    if was && !good then (s.countSat .chnEgoCnt 0 16).raise 0x0405 0
    else if !was && good then s.raise 0x0406 0
    else s

/-- EGO_INVALID_TIMEOUT: no eligible sample for 4 periods, or no external vector for 100,000,000 ns. -/
def execEgoInvalidTimeout (dt : Nat) (s : State) : Host.Outcome State Fault Refusal := runEvent dt State.egoCheck s

/-- Who may commit the external vector: the reflex lane's cores, or a control core, R200. -/
def extWriter : Writer → Bool
  | .host => false
  | .bivexa => true
  | .p0 => true

/-- EGO_EXT_T_WRITE: the write commits the vector of CHN_EGO_EXT_VX to VZ with its TB0 stamp. -/
def egoExtT (who : Writer) (v : W64) (s : State) : State :=
  if !(extWriter who) then s
  else
    let s := s.setReg .chnEgoExtT v
    let w : V3 := ⟨f32Rat ((s.reg .chnEgoExtVx).setWidth 32), f32Rat ((s.reg .chnEgoExtVy).setWidth 32),
      f32Rat ((s.reg .chnEgoExtVz).setWidth 32)⟩
    let s := { s with chn := { s.chn with extAt := some s.ns } }
    (if s.chn.egoCfg.src = 1 then s.egoInput ⟨v.toNat, .ext w⟩ false else s).egoCheck

def execEgoExtTWrite (dt : Nat) (who : Writer) (v : W64) (s : State) : Host.Outcome State Fault Refusal :=
  runEvent dt (egoExtT who v) s

/-! The pose at an instant, R203 -/

/-- Linear interpolation. -/
def V3.mix (a b : V3) (u : Rat) : V3 := (a.scale (1 - u)).add (b.scale u)

/-- Normalised linear interpolation along the shorter arc. -/
def Quat.mix (a b : Quat) (u : Rat) : Quat :=
  let k : Rat := if a.w * b.w + a.x * b.x + a.y * b.y + a.z * b.z < 0 then -u else u
  let m := 1 - u
  Quat.normalise ⟨m * a.w + k * b.w, m * a.x + k * b.x, m * a.y + k * b.y, m * a.z + k * b.z⟩

/-- The pose at a TB0 instant; none outside the history and its extrapolation, or beside an invalid entry. -/
def Chn.poseAt (c : Chn) (t : Nat) : Option Pose :=
  let before := (c.ego.hist.filter fun e => decide (e.stamp ≤ t)).getLast?
  let after := c.ego.hist.find? fun e => decide (t < e.stamp)
  match before, after with
  | some a, some b =>
    if a.valid && b.valid then
      let u : Rat := ((t - a.stamp : Nat) : Rat) / ((b.stamp - a.stamp : Nat) : Rat)
      some { p := a.p.mix b.p u, q := a.q.mix b.q u, v := a.v.mix b.v u, wb := a.wb.mix b.wb u }
    else none
  | some a, none =>
    if a.valid && decide (t ≤ a.stamp + c.egoCfg.extrap) then
      let g := ({ p := a.p, q := a.q, v := a.v, wb := a.wb } : Ego).move a.wb (((t - a.stamp : Nat) : Rat) / 1000000000)
      some { p := g.p, q := if a.stamp = t then a.q else g.q, v := a.v, wb := a.wb, extrap := decide (a.stamp < t) }
    else none
  | _, _ => none

def Pose.rigid (p : Pose) : Rigid := ⟨p.q.mat, p.p⟩

/-! CHURN_SET_EGO, R199 -/

/-- The span of the ego history in ns, R202; a schedule opened before any ego configuration is held to the default rate. -/
def State.egoSpan (s : State) : Nat := 4096 * 1000000000 / Nat.max 1 s.chn.egoCfg.rate

def egoParse (c : Cmd) : EgoCfg :=
  let b := c.params
  { imu := c.p 0x20 1, wheelL := c.p 0x21 1, wheelR := c.p 0x22 1, src := c.p 0x23 1, fmt := c.p 0x24 1, kTilt := c.p 0x25 1,
    off := c.p 0x26 2, gyroScale := f32Rat (f32At b 8), accelScale := f32Rat (f32At b 12), ticks := f32Rat (f32At b 16),
    rate := c.p 0x34 2, xform := c.p 0x36 1, extrap := c.p 0x38 4, bias := V3.at b 0x1C }

def egoFieldsOk (c : Cmd) : Bool :=
  let imu := c.p 0x20 1
  decide ((imu ≤ 63 ∨ imu = 255) ∧ c.p 0x23 1 ≤ 2 ∧ (c.p 0x23 1 = 0 → c.p 0x21 1 ≤ 63 ∧ c.p 0x22 1 ≤ 63) ∧ c.p 0x24 1 ≤ 1 ∧
    c.p 0x25 1 ≤ 15 ∧ c.p 0x26 2 ≤ 96 ∧ 100 ≤ c.p 0x34 2 ∧ c.p 0x34 2 ≤ 4000 ∧ c.p 0x36 1 ≤ 127 ∧ c.p 0x38 4 ≤ 100000000) &&
  finiteAt c.params 8 3 && finiteAt c.params 0x1C 3

/-- CHURN_SET_EGO: the commit resets the odometry frame and empties the history. Streams of another partition are refused
(log entry 49). -/
def churnSetEgo (c : Cmd) (s : State) : State :=
  let k := egoParse c
  let named := (if k.imu = 255 then [] else [k.imu]) ++ (if k.src = 0 then [k.wheelL, k.wheelR] else [])
  s.firstFail c [(!(egoFieldsOk c), stBadParam), (named.any fun n => s.foreignStream n c.part && s.strmPart n != 0, stNotPermitted),
      ((List.range 4).any s.schedOn, stBusy)] fun s =>
    let s := { s with chn := { s.chn with egoCfg := k, ego := {}, egoIns := [], extAt := none, egoSet := true, imuAt := none } }
    (s.syncEgo.egoCheck).done c

def execChurnSetEgo (dt id : Nat) (s : State) : Host.Outcome State Fault Refusal := runCmd dt id 0x0404 churnSetEgo s

end Sys2Proof.Machine
end

