-- ==== Sys2Proof/Machine/Align.lean ====
section
/-! DEFINITION. Churn's fusion schedules, selection, deskew and instant records: R189 to R198, R207 to R217. -/
namespace Sys2Proof.Machine

/-! Points of a WINDOW stream, R220, R221 -/

def State.pointFmt (s : State) (n : Nat) : PointFmt := sget {} s.chn.fmts n

/-- One coordinate; none when it is not finite. -/
def PointFmt.coordAt (f : PointFmt) (b : Bytes) (o : Nat) : Option Rat :=
  if f.coord = 0 then f32? (f32At b o)
  else if f.coord = 1 then some (((sgn 16 (numAt b o 2) : Int) : Rat) * f.scale)
  else some (((sgn 32 (numAt b o 4) : Int) : Rat) * f.scale)

/-- The decoded time offset of a point in ns. -/
def PointFmt.timeAt (f : PointFmt) (b : Bytes) : Nat :=
  if f.time = 0 then 0 else if f.time = 1 then numAt b f.tof 4 else if f.time = 2 then numAt b f.tof 4 * f.unit
  else numAt b f.tof 2 * f.unit

def PointFmt.intAt (f : PointFmt) (b : Bytes) : Nat :=
  if f.int_ = 0 then 0 else if f.int_ = 1 then numAt b f.io 1 else numAt b (f.io + 1) 1

/-- A point of a frame: its time, and its sensor-frame point unless it is invalid. -/
def PointFmt.point (f : PointFmt) (stream stamp : Nat) (b : Bytes) : Nat × Option Pt :=
  let t := stamp + f.timeAt b
  match f.coordAt b f.xo, f.coordAt b f.yo, f.coordAt b f.zo with
  | some x, some y, some z =>
    let p : V3 := ⟨x, y, z⟩
    if (x = 0 ∧ y = 0 ∧ z = 0) ∨ p.dot p < f.minRange * f.minRange then (t, none)
    else (t, some { stream := stream, time := t, pos := p, int_ := f.intAt b, src := p })
  | _, _, _ => (t, none)

/-- Every point of a frame in order, with its time. -/
def PointFmt.points (f : PointFmt) (stream : Nat) (p : PFrame) : List (Nat × Option Pt) :=
  p.pkts.flatMap fun b =>
    (List.range ((b.length - f.skip) / Nat.max 1 f.stride)).map fun i => f.point stream p.stamp ((b.drop (f.skip + i * f.stride)).take f.stride)

/-! Eligibility, R197 -/

/-- The verdict of the first failing condition of header flags, in the order of R210; 0 when the data is eligible. -/
def flagVerdict (f : BitVec 16) : Nat :=
  if bit f 2 ∨ bit f 9 then 1
  else if bit f 3 then 2
  else if bit f 12 ∨ bit f 10 then 3
  else if bit f 4 ∧ (bit f 5 ∨ bit f 6 ∨ bit f 7) then 4
  else 0

/-- The least nonzero code of a list: the first failing condition; MISSING when there is none. -/
def firstVerdict (l : List Nat) : Nat := (l.filter (· != 0)).foldl Nat.min 6

/-! Selection, R198, R207 -/

def State.role (s : State) (n : Nat) : Option Role := (s.chn.roles.find? fun r => r.1 == n).map (·.2)

/-- Whether a stream's queue was reset from an instant on, R210. -/
def State.resetSince (s : State) (n from_ : Nat) : Bool := (s.strm n).resets.any fun t => decide (from_ ≤ t)

/-- What an entry of a stream uses: the mount with its versions, none being the verdict XFORM. -/
def State.mount (s : State) (r : Role) (t : Nat) : Option (Rigid × List (Nat × Nat)) :=
  if r.xform = 0xFF then some ({}, []) else s.chn.chain t 4 r.xform

/-- The codes of the conditions that a stream itself fails at a close: not ALIGNED, or its queue was reset. -/
def State.streamCodes (s : State) (n from_ : Nat) : List Nat :=
  (if s.align n = 2 then [] else [1]) ++ (if s.resetSince n from_ then [5] else [])

def natDist (a b : Nat) : Nat := (a - b) + (b - a)

/-- The frames of a NEAREST stream within half a period of t. -/
def State.nearFrames (s : State) (i : Inst) (n : Nat) : List Sample :=
  (sget [] s.chn.samples n).filter fun x => decide (2 * natDist x.stamp i.t ≤ s.strmPeriod n)

/-- The verdict code of a frame; one whose ring address has not been reported is not eligible and counts as MISSING, R196. -/
def Sample.code (x : Sample) : Nat := if flagVerdict x.flags ≠ 0 then flagVerdict x.flags else if x.addr.isNone then 6 else 0

/-- NEAREST: the eligible frame nearest t within half a period, the earlier of two. Its place is the transform of R207; a pose that is missing
comes before a mount that is, R210. -/
def State.pickNearest (s : State) (i : Inst) (pt : Option Pose) (static : Bool) (n : Nat) (r : Role) : REntry :=
  let near := s.nearFrames i n
  let good := near.filter fun x => x.code == 0
  let bad := near.filter fun x => x.code != 0
  let best := good.foldl (fun (b : Option Sample) x =>
    match b with
    | none => some x
    | some y => if natDist x.stamp i.t < natDist y.stamp i.t ∨ (natDist x.stamp i.t = natDist y.stamp i.t ∧ x.stamp < y.stamp) then some x
      else b) none
  let codes := bad.map Sample.code ++ s.streamCodes n i.t
  let e : REntry := { stream := n, sel := 0, excluded := bad.length }
  match best with
  | none => { e with verdict := firstVerdict codes }
  | some x =>
    let fill := fun (place : Rigid → Rigid) (flags : Nat) =>
      match s.mount r i.t with
      | none => { e with verdict := 8 }
      | some (mnt, links) =>
        { e with count := 1, ref := x.addr.getD 0, frame := x.frame, first := x.stamp, last := x.stamp, links := links, eflags := flags,
                 xver := (match links.head? with | some l => l.2 | none => 0xFFFF), place := place mnt }
    match pt with
    | none => if static then fill (fun m => m) 8 else { e with verdict := 7 }
    | some p =>
      match s.chn.poseAt x.stamp with
      | none => { e with verdict := 7, excluded := bad.length + 1 }
      | some f => fill (fun m => (p.rigid.inv.mul f.rigid).mul m) 0

/-- BRACKET: the samples on either side of t and the weight in Q0.16. -/
def State.pickBracket (s : State) (i : Inst) (n : Nat) (r : Role) : REntry :=
  let per := s.strmPeriod n
  let l := sget [] s.chn.samples n
  let good := l.filter fun x => flagVerdict x.flags == 0
  let b := good.foldl (fun (m : Option Sample) x =>
    if x.stamp ≤ i.t then (match m with | some y => if y.stamp ≤ x.stamp then some x else m | none => some x) else m) none
  let a := good.foldl (fun (m : Option Sample) x =>
    if i.t < x.stamp then (match m with | some y => if x.stamp < y.stamp then some x else m | none => some x) else m) none
  let bad := l.filter fun x => flagVerdict x.flags != 0 && decide (natDist x.stamp i.t ≤ 4 * per) &&
    (match b with | some y => decide (y.stamp ≤ x.stamp) | none => true) && (match a with | some y => decide (x.stamp ≤ y.stamp) | none => true)
  let e : REntry := { stream := n, sel := 1, excluded := bad.length }
  let codes := bad.map (fun x => flagVerdict x.flags) ++ s.streamCodes n i.t
  let fill := fun (e : REntry) (b : Sample) =>
    match s.mount r i.t with
    | none => { stream := n, sel := 1, excluded := bad.length, verdict := 8 }
    | some (mnt, links) =>
      { e with ref := 0x2000 + 0x100 * n, frame := b.frame, first := b.stamp, before := some b.bytes, place := mnt, links := links,
               xver := match links.head? with | some l => l.2 | none => 0xFFFF }
  match b, a with
  | some b, some a =>
    if a.stamp - b.stamp ≤ 4 * per then
      let d := a.stamp - b.stamp
      let w := (2 * (i.t - b.stamp) * 65536 + d) / (2 * d)
      let e := fill { e with count := 2, weight := Nat.min w 65535, last := a.stamp } b
      if e.verdict = 0 then { e with after := some a.bytes } else e
    else { e with verdict := firstVerdict codes }
  | some b, none =>
    if i.t - b.stamp ≤ s.chn.egoCfg.extrap then fill { e with count := 1, eflags := 1, last := b.stamp } b
    else { e with verdict := firstVerdict codes }
  | none, _ => { e with verdict := firstVerdict codes }

/-- A WINDOW point brought to the body frame at t; none when its own time has no pose, R207. -/
def State.deskew (s : State) (mnt : Rigid) (pt : Option Pose) (p : Pt) : Option Pt :=
  match pt with
  | none => some { p with pos := mnt.app p.pos }
  | some g =>
    match s.chn.poseAt p.time with
    | none => none
    | some f => some { p with pos := (g.rigid.inv.mul f.rigid).app (mnt.app p.pos) }

/-- The window of a WINDOW stream, R195. -/
def State.roleWindow (s : State) (n : Nat) (r : Role) : Nat := if r.window = 0 then s.strmPeriod n else r.window

/-- Whether two points are the same point of the sensor. -/
def Pt.same (p q : Pt) : Bool := p.stream == q.stream && p.time == q.time && p.src == q.src && p.int_ == q.int_

/-- The points of a WINDOW stream's window, by frame, with the frame's verdict code. -/
def State.windowPts (s : State) (i : Inst) (n : Nat) (r : Role) : List (Nat × List (Nat × Option Pt)) :=
  let w := s.roleWindow n r
  let f := s.pointFmt n
  let all := (sget [] s.chn.frames n).map fun p =>
    (flagVerdict p.flags, (f.points n p).filter fun q => decide (i.t < q.1 + w ∧ q.1 ≤ i.t))
  all.filter fun x => !x.2.isEmpty

/-- WINDOW: every eligible point timed in (t − window, t], and the points carried in, each once, deskewed to t. -/
def State.pickWindow (s : State) (i : Inst) (pt : Option Pose) (static : Bool) (carry : List Pt) (n : Nat) (r : Role) :
    REntry × List Pt :=
  let w := s.roleWindow n r
  let all := s.windowPts i n r
  let good := (all.filter fun x => x.1 == 0).flatMap (·.2)
  let bad := (all.filter fun x => x.1 != 0)
  let mine := carry.filter fun p => p.stream == n
  let decoded := good.filterMap (·.2)
  let valid := decoded.filter fun q => !(mine.any q.same)
  let excluded := (bad.foldl (fun k x => k + x.2.length) 0) + (good.length - decoded.length)
  let codes := bad.map (·.1) ++ s.streamCodes n (i.t - w)
  let e : REntry := { stream := n, sel := 2, excluded := excluded }
  if valid.isEmpty && mine.isEmpty then ({ e with verdict := firstVerdict codes }, [])
  else if (pt.isNone && !static) || (pt.isSome && (valid ++ mine).all fun p => (s.chn.poseAt p.time).isNone) then ({ e with verdict := 7 }, [])
  else match s.mount r i.t with
    | none => ({ e with verdict := 8 }, [])
    | some (mnt, links) =>
      let put := (valid ++ mine).filterMap (s.deskew mnt pt)
      let e := { e with
        links := links, xver := match links.head? with | some l => l.2 | none => 0xFFFF
        place := mnt, count := put.length, excluded := excluded + ((valid ++ mine).length - put.length)
        carried := (put.filter (·.carried)).length
        eflags := (if pt.isNone then 8 else 0) + (if put.any (·.carried) then 4 else 0)
        first := put.foldl (fun m p => Nat.min m p.time) ((put.head?.map (·.time)).getD 0)
        last := put.foldl (fun m p => Nat.max m p.time) 0 }
      if put.isEmpty then ({ e with verdict := 7 }, []) else (e, put)

/-- The masked streams of a schedule, ascending. -/
def Sched.streams (c : Sched) : List Nat := bitsOf 64 c.mask

/-- The ineligible data that a stream has for an instant, R197. -/
def State.ineligible (s : State) (i : Inst) (n : Nat) (r : Role) : Nat :=
  if r.sel = 0 then ((s.nearFrames i n).filter fun x => x.code != 0).length
  else if r.sel = 1 then (s.pickBracket i n r).excluded
  else ((s.windowPts i n r).foldl (fun k x => k + (if x.1 = 0 then (x.2.filter fun q => q.2.isNone).length else x.2.length)) 0)

/-- Selection and deskew of an instant over its masked streams; `undecided` take MISSING, R193. -/
def State.selectInst (s : State) (j : Nat) (i : Inst) (undecided : List Nat) (carry : List Pt) : Inst :=
  let c := s.sched j
  let pt := s.chn.poseAt i.t
  let static := bit (s.reg (.chnSchedCtl j)) 29
  let picks := c.streams.map fun n =>
    match s.role n with
      | none => (({ stream := n, sel := 0, verdict := 6 } : REntry), ([] : List Pt))
      | some r =>
        if undecided.contains n then ({ stream := n, sel := r.sel, verdict := 6, excluded := s.ineligible i n r }, [])
        else if r.sel = 0 then (s.pickNearest i pt static n r, [])
        else if r.sel = 1 then (s.pickBracket i n r, [])
        else s.pickWindow i pt static carry n r
  { i with entries := picks.map (·.1), pts := picks.flatMap (·.2), pose := pt, isStatic := pt.isNone && static }

/-! Instants, R192 to R194 -/

/-- Whether an instant of a schedule is in flight. -/
def Inst.inFlight (i : Inst) : Bool := i.state == .opened || i.state == .building

def State.updInst (s : State) (j k : Nat) (f : Inst → Inst) : State :=
  s.modSched j fun c => { c with insts := updFirst (fun i => i.k == k) f c.insts }

def State.inst? (s : State) (j k : Nat) : Option Inst := (s.sched j).insts.find? fun i => i.k == k

/-- Whether a schedule masks a WINDOW stream: it is voxelised, R225. -/
def State.voxelised (s : State) (j : Nat) : Bool :=
  (s.sched j).streams.any fun n => match s.role n with | some r => r.sel == 2 | none => false

/-- The instant of index k of a schedule. -/
def State.instantAt (s : State) (j k : Nat) : Nat := (s.sched j).first + k * (s.reg (.chnSchedPeriod j)).toNat

/-- Whether index k is an instant of the schedule. -/
def Sched.has (c : Sched) (k : Nat) : Bool := c.count == 0 || decide (k < c.count)

/-- The registers that show a schedule's instants, R214, R215. -/
def State.syncSched (s : State) (j : Nat) : State :=
  let c := s.sched j
  let s := (s.setFldOf (.chnSchedStat j) 20 4 (c.insts.filter fun i => i.state == .opened).length).setFldOf (.chnSchedStat j) 16 4
    (c.insts.filter fun i => i.state == .building).length
  let s := s.setReg (.chnSchedNext j) (if s.schedOn j && c.has c.kNext then BitVec.ofNat 64 (s.instantAt j c.kNext) else 0)
  let n := (List.range 4).foldl (fun n i => n + ((s.sched i).insts.filter Inst.inFlight).length) 0
  (s.setFldOf .chnAlignStat 24 6 n).setFldOf .chnAlignStat 0 4
    ((List.range 4).foldl (fun m i => if s.schedOn i then m + 2 ^ i else m) 0)

/-- The reasons of EV_INSTANT_DROPPED, R217: an instant is DROPPED. -/
def State.dropInst (s : State) (j t reason : Nat) : State :=
  (s.countSat (.chnSchedDrop j) 16 16).raise 0x0401 (s.schedOwner j) (evData [j, t, reason])

/-- Whether the record of index k of a schedule can no longer commit: committed, dropped or never to come, R223; a close has dropped the
PENDING instants, R216. -/
def State.instPast (s : State) (j k : Nat) : Bool :=
  let c := s.sched j
  !(s.schedOn j) || (c.closing.isSome && decide (c.kNext ≤ k)) || (decide (k < c.kNext) && !(c.insts.any fun i => i.k == k && i.inFlight))

/-- Whether a held run may be released, R223. -/
def State.runDone (s : State) (r : PRun) : Bool :=
  r.released || (s.instPast r.sched (r.k + (s.sched r.sched).vox.hold) &&
    (match s.inst? r.sched r.k with | some i => i.state == .sealed || i.rev == 3 | none => true))

/-- Occupancy of the point table, R223: a run that is released stays so, and the oldest advances over released ones. -/
def State.syncRuns (s : State) : State :=
  let head := (s.reg .chnPtHead).toNat
  let runs := (s.chn.runs.map fun (r : PRun) => { r with released := s.runDone r }).dropWhile fun r => r.released
  let old := match runs with | r :: _ => r.first | [] => head
  let s := ({ s with chn := { s.chn with runs := runs } }).setReg .chnPtOldest (BitVec.ofNat 64 old)
  s.setReg .chnPtUsed (BitVec.ofNat 64 (head - old))

/-- A schedule whose last instant is final is disabled, and a close of it commits, R192, R216. -/
def State.settleSched (s : State) (j : Nat) : State :=
  let c := s.sched j
  let live := c.insts.any fun i => i.state != .sealed
  let s := s.syncRuns
  let s := if s.schedOn j ∧ !live then
      match c.closing with
      | some x =>
        let s := (s.modReg (.chnSchedCtl j) fun v => setBit v 31 false).modSched j fun c => { c with closing := none }
        (s.setResult x.cmd 0x20 (leBytes 4 x.dropped)).finish x.cmd (match s.cmd? x.cmd with | some c => s.doneStatus c | none => 0)
      | none => if c.has c.kNext then s else s.modReg (.chnSchedCtl j) fun v => setBit v 31 false
    else s
  (s.syncSched j).syncRuns.settle

/-- INSTANT_OPEN: TB0 reaches t of the next instant, R192, R194, R507. -/
def instantOpen (j : Nat) (s : State) : State :=
  let c := s.sched j
  let t := s.instantAt j c.kNext
  if j < 4 ∧ s.schedOn j ∧ s.schedRuns j = true ∧ c.closing.isNone ∧ !c.halted ∧ c.has c.kNext ∧ t ≤ s.now then
    let k := c.kNext
    let s := s.modSched j fun c => { c with kNext := k + 1 }
    let mine := (c.insts.filter Inst.inFlight).length
    let all := (List.range 4).foldl (fun n i => n + ((s.sched i).insts.filter Inst.inFlight).length) 0
    let s := if s.funcOff 2 0 then s.dropInst j t 2
      else if 8 ≤ mine ∨ 32 ≤ all then s.dropInst j t 0
      else (s.modSched j fun c => { c with insts := c.insts ++ [{ k := k, t := t }] }).setFldOf (.chnSchedStat j) 0 16 k
    s.settleSched j
  else s

def execInstantOpen (dt sched : Nat) (s : State) : Host.Outcome State Fault Refusal := runEvent dt (instantOpen sched) s

/-- The earliest OPEN instant: instants of one schedule close in order of t, R193. -/
def Sched.firstOpen (c : Sched) : Option Inst := c.insts.find? fun i => i.state == .opened

/-- The ALIGNED masked streams whose watermark has not passed. -/
def State.undecided (s : State) (j t : Nat) : List Nat :=
  (s.sched j).streams.filter fun n => s.align n == 2 && decide (s.now < t + (s.reg (.siuStreamWmark n)).toNat)

def maskOf (l : List Nat) : Nat := l.foldl (fun m n => m + 2 ^ n) 0

/-- Whether every transform version that an instant used is still held. -/
def State.versHeld (s : State) (i : Inst) : Bool :=
  i.entries.all fun e => e.links.all fun l => (sget {} s.chn.xforms l.1).vers.any fun v => v.version == l.2

def Inst.sel (i : Inst) : InstSel := { entries := i.entries, pose := i.pose, isStatic := i.isStatic, pts := i.pts }

/-- The selection of a revision, from all data received until now, R212; none where a transform version has been overwritten. -/
def State.reviseSel (s : State) (j : Nat) (i : Inst) : Option InstSel :=
  if s.versHeld i then some (s.selectInst j i [] i.carry).sel else none

/-- Closes an instant: selection and deskew, then BUILDING; instants before it that received late data take their revision, R193,
R208, R211, R212. -/
def State.closeInst (s : State) (j : Nat) (i : Inst) (reason : Nat) (undecided : List Nat) : State :=
  let c := s.sched j
  let sel := s.selectInst j i undecided c.carry
  let s := s.modSched j fun c => { c with
    carry := [], lastClosed := some i.t
    insts := c.insts.map fun x =>
      if x.k = i.k then { sel with state := .building, reason := reason, closedAt := s.now, carry := c.carry }
      else if x.late && x.state != .sealed && x.revAfter.isNone then { x with revAfter := some i.k, revSel := s.reviseSel j x }
      else x }
  let s := if s.voxelised j then { s with chn := { s.chn with order := s.chn.order ++ [(j, i.k)] } } else s
  s.syncSched j

/-- An OPEN instant is DROPPED: its owner runs nothing, R114. -/
def State.dropOpen (s : State) (j : Nat) (i : Inst) (reason : Nat) : State :=
  ((s.modSched j fun c => { c with insts := c.insts.filter fun x => x.k != i.k }).dropInst j i.t reason).settleSched j

/-- INSTANT_CLOSE_WATERMARK: the watermarks of all held streams have passed, R193. -/
def instantCloseWatermark (j : Nat) (s : State) : State :=
  match (s.sched j).firstOpen with
  | none => s
  | some i =>
    if (s.undecided j i.t).isEmpty ∧ s.now < i.t + (s.sched j).limit then (if s.schedRuns j then s.closeInst j i 0 [] else s.dropOpen j i 3) else s

def execInstantCloseWatermark (dt sched : Nat) (s : State) : Host.Outcome State Fault Refusal :=
  runEvent dt (instantCloseWatermark sched) s

/-- INSTANT_CLOSE_LIMIT: the close limit is reached, R193. -/
def instantCloseLimit (j : Nat) (s : State) : State :=
  match (s.sched j).firstOpen with
  | none => s
  | some i =>
    if i.t + (s.sched j).limit ≤ s.now then
      let u := s.undecided j i.t
      if s.schedRuns j = false then s.dropOpen j i 3
      else ((s.closeInst j i 1 u).countSat (.chnSchedDrop j) 0 16).raiseLim 0x0402 j (s.schedOwner j) (evData [j, i.t, maskOf u])
    else s

def execInstantCloseLimit (dt sched : Nat) (s : State) : Host.Outcome State Fault Refusal := runEvent dt (instantCloseLimit sched) s

/-! The record, R209, R210, R224, R232 -/

def REntry.bytes (e : REntry) (ref : Nat) : Bytes :=
  cut (leBytes 1 e.stream ++ leBytes 1 e.sel ++ leBytes 1 e.verdict ++ leBytes 1 e.eflags ++ leBytes 2 e.xver ++ leBytes 2 0 ++
    leBytes 4 e.count ++ leBytes 4 e.weight ++ leBytes 8 ref ++ leBytes 4 e.frame ++ leBytes 4 0 ++ leBytes 8 e.first ++
    leBytes 8 e.last ++ (if e.verdict = 0 then e.place.bytes else List.replicate 28 0) ++ leBytes 4 e.excluded ++ leBytes 4 e.carried ++
    leBytes 4 e.kept) 0 0x60

/-- The rflags of R210. -/
def Inst.rflags (i : Inst) (revised : Bool) : Nat :=
  (if i.entries.any fun e => e.verdict != 0 then 1 else 0) + (if i.pose.isNone then 2 else 0) + (if i.isStatic then 4 else 0) +
  (if i.reason = 2 then 8 else 0) + (if revised then 16 else 0) + (if i.entries.any fun e => e.carried != 0 then 32 else 0)

/-- The ego part of the header: pose, body rate and flags at t. -/
def egoBytes (p : Option Pose) (noVel : Bool) : Bytes :=
  match p with
  | none => List.replicate 52 0 ++ leBytes 4 (if noVel then 4 else 0)
  | some g => g.p.bytes ++ g.q.bytes ++ g.v.bytes ++ g.wb.bytes ++
      leBytes 4 (1 + (if g.extrap then 2 else 0) + (if noVel then 4 else 0))

/-- The voxel summary, R232. -/
def Built.bytes (b : Built) : Bytes :=
  leBytes 4 b.len ++ leBytes 1 b.level ++ leBytes 1 b.vflags ++ leBytes 2 b.cap ++ f32Bytes b.edge ++ leBytes 4 b.sites ++
  leBytes 8 b.vset ++ leBytes 4 b.droppedTrunc ++ leBytes 4 b.droppedRoi ++ leBytes 8 b.octGen ++ List.replicate 16 0

/-- The tag of a record, R210. -/
def Sched.tag (c : Sched) (i : Inst) (revised : Bool) : Tag :=
  { inst := i.t, window := c.tagWin, origin := 0xFF, revised := revised, valid := true }

/-- The 256 header bytes. -/
def State.recHeader (s : State) (j : Nat) (i : Inst) (rev seq magic : Nat) : Bytes :=
  let c := s.sched j
  let inc := maskOf ((i.entries.filter fun e => e.verdict == 0).map (·.stream))
  let exc := maskOf ((i.entries.filter fun e => e.verdict != 0).map (·.stream))
  cut (leBytes 4 magic ++ leBytes 1 j ++ leBytes 1 rev ++ leBytes 1 i.entries.length ++ leBytes 1 i.reason ++ leBytes 8 i.t ++
    leBytes 4 i.k ++ leBytes 4 (i.rflags (rev != 0)) ++ leBytes 8 seq ++ leBytes 8 i.closedAt ++ leBytes 8 s.now ++ leBytes 8 inc ++
    leBytes 8 exc ++ (c.tag i (rev != 0)).bytes ++ egoBytes i.pose (bit (s.reg .chnEgoStat) 3) ++
    (match i.built with
      | some b => b.bytes
      | none => if s.voxelised j then ({ edge := f32Rat c.vox.edge, octGen := (s.reg .chnOctGen).toNat } : Built).bytes else [])) 0 256

/-- Writes a record into its ring slot: header, entries and bracketing samples, magic last, R209. -/
def State.writeRecord (s : State) (j : Nat) (i : Inst) (rev seq magic : Nat) : State :=
  let c := s.sched j
  let base := c.ring + 0x8000 * (seq % Nat.max 1 c.slots)
  let first := match i.built with | some b => b.first | none => 0
  let s := i.entries.zipIdx.foldl (fun (s : State) e =>
    let s := s.store (base + 0x100 + 0x60 * e.2) (e.1.bytes (if e.1.sel = 2 then first else e.1.ref))
    let at_ := base + 0x2000 + 0x100 * e.1.stream
    let s := match e.1.before with | some b => s.store at_ (cut b 0 128) | none => s
    match e.1.after with | some b => s.store (at_ + 0x80) (cut b 0 128) | none => s) s
  s.store base (s.recHeader j i rev seq magic)

def recMagic : Nat := 0x43484E49

/-- EV_INSTANT_DEGRADED for a record with an excluded stream, R210, R217. -/
def State.tellDegraded (s : State) (j : Nat) (i : Inst) : State :=
  let exc := maskOf ((i.entries.filter fun e => e.verdict != 0).map (·.stream))
  if exc = 0 then s else s.raiseLim 0x0403 j (s.schedOwner j) (evData [j, i.t, exc])

/-- The instant as its record shows it while the point pipeline is disabled: its WINDOW entries are MISSING, R243. -/
def Inst.noPoints (i : Inst) : Inst :=
  { i with entries := i.entries.map fun e => if e.sel = 2 then { e with verdict := 6, count := 0, kept := 0, ref := 0 } else e,
           built := none }

/-- The frame that the point pipeline has in progress: built, its record not committed yet, R233. -/
def State.frameBusy (s : State) : Option (Nat × Nat) :=
  s.chn.order.head?.bind fun e => match s.inst? e.1 e.2 with
    | some i => if i.built.isSome && i.state == .building then some e else none
    | none => none

/-- Whether an instant waits for the point pipeline, R208, R233: its frame is not built, or another one is in progress. -/
def State.waitsPoints (s : State) (j : Nat) (i : Inst) : Bool :=
  s.voxelised j && ((i.built.isNone && !(s.funcOff 3 0)) || (match s.frameBusy with | some e => e != (j, i.k) | none => false))

/-- A record is published: seq, counters, registers, R209, R214. -/
def State.published (s : State) (j : Nat) (i : Inst) : State :=
  let seq := (s.reg (.chnSchedSeq j)).toNat
  (((s.setReg (.chnSchedSeq j) (BitVec.ofNat 64 (seq + 1))).countWrap (.chnSchedPub j) 0 32 1).setReg (.chnSchedLast j)
    (BitVec.ofNat 64 i.t)).tellDegraded j i

/-- The fill of the Planner's grid that the first record of an instant of its source schedule brings, R264: the kept points, and each
stream's sensor origin at t in the body frame (R205). -/
def State.queueFill (s : State) (j : Nat) (i : Inst) : State :=
  let ctl := s.reg .plnGridCtl
  match i.built with
  | some b =>
    if bit ctl 31 ∧ bit ctl 25 ∧ fld ctl 23 2 = j ∧ b.vflags % 2 = 1 then
      let origins := (i.entries.filter fun e => e.sel == 2).filterMap fun e =>
        match s.role e.stream with
        | some r => (s.mount r i.t).map fun m => (e.stream, m.1.t)
        | none => none
      let f : Fill := { inst := i.t, tag := (s.sched j).tag i false, pose := i.pose, isStatic := i.isStatic, pts := b.pts, origins := origins
                        since := s.ns }
      { s with pln := { s.pln with fills := s.pln.fills ++ [f] } }
    else s
  | none => s

/-- INSTANT_RECORD_COMMIT: the write of magic, R208, R209. Under DISCARD or a restart magic is not written. -/
def instantRecordCommit (j k : Nat) (s : State) : State :=
  match s.inst? j k with
  | none => s
  | some i =>
    if i.state ≠ .building ∨ s.waitsPoints j i then s
    else
      let i := if s.voxelised j ∧ i.built.isNone then i.noPoints else i
      let seq := (s.reg (.chnSchedSeq j)).toNat
      let s := { s with chn := { s.chn with order := s.chn.order.filter (· != (j, k)) } }
      if i.noMagic || !(s.schedRuns j) then
        ((s.writeRecord j i 0 seq 0).updInst j k fun _ => { i with state := .sealed }).settleSched j
      else
        let s := ((s.writeRecord j i 0 seq recMagic).published j i).queueFill j i
        let st := if bit (s.reg (.chnSchedCtl j)) 30 then InstState.published else .sealed
        (s.updInst j k fun x => { i with state := if s.funcOff 2 0 then .sealed else st, seq := seq, late := x.late, revAfter := x.revAfter }).settleSched j

def execInstantRecordCommit (dt sched k : Nat) (s : State) : Host.Outcome State Fault Refusal :=
  runEvent dt (instantRecordCommit sched k) s

/-- INSTANT_SEAL: TB0 reaches t + horizon_ns, R192. -/
def instantSeal (j k : Nat) (s : State) : State :=
  match s.inst? j k with
  | none => s
  | some i =>
    if i.state = .published ∧ i.t + (s.sched j).horizon ≤ s.now then
      (s.updInst j k fun i => { i with state := .sealed, late := false, revAfter := none }).settleSched j
    else s

def execInstantSeal (dt sched k : Nat) (s : State) : Host.Outcome State Fault Refusal := runEvent dt (instantSeal sched k) s

/-! Late data, R211 to R213 -/

/-- Whether a NEAREST or BRACKET sample would have been selected for a closed instant. -/
def State.wouldPick (s : State) (i : Inst) (n : Nat) (r : Role) (x : Sample) : Bool :=
  flagVerdict x.flags == 0 &&
  (match i.entries.find? fun e => e.stream == n with
   | none => false
   | some e =>
     if r.sel = 0 then decide (2 * natDist x.stamp i.t ≤ s.strmPeriod n) &&
       (e.count == 0 || decide (natDist x.stamp i.t < natDist e.first i.t) ||
         (natDist x.stamp i.t == natDist e.first i.t && decide (x.stamp < e.first)))
     else if x.stamp ≤ i.t then
       (e.count == 0 || decide (e.first < x.stamp)) &&
         (decide (natDist x.stamp i.t ≤ 4 * s.strmPeriod n) || (e.after.isNone && decide (i.t - x.stamp ≤ s.chn.egoCfg.extrap)))
     else decide (natDist x.stamp i.t ≤ 4 * s.strmPeriod n) && (e.after.isNone || decide (x.stamp < e.last)))

/-- A late sample of an instant is counted, noted for a revision, or dropped, R211, R213. -/
def State.lateFor (s : State) (j : Nat) (i : Inst) (n samples : Nat) : State :=
  if s.now < i.t + (s.sched j).horizon then
    (s.addSat (.chnSchedLate j) 0 16 samples).updInst j i.k fun x =>
      { x with late := x.late || (x.state != .sealed && bit (s.reg (.chnSchedCtl j)) 30) }
  else
    (s.addSat (.chnSchedLate j) 16 16 samples).raiseLim 0x0404 j (s.schedOwner j) (evData [j, n, s.now - i.t])

/-- The closed instants of a schedule to which data of now may still be late. -/
def Sched.closed (c : Sched) : List Inst := c.insts.filter fun i => i.state != .opened && !i.stepped

/-- The enabled schedules that mask a stream. -/
def State.masking (s : State) (n : Nat) : List Nat :=
  (List.range 4).filter fun j => s.schedOn j && (s.sched j).mask.testBit n

/-- The schedules whose closed instants data of a stream can be late for, an ended one among them. -/
def State.lateScheds (s : State) (n : Nat) : List Nat := (List.range 4).filter fun j => (s.sched j).mask.testBit n

/-- A sample of a NEAREST or BRACKET stream: whether it is late for an instant within its horizon, and the counts. -/
def State.lateSample (s : State) (n : Nat) (r : Role) (x : Sample) : Bool × State :=
  (s.lateScheds n).foldl (fun (a : Bool × State) j =>
    ((a.2.sched j).closed.filter fun i => a.2.wouldPick i n r x).foldl (fun (a : Bool × State) i =>
      (a.1 || decide (a.2.now < i.t + (a.2.sched j).horizon), a.2.lateFor j i n 1)) a) (false, s)

/-- A frame of a WINDOW stream: its late points are counted and carried to the next instant of each schedule that takes them. -/
def State.lateFrame (s : State) (n : Nat) (r : Role) (p : PFrame) : State :=
  if flagVerdict p.flags ≠ 0 then s
  else
    let w := s.roleWindow n r
    let pts := ((s.pointFmt n).points n p).filterMap (·.2)
    (s.lateScheds n).foldl (fun (s : State) j =>
      let late := (s.sched j).closed.filter fun i => pts.any fun q => decide (i.t < q.time + w ∧ q.time ≤ i.t)
      let hor := (s.sched j).horizon
      let live := late.filter fun i => decide (s.now < i.t + hor)
      let fresh := pts.filter fun q => live.any fun i => decide (i.t < q.time + w ∧ q.time ≤ i.t)
      let s := late.foldl (fun s i =>
        s.lateFor j i n (pts.filter fun q => decide (i.t < q.time + w ∧ q.time ≤ i.t)).length) s
      s.modSched j fun c => { c with carry := c.carry ++ fresh.map fun q => { q with carried := true } }) s

/-! What Churn takes from the queues, R196 -/

/-- The values of an inertial sample, R199; none when the payload does not hold them. -/
def EgoCfg.imuVals (k : EgoCfg) (b : Bytes) : Option (V3 × V3) :=
  if k.fmt = 0 then
    if k.off + 24 ≤ b.length ∧ finiteAt b k.off 6 then some (V3.at b k.off, V3.at b (k.off + 12)) else none
  else if k.off + 12 ≤ b.length then
    let g := fun i => ((sgn 16 (numAt b (k.off + 2 * i) 2) : Int) : Rat)
    some (V3.scale k.gyroScale ⟨g 0, g 1, g 2⟩, V3.scale k.accelScale ⟨g 3, g 4, g 5⟩)
  else none

/-- A sample reaches the ego filter when its stream is a source and it is eligible, R200. -/
def State.egoSample (s : State) (n : Nat) (x : Sample) (rerun : Bool) : State :=
  let k := s.chn.egoCfg
  if k.imu = 255 ∨ flagVerdict x.flags ≠ 0 then s
  else
    let s := if n = k.imu then
        match k.imuVals x.payload with
        | some (g, a) =>
          let s := s.egoCheck.egoInput ⟨x.stamp, .imu g a⟩ rerun
          { s with chn := { s.chn with imuAt := some s.ns } }
        | none => s
      else s
    if k.src = 0 ∧ (n = k.wheelL ∨ n = k.wheelR) ∧ 4 ≤ x.payload.length then
      s.egoInput ⟨x.stamp, .wheel (n == k.wheelL) (sgn 32 (numAt x.payload 0 4))⟩ rerun
    else s

/-- Whether a stream is an ego source. -/
def State.egoSource (s : State) (n : Nat) : Bool :=
  let k := s.chn.egoCfg
  k.imu != 255 && (n == k.imu || (k.src == 0 && (n == k.wheelL || n == k.wheelR)))

/-- Churn takes a frame-end packet of a stream: a sample of it, and the ego filter's input, R196, R200, R211. -/
def State.churnSample (s : State) (n : Nat) (x : Sample) : State :=
  let r := s.role n
  let l := match r with
    | some r => s.lateSample n r x
    | none => (false, s)
  let s := l.2
  let s := { s with chn := { s.chn with samples := sset [] s.chn.samples n (sget [] s.chn.samples n ++ [x]) } }
  if s.egoSource n then s.egoSample n x l.1 else s

/-- Churn takes a packet of a stream whose queue it consumes. -/
def State.churnPacket (s : State) (n : Nat) (p : Pkt) : State :=
  let ends := p.kind == 2 || p.kind == 3 || p.kind == 4
  match s.role n with
  | some r =>
    if r.sel = 2 then
      let part := (if p.kind = 1 ∨ p.kind = 3 then [] else sget [] s.chn.partial_ n) ++ (if p.emb then [] else [p.payload])
      if ends then
        let f : PFrame := { stamp := p.stamp, flags := p.flags, frame := p.frame, pkts := part }
        let s := { s with chn := { s.chn with
          partial_ := sset [] s.chn.partial_ n [], frames := sset [] s.chn.frames n (sget [] s.chn.frames n ++ [f]) } }
        s.lateFrame n r f
      else { s with chn := { s.chn with partial_ := sset [] s.chn.partial_ n part } }
    else if ends then s.churnSample n { stamp := p.stamp, flags := p.flags, frame := p.frame, bytes := p.bytes.take 128,
                                        payload := p.payload, addr := none }
    else s
  | none =>
    if ends then s.churnSample n { stamp := p.stamp, flags := p.flags, frame := p.frame, bytes := p.bytes.take 128,
                                   payload := p.payload, addr := none }
    else s

/-- Churn empties the queues that it consumes: those of streams with a role or of ego sources. -/
def State.pumpChurn (s : State) : State :=
  ((List.range 64).foldl (fun (s : State) n =>
    if !(s.mmvQueue n) && ((s.role n).isSome || s.egoSource n) && !(s.strm n).queue.isEmpty then
      let q := (s.strm n).queue
      q.foldl (fun s p => s.churnPacket n p) (q.foldl (fun s _ => s.takeHead n) s)
    else s) s).egoCheck

/-! Commands, R190, R191, R195, R216 -/

/-- CHURN_STREAM_ROLE: R195, R196. A stream of another partition is refused, P0's excepted (log entry 49). -/
def churnStreamRole (c : Cmd) (s : State) : State :=
  let n := c.p 0x20 1
  let sel := c.p 0x21 1
  let x := c.p 0x22 1
  let w := c.p 0x24 4
  s.firstFail c [(decide (63 < n ∨ 2 < sel ∨ (127 < x ∧ x ≠ 0xFF) ∨ (x = 0xFF ∧ sel ≠ 1)) ||
        (sel == 2 && w != 0 && decide (w < 1000000 ∨ 1000000000 < w)) || s.mmvQueue n != (sel == 0), stBadParam),
      (s.foreignStream n c.part && s.strmPart n != 0, stNotPermitted), (!(s.masking n).isEmpty, stBusy)] fun s =>
    ({ s with chn := { s.chn with
      roles := (s.chn.roles.filter fun (e : Nat × Role) => e.1 != n) ++ [(n, Role.mk sel x (if sel = 2 then w else 0))] } }).done c

def execChurnStreamRole (dt id : Nat) (s : State) : Host.Outcome State Fault Refusal := runCmd dt id 0x0403 churnStreamRole s

/-- Whether one range with the write flag covers a ring, R191. -/
def State.writeRange (s : State) (part a n : Nat) : Bool := s.inRange (.part part) true a n

/-- CHURN_OPEN_INSTANT: R190, R191; the conditions in the order of the table, field ranges first (log entry 9). -/
def churnOpenInstant (c : Cmd) (s : State) : State :=
  let j := c.p 0x20 1
  let fl := c.p 0x21 1
  let slots := c.p 0x22 2
  let per := c.p 0x24 4
  let first := c.p 0x28 8
  let lim := if c.p 0x34 4 = 0 then 4 * per else c.p 0x34 4
  let mask := c.p 0x38 8
  let ring := c.p 0x40 8
  let hor := c.p 0x48 4
  let win := c.p 0x4C 4
  let str := bitsOf 64 mask
  let placed := str.any fun n => match s.role n with | some r => r.sel == 0 || r.sel == 2 | none => false
  s.firstFail c [
      (decide (3 < j ∨ 3 < fl ∨ slots < 4 ∨ 1024 < slots ∨ per < 5000000 ∨ 100000000 < per ∨ first < c.accept + 1000000 ∨
        lim < 1000000 ∨ 1000000000 < lim ∨ 2000000000 < hor ∨ win < 1000000 ∨ 4000000000 < win), stBadParam),
      (s.schedOn j && s.schedOwner j != c.part, stNotPermitted), (s.schedOn j, stBusy), (ring % 0x8000 != 0, stAlignment),
      (!(s.writeRange c.part ring (slots * 0x8000)), stRange),
      (str.any fun n => s.foreignStream n c.part && s.strmPart n != 0, stNotPermitted),
      ((str.any fun n => (s.role n).isNone) || (placed && s.chn.egoCfg.imu == 255 && !(fl.testBit 1)) || decide (s.egoSpan < hor + lim),
        stBadParam)] fun s =>
    let old := s.sched j
    let s := s.setSched j { first := first, count := c.p 0x30 4, limit := lim, mask := mask, ring := ring, slots := slots, horizon := hor,
                            tagWin := win, opened := true, vox := old.vox, voxNext := old.voxNext }
    let s := (s.setReg (.chnSchedCtl j) (BitVec.ofNat 64 (2 ^ 31 + fl % 2 * 2 ^ 30 + fl / 2 % 2 * 2 ^ 29 + c.part * 2 ^ 26))).setReg
      (.chnSchedPeriod j) (BitVec.ofNat 64 per)
    let s := ((s.setReg (.chnSchedSeq j) 0).setReg (.chnSchedStat j) 0).setReg (.chnSchedLast j) 0
    (s.syncSched j).doneWith c (leBytes 8 first)

def execChurnOpenInstant (dt id : Nat) (s : State) : Host.Outcome State Fault Refusal := runCmd dt id 0x0401 churnOpenInstant s

/-- Drops the PENDING instants of a schedule, and its OPEN ones if asked: how many, and the state. Of an unbounded schedule, the next
pending instant alone is told and counted (log entry 50). -/
def State.dropPendingInsts (s : State) (j reason : Nat) (opened : Bool) : Nat × State :=
  let c := s.sched j
  let left := if c.count = 0 then 1 else c.count - c.kNext
  let open_ := if opened then c.insts.filter fun i => i.state == .opened else []
  let s := s.modSched j fun c => { c with insts := if opened then c.insts.filter fun i => i.state != .opened else c.insts }
  let s := open_.foldl (fun s i => s.dropInst j i.t reason) s
  let s := (List.range left).foldl (fun s i => s.dropInst j (s.instantAt j (c.kNext + i)) reason) s
  (left + open_.length, s)

/-- BUILDING instants run to their end without magic, PUBLISHED ones are sealed: DISCARD, a restart, or a close of mode 1. -/
def State.silenceInsts (s : State) (j : Nat) : State :=
  s.modSched j fun c => { c with insts := c.insts.map fun i =>
    if i.state = .building then { i with noMagic := true, discardRun := true }
    else if i.state = .published then { i with state := .sealed, late := false, revAfter := none } else i }

/-- CHURN_CLOSE_SCHEDULE: commits when its last affected instant is final, R216. -/
def churnCloseSchedule (c : Cmd) (s : State) : State :=
  let j := c.p 0x20 1
  let m := c.p 0x21 1
  s.firstFail c [(decide (3 < j ∨ 1 < m), stBadParam), (!(s.ownsSched j c.part), stNotPermitted),
      (!(s.schedOn j), stBadParam), ((s.sched j).closing.isSome, stBusy)] fun s =>
    let d := s.dropPendingInsts j 4 (m == 1)
    let s := if m = 1 then d.2.silenceInsts j else d.2
    (s.modSched j fun x => { x with closing := some (CloseRec.mk c.id d.1) }).settleSched j

def execChurnCloseSchedule (dt id : Nat) (s : State) : Host.Outcome State Fault Refusal := runCmd dt id 0x0402 churnCloseSchedule s

/-- CHURN_INSTANT_STATUS: bytes 0x00 to 0x33 of the schedule bank. -/
def churnInstantStatus (c : Cmd) (s : State) : State :=
  let j := c.p 0x20 1
  s.firstFail c [(decide (3 < j), stBadParam), (!(s.ownsSched j c.part), stNotPermitted)] fun s =>
    let r4 := fun (r : Reg) => leBytes 4 (s.reg r).toNat
    let r8 := fun (r : Reg) => leBytes 8 (s.reg r).toNat
    s.doneWith c (r4 (.chnSchedCtl j) ++ r4 (.chnSchedStat j) ++ r8 (.chnSchedNext j) ++ r8 (.chnSchedLast j) ++ r8 (.chnSchedSeq j) ++
      r4 (.chnSchedPub j) ++ r4 (.chnSchedDrop j) ++ r4 (.chnSchedLate j) ++ r4 (.chnSchedRev j) ++ r4 (.chnSchedPeriod j))

def execChurnInstantStatus (dt id : Nat) (s : State) : Host.Outcome State Fault Refusal := runCmd dt id 0x0406 churnInstantStatus s

/-! Steps, disable and restart -/

/-- The outcome of instants at an applied TB0 step, before the step is added: OPEN instants close with reason STEP. -/
def State.stepClose (s : State) : State :=
  (List.range 4).foldl (fun (s : State) j =>
    let s := ((s.sched j).insts.filter fun i => i.state == .opened).foldl (fun s i => s.closeInst j i 2 (s.undecided j i.t)) s
    s.modSched j fun c => { c with insts := c.insts.map fun i => { i with stepped := true } }) s

/-- The first index of a schedule whose instant is later than both bounds. -/
def State.indexAfter (s : State) (j bound : Nat) : Nat :=
  let c := s.sched j
  if bound < c.first then 0 else (bound - c.first) / Nat.max 1 (s.reg (.chnSchedPeriod j)).toNat + 1

def EgoEntry.shift (sh : Nat → Nat) (e : EgoEntry) : EgoEntry := { e with stamp := sh e.stamp }
def EgoIn.shift (sh : Nat → Nat) (e : EgoIn) : EgoIn := { e with stamp := sh e.stamp }
def Sample.shift (sh : Nat → Nat) (e : Sample) : Sample := { e with stamp := sh e.stamp }
def PFrame.shift (sh : Nat → Nat) (e : PFrame) : PFrame := { e with stamp := sh e.stamp }
def Pt.shift (sh : Nat → Nat) (e : Pt) : Pt := { e with time := sh e.time }

/-- After a TB0 step: every stamp that Churn holds is shifted, PENDING instants that the step passed are DROPPED, and each schedule goes
on with the first instant later than TB0 and its last closed one. -/
def State.stepChurn (s : State) (off : Int) : State :=
  let sh := fun (t : Nat) => ((t : Int) + off).toNat
  let c := s.chn
  let g := c.ego
  let pair := fun (x : Option (Nat × Int)) => x.map fun p => (sh p.1, p.2)
  let ego := { g with
    last := g.last.map sh, prevL := pair g.prevL, prevR := pair g.prevR, newL := pair g.newL, newR := pair g.newR
    hist := g.hist.map (EgoEntry.shift sh) }
  let s := { s with chn := { c with
    ego := ego, egoIns := c.egoIns.map (EgoIn.shift sh)
    samples := c.samples.map fun (e : Nat × List Sample) => (e.1, e.2.map (Sample.shift sh))
    frames := c.frames.map fun (e : Nat × List PFrame) => (e.1, e.2.map (PFrame.shift sh)) } }
  (List.range 4).foldl (fun (s : State) j =>
    let s := s.modSched j fun c => { c with carry := c.carry.map (Pt.shift sh) }
    if s.schedOn j ∧ (s.sched j).closing.isNone then
      let c := s.sched j
      let k := Nat.max c.kNext (s.indexAfter j (Nat.max s.now (c.lastClosed.getD 0)))
      let passed := (List.range (k - c.kNext)).filter fun i => c.has (c.kNext + i) && decide (s.instantAt j (c.kNext + i) ≤ s.now)
      let s := passed.foldl (fun s i => s.dropInst j (s.instantAt j (c.kNext + i)) 1) s
      (s.modSched j fun c => { c with kNext := k }).settleSched j
    else s) s.syncEgo

/-- CTRL_FUNC_DISABLE of the alignment function, R110 and the disable rows of chapter 7. -/
def State.disableAlign (s : State) (discard : Bool) : State :=
  (List.range 4).foldl (fun (s : State) j =>
    if s.schedOn j then
      let open_ := (s.sched j).insts.filter fun i => i.state == .opened
      let s := open_.foldl (fun s i => s.dropInst j i.t 2) s
      let s := s.modSched j fun c => { c with insts := c.insts.filterMap fun i =>
        if i.state = .opened then none
        else if i.state = .published then some { i with state := .sealed, late := false, revAfter := none } else some i }
      let s := if discard then s.silenceInsts j else s
      s.settleSched j
    else s) s

/-- A schedule goes on with the first instant of its series at least 1,000,000 ns ahead, R507, chapter 7; those passed over are
DROPPED with the reason that halted it. -/
def State.resumeSched (s : State) (j reason : Nat) : State :=
  if s.schedOn j ∧ (s.sched j).closing.isNone then
    let c := s.sched j
    let k := Nat.max c.kNext (s.indexAfter j (s.now + 999999))
    let s := ((List.range (k - c.kNext)).filter fun i => c.has (c.kNext + i)).foldl
      (fun s i => s.dropInst j (s.instantAt j (c.kNext + i)) reason) s
    (s.modSched j fun c => { c with halted := false, kNext := k }).settleSched j
  else s

/-- A restart of a schedule's owner: its instants are dropped and silenced, its runs released, and it halts. -/
def State.restartChurn (s : State) (p : Nat) : State :=
  (List.range 4).foldl (fun (s : State) j =>
    if s.schedOn j ∧ s.schedOwner j = p then
      let open_ := (s.sched j).insts.filter fun i => i.state == .opened
      let s := open_.foldl (fun s i => s.dropInst j i.t 3) s
      let s := (s.modSched j fun c => { c with insts := c.insts.filter fun i => i.state != .opened, halted := true }).silenceInsts j
      let s := { s with chn := { s.chn with runs := s.chn.runs.map fun (r : PRun) => if r.sched = j then { r with released := true } else r } }
      s.settleSched j
    else s) s

end Sys2Proof.Machine
end

