-- ==== Sys2Proof/Machine/Arbiters.lean ====
section
/-! DEFINITION. The arbiters: their decisions, usage windows and freezes: R383 to R392, with the arbiter rows. -/
namespace Sys2Proof.Machine

def State.arb (s : State) (n : Nat) : Arb := sget {} s.mmv.arbs n

/-- The unit granted and the owner, as MMV_ARB_STAT shows them, R394. -/
def State.arbStat (s : State) (n : Nat) (x : Arb) : State :=
  let s := (s.setFldOf (.mmvArbStat n) 16 5 (Nat.min 16 x.queue.length)).setFldOf (.mmvArbStat n) 30 1 (if x.owner.isSome then 1 else 0)
  match x.owner with
  | some o => (s.setFldOf (.mmvArbStat n) 25 5 o.input).setFldOf (.mmvArbStat n) 21 4 o.part
  | none => (s.setFldOf (.mmvArbStat n) 25 5 0).setFldOf (.mmvArbStat n) 21 4 0

def State.setArb (s : State) (n : Nat) (x : Arb) : State :=
  { s with mmv := { s.mmv with arbs := sset {} s.mmv.arbs n x } }.arbStat n x

/-! Quotas and usage, R388 -/

/-- Units granted to a partition in the last 64 slices. -/
def Arb.use (x : Arb) (p : Nat) : Nat := x.cur.getD p 0 + (x.slices.map fun l => l.getD p 0).sum

def State.arbWindow (s : State) (n : Nat) : Nat := s.fldOf (.mmvArbWindow n) 0 32

/-- under(p), R387. -/
def State.under (s : State) (n : Nat) (x : Arb) (p : Nat) : Bool :=
  decide (p < 8) && decide (64 * x.use p < x.quota.getD p 0 * s.arbWindow n)

/-- MMV_ARB_USE_j follows the window. -/
def State.showUse (s : State) (n : Nat) (x : Arb) : State :=
  (List.range 8).foldl (fun (s : State) p => s.setFldOf (.mmvArbUse n (p / 2)) (16 * (p % 2)) 16 (Nat.min 65535 (x.use p))) s

/-! Decisions, R386, R387, R390 -/

/-- The rank of an input. -/
def State.arbRank (s : State) (n input : Nat) : Nat := s.fldOf (.mmvArbRank n (input / 4)) (8 * (input % 4)) 5

def State.blocking (s : State) (n : Nat) (x : Arb) (w : List Parked) (p : Nat) : Bool :=
  w.any fun q => q.part != p && s.under n x q.part

/-- dl(r): the deadline tier. -/
def State.inDeadline (s : State) (n : Nat) (x : Arb) (w : List Parked) (r : Parked) : Bool :=
  let urgency := s.fldOf (.mmvArbUrgency n) 0 32
  match r.latest with
  | none => false
  | some t => urgency != 0 && decide ((t : Int) - (s.now : Int) < (urgency : Int)) && (r.part == 0 || s.under n x r.part || !(s.blocking n x w r.part))

/-- The higher rank, and of two equal ones the higher input; an earlier request of the same input stands. -/
def State.outranks (s : State) (n : Nat) (a b : Parked) : Bool :=
  decide (s.arbRank n b.input < s.arbRank n a.input ∨ (s.arbRank n b.input = s.arbRank n a.input ∧ b.input < a.input))

/-- The index of the best request by an order. -/
def bestIdx (better : Parked → Parked → Bool) (w : List Parked) (ok : Parked → Bool) : Option Nat :=
  (w.zipIdx.foldl (fun (b : Option (Parked × Nat)) e =>
    if ok e.1 then (match b with
      | none => some e
      | some o => if better e.1 o.1 then some e else b)
    else b) none).map (·.2)

/-- The request that a decision grants, and whether in the deadline tier. -/
def State.arbChoice (s : State) (n : Nat) (x : Arb) (w : List Parked) : Option (Nat × Bool) :=
  let sooner := fun (a b : Parked) => match a.latest, b.latest with
    | some t, some u => decide (t < u) || (decide (t = u) && s.outranks n a b)
    | _, _ => false
  match bestIdx sooner w (s.inDeadline n x w) with
  | some i => some (i, true)
  | none => match bestIdx (s.outranks n) w (fun r => s.under n x r.part) with
    | some i => some (i, false)
    | none => (bestIdx (s.outranks n) w fun _ => true).map fun i => (i, false)

/-- Whether an arbiter has a freeze bit, R383. -/
def arbFreezes (n : Nat) : Bool := decide (n < 32 ∨ (48 ≤ n ∧ n ≤ 55))

/-- The freeze takes effect or is released: P0 is told, R396. -/
def State.showFrozen (s : State) (n : Nat) (v : Bool) : State :=
  if bit (s.reg (.mmvArbStat n)) 31 = v then s
  else (s.setFldOf (.mmvArbStat n) 31 1 (if v then 1 else 0)).raise 0x0780 0 (evData [n, if v then 1 else 0])

/-- Sets or clears an arbiter's freeze, R392: with no grant running it takes effect at once. -/
def State.freeze (s : State) (n : Nat) (v : Bool) : State :=
  if arbFreezes n then
    let s := s.setFldOf (.mmvArbCtl n) 31 1 (if v then 1 else 0)
    if v ∧ (s.arb n).owner.isSome then s else s.showFrozen n v
  else s

/-- The latest-service instant of a command's requests, R389: its deadline, less its running time at the pace that it was admitted with when
it states a cost. -/
def Cmd.latest (c : Cmd) : Option Nat :=
  if c.deadline = 0 then none
  else if c.cost = 0 then some c.deadline
  else some (c.deadline - (c.cost * 16384 + (Nat.max 1 c.paceUse - 1)) / Nat.max 1 c.paceUse)

/-- The latest-service instant of a request: its command's; for a starter frame, input 2 of the checker-core arbiter, the closing instant of
its reserved window less starter_len_ns, R389, R436. -/
def State.latestOf (s : State) (n : Nat) (a : ArbReq) : Option Nat :=
  if n = 56 ∧ a.input = 2 then
    (s.tar.starters.find? fun t => decide (t.slot < 2) && !t.pair).map fun t => t.closes - s.ssi.policy.starterLen
  else match a.cmd with
    | some id => (s.cmd? id).bind Cmd.latest
    | none => none

/-- Losers are parked, at most 16; the others stall and are counted. -/
def State.park (s : State) (n : Nat) (x : Arb) (w : List Parked) : State :=
  (s.addSat (.mmvArbQfull n) 0 32 (w.length - 16)).setArb n { x with queue := w.take 16 }

/-- A grant: its units, its wait, a missed instant. -/
def State.grant (s : State) (n : Nat) (x : Arb) (r : Parked) (dl : Bool) (w : List Parked) : State :=
  let units := Nat.min (Nat.max 1 r.len) (s.fldOf (.mmvArbCtl n) 0 13)
  let cur := (List.range 8).map fun p => x.cur.getD p 0 + if p = r.part then units else 0
  let x := { x with owner := some r, cur := cur, total := x.total + units }
  let s := (s.countWrap (.mmvArbGrants n) 0 32 1).maxFld (.mmvArbMaxwait n) 0 32 (s.now - r.since)
  let s := if dl then s.countWrap (.mmvArbDlGrants n) 0 32 1 else s
  let s := match (if n = 56 ∧ r.input = 2 then s.tar.starters.find? fun t => decide (t.slot < 2) && !t.pair else none) with
    | some t => s.maxFld (.ssiStarterDefer t.slot) 0 32 (s.now - t.opened)
    | none => s
  let s := match r.latest with
    | some t => if t < s.now then (s.countSat (.mmvArbMissed n) 0 32).raiseLim 0x0744 n (r.part % 8) (evData [n, r.input, r.part, s.now - t]) else s
    | none => s
  (s.park n x w).showUse n x

/-- ARBITER_DECISION: the present grant ends, the requests that arrived are offered, and one is granted (log entry 72). -/
def arbiterDecision (n : Nat) (arrivals : List ArbReq) (s : State) : State :=
  if 57 < n then s
  else
    let x := { s.arb n with owner := none }
    let w := x.queue ++ arrivals.map fun a => Parked.mk a.input a.part a.len (s.latestOf n a) s.now
    if bit (s.reg (.mmvArbCtl n)) 31 && arbFreezes n then (s.park n x w).showFrozen n true
    else match s.arbChoice n x w with
      | none => s.park n x w
      | some (i, dl) => match w[i]? with
        | some r => s.grant n x r dl (w.eraseIdx i)
        | none => s.park n x w

def execArbiterDecision (dt arb : Nat) (arrivals : List ArbReq) (s : State) : Host.Outcome State Fault Refusal :=
  runEvent dt (arbiterDecision arb arrivals) s

/-- ARBITER_SLICE_BOUNDARY: R388. -/
def arbiterSliceBoundary (n : Nat) (s : State) : State :=
  let x := s.arb n
  let slice := s.arbWindow n / 64
  if 57 < n ∨ x.total < slice then s
  else
    let quota := (List.range 8).map fun p => s.fldOf (.mmvArbQuota n) (8 * p) 8
    let x := { x with cur := [], total := x.total - slice, slices := (x.cur :: x.slices).take 63, quota := quota }
    (s.setArb n x).showUse n x

def execArbiterSliceBoundary (dt arb : Nat) (s : State) : Host.Outcome State Fault Refusal := runEvent dt (arbiterSliceBoundary arb) s

/-- ARB_FREEZE_WRITE: Bivexa or P0; Bivexa holds a Chamerline port's only for a retrain, R392. -/
def arbFreezeWrite (who : Writer) (n : Nat) (v : Bool) (s : State) : State :=
  match who with
  | .host => s
  | .p0 => s.freeze n v
  | .bivexa => if n < 32 ∨ (s.mmv.retrains.any fun r => 48 + r.port == n) = true then s.freeze n v else s

def execArbFreezeWrite (dt : Nat) (who : Writer) (arb : Nat) (v : Bool) (s : State) : Host.Outcome State Fault Refusal :=
  runEvent dt (arbFreezeWrite who arb v) s

/-- A restarted partition's parked requests are removed. -/
def State.unpark (s : State) (p : Nat) : State :=
  s.mmv.arbs.foldl (fun (s : State) e =>
    let x := s.arb e.1
    if x.queue.any fun r => r.part == p then s.setArb e.1 { x with queue := x.queue.filter fun r => r.part != p } else s) s

/-! MEM_ARB_CONFIG, MEM_ARB_STATUS, MEM_ERR_STATUS: R395, R436 -/

/-- MEM_ARB_CONFIG. -/
def memArbConfig (c : Cmd) (s : State) : State :=
  let n := c.p 0x20 2
  let m := fun (i : Nat) => (c.p 0x22 1).testBit i
  let burst := c.p 0x24 2
  let urg := c.p 0x28 4
  let win := c.p 0x2C 4
  let rank := fun (i : Nat) => c.p (0x30 + i) 1
  let bad := decide (57 < n) || (m 0 && decide (burst = 0 ∨ 4096 < burst)) || (m 1 && decide (100000000 < urg)) ||
    (m 2 && decide (win < 1024 ∨ 1048576 < win ∨ win % 64 ≠ 0)) || (m 3 && (List.range 32).any fun i => decide (31 < rank i))
  let lane := m 3 && decide (n < 48) && (rank 26 != s.arbRank n 26 || rank 27 != s.arbRank n 27)
  let slack := ((if m 0 then burst else s.fldOf (.mmvArbCtl 56) 0 13) + 1) * 1000
  let starter := n == 56 && decide ((if m 1 then urg else s.fldOf (.mmvArbUrgency 56) 0 32) ≤ slack)
  s.firstFail c [(bad, stBadParam), (lane || starter, stNotPermitted)] fun s =>
    let s := if m 0 then s.setFldOf (.mmvArbCtl n) 0 13 burst else s
    let s := if m 1 then s.setReg (.mmvArbUrgency n) (BitVec.ofNat 64 urg) else s
    let s := if m 2 then s.setReg (.mmvArbWindow n) (BitVec.ofNat 64 win) else s
    let s := if m 3 then (List.range 32).foldl (fun (s : State) i => s.setFldOf (.mmvArbRank n (i / 4)) (8 * (i % 4)) 5 (rank i)) s else s
    s.done c

def execMemArbConfig (dt id : Nat) (s : State) : Host.Outcome State Fault Refusal := runCmd dt id 0x0760 memArbConfig s

/-- Bytes 0x00 to 0x63 of an arbiter bank. -/
def State.arbBank (s : State) (n : Nat) : Bytes :=
  let r := fun (x : Reg) => leBytes 4 (s.reg x).toNat
  r (.mmvArbCtl n) ++ r (.mmvArbUrgency n) ++ r (.mmvArbWindow n) ++ r (.mmvArbStat n) ++ ((List.range 8).flatMap fun w => r (.mmvArbRank n w)) ++
  leBytes 8 (s.reg (.mmvArbQuota n)).toNat ++ leBytes 8 0 ++ ((List.range 4).flatMap fun j => r (.mmvArbUse n j)) ++
  r (.mmvArbGrants n) ++ r (.mmvArbDlGrants n) ++ r (.mmvArbMissed n) ++ r (.mmvArbQfull n) ++ r (.mmvArbMaxwait n)

/-- MEM_ARB_STATUS. -/
def memArbStatus (c : Cmd) (s : State) : State :=
  if 57 < c.p 0x20 2 then s.failCmd c.id stBadParam else s.doneWith c (s.arbBank (c.p 0x20 2))

def execMemArbStatus (dt id : Nat) (s : State) : Host.Outcome State Fault Refusal := runCmd dt id 0x0761 memArbStatus s

/-- MEM_ERR_STATUS; the staging pair stands as its registers do (log entry 72). -/
def memErrStatus (c : Cmd) (s : State) : State :=
  let n := c.p 0x20 1
  if n = 0xFF then s.doneWith c (leBytes 8 (s.reg .mmvStgEcc).toNat ++ leBytes 8 (s.reg .mmvStgLastUe).toNat)
  else if 31 < n then s.failCmd c.id stBadParam
  else s.doneWith c (leBytes 4 (s.reg (.mmvMcCe n)).toNat ++ leBytes 4 (s.reg (.mmvMcUe n)).toNat ++ leBytes 8 (s.reg (.mmvMcLastUe n)).toNat ++
    leBytes 8 (s.reg (.mmvMcRmw n)).toNat)

def execMemErrStatus (dt id : Nat) (s : State) : Host.Outcome State Fault Refusal := runCmd dt id 0x0762 memErrStatus s

/-! The patrol scrubber, R377, R379 -/

/-- What the scrubber's read of a line finds. -/
def State.scrubLine (s : State) (a : Nat) (f : ScrubFind) : State :=
  let c := channelOf a
  if f = .uncorrectable ∨ s.poisoned a 64 = true then
    let s := if s.poisoned a 64 then s else { s with pwr := { s.pwr with hbmPoison := s.pwr.hbmPoison ++ [a] } }
    s.memUe .system 0 a
  else if f = .corrected then
    let s := s.countSat (.mmvMcCe c) 16 16
    s.raiseLim 0x0740 c 0 (evData [c, s.fldOf (.mmvMcCe c) 16 16])
  else s

/-- PATROL_SCRUB: the next line; a pass that took longer than its period is counted. -/
def patrolScrub (f : ScrubFind) (s : State) : State :=
  if s.fldOf .mmvMemCtl 0 1 = 0 ∨ s.fldOf .mmvMemStat 31 1 = 0 ∨ s.fldOf .mmvMemStat 30 1 = 1 then s
  else
    let s := s.scrubLine s.pwr.scrubPos f
    let next := s.pwr.scrubPos + 64
    if next < hbmSize then { s with pwr := { s.pwr with scrubPos := next } }
    else
      let late := decide (s.pwr.scrubFrom + s.fldOf .mmvMemCtl 8 8 * 3600000000000 < s.ns)
      let s := if late then s.countSat .mmvMemStat 0 16 else s
      { s with pwr := { s.pwr with scrubPos := 0, scrubFrom := s.ns } }

def execPatrolScrub (dt : Nat) (find : ScrubFind) (s : State) : Host.Outcome State Fault Refusal := runEvent dt (patrolScrub find) s

end Sys2Proof.Machine
end

