-- ==== Sys2Proof/Machine/Fmt.lean ====
section
/-! DEFINITION. The number formats of R291: the value of a code, and conversion into a format under R297 and R298. -/
namespace Sys2Proof.Machine

/-- Bits of an element, R291, R313; 0 for a reserved format code. -/
def fmtBits (f : Nat) : Nat :=
  match f with
  | 0 => 32 | 1 => 16 | 2 => 16 | 3 => 8 | 4 => 8 | 5 => 6 | 6 => 6 | 7 => 4 | 8 => 8 | 9 => 4 | 10 => 8 | 11 => 32
  | _ => 0

/-- Exponent bits, mantissa bits and bias of a float format, R291. -/
def fmtShape (f : Nat) : Nat × Nat × Int :=
  match f with
  | 0 => (8, 23, 127) | 1 => (8, 7, 127) | 2 => (5, 10, 15) | 3 => (4, 3, 7) | 4 => (5, 2, 15) | 5 => (3, 2, 3) | 6 => (2, 3, 1)
  | _ => (2, 1, 1)

def fmtInt (f : Nat) : Bool := f == 8 || f == 9
/-- Packed formats, R292. -/
def fmtPacked (f : Nat) : Bool := f == 5 || f == 6 || f == 7 || f == 9
/-- Formats of which a shape carries infinities in the IEEE way. -/
def fmtIeee (f : Nat) : Bool := f == 0 || f == 1 || f == 2 || f == 4
/-- Elements that a packed group holds, R292. -/
def fmtGroup (f : Nat) : Nat := if f == 5 || f == 6 then 4 else if f == 7 || f == 9 then 2 else 1

/-- The largest finite value, R291. -/
def fmtMax (f : Nat) : Rat :=
  match f with
  | 0 => ((2 ^ 24 - 1 : Nat) : Rat) * pow2 104
  | 1 => 255 * pow2 120
  | 2 => 65504
  | 3 => 448
  | 4 => 57344
  | 5 => 28
  | 6 => 15 / 2
  | 7 => 6
  | 8 => 127
  | _ => 7

/-- The value of a code, R291. -/
def fmtVal (f code : Nat) : FVal :=
  if f = 8 then .fin (decide (sgn 8 code < 0)) (sgn 8 code)
  else if f = 9 then .fin (decide (sgn 4 code < 0)) (sgn 4 code)
  else
    let sh := fmtShape f
    let m := code % 2 ^ sh.2.1
    let e := code / 2 ^ sh.2.1 % 2 ^ sh.1
    let neg := code.testBit (sh.1 + sh.2.1)
    if fmtIeee f ∧ e = 2 ^ sh.1 - 1 then (if m = 0 then .inf neg else .nan)
    else if f = 3 ∧ code % 128 = 127 then .nan
    else
      let q := if e = 0 then (m : Rat) * pow2 (1 - sh.2.2 - (sh.2.1 : Int))
        else ((2 ^ sh.2.1 + m : Nat) : Rat) * pow2 ((e : Int) - sh.2.2 - (sh.2.1 : Int))
      .fin neg (if neg then -q else q)

/-- The code of a NaN, R297; none in a format without one. -/
def fmtNan (f : Nat) : Option Nat :=
  match f with
  | 0 => some 0x7FC00000 | 1 => some 0x7FC0 | 2 => some 0x7E00 | 3 => some 0x7F | 4 => some 0x7E | _ => none

/-- What a conversion writes: the code, and whether it saturated or flushed a NaN. -/
structure Conv where
  code : Nat
  sat : Bool := false
  flush : Bool := false
deriving DecidableEq, Repr

/-- Rounds a magnitude counted in units of the last place: to nearest even, or with a 16-bit random integer below the last place
(R298). -/
def roundBy (sr : Option Nat) (x : Rat) : Nat :=
  match sr with
  | none => roundEven x
  | some r => (x + (r : Rat) / 65536).floor.toNat

/-- A float code of sign and magnitude bits. -/
def fmtSign (f : Nat) (neg : Bool) (mag : Nat) : Nat := if neg then mag + 2 ^ (fmtBits f - 1) else mag

/-- The code of the largest finite value. -/
def fmtMaxCode (f : Nat) : Nat :=
  match f with
  | 0 => 0x7F7FFFFF | 1 => 0x7F7F | 2 => 0x7BFF | 3 => 0x7E | 4 => 0x7B | 5 => 0x1F | 6 => 0x1F | _ => 7

/-- The code of an infinity. -/
def fmtInfCode (f : Nat) : Nat := match f with | 0 => 0x7F800000 | 1 => 0x7F80 | 2 => 0x7C00 | _ => 0x7C

/-- Overflow and infinity of a float format, R297. -/
def fmtOver (f : Nat) (infOk neg : Bool) : Conv :=
  if f ≤ 2 ∨ (f = 4 ∧ infOk = true) then { code := fmtSign f neg (fmtInfCode f) } else { code := fmtSign f neg (fmtMaxCode f), sat := true }

/-- Rounds a finite value into a float format. -/
def fmtFin (f : Nat) (infOk : Bool) (sr : Option Nat) (neg : Bool) (q : Rat) : Conv :=
  let sh := fmtShape f
  let a := absR q
  if a = 0 then { code := fmtSign f neg 0 }
  else
    let u := max (ilog2 a) (1 - sh.2.2) - (sh.2.1 : Int)
    let k := roundBy sr (a / pow2 u)
    if fmtMax f < (k : Rat) * pow2 u then fmtOver f infOk neg
    else
      let p := if k = 2 ^ (sh.2.1 + 1) then (2 ^ sh.2.1, u + 1) else (k, u)
      { code := fmtSign f neg (if p.1 < 2 ^ sh.2.1 then p.1
          else (p.2 + (sh.2.1 : Int) + sh.2.2).toNat * 2 ^ sh.2.1 + (p.1 - 2 ^ sh.2.1)) }

/-- Conversion into a format, R297 and R298; writeback to FP32 always rounds to nearest even. -/
def fmtEnc (f : Nat) (infOk : Bool) (sr : Option Nat) (v : FVal) : Conv :=
  let sr := if f = 0 then none else sr
  let w := fmtBits f
  match v with
  | .nan => (match fmtNan f with | some c => { code := c } | none => { code := 0, flush := true })
  | .inf neg =>
    if fmtInt f then { code := unsgn w (if neg then -(2 ^ (w - 1) : Nat) else (2 ^ (w - 1) - 1 : Nat)), sat := true }
    else fmtOver f infOk neg
  | .fin neg q =>
    if fmtInt f then
      let k : Int := roundBy sr (absR q)
      let x := if q < 0 then -k else k
      { code := unsgn w (clampS w x), sat := decide (clampS w x ≠ x) }
    else fmtFin f infOk sr neg q

/-! Arithmetic on values: exact, with the special values of IEEE arithmetic -/

def FVal.isNeg : FVal → Bool
  | .nan => false | .inf n => n | .fin n _ => n

def FVal.neg : FVal → FVal
  | .nan => .nan | .inf n => .inf (!n) | .fin n q => .fin (!n) (-q)

def FVal.ofRat (q : Rat) : FVal := .fin (decide (q < 0)) q

def FVal.add : FVal → FVal → FVal
  | .nan, _ => .nan
  | _, .nan => .nan
  | .inf a, .inf b => if a = b then .inf a else .nan
  | .inf a, _ => .inf a
  | _, .inf b => .inf b
  | .fin a p, .fin b q => if p + q = 0 then .fin (a && b) 0 else FVal.ofRat (p + q)

def FVal.mul : FVal → FVal → FVal
  | .nan, _ => .nan
  | _, .nan => .nan
  | .inf a, .inf b => .inf (a != b)
  | .inf a, .fin b q => if q = 0 then .nan else .inf (a != b)
  | .fin a p, .inf b => if p = 0 then .nan else .inf (a != b)
  | .fin a p, .fin b q => .fin (a != b) (p * q)

/-- The larger of two values, NaN if either is (R306, vop MAX). -/
def FVal.max : FVal → FVal → FVal
  | .nan, _ => .nan
  | _, .nan => .nan
  | .inf a, y => if a then y else .inf false
  | x, .inf b => if b then x else .inf false
  | .fin a p, .fin b q => if p = q then .fin (a && b) p else if p < q then .fin b q else .fin a p

def FVal.min (x y : FVal) : FVal := (FVal.max x.neg y.neg).neg

/-- A value as FP32 holds it, rounded to nearest even. -/
def FVal.f32 (v : FVal) : FVal := fmtVal 0 (fmtEnc 0 true none v).code

/-- The FP32 pattern of a value. -/
def FVal.bits32 (v : FVal) : W32 := BitVec.ofNat 32 (fmtEnc 0 true none v).code

/-- The value of a shared scale, R293: 0 E8M0, 1 E4M3. -/
def scaleVal (fmt code : Nat) : FVal :=
  if fmt = 0 then (if code = 255 then .nan else .fin false (pow2 ((code : Int) - 127))) else fmtVal 3 code

end Sys2Proof.Machine
end

