-- ==== Sys2Proof/Machine/Desc.lean ====
section
/-! DEFINITION. Tensor descriptors (R313 to R316): their fields, the rows they name, the alignment, packing, range and overlap rules,
and the reading and writing of elements. -/
namespace Sys2Proof.Machine

/-- The descriptor that 128 bytes hold. -/
def Desc.parse (a : Nat) (b : Bytes) : Desc :=
  { addr := a, base := numAt b 0 8, fmt := numAt b 8 1, rank := numAt b 9 1, dev := numAt b 0x0B 1,
    mark := (numAt b 0x0A 1).testBit 0,
    exts := (List.range 6).map fun i => numAt b (0x10 + 4 * i) 4,
    strides := (List.range 5).map fun i => numAt b (0x28 + 8 * i) 8,
    tag := Tag.ofBytes (cut b 0x50 16) }

/-- The extent of a dimension; at or above rank it reads as 1. -/
def Desc.ext (d : Desc) (i : Nat) : Nat := if i < d.rank then d.exts.getD i 1 else 1

/-- The byte stride of a dimension from 1 on. -/
def Desc.stride (d : Desc) (i : Nat) : Nat := d.strides.getD (i - 1) 0

/-- Bytes of an innermost row. -/
def Desc.rowBytes (d : Desc) : Nat := ceilDiv (d.ext 0 * fmtBits d.fmt) 8

/-- The dimensions from 1 to rank − 1. -/
def Desc.outer (d : Desc) : List Nat := (List.range d.rank).filter fun i => decide (1 ≤ i)

/-- The addresses of the innermost rows, dimension 1 fastest. -/
def Desc.rows (d : Desc) : List Nat :=
  d.outer.foldl (fun (l : List Nat) i => (List.range (d.ext i)).flatMap fun k => l.map fun a => a + k * d.stride i) [d.base]

/-- The address of the row with the given outer indices, from dimension 1 on. -/
def Desc.rowAt (d : Desc) (idx : List Nat) : Nat :=
  (idx.zipIdx 1).foldl (fun (a : Nat) e => a + e.1 * d.stride e.2) d.base

/-- The number of rows. -/
def Desc.count (d : Desc) : Nat := d.outer.foldl (fun (n : Nat) i => n * d.ext i) 1

/-- The address range from the first byte to the last, R290. -/
def Desc.span (d : Desc) : Nat × Nat :=
  (d.base, d.outer.foldl (fun (n : Nat) i => n + (d.ext i - 1) * d.stride i) 0 + d.rowBytes)

/-- The shape of a tensor from the outermost dimension on. -/
def Desc.shape (d : Desc) : List Nat := ((List.range d.rank).map d.ext).reverse

/-- The alignment rule of R314. -/
def Desc.aligned (d : Desc) : Bool := d.base % 64 == 0 && d.outer.all fun i => d.stride i % 64 == 0

/-- The packing rule of R292. -/
def Desc.packed (d : Desc) : Bool := d.ext 0 % fmtGroup d.fmt == 0

/-- Insertion into a list sorted by the first component. -/
def insByFst (e : Nat × Nat) : List (Nat × Nat) → List (Nat × Nat)
  | [] => [e]
  | x :: r => if e.1 ≤ x.1 then e :: x :: r else x :: insByFst e r

/-- The output rule of R315 over (stride, extent) pairs sorted by stride. -/
def outStridesOk : Nat → List (Nat × Nat) → Bool
  | _, [] => true
  | least, (st, n) :: r => decide (least ≤ st) && outStridesOk (st * n) r

def Desc.outOk (d : Desc) : Bool :=
  outStridesOk (roundUp d.rowBytes 64) ((d.outer.map fun i => (d.stride i, d.ext i)).foldr insByFst [])

/-- Whether the rank and extents are in range, R313. -/
def Desc.fields (d : Desc) : Bool := decide (1 ≤ d.rank ∧ d.rank ≤ 6) && (List.range d.rank).all fun i => decide (1 ≤ d.exts.getD i 0)

/-- Whether two tensors of this device share a byte, R309. -/
def Desc.overlaps (d e : Desc) : Bool :=
  d.dev == e.dev && d.rows.any fun a => e.rows.any fun b => meets a d.rowBytes b e.rowBytes

/-- Whether two address ranges share a byte. -/
def spansMeet (a b : Nat × Nat) : Bool := meets a.1 a.2 b.1 b.2

/-- The first row of a tensor that an access by q fails on, with the status of R32, R219, R262, R367, R460. -/
def State.tensorErr (s : State) (q : Req) (u : Purpose) (write : Bool) (d : Desc) : Option (Nat × Nat) :=
  d.rows.findSome? fun a => (s.access q u write a d.rowBytes).map fun st => (a, st)

/-- The first row of a tensor that meets an uncorrectable line. -/
def State.tensorUe (s : State) (d : Desc) : Option Nat := d.rows.find? fun a => s.poisoned a d.rowBytes

/-- The code of element i of the row at an address, R292. -/
def State.elem (s : State) (fmt row i : Nat) : Nat :=
  let w := fmtBits fmt
  (leVal (s.rdSeen (row + i * w / 8) (ceilDiv (i * w % 8 + w) 8)) >>> (i * w % 8)) % 2 ^ w

/-- The bytes of a row of codes, little end first, R292. -/
def packRow (fmt : Nat) (l : List Nat) : Bytes :=
  let w := fmtBits fmt
  leBytes (ceilDiv (l.length * w) 8) (l.foldr (fun c n => n * 2 ^ w + c % 2 ^ w) 0)

/-- The codes that a run of bytes holds, little end first, R292. -/
def unpackCodes (fmt : Nat) (b : Bytes) : List Nat :=
  let w := fmtBits fmt
  (List.range (8 * b.length / w)).map fun i => (leVal (cut b (i * w / 8) (ceilDiv (i * w % 8 + w) 8)) >>> (i * w % 8)) % 2 ^ w

/-- The codes of one row. -/
def State.rowCodes (s : State) (d : Desc) (row : Nat) : List Nat := (List.range (d.ext 0)).map fun i => s.elem d.fmt row i

/-- Reads a descriptor as a command does when it becomes RUNNING, R316, R509: 64-byte alignment, ranges, fields, format. -/
def State.readDesc (s : State) (c : Cmd) (a : Nat) : Except Nat Desc :=
  match s.tableErr c.tableReq a 128 with
  | some st => .error st
  | none =>
    let d := Desc.parse a (s.tableAt c a 128)
    if a % 64 ≠ 0 then .error stAlignment
    else if !d.fields then .error stBadParam
    else if fmtBits d.fmt = 0 then .error stFormat
    else if !(d.aligned && d.packed) then .error stAlignment
    else .ok d

/-- Counts and reports the read of a descriptor that failed, R509, R517. -/
def State.descFailed (s : State) (c : Cmd) (l : List Nat) (e : Nat) : State :=
  match l.find? fun a => s.tableErr c.tableReq a 128 == some e with
  | some a =>
    if e = stRange ∨ e = stHole then s.failAccess (.part c.part) 7 a e
    else if e = 0x25 then s.memUe (.part c.part) 7 (s.ueLine a 128)
    else s
  | none => s

end Sys2Proof.Machine
end

