-- ==== Sys2Proof/Machine/Points.lean ====
section
/-! DEFINITION. Churn's point pipeline: the voxel hash, Skim, truncation, the point table, voxel sets, rulebooks and the octree, and
revision records: R212, R218 to R247. -/
namespace Sys2Proof.Machine

/-! The world grid's extent, R262, R265 -/

def State.gridOn (s : State) : Bool := bit (s.reg .plnGridCtl) 31
def State.gridEdge (s : State) : Rat := f32Rat ((s.reg .plnGridEdge).setWidth 32)

/-- The cell coordinate of a position on one axis. -/
def cellOf (p origin edge : Rat) : Int := if edge = 0 then 0 else ((p - origin) / edge).floor

/-- The scroll step of one axis for the body origin's position, R265: a multiple of 32 cells. -/
def scrollStep (p origin edge : Rat) : Int :=
  let g := cellOf p origin edge
  if 128 ≤ g ∧ g < 384 then 0 else 32 * divNear (g - 256) 32

/-- The scroll that the fill of a record with this pose takes, R265. -/
def State.gridScroll (s : State) (pose : Option Pose) (isStatic : Bool) : Int × Int :=
  if s.gridOn && bit (s.reg .plnGridCtl) 29 && !isStatic then
    match pose with
    | some g => (scrollStep g.p.x s.pln.ox s.gridEdge, scrollStep g.p.y s.pln.oy s.gridEdge)
    | none => (0, 0)
  else (0, 0)

/-- Whether a position lies in the grid's extent after a scroll. -/
def State.inGrid (s : State) (sc : Int × Int) (p : V3) : Bool :=
  let e := s.gridEdge
  let gx := cellOf p.x (s.pln.ox + (sc.1 : Rat) * e) e
  let gy := cellOf p.y (s.pln.oy + (sc.2 : Rat) * e) e
  let gz := cellOf p.z s.pln.oz e
  s.gridOn && decide (0 ≤ gx ∧ gx < 512 ∧ 0 ≤ gy ∧ gy < 512 ∧ 0 ≤ gz ∧ gz < 64)

/-! The voxel hash, R227, R228 -/

/-- A cell of the frame being built: its key, its slot (hash, then stash), what it holds, when it arrived, and the streams whose points it
took. -/
structure Cell where
  i : Nat
  j : Nat
  k : Nat
  slot : Nat
  evidence : Nat
  hits : Nat
  age : Nat
  pt : Pt
  arr : Nat
  srcs : List Nat := []
deriving DecidableEq, Repr

/-- The build of a frame. Cells stand in the order in which they were first occupied. -/
structure Build where
  level : Nat := 0
  cells : List Cell := []
  cap : Option Nat := none
  droppedRoi : Nat := 0
  droppedTrunc : Nat := 0
  arr : Nat := 0
  skims : List Nat := []
  clipped : List Nat := []
  peak : Nat := 0
deriving DecidableEq, Repr

/-- What a build is made against. -/
structure BuildEnv where
  cfg : VoxCfg
  t : Nat
  entries : Nat
  held : Nat
  rMax2 : Rat
  skim : Bool
deriving DecidableEq, Repr

/-- 10^40 · log2(32 / (2n − 1)) for n = 1 to 16, rounded down: the thresholds of the decaying contribution of R228. -/
def decayTable : List Nat := [
  50000000000000000000000000000000000000000, 34150374992788438185462610560521834912401, 26780719051126376521296805705106098241351,
  21926450779423958925580306827681691913589, 18300749985576876370925221121043669824803, 15405683813627027438006369532742070412967,
  12995602818589078396031873457433052663715, 10931094043914814706759416265627933153753, 9125371587496605917459339891895956459887,
  7520724865564145062064805770931655773064, 6076825772212397111042917388203526825991, 4764380439429871277058517558373311555011,
  3561438102252753042593611410212196482703, 2451124978365314556387831681565504737205, 1420190048724278792802266753720152375231,
  458036896131247911938764008244455764509]

/-- round(16 · 2^(−a / half)), R228: how many n from 1 satisfy 16 · 2^(−a / half) ≥ n − 1/2. -/
def contribution (a half : Nat) : Nat := (decayTable.filter fun x => decide (a * 10 ^ 40 ≤ half * x)).length

/-- The hash slot of a cell, R227. -/
def hashSlot (i j k : Nat) : Nat := (i * 2 ^ 32 + j * 2 ^ 16 + k) * 0x9E3779B97F4A7C15 % 2 ^ 64 / 2 ^ 45

/-- The cell of a point at a level; none outside the region of interest. -/
def VoxCfg.cell (c : VoxCfg) (level : Nat) (p : V3) : Option (Nat × Nat × Nat) :=
  if c.lo.x ≤ p.x ∧ p.x < c.hi.x ∧ c.lo.y ≤ p.y ∧ p.y < c.hi.y ∧ c.lo.z ≤ p.z ∧ p.z < c.hi.z then
    let e := f32Rat c.edge * ((2 ^ level : Nat) : Rat)
    some (((p.x - c.lo.x) / e).floor.toNat, ((p.y - c.lo.y) / e).floor.toNat, ((p.z - c.lo.z) / e).floor.toNat)
  else none

/-- The centre of a cell at a level. -/
def VoxCfg.centre (c : VoxCfg) (level i j k : Nat) : V3 :=
  let e := f32Rat c.edge * ((2 ^ level : Nat) : Rat)
  ⟨c.lo.x + ((i : Rat) + 1 / 2) * e, c.lo.y + ((j : Rat) + 1 / 2) * e, c.lo.z + ((k : Rat) + 1 / 2) * e⟩

/-- The square of the distance of the region's farthest corner from the body origin, R230. -/
def VoxCfg.rMax2 (c : VoxCfg) : Rat :=
  let m := fun (a b : Rat) => max (a * a) (b * b)
  m c.lo.x c.hi.x + m c.lo.y c.hi.y + m c.lo.z c.hi.z

/-- The range band of a cell, R230: floor(256 · r / r_max), at most 255. -/
def BuildEnv.band (v : BuildEnv) (level i j k : Nat) : Nat :=
  let c := v.cfg.centre level i j k
  if v.rMax2 = 0 then 0 else Nat.min 255 (isqrt ((c.dot c) * 65536 / v.rMax2).floor.toNat)

/-- The slot of a cell among those in use: its own, the first unused of its 8, its own or the first unused of the stash. -/
def Build.findSlot (b : Build) (i j k : Nat) : Option (Nat × Bool) :=
  let h := hashSlot i j k
  let near := (List.range 8).map fun n => (h + n) % 524288
  match b.cells.find? fun c => c.i == i && c.j == j && c.k == k with
  | some c => some (c.slot, true)
  | none =>
    match near.find? fun n => !(b.cells.any fun c => c.slot == n) with
    | some n => some (n, false)
    | none => ((List.range 4096).find? fun n => !(b.cells.any fun c => c.slot == 524288 + n)).map fun n => (524288 + n, false)

/-- Inserts a point into the cell (i, j, k); none is an overflow, R228. -/
def Build.insertAt (b : Build) (v : BuildEnv) (i j k : Nat) (p : Pt) : Option Build :=
  let a := Nat.min (v.t - p.time) (2 ^ 32 - 1)
  let c := contribution a v.cfg.halfNs
  match b.findSlot i j k with
  | none => none
  | some (slot, true) =>
    some { b with
      arr := b.arr + 1
      cells := updFirst (fun x => x.slot == slot) (fun x =>
        let x := { x with evidence := Nat.min 255 (x.evidence + c), hits := Nat.min 15 (x.hits + 1), srcs := x.srcs ++ [p.stream] }
        if a ≤ x.age then { x with pt := p, age := a, arr := b.arr } else x) b.cells }
  | some (slot, false) =>
    if v.cfg.maxSites ≤ b.cells.length ∨ v.entries ≤ v.held + b.cells.length then none
    else
      let cells := b.cells ++ [Cell.mk i j k slot c 1 a p b.arr [p.stream]]
      some { b with arr := b.arr + 1, cells := cells, peak := Nat.max b.peak (cells.filter fun x => decide (524288 ≤ x.slot)).length }

/-- Two cells that merge: the newest point is kept, of equal ones the later arrival; evidence and hits are added, R229. -/
def Cell.merge (x y : Cell) : Cell :=
  let newer := if y.age < x.age ∨ (y.age = x.age ∧ x.arr < y.arr) then y else x
  { x with evidence := Nat.min 255 (x.evidence + y.evidence), hits := Nat.min 15 (x.hits + y.hits), age := newer.age, pt := newer.pt,
           arr := newer.arr, srcs := x.srcs ++ y.srcs }

/-- Puts the cells of a list into an empty hash in their order. -/
def rehash (cells : List Cell) : List Cell :=
  cells.foldl (fun (l : List Cell) c =>
    match ({ cells := l } : Build).findSlot c.i c.j c.k with
    | some (n, _) => l ++ [{ c with slot := n }]
    | none => l ++ [{ c with slot := 528384 + l.length }]) []

/-- Raises the level by one: every cell joins its cell at the new level, R229. -/
def Build.raiseLevel (b : Build) : Build :=
  let up := b.cells.foldl (fun (l : List Cell) c =>
    let c := { c with i := c.i / 2, j := c.j / 2, k := c.k / 2 }
    if l.any fun x => x.i == c.i && x.j == c.j && x.k == c.k then
      updFirst (fun x => x.i == c.i && x.j == c.j && x.k == c.k) (fun x => x.merge c) l
    else l ++ [c]) []
  { b with level := b.level + 1, cells := rehash up, skims := b.skims ++ [b.level + 1] }

/-- Whether Skim raises the level after an insert, R229. -/
def Build.crowded (b : Build) (v : BuildEnv) : Bool :=
  decide (7 * Nat.min 524288 v.cfg.maxSites < 8 * b.cells.length) || decide (15 * v.entries < 16 * (v.held + b.cells.length))

/-- Removes the farthest occupied band and remembers whose points were dropped, R230. -/
def Build.truncate (b : Build) (v : BuildEnv) : Build :=
  let far := b.cells.foldl (fun m c => Nat.max m (v.band b.level c.i c.j c.k)) 0
  let gone := b.cells.filter fun c => v.band b.level c.i c.j c.k == far
  { b with
    cap := some far, cells := rehash (b.cells.filter fun c => v.band b.level c.i c.j c.k != far)
    droppedTrunc := b.droppedTrunc + gone.foldl (fun n c => n + c.hits) 0
    clipped := b.clipped ++ gone.flatMap (·.srcs) }

/-- A point is dropped on its arrival, R230. -/
def Build.dropPt (b : Build) (p : Pt) : Build := { b with droppedTrunc := b.droppedTrunc + 1, clipped := b.clipped ++ [p.stream] }

/-- Inserts a deskewed point: overflow and crowding raise the level, at level 3 an overflow truncates, R228 to R230. With no cell to remove,
the table being full of held runs, the cap is the point's own band (log entry 90). -/
def Build.insert (v : BuildEnv) : Nat → Build → Pt → Build
  | 0, b, p => b.dropPt p
  | fuel + 1, b, p =>
    match v.cfg.cell b.level p.pos with
    | none => { b with droppedRoi := b.droppedRoi + 1 }
    | some (i, j, k) =>
      let beyond := match b.cap with | some c => decide (c ≤ v.band b.level i j k) | none => false
      if beyond then b.dropPt p
      else match b.insertAt v i j k p with
        | some b => if v.skim && b.crowded v && decide (b.level < 3) then b.raiseLevel else b
        | none =>
          if v.skim && decide (b.level < 3) then (b.raiseLevel).insert v fuel p
          else if b.cells.isEmpty then ({ b with cap := some (v.band b.level i j k) }).dropPt p
          else (b.truncate v).insert v fuel p

/-! Table images, R218, R222, R227 -/

def State.octMib (s : State) : Nat := s.fldOf .chnSplit 0 3
def State.ptEntries (s : State) : Nat := (s.reg .chnPtEntries).toNat
def ptAddr (oct entries n : Nat) : Nat := churnBase + 0x100000 * oct + 16 * (n % Nat.max 1 entries)

/-- A point-table entry, R222. -/
def ptBytes (t : Nat) (p : Pt) : Bytes :=
  leBytes 4 (Nat.min ((t - p.time) / 4000) 262143 * 2 ^ 14 + p.stream % 64 * 2 ^ 8 + p.int_ % 256) ++
  leBytes 4 (f32Of p.pos.z).toNat ++ leBytes 4 (f32Of p.pos.y).toNat ++ leBytes 4 (f32Of p.pos.x).toNat

/-- A hash or stash entry, R227. -/
def Cell.bytes (c : Cell) (entry : Nat) : Bytes :=
  leBytes 16 (2 ^ 127 + c.i % 65536 * 2 ^ 96 + c.j % 65536 * 2 ^ 80 + c.k % 65536 * 2 ^ 64 + entry % 2 ^ 20 * 2 ^ 44 +
    c.evidence * 2 ^ 36 + c.hits * 2 ^ 32 + c.age)

/-- Forgets what a region of memory holds: it reads 0. -/
def State.clearMem (s : State) (lo size : Nat) : State :=
  { s with mem := s.mem.filter fun e => !(decide (lo ≤ e.1 ∧ e.1 < lo + size)) }

/-- Writes the run, hash and stash of a build. -/
def State.writeTables (s : State) (b : Build) (t first : Nat) : State :=
  let s := (s.clearMem (churnBase + 0x1600000) 0x800000).clearMem (churnBase + 0x1F40000) 0x10000
  b.cells.zipIdx.foldl (fun (s : State) x =>
    let c := x.1
    let n := first + x.2
    let at_ := if c.slot < 524288 then churnBase + 0x1600000 + 16 * c.slot else churnBase + 0x1F40000 + 16 * (c.slot - 524288)
    (s.wr (ptAddr s.octMib s.ptEntries n) (ptBytes t c.pt)).wr at_ (c.bytes (n % Nat.max 1 s.ptEntries))) s

/-! Rulebooks, R236, R237 -/

/-- The coordinates of a set. -/
abbrev SiteSet := List (Nat × Nat × Nat)

/-- The site index of integer coordinates in a set. -/
def siteAt (l : SiteSet) (x y z : Int) : Option Nat :=
  if x < 0 ∨ y < 0 ∨ z < 0 then none else l.findIdx? (fun c => c.1 == x.toNat && c.2.1 == y.toNat && c.2.2 == z.toNat)

/-- The kernel offsets in index order: dx, dy, dz from −r (from 0 for K = 2). -/
def offsets (kernel : Nat) : List (Int × Int × Int) :=
  let r : Int := if kernel = 2 then 0 else (kernel / 2 : Nat)
  (List.range kernel).flatMap fun x => (List.range kernel).flatMap fun y => (List.range kernel).map fun z =>
    (Int.ofNat x - r, Int.ofNat y - r, Int.ofNat z - r)

/-- The output set of a DOWN: the halved cells, in the order in which the input set first meets them. -/
def downSet (l : SiteSet) : SiteSet :=
  l.foldl (fun (o : SiteSet) c => let d := (c.1 / 2, c.2.1 / 2, c.2.2 / 2); if o.contains d then o else o ++ [d]) []

/-- The pairs of one offset, by ascending output site: the input site lies at the output cell plus the offset (DEDUCED, log entry
51). `scale` is 2 for a DOWN. -/
def pairsOf (ins outs : SiteSet) (scale : Int) (d : Int × Int × Int) : List (Nat × Nat) :=
  outs.zipIdx.filterMap fun o =>
    (siteAt ins (scale * (o.1.1 : Int) + d.1) (scale * (o.1.2.1 : Int) + d.2.1) (scale * (o.1.2.2 : Int) + d.2.2)).map fun i => (i, o.2)

/-- A spec as built: status, sites, pairs stored, directory and offsets in the slot. -/
structure RbOut where
  spec : RbSpec
  status : Nat
  nOut : Nat := 0
  nPairs : Nat := 0
  dir : List (Nat × Nat) := []
  dirOff : Nat := 0
  pairsOff : Nat := 0
  outOff : Nat := 0
  pairs : List (Nat × Nat) := []
  outs : SiteSet := []
deriving DecidableEq, Repr

/-- The rulebooks being built: the sets that exist, whether each is void because its DOWN overflowed, and the next free offset. -/
structure RbBuild where
  sets : List (Nat × Option SiteSet)
  at_ : Nat
  outs : List RbOut := []
deriving DecidableEq, Repr

/-- Builds one spec into what is left of the slot, R237. -/
def RbBuild.add (r : RbBuild) (slotBytes : Nat) (p : RbSpec) : RbBuild :=
  let fail := fun (st : Nat) => { r with outs := r.outs ++ [{ spec := p, status := st }] }
  let set? := fun n => (r.sets.find? fun e => e.1 == n).bind (·.2)
  if p.kind = 2 then
    match r.outs[p.pair]?, set? (p.inSet - 1) with
    | some d, some up =>
      if d.status ≠ 0 then fail 2
      else
        let dirB := 8 * d.dir.length
        if slotBytes < r.at_ + dirB then fail 1
        else { r with
          at_ := r.at_ + dirB
          outs := r.outs ++ [{ spec := p, status := 0, nOut := up.length, nPairs := d.nPairs, dir := d.dir, dirOff := r.at_, pairsOff := d.pairsOff }] }
    | _, _ => fail 2
  else
    match set? p.inSet with
    | none => fail 2
    | some ins =>
      let outs := if p.kind = 1 then downSet ins else ins
      let centre := if p.kind = 0 then some (p.kernel * p.kernel * p.kernel / 2) else none
      let lists := (offsets p.kernel).zipIdx.map fun d =>
        if some d.2 = centre then (outs.length, []) else
          let l := pairsOf ins outs (if p.kind = 1 then 2 else 1) d.1
          (l.length, l)
      let pairs := lists.flatMap (·.2)
      let dir := (lists.foldl (fun (a : Nat × List (Nat × Nat)) x => (a.1 + x.2.length, a.2 ++ [(a.1, x.1)])) (0, [])).2
      let need := 8 * dir.length + 8 * pairs.length + (if p.kind = 1 then 8 * outs.length else 0)
      if slotBytes < r.at_ + need then
        let f := fail 1
        if p.kind = 1 then { f with sets := f.sets ++ [(p.inSet + 1, none)] } else f
      else
        let pOff := r.at_ + 8 * dir.length
        { r with
          at_ := r.at_ + need
          sets := if p.kind = 1 then r.sets ++ [(p.inSet + 1, some outs)] else r.sets
          outs := r.outs ++ [{ spec := p, status := 0, nOut := outs.length, nPairs := pairs.length, dir := dir, dirOff := r.at_,
                               pairsOff := pOff, outOff := if p.kind = 1 then pOff + 8 * pairs.length else 0, pairs := pairs, outs := outs }] }

/-- A spec entry of the slot, R236. -/
def RbOut.bytes (r : RbOut) : Bytes :=
  leBytes 1 r.spec.kind ++ leBytes 1 r.spec.kernel ++ leBytes 1 r.spec.inSet ++ leBytes 1 r.spec.pair ++ leBytes 1 r.status ++ leBytes 3 0 ++
  leBytes 4 r.nOut ++ leBytes 4 r.nPairs ++ leBytes 4 r.dirOff ++ leBytes 4 r.pairsOff ++ leBytes 4 r.outOff ++ leBytes 4 0

def coordBytes (c : Nat × Nat × Nat) : Bytes := leBytes 2 c.1 ++ leBytes 2 c.2.1 ++ leBytes 2 c.2.2 ++ leBytes 2 0
def pairBytes (p : Nat × Nat) : Bytes := leBytes 4 p.1 ++ leBytes 4 p.2

/-! The voxel set, R234, R235, R239 -/

/-- The BF16 pattern of a rational: exact where BF16 holds it, else free (log entry 18). -/
def bf16Of (q : Rat) : BitVec 16 :=
  let w := f32Of q
  if fld w 0 16 = 0 ∧ f32? w = some q then BitVec.ofNat 16 (fld w 16 16) else Config.bf16Inexact q

/-- The feature row of a site, R235; its range is that of the cell centre (log entry 51). -/
def featureRow (v : BuildEnv) (level : Nat) (c : Cell) : Bytes :=
  let e := f32Rat v.cfg.edge * ((2 ^ level : Nat) : Rat)
  let m := v.cfg.centre level c.i c.j c.k
  let d := c.pt.pos.sub m
  let ch : List Rat := [d.x / e, d.y / e, d.z / e, (c.pt.int_ : Rat) / 255, (c.evidence : Rat) / 255,
    ((v.t - c.pt.time : Nat) : Rat) / 1000000000, (c.hits : Rat) / 15, sqrtRat (m.dot m / v.rMax2), c.pt.pos.z, 1]
  cut (ch.flatMap fun q => leBytes 2 (bf16Of q).toNat) 0 64

def vsetMagic : Nat := 0x43485653

/-- The next slot in ring order with in_use 0. -/
def State.freeVset (s : State) (c : Sched) : Option Nat :=
  ((List.range c.vox.slots).map fun i => (c.voxNext + i) % Nat.max 1 c.vox.slots).find? fun n =>
    s.rdNum (c.vox.addr + n * c.vox.slotBytes + 0x1C) 4 == 0

/-- Where the features and the rulebooks of a slot begin, R234. -/
def VoxCfg.featOff (c : VoxCfg) : Nat := roundUp (0x400 + 8 * c.maxSites) 64
def VoxCfg.rbOff (c : VoxCfg) : Nat := c.featOff + 64 * c.maxSites

def Build.sites (b : Build) : SiteSet := b.cells.map fun x => (x.i, x.j, x.k)

/-- The rulebooks of a build, R237. -/
def VoxCfg.rulebooks (c : VoxCfg) (b : Build) : RbBuild :=
  c.specs.foldl (fun (r : RbBuild) p => r.add c.slotBytes p) { sets := [(0, some b.sites)], at_ := c.rbOff }

/-- The specs that overflowed. -/
def RbBuild.overflow (r : RbBuild) : Nat := r.outs.zipIdx.foldl (fun m x => if x.1.status = 1 then m + 2 ^ x.2 else m) 0

/-- The rulebook table holds the last offset built, whether or not a slot takes the books, R237, R239 (log entry 51). -/
def State.writeRulebook (s : State) (r : RbBuild) : State :=
  let last := match (r.outs.filter fun o => !o.pairs.isEmpty).getLast? with
    | some o => o.pairs.drop (match (o.dir.filter fun (d : Nat × Nat) => decide (d.1 < o.nPairs)).getLast? with | some d => d.1 | none => 0)
    | none => []
  if last.isEmpty then s else s.wr (churnBase + 0x1200000) (last.flatMap pairBytes)

/-- Writes the voxel set of a build into its slot; `magic` false leaves magic 0 (DISCARD). -/
def State.writeVset (s : State) (j : Nat) (i : Inst) (b : Build) (v : BuildEnv) (slot : Nat) (magic : Bool) : State :=
  let c := s.sched j
  let cfg := c.vox
  let base := cfg.addr + slot * cfg.slotBytes
  let rb := cfg.rulebooks b
  let seq := (s.reg (.chnSchedSeq j)).toNat
  let head := fun (m : Nat) =>
    leBytes 4 m ++ leBytes 1 j ++ leBytes 1 b.level ++ leBytes 2 (if b.cap.isSome then 1 else 0) ++ leBytes 8 seq ++ leBytes 8 i.t ++
    leBytes 4 b.cells.length ++ leBytes 4 (s.rdNum (base + 0x1C) 4) ++ (c.tag i false).bytes ++
    f32Bytes (f32Rat cfg.edge * ((2 ^ b.level : Nat) : Rat)) ++ cfg.loBytes ++ leBytes 4 0x400 ++ leBytes 4 cfg.featOff ++ leBytes 4 cfg.rbOff ++
    leBytes 1 cfg.specs.length ++ leBytes 3 0
  let s := s.store base (head 0)
  let s := rb.outs.zipIdx.foldl (fun (s : State) x => s.store (base + 0x100 + 32 * x.2) x.1.bytes) s
  let s := s.store (base + 0x400) (b.sites.flatMap coordBytes)
  let s := s.store (base + cfg.featOff) (b.cells.flatMap (featureRow v b.level))
  let s := rb.outs.foldl (fun (s : State) r =>
    if r.status ≠ 0 then s
    else
      let s := s.store (base + r.dirOff) (r.dir.flatMap pairBytes)
      if r.spec.kind = 2 then s
      else
        let s := s.store (base + r.pairsOff) (r.pairs.flatMap pairBytes)
        if r.outOff = 0 then s else s.store (base + r.outOff) (r.outs.flatMap coordBytes)) s
  if magic then s.store base (head vsetMagic) else s

/-! The octree, R240 to R242 -/

/-- The owner of the octree: that of its source schedule, R240. -/
def State.octOwner (s : State) : Nat := match s.chn.oct.sched with | some j => s.schedOwner j | none => 0

/-- Whether a partition owns the octree's source schedule; without one the octree is anyone's. -/
def State.ownsOct (s : State) (part : Nat) : Bool := match s.chn.oct.sched with | some j => s.ownsSched j part | none => true

def State.onode (s : State) (n : Nat) : ONode := sget {} s.chn.oct.nodes n

/-- Writes a node and its image in the pool. A node is listed for as long as it is in use. -/
def State.setNode (s : State) (n : Nat) (x : ONode) : State :=
  let o := s.chn.oct
  let s := { s with chn := { s.chn with oct := { o with nodes := sins (sdel o.nodes n) n x } } }
  s.wr (churnBase + 16 * n) (leBytes 16 (x.child * 2 ^ 96 + x.states.toNat * 2 ^ 80 + Nat.min x.age 255 * 2 ^ 72 + x.level * 2 ^ 64 + x.parent * 2 ^ 32))

def State.freeNode (s : State) (n : Nat) : State :=
  let o := s.chn.oct
  ({ s with chn := { s.chn with oct := { o with nodes := sdel o.nodes n } } }).wr (churnBase + 16 * n) (List.replicate 16 0)

def State.syncOct (s : State) : State := s.setFldOf .chnOctStat 0 19 s.chn.oct.nodes.length

/-- The state of child c. -/
def ONode.kid (x : ONode) (c : Nat) : Nat := fld x.states (2 * c) 2
def ONode.setKid (x : ONode) (c v : Nat) : ONode := { x with states := setFld x.states (2 * c) 2 v }
/-- The SUBDIVIDED children before child c. -/
def ONode.before (x : ONode) (c : Nat) : Nat := ((List.range c).filter fun i => x.kid i == 3).length
def ONode.subs (x : ONode) : Nat := x.before 8
/-- The node of a SUBDIVIDED child. -/
def ONode.kidNode (x : ONode) (c : Nat) : Nat := x.child + x.before c

/-- The first place of n consecutive free nodes in a pool, from a start. -/
def freeBlock (used : List Nat) (size n : Nat) : Nat → Nat → Option Nat
  | 0, _ => none
  | fuel + 1, p =>
    if size < p + n then none
    else match (used.filter fun u => decide (p ≤ u ∧ u < p + n)).getLast? with
      | none => some p
      | some u => freeBlock used size n fuel (u + 1)

/-- Moves the node m to n, with its children's parent links. -/
def State.moveNode (s : State) (m n : Nat) : State :=
  let x := s.onode m
  let s := (List.range x.subs).foldl (fun (s : State) i => s.setNode (x.child + i) { s.onode (x.child + i) with parent := n }) s
  (s.freeNode m).setNode n x

/-- Subdivides child c of node p: the block of its SUBDIVIDED children moves to n + 1 consecutive free nodes; none when there are
none (a choice of places, log entry 52). -/
def State.subdivide (s : State) (p c : Nat) : Option State :=
  let x := s.onode p
  let k := x.subs
  let used := s.chn.oct.nodes.map (·.1)
  match freeBlock used (65536 * s.octMib) (k + 1) (used.length + 1) 1 with
  | none => none
  | some b =>
    let at_ := x.before c
    let s := (List.range k).foldl (fun (s : State) i => s.moveNode (x.child + i) (if i < at_ then b + i else b + i + 1)) s
    let s := s.setNode (b + at_) { level := x.level + 1, parent := p }
    some (s.setNode p { (x.setKid c 3) with child := b })

/-- Marks the leaf at leaf coordinates: nodes are subdivided as needed; a refused subdivision marks the child coarse, R242. -/
def State.markLeaf (s : State) : Nat → Nat → Nat → Nat → Nat → State
  | 0, _, _, _, _ => s
  | lev + 1, n, x, y, z =>
    let b := 2 ^ lev
    let c := (if x / b % 2 = 1 then 1 else 0) + (if y / b % 2 = 1 then 2 else 0) + (if z / b % 2 = 1 then 4 else 0)
    let s := s.setNode n { s.onode n with age := 0 }
    if lev = 0 then s.setNode n ((s.onode n).setKid c 1)
    else if (s.onode n).kid c = 3 then s.markLeaf lev ((s.onode n).kidNode c) x y z
    else match s.subdivide n c with
      | some s => s.markLeaf lev ((s.onode n).kidNode c) x y z
      | none =>
        (((s.setNode n ((s.onode n).setKid c 2)).countSat .chnOctRefused 16 16).modReg .chnOctStat fun v => setBit v 31 true).raiseLim
          0x0412 0 s.octOwner

/-- Frees everything below a node. -/
def State.freeBelow (s : State) : Nat → Nat → State
  | 0, _ => s
  | fuel + 1, n =>
    let x := s.onode n
    (List.range x.subs).foldl (fun (s : State) i => (s.freeBelow fuel (x.child + i)).freeNode (x.child + i)) s

/-- Prunes node n: its parent's child state becomes UNKNOWN and the block of its siblings closes up. The root only forgets. -/
def State.pruneNode (s : State) (n : Nat) : State :=
  let x := s.onode n
  let s := s.freeBelow 17 n
  if n = 0 then s.setNode 0 {}
  else
    let p := s.onode x.parent
    match (List.range 8).find? fun c => p.kid c == 3 && p.kidNode c == n with
    | none => s
    | some c =>
      let at_ := p.before c
      let s := s.freeNode n
      let s := (List.range (p.subs - 1 - at_)).foldl (fun (s : State) i => s.moveNode (n + i + 1) (n + i)) s
      let q := p.setKid c 0
      s.setNode x.parent { q with child := if q.subs = 0 then 0xFFFFFFFF else q.child }

/-- Prunes until no node's age exceeds persist. -/
def State.pruneAll (s : State) : Nat → State
  | 0 => s
  | fuel + 1 =>
    match s.chn.oct.nodes.find? fun e => decide (s.chn.oct.persist < e.2.age) with
    | none => s
    | some (n, _) => (s.pruneNode n).pruneAll fuel

/-- The update from one record, R242. -/
def State.octUpdate (s : State) (i : Inst) (b : Build) (v : BuildEnv) : State :=
  match i.pose with
  | none => s
  | some pose =>
    let o := s.chn.oct
    let sc := s.gridScroll i.pose i.isStatic
    let half := o.leaf * ((2 ^ o.depth : Nat) : Rat) / 2
    let pts := (b.cells.map fun c => pose.rigid.app (v.cfg.centre b.level c.i c.j c.k)).filter fun p => !(s.inGrid sc p)
    let s := s.chn.oct.nodes.foldl (fun (s : State) e => s.setNode e.1 { e.2 with age := Nat.min 255 (e.2.age + 1) }) s
    let s := pts.foldl (fun (s : State) p =>
      let f := fun (q c : Rat) => if o.leaf = 0 then (-1 : Int) else ((q - (c - half)) / o.leaf).floor
      let x := f p.x o.centre.x
      let y := f p.y o.centre.y
      let z := f p.z o.centre.z
      let n : Int := (2 ^ o.depth : Nat)
      if x < 0 ∨ n ≤ x ∨ y < 0 ∨ n ≤ y ∨ z < 0 ∨ n ≤ z then s.countSat .chnOctRefused 0 16
      else s.markLeaf o.depth 0 x.toNat y.toNat z.toNat) s
    (((s.pruneAll (s.chn.oct.nodes.length + 1))).syncOct).setReg .chnOctGen (s.reg .chnOctGen + 1)

/-- Clears the octree to its root. -/
def State.octClear (s : State) : State :=
  let s := s.clearMem churnBase (0x100000 * s.octMib)
  let o := s.chn.oct
  let s := { s with chn := { s.chn with oct := { o with nodes := [] } } }
  ((if o.sched.isSome then s.setNode 0 {} else s).setReg .chnOctStat 0).syncOct

/-! POINT_FRAME_BUILD, R224, R229 to R239 -/

/-- Fills the WINDOW entries from a build: kept points and clipping, R224. -/
def fillEntries (l : List REntry) (b : Build) : List REntry :=
  l.map fun e =>
    if e.sel = 2 ∧ e.verdict = 0 then
      { e with kept := (b.cells.filter fun c => c.pt.stream == e.stream).length,
               eflags := e.eflags + (if b.clipped.contains e.stream then 2 else 0) }
    else e

/-- Counts and tells what a build met, R229, R230, R244, R247. -/
def State.countBuild (s : State) (j : Nat) (i : Inst) (b : Build) : State :=
  let own := s.schedOwner j
  let s := b.skims.foldl (fun s l => s.raiseLim 0x0410 j own (evData [j, i.t, l])) s
  let s := if b.level = 0 then s else s.countSat .chnVoxSkim (8 * (b.level - 1)) 8
  let s := match b.cap with
    | some c => (s.countSat .chnVoxSkim 24 8).raiseLim 0x0411 j own (evData [j, i.t, c, b.droppedTrunc])
    | none => s
  let s := (s.addSat .chnVoxDropTrunc 0 32 b.droppedTrunc).addSat .chnVoxDropRoi 0 32 b.droppedRoi
  let stash := (b.cells.filter fun c => decide (524288 ≤ c.slot)).length
  ((s.maxFld .chnVhStash 16 13 b.peak).setFldOf .chnVhStash 0 13 stash).setFldOf .chnVhUsed 0 20 b.cells.length

/-- What a build of an instant of a schedule is made against. -/
def State.buildEnv (s : State) (j t : Nat) (skim : Bool) : BuildEnv :=
  let c := (s.sched j).vox
  { cfg := c, t := t, entries := s.ptEntries, held := (s.reg .chnPtHead).toNat - (s.reg .chnPtOldest).toNat, rMax2 := c.rMax2, skim := skim }

/-- Takes a run of kept points into the point table, R223. -/
def State.takeRun (s : State) (j k t : Nat) (b : Build) (released : Bool) : State :=
  let head := (s.reg .chnPtHead).toNat
  let s := (s.writeTables b t head).setReg .chnPtHead (BitVec.ofNat 64 (head + b.cells.length))
  ({ s with chn := { s.chn with runs := s.chn.runs ++ [PRun.mk j k head b.cells.length released] } }).syncRuns

/-- The rulebooks of a frame are built: the table, CHN_RB_STAT and EV_RULEBOOK_OVERFLOW, R237. -/
def State.bookStat (s : State) (j : Nat) (r : RbBuild) : State :=
  let m := r.overflow
  let s := (s.writeRulebook r).setFldOf .chnRbStat 0 16 m
  if m = 0 then s else (s.addSat .chnRbStat 16 16 (popCount 16 m)).raiseLim 0x0413 j (s.schedOwner j) (evData [j, m])

/-- Builds the frame of an instant. -/
def State.buildFrame (s : State) (j : Nat) (i : Inst) : State :=
  let v := s.buildEnv j i.t true
  let b := i.pts.foldl (fun (b : Build) p => b.insert v 300 p) {}
  let first := (s.reg .chnPtHead).toNat
  let own := s.schedOwner j
  let s := (s.countBuild j i b).takeRun j i.k i.t b i.discardRun
  let c := s.sched j
  let vs : Option Nat × Nat × State := if c.vox.slots = 0 then (none, 0, s)
    else match s.freeVset c with
      | none => (none, 16, (s.countSat .chnVsetSkip 0 32).raiseLim 0x0414 j own (evData [j, i.t]))
      | some n =>
        let s := (s.writeVset j i b v n (!i.discardRun)).modSched j fun x => { x with voxNext := (n + 1) % Nat.max 1 x.vox.slots }
        (some (c.vox.addr + n * c.vox.slotBytes), if i.discardRun then 0 else 4, s)
  let s := if c.vox.slots = 0 then vs.2.2 else vs.2.2.bookStat j (c.vox.rulebooks b)
  let oct := decide (s.chn.oct.sched = some j) && s.egoValid && i.pose.isSome && !i.isStatic && !i.discardRun
  let s := if oct then s.octUpdate i b v else s
  let built : Built := {
    first := first, len := b.cells.length, level := b.level
    vflags := 1 + (if b.cap.isSome then 2 else 0) + vs.2.1 + (if oct then 8 else 0)
    cap := b.cap.getD 0xFFFF, edge := f32Rat c.vox.edge * ((2 ^ b.level : Nat) : Rat), sites := b.cells.length
    vset := vs.1.getD 0, droppedTrunc := b.droppedTrunc, droppedRoi := b.droppedRoi, octGen := (s.reg .chnOctGen).toNat
    pts := b.cells.map (·.pt) }
  s.updInst j i.k fun x => { x with built := some built, entries := fillEntries x.entries b }

/-- POINT_FRAME_BUILD: the next closed frame, in order of close across all schedules; none while one is in progress, a fill or a re-split
waits or the function is disabled, R233, R243, R264. -/
def pointFrameBuild (s : State) : State :=
  match s.chn.order with
  | [] => s
  | (j, k) :: r =>
    if s.chn.split.isSome || s.funcOff 3 0 || !s.pln.fills.isEmpty || s.frameBusy.isSome then s
    else match s.inst? j k with
      | some i => if i.state = .building then s.buildFrame j i else { s with chn := { s.chn with order := r } }
      | none => { s with chn := { s.chn with order := r } }

def execPointFrameBuild (dt : Nat) (s : State) : Host.Outcome State Fault Refusal := runEvent dt pointFrameBuild s

/-! REVISION_RECORD_COMMIT, R212, R231 -/

/-- The run of a revision: the newest run and the late points at the same level, without Skim. -/
def State.reviseRun (s : State) (j : Nat) (i sel : Inst) (late : List Pt) : Inst × State :=
  match i.built with
  | none => (sel, s)
  | some old =>
    let v := s.buildEnv j i.t false
    let b := (old.pts ++ late).foldl (fun (b : Build) p => b.insert v 300 p) { level := old.level }
    let first := (s.reg .chnPtHead).toNat
    let s := s.takeRun j i.k i.t b false
    let s := match b.cap with
      | some c => (s.countSat .chnVoxSkim 24 8).raiseLim 0x0411 j (s.schedOwner j) (evData [j, i.t, c, b.droppedTrunc])
      | none => s
    let built := { old with
      first := first, len := b.cells.length, vflags := old.vflags % 2 + (if b.cap.isSome then 2 else 0), cap := b.cap.getD 0xFFFF
      sites := b.cells.length, vset := 0, droppedTrunc := b.droppedTrunc, droppedRoi := b.droppedRoi, pts := b.cells.map (·.pt) }
    ({ sel with built := some built, entries := fillEntries sel.entries b }, s)

/-- A revision that is not built is counted and told. -/
def State.skipRevision (s : State) (j : Nat) (i : Inst) : State :=
  ((s.countSat (.chnSchedRev j) 16 16).raiseLim 0x0407 j (s.schedOwner j) (evData [j, i.t])).updInst j i.k fun x =>
    { x with late := false, revAfter := none, revSel := none }

/-- Whether the pipeline can build a revision's run now: it builds one frame at a time, and takes none while a re-split waits, R233, R243. -/
def State.runWaits (s : State) (j : Nat) : Bool := s.voxelised j && (s.frameBusy.isSome || (s.chn.split.isSome && !(s.funcOff 3 0)))

/-- The revision of an instant: its selection as the next instant closed, with a new run, or without point stages while they are disabled,
R212, R231, R243. -/
def State.buildRevision (s : State) (j : Nat) (i : Inst) (x : InstSel) : Inst × State :=
  let sel := { i with entries := x.entries, pose := x.pose, isStatic := x.isStatic }
  let late := x.pts.filter fun p => !(i.pts.any p.same)
  let r := if s.voxelised j && s.funcOff 3 0 then ({ sel with built := i.built }.noPoints, s) else s.reviseRun j i sel late
  ({ r.1 with pts := i.pts ++ late }, r.2)

/-- REVISION_RECORD_COMMIT: after the record of the instant that closed since. -/
def revisionRecordCommit (j k : Nat) (s : State) : State :=
  match s.inst? j k with
  | none => s
  | some i =>
    match i.revAfter with
    | none => s
    | some m =>
      let waits := match s.inst? j m with | some x => x.state == .building || x.state == .opened | none => false
      if i.state ≠ .published ∨ waits = true ∨ s.schedRuns j = false then s
      else if i.rev = 3 then s.skipRevision j i
      else match i.revSel with
        | none => s.skipRevision j i
        | some x =>
          if s.runWaits j then s
          else
            let r := s.buildRevision j i x
            let seq := (r.2.reg (.chnSchedSeq j)).toNat
            let sel := { r.1 with rev := i.rev + 1, seq := i.seq, late := false, revAfter := none, revSel := none, state := .published }
            let s := (r.2.writeRecord j sel (i.rev + 1) seq recMagic).published j sel
            ((s.countSat (.chnSchedRev j) 0 16).updInst j k fun _ => sel).settleSched j

def execRevisionRecordCommit (dt sched k : Nat) (s : State) : Host.Outcome State Fault Refusal :=
  runEvent dt (revisionRecordCommit sched k) s

/-! Commands, R220, R225, R226, R240, R243, R246 -/

/-- Whether a field fits within the stride. -/
def fits (off size stride : Nat) : Bool := decide (off + size ≤ stride)

/-- CHURN_POINT_FORMAT: R220. -/
def churnPointFormat (c : Cmd) (s : State) : State :=
  let n := c.p 0x20 1
  let f : PointFmt := {
    coord := c.p 0x21 1, int_ := c.p 0x22 1, time := c.p 0x23 1, stride := c.p 0x24 2, skip := c.p 0x26 2, xo := c.p 0x28 1, yo := c.p 0x29 1,
    zo := c.p 0x2A 1, io := c.p 0x2B 1, tof := c.p 0x2C 1, scale := f32Rat (f32At c.params 0x10), unit := c.p 0x34 4,
    minRange := f32Rat (f32At c.params 0x18) }
  let cw := if f.coord = 1 then 2 else 4
  let ok := decide (n ≤ 63 ∧ f.coord ≤ 2 ∧ f.int_ ≤ 2 ∧ f.time ≤ 3 ∧ 8 ≤ f.stride ∧ f.stride ≤ 64 ∧ f.skip ≤ 1024) &&
    fits f.xo cw f.stride && fits f.yo cw f.stride && fits f.zo cw f.stride && (f.int_ == 0 || fits f.io f.int_ f.stride) &&
    (f.time == 0 || fits f.tof (if f.time = 3 then 2 else 4) f.stride) && finiteAt c.params 0x18 1 &&
    inF32 (f32At c.params 0x10) (1 / 1000000) 1 && decide (1 ≤ f.unit ∧ f.unit ≤ 1000000 ∧ 0 ≤ f.minRange ∧ f.minRange ≤ 10)
  s.firstFail c [(!ok, stBadParam), (s.foreignStream n c.part, stNotPermitted), (!(s.masking n).isEmpty, stBusy)] fun s =>
    ({ s with chn := { s.chn with fmts := sset {} s.chn.fmts n f } }).done c

def execChurnPointFormat (dt id : Nat) (s : State) : Host.Outcome State Fault Refusal := runCmd dt id 0x0410 churnPointFormat s

/-- Whether spec entries keep the rules of R236. -/
def specsOk (l : List RbSpec) : Bool :=
  l.zipIdx.all fun e =>
    let p := e.1
    let earlier := l.take e.2
    let made := fun (n : Nat) => n == 0 || earlier.any fun q => q.kind == 1 && q.inSet + 1 == n
    if p.kind = 0 then [1, 3, 5].contains p.kernel && decide (p.inSet ≤ 3) && made p.inSet
    else if p.kind = 1 then [2, 3].contains p.kernel && decide (p.inSet ≤ 3) && made p.inSet &&
      !(earlier.any fun q => q.kind == 1 && q.inSet == p.inSet)
    else p.kind == 2 && (match earlier[p.pair]? with | some q => q.kind == 1 && q.inSet + 1 == p.inSet | none => false)

/-- CHURN_VOXEL_CONFIG: R225, R226. -/
def churnVoxelConfig (c : Cmd) (s : State) : State :=
  let j := c.p 0x20 1
  let n := c.p 0x21 1
  let slots := c.p 0x22 1
  let edge := f32Rat (f32At c.params 4)
  let lo := V3.at c.params 8
  let hi := V3.at c.params 0x14
  let sites := c.p 0x40 4
  let addr := c.p 0x48 8
  let sb := c.p 0x50 4
  let ovr := fun (a b : Rat) => decide (65535 * edge < b - a)
  let fieldsOk := finiteAt c.params 4 7 && decide (j ≤ 3 ∧ n ≤ 16 ∧ slots ≤ 4 ∧ inF32 (f32At c.params 4) (1 / 50) 2 = true ∧ lo.x < hi.x ∧ lo.y < hi.y ∧
    lo.z < hi.z ∧ 4096 ≤ sites ∧ sites ≤ 524288 ∧ 1000000 ≤ c.p 0x44 4 ∧ c.p 0x44 4 ≤ 1000000000 ∧ sb % 65536 = 0 ∧ 1 ≤ c.p 0x54 1 ∧
    c.p 0x54 1 ≤ 8)
  s.firstFail c [(!fieldsOk, stBadParam), (!(s.ownsSched j c.part), stNotPermitted), (s.schedOn j, stBusy), (addr % 65536 != 0, stAlignment),
      (slots != 0 && !(inside addr (slots * sb) stagingBase stagingSize && s.writeRange c.part addr (slots * sb)), stRange),
      (ovr lo.x hi.x || ovr lo.y hi.y || ovr lo.z hi.z || decide (sb < 1024 + 72 * sites), stBadParam)] fun s =>
    let apply := fun (b : Bytes) (s : State) =>
      let specs := (List.range n).map fun i => RbSpec.mk (numAt b (32 * i) 1) (numAt b (32 * i + 1) 1) (numAt b (32 * i + 2) 1) (numAt b (32 * i + 3) 1)
      if !(specsOk specs) then s.failCmd c.id stBadParam
      else
        let v : VoxCfg := { edge := f32At c.params 4, lo := lo, hi := hi, maxSites := sites, halfNs := c.p 0x44 4, slots := slots, addr := addr,
                            slotBytes := sb, hold := c.p 0x54 1, specs := specs, loBytes := cut c.params 8 12 }
        (s.modSched j fun x => { x with vox := v, voxNext := 0 }).done c
    if n = 0 then apply [] s else s.withTable c (c.p 0x58 8) (32 * n) apply

def execChurnVoxelConfig (dt id : Nat) (s : State) : Host.Outcome State Fault Refusal := runCmd dt id 0x0411 churnVoxelConfig s

/-- CHURN_OCTREE_CONFIG: the commit clears the octree, R240. -/
def churnOctreeConfig (c : Cmd) (s : State) : State :=
  let j := c.p 0x20 1
  let leaf := f32Rat (f32At c.params 4)
  let off := j == 0xFF
  let ok := (off || decide (j ≤ 3)) && decide (4 ≤ c.p 0x21 1 ∧ c.p 0x21 1 ≤ 16 ∧ 1 ≤ c.p 0x22 1) && finiteAt c.params 4 4 &&
    inF32 (f32At c.params 4) (1 / 20) 4
  let owned := s.ownsOct c.part && (off || s.ownsSched j c.part)
  s.firstFail c [(!ok, stBadParam), (!owned, stNotPermitted)] fun s =>
    let o : Oct := { sched := if off then none else some j, depth := c.p 0x21 1, persist := c.p 0x22 1, leaf := leaf,
                     centre := V3.at c.params 8 }
    (({ s with chn := { s.chn with oct := o } }).octClear).done c

def execChurnOctreeConfig (dt id : Nat) (s : State) : Host.Outcome State Fault Refusal := runCmd dt id 0x0412 churnOctreeConfig s

/-- CHURN_OCTREE_CLEAR: returns the nodes freed, R246. -/
def churnOctreeClear (c : Cmd) (s : State) : State :=
  let o := s.chn.oct
  s.firstFail c [(o.sched.isNone || !(s.ownsOct c.part), stNotPermitted)] fun s =>
    s.octClear.doneWith c (leBytes 4 (o.nodes.length - 1))

def execChurnOctreeClear (dt id : Nat) (s : State) : Host.Outcome State Fault Refusal := runCmd dt id 0x0413 churnOctreeClear s

/-- The run of an instant is released at once. -/
def State.releaseRun (s : State) (e : Nat × Nat) : State :=
  { s with chn := { s.chn with runs := s.chn.runs.map fun (r : PRun) => if r.sched = e.1 ∧ r.k = e.2 then { r with released := true } else r } }

/-- The frame in progress under DISCARD, R243: its stages have ended in its POINT_FRAME_BUILD, so that its run alone is given back (log entry 90). -/
def State.discardFrame (s : State) : State :=
  match s.frameBusy with
  | some e => (s.releaseRun e).syncRuns
  | none => s

/-- CHURN_TABLE_SPLIT: the pipeline takes no new frame from now on; TABLE_SPLIT_APPLY applies the split, R243. -/
def churnTableSplit (c : Cmd) (s : State) : State :=
  let o := c.p 0x20 1
  let m := c.p 0x21 1
  let ms := if c.p 0x24 4 = 0 then 100 else c.p 0x24 4
  let foreign := (List.range 4).any fun j => s.schedOn j && s.voxelised j && s.schedOwner j != c.part
  s.firstFail c [(decide (o < 2 ∨ 6 < o ∨ 1 < m ∨ 10000 < ms), stBadParam),
      (foreign || !(s.ownsOct c.part), stNotPermitted), (s.chn.split.isSome, stBusy)] fun s =>
    let s := if m = 1 then s.discardFrame else s
    { s with chn := { s.chn with split := some { cmd := c.id, oct := o, due := c.acceptNs + ms * 1000000, started := s.ns } } }

def execChurnTableSplit (dt id : Nat) (s : State) : Host.Outcome State Fault Refusal := runCmd dt id 0x0414 churnTableSplit s

/-- Whether a re-split still waits: for the frame in progress, or for the restarts of its timeout, R243, R508. -/
def State.splitWaits (s : State) (p : Split) : Bool :=
  if p.timedOut then p.restarted.any fun q => s.partState q == .restarting else s.frameBusy.isSome

/-- TABLE_SPLIT_APPLY: the frame in progress has ended; the split is applied, every run released, and the command commits, R243. -/
def tableSplitApply (id : Nat) (s : State) : State :=
  match s.chn.split with
  | none => s
  | some p =>
    if p.cmd ≠ id ∨ s.splitWaits p = true then s
    else
      let old := s.octMib
      let s := { s with chn := { s.chn with split := none, runs := [] } }
      let s := if p.oct < old then s.octClear else s
      let s := (s.setReg .chnSplit (BitVec.ofNat 64 p.oct)).setReg .chnPtEntries (BitVec.ofNat 64 (65536 * (18 - p.oct)))
      let s := (s.syncRuns).raise 0x0415 (match s.cmd? id with | some c => c.part | none => 0) (evData [old, p.oct])
      match s.cmd? id with
      | some c => (s.doneWith c (leBytes 8 (s.ns - p.started))).settle
      | none => s

def execTableSplitApply (dt id : Nat) (s : State) : Host.Outcome State Fault Refusal := runEvent dt (tableSplitApply id) s

/-- CHURN_VOXEL_STATUS: bytes 0x00_1000 to 0x00_104F of the CHN block. -/
def churnVoxelStatus (c : Cmd) (s : State) : State :=
  let r4 := fun (r : Reg) => leBytes 4 (s.reg r).toNat
  let r8 := fun (r : Reg) => leBytes 8 (s.reg r).toNat
  s.doneWith c (r4 .chnVoxStat ++ r4 .chnSplit ++ r4 .chnPtEntries ++ r4 .chnPtUsed ++ r8 .chnPtHead ++ r8 .chnPtOldest ++ r4 .chnVhUsed ++
    r4 .chnVhStash ++ r4 .chnVoxSkim ++ r4 .chnVoxDropTrunc ++ r4 .chnVoxDropRoi ++ r4 .chnRbStat ++ r4 .chnVsetSkip ++ leBytes 4 0 ++
    r4 .chnOctStat ++ r4 .chnOctRefused ++ r8 .chnOctGen)

def execChurnVoxelStatus (dt id : Nat) (s : State) : Host.Outcome State Fault Refusal := runCmd dt id 0x0415 churnVoxelStatus s

end Sys2Proof.Machine
end

