-- ==== Sys2Proof/Machine/Tracks.lean ====
section
/-! DEFINITION. The tracker of the Churn engine: configuration, association of detections with tracks, drops, the track table and the
output records (R248 to R260). -/
namespace Sys2Proof.Machine

def State.trkOn (s : State) : Bool := bit (s.reg .chnTrkCtl) 31
def State.trkOwner (s : State) : Nat := s.fldOf .chnTrkCtl 26 3
def State.trkSched (s : State) : Nat := s.fldOf .chnTrkCtl 24 2

/-- The association that runs: its command is still RUNNING. -/
def State.assoc? (s : State) : Option Assoc :=
  match s.trk.pend with
  | some a => if s.isRunning a.cmd then some a else none
  | none => none

/-! The track table, R218, R250 -/

/-- The 256 bytes of a track-table entry. -/
def Track.bytes (x : Track) : Bytes :=
  cut (leBytes 4 x.id ++ leBytes 1 x.state ++ leBytes 1 x.cls ++ leBytes 2 x.hits ++ leBytes 1 x.misses ++ List.replicate 3 0 ++
    leBytes 4 x.gen ++ leBytes 8 x.born ++ leBytes 8 x.updated ++ x.pos.bytes ++ x.vel.bytes ++ x.cov.flatMap f32Bytes ++
    cut x.extent 0 12 ++ f32Bytes x.yaw ++ leBytes 4 x.score.toNat ++ leBytes 8 x.recSeq ++ leBytes 4 x.cost.toNat ++ leBytes 4 0 ++
    cut x.user 0 16) 0 256

def trackAddr (i : Nat) : Nat := churnBase + 0x1E00000 + 256 * i

def State.track? (s : State) (i : Nat) : Option Track := (s.trk.tracks.find? fun e => e.1 == i).map (·.2)

/-- The counts of CHN_TRK_STAT, R259. -/
def State.syncTrk (s : State) : State :=
  let n := s.trk.tracks.length
  let k := (s.trk.tracks.filter fun e => e.2.state == 2).length
  (s.setFldOf .chnTrkStat 13 13 n).setFldOf .chnTrkStat 0 13 k

/-- Puts a track into its entry, in ascending order. -/
def State.putTrack (s : State) (i : Nat) (x : Track) : State :=
  ({ s with trk := { s.trk with tracks := sins (sdel s.trk.tracks i) i x } }).wr (trackAddr i) x.bytes

/-- An entry becomes FREE: its state reads 0 and its generation stays. -/
def State.freeTrack (s : State) (i : Nat) : State :=
  ({ s with trk := { s.trk with tracks := sdel s.trk.tracks i } }).wr (trackAddr i + 4) [0]

/-! CHURN_TRACK_CONFIG, R249 -/

/-- The ring slot of an association, R257. -/
def trkSlotBytes : Nat := 0x41000

/-- Whether an association is RUNNING or queued. -/
def State.assocBusy (s : State) : Bool := s.ccx.cmds.any fun c => c.code == 0x0421 && (c.state == .accepted || c.state == .running)

def churnTrackConfig (c : Cmd) (s : State) : State :=
  let j := c.p 0x20 1
  let fl := c.p 0x21 1
  let slots := c.p 0x25 1
  let ring := c.p 0x38 8
  let gate := f32At c.params 0x08
  let off := decide (j = 255)
  let ok := decide (j ≤ 3) && decide (fl ≤ 3) && decide (1 ≤ c.p 0x22 1 ∧ c.p 0x22 1 ≤ 15) && decide (1 ≤ c.p 0x23 1 ∧ c.p 0x23 1 ≤ 15) &&
    decide (1 ≤ c.p 0x24 1) && decide (2 ≤ slots ∧ slots ≤ 64) && c.zero 0x26 2 && (f32? gate == some 0 || inF32 gate 1 100) &&
    inF32 (f32At c.params 0x0C) 0 100 && inF32 (f32At c.params 0x10) (1 / 100) 100 && inF32 (f32At c.params 0x14) (1 / 100) 1000 &&
    (c.p 0x40 4 == 0 || decide (1000000 ≤ c.p 0x40 4 ∧ c.p 0x40 4 ≤ 4000000000))
  let sz := slots * trkSlotBytes
  s.firstFail c [(!(off || ok), stBadParam), (s.assocBusy, stBusy),
      (if off then s.trkOn && s.trkOwner != c.part else !(s.schedOn j && s.schedOwner j == c.part), stNotPermitted),
      (!off && ring % 4096 != 0, stAlignment), (!off && !(s.writeRange c.part ring sz), stRange)] fun s =>
    let s := { s with trk := {} }
    let s := s.clearMem (churnBase + 0x1E00000) 0x100000
    let s := if off then s.setReg .chnTrkCtl 0
      else
        let s := { s with trk := { s.trk with cfg := {
          confirm := c.p 0x22 1, tent := c.p 0x23 1, coast := c.p 0x24 1, slots := slots
          gate := if f32? gate = some 0 then 1134 / 100 else f32Rat gate, penalty := f32Rat (f32At c.params 0x0C)
          noise := f32Rat (f32At c.params 0x10), velVar := f32Rat (f32At c.params 0x14), ring := ring, coastNs := c.p 0x40 4 } } }
        (s.clearMem ring sz).setReg .chnTrkCtl (BitVec.ofNat 64 (2 ^ 31 + fl % 2 * 2 ^ 30 + fl / 2 * 2 ^ 29 + c.part * 2 ^ 26 + j * 2 ^ 24))
    ((s.setReg .chnTrkSeq 0).syncTrk).done c

def execChurnTrackConfig (dt id : Nat) (s : State) : Host.Outcome State Fault Refusal := runCmd dt id 0x0420 churnTrackConfig s

/-! Prediction and cost, R254 -/

/-- Position and velocity with the upper triangle of their covariance. -/
structure Pred where
  pos : V3
  vel : V3
  cov : List Rat
deriving DecidableEq, Repr

/-- Where element (i, j) of the upper triangle of a 6 × 6 matrix stands, row by row. -/
def triIx (i j : Nat) : Nat := i * 6 - i * (i + 1) / 2 + j

def triAt (c : List Rat) (i j : Nat) : Rat := if i ≤ j then c.getD (triIx i j) 0 else c.getD (triIx j i) 0

/-- The upper triangle of a function of the indices. -/
def tri (f : Nat → Nat → Rat) : List Rat := (List.range 6).flatMap fun i => ((List.range 6).filter fun j => decide (i ≤ j)).map (f i)

/-- Constant velocity over dt seconds: F P Fᵀ + Q. -/
def Track.predict (x : Track) (noise dt : Rat) : Pred :=
  { pos := x.pos.add (x.vel.scale dt), vel := x.vel
    cov := tri fun i j =>
      let p := triAt x.cov
      let a := if i < 3 ∧ j < 3 then p i j + dt * p (i + 3) j + dt * p i (j + 3) + dt * dt * p (i + 3) (j + 3)
        else if i < 3 then p i j + dt * p (i + 3) j
        else p i j
      a + (if i = j ∧ i < 3 then noise * dt * dt * dt / 3 else if i + 3 = j then noise * dt * dt / 2
        else if i = j then noise * dt else 0) }

/-- Seconds from one instant to another, of either sign. -/
def secs (a b : Nat) : Rat := (((b : Int) - (a : Int) : Int) : Rat) / 1000000000

def State.predict (s : State) (x : Track) (t : Nat) : Pred := x.predict s.trk.cfg.noise (secs x.updated t)

/-- The position block of a covariance. -/
def Pred.block (p : Pred) : M3 :=
  ⟨⟨triAt p.cov 0 0, triAt p.cov 0 1, triAt p.cov 0 2⟩, ⟨triAt p.cov 1 0, triAt p.cov 1 1, triAt p.cov 1 2⟩,
   ⟨triAt p.cov 2 0, triAt p.cov 2 1, triAt p.cov 2 2⟩⟩

def M3.add (m n : M3) : M3 := ⟨m.a.add n.a, m.b.add n.b, m.c.add n.c⟩
def M3.det (m : M3) : Rat := m.a.dot (m.b.cross m.c)

/-- y' · inverse(m) · y for a symmetric m; none where m has no inverse. -/
def M3.quad (m : M3) (y : V3) : Option Rat :=
  if m.det = 0 then none
  else
    let k := V3.mk ((m.b.cross m.c).dot y) ((m.c.cross m.a).dot y) ((m.a.cross m.b).dot y)
    some (k.dot y / m.det)

/-- A diagonal matrix rotated by r. -/
def rotDiag (r : M3) (v : V3) : M3 := (r.mul ⟨⟨v.x, 0, 0⟩, ⟨0, v.y, 0⟩, ⟨0, 0, v.z⟩⟩).mul r.tr

/-- The cost of a track and a detection placed in the track frame; none is +∞. -/
def State.trackCost (s : State) (x : Track) (p : Pred) (pos : V3) (r : M3) (cls : Nat) : Option Rat :=
  match (p.block.add r).quad (pos.sub p.pos) with
  | none => none
  | some m =>
    let strict := bit (s.reg .chnTrkCtl) 30
    let c := if x.cls = cls then m else m + s.trk.cfg.penalty
    if (x.cls ≠ cls ∧ strict = true) ∨ s.trk.cfg.gate < c then none else some c

/-! The solver, R255, R256 -/

/-- A finite cost between a track's entry and a detection. -/
abbrev Edge := Nat × Nat × Rat

/-- Grows a set of entries and detections by the edges that touch it. -/
def grow (es : List Edge) : Nat → List Nat × List Nat → List Nat × List Nat
  | 0, c => c
  | n + 1, c =>
    grow es n (es.foldl (fun (c : List Nat × List Nat) e =>
      if c.1.contains e.1 ∨ c.2.contains e.2.1 then
        (if c.1.contains e.1 then c.1 else c.1 ++ [e.1], if c.2.contains e.2.1 then c.2 else c.2 ++ [e.2.1])
      else c) c)

/-- The connected components of the finite costs, by least entry. -/
def components (es : List Edge) : List (List Nat × List Nat) :=
  es.foldl (fun (l : List (List Nat × List Nat)) e =>
    if l.any fun c => c.1.contains e.1 then l else l ++ [grow es es.length ([e.1], [e.2.1])]) []

/-- Every way to give the tracks of a component distinct detections or none. -/
def assignments (es : List Edge) : List Nat → List Nat → List (List Edge)
  | [], _ => [[]]
  | t :: ts, used =>
    (assignments es ts used) ++
      (es.filter fun e => e.1 == t && !(used.contains e.2.1)).flatMap fun e => (assignments es ts (e.2.1 :: used)).map fun l => e :: l

/-- The sum of R255: the assigned costs and half the gate for each party left over. -/
def assignCost (gate : Rat) (r c : Nat) (l : List Edge) : Rat :=
  l.foldl (fun (a : Rat) e => a + e.2.2) 0 + gate / 2 * (((r - l.length) + (c - l.length) : Nat) : Rat)

/-- The exact minimum of a component; among equal minima a free choice (R8, log entry 3). -/
def solve (choice : Nat) (gate : Rat) (es : List Edge) (c : List Nat × List Nat) : List Edge :=
  let all := assignments (es.filter fun e => c.1.contains e.1) c.1 []
  let cost := assignCost gate c.1.length c.2.length
  let best := all.filter fun l => all.all fun m => decide (cost l ≤ cost m)
  best.getD (choice % Nat.max 1 best.length) []

/-- What solving gave. -/
structure Solved where
  pairs : List Edge := []
  comps : Nat := 0
  halvings : Nat := 0
  excess : List (List Nat × List Nat) := []
deriving DecidableEq, Repr

/-- Solves the components of a cost graph: a component too large has its gate halved and is rebuilt, at most `n` times more. -/
def solveAll (choice : Nat) : Nat → Rat → List Edge → Solved → Solved
  | 0, gate, es, acc =>
    (components es).foldl (fun (a : Solved) c =>
      if c.1.length ≤ 256 ∧ c.2.length ≤ 256 then { a with pairs := a.pairs ++ solve choice gate es c, comps := a.comps + 1 }
      else { a with excess := a.excess ++ [c] }) acc
  | n + 1, gate, es, acc =>
    (components es).foldl (fun (a : Solved) c =>
      if c.1.length ≤ 256 ∧ c.2.length ≤ 256 then { a with pairs := a.pairs ++ solve choice gate es c, comps := a.comps + 1 }
      else
        solveAll choice n (gate / 2) (es.filter fun e => c.1.contains e.1 && decide (e.2.2 ≤ gate / 2))
          { a with halvings := a.halvings + 1 }) acc

/-! CHURN_ASSOCIATE, R252, R253 -/

/-- The index of an instant of a schedule. -/
def State.instIndex (s : State) (j t : Nat) : Option Nat :=
  let c := s.sched j
  let per := (s.reg (.chnSchedPeriod j)).toNat
  if per = 0 ∨ t < c.first ∨ (t - c.first) % per ≠ 0 then none
  else if c.has ((t - c.first) / per) then some ((t - c.first) / per) else none

/-- The committed first record of an instant: its seq, or the status of R253. -/
def State.firstRecord (s : State) (t : Nat) : Except Nat Nat :=
  let j := s.trkSched
  match (s.instIndex j t).bind (s.inst? j) with
  | none => .error stBadParam
  | some i =>
    if i.inFlight ∨ i.noMagic then .error stBadParam
    else if (s.trk.associated.any fun a => decide (t ≤ a)) = true ∨
        i.seq + (s.sched j).slots ≤ (s.reg (.chnSchedSeq j)).toNat then .error 0x54
    else .ok i.seq

/-- The ego pose of a record's header: none while it is invalid, the identity under ego_static. -/
def recordEgo (h : Bytes) : Option Rigid :=
  let fl := numAt h 0x14 4
  if fl.testBit 2 then some {}
  else if fl.testBit 1 then none
  else
    let q := Quat.mk (f32Rat (f32At h 0x5C)) (f32Rat (f32At h 0x60)) (f32Rat (f32At h 0x64)) (f32Rat (f32At h 0x68))
    some ⟨q.mat, V3.at h 0x50⟩

/-- The costs of every live track with every detection. -/
def State.allEdges (s : State) (t : Nat) (g : Rigid) (dets : List Bytes) : List Edge :=
  (s.trk.tracks.filter fun e => e.2.state != 4).flatMap fun e =>
    let p := s.predict e.2 t
    dets.zipIdx.filterMap fun d =>
      (s.trackCost e.2 p (g.app (V3.at d.1 0)) (rotDiag g.r (V3.at d.1 0x0C)) (numAt d.1 0x28 1)).map fun c => (e.1, d.2, c)

/-- The free entries, ascending. -/
def State.freeTracks (s : State) : List Nat := (List.range 4096).filter fun i => (s.track? i).isNone

/-- The detection rows of a command, or the status it fails with. -/
def State.detections (s : State) (c : Cmd) : Except Nat (Tag × List Bytes) :=
  let n := c.p 0x30 4
  if n = 0 then .ok ({}, [])
  else
    match s.readDesc c (c.p 0x28 8) with
    | .error st => .error st
    | .ok d =>
      if !d.mark ∨ d.rowBytes ≠ 64 ∨ d.count < n ∨ d.dev ≠ 255 then .error stBadParam
      else
        let rows := d.rows.take n
        match rows.findSome? fun a => s.access (.part c.part) .other false a 64 with
        | some _ => .error stRange
        | none => .ok (d.tag, rows.map fun a => s.rdSeen a 64)

/-- The association that the solver chooses. -/
def State.associate (s : State) (c : Cmd) (t seq : Nat) (tag : Tag) (dets : List Bytes) : Assoc :=
  let j := s.trkSched
  let h := s.rd ((s.sched j).ring + 0x8000 * (seq % Nat.max 1 (s.sched j).slots)) 256
  let base : Assoc := { cmd := c.id, t := t, recSeq := seq, ego := recordEgo h, tag := tagOut [Tag.ofBytes (cut h 0x40 16), tag], dets := dets }
  match base.ego with
  | none => base
  | some g =>
    let es := s.allEdges t g dets
    let r := solveAll (Config.freeWord s.freeCtr).toNat 3 s.trk.cfg.gate es {}
    let lone := (List.range dets.length).filter fun d => !(es.any fun e => e.2.1 == d)
    let free := s.freeTracks
    { base with
      pairs := r.pairs, comps := r.comps, halvings := r.halvings, excess := r.excess
      births := free.zip lone, full := lone.length - free.length }

def churnAssociate (c : Cmd) (s : State) : State :=
  let t := c.p 0x20 8
  if !s.trkOn ∨ s.trkOwner ≠ c.part then s.failCmd c.id stNotPermitted
  else if 4096 < c.p 0x30 4 ∨ !(c.zero 0x34 4) then s.failCmd c.id stBadParam
  else
    match s.firstRecord t, s.detections c with
    | .error st, _ => s.failCmd c.id st
    | _, .error st => s.failCmd c.id st
    | .ok seq, .ok (tag, dets) =>
      let a := s.associate c t seq tag dets
      let s := { s with freeCtr := s.freeCtr + 1 }
      if a.excess ≠ [] ∧ bit (s.reg .chnTrkCtl) 29 = true then
        let s := a.excess.foldl (fun (s : State) o => s.raise 0x0421 s.trkOwner (evData [t, o.1.length, o.2.length])) s
        (s.countSat .chnTrkOversize 16 16).failCmd c.id 0x55
      else ({ s with trk := { s.trk with pend := some a } }).setVerdict c.id 0

/-- CHURN_ASSOCIATE: associations run one at a time in acceptance order, R248. -/
def assocRow (id : Nat) (s : State) : State :=
  let before := s.ccx.cmds.any fun c => c.code == 0x0421 && decide (c.id < id) && (c.state == .accepted || c.state == .running)
  match s.runs id 0x0421 with
  | some c => if before then s else (churnAssociate c (s.start id)).settle
  | none => s

def execChurnAssociate (dt id : Nat) (s : State) : Host.Outcome State Fault Refusal := runEvent dt (assocRow id) s

/-! The commit of an association, R251, R257, R258 -/

/-- A track after an assignment. -/
def State.assigned (s : State) (x : Track) (p : Pred) (a : Assoc) (g : Rigid) (d : Bytes) (cost : Rat) : Track :=
  let z := g.app (V3.at d 0)
  let r := rotDiag g.r (V3.at d 0x0C)
  let u := Config.trackUpdate ([p.pos.x, p.pos.y, p.pos.z, p.vel.x, p.vel.y, p.vel.z] ++ p.cov)
    [z.x, z.y, z.z, r.a.x, r.a.y, r.a.z, r.b.y, r.b.z, r.c.z]
  let hits := Nat.min (x.hits + 1) 65535
  { x with
    state := if x.state = 1 ∧ hits < s.trk.cfg.confirm then 1 else 2
    cls := numAt d 0x28 1, hits := hits, misses := 0, updated := a.t
    pos := ⟨u.getD 0 0, u.getD 1 0, u.getD 2 0⟩, vel := ⟨u.getD 3 0, u.getD 4 0, u.getD 5 0⟩
    cov := (List.range 21).map fun i => u.getD (6 + i) 0
    extent := cut d 0x18 12, yaw := f32Rat (f32At d 0x24) + g.r.yaw, score := f32At d 0x2C
    recSeq := a.recSeq, cost := f32Of cost, user := cut d 0x30 16 }

/-- A track after a miss. -/
def State.missed (s : State) (x : Track) (a : Assoc) : Track :=
  let k := s.trk.cfg
  let m := x.misses + 1
  let x := { x with recSeq := a.recSeq }
  if x.state = 1 then (if k.tent ≤ m then { x with state := 4, misses := m } else { x with misses := m })
  else if x.state = 2 then { x with state := 3, misses := 1 }
  else if k.coast ≤ m ∨ (k.coastNs ≠ 0 ∧ k.coastNs < a.t - x.updated) then { x with state := 4, misses := m }
  else { x with misses := m }

/-- A track born of a detection. -/
def State.newborn (s : State) (a : Assoc) (g : Rigid) (id gen : Nat) (d : Bytes) : Track :=
  let r := rotDiag g.r (V3.at d 0x0C)
  { id := id, state := 1, cls := numAt d 0x28 1, hits := 1, misses := 0, gen := gen, born := a.t, updated := a.t
    pos := g.app (V3.at d 0), vel := {}
    cov := tri fun i j => if j < 3 then
        [r.a.x, r.a.y, r.a.z, r.b.x, r.b.y, r.b.z, r.c.x, r.c.y, r.c.z].getD (3 * i + j) 0
      else if i = j then s.trk.cfg.velVar else 0
    extent := cut d 0x18 12, yaw := f32Rat (f32At d 0x24) + g.r.yaw, score := f32At d 0x2C, recSeq := a.recSeq, cost := 0
    user := cut d 0x30 16 }

/-- One entry of the output record: what the track shows at t in the body frame. -/
structure TrkOut where
  idx : Nat
  result : Nat
  track : Track
  show_ : Pred
  det : Nat := 0xFFFFFFFF
  cost : W32 := 0
deriving DecidableEq, Repr

/-- The 64 bytes of a record entry; with an invalid ego its body-frame values are free (log entry 55). -/
def TrkOut.bytes (o : TrkOut) (ego : Option Rigid) (free : Bytes) : Bytes :=
  let body := match ego with
    | some g =>
      let p := g.inv.app o.show_.pos
      let m := (g.r.tr.mul o.show_.block).mul g.r
      (p.bytes ++ (g.r.tr.app o.show_.vel).bytes ++ f32Bytes (sqrtRat m.a.x) ++ f32Bytes (sqrtRat m.b.y) ++ f32Bytes (sqrtRat m.c.z),
       f32Bytes (o.track.yaw - g.r.yaw))
    | none => (cut free 0 36, cut free 36 4)
  leBytes 4 o.track.id ++ leBytes 1 o.track.state ++ leBytes 1 o.result ++ leBytes 1 o.track.cls ++ leBytes 1 o.track.misses ++ body.1 ++
    leBytes 4 o.det ++ leBytes 4 o.cost.toNat ++ leBytes 2 o.idx ++ leBytes 2 o.track.hits ++ leBytes 4 o.track.score.toNat ++ body.2

/-- What becomes of one live or dropped track. -/
def State.trackOut (s : State) (a : Assoc) (i : Nat) (x : Track) : TrkOut :=
  let p := s.predict x a.t
  let pair := a.pairs.find? fun e => e.1 == i
  let held : Pred := { pos := x.pos, vel := x.vel, cov := x.cov }
  match a.ego, pair with
  | some g, some e =>
    let d := a.dets.getD e.2.1 []
    if x.state = 4 then { idx := i, result := 4, track := x, show_ := p, det := e.2.1, cost := f32Of e.2.2 }
    else
      let y := s.assigned x p a g d e.2.2
      { idx := i, result := 0, track := y, show_ := ⟨y.pos, y.vel, y.cov⟩, det := e.2.1, cost := f32Of e.2.2 }
  | some _, none =>
    if x.state = 4 then { idx := i, result := 3, track := x, show_ := p }
    else
      let y := s.missed x a
      { idx := i, result := if y.state = 4 then 3 else 2, track := y, show_ := p }
  | none, _ => { idx := i, result := if x.state = 4 then 3 else 2, track := x, show_ := if x.state = 4 then held else p }

/-- Writes the slot: header and entries, magic last, R257. -/
def State.writeTrkRecord (s : State) (a : Assoc) (outs : List TrkOut) (seq magic aflags assigned missed deleted voided : Nat) : State :=
  let base := s.trk.cfg.ring + trkSlotBytes * (seq % Nat.max 1 s.trk.cfg.slots)
  let s := outs.zipIdx.foldl (fun (s : State) e =>
    let f := s.freshBytes 40
    f.2.store (base + 0x100 + 0x40 * e.2) (e.1.bytes a.ego f.1)) s
  s.store base (cut (leBytes 4 magic ++ leBytes 1 s.trkSched ++ leBytes 1 aflags ++ leBytes 2 outs.length ++ leBytes 8 a.t ++ leBytes 8 seq ++
    leBytes 8 a.recSeq ++ a.tag.bytes ++ leBytes 4 a.dets.length ++ leBytes 4 assigned ++ leBytes 4 a.births.length ++ leBytes 4 missed ++
    leBytes 4 deleted ++ leBytes 4 voided ++ leBytes 4 a.full ++ leBytes 2 a.comps ++ leBytes 2 a.halvings ++ leBytes 8 s.now) 0 256)

/-- A birth: the next track_id and the entry's next generation. -/
def State.birth (s : State) (a : Assoc) (g : Rigid) (b : Nat × Nat) : TrkOut × State :=
  let id := (s.reg .chnTrkNextId).toNat
  let x := s.newborn a g id (sget 0 s.trk.gens b.1) (a.dets.getD b.2 [])
  let s := { s with trk := { s.trk with gens := sset 0 s.trk.gens b.1 (sget 0 s.trk.gens b.1 + 1) } }
  let next := if id + 1 < 2 ^ 32 then id + 1 else 1
  ({ idx := b.1, result := 1, track := x, show_ := ⟨x.pos, x.vel, x.cov⟩, det := b.2 }, s.setReg .chnTrkNextId (BitVec.ofNat 64 next))

/-- The magic of an association record. -/
def trkMagic : Nat := 0x43484E54

/-- The commit point of an association: record entries, track-table entries, magic, registers and events. -/
def commitAssoc (c : Cmd) (s : State) : State :=
  match s.assoc? with
  | none => s.complete c.id 0
  | some a =>
    let s0 := { s with trk := { s.trk with pend := none } }
    if c.discard then s0.complete c.id 0
    else
      let seq := (s0.reg .chnTrkSeq).toNat
      let olds := s0.trk.tracks.map fun e => s0.trackOut a e.1 e.2
      let born := match a.ego with
        | some g => a.births.foldl (fun (r : List TrkOut × State) b => let x := r.2.birth a g b; (r.1 ++ [x.1], x.2)) ([], s0)
        | none => ([], s0)
      let outs := (List.range 4096).filterMap fun i => (olds ++ born.1).find? fun o => o.idx == i
      let voids := olds.filter fun o => o.result == 4
      let assigned := (olds.filter fun o => o.result == 0).length
      let missed := if a.ego.isSome then (olds.filter fun o => o.det == 0xFFFFFFFF && (o.result == 2 || (o.result == 3 && o.track.recSeq == a.recSeq))).length
        else 0
      let deleted := (outs.filter fun o => o.track.state == 4).length
      let voided := if a.ego.isSome then voids.length else a.dets.length
      let aflags := (if a.ego.isNone then 1 else 0) + (if a.excess = [] then 0 else 2) + (if a.full = 0 then 0 else 4) + (if voids.isEmpty then 0 else 8)
      let s := born.2.writeTrkRecord a outs seq trkMagic aflags assigned missed deleted voided
      let s := outs.foldl (fun (s : State) o => s.putTrack o.idx o.track) s
      let s := outs.foldl (fun (s : State) o => if o.track.state = 4 then s.freeTrack o.idx else s) s
      let s := ((s.setReg .chnTrkSeq (BitVec.ofNat 64 (seq + 1))).setReg .chnTrkLast (BitVec.ofNat 64 a.t)).countWrap .chnTrkBornDel 0 16 born.1.length
      let s := ((s.countWrap .chnTrkBornDel 16 16 deleted).addSat .chnTrkFull 0 32 a.full).addSat .chnTrkVoid 0 32 voids.length
      let s := { s with trk := { s.trk with associated := some a.t } }
      let own := s.trkOwner
      let s := a.excess.foldl (fun (s : State) o =>
        (s.countSat .chnTrkOversize 0 16).raise 0x0421 own (evData [a.t, o.1.length, o.2.length])) s
      let s := if a.full = 0 then s else s.raiseLim 0x0420 0 own (evData [a.t, a.full])
      let s := voids.foldl (fun (s : State) o => s.raiseLim 0x0422 0 own (evData [a.t, o.track.id])) s
      let res := leBytes 8 seq ++ leBytes 4 assigned ++ leBytes 4 born.1.length ++ leBytes 4 voided ++
        leBytes 2 (seq % Nat.max 1 s.trk.cfg.slots)
      (s.syncTrk.setResult c.id 0x20 res).complete c.id (s.doneStatus c)

/-! Drop, status, steps -/

/-- CHURN_TRACK_DROP: R251, R260. -/
def churnTrackDrop (c : Cmd) (s : State) : State :=
  if !s.trkOn ∨ s.trkOwner ≠ c.part then s.failCmd c.id stNotPermitted
  else
    match s.trk.tracks.find? fun e => e.2.id == c.p 0x20 4 && e.2.state != 4 with
    | none => s.failCmd c.id stBadParam
    | some e => (((s.putTrack e.1 { e.2 with state := 4 }).syncTrk).setResult c.id 0x20 (leBytes 1 e.2.state)).done c

def execChurnTrackDrop (dt id : Nat) (s : State) : Host.Outcome State Fault Refusal := runCmd dt id 0x0422 churnTrackDrop s

/-- CHN_TRK_STAT as it reads: busy and phase from the association that runs, R259; between the solver's choice and the commit the
phase is update. -/
def State.trkStat (s : State) : W64 := if s.assoc?.isSome then setFld (s.reg .chnTrkStat) 28 4 12 else s.reg .chnTrkStat

/-- CHURN_TRACK_STATUS: bytes 0x00_2000 to 0x00_202B of the CHN block. -/
def churnTrackStatus (c : Cmd) (s : State) : State :=
  let r4 := fun (r : Reg) => leBytes 4 (s.reg r).toNat
  let r8 := fun (r : Reg) => leBytes 8 (s.reg r).toNat
  s.doneWith c (r4 .chnTrkCtl ++ leBytes 4 s.trkStat.toNat ++ r8 .chnTrkSeq ++ r8 .chnTrkLast ++ r4 .chnTrkBornDel ++ r4 .chnTrkFull ++
    r4 .chnTrkOversize ++ r4 .chnTrkVoid ++ r4 .chnTrkNextId)

def execChurnTrackStatus (dt id : Nat) (s : State) : Host.Outcome State Fault Refusal := runCmd dt id 0x0423 churnTrackStatus s

/-- A TB0 step shifts the held stamps of the tracker, R258. -/
def Track.shift (sh : Nat → Nat) (x : Track) : Track := { x with born := sh x.born, updated := sh x.updated }

def State.stepTracks (s : State) (sh : Nat → Nat) : State :=
  s.trk.tracks.foldl (fun (s : State) e => s.putTrack e.1 (e.2.shift sh)) s

end Sys2Proof.Machine
end

