-- ==== Sys2Proof/Machine/Boundary.lean ====
section
/-! DEFINITION. Steps that reach across engines: pace intervals, the pace-table merge, and the application of a time-base step
(R38, R54, R135, R138, R170, R171). -/
namespace Sys2Proof.Machine

/-- The index of TAR in the order of R31's blocks. -/
def ssTar : Nat := 5

/-- PACE_INTERVAL_END: at a TB0 multiple of the interval the counts latch; an interval of TAR updates device pace, and every interval the
watermarks, R38, R40, R50, R171. -/
def paceIntervalEnd (ss : Nat) (ops probes : List Nat) (s : State) : State :=
  if !s.pwr.mainUp || decide (7 < ss) || !(s.ivEnds ss) then s
  else
    let s := (s.setPaceIv ss (s.nextIv ss)).latchPace ss ops probes
    let s := if ss = ssTar then s.updatePace else s
    s.watermarks

def execPaceIntervalEnd (dt ss : Nat) (ops probes : List Nat) (s : State) : Host.Outcome State Fault Refusal :=
  runEvent dt (paceIntervalEnd ss ops probes) s

/-- A posted command waits for its admission decision: it has a deadline and a cost, R52. -/
def State.admitWaits (s : State) : Bool :=
  s.hp.posted.any fun slot => numAt (sgetAll 0 s.hp.mbox (256 * slot + 8) 8) 0 8 != 0 && numAt (sgetAll 0 s.hp.mbox (256 * slot + 16) 8) 0 8 != 0

/-- A quiet interval: 5 ms of TB0 in which no admission decision is pending, R54. -/
def State.quiet (s : State) : Bool := !s.admitWaits && (match s.gov.admitAt with | some t => decide (t + 5000000 ≤ s.now) | none => true)

/-- PACE_TABLE_MERGE: at a quiet interval the accumulated statistics become field entries, and the streams' calibration entries are
replaced, R54, R170. -/
def paceTableMerge (s : State) : State :=
  if s.ready && s.quiet then
    (List.range 64).foldl (fun (s : State) n => s.modStrm n Strm.mergeCal) s.mergePace
  else s

def execPaceTableMerge (dt : Nat) (s : State) : Host.Outcome State Fault Refusal := runEvent dt paceTableMerge s

/-- Adds the first step that waits on a time base. A step of TB0 closes OPEN instants before it and shifts the stream models and
the stamps that Churn and its tracker hold after it, R138, R175, R192, R258. -/
def State.takeStep (s : State) (tb : Nat) (r : StepReq) : State :=
  if tb = 0 then
    let s := s.stepClose.applyStep 0 r
    ((s.shiftModels r.off).stepChurn r.off).stepTracks fun t => ((t : Int) + r.off).toNat
  else s.applyStep tb r

/-- TIME_BASE_STEP_APPLY: the tick at which a step is added, one a tick (R135); a TIME_STEP commits with the instant of TB0 at it. The step of a
command that has ended is not added (R106, R121), nor one that steps before it have put out of range. -/
def timeBaseStepApply (tb : Nat) (s : State) : State :=
  match (s.tbase tb).steps with
  | [] => s
  | r :: rest =>
    let gone := s.setTbase tb { s.tbase tb with steps := rest }
    if r.cmd.any fun id => !(s.isRunning id) then gone
    else if !(s.stepTime tb r) then s
    else if s.stepBad tb r then
      match r.cmd with
      | some id => (gone.failCmd id stBadParam).settle
      | none => gone
    else
    let s := s.takeStep tb r
    match r.cmd.bind s.cmd? with
    | some c => (s.doneWith c (leBytes 8 s.now)).settle
    | none => s

def execTimeBaseStepApply (dt tb : Nat) (s : State) : Host.Outcome State Fault Refusal := runEvent dt (timeBaseStepApply tb) s

end Sys2Proof.Machine
end

