-- ==== Sys2Proof/Machine/Bridge.lean ====
section
/-! DEFINITION. The TSN bridge: VLANs, traffic classes, gate control lists, credit-based shapers (R149) and the one-step transparent clock (R148).
The spec gives no register or command that sets the bridge's ports up; State holds their configuration (log entry 93). -/
namespace Sys2Proof.Machine

/-! Frames. The layouts of Ethernet, 802.1Q, IPv4, IPv6, UDP and PTP are those of their standards (PRESUMED, log entry 93). -/

/-- The n-byte big-endian number at offset o of a frame. -/
def beAt (b : Bytes) (o n : Nat) : Nat := leVal ((b.drop o).take n).reverse

/-- A number as n big-endian bytes. -/
def beBytes (n v : Nat) : Bytes := (leBytes n v).reverse

/-- Whether a frame carries an 802.1Q tag. -/
def tagged (b : Bytes) : Bool := beAt b 12 2 == 0x8100

/-- Where the payload of a frame begins. -/
def payloadAt (b : Bytes) : Nat := if tagged b then 18 else 14

/-- The traffic class of a frame: its priority, 0 without a tag. -/
def frameClass (b : Bytes) : Nat := if tagged b then beAt b 14 2 / 0x2000 else 0

/-- The VLAN ID of a frame, 0 without a tag. -/
def frameVlan (b : Bytes) : Nat := if tagged b then beAt b 14 2 % 0x1000 else 0

/-- Where a frame's UDP header stands, and where the addresses of its pseudo-header do with their length; none under 802.3. -/
def udpAt (b : Bytes) : Option (Nat × Nat × Nat) :=
  let h := payloadAt b
  match beAt b (h - 2) 2 with
  | 0x0800 => some (h + 4 * (beAt b h 1 % 16), h + 12, 8)
  | 0x86DD => some (h + 40, h + 8, 32)
  | _ => none

/-- Where the PTP message of a frame begins, R146. -/
def ptpAt (b : Bytes) : Nat :=
  match udpAt b with
  | some u => u.1 + 8
  | none => payloadAt b

/-- The sum of the 16-bit words of a byte string, an odd last byte padded. -/
def wordSum : Bytes → Nat
  | [] => 0
  | [a] => 256 * a.toNat
  | a :: b :: r => 256 * a.toNat + b.toNat + wordSum r

/-- A UDP checksum: the one's complement of the one's complement sum over pseudo-header, header and data; a result of 0 is sent as all ones. -/
def udpSum (b : Bytes) (u addrs addrLen : Nat) : Nat :=
  let len := beAt b (u + 4) 2
  let dgram := putAt ((b.drop u).take len) 6 [0, 0]
  let n := (wordSum (cut b addrs addrLen) + 17 + len + wordSum dgram) % 0xFFFF
  if n = 0 then 0xFFFF else 0xFFFF - n

/-- A frame with its UDP checksum, if any, and its FCS recomputed, R148. -/
def reseal (b : Bytes) : Bytes :=
  let b := match udpAt b with
    | some u => putAt b (u.1 + 6) (beBytes 2 (udpSum b u.1 u.2.1 u.2.2))
    | none => b
  let body := b.take (b.length - 4)
  body ++ leBytes 4 (crc32 body).toNat

/-- The corrected correctionField of R148, in units of 2^−16 ns: a sum that overflows is the largest value. -/
def transparentSum (corr : W64) (residence : Nat) (delay : Int) : Nat :=
  let x := corr.toInt + ((residence : Int) + delay) * 65536
  if x > 0x7FFFFFFFFFFFFFFF then 0x7FFFFFFFFFFFFFFF else unsgn 64 x

/-- A frame with its correctionField corrected. -/
def corrected (b : Bytes) (residence : Nat) (delay : Int) : Bytes :=
  let o := ptpAt b + 8
  reseal (putAt b o (beBytes 8 (transparentSum (BitVec.ofNat 64 (beAt b o 8)) residence delay)))

/-! Queues and gates, R149 -/

def State.bridgePort (s : State) (p : Nat) : BridgePort := sget {} s.tnu.bridge p

/-- Whether a port's configuration lies within what the bridge offers. -/
def BridgePort.ok (p : BridgePort) : Bool :=
  (p.members.all fun l => l.all fun v => decide (v < 4096)) && decide (p.gates.length ≤ 256) && (p.gateTb == 1 || p.gateTb == 2) &&
  p.shapers.all fun e => e.1 == 6 || e.1 == 7

/-- The gates that a gate control list opens at a phase of its cycle. -/
def gatesAt (l : List GateEntry) (phase : Nat) : BitVec 8 :=
  match l with
  | [] => 0xFF#8
  | e :: r => if phase < e.ns then e.gates else gatesAt r (phase - e.ns)

/-- Whether the gate of a traffic class is open: the list runs in cycles from its start on its time base; without a list every gate is open. -/
def State.gateOpen (s : State) (p : BridgePort) (cls : Nat) : Bool :=
  let cycle := (p.gates.map fun e => e.ns).sum
  let now := s.tbNow p.gateTb
  cycle == 0 || decide (now < p.gateBase) || bit (gatesAt p.gates ((now - p.gateBase) % cycle)) cls

/-- The credit of a shaper: what it had, and what its slope has earned since, none above 0 without a frame that waits. -/
def State.creditNow (s : State) (x : Shaper) : Int := min 0 (x.credit + (x.slope * (s.ns - x.at_) / 1000000000 : Nat))

/-- Whether the shaper of a traffic class lets a frame go. -/
def State.shaperOpen (s : State) (p : BridgePort) (cls : Nat) : Bool :=
  p.shapers.all fun e => e.1 != cls || decide (0 ≤ s.creditNow e.2)

/-- A frame of a shaped class costs its bits. -/
def State.spendCredit (s : State) (port cls bits : Nat) : State :=
  let p := s.bridgePort port
  if p.shapers.any fun e => e.1 == cls then
    let l := p.shapers.map fun e => if e.1 = cls then (e.1, { e.2 with credit := s.creditNow e.2 - bits, at_ := s.ns }) else e
    { s with tnu := { s.tnu with bridge := sset {} s.tnu.bridge port { p with shapers := l } } }
  else s

/-- Whether a frame may leave a port now: the port carries its VLAN and is not sending, and the gate and the shaper of its class are open. -/
def State.mayEgress (s : State) (port : Nat) (b : Bytes) : Bool :=
  let p := s.bridgePort port
  (p.members.all fun l => !(tagged b) || l.contains (frameVlan b)) &&
  !(s.tnu.busy.any fun x => x.1 == 1 && x.2.1 == port) && s.gateOpen p (frameClass b) && s.shaperOpen p (frameClass b)

/-- A frame leaves a bridge port. -/
def State.egress (s : State) (port : Nat) (b : Bytes) : State :=
  (s.spendCredit port (frameClass b) (8 * b.length)).emit (.bridged port b)

/-- The messages a transparent clock corrects: Sync, Delay_Req, Pdelay_Req, Pdelay_Resp by their messageType. -/
def ptpType (b : Bytes) : Nat := beAt b (ptpAt b) 1 % 16

/-- BRIDGE_TRANSPARENT_CORRECT: R148. The frame came at `rx` and leaves at `tx` on the domain's time base; the difference is its residence time. Frames of a
gPTP domain are terminated, not corrected in passing; a frame that may not leave waits. -/
def bridgeTransparentCorrect (inPort outPort tb : Nat) (frame : Bytes) (rx tx : Nat) (s : State) : State :=
  let g := (s.tbase tb).ptp
  let gptp := g.any fun x => x.profile == 2
  if gptp || !(s.mayEgress outPort frame) then s
  else if 3 < ptpType frame then s.egress outPort frame
  else
    let d := if (g.any fun x => x.profile == 1) && ptpType frame == 0 then s.delayOf inPort tb else 0
    s.egress outPort (corrected frame (tx - rx) d)

def execBridgeTransparentCorrect (dt inPort outPort tb : Nat) (frame : Bytes) (rx tx : Nat) (s : State) :
    Host.Outcome State Fault Refusal :=
  runEvent dt (bridgeTransparentCorrect inPort outPort tb frame rx tx) s

end Sys2Proof.Machine
end

