-- ==== Sys2Proof/Machine/Bounds.lean ====
section
/-! DEFINITION. Enclosures of the exponential, the logarithm and the square root by rationals, and free values held within a bound: the
error bounds of R296, R306 and R350. -/
namespace Sys2Proof.Machine

/-- A value held within a range. -/
def hold (lo hi q : Rat) : Rat := if q < lo then lo else if hi < q then hi else q

/-- Rounds a positive rational down or up to 80 significant bits. -/
def coarse (up : Bool) (q : Rat) : Rat :=
  if q ≤ 0 then q
  else
    let u := pow2 (ilog2 q - 80)
    u * (((if up then -((-(q / u)).floor) else (q / u).floor) : Int) : Rat)

/-- The Taylor sum of e^y up to a degree, from the highest term. -/
def expSum (y : Rat) : Nat → Nat → Rat
  | 0, _ => 1
  | n + 1, k => 1 + y / (k : Rat) * expSum y n (k + 1)

/-- Squares an enclosure n times. -/
def squares : Nat → Rat × Rat → Rat × Rat
  | 0, b => b
  | n + 1, b => squares n (coarse false (b.1 * b.1), coarse true (b.2 * b.2))

/-- An enclosure of e^x; past ±128 only that it leaves the FP32 range. -/
def expEncl (x : Rat) : Rat × Rat :=
  if 128 ≤ x then (pow2 184, pow2 185)
  else if x ≤ -128 then (0, pow2 (-184))
  else
    let s := expSum (x / 256) 24 1
    squares 8 (coarse false (s - pow2 (-90)), coarse true (s + pow2 (-90)))

/-- The partial sum of artanh t = t + t³/3 + …, for |t| ≤ 1/3. -/
def artanhSum (t : Rat) : Nat → Nat → Rat
  | 0, _ => 0
  | n + 1, k => 1 / (k : Rat) + t * t * artanhSum t n (k + 2)

/-- An enclosure of the natural logarithm of a positive rational. -/
def lnEncl (q : Rat) : Rat × Rat :=
  let k := ilog2 q
  let m := q / pow2 k
  let t := (m - 1) / (m + 1)
  let a := 2 * t * artanhSum t 40 1
  let b := (2 : Rat) / 3 * artanhSum (1 / 3) 40 1
  let v := a + (k : Rat) * b
  let e := pow2 (-90) * (1 + absR (k : Rat))
  (v - e, v + e)

/-- An enclosure of the square root of a non-negative rational. -/
def sqrtEncl (q : Rat) : Rat × Rat :=
  if q ≤ 0 then (0, 0)
  else
    let k := (ilog2 q).natAbs + 90
    let n := isqrt ((q * pow2 (2 * k)).floor.toNat)
    ((n : Rat) / pow2 k, ((n + 1 : Nat) : Rat) / pow2 k)

/-- A free value within a relative error of an enclosed one. -/
def withinRel (e : Rat × Rat) (rel free : Rat) : Rat :=
  hold (e.1 - rel * absR e.1) (e.2 + rel * absR e.2) free

/-! The accumulator of R296 -/

/-- The exponent of the last nonzero bit of a dyadic rational. -/
def lastBit (q : Rat) : Int :=
  let n := q.num.natAbs
  ((List.range (Nat.log2 n + 1)).find? fun i => n.testBit i).getD 0 - (Nat.log2 q.den : Int)

/-- The finite part of a value. -/
def FVal.rat? : FVal → Option Rat
  | .fin _ q => some q
  | _ => none

/-- The sum of scaled block sums: exact where 32 significant bits hold every partial sum, otherwise a free value within the bound of
R296 (log entry 59). -/
def accumulate (blocks : List FVal) (free : Rat) : FVal :=
  match blocks.foldl FVal.add (.fin false 0) with
  | .fin _ q =>
    let l := (blocks.filterMap FVal.rat?).filter fun b => b != 0
    let mag := l.foldl (fun (m : Rat) b => m + absR b) 0
    let u := l.foldl (fun (m : Int) b => min m (lastBit b)) (lastBit mag)
    if mag < pow2 (u + 32) then FVal.ofRat q
    else
      let big := l.foldl (fun (m : Rat) b => if m < absR b then absR b else m) 0
      let e := (blocks.length : Rat) * pow2 (-32) * big
      FVal.ofRat (hold (q - e) (q + e) free)
  | v => v

end Sys2Proof.Machine
end

