-- ==== Sys2Proof/Machine/Kernels.lean ====
section
/-! DEFINITION. What MATMUL, VECTOR and SPCONV descriptors compute: R292 to R300, R305 to R308, R238. -/
namespace Sys2Proof.Machine

/-! Elements -/

/-- The code of an element by its indices, innermost first. -/
def State.code (s : State) (d : Desc) (idx : List Nat) : Nat :=
  match idx with
  | [] => 0
  | i :: r => s.elem d.fmt (d.rowAt r) i

def State.val (s : State) (d : Desc) (idx : List Nat) : FVal := fmtVal d.fmt (s.code d idx)

/-- How the header of a core descriptor converts, R304: stochastic rounding and E5M2 infinities. -/
structure Round where
  sr : Bool := false
  infOk : Bool := false
deriving DecidableEq, Repr

/-- What a kernel gives: rows to write, by address and format, and what it counted. -/
structure Kernel where
  rows : List (Nat × Nat × List Conv) := []
  visited : Nat := 0
  zero : Nat := 0
  tiles : Nat := 0
  empty : Nat := 0
  sats : Nat := 0
  flushes : Nat := 0
deriving DecidableEq, Repr

/-- Converts the elements of a row, counting them from i for the random bits. -/
def convRow (r : Round) (f ctr i : Nat) (l : List FVal) : List Conv :=
  l.zipIdx.map fun v => fmtEnc f r.infOk (if r.sr then some (Config.srAt ctr (i + v.2)).toNat else none) v.1

def Conv.plain (c : Nat) : Conv := { code := c }

/-- Writes the rows of a kernel. -/
def State.putRows (s : State) (k : Kernel) : State :=
  k.rows.foldl (fun (s : State) r => s.store r.1 (packRow r.2.1 (r.2.2.map (·.code)))) s

/-- The saturations and NaN flushes of the rows, R297. -/
def Kernel.count (k : Kernel) : Kernel :=
  { k with
    sats := k.rows.foldl (fun (n : Nat) r => n + (r.2.2.filter (·.sat)).length) 0
    flushes := k.rows.foldl (fun (n : Nat) r => n + (r.2.2.filter (·.flush)).length) 0 }

/-! MATMUL, R293 to R296, R300, R305 -/

/-- An operand: its tensor, its scales, and whether k is innermost. -/
structure Operand where
  d : Desc
  scale : Option Desc
  kIn : Bool
deriving DecidableEq, Repr

/-- Element (r, k) of batch b: r is the row of A or the column of B. -/
def State.opAt (s : State) (o : Operand) (b r k : Nat) : FVal := s.val o.d (if o.kIn then [k, r, b] else [r, k, b])

/-- The scale of block kb; 1 without a scale array. -/
def State.scaleAt (s : State) (o : Operand) (sfmt b r kb : Nat) : FVal :=
  match o.scale with
  | some d => scaleVal sfmt (s.code d [kb, r, b])
  | none => .fin false 1

/-- A scaled block sum, R296 and its NaN, infinity and zero-scale cases. -/
def scaledSum (sum scale : FVal) : FVal :=
  match scale, sum with
  | .nan, _ => .nan
  | _, .nan => .nan
  | .fin n q, x => if q = 0 then .fin n 0 else (FVal.fin n q).mul x
  | x, y => x.mul y

/-- A MATMUL as its descriptor states it. -/
structure Mm where
  m : Nat
  n : Nat
  k : Nat
  batch : Nat
  a : Operand
  b : Operand
  c : Desc
  bias : Option Desc
  alpha : FVal
  sfmt : Nat
  blk : Nat
  epi : Nat
  accum : Bool
  outFmt : Nat
  rnd : Round
deriving DecidableEq, Repr

/-- The elements of one block: the scale block, or 16 of k. -/
def Mm.block (x : Mm) : Nat := if x.a.scale.isSome || x.b.scale.isSome then x.blk else 16

/-- The scaled block sums of one output element. -/
def State.blockSums (s : State) (x : Mm) (b i j : Nat) : List FVal :=
  (List.range (ceilDiv x.k x.block)).map fun kb =>
    let lo := kb * x.block
    let sum := (List.range (Nat.min x.block (x.k - lo))).foldl (fun (v : FVal) t =>
      v.add ((s.opAt x.a b i (lo + t)).mul (s.opAt x.b b j (lo + t)))) (.fin false 0)
    scaledSum sum ((s.scaleAt x.a x.sfmt b i kb).mul (s.scaleAt x.b x.sfmt b j kb))

/-- The epilogue of R305; GELU and SiLU of a value other than 0 are free. -/
def epilogue (e : Nat) (v : FVal) : FVal :=
  if e = 0 then v
  else match v with
    | .nan => .nan
    | .inf neg => if neg then .fin false 0 else .inf false
    | .fin n q => if e = 1 then (if q < 0 ∨ n = true then .fin false 0 else v) else if q = 0 then v else FVal.ofRat (Config.epilogueFree e q)

/-- One output element before conversion: terms in FP32, rounded to nearest even (R298). A result of the accumulator alone is
converted once, from its extended range. -/
def State.mmElem (s : State) (x : Mm) (ctr b i j : Nat) : FVal :=
  let acc := accumulate (s.blockSums x b i j) (Config.freeAt ctr ((b * x.m + i) * x.n + j))
  let r := if x.alpha = .fin false 1 then acc else (x.alpha.mul acc).f32
  let r := match x.bias with
    | some d => ((r.f32).add (s.val d [j])).f32
    | none => r
  let r := if x.accum then ((r.f32).add (s.val x.c [j, i, b])).f32 else r
  if x.epi = 0 then r else (epilogue x.epi r.f32).f32

/-- Whether block kb of 16 along k is a zero block, R300; a block cut short by k is none. -/
def State.zeroBlock (s : State) (x : Mm) (o : Operand) (b r kb : Nat) : Bool :=
  decide (16 * kb + 16 ≤ x.k) &&
  ((List.range 16).all fun t => match s.opAt o b r (16 * kb + t) with | .fin _ q => q == 0 | _ => false) &&
  (match s.scaleAt o x.sfmt b r (16 * kb / Nat.max 16 x.blk) with | .nan => false | _ => true)

/-- The block pairs visited, and those in which a block is a zero block. -/
def State.pairCount (s : State) (x : Mm) : Nat × Nat :=
  let nb := ceilDiv x.k 16
  let nz := fun (o : Operand) (rows b kb : Nat) => ((List.range rows).filter fun r => !(s.zeroBlock x o b r kb)).length
  let full := (List.range x.batch).foldl (fun (t : Nat) b =>
    (List.range nb).foldl (fun (t : Nat) kb => t + nz x.a x.m b kb * nz x.b x.n b kb) t) 0
  let all := x.batch * nb * x.m * x.n
  (all, all - full)

/-- MATMUL: R305. -/
def State.matmul (s : State) (x : Mm) (ctr : Nat) : Kernel :=
  let rows := (List.range x.batch).flatMap fun b => (List.range x.m).map fun i =>
    (x.c.rowAt [i, b], x.outFmt, convRow x.rnd x.outFmt ctr ((b * x.m + i) * x.n) ((List.range x.n).map fun j => s.mmElem x ctr b i j))
  let p := s.pairCount x
  ({ rows := rows, visited := p.1, zero := p.2 } : Kernel).count

/-! VECTOR, R306, R307 -/

structure Vec where
  vop : Nat
  rows : Nat
  len : Nat
  imm : FVal
  x : Desc
  y : Option Desc
  out : Desc
  scale : Option Desc
  sfmt : Nat
  blk : Nat
  outFmt : Nat
  rnd : Round
deriving DecidableEq, Repr

/-- e^(v) as EXP forms it: within 2^−21 relative. -/
def expVal (rel : Rat) (v : FVal) (free : Rat) : FVal :=
  match v with
  | .nan => .nan
  | .inf neg => if neg then .fin false 0 else .inf false
  | .fin _ q => .fin false (withinRel (expEncl q) rel free)

/-- 1 / sqrt(v) within a relative error. -/
def rsqrtVal (rel : Rat) (v : FVal) (free : Rat) : FVal :=
  match v with
  | .nan => .nan
  | .inf neg => if neg then .nan else .fin false 0
  | .fin neg q =>
    if q = 0 then .inf neg
    else if q < 0 then .nan
    else
      let e := sqrtEncl q
      .fin false (withinRel (1 / e.2, 1 / e.1) rel free)

/-- Rounds to FP32 and stays exact elsewhere: the VXE computes in FP32. -/
def fma (a b c : FVal) : FVal := ((a.mul b).add c).f32

/-- The sum of the FP32 exponentials of a row less its maximum: an enclosure, or none when the row has no finite maximum. -/
def expSumEncl (m : Rat) (l : List FVal) : Rat × Rat :=
  l.foldl (fun (a : Rat × Rat) v => match v with
    | .fin _ q => let e := expEncl (q - m); (a.1 + e.1, a.2 + e.2)
    | _ => a) (0, 0)

/-- The block sums of a row for ROW_SUM, 16 elements each. -/
def rowBlocks (l : List FVal) : List FVal :=
  (List.range (ceilDiv l.length 16)).map fun i => ((l.drop (16 * i)).take 16).foldl FVal.add (.fin false 0)

def rowMax (l : List FVal) : FVal := l.foldl FVal.max (.inf true)

/-- Log-sum-exp within 2^−20 relative. -/
def rowLse (l : List FVal) (free : Rat) : FVal :=
  match rowMax l with
  | .fin _ m =>
    let e := expSumEncl m l
    FVal.ofRat (withinRel (m + (lnEncl e.1).1, m + (lnEncl e.2).2) (pow2 (-20)) free)
  | v => v

/-- An element of SOFTMAX within 2^−20 relative. -/
def softmaxElem (l : List FVal) (x : FVal) (free : Rat) : FVal :=
  match rowMax l, x with
  | .fin _ m, .fin _ q =>
    let e := expSumEncl m l
    let n := expEncl (q - m)
    .fin false (withinRel (n.1 / e.2, n.2 / e.1) (pow2 (-20)) free)
  | .fin _ _, .inf true => .fin false 0
  | _, _ => .nan

/-- x / sqrt(mean(x²) + imm) within 2^−20 relative. -/
def rmsElem (l : List FVal) (imm x : FVal) (free : Rat) : FVal :=
  let ms := (l.foldl (fun (a : FVal) v => a.add (v.mul v)) (.fin false 0)).mul (FVal.ofRat (1 / (Nat.max 1 l.length : Nat)))
  match ms.add imm, x with
  | .fin _ q, .fin n v =>
    if q ≤ 0 then (if q = 0 ∧ v ≠ 0 then .inf n else .nan)
    else
      let e := sqrtEncl q
      let b := if v < 0 then (v / e.1, v / e.2) else (v / e.2, v / e.1)
      .fin n (withinRel b (pow2 (-20)) free)
  | .inf _, .fin n _ => .fin n 0
  | _, _ => .nan

/-- e_max of R307. -/
def qMax (f : Nat) : Int :=
  match f with
  | 3 => 8 | 4 => 15 | 5 => 4 | 6 => 2 | 7 => 2 | 8 => 6 | _ => 2

/-- The scale of a block and its code, R307: none is a NaN scale. -/
def quantScale (sfmt inFmt outFmt : Nat) (l : List FVal) : Option (Rat × Nat) :=
  if l.any fun v => v == .nan then none
  else
    let amax := l.foldl (fun (m : Rat) v =>
      let a := match v with | .fin _ q => absR q | _ => fmtMax inFmt
      if m < a then a else m) 0
    if amax = 0 then some (0, 0)
    else if sfmt = 0 then
      let e := ilog2 amax - qMax outFmt
      if e < -127 then some (pow2 (-127), 0) else some (pow2 e, (e + 127).toNat)
    else
      let q := amax / fmtMax outFmt
      let c := ((List.range 0x7F).find? fun c => match fmtVal 3 c with | .fin _ v => decide (q ≤ v) | _ => false).getD 0x7E
      some (match fmtVal 3 c with | .fin _ v => v | _ => 448, c)

/-- A block quantised: values and scale code. Under E8M0 the clipping is not counted. -/
def quantBlock (x : Vec) (ctr i : Nat) (l : List FVal) : List Conv × Nat :=
  match quantScale x.sfmt x.x.fmt x.outFmt l with
  | none => (l.map fun _ => Conv.plain 0, if x.sfmt = 0 then 0xFF else 0x7F)
  | some (sc, code) =>
    if sc = 0 then (l.map fun _ => Conv.plain 0, code)
    else
      let r := convRow x.rnd x.outFmt ctr i (l.map fun v => v.mul (FVal.ofRat (1 / sc)))
      (if x.sfmt = 0 then r.map fun c => { c with sat := false } else r, code)

/-- The elements of a row of x. -/
def State.rowVals (s : State) (d : Desc) (n r : Nat) : List FVal := (List.range n).map fun i => s.val d [i, r]

/-- The elements of a row that VECTOR writes before conversion. -/
def vecRow (v : Vec) (ctr i0 : Nat) (x y : List FVal) : List FVal :=
  let free := fun (i : Nat) => Config.freeAt ctr (i0 + i)
  let pair := fun (f : FVal → FVal → FVal) => List.zipWith f x y
  let each := fun (f : FVal → Rat → FVal) => x.zipIdx.map fun e => f e.1 (free e.2)
  match v.vop with
  | 0x01 => pair fun a b => (a.add b).f32
  | 0x02 => pair fun a b => (a.mul b).f32
  | 0x03 => pair fun a b => fma a v.imm b
  | 0x04 => pair FVal.max
  | 0x05 => each fun a f => expVal (pow2 (-21)) (a.add v.imm.neg) f
  | 0x06 => each fun a f => rsqrtVal (pow2 (-22)) a f
  | 0x07 => [rowMax x]
  | 0x08 => [accumulate (rowBlocks x) (free 0)]
  | 0x09 => [rowLse x (free 0)]
  | 0x0A => each fun a f => softmaxElem x a f
  | 0x0B => each fun a f => rmsElem x v.imm a f
  | _ => x

/-- VECTOR: R306, R307. -/
def State.vector (s : State) (v : Vec) (ctr : Nat) : Kernel :=
  let rows := (List.range v.rows).flatMap fun r =>
    let x := s.rowVals v.x v.len r
    let y := match v.y with
      | some d => s.rowVals d v.len (if d.ext 1 = 1 then 0 else r)
      | none => []
    if v.vop = 0x0D then
      let bs := (List.range (ceilDiv v.len v.blk)).map fun b => quantBlock v ctr (r * v.len + b * v.blk) ((x.drop (b * v.blk)).take v.blk)
      (v.out.rowAt [r], v.outFmt, bs.flatMap (·.1)) ::
        (match v.scale with | some d => [(d.rowAt [r], d.fmt, bs.map fun b => Conv.plain b.2)] | none => [])
    else [(v.out.rowAt [r], v.outFmt, convRow v.rnd v.outFmt ctr (r * v.len) (vecRow v ctr (r * v.len) x y))]
  ({ rows := rows } : Kernel).count

/-! SPCONV, R238, R308 -/

structure Sp where
  spec : Nat
  cin : Nat
  cout : Nat
  kern : Nat
  kind : Nat
  nOut : Nat
  dir : List (Nat × Nat)
  pairs : List (Nat × Nat)
  x : Desc
  w : Desc
  out : Desc
  bias : Option Desc
  epi : Nat
  outFmt : Nat
  rnd : Round
deriving DecidableEq, Repr

/-- The (input, output) pairs of an offset: an UP exchanges the roles, the centre of SUBM maps every site to itself. -/
def Sp.offset (p : Sp) (o : Nat) : List (Nat × Nat) :=
  let e := p.dir.getD o (0, 0)
  if p.kind = 0 ∧ o = p.kern * p.kern * p.kern / 2 then (List.range p.nOut).map fun i => (i, i)
  else
    let l := (p.pairs.drop e.1).take e.2
    if p.kind = 2 then l.map fun q => (q.2, q.1) else l

def Sp.work (p : Sp) : List (Nat × Nat × Nat) :=
  (List.range p.dir.length).flatMap fun o => (p.offset o).map fun q => (o, q.1, q.2)

/-- The block sums that reach an output element: 16 channels of one pair each. -/
def State.spBlocks (s : State) (p : Sp) (work : List (Nat × Nat × Nat)) (site ch : Nat) : List FVal :=
  (work.filter fun q => q.2.2 == site).flatMap fun q => (List.range (p.cin / 16)).map fun kb =>
    (List.range 16).foldl (fun (v : FVal) t =>
      v.add ((s.val p.x [16 * kb + t, q.2.1]).mul (s.val p.w [16 * kb + t, ch, q.1]))) (.fin false 0)

/-- SPCONV: every output site, with bias and epilogue after all offsets. -/
def State.spconv (s : State) (p : Sp) (ctr : Nat) : Kernel :=
  let work := p.work
  let rows := (List.range p.nOut).map fun site =>
    (p.out.rowAt [site], p.outFmt, convRow p.rnd p.outFmt ctr (site * p.cout) ((List.range p.cout).map fun ch =>
      let acc := (accumulate (s.spBlocks p work site ch) (Config.freeAt ctr (site * p.cout + ch))).f32
      let r := match p.bias with
        | some d => (acc.add (s.val d [ch])).f32
        | none => acc
      if p.epi = 0 then r else (epilogue p.epi r).f32))
  ({ rows := rows, visited := work.length } : Kernel).count

end Sys2Proof.Machine
end

