-- ==== Sys2Proof/Machine/KvBase.lean ====
section
/-! DEFINITION. Pools, pages and sequences of the KV cache: their geometry and their lookups (R355 to R361). -/
namespace Sys2Proof.Machine

def State.setKv (s : State) (f : Kv → Kv) : State := { s with kv := f s.kv }

def State.kvPool? (s : State) (p : Nat) : Option KvPool := (s.kv.pools.find? fun e => e.1 == p).map (·.2)
def State.kvSeq? (s : State) (q : Nat) : Option KvSeq := (s.kv.seqs.find? fun e => e.1 == q).map (·.2)

def State.setKvPool (s : State) (p : Nat) (x : KvPool) : State :=
  s.setKv fun k => { k with pools := (k.pools.filter fun e => e.1 != p) ++ [(p, x)] }

def State.setKvSeq (s : State) (q : Nat) (x : KvSeq) : State :=
  s.setKv fun k => { k with seqs := (k.seqs.filter fun e => e.1 != q) ++ [(q, x)] }

/-- KV_INIT has committed; its owner; the device's role (R373). -/
def State.kvOn (s : State) : Bool := s.fldOf .mmvKvCtl 31 1 == 1
def State.kvOwner (s : State) : Nat := s.fldOf .mmvKvCtl 28 3
def State.kvRole (s : State) : Nat := s.fldOf .mmvKvCtl 24 2

/-- Bytes of one row of a page, R356. -/
def KvPool.row (k : KvPool) : Nat := roundUp (ceilDiv (k.d * fmtBits k.fmt) 8) 64
def KvPool.tokens (k : KvPool) : Nat := 2 ^ k.ptok
def KvPool.layerBytes (k : KvPool) : Nat := 2 * k.heads * k.tokens * k.row
def KvPool.pageBytes (k : KvPool) : Nat := k.layers * k.layerBytes
def KvPool.frameAt (k : KvPool) (f : Nat) : Nat := k.addr + f * k.pageBytes

/-- The address of a token's row in a frame: kind 0 K, 1 V. -/
def KvPool.rowAt (k : KvPool) (f layer kind head t : Nat) : Nat :=
  k.frameAt f + layer * k.layerBytes + ((kind * k.heads + head) * k.tokens + t) * k.row

/-- The pages of a pool by ID. -/
def State.kvPages (s : State) (pool : Nat) : List (Nat × KvPage) :=
  (s.kv.pages.filter fun e => e.1 / 0x1000000 == pool).map fun e => (e.1 % 0x1000000, e.2)

/-- Frames that hold no page: RESIDENT, SPILLING and FETCHING pages hold one. -/
def State.freeFrames (s : State) (pool : Nat) (k : KvPool) : List Nat :=
  let used := ((s.kvPages pool).filter fun e => e.2.state == 1 || e.2.state == 2 || e.2.state == 4).map (·.2.frame)
  (List.range k.frames).filter fun f => !(used.contains f)

/-- Cellar slots that hold no page: SPILLING, CELLAR and FETCHING pages hold one. -/
def State.freeSlots (s : State) (pool : Nat) (k : KvPool) : List Nat :=
  let used := ((s.kvPages pool).filter fun e => e.2.state == 2 || e.2.state == 3 || e.2.state == 4).map (·.2.slot)
  (List.range k.cellar.slots).filter fun f => !(used.contains f)

/-- The registers of the machinery follow its state, R373. -/
def State.kvFree (s : State) (pool : Nat) : Nat := match s.kvPool? pool with | some k => (s.freeFrames pool k).length | none => 0
def State.kvIdsUsed (s : State) (pool : Nat) : Nat := ((s.kvPages pool).filter fun e => e.2.state != 0).length
def State.kvInCellar (s : State) (pool : Nat) : Nat := ((s.kvPages pool).filter fun e => e.2.state == 3).length

/-- A page that is read or written notes the instant. -/
def State.touchPage (s : State) (pool id : Nat) : State := s.setKvPage pool id { s.kvPage pool id with last := s.now }

/-- The status of a command that names a sequence, R355, R360, R374; none when the sequence is LIVE. -/
def State.seqErr (s : State) (c : Cmd) (q : Nat) : Option Nat :=
  if !s.kvOn || s.kvOwner != c.part then some stNotPermitted
  else match s.kvSeq? q with
    | none => some stBadParam
    | some x => if x.broken then some 0x25 else none

end Sys2Proof.Machine
end

