-- ==== Sys2Proof/Machine/AttnK.lean ====
section
/-! DEFINITION. What ATTN_FWD and ATTN_BWD compute: R343 to R353. Every operation is FP32; each exponential is a value within the
bound of R306, sums follow R296, and tiles complete in a free order (R8; log entry 66). -/
namespace Sys2Proof.Machine

/-- A row of the lengths table, R344. -/
structure LenRow where
  seq : Nat
  qOff : Nat
  qLen : Nat
  kvLen : Nat
  kvOff : Nat
  bidir : Nat
deriving DecidableEq, Repr

/-- An attention descriptor as its fields and tensors state it. `layer` is the layer of a page that a paged command reads, which no
field names (log entry 66). -/
structure Attn where
  rows : List LenRow
  hq : Nat
  hkv : Nat
  d : Nat
  bgroup : Nat
  headBase : Nat
  scale : FVal
  kScale : FVal
  vScale : FVal
  paged : Bool
  pool : Nat
  layer : Nat
  wide : Bool
  outFmt : Nat
  rnd : Round
  q : Desc
  k : Desc
  v : Desc
  bias : Option Desc
deriving DecidableEq, Repr

/-- The words of a lengths-table row. -/
def State.lenRow (s : State) (d : Desc) (r : Nat) : LenRow :=
  let w := fun (i : Nat) => s.elem d.fmt (d.rowAt [r]) i
  { seq := w 0, qOff := w 1, qLen := w 2, kvLen := w 3, kvOff := w 4, bidir := w 5 }

/-- Query heads that share a KV head. -/
def Attn.g (a : Attn) : Nat := a.hq / a.hkv

/-- bucket(δ), R346. -/
def bucket (delta : Int) : Nat :=
  let x := if 0 ≤ delta then delta.toNat else (-delta - 1).toNat
  let half := if 0 ≤ delta then 0 else 512
  if x < 256 then half + x
  else
    let e := Nat.log2 x
    half + Nat.min 511 (256 + 32 * (e - 8) + (x - 2 ^ e) * 32 / 2 ^ e)

/-- The bucket of query i and key j of a row; positions below bidir use the distance. -/
def LenRow.bucket (r : LenRow) (i j : Nat) : Nat :=
  let p := r.kvLen - r.qLen + i
  let delta : Int := (p : Int) - (j : Int)
  if p < r.bidir ∧ j < r.bidir then Machine.bucket (delta.natAbs : Int) else Machine.bucket delta

/-- The row of the bias table of a local query head. -/
def Attn.brow (a : Attn) (h : Nat) : Nat := (a.headBase + h) / a.bgroup

def State.biasAt (s : State) (a : Attn) (h b : Nat) : FVal :=
  match a.bias with
  | some d => s.val d [b, a.brow h]
  | none => .fin false 0

/-- Element e of the key (kind 0) or value (kind 1) of key j of a row for a KV head. -/
def State.kvVal (s : State) (a : Attn) (r : LenRow) (kind head j e : Nat) : FVal :=
  let t := if kind = 0 then a.k else a.v
  let old := r.kvLen - r.qLen
  if a.paged then
    if old ≤ j then s.val t [e, r.kvOff + (j - old), head]
    else match s.kvPool? a.pool, s.kvSeq? r.seq with
      | some k, some x =>
        let p := s.kvPage a.pool (x.table.getD (j / k.tokens) 0)
        fmtVal k.fmt (s.elem k.fmt (k.rowAt p.frame a.layer kind head (j % k.tokens)) e)
      | _, _ => .nan
  else s.val t [e, r.kvOff + j, head]

/-- Keys of a tile: one page, or 128. -/
def State.tileKeys (s : State) (a : Attn) : Nat :=
  if a.paged then (match s.kvPool? a.pool with | some k => k.tokens | none => 128) else 128

/-- Query rows of a KV head in a lengths row: (head, query), packed query by query (log entry 66). -/
def Attn.qRows (a : Attn) (r : LenRow) (hk : Nat) : List (Nat × Nat) :=
  (List.range r.qLen).flatMap fun i => (List.range a.g).map fun h => (hk * a.g + h, i)

/-- The list in pieces of at most n. -/
def pieces {α : Type} (n : Nat) (l : List α) : List (List α) :=
  (List.range (ceilDiv l.length n)).map fun i => (l.drop (n * i)).take n

/-- Whether a tile is skipped, R348. -/
def State.tileSkips (s : State) (a : Attn) (r : LenRow) (q : List (Nat × Nat)) (keys : List Nat) : Bool :=
  match a.bias with
  | none => false
  | some d =>
    let bs := (q.flatMap fun e => keys.map fun j => r.bucket e.2 j).eraseDups
    let rows := (q.map fun e => a.brow e.1).eraseDups
    rows.all fun b => bs.all fun x => s.val d [x, b] == .inf true

/-- The score of R346: the dot product sums exactly and enters the accumulator by blocks of 16. -/
def State.score (s : State) (a : Attn) (ctr : Nat) (r : LenRow) (h i j : Nat) : FVal :=
  let hk := h / a.g
  let blocks := (List.range (ceilDiv a.d 16)).map fun b =>
    (List.range 16).foldl (fun (v : FVal) t =>
      v.add ((s.val a.q [16 * b + t, r.qOff + i, h]).mul (s.kvVal a r 0 hk j (16 * b + t)))) (.fin false 0)
  let dot := (accumulate blocks (Config.freeAt ctr ((h * 65536 + i) * 2097152 + j))).f32
  (((a.scale.mul a.kScale).f32.mul dot).f32.add (s.biasAt a h (r.bucket i j))).f32

/-- exp(x − m) in FP32 within the bound of EXP; 0 for a masked score. -/
def expDiff (x m free : FVal) : FVal :=
  let f := match free with | .fin _ q => q | _ => 0
  (expVal (pow2 (-21)) (x.add m.neg) f).f32

/-- m, l and acc of a query row, R350. -/
structure Soft where
  m : FVal := .inf true
  l : FVal := .fin false 0
  acc : List FVal
deriving DecidableEq, Repr

/-- One key tile of a query row. -/
def State.softTile (s : State) (a : Attn) (ctr : Nat) (r : LenRow) (h i : Nat) (keys : List Nat) (x : Soft) : Soft :=
  let sc := keys.map fun j => s.score a ctr r h i j
  let m := FVal.max x.m (rowMax sc)
  if m = .inf true then x
  else
    let free := fun (k : Nat) => FVal.ofRat (Config.freeAt (ctr + 1) ((h * 65536 + i) * 2097152 + k))
    let p := List.zipWith (fun (v : FVal) (j : Nat) => if v = .inf true then .fin false 0 else expDiff v m (free j)) sc keys
    let up := if x.m = .inf true then .fin false 0 else expDiff x.m m (free 2097151)
    let pc := p.map fun v => fmtVal (if a.wide then 1 else 3) (fmtEnc (if a.wide then 1 else 3) false none v).code
    { m := m
      l := ((x.l.mul up).f32.add (accumulate (rowBlocks p) (Config.freeAt (ctr + 2) (h * 65536 + i))).f32).f32
      acc := x.acc.zipIdx.map fun e =>
        let pv := List.zipWith (fun (w : FVal) (j : Nat) => w.mul (s.kvVal a r 1 (h / a.g) j e.2)) pc keys
        ((e.1.mul up).f32.add (a.vScale.mul (accumulate (rowBlocks pv) (Config.freeAt (ctr + 3) ((h * 65536 + i) * 256 + e.2))).f32).f32).f32 }

/-- Insertion by a free key: the order in which tiles complete. -/
def insByRat (k : List Nat → Rat) (e : List Nat) : List (List Nat) → List (List Nat)
  | [] => [e]
  | x :: r => if k e ≤ k x then e :: x :: r else x :: insByRat k e r

/-- The quotient of two FP32 values. -/
def FVal.div : FVal → FVal → FVal
  | .nan, _ => .nan
  | _, .nan => .nan
  | .inf _, .inf _ => .nan
  | .inf a, y => .inf (a != y.isNeg)
  | .fin a _, .inf b => .fin (a != b) 0
  | .fin a p, .fin b q => if q = 0 then (if p = 0 then .nan else .inf (a != b)) else .fin (a != b) (p / q)

/-- What a query row gives: the row of O and its statistics; none when it sees no key. -/
def Soft.out (x : Soft) (free : Rat) : Option (List FVal × FVal × FVal) :=
  if x.m = .inf true then none
  else
    let ln := match x.l with
      | .fin _ q => if q ≤ 0 then .inf true else FVal.ofRat (withinRel (lnEncl q) (pow2 (-20)) free)
      | v => v
    some (x.acc.map fun v => (v.div x.l).f32, x.m, (x.m.add ln).f32)

def rowOr (d : Nat) (x : Option (List FVal × FVal × FVal)) : List FVal := match x with | some y => y.1 | none => List.replicate d (.fin false 0)
def statOr (x : Option (List FVal × FVal × FVal)) : FVal × FVal := match x with | some y => y.2 | none => (.inf true, .inf true)

/-- What the tiles of a (lengths row, KV head) pair give: O rows, statistics, counts. -/
structure AttnOut where
  o : List (Nat × Nat × List FVal) := []
  st : List (Nat × Nat × FVal × FVal) := []
  visited : Nat := 0
  skipped : Nat := 0
  empty : Nat := 0
deriving DecidableEq, Repr

def AttnOut.join (x y : AttnOut) : AttnOut :=
  { o := x.o ++ y.o, st := x.st ++ y.st, visited := x.visited + y.visited, skipped := x.skipped + y.skipped, empty := x.empty + y.empty }

def State.attnUnit (s : State) (a : Attn) (ctr : Nat) (r : LenRow) (hk : Nat) : AttnOut :=
  let keys := pieces (s.tileKeys a) (List.range r.kvLen)
  (pieces 128 (a.qRows r hk)).foldl (fun (out : AttnOut) q =>
    let run := keys.filter fun k => !(s.tileSkips a r q k)
    let order := run.foldr (insByRat fun k => Config.freeAt (ctr + 4) (k.headD 0)) []
    let res := q.map fun e =>
      (e, (order.foldl (fun (x : Soft) k => s.softTile a ctr r e.1 e.2 k x) { acc := List.replicate a.d (.fin false 0) }).out
        (Config.freeAt (ctr + 5) (e.1 * 65536 + e.2)))
    let os := res.map fun (x : (Nat × Nat) × Option (List FVal × FVal × FVal)) => (x.1.1, r.qOff + x.1.2, rowOr a.d x.2)
    let sts := res.map fun (x : (Nat × Nat) × Option (List FVal × FVal × FVal)) => (x.1.1, r.qOff + x.1.2, statOr x.2)
    { o := out.o ++ os
      st := out.st ++ sts
      visited := out.visited + q.length * (run.map List.length).sum
      skipped := out.skipped + (keys.length - run.length)
      empty := out.empty + (res.filter fun x => x.2.isNone).length }) {}

/-- ATTN_FWD over its (row, KV head) pairs: the rows of O and the elements of the statistics. -/
def State.attnFwd (s : State) (a : Attn) (ctr : Nat) (units : List (Nat × Nat)) (o : Desc) (st : Option Desc) : Kernel :=
  let outs := units.map fun u => s.attnUnit a ctr (a.rows.getD u.1 ⟨0, 0, 0, 0, 0, 0⟩) u.2
  let out := outs.foldl AttnOut.join {}
  let rows := out.o.map fun e => (o.rowAt [e.2.1, e.1], a.outFmt, convRow a.rnd a.outFmt ctr ((e.1 * 65536 + e.2.1) * 256) e.2.2)
  let stats := match st with
    | none => []
    | some d => out.st.flatMap fun e =>
        [(d.rowAt [e.1, 0] + 4 * e.2.1, 0, [fmtEnc 0 true none e.2.2.1]), (d.rowAt [e.1, 1] + 4 * e.2.1, 0, [fmtEnc 0 true none e.2.2.2])]
  ({ rows := rows ++ stats, visited := out.visited, tiles := out.skipped, empty := out.empty } : Kernel).count

/-! The backward pass, R352, R353 -/

structure Bwd where
  a : Attn
  o : Desc
  dO : Desc
  stats : Desc
  dQ : Desc
  dK : Desc
  dV : Desc
  dBias : Option Desc
deriving DecidableEq, Repr

/-- The pairs of a (row, KV head) whose tile runs: (head, query, key). -/
def State.bwdPairs (s : State) (a : Attn) (r : LenRow) (hk : Nat) : List (Nat × Nat × Nat) :=
  (pieces 128 (a.qRows r hk)).flatMap fun q => (pieces 128 (List.range r.kvLen)).flatMap fun k =>
    if s.tileSkips a r q k then [] else q.flatMap fun e => k.map fun j => (e.1, e.2, j)

/-- The sum of FP32 terms in completion order: exact where 32 bits hold it, else free within R296. -/
def sumTerms (l : List FVal) (free : Rat) : FVal := (accumulate (rowBlocks l) free).f32

/-- D of a query row. -/
def State.bwdD (s : State) (b : Bwd) (ctr h i : Nat) : FVal :=
  sumTerms ((List.range b.a.d).map fun e => ((s.val b.dO [e, i, h]).mul (s.val b.o [e, i, h])).f32) (Config.freeAt ctr (h * 65536 + i))

/-- P and dS of a pair; zero for a row without a key or a masked score. -/
def State.bwdPair (s : State) (b : Bwd) (ctr : Nat) (r : LenRow) (h i j : Nat) : FVal × FVal :=
  let t := r.qOff + i
  let m := s.val b.stats [t, h, 0]
  let lse := s.val b.stats [t, h, 1]
  let x := s.score b.a ctr r h i j
  if m = .inf true ∨ x = .inf true then (.fin false 0, .fin false 0)
  else
    let k := (h * 65536 + i) * 2097152 + j
    let p := ((expDiff x m (FVal.ofRat (Config.freeAt (ctr + 1) k))).mul (expDiff m lse (FVal.ofRat (Config.freeAt (ctr + 2) k)))).f32
    let dp := sumTerms ((List.range b.a.d).map fun e => ((s.val b.dO [e, t, h]).mul (s.kvVal b.a r 1 (h / b.a.g) j e)).f32) (Config.freeAt (ctr + 3) k)
    (p, (p.mul ((dp.add (s.bwdD b ctr h t).neg).f32)).f32)

/-- ATTN_BWD over its (row, KV head) pairs. The bias gradient is added to what its tensor holds. -/
def State.attnBwd (s : State) (b : Bwd) (ctr : Nat) (units : List (Nat × Nat)) : Kernel :=
  let a := b.a
  let all := units.map fun u =>
    let r := a.rows.getD u.1 ⟨0, 0, 0, 0, 0, 0⟩
    (r, u.2, (s.bwdPairs a r u.2).map fun (e : Nat × Nat × Nat) => (e, s.bwdPair b ctr r e.1 e.2.1 e.2.2))
  let free := fun (k : Nat) => Config.freeAt (ctr + 4) k
  let dq := all.flatMap fun u => (a.qRows u.1 u.2.1).map fun (e : Nat × Nat) =>
    (b.dQ.rowAt [u.1.qOff + e.2, e.1], a.outFmt, convRow a.rnd a.outFmt ctr ((e.1 * 65536 + e.2) * 256) ((List.range a.d).map fun x =>
      sumTerms ((u.2.2.filter fun p => p.1.1 == e.1 && p.1.2.1 == e.2).map fun p =>
        ((a.scale.mul p.2.2).f32.mul (s.kvVal a u.1 0 u.2.1 p.1.2.2 x)).f32) (free ((e.1 * 65536 + e.2) * 256 + x))))
  let keys := (all.flatMap fun u => (List.range u.1.kvLen).map fun j => (u.2.1, u.1.kvOff + j)).eraseDups
  let dkv := keys.flatMap fun (key : Nat × Nat) =>
    let hk := key.1
    let on := all.flatMap fun u => if u.2.1 = hk then (u.2.2.filter fun p => u.1.kvOff + p.1.2.2 == key.2).map fun p => (u.1.qOff + p.1.2.1, p) else []
    let i := (hk * 2097152 + key.2) * 256
    let dk := (List.range a.d).map fun x => sumTerms (on.map fun p => ((a.scale.mul p.2.2.2).f32.mul (s.val a.q [x, p.1, p.2.1.1])).f32) (free (16777216 + i + x))
    let dv := (List.range a.d).map fun x => sumTerms (on.map fun p => (p.2.2.1.mul (s.val b.dO [x, p.1, p.2.1.1])).f32) (free (33554432 + i + x))
    [(b.dK.rowAt [key.2, hk], a.outFmt, convRow a.rnd a.outFmt ctr (16777216 + i) dk),
     (b.dV.rowAt [key.2, hk], a.outFmt, convRow a.rnd a.outFmt ctr (33554432 + i) dv)]
  let db := match b.dBias with
    | none => []
    | some d =>
      let terms := all.flatMap fun u => u.2.2.map fun p => ((a.brow p.1.1, u.1.bucket p.1.2.1 p.1.2.2), p.2.2)
      let keys := (terms.map (·.1)).eraseDups
      keys.map fun k =>
        let sum := sumTerms ((terms.filter fun t => t.1 == k).map (·.2)) (Config.freeAt (ctr + 5) (k.1 * 1024 + k.2))
        (d.rowAt [k.1] + 4 * k.2, 0, [fmtEnc 0 true none ((s.val d [k.2, k.1]).add sum)])
  ({ rows := dq ++ dkv ++ db, visited := (all.map fun u => u.2.2.length).sum } : Kernel).count

end Sys2Proof.Machine
end

