-- ==== Sys2Proof/Machine/Island.lean ====
section
/-! DEFINITION. What the Safety and Security Island decides for every family: the causes of SAFE_FAULT_N, the checker cores, the
triggers, modes and setpoints of the reflex lane (R412 to R414, R440). -/
namespace Sys2Proof.Machine

def State.setSsi (s : State) (f : Ssi → Ssi) : State := { s with ssi := f s.ssi }
def State.setRfx (s : State) (f : Rfx → Rfx) : State := s.setSsi fun x => { x with rfx := f x.rfx }

/-! SAFE_FAULT_N, R421, R440, R445 -/

/-- A safety configuration has been accepted, R427. -/
def State.configured (s : State) : Bool := bit (s.reg .ssiSafeStat) 31

/-- SSI_SAFE_STAT shows the pin and its lowest cause. -/
def State.showCauses (s : State) : State :=
  (s.setFldOf .ssiSafeStat 30 1 (if s.ssi.causes.isEmpty then 0 else 1)).setFldOf .ssiSafeStat 0 4
    (s.ssi.causes.foldl (fun (m : Nat) c => if m = 0 ∨ c < m then c else m) 0)

/-- A cause of SAFE_FAULT_N begins. -/
def State.addCause (s : State) (k : Nat) : State :=
  if s.ssi.causes.contains k then s
  else (s.setSsi fun x => { x with causes := x.causes ++ [k] }).showCauses.raise 0x080D 0 (evData [k])

/-- A cause ends; the pin is released with the last one. -/
def State.dropCause (s : State) (k : Nat) : State :=
  (s.setSsi fun x => { x with causes := x.causes.filter fun c => c != k }).showCauses

/-! Cores, R286, R287 -/

/-- The role of a physical core. -/
def State.coreRole (s : State) (p : Nat) : Nat := s.fldOf .tarRoles (2 * p) 2

/-- The physical core of a logical core; none where the number maps to none. -/
def State.physOf (s : State) (l : Nat) : Option Nat :=
  let p := s.fldOf .tarLmap (4 * l) 4
  if l < 14 ∧ p < 14 then some p else none

/-- The logical number of a physical core. -/
def State.logicalOf (s : State) (p : Nat) : Option Nat := (List.range 14).find? fun l => s.physOf l == some p

/-- The CHECKER cores, the lower-numbered first. -/
def State.checkers (s : State) : List Nat := (List.range 14).filter fun p => s.coreRole p == 1

/-- The Island's registers follow the roles: checkers, unchecked, the cores of the slots (R436, R444, R445). -/
def State.syncCheckers (s : State) : State :=
  let l := s.checkers
  let s := if s.configured then s.setFldOf .ssiSafeStat 28 2 (Nat.min 2 l.length) else s
  (s.setFldOf (.ssiStarterCore 0) 0 4 (l.getD 0 0xF)).setFldOf (.ssiStarterCore 1) 0 4 (l.getD 1 0xF)

/-- The last CHECKER core is lost, R434. -/
def State.checkerLost (s : State) : State :=
  let s := s.syncCheckers
  if s.checkers.isEmpty then ((s.setFldOf .ssiSafeStat 27 1 1).raise 0x0809 0).addCause 4 else s

/-! Window overruns, R120 -/

/-- The windows of a partition on a core, in ns. -/
def State.windowsOf (s : State) (p l : Nat) : List Nat :=
  match s.ccx.win with
  | none => []
  | some w => (w.wins.filter fun x => x.mask.testBit l && x.part == p).map fun x => x.len * 1000

def State.inSchedule (s : State) (l : Nat) : Bool :=
  match s.ccx.win with
  | none => false
  | some w => w.wins.any fun x => x.mask.testBit l

/-- Time that a descriptor ran past its window's end, R120: charged to the core, told above 20 µs, and taken from the partition's next
window there; the window lasts until the descriptor ends. -/
def State.chargeOverrun (s : State) (l part : Nat) : State :=
  let w := sget {} s.ccx.winCore l
  if s.inSchedule l ∧ w.open_ = some part ∧ w.closes < s.now then
    let n := s.now - w.closes
    let p := (s.physOf l).getD 0
    let old := ((w.shorten.find? fun e => e.1 == part).map (·.2)).getD 0
    let w := { w with closes := s.now, shorten := (w.shorten.filter fun e => e.1 != part) ++ [(part, old + n)] }
    let s := ({ s with ccx := { s.ccx with winCore := sset {} s.ccx.winCore l w } }).addSat (.tarWinOverrunNs p) 0 64 n
    if 20000 < n then s.raise 0x0113 part (evData [p, part, n]) else s
  else s

/-- A descriptor that has started and has not run ends, for whatever cause, R120. -/
def State.chargeJob (s : State) (j : TJob) : State := if j.started && !j.ran then s.chargeOverrun j.core j.part else s

/-- The started descriptors of the commands that p names end. -/
def State.chargeJobs (s : State) (p : TJob → Bool) : State := (s.tar.jobs.filter p).foldl State.chargeJob s

/-! The reflex lane, R412, R413 -/

def State.lane (s : State) : Nat := s.fldOf .ssiRfxStat 16 3
def State.triggers (s : State) : Nat := s.fldOf .ssiRfxStat 8 6

/-- Linear interpolation between two rows. -/
def interp (a b : List W32) (f : Rat) : List Rat := List.zipWith (fun (x y : W32) => f32Rat x + (f32Rat y - f32Rat x) * f) a b

/-- The setpoint of a trajectory at an instant: before its first point the first, after its last the last. -/
def Traj.at (t : Traj) (x : Rat) : List Rat :=
  let u := (x - (t.start : Rat)) / (t.dtNs : Rat)
  if u ≤ 0 then (t.points.headD []).map f32Rat
  else
    let i := u.floor.toNat
    if t.points.length ≤ i + 1 then (t.points.getLastD []).map f32Rat
    else interp (t.points.getD i []) (t.points.getD (i + 1) []) (u - (i : Rat))

/-- The instant of a trajectory that STOP has reached: progress falls linearly from 1 to 0 over the stop time, R414. -/
def Rfx.stopAt (r : Rfx) (now : Nat) : Rat :=
  let e := Nat.min (now - r.from_) r.stopT
  (r.from_ : Rat) + (if r.stopT = 0 then 0 else (e : Rat) - (e : Rat) * (e : Rat) / (2 * (r.stopT : Rat)))

/-- The setpoints of the motion loop now, R412; none in FAULT. -/
def State.setpoint (s : State) : List Rat :=
  let r := s.ssi.rfx
  match s.lane, r.traj with
  | 1, some t => t.at (s.now : Rat)
  | 3, some t => t.at (r.stopAt s.now)
  | 4, _ => []
  | _, _ => r.base

/-- The stop time of R414 from the newest mirrored stop record: its v / decel is 2 × stop_dist / v. -/
def State.stopTime (s : State) : Nat :=
  let r := s.ssi.rfx
  match r.motion with
  | none => 0
  | some m =>
    let b := r.mirror
    if b.isEmpty then m.stopNs
    else if (numAt b 6 2).testBit 0 then m.stopHardNs
    else
      let v := f32Rat (f32At b 0x30)
      let t := if v ≤ 0 then 0 else (2 * f32Rat (f32At b 0x34) / v * 1000000000).floor.toNat
      match r.traj with
      | some x => if x.swap < numAt b 0x10 8 ∧ t < m.stopNs then t else m.stopNs
      | none => m.stopNs

/-- The lane enters a mode: a hold keeps the present setpoint, a stop replays from now. -/
def State.toLane (s : State) (mode : Nat) : State :=
  let sp := s.setpoint
  let t := s.stopTime
  let s := s.setFldOf .ssiRfxStat 16 3 mode
  if mode = 2 then s.setRfx fun r => { r with base := sp }
  else if mode = 3 then s.setRfx fun r => { r with from_ := s.now, stopT := t }
  else s

/-- Offers that wait for their swap end FAILED when a trigger is latched first, chapter 15. -/
def State.failOffers (s : State) : State :=
  let l := s.ssi.rfx.offers
  l.foldl (fun s o =>
    if s.isRunning o.1 then
      ((s.failCmd o.1 stPartState).countSat .ssiRfxRefused 0 32).raiseLim 0x0842 0 0 (evData [stPartState, 0xFFFFFFFF, 0])
    else s) (s.setRfx fun r => { r with offers := [] })

/-- Trigger i is raised, for the mode that it asks for: TRACK leaves for it, HOLD leaves for STOP; IDLE, STOP and FAULT stay. -/
def State.trigger (s : State) (i mode : Nat) : State :=
  if s.lane = 4 then s
  else
    let old := s.lane
    let s := s.setFldOf .ssiRfxStat (8 + i) 1 1
    let s := if old = 1 ∨ (old = 2 ∧ mode = 3) then s.toLane mode else s
    (s.raise 0x0840 0 (evData [old, s.lane, s.triggers])).failOffers

def State.clearTrigger (s : State) (i : Nat) : State := s.setFldOf .ssiRfxStat (8 + i) 1 0

/-- fb_mode, R413; STOP by default. -/
def State.fbMode (s : State) : Nat := match s.ssi.rfx.motion with | some m => m.fbMode | none => 3

/-- Whether p is the motion partition. -/
def State.isMotion (s : State) (p : Nat) : Bool := match s.ssi.rfx.motion with | some m => m.part == p | none => false

end Sys2Proof.Machine
end

