-- ==== Sys2Proof/Machine/Plan.lean ====
section
/-! DEFINITION. What the Tensor Array reads and checks when a core descriptor becomes RUNNING: R287, R289, R293 to R295, R304 to R309,
R344 to R352, R354, R428, R429. -/
namespace Sys2Proof.Machine

/-! Cores and windows, R120, R287, R304 -/

/-- Whether the schedule in force lets a partition run on a logical core. -/
def State.windowsAllow (s : State) (p l : Nat) : Bool :=
  match s.ccx.win with
  | none => true
  | some w =>
    let on := w.wins.filter fun x => x.mask.testBit l
    on.isEmpty || on.any fun x => x.part == p

/-- The physical core of a logical core that runs descriptors: it maps to one, and that is ACTIVE. -/
def State.runsOn (s : State) (l : Nat) : Bool :=
  match s.physOf l with
  | some p => s.coreRole p == 0
  | none => false

/-- The descriptors queued on a core. -/
def State.queued (s : State) (l : Nat) : List TJob := s.tar.jobs.filter fun j => j.core == l && !j.started

/-- The ACTIVE cores that Bivexa may choose for a partition. -/
def State.choices (s : State) (p : Nat) : List Nat :=
  (List.range 14).filter fun l => s.runsOn l && s.windowsAllow p l && !(s.funcOff 1 l)

/-- The core with the shortest queue among the choices. -/
def State.chooseCore (s : State) (p : Nat) : Option Nat :=
  (s.choices p).foldl (fun (b : Option Nat) l => match b with
    | none => some l
    | some m => if (s.queued l).length < (s.queued m).length then some l else b) none

/-- The core a descriptor runs on, or the status that it fails with. -/
def State.coreOf (s : State) (p : Nat) (raw : Bytes) : Except Nat Nat :=
  let l := numAt raw 2 1
  if l = 0xFF then
    match s.chooseCore p with
    | some c => .ok c
    | none => .error (if (List.range 14).any fun l => s.runsOn l && s.windowsAllow p l then 0x18 else stNotPermitted)
  else if !(s.runsOn l) then .error stNotPermitted
  else if s.funcOff 1 l then .error 0x18
  else .ok l

/-! Formats and shapes -/

def fp8 (f : Nat) : Bool := f == 3 || f == 4
def fpSmall (f : Nat) : Bool := f == 5 || f == 6 || f == 7

/-- Pairs per cell handshake of R294, in halves; 0 for a pairing that is not accepted. -/
def pairRate (a b : Nat) : Nat :=
  if (a = 1 ∧ b = 1) ∨ (a = 2 ∧ b = 2) then 1
  else if fp8 a && (fp8 b || fpSmall b) then 2
  else if fpSmall a && fp8 b then 2
  else if fpSmall a && fpSmall b then 4
  else if a = 8 ∧ (b = 8 ∨ b = 9) then 2
  else if a = 9 ∧ b = 8 then 2
  else if a = 9 ∧ b = 9 then 4
  else 0

/-- The formats that the MXE's writeback gives, R305. -/
def outOf (f : Nat) : Bool := decide (f ≤ 4)

/-- Whether a tensor has a shape, innermost extent first. -/
def Desc.hasShape (d : Desc) (l : List Nat) : Bool := (List.range 6).all fun i => d.ext i == l.getD i 1

/-- The first status that applies, in order. -/
def firstOf (l : List (Bool × Nat)) : Option Nat := (l.find? fun e => e.1).map (·.2)

/-- The tensor that a descriptor names at an offset. -/
def tdesc (ds : List (Nat × Desc)) (o : Nat) : Option Desc := (ds.find? fun e => e.1 == o).map (·.2)
def tdescD (ds : List (Nat × Desc)) (o : Nat) : Desc := (tdesc ds o).getD ⟨0, 0, 0, 0, 0, false, [], [], {}⟩

/-- Reads the descriptors at the given offsets of a list of addresses; an optional one of address 0 is left out. -/
def State.readDescs (s : State) (c : Cmd) (addr : Nat → Nat) : List (Nat × Bool) → Except Nat (List (Nat × Desc))
  | [] => .ok []
  | (o, opt) :: r =>
    if opt ∧ addr o = 0 then s.readDescs c addr r
    else match s.readDesc c (addr o) with
      | .error e => .error e
      | .ok d => match s.readDescs c addr r with
        | .error e => .error e
        | .ok l => .ok ((o, d) :: l)

/-- A float field of a descriptor. -/
def rawF (raw : Bytes) (o : Nat) : FVal := f32Val (f32At raw o)

def isZero : FVal → Bool
  | .fin _ q => q == 0
  | _ => false

/-- FP32 with 0 taken as a default. -/
def orElse (v d : FVal) : FVal := if isZero v then d else v

def one : FVal := .fin false 1

def rawRound (raw : Bytes) : Round := { sr := (numAt raw 1 1).testBit 0, infOk := (numAt raw 1 1).testBit 1 }

/-! MATMUL, R305 -/

/-- An operand as its tensor shape shows it: k innermost where it can be (log entry 60). -/
def operandOf (d : Desc) (sc : Option Desc) (rows k batch : Nat) : Option Operand :=
  if d.hasShape [k, rows, batch] then some ⟨d, sc, true⟩
  else if d.hasShape [rows, k, batch] then some ⟨d, sc, false⟩
  else none

def mmOf (raw : Bytes) (ds : List (Nat × Desc)) : Mm :=
  let n := fun o => numAt raw o 4
  let op := fun (o so rows : Nat) => (operandOf (tdescD ds o) (tdesc ds so) rows (n 0x18) (n 0x1C)).getD ⟨tdescD ds o, none, true⟩
  { m := n 0x10, n := n 0x14, k := n 0x18, batch := n 0x1C
    a := op 0x20 0x28 (n 0x10), b := op 0x30 0x38 (n 0x14), c := tdescD ds 0x40, bias := tdesc ds 0x48
    alpha := orElse (rawF raw 0x50) one, sfmt := numAt raw 0x56 1, blk := numAt raw 0x57 1, epi := numAt raw 0x58 1
    accum := (numAt raw 1 1).testBit 2, outFmt := numAt raw 3 1, rnd := rawRound raw }

/-- A scale array, R293. -/
def scaleOk (sfmt blk : Nat) (d : Desc) (rows k batch : Nat) : Bool :=
  d.hasShape [ceilDiv k blk, rows, batch] && d.fmt == (if sfmt = 0 then 10 else 3)

def mmErr (raw : Bytes) (ds : List (Nat × Desc)) : Option Nat :=
  let n := fun o => numAt raw o 4
  let m := n 0x10
  let nn := n 0x14
  let k := n 0x18
  let bt := n 0x1C
  let af := numAt raw 0x54 1
  let bf := numAt raw 0x55 1
  let sf := numAt raw 0x56 1
  let blk := numAt raw 0x57 1
  let sa := tdesc ds 0x28
  let sb := tdesc ds 0x38
  let a := operandOf (tdescD ds 0x20) sa m k bt
  let b := operandOf (tdescD ds 0x30) sb nn k bt
  let kOut := fun (o : Option Operand) (f : Nat) => match o with
    | some x => !x.kIn && (x.scale.isSome || fmtPacked f)
    | none => false
  let scaled := sa.isSome || sb.isSome
  let bad := fun (sc : Option Desc) (rows : Nat) => match sc with
    | some d => !(scaleOk sf blk d rows k bt)
    | none => false
  let bias := tdesc ds 0x48
  firstOf [
    (!(decide (1 ≤ m ∧ m ≤ 1048576 ∧ 1 ≤ nn ∧ nn ≤ 1048576 ∧ 1 ≤ k ∧ k ≤ 1048576 ∧ 1 ≤ bt ∧ bt ≤ 65536)), stBadParam),
    (decide (3 < numAt raw 0x58 1 ∨ numAt raw 0x59 39 ≠ 0) || (scaled && decide (1 < sf ∨ (blk ≠ 16 ∧ blk ≠ 32))), stBadParam),
    (pairRate af bf == 0 || !(outOf (numAt raw 3 1)), stFormat),
    ((sa.isSome && decide (8 < fmtBits af)) || (sb.isSome && decide (8 < fmtBits bf)), stFormat),
    ((match bias with | some d => decide (1 < d.fmt) | none => false), stFormat),
    ((tdescD ds 0x20).fmt != af || (tdescD ds 0x30).fmt != bf || (tdescD ds 0x40).fmt != numAt raw 3 1, stBadParam),
    (a.isNone || b.isNone || !((tdescD ds 0x40).hasShape [nn, m, bt]) || (match bias with | some d => !(d.hasShape [nn]) | none => false), stBadParam),
    (kOut a af || kOut b bf, stFormat),
    (bad sa m || bad sb nn, stBadParam)]

/-! VECTOR, R306, R307 -/

def vopPair (v : Nat) : Bool := decide (1 ≤ v ∧ v ≤ 4 ∧ v ≠ 2) || v == 2
def vopRow (v : Nat) : Bool := v == 7 || v == 8 || v == 9

def vecOf (raw : Bytes) (ds : List (Nat × Desc)) : Vec :=
  { vop := numAt raw 0x10 1, rows := numAt raw 0x18 4, len := numAt raw 0x14 4, imm := rawF raw 0x1C, x := tdescD ds 0x20, y := tdesc ds 0x28
    out := tdescD ds 0x30, scale := tdesc ds 0x38, sfmt := numAt raw 0x40 1, blk := numAt raw 0x41 1, outFmt := numAt raw 3 1, rnd := rawRound raw }

def vecErr (raw : Bytes) (ds : List (Nat × Desc)) : Option Nat :=
  let v := vecOf raw ds
  let inF := numAt raw 0x11 1
  let outRow := if vopRow v.vop then [1, v.rows] else [v.len, v.rows]
  firstOf [
    (!(decide (1 ≤ v.vop ∧ v.vop ≤ 13 ∧ 1 ≤ v.len ∧ v.len ≤ 1048576 ∧ 1 ≤ v.rows ∧ v.rows ≤ 16777216)), stBadParam),
    (decide (numAt raw 0x12 2 ≠ 0 ∨ numAt raw 0x42 62 ≠ 0), stBadParam),
    (vopPair v.vop != v.y.isSome || (v.vop == 13) != v.scale.isSome, stBadParam),
    (v.vop == 13 && decide (1 < v.sfmt ∨ (v.blk ≠ 16 ∧ v.blk ≠ 32)), stBadParam),
    (decide (4 < inF), stFormat),
    (if v.vop = 12 then decide (9 < v.outFmt) else if v.vop = 13 then !(decide (3 ≤ v.outFmt ∧ v.outFmt ≤ 9))
      else if vopRow v.vop then v.outFmt != 0 else decide (4 < v.outFmt), stFormat),
    (v.x.fmt != inF || v.out.fmt != v.outFmt || (match v.y with | some d => d.fmt != inF | none => false), stBadParam),
    (!(v.x.hasShape [v.len, v.rows]) || !(v.out.hasShape outRow) ||
      (match v.y with | some d => !(d.hasShape [v.len, v.rows] || d.hasShape [v.len, 1]) | none => false), stBadParam),
    ((match v.scale with | some d => !(scaleOk v.sfmt v.blk d v.rows v.len 1) | none => false), stBadParam)]

/-- The exception of R309: an element-wise vop may write over an operand of the same place, layout and format. -/
def vecInPlace (raw : Bytes) (x out : Desc) : Bool :=
  let v := numAt raw 0x10 1
  (decide (1 ≤ v ∧ v ≤ 6) || v == 12) && x.base == out.base && x.fmt == out.fmt &&
  (List.range 6).all (fun i => x.ext i == out.ext i) && x.outer.all fun i => x.ext i == 1 || x.stride i == out.stride i

/-! SPCONV, R236, R238, R308 -/

structure SpSlot where
  kind : Nat
  kern : Nat
  status : Nat
  nIn : Nat
  nOut : Nat
  nPairs : Nat
  dir : Nat
  pairs : Nat
deriving DecidableEq, Repr

/-- What a slot says of a spec: an UP takes the kernel of its DOWN. -/
def State.spSlot (s : State) (a spec : Nat) : SpSlot :=
  let e := fun (i : Nat) => s.rd (a + 0x100 + 32 * i) 32
  let b := e spec
  let kind := numAt b 0 1
  let sites := fun (k : Nat) =>
    if k = 0 then s.rdNum (a + 0x18) 4
    else match (List.range 16).find? fun i => decide (i < s.rdNum (a + 0x4C) 1 ∧ numAt (e i) 0 1 = 1 ∧ numAt (e i) 2 1 = k - 1) with
      | some i => numAt (e i) 8 4
      | none => 0
  { kind := kind, kern := if kind = 2 then numAt (e (numAt b 3 1)) 1 1 else numAt b 1 1, status := numAt b 4 1, nIn := sites (numAt b 2 1)
    nOut := numAt b 8 4, nPairs := numAt b 0xC 4, dir := a + numAt b 0x10 4, pairs := a + numAt b 0x14 4 }

def State.spOf (s : State) (raw : Bytes) (ds : List (Nat × Desc)) : Sp :=
  let a := numAt raw 0x10 8
  let x := s.spSlot a (numAt raw 0x20 1)
  { spec := numAt raw 0x20 1, cin := numAt raw 0x24 2, cout := numAt raw 0x26 2, kern := x.kern, kind := x.kind, nOut := x.nOut
    dir := (List.range (x.kern ^ 3)).map fun i => (s.rdNum (x.dir + 8 * i) 4, s.rdNum (x.dir + 8 * i + 4) 4)
    pairs := (List.range x.nPairs).map fun i => (s.rdNum (x.pairs + 8 * i) 4, s.rdNum (x.pairs + 8 * i + 4) 4)
    x := tdescD ds 0x28, w := tdescD ds 0x30, out := tdescD ds 0x38, bias := tdesc ds 0x40, epi := numAt raw 0x23 1, outFmt := numAt raw 3 1
    rnd := rawRound raw }

def State.spErr (s : State) (c : Cmd) (raw : Bytes) (ds : List (Nat × Desc)) : Option Nat :=
  let a := numAt raw 0x10 8
  let cin := numAt raw 0x24 2
  let cout := numAt raw 0x26 2
  let chOk := fun (n : Nat) => decide (16 ≤ n ∧ n ≤ 1024 ∧ n % 16 = 0)
  let inF := numAt raw 0x21 1
  let x := s.spSlot a (numAt raw 0x20 1)
  let d := tdescD ds 0x28
  match s.access (.part c.part) .tensor false a 0x400 with
  | some st => some st
  | none => firstOf [
    (decide (15 < numAt raw 0x20 1 ∨ 3 < numAt raw 0x23 1 ∨ numAt raw 0x48 56 ≠ 0) || !(chOk cin) || !(chOk cout), stBadParam),
    (!(inF == 1 || fp8 inF) || pairRate inF (numAt raw 0x22 1) == 0 || !(outOf (numAt raw 3 1)), stFormat),
    ((match tdesc ds 0x40 with | some b => b.fmt != 0 | none => false), stFormat),
    (s.rdNum a 4 != 0x43485653 || s.rdNum (a + 8) 8 != numAt raw 0x18 8 || decide (s.rdNum (a + 0x4C) 1 ≤ numAt raw 0x20 1), stBadParam),
    (x.status != 0, 0x53),
    (d.fmt != inF || (tdescD ds 0x30).fmt != numAt raw 0x22 1 || (tdescD ds 0x38).fmt != numAt raw 3 1, stBadParam),
    (decide (d.ext 0 < cin ∨ d.ext 1 ≠ x.nIn) || !((tdescD ds 0x30).hasShape [cin, cout, x.kern ^ 3]) || !((tdescD ds 0x38).hasShape [cout, x.nOut]) ||
      (match tdesc ds 0x40 with | some b => !(b.hasShape [cout]) | none => false), stBadParam)]

/-! Attention, R343 to R352. The tensors of ATTN_BWD stand at offsets 0x100 + 8i by their place in the operand list. -/

/-- Where the tensors of an attention descriptor stand: Q, K, V, bias, lengths. -/
def attnOffs (raw : Bytes) : Nat × Nat × Nat × Nat × Nat :=
  if numAt raw 0 1 = 4 then (0x10, 0x18, 0x20, 0x38, 0x40) else (0x100, 0x108, 0x110, 0x130, 0x138)

/-- The scale 1 / sqrt(d) of a descriptor that gives 0; inexact roots are free (log entry 18). -/
def rootScale (d : Nat) : FVal := .fin false (f32Rat (f32Of (1 / sqrtRat (d : Rat))))

def State.attnOf (s : State) (raw : Bytes) (ds : List (Nat × Desc)) (ctr : Nat) : Attn :=
  let o := attnOffs raw
  let n := numAt raw 0x48 4
  let pool := numAt raw 0x65 1
  { rows := (List.range n).map fun r => s.lenRow (tdescD ds o.2.2.2.2) r
    hq := numAt raw 0x4C 2, hkv := numAt raw 0x4E 2, d := numAt raw 0x50 2, bgroup := numAt raw 0x52 2, headBase := numAt raw 0x54 2
    scale := orElse (rawF raw 0x58) (rootScale (numAt raw 0x50 2)), kScale := orElse (rawF raw 0x5C) one, vScale := orElse (rawF raw 0x60) one
    paged := numAt raw 0x64 1 == 1, pool := pool
    layer := (match s.kvPool? pool with | some k => (Config.freeWord ctr).toNat % Nat.max 1 k.layers | none => 0)
    wide := decide (numAt raw 0x57 1 ≤ 2), outFmt := numAt raw 3 1, rnd := rawRound raw
    q := tdescD ds o.1, k := tdescD ds o.2.1, v := tdescD ds o.2.2.1, bias := tdesc ds o.2.2.2.1 }

def bwdOf (a : Attn) (ds : List (Nat × Desc)) : Bwd :=
  { a := a, o := tdescD ds 0x118, dO := tdescD ds 0x120, stats := tdescD ds 0x128, dQ := tdescD ds 0x140, dK := tdescD ds 0x148, dV := tdescD ds 0x150
    dBias := tdesc ds 0x158 }

/-- Whether the query rows of two entries overlap. -/
def rowsMeet : List LenRow → Bool
  | [] => false
  | r :: l => l.any (fun x => r.qLen != 0 && x.qLen != 0 && meets r.qOff r.qLen x.qOff x.qLen) || rowsMeet l

/-- The lengths table breaks R345, or names a row beyond a tensor. -/
def State.lengthsBad (s : State) (a : Attn) : Bool :=
  (a.rows.any fun r => r.qLen != 0 &&
    (decide (65536 < r.qLen ∨ r.kvLen = 0 ∨ 2097152 < r.kvLen ∨ r.kvLen < r.qLen ∨ a.q.ext 1 < r.qOff + r.qLen) ||
     (if a.paged then
       (match s.kvSeq? r.seq with
        | some x => decide (x.len < r.kvLen - r.qLen ∨ a.k.ext 1 < r.kvOff + r.qLen ∨ a.v.ext 1 < r.kvOff + r.qLen) || x.pool != a.pool
        | none => true)
      else decide (a.k.ext 1 < r.kvOff + r.kvLen ∨ a.v.ext 1 < r.kvOff + r.kvLen)))) || rowsMeet a.rows

/-- The checks that both attention descriptors share. -/
def State.attnErr (s : State) (c : Cmd) (raw : Bytes) (ds : List (Nat × Desc)) (chain : Bool) : Option Nat :=
  let a := s.attnOf raw ds 0
  let n := numAt raw 0x48 4
  let qf := numAt raw 0x56 1
  let kf := numAt raw 0x57 1
  let fwd := numAt raw 0 1 == 4
  let fam := (qf == 1 && kf == 1) || (qf == 2 && kf == 2) || (fp8 qf && fp8 kf)
  let lens := tdescD ds (attnOffs raw).2.2.2.2
  let brows := (List.range a.hq).map a.brow
  firstOf [
    (s.kvRole == 3, stNotPermitted),
    ((numAt raw 1 1).testBit 2 || decide (n = 0 ∨ 4096 < n ∨ a.hq = 0 ∨ 256 < a.hq ∨ a.hkv = 0 ∨ a.hq % Nat.max 1 a.hkv ≠ 0), stBadParam),
    (!(decide (16 ≤ a.d ∧ a.d ≤ 256 ∧ a.d % 16 = 0 ∧ 1 ≤ a.bgroup ∧ a.bgroup ≤ 256 ∧ numAt raw 0x64 1 ≤ 1)), stBadParam),
    (a.paged && (chain || decide (7 < a.pool)), stBadParam),
    (a.paged && (!s.kvOn || s.kvOwner != c.part), stNotPermitted),
    (decide (2 < numAt raw 3 1) || !fam, stFormat),
    (a.q.fmt != qf || a.k.fmt != kf || a.v.fmt != kf || lens.fmt != 11 || (match a.bias with | some d => d.fmt != 0 | none => false), stBadParam),
    (a.paged && (match s.kvPool? a.pool with | some k => k.d != a.d || k.heads != a.hkv | none => true), stBadParam),
    (a.paged && (match s.kvPool? a.pool with | some k => k.fmt != kf | none => true), stFormat),
    (decide (a.q.ext 0 ≠ a.d ∨ a.q.ext 2 ≠ a.hq ∨ a.k.ext 0 ≠ a.d ∨ a.k.ext 2 ≠ a.hkv ∨ a.v.ext 0 ≠ a.d ∨ a.v.ext 2 ≠ a.hkv ∨
      3 < a.q.rank ∨ 3 < a.k.rank ∨ 3 < a.v.rank ∨ lens.ext 0 ≠ 8 ∨ lens.ext 1 ≠ n ∨ 2 < lens.rank), stBadParam),
    ((match a.bias with | some d => d.ext 0 != 1024 || brows.any fun b => decide (d.ext 1 ≤ b) | none => false), stBadParam),
    (a.paged && a.rows.any fun r => r.qLen != 0 && (match s.kvSeq? r.seq with | some x => x.broken | none => false), 0x25),
    (s.lengthsBad a, stBadParam),
    (if fwd then numAt raw 0x66 26 != 0 else (numAt raw 0x18 48 != 0 || numAt raw 0x65 27 != 0), stBadParam)]

def State.fwdErr (s : State) (c : Cmd) (raw : Bytes) (ds : List (Nat × Desc)) (chain : Bool) : Option Nat :=
  match s.attnErr c raw ds chain with
  | some e => some e
  | none =>
    let a := s.attnOf raw ds 0
    let o := tdescD ds 0x28
    firstOf [
      (o.fmt != numAt raw 3 1 || (match tdesc ds 0x30 with | some d => d.fmt != 0 | none => false), stBadParam),
      (!(o.hasShape [a.d, a.q.ext 1, a.hq]) || (match tdesc ds 0x30 with | some d => !(d.hasShape [a.q.ext 1, a.hq, 2]) | none => false), stBadParam)]

def State.bwdErr (s : State) (c : Cmd) (raw : Bytes) (ds : List (Nat × Desc)) (chain : Bool) : Option Nat :=
  let qf := numAt raw 0x56 1
  let isOne := fun (v : FVal) => isZero v || v == one
  if numAt raw 0x64 1 ≠ 0 ∨ ¬(qf = 1 ∨ qf = 2) then some stFormat
  else if !(isOne (rawF raw 0x5C)) || !(isOne (rawF raw 0x60)) then some stBadParam
  else match s.attnErr c raw ds chain with
    | some e => some e
    | none =>
      let a := s.attnOf raw ds 0
      let b := bwdOf a ds
      let like := fun (x y : Desc) => (List.range 6).all fun i => x.ext i == y.ext i
      let f := numAt raw 3 1
      firstOf [
        (!b.stats.mark, stBadParam),
        (b.o.fmt != qf || b.dO.fmt != qf || b.stats.fmt != 0 || b.dQ.fmt != f || b.dK.fmt != f || b.dV.fmt != f ||
          (match b.dBias with | some d => d.fmt != 0 | none => false), stBadParam),
        (!(like b.o a.q) || !(like b.dO a.q) || !(like b.dQ a.q) || !(like b.dK a.k) || !(like b.dV a.v) || !(b.stats.hasShape [a.q.ext 1, a.hq, 2]) ||
          (match b.dBias with | some d => d.ext 0 != 1024 || (List.range a.hq).any fun h => decide (d.ext 1 ≤ a.brow h) | none => false), stBadParam)]

/-! The whole check of a core descriptor -/

/-- A core descriptor that may run: its tensors, its output offsets and its input tags. -/
structure Plan where
  core : Nat
  ds : List (Nat × Desc)
  outs : List Nat
  tags : List Tag
  set : Nat
  band : Nat
  slot : Option Nat
  truncated : Bool
deriving DecidableEq, Repr

/-- Descriptor offsets of an operation, and whether each may be 0. -/
def opDescs (op : Nat) : List (Nat × Bool) :=
  match op with
  | 1 => [(0x20, false), (0x28, true), (0x30, false), (0x38, true), (0x40, false), (0x48, true)]
  | 2 => [(0x20, false), (0x28, true), (0x30, false), (0x38, true)]
  | 3 => [(0x28, false), (0x30, false), (0x38, false), (0x40, true)]
  | 4 => [(0x10, false), (0x18, false), (0x20, false), (0x28, false), (0x30, true), (0x38, true), (0x40, false)]
  | _ => [(0x100, false), (0x108, false), (0x110, false), (0x118, false), (0x120, false), (0x128, false), (0x130, true), (0x138, false),
      (0x140, false), (0x148, false), (0x150, false), (0x158, true)]

/-- The output offsets of an operation, the primary output first (R429). -/
def opOuts (op : Nat) : List Nat :=
  match op with
  | 1 => [0x40] | 2 => [0x30, 0x38] | 3 => [0x38] | 4 => [0x28, 0x30] | _ => [0x140, 0x148, 0x150, 0x158]

/-- Outputs that the operation also reads: C under accumulate, the bias gradient. -/
def opReads (raw : Bytes) (o : Nat) : Bool := (o == 0x40 && numAt raw 0 1 == 1 && (numAt raw 1 1).testBit 2) || o == 0x158

/-- Whether a tensor lies in the operand staging of a core, R289. -/
def inStaging (d : Desc) : Bool := d.rows.any fun a => (List.range 14).any fun n => meets a d.rowBytes (coreBase n + 0x1000000) 0x400000

/-- Requester input of a physical core, R384. -/
def State.coreInput (s : State) (l : Nat) : Nat := 8 + (s.physOf l).getD 0

/-- The checks of tolerances and frame sets, R428, R429, R434. -/
def State.tolErr (s : State) (p tol : Nat) (primary : Desc) : Option Nat :=
  let band := tol % 4096
  let set := tol / 4096
  if tol = 0 then none
  else if !s.configured then some stPartState
  else if band = 0 ∨ (s.part p).bands.length < band then some stBadParam
  else if set = 0 then none
  else match s.tar.sets.find? fun x => x.part == p && x.set == set with
    | none => some stBadParam
    | some x =>
      if x.goodDesc ≠ 0 ∧ spansMeet x.goodBase primary.span then some stBadParam else none

/-- The tags of the sequences that a paged command names, R351. -/
def State.seqTags (s : State) (a : Attn) : List Tag :=
  if a.paged then a.rows.filterMap fun r => if r.qLen = 0 then none else (s.kvSeq? r.seq).map (·.tag) else []

/-- Reads and checks a core descriptor at its begin; a failed access is counted and reported. -/
def State.plan (s : State) (c : Cmd) (raw : Bytes) (chain : Bool) (core? : Option Nat) : State × Except Nat Plan :=
  let op := numAt raw 0 1
  let code := c.code
  let opOk := if code = 0x0604 then decide (1 ≤ op ∧ op ≤ 5)
    else op == (if code = 0x0610 then 4 else if code = 0x0611 then 5 else code % 256)
  if !opOk || decide (numAt raw 6 10 ≠ 0) then (s, .error stBadParam)
  else
    let core : Except Nat Nat := match core? with
      | some l => if numAt raw 2 1 = 0xFF ∨ numAt raw 2 1 = l then .ok l else .error stBadParam
      | none => s.coreOf c.part raw
    match core with
    | .error e => (s, .error e)
    | .ok l =>
      let list := numAt raw 0x10 8
      match (if op = 5 then s.tableErr c.tableReq list 96 else none) with
      | some e => (s, .error e)
      | none =>
        let addr := fun (o : Nat) => if 0x100 ≤ o then s.rdNum (list + (o - 0x100)) 8 else numAt raw o 8
        match s.readDescs c addr (opDescs op) with
        | .error e =>
          let at_ := (((opDescs op).filter fun o => !(o.2 && addr o.1 == 0)).find? fun o => s.tableErr c.tableReq (addr o.1) 128 == some e).map fun o => addr o.1
          ((match at_ with
            | some a => if e = stRange ∨ e = stHole then s.failAccess (.part c.part) 7 a e else if e = 0x25 then s.memUe (.part c.part) 7 (s.ueLine a 128) else s
            | none => s), .error e)
        | .ok ds =>
          let err := if op = 1 then mmErr raw ds else if op = 2 then vecErr raw ds else if op = 3 then s.spErr c raw ds
            else if op = 4 then s.fwdErr c raw ds chain else s.bwdErr c raw ds chain
          let outs := (opOuts op).filter fun o => (tdesc ds o).isSome
          let ins := ds.filter fun e => !(outs.contains e.1) || opReads raw e.1
          let primary := tdescD ds (opOuts op).head!
          let ovl := outs.any fun o => ds.any fun e => e.1 != o && (tdescD ds o).overlaps e.2 &&
            !(op == 2 && o == 0x30 && (e.1 == 0x20 || e.1 == 0x28) && vecInPlace raw e.2 (tdescD ds o))
          let pre := firstOf [
            ((ds.any fun e => e.2.dev != 255), stBadParam),
            ((ds.any fun e => inStaging e.2), stNotPermitted),
            (outs.any fun o => !(tdescD ds o).outOk, stBadParam)]
          match err, pre with
          | some e, _ => (s, .error e)
          | none, some e => (s, .error e)
          | none, none =>
            if ovl then (s, .error stBadParam)
            else match s.tolErr c.part (numAt raw 4 2) primary with
              | some e => (s, .error e)
              | none =>
                let q := Req.part c.part
                let bad := (ins.findSome? fun e => (s.tensorErr q .tensor false e.2).map fun x => (false, x)).orElse fun _ =>
                  (outs.findSome? fun o => (s.tensorErr q .tensor true (tdescD ds o)).map fun x => (true, x))
                match bad with
                | some (w, a, st) => (s.reportAccess q .tensor w (s.coreInput l) a 64 st, .error st)
                | none =>
                  let slot := if op = 3 then some (numAt raw 0x10 8) else none
                  let tags := ins.map (·.2.tag) ++ (match slot with | some a => [Tag.ofBytes (s.rd (a + 0x20) 16)] | none => []) ++
                    (if op = 4 then s.seqTags (s.attnOf raw ds 0) else [])
                  let tags := if op = 4 then (ins.filter fun e => e.1 != 0x40).map (·.2.tag) ++ s.seqTags (s.attnOf raw ds 0) else tags
                  (s, .ok { core := l, ds := ds, outs := outs, tags := tags, set := numAt raw 4 2 / 4096, band := numAt raw 4 2 % 4096, slot := slot
                            truncated := match slot with | some a => (s.rdNum (a + 6) 2).testBit 0 | none => false })

end Sys2Proof.Machine
end

