-- ==== Sys2Proof/Machine/Geyser.lean ====
section
/-! DEFINITION. Geyser, the launch scheduler: R24 to R26, R151 to R157 and R512. -/
namespace Sys2Proof.Machine

def State.gey (s : State) (i : Nat) : Gey := sget {} s.tnu.gey i

/-- Sets an entry, and the count of entries in use in TNU_GEY_STAT (R156). -/
def State.setGey (s : State) (i : Nat) (e : Gey) : State :=
  let s := { s with tnu := { s.tnu with gey := sset {} s.tnu.gey i e } }
  s.setFldOf .tnuGeyStat 16 9 (s.tnu.gey.filter fun x => x.2.state != .free).length

/-- The owner of an entry: P0 for entries 0 to 31, R151. -/
def State.geyOwner (s : State) (i : Nat) : Nat := if i < 32 then 0 else (s.gey i).owner

/-- The bytes of an entry, R151. -/
def State.geyBytes (s : State) (i : Nat) : Bytes :=
  let e := s.gey i
  leBytes 8 e.inst ++ leBytes 4 e.period ++ leBytes 4 e.ageLimit ++ leBytes 8 e.plDesc ++ leBytes 8 e.fbDesc ++
  leBytes 1 e.kind ++ leBytes 1 e.index ++ leBytes 1 e.tb ++ leBytes 1 e.flags.toNat ++ leBytes 4 e.lead ++
  leBytes 4 e.plLen ++ leBytes 4 e.fbLen ++ leBytes 1 (s.geyOwner i) ++ leBytes 1 e.state.num ++ leBytes 1 e.status ++
  leBytes 1 e.attempts ++ leBytes 8 e.launchedAt ++ leBytes 4 e.skipped

/-- An entry with the fields that software writes taken from 64 bytes, R151. -/
def geyParse (e : Gey) (b : Bytes) : Gey :=
  { e with
    inst := numAt b 0 8, period := numAt b 8 4, ageLimit := numAt b 12 4, plDesc := numAt b 16 8, fbDesc := numAt b 24 8,
    kind := numAt b 32 1, index := numAt b 33 1, tb := numAt b 34 1, flags := BitVec.ofNat 8 (numAt b 35 1),
    lead := numAt b 36 4, plLen := numAt b 40 4, fbLen := numAt b 44 4 }

/-- Whether a payload length suits its kind, R152. -/
def payloadOk (kind len : Nat) : Bool :=
  match kind with
  | 1 => 60 ≤ len && len ≤ 1514
  | 2 => 8 ≤ len && len ≤ 72
  | 3 => 1 ≤ len && len ≤ 4096
  | _ => true

def Gey.pinKind (e : Gey) : Bool := e.kind == 4 || e.kind == 5

/-- The action of kinds 0x04 and 0x05. -/
def Gey.action (e : Gey) : Nat := fld e.flags 1 2

/-- Whether the fields of an entry are in range, R151, R152. -/
def Gey.fieldsOk (e : Gey) : Bool :=
  decide (1 ≤ e.kind ∧ e.kind ≤ 5) && decide (e.index ≤ (if e.pinKind then 15 else 7)) && decide (e.tb ≤ 7) &&
  decide (e.period = 0 ∨ (10000 ≤ e.period ∧ e.period ≤ 4000000000)) &&
  decide (e.lead = 0 ∨ (2000 ≤ e.lead ∧ e.lead ≤ 10000000)) &&
  (if e.pinKind then e.action != 3 || decide (20 ≤ e.plLen)
   else payloadOk e.kind e.plLen && (e.fbDesc == 0 || payloadOk e.kind e.fbLen))

/-- Whether the pin of a timed GPIO entry is selected for a compare unit, R141. -/
def State.pinTaken (s : State) (e : Gey) : Bool := e.kind == 4 && bit (s.reg .tnuGpioSel) e.index

/-- The fetch lead of an entry. -/
def Gey.leadNs (e : Gey) : Nat := if e.lead = 0 then 50000 else e.lead

/-- Whether an entry waits in software for its short time base, R129. -/
def State.waiting (s : State) (i : Nat) : Bool := s.tnu.handoff.any fun h => h.idx == i

/-- How much earlier than its instant an entry's launch starts at the MAC interface: the egress latency of an Ethernet port, R155. -/
def State.egAdv (s : State) (e : Gey) : Nat := if e.kind = 1 then (s.reg (.tnuMacEgLat e.index)).toNat else 0

/-- How far an entry's time base has passed its instant: in full for the entries that Bivexa passes on, R129, else as the hardware compares,
R128. -/
def State.geyPast (s : State) (i : Nat) (e : Gey) : Int :=
  if s.tbShort e.tb && decide (32 ≤ i) then s.tbWide e.tb - e.inst else s.pastBy e.tb e.inst

/-- Whether an entry's instant is at most `ahead` ns ahead. -/
def State.geyDue (s : State) (i : Nat) (e : Gey) (ahead : Nat) : Bool := decide (0 ≤ s.geyPast i e + ahead)

/-- The instant on an entry's time base at which a launch that starts now is on the wire. -/
def State.geyNow (s : State) (i : Nat) (e : Gey) : Nat := ((e.inst : Int) + s.geyPast i e + s.egAdv e).toNat

/-- Arms an entry; one of 32 to 255 whose instant lies far ahead on a short time base waits in software first, R129. -/
def State.armGey (s : State) (i : Nat) (e : Gey) : State :=
  let s := s.setGey i { e with state := .armed, pl := [], fb := [], fetchErr := none, plMark := false, fbMark := false,
                               fbHave := false, fbDue := false, held := false }
  if 32 ≤ i ∧ s.tbShort e.tb ∧ s.tbFull e.tb + 2000000000 ≤ e.inst then
    { s with tnu := { s.tnu with handoff := s.tnu.handoff ++ [{ idx := i, inst := e.inst }] } }
  else s

/-- An entry becomes FREE. -/
def State.freeGey (s : State) (i : Nat) : State :=
  let s := s.setGey i { s.gey i with state := .free, fbDue := false, noRearm := false, held := false, freeSince := s.ns }
  { s with tnu := { s.tnu with handoff := s.tnu.handoff.filter fun h => h.idx != i } }

/-- The free entry of 32 to 255 that has been free longest; the lowest index among equals, R151. -/
def State.freeEntry (s : State) : Option Nat :=
  ((List.range 224).map (· + 32)).foldl (fun b i =>
    let e := s.gey i
    if e.state = .free then
      match b with
      | none => some i
      | some j => if e.freeSince < (s.gey j).freeSince then some i else some j
    else b) none

/-- TIME_LAUNCH_ADD: R151, R152, R163. -/
def timeLaunchAdd (c : Cmd) (s : State) : State :=
  let e := geyParse {} (cut c.params 0 64)
  s.firstFail c [(!e.fieldsOk || bit e.flags 3 || s.noInstants e.tb, stBadParam),
      (s.pinTaken e, stNotPermitted)] fun s =>
    match s.freeEntry with
    | none => s.failCmd c.id 0x37
    | some i => (s.armGey i { e with owner := c.part }).doneWith c (leBytes 2 i)

def execTimeLaunchAdd (dt id : Nat) (s : State) : Host.Outcome State Fault Refusal := runCmd dt id 0x0220 timeLaunchAdd s

/-- The states in which a cancel takes effect: ARMED to HELD, R157. -/
def GeyState.cancellable : GeyState → Bool
  | .armed | .fetching | .ready | .held => true
  | _ => false

/-- Whether a command may name an entry, R163. -/
def State.geyMine (s : State) (c : Cmd) (i : Nat) : Bool := decide (32 ≤ i) && s.geyOwner i == c.part

/-- TIME_LAUNCH_CANCEL: R157. -/
def timeLaunchCancel (c : Cmd) (s : State) : State :=
  let i := c.p 0x20 2
  s.firstFail c [(i > 255, stBadParam), (!(s.geyMine c i), stNotPermitted)] fun s =>
    let e := s.gey i
    if e.state.cancellable then
      ((s.setGey i { e with status := 0x1C }).freeGey i).doneWith c (leBytes 1 0x1C)
    else (s.setResult c.id 0x20 (leBytes 1 e.status)).finish c.id 0x01

def execTimeLaunchCancel (dt id : Nat) (s : State) : Host.Outcome State Fault Refusal := runCmd dt id 0x0221 timeLaunchCancel s

/-- TIME_LAUNCH_STATUS: R163. -/
def timeLaunchStatus (c : Cmd) (s : State) : State :=
  let i := c.p 0x20 2
  s.firstFail c [(i > 255, stBadParam), (!(s.geyMine c i), stNotPermitted)] fun s => s.doneWith c (s.geyBytes i)

def execTimeLaunchStatus (dt id : Nat) (s : State) : Host.Outcome State Fault Refusal := runCmd dt id 0x0222 timeLaunchStatus s

/-- Whether an entry of 0 to 31 names Island memory, R407; pins name none. -/
def Gey.island (e : Gey) : Bool := e.pinKind || (e.plDesc.testBit 63 && (e.fbDesc == 0 || e.fbDesc.testBit 63))

/-- An entry 0 to 31 that is written is armed, R153; one that names device memory is refused at arming, R407. -/
def State.armP0 (s : State) (i : Nat) (e : Gey) : State :=
  if !e.island then s.setGey i { e with status := 0x12 }
  else if e.fieldsOk && !(s.pinTaken e) then s.armGey i e else s.setGey i e

/-- GEYSER_ENTRY_WRITE_P0: the Island cores write bytes of an entry 0 to 31, R151. A write of the state byte arms a FREE entry
(1) or cancels one in ARMED to HELD (0); the other bytes from 0x30 on are the part's own (log entry 23). -/
def geyserEntryWriteP0 (i off : Nat) (bytes : Bytes) (s : State) : State :=
  if i < 32 ∧ off + bytes.length ≤ 64 then
    let e := s.gey i
    let b := putAt (s.geyBytes i) off bytes
    let covers := decide (off ≤ 0x31 ∧ 0x31 < off + bytes.length)
    let e' := geyParse e b
    let st := numAt b 0x31 1
    if covers ∧ st = 1 ∧ e.state = .free then s.armP0 i e'
    else if covers ∧ st = 0 ∧ e.state.cancellable then (s.setGey i { e' with status := 0x1C }).freeGey i
    else s.setGey i e'
  else s

def execGeyserEntryWriteP0 (dt i off : Nat) (bytes : Bytes) (s : State) : Host.Outcome State Fault Refusal :=
  runEvent dt (geyserEntryWriteP0 i off bytes) s

/-! Fetch, R154 -/

/-- GEYSER_FETCH: launch_instant − lead_ns is reached, R153. -/
def geyserFetch (i : Nat) (s : State) : State :=
  let e := s.gey i
  if e.state = .armed ∧ !(s.waiting i) ∧ s.geyDue i e e.leadNs then
    s.setGey i { e with state := .fetching }
  else s

def execGeyserFetch (dt i : Nat) (s : State) : Host.Outcome State Fault Refusal := runEvent dt (geyserFetch i) s

/-- What a fetch through one descriptor brings: data, tag and mark, or the status that refuses it with the address and length that
failed. Entries 0 to 31 fetch from Island memory alone, and offsets never wrap, R154, R407. -/
def State.geyRead (s : State) (i owner desc len : Nat) : Except (Nat × Nat × Nat) (Bytes × Tag × Bool) :=
  if i < 32 then
    let off := desc % 2 ^ 63
    let base := leVal (s.isl off 8)
    if desc.testBit 63 && inside off 128 0 0x200000 && inside base len 0 0x200000 then
      .ok (s.isl base len, Tag.ofBytes (s.isl (off + 0x50) 16), (leVal (s.isl (off + 0x0A) 1)).testBit 0)
    else .error (stRange, desc, 128)
  else
    let q := Req.part owner
    let base := s.rdNum desc 8
    match s.access q .other false desc 128, s.access q .other false base len with
    | some st, _ => .error (st, desc, 128)
    | none, some st => .error (st, base, len)
    | none, none =>
      if s.poisoned desc 128 then .error (0x25, desc, 128)
      else if s.poisoned base len then .error (0x25, base, len)
      else .ok (s.rd base len, s.descTag desc, s.descMark desc)

/-- A fetch that meets an uncorrectable error tells it at once, R379; the other failures are told with the refusal. -/
def State.geyUe (s : State) (i owner desc len : Nat) : State :=
  match s.geyRead i owner desc len with
  | .error (st, a, n) => if st = 0x25 then s.memUe (.part owner) 25 (s.ueLine a n) else s
  | .ok _ => s

/-- The payload and the fall-back come into the Geyser buffer. -/
def State.geyLoad (s : State) (i : Nat) (e : Gey) : Gey :=
  let o := s.geyOwner i
  if e.pinKind then { e with plMark := true, plTag := {} }
  else
    let e := match s.geyRead i o e.plDesc e.plLen with
      | .ok (b, t, m) => { e with pl := b, plTag := t, plMark := m, fetchErr := none }
      | .error x => { e with fetchErr := some x }
    if e.fbDesc = 0 then e
    else match s.geyRead i o e.fbDesc e.fbLen with
      | .ok (b, _, m) => { e with fb := b, fbMark := m, fbHave := true }
      | .error _ => { e with fbHave := false, fbMark := false }

/-- The events of a fetch. -/
def State.geyTell (s : State) (i : Nat) (e : Gey) : State :=
  if e.pinKind then s
  else
    let o := s.geyOwner i
    let s := s.geyUe i o e.plDesc e.plLen
    if e.fbDesc = 0 then s else s.geyUe i o e.fbDesc e.fbLen

/-- GEYSER_FETCH_DONE: payload and fall-back are in the buffer, R154. -/
def geyserFetchDone (i : Nat) (s : State) : State :=
  let e := s.gey i
  if e.state = .fetching then (s.geyTell i e).setGey i { s.geyLoad i e with state := .ready } else s

def execGeyserFetchDone (dt i : Nat) (s : State) : Host.Outcome State Fault Refusal := runEvent dt (geyserFetchDone i) s

/-! Launch, R24 to R26, R153 -/

/-- The age check of R24 and R25 at TB0 instant t; none when the tag passes. -/
def ageCheck (e : Gey) (thr t : Nat) : Option Nat :=
  let g := e.plTag
  if !g.valid then if bit e.flags 0 then some 0x30 else none
  else if g.inst > t + thr then some 0x31
  else if e.ageLimit ≠ 0 ∧ t - g.inst > e.ageLimit then some 0x32
  else if t > g.inst + g.window then some 0x33
  else none

/-- Whether the port of an entry still sends, R153. Pins are never busy. -/
def State.portBusy (s : State) (e : Gey) : Bool :=
  !e.pinKind && s.tnu.busy.any fun b => b.1 == e.kind && b.2.1 == e.index

/-- Puts a payload on the pin: a frame, or the action of a pin kind. A timed GPIO that its compare unit drives is not driven, R141. -/
def State.emitGey (s : State) (e : Gey) (b : Bytes) : State :=
  if e.kind = 4 then if s.pinTaken e then s else s.drive e.index e.action e.plLen
  else if e.kind = 5 then s.drive (16 + e.index) e.action e.plLen
  else s.emit (.frame e.kind e.index b)

/-- The port of entry i is taken until GEYSER_TRANSMIT_DONE; pins are never busy. -/
def State.takePort (s : State) (i : Nat) (e : Gey) : State :=
  if e.pinKind then s else { s with tnu := { s.tnu with busy := s.tnu.busy ++ [(e.kind, e.index, i)] } }

/-- Sends the fall-back payload of an entry. -/
def State.sendFb (s : State) (i : Nat) (e : Gey) : State := (s.emitGey e e.fb).takePort i e

/-- An entry after its launch or refusal: FREE, or ARMED again at the first instant of its series later than the one at which
it started, R512. -/
def State.rearm (s : State) (i started : Nat) : State :=
  let e := s.gey i
  if e.period = 0 ∨ e.noRearm then s.freeGey i
  else
    let n := nextOf e.inst e.period started
    s.armGey i { e with inst := n.1, skipped := Nat.min (e.skipped + n.2) (2 ^ 32 - 1) }

/-- The counter that a refusal counts in, R24, R156: TNU_GEY_REFUSED, or the range counters of the owner. A
fetch from Island memory passes no ranges, so it is counted and raises no event of R382. -/
def State.countRefusal (s : State) (i st a n : Nat) : State :=
  if st = 0x30 then s.countSat .tnuGeyRefused 0 8
  else if st = 0x31 then s.countSat .tnuGeyRefused 8 8
  else if st = 0x32 then s.countSat .tnuGeyRefused 16 8
  else if st = 0x33 then s.countSat .tnuGeyRefused 24 8
  else if st = 0x25 then s
  else if i < 32 then (s.setReg (.mmvRangeLast 0) (BitVec.ofNat 64 a)).countSat (.mmvRangeCnt 0) 0 16
  else s.reportAccess (.part (s.geyOwner i)) .other false 25 a n st

/-- A refused launch, R26: the status is written and EV_LAUNCH_REFUSED raised, the fall-back is emitted if its mark was set at fetch, and the
entry is freed or re-armed. A frame in transmission is not interrupted (R155): behind one the entry stays REFUSED until the port is free. -/
def State.refuseGey (s : State) (i st a n : Nat) : State :=
  let e := s.gey i
  let started := s.geyNow i e
  let s := (s.setGey i { e with state := .refused, status := st, startedAt := started }).countRefusal i st a n
  let s := s.raise 0x0208 (s.geyOwner i) (evData [i, st])
  if !(e.fbHave && e.fbMark) then s.rearm i started
  else if s.portBusy e then s.setGey i { s.gey i with fbDue := true }
  else (s.sendFb i e).rearm i started

/-- The launch starts: LAUNCHING with its port taken, or HELD while the port is busy, R153, R155. -/
def State.beginGey (s : State) (i : Nat) (b : Bytes) : State :=
  let e := s.gey i
  if s.portBusy e then s.setGey i { e with state := .held }
  else
    let t := s.geyNow i e
    let s := s.setGey i { e with
      state := .launching, status := 0, launchedAt := s.now, startedAt := t,
      attempts := if e.held then Nat.min (e.attempts + 1) 255 else 1 }
    let s := if e.held then s else s.countWrap .tnuGeyStat 0 16 1
    let s := (s.takePort i e).emitGey e b
    if e.inst + 100000 < t then
      (s.countSat .tnuGeyLate 0 32).raise 0x0209 (s.geyOwner i) (evData [i])
    else s

/-- The checks at the launch tick and the launch, refusal or hold that follows, R24, R153, R154, R414. -/
def State.launchGey (s : State) (i : Nat) : State :=
  let e := s.gey i
  if i < 32 && bit e.flags 3 then
    if e.fbDesc = 0 ∨ e.pinKind then (s.setGey i { e with status := 0x13 }).freeGey i
    else if e.fbHave && e.fbMark then s.beginGey i e.fb
    else (s.setGey i { e with status := 0x30 }).rearm i (s.geyNow i e)
  else
    match e.fetchErr with
    | some (st, a, n) => s.refuseGey i st a n
    | none =>
      if !e.plMark then s.refuseGey i 0x30 e.plDesc 128
      else match ageCheck e (s.reg (.tnuTbJumpThr 0)).toNat s.now with
        | some st => s.refuseGey i st e.plDesc 128
        | none => s.beginGey i e.pl

/-- Whether entry j goes before entry i at a port they share: P0 first, then by instant, then by index. -/
def State.geyBefore (s : State) (j i : Nat) : Bool :=
  let a := s.gey j
  let b := s.gey i
  j != i && a.kind == b.kind && a.index == b.index && (a.state == .ready || a.state == .held) && s.geyDue j a (s.egAdv a) &&
  (if decide (j < 32) != decide (i < 32) then decide (j < 32)
   else if a.state == .ready && b.state == .ready && a.tb == b.tb && a.inst != b.inst then decide (a.inst < b.inst)
   else decide (j < i))

/-- Whether no other due entry goes before entry i. -/
def State.geyFirst (s : State) (i : Nat) : Bool := !(s.tnu.gey.any fun x => s.geyBefore x.1 i)

/-- A cancelled entry whose partition restarted emits its fall-back at its launch instant, R26; behind a frame in transmission it waits. -/
def State.emitDue (s : State) (i : Nat) (e : Gey) : State :=
  if !(e.fbHave && e.fbMark) then s.freeGey i
  else if s.portBusy e then s.setGey i e
  else (s.sendFb i e).freeGey i

/-- GEYSER_LAUNCH_TICK: R153. The launch tick of an Ethernet entry lies its port's egress latency before its instant, R155. -/
def geyserLaunchTick (i : Nat) (s : State) : State :=
  let e := s.gey i
  if !(s.geyDue i e (s.egAdv e)) then s
  else if e.state = .ready then if s.geyFirst i then s.launchGey i else s
  else if e.state = .cancelled ∧ e.fbDue then
    if e.fbHave then s.emitDue i e else (s.geyTell i e).emitDue i (s.geyLoad i e)
  else s

def execGeyserLaunchTick (dt i : Nat) (s : State) : Host.Outcome State Fault Refusal := runEvent dt (geyserLaunchTick i) s

/-- GEYSER_HELD_START: the port is free: a held entry starts after its checks are made again, R153, and a fall-back that waited is sent. -/
def geyserHeldStart (i : Nat) (s : State) : State :=
  let e := s.gey i
  if s.portBusy e then s
  else if e.state = .held then if s.geyFirst i then s.launchGey i else s
  else if e.state = .refused ∧ e.fbDue then (s.sendFb i e).rearm i e.startedAt
  else if e.state = .cancelled ∧ e.fbDue ∧ e.fbHave ∧ s.geyDue i e (s.egAdv e) then s.emitDue i e
  else s

def execGeyserHeldStart (dt i : Nat) (s : State) : Host.Outcome State Fault Refusal := runEvent dt (geyserHeldStart i) s

/-- The port of an entry becomes free. -/
def State.freePort (s : State) (i : Nat) : State :=
  { s with tnu := { s.tnu with busy := s.tnu.busy.filter fun b => b.2.2 != i } }

/-- GEYSER_TRANSMIT_DONE: R153, R512; after a fall-back the port alone becomes free. -/
def geyserTransmitDone (i : Nat) (s : State) : State :=
  let e := s.gey i
  if e.state = .launching then (s.freePort i).rearm i e.startedAt else s.freePort i

def execGeyserTransmitDone (dt i : Nat) (s : State) : Host.Outcome State Fault Refusal := runEvent dt (geyserTransmitDone i) s

/-- CAN_ARBITRATION_LOST: the entry stays HELD between attempts, R157. -/
def canArbitrationLost (i : Nat) (s : State) : State :=
  let e := s.gey i
  if e.state = .launching ∧ e.kind = 2 then (s.freePort i).setGey i { e with state := .held, held := true } else s

def execCanArbitrationLost (dt i : Nat) (s : State) : Host.Outcome State Fault Refusal := runEvent dt (canArbitrationLost i) s

/-- SHORT_TB_ENTRY_HANDOFF: the entry's instant lies less than 2,000,000,000 ns ahead and the hardware takes it, R129. -/
def shortTbEntryHandoff (i : Nat) (s : State) : State :=
  let e := s.gey i
  { s with tnu := { s.tnu with handoff := s.tnu.handoff.filter fun h =>
      !(h.idx == i && decide (h.inst < s.tbFull e.tb + 2000000000)) } }

def execShortTbEntryHandoff (dt i : Nat) (s : State) : Host.Outcome State Fault Refusal :=
  runEvent dt (shortTbEntryHandoff i) s

/-- Geyser cancels the pending entries of a partition that restarts or stops, R26: ARMED to HELD take ST_PARTITION_RESET, and a
fall-back waits for the launch instant; a LAUNCHING one ends without re-arming. -/
def State.cancelGey (s : State) (p : Nat) : State :=
  ((List.range 224).map (· + 32)).foldl (fun s i =>
    let e := s.gey i
    if e.owner = p then
      if e.state.cancellable then
        let s := { s with tnu := { s.tnu with handoff := s.tnu.handoff.filter fun h => h.idx != i } }
        if e.fbDesc ≠ 0 ∧ !e.pinKind then s.setGey i { e with status := 0x1A, state := .cancelled, fbDue := true }
        else (s.setGey i { e with status := 0x1A }).freeGey i
      else if e.state = .launching ∨ e.state = .refused then s.setGey i { e with noRearm := true }
      else s
    else s) s

/-- The entries 0 to 31 switch to fallback_only, R414. -/
def State.fallbackOnly (s : State) (on : Bool) : State :=
  (List.range 32).foldl (fun s i =>
    let e := s.gey i
    if e.state = .free then s else s.setGey i { e with flags := setBit e.flags 3 on }) s

end Sys2Proof.Machine
end

