-- ==== Sys2Proof/Machine/Grid.lean ====
section
/-! DEFINITION. The Planner's world grid and its checks: cells, fills, scrolling, swept tests against grid and octree (R261 to R274). -/
namespace Sys2Proof.Machine

/-! Cells, R261, R262 -/

def State.scrollX (s : State) : Nat := s.fldOf .plnGridScroll 0 9
def State.scrollY (s : State) : Nat := s.fldOf .plnGridScroll 16 9

/-- The byte that holds a logical cell. -/
def State.cellAddr (s : State) (gx gy gz : Nat) : Nat :=
  gridBase + 16 * (((gy + s.scrollY) % 512) * 512 + (gx + s.scrollX) % 512) + gz / 4

/-- The state of a logical cell. -/
def State.cell (s : State) (gx gy gz : Nat) : Nat := fld (s.rdByte (s.cellAddr gx gy gz)) (2 * (gz % 4)) 2

def State.setCell (s : State) (gx gy gz st : Nat) : State :=
  s.wr (s.cellAddr gx gy gz) [setFld (s.rdByte (s.cellAddr gx gy gz)) (2 * (gz % 4)) 2 st]

/-- Every cell of a logical column is UNKNOWN. -/
def State.clearColumn (s : State) (gx gy : Nat) : State := s.wr (s.cellAddr gx gy 0) (List.replicate 16 0)

/-- The logical cell of a position, none outside the grid. -/
def State.cellOf3 (s : State) (p : V3) : Option (Nat × Nat × Nat) :=
  let e := s.gridEdge
  let gx := cellOf p.x s.pln.ox e
  let gy := cellOf p.y s.pln.oy e
  let gz := cellOf p.z s.pln.oz e
  if s.gridOn ∧ 0 ≤ gx ∧ gx < 512 ∧ 0 ≤ gy ∧ gy < 512 ∧ 0 ≤ gz ∧ gz < 64 then some (gx.toNat, gy.toNat, gz.toNat) else none

/-- The registers that show the origin, R283. -/
def State.syncGrid (s : State) : State :=
  ((s.setReg .plnGridOrgX ((f32Of s.pln.ox).setWidth 64)).setReg .plnGridOrgY ((f32Of s.pln.oy).setWidth 64)).setReg .plnGridOrgZ
    ((f32Of s.pln.oz).setWidth 64)

/-- The next generation, with the tag instant shown. -/
def State.nextGen (s : State) (t : Tag) : State :=
  ((({ s with pln := { s.pln with tag := t } }).setReg .plnGridGen (s.reg .plnGridGen + 1))).setReg .plnGridTagT (BitVec.ofNat 64 t.inst)

/-- The logical columns that enter on one axis at a scroll of d cells. -/
def entering (d : Int) : List Nat :=
  if 0 ≤ d then (List.range 512).filter fun g => decide ((512 : Int) ≤ (g : Int) + d) else (List.range 512).filter fun g => decide ((g : Int) < -d)

/-- Scrolls by (dx, dy) cells, R265. -/
def State.scroll (s : State) (dx dy : Int) : State :=
  let e := s.gridEdge
  let s := { s with pln := { s.pln with ox := s.pln.ox + (dx : Rat) * e, oy := s.pln.oy + (dy : Rat) * e } }
  let sx := (((s.scrollX : Int) + dx) % 512).toNat
  let sy := (((s.scrollY : Int) + dy) % 512).toNat
  let s := (s.setFldOf .plnGridScroll 0 9 sx).setFldOf .plnGridScroll 16 9 sy
  let s := (entering dx).foldl (fun (s : State) gx => (List.range 512).foldl (fun (s : State) gy => s.clearColumn gx gy) s) s
  ((entering dy).foldl (fun (s : State) gy => (List.range 512).foldl (fun (s : State) gx => s.clearColumn gx gy) s) s).syncGrid

/-! Fills, R264 -/

/-- Insertion into an ascending list of rationals. -/
def insRat (q : Rat) : List Rat → List Rat
  | [] => [q]
  | x :: r => if q ≤ x then q :: x :: r else x :: insRat q r

/-- The fractions of a segment at which one coordinate crosses a cell boundary. -/
def crossings (a b origin edge : Rat) : List Rat :=
  if edge = 0 ∨ a = b then []
  else
    let lo := cellOf (if a < b then a else b) origin edge
    let hi := cellOf (if a < b then b else a) origin edge
    (List.range (hi - lo).toNat).map fun (i : Nat) => (origin + edge * ((lo + 1 + (i : Int) : Int) : Rat) - a) / (b - a)

/-- The intervals between rising fractions. -/
def gaps : List Rat → List (Rat × Rat)
  | a :: b :: r => (a, b) :: gaps (b :: r)
  | _ => []

/-- The cells that a ray crosses within the range, in order. -/
def State.rayCells (s : State) (o w : V3) : List (Nat × Nat × Nat) :=
  let e := s.gridEdge
  let d := w.sub o
  let ts := ((crossings o.x w.x s.pln.ox e ++ crossings o.y w.y s.pln.oy e ++ crossings o.z w.z s.pln.oz e).filter fun t =>
    decide (0 < t ∧ t < 1)).foldr insRat [1]
  (gaps (0 :: ts)).filterMap fun g =>
    if g.1 < g.2 ∧ g.1 * g.1 * d.dot d ≤ s.pln.maxRange * s.pln.maxRange then s.cellOf3 (o.add (d.scale ((g.1 + g.2) / 2))) else none

/-- Pass 1 for one point. -/
def State.clearRay (s : State) (o w : V3) : State :=
  ((s.rayCells o w).filter fun c => s.cellOf3 w != some c).foldl (fun (s : State) c =>
    let st := s.cell c.1 c.2.1 c.2.2
    if st = 0 ∨ st = 2 then s.setCell c.1 c.2.1 c.2.2 1 else s) s

/-- Pass 2 for one point. -/
def State.markPoint (s : State) (w : V3) : State :=
  match s.cellOf3 w with
  | some c => if s.cell c.1 c.2.1 c.2.2 = 3 then s else s.setCell c.1 c.2.1 c.2.2 2
  | none => s

/-- The longest wait of R273, in ns. -/
def State.gridWaited (s : State) (since : Nat) : State := s.maxFld .plnGridWaitNs 0 32 (s.ns - since)

/-- One fill; of a record with an invalid ego, a skip. -/
def State.fill (s : State) (f : Fill) : State :=
  match (if f.isStatic then some ({} : Pose) else f.pose) with
  | none => (s.countSat .plnGridSkip 0 32).raiseLim 0x0501 0 (s.fldOf .plnGridCtl 26 3) (evData [f.inst])
  | some g =>
    let sc := s.gridScroll f.pose f.isStatic
    let s := if sc = (0, 0) then s else s.scroll sc.1 sc.2
    let s := if bit (s.reg .plnGridCtl) 30 then
        f.pts.foldl (fun (s : State) p =>
          let o := ((f.origins.find? fun e => e.1 == p.stream).map (·.2)).getD {}
          s.clearRay (g.rigid.app o) (g.rigid.app p.pos)) s
      else s
    let s := f.pts.foldl (fun (s : State) p => s.markPoint (g.rigid.app p.pos)) s
    let s := s.nextGen f.tag
    { s with pln := { s.pln with ego := some g, lastPose := g, stopDue := s.pln.stopDue + 1 } }

/-- Whether the output hold is in force, R278: a revalidated path waits for its commit. -/
def State.hold (s : State) : Bool := s.pln.searches.any fun r => r.state == .revalidating && s.isRunning r.cmd

/-- The grid writes that wait and whose commands still run. -/
def State.waitingWrites (s : State) : List GridWr := s.pln.writes.filter fun w => s.isRunning w.cmd

/-- GRID_FILL: the next fill that is due, unless the output hold is in force, R264, R273. -/
def gridFill (s : State) : State :=
  match s.pln.fills with
  | [] => s
  | f :: r => if s.hold then s else (({ s with pln := { s.pln with fills := r } }).fill f).gridWaited f.since

def execGridFill (dt : Nat) (s : State) : Host.Outcome State Fault Refusal := runEvent dt gridFill s

/-! Distances, R271 -/

/-- How far a coordinate stands outside an interval. -/
def axisGap (p lo hi : Rat) : Rat := if p < lo then lo - p else if hi < p then p - hi else 0

def gapVec (p lo hi : V3) : V3 := ⟨axisGap p.x lo.x hi.x, axisGap p.y lo.y hi.y, axisGap p.z lo.z hi.z⟩

/-- The least squared length between two vectors along their straight line. -/
def minQuad (u v : V3) : Rat :=
  let d := v.sub u
  let k := if d.dot d = 0 then 0 else -(u.dot d) / d.dot d
  let k := if k < 0 then 0 else if 1 < k then 1 else k
  let w := u.add (d.scale k)
  w.dot w

def atFrac (a b : V3) (t : Rat) : V3 := a.add ((b.sub a).scale t)

/-- Where a coordinate passes a value. -/
def passes (a b v : Rat) : List Rat := if a = b then [] else [(v - a) / (b - a)]

/-- The squared distance of a segment to a box: exact, by the intervals in which each coordinate is below, inside or above. -/
def segBox2 (a b lo hi : V3) : Rat :=
  let ts := ((passes a.x b.x lo.x ++ passes a.x b.x hi.x ++ passes a.y b.y lo.y ++ passes a.y b.y hi.y ++ passes a.z b.z lo.z ++
    passes a.z b.z hi.z).filter fun t => decide (0 < t ∧ t < 1)).foldr insRat [1]
  let g := fun (t : Rat) => gapVec (atFrac a b t) lo hi
  (gaps (0 :: ts)).foldl (fun (m : Rat) i => let q := minQuad (g i.1) (g i.2); if q < m then q else m) ((g 0).dot (g 0))

/-! Swept tests, R267, R270, R271 -/

/-- A primitive placed at a substep. -/
structure Placed where
  ix : Nat
  a : V3
  b : V3
  ground : Bool
  reach : Rat
deriving DecidableEq, Repr

/-- The pose of a link at a waypoint. A waypoint without link poses has them at the base. -/
def Way.link (w : Way) (n : Nat) : Rigid :=
  let base : Rigid := ⟨w.q.mat, w.pos⟩
  match w.links[n]? with
  | some l => base.mul ⟨l.2.mat, l.1⟩
  | none => base

def Prim.place (p : Prim) (ix : Nat) (w : Way) (par : ChkPar) : Placed :=
  let g := w.link p.link
  { ix := ix, a := g.app p.a, b := g.app (if p.capsule then p.b else p.a), ground := p.ground
    reach := p.radius + par.margin + par.step / 2 }

/-- Whether a box hits a placed primitive. -/
def Placed.hits (p : Placed) (floorZ : Rat) (lo hi : V3) : Bool :=
  !(p.ground && decide (hi.z ≤ floorZ)) && decide (segBox2 p.a p.b lo hi ≤ p.reach * p.reach)

/-- The least and greatest coordinate of the inflated primitive on an axis. -/
def Placed.span (p : Placed) (f : V3 → Rat) : Rat × Rat :=
  let a := f p.a
  let b := f p.b
  ((if a < b then a else b) - p.reach, (if a < b then b else a) + p.reach)

/-- The cells of one axis from lo to hi that lie in the grid. -/
def cellRange (span : Rat × Rat) (origin edge : Rat) (n : Nat) : List Nat :=
  let lo := cellOf span.1 origin edge
  let hi := cellOf span.2 origin edge
  (List.range n).filter fun g => decide (lo - 1 ≤ (g : Int) ∧ (g : Int) ≤ hi)

/-- Whether a cell state hits, R261. -/
def hitState (unknownHit : Bool) (st : Nat) : Bool := st == 2 || st == 3 || (st == 0 && unknownHit)

/-- The grid cells that hit a placed primitive. -/
def State.gridHits (s : State) (par : ChkPar) (p : Placed) : List Hit :=
  let e := s.gridEdge
  if !s.gridOn then []
  else
    (cellRange (p.span V3.x) s.pln.ox e 512).flatMap fun gx => (cellRange (p.span V3.y) s.pln.oy e 512).flatMap fun gy =>
      (cellRange (p.span V3.z) s.pln.oz e 64).filterMap fun gz =>
        let st := s.cell gx gy gz
        let lo : V3 := ⟨s.pln.ox + e * (gx : Rat), s.pln.oy + e * (gy : Rat), s.pln.oz + e * (gz : Rat)⟩
        if hitState par.unknownHit st = true ∧ p.hits par.floorZ lo (lo.add ⟨e, e, e⟩) = true then
          some { state := st, prim := p.ix, at_ := 0, cell := gx + 2 ^ 16 * gy + 2 ^ 32 * gz }
        else none

/-- The octree children that hit, below a node whose cube starts at lo. -/
def State.octHits (s : State) (par : ChkPar) (p : Placed) : Nat → Nat → V3 → Rat → List Hit
  | 0, _, _, _ => []
  | fuel + 1, n, lo, edge =>
    let x := s.onode n
    let h := edge / 2
    (List.range 8).flatMap fun c =>
      let l : V3 := ⟨lo.x + (if c % 2 = 1 then h else 0), lo.y + (if c / 2 % 2 = 1 then h else 0), lo.z + (if c / 4 = 1 then h else 0)⟩
      if x.kid c = 3 then s.octHits par p fuel (x.kidNode c) l h
      else if (x.kid c = 1 ∨ x.kid c = 2) ∧ p.hits par.floorZ l (l.add ⟨h, h, h⟩) = true then
        [{ state := x.kid c, prim := p.ix, at_ := 1, cell := n + 2 ^ 32 * c }]
      else []

/-- Whether the inflated primitive reaches beyond the grid. -/
def State.beyond (s : State) (p : Placed) : Bool :=
  let e := s.gridEdge
  let out := fun (sp : Rat × Rat) (o : Rat) (n : Nat) => decide (sp.1 < o ∨ o + e * (n : Rat) < sp.2)
  !s.gridOn || out (p.span V3.x) s.pln.ox 512 || out (p.span V3.y) s.pln.oy 512 || out (p.span V3.z) s.pln.oz 64

/-- Every hit of one test; the spec does not fix which is reported. -/
def State.testHits (s : State) (par : ChkPar) (p : Placed) : List Hit :=
  let o := s.chn.oct
  let far := if !(s.beyond p) then []
    else if o.sched.isSome then
      let edge := o.leaf * ((2 ^ o.depth : Nat) : Rat)
      s.octHits par p (o.depth + 1) 0 (o.centre.sub ⟨edge / 2, edge / 2, edge / 2⟩) edge
    else if par.outHit then [{ state := 0, prim := p.ix, at_ := 2, cell := 0 }] else []
  s.gridHits par p ++ far

/-- The least n whose square is at least q. -/
def ceilSqrt (q : Rat) : Nat :=
  let k := isqrt q.floor.toNat
  if q ≤ ((k * k : Nat) : Rat) then k else k + 1

/-- Substeps of a segment, R270. -/
def substeps (m : BodyModel) (par : ChkPar) (v w : Way) : Nat :=
  let d2 := m.prims.foldl (fun (x : Rat) p =>
    let f := fun (q : V3) => let d := ((w.link p.link).app q).sub ((v.link p.link).app q); d.dot d
    let y := if p.capsule ∧ f p.a < f p.b then f p.b else f p.a
    if x < y then y else x) 0
  if par.step ≤ 0 then 1 else Nat.max 1 (ceilSqrt (d2 / (par.step * par.step)))

def linkMix (u : Rat) (a b : V3 × Quat) : V3 × Quat := (a.1.mix b.1 u, a.2.mix b.2 u)

/-- A waypoint between two, R270. -/
def Way.mix (v w : Way) (u : Rat) : Way :=
  { pos := v.pos.mix w.pos u, q := v.q.mix w.q u, links := List.zipWith (linkMix u) v.links w.links }

/-- The substeps of a path: segment, fraction, waypoint. -/
def pathSteps (m : BodyModel) (par : ChkPar) : Nat → List Way → List (Nat × Rat × Way)
  | i, v :: w :: r =>
    let n := substeps m par v w
    ((List.range n).map fun (k : Nat) => (i, (k : Rat) / (n : Rat), if k = 0 then v else v.mix w ((k : Rat) / (n : Rat)))) ++ pathSteps m par (i + 1) (w :: r)
  | i, [v] => [(i, 0, v)]
  | _, [] => []

/-- The first hit of a path: of the hitting cells of that test, a free one (R271, log entry 3). -/
def State.checkPath (s : State) (m : BodyModel) (par : ChkPar) (path : List Way) : Option Hit :=
  (pathSteps m par 0 path).findSome? fun e =>
    m.prims.zipIdx.findSome? fun q =>
      let l := s.testHits par (q.1.place q.2 e.2.2 par)
      (l[(Config.freeWord s.freeCtr).toNat % Nat.max 1 l.length]?).map fun h => { h with seg := e.1, frac := e.2.1 }

/-- Counts a job and its hit, R283. -/
def State.countJob (s : State) (hit : Bool) : State :=
  let s := ({ s with freeCtr := s.freeCtr + 1 }).countWrap .plnChkCnt 0 16 1
  if hit then s.countWrap .plnChkCnt 16 16 1 else s

end Sys2Proof.Machine
end

