-- ==== Sys2Proof/Machine/Planner.lean ====
section
/-! DEFINITION. The Planner's commands and jobs: grid configuration and writes, body models, checks, searches and the stop service
(R263, R266, R268, R273 to R285). -/
namespace Sys2Proof.Machine

def State.gridOwner (s : State) : Nat := s.fldOf .plnGridCtl 26 3

/-- Whether R285 refuses a partition: the grid has an owner, and it is neither that nor P0. -/
def State.foreignGrid (s : State) (p : Nat) : Bool := s.gridOn && s.gridOwner != p && p != 0

/-- The jobs whose commands still run. -/
def State.jobs (s : State) : List Job := s.pln.jobs.filter fun j => s.isRunning j.use.cmd

def State.liveSearches (s : State) : List Search := s.pln.searches.filter fun r => s.isRunning r.cmd

/-- The steps that end with a status word: a counter field of PLN_SRCH_CNT saturates. -/
def State.countSearch (s : State) (lo : Nat) : State := s.countSat .plnSrchCnt lo 8

/-! PLAN_GRID_CONFIG and PLAN_GRID_WRITE, R263, R266 -/

def planGridConfig (c : Cmd) (s : State) : State :=
  let j := c.p 0x20 1
  let fl := c.p 0x21 1
  let edgeW := f32At c.params 4
  let e := f32Rat edgeW
  let o := V3.at c.params 8
  let snap := fun (q : Rat) => if e = 0 then 0 else e * (((q / e).floor : Int) : Rat)
  let ok := (decide (j ≤ 3) || j == 255) && decide (fl ≤ 3) && c.zero 0x22 2 && inF32 edgeW (1 / 50) (1 / 2) && finiteAt c.params 8 3 &&
    inF32 (f32At c.params 0x14) 1 200
  s.firstFail c [(!ok, stBadParam), (!s.jobs.isEmpty || !s.liveSearches.isEmpty, stBusy),
      (s.foreignGrid c.part || (j != 255 && !(s.schedOn j && s.schedOwner j == c.part)), stNotPermitted)] fun s =>
    let s := { s with pln := { s.pln with
      ox := snap o.x, oy := snap o.y, oz := o.z, maxRange := f32Rat (f32At c.params 0x14), tag := {}, ego := none, fills := [] } }
    let s := s.setReg .plnGridCtl (BitVec.ofNat 64 (2 ^ 31 + fl % 2 * 2 ^ 30 + fl / 2 * 2 ^ 29 + c.part * 2 ^ 26 +
      (if j = 255 then 0 else 2 ^ 25 + j * 2 ^ 23)))
    let s := ((s.setReg .plnGridEdge (edgeW.setWidth 64)).setReg .plnGridScroll 0).clearMem gridBase gridSize
    (s.syncGrid.nextGen {}).done c

def execPlanGridConfig (dt id : Nat) (s : State) : Host.Outcome State Fault Refusal := runCmd dt id 0x0501 planGridConfig s

/-- The logical cells of a box. -/
def boxCells (c : Cmd) : List (Nat × Nat × Nat) :=
  let ax := fun (o : Nat) => (List.range (c.p (o + 6) 2 + 1 - c.p o 2)).map fun (i : Nat) => c.p o 2 + i
  (ax 0x20).flatMap fun x => (ax 0x22).flatMap fun y => (ax 0x24).map fun z => (x, y, z)

/-- PLAN_GRID_WRITE: waits for the output hold and for fills that are due, R273. -/
def planGridWrite (c : Cmd) (s : State) : State :=
  let st := c.p 0x2C 1
  let out := c.p 0x26 2 > 511 || c.p 0x28 2 > 511 || c.p 0x2A 2 > 63 || c.p 0x20 2 > c.p 0x26 2 || c.p 0x22 2 > c.p 0x28 2 ||
    c.p 0x24 2 > c.p 0x2A 2
  if !s.gridOn || s.foreignGrid c.part then (s.failCmd c.id stNotPermitted).settle
  else if (st != 0 && st != 3) || out then (s.failCmd c.id stBadParam).settle
  else if s.hold || !s.pln.fills.isEmpty then
    if s.pln.writes.any fun w => w.cmd == c.id then s
    else { s with pln := { s.pln with writes := s.pln.writes ++ [GridWr.mk c.id s.ns] } }
  else
    let s := s.start c.id
    let s := match s.pln.writes.find? fun w => w.cmd == c.id with
      | some w => s.gridWaited w.since
      | none => s
    let s := { s with pln := { s.pln with writes := s.pln.writes.filter fun w => w.cmd != c.id } }
    let s := (boxCells c).foldl (fun (s : State) b => s.setCell b.1 b.2.1 b.2.2 st) s
    let s := s.setReg .plnGridGen (s.reg .plnGridGen + 1)
    (s.doneWith c (leBytes 8 (s.reg .plnGridGen).toNat)).settle

def execPlanGridWrite (dt id : Nat) (s : State) : Host.Outcome State Fault Refusal :=
  runEvent dt (fun s => match s.runs id 0x0502 with
    | some c => planGridWrite c s
    | none => s) s

/-! PLAN_MODEL_SET, R268 -/

def Prim.parse (b : Bytes) : Prim :=
  { capsule := numAt b 0 1 == 1, link := numAt b 1 1, ground := (numAt b 2 1).testBit 0, radius := f32Rat (f32At b 4), a := V3.at b 8
    b := V3.at b 0x14 }

/-- Whether the 32 bytes of a primitive are in range. -/
def primOk (links : Nat) (b : Bytes) : Bool :=
  decide (numAt b 0 1 ≤ 1 ∧ numAt b 1 1 < links ∧ numAt b 2 1 ≤ 1) && inF32 (f32At b 4) (5 / 1000) 4 && finiteAt b 8 3 &&
  (numAt b 0 1 == 0 || finiteAt b 0x14 3)

def State.model? (s : State) (m : Nat) : Option BodyModel := (s.pln.models.find? fun e => e.1 == m).map (·.2)

def State.modelBusy (s : State) (m : Nat) : Bool := (s.jobs.any fun j => j.par.model == m) || s.liveSearches.any fun r => r.par.model == m

def planModelSet (c : Cmd) (s : State) : State :=
  let m := c.p 0x20 1
  let links := c.p 0x21 1
  let n := c.p 0x22 1
  s.firstFail c [(decide (15 < m ∨ links < 1 ∨ 32 < links ∨ n < 1 ∨ 64 < n), stBadParam), (s.foreignGrid c.part, stNotPermitted),
      (s.modelBusy m, stBusy)] fun s =>
    s.withTable c (c.p 0x28 8) (32 * n) fun b s =>
      let rows := (List.range n).map fun i => cut b (32 * i) 32
      if !(rows.all (primOk links)) then s.failCmd c.id stBadParam
      else ({ s with pln := { s.pln with models := sins (sdel s.pln.models m) m ⟨links, rows.map Prim.parse⟩ } }).done c

def execPlanModelSet (dt id : Nat) (s : State) : Host.Outcome State Fault Refusal := runCmd dt id 0x0503 planModelSet s

/-! Waypoints, R269 -/

def quatAt (b : Bytes) (o : Nat) : Quat :=
  ⟨f32Rat (f32At b o), f32Rat (f32At b (o + 4)), f32Rat (f32At b (o + 8)), f32Rat (f32At b (o + 12))⟩

def wayBytes (links : Nat) : Nat := 32 + 32 * links

def Way.parse (links : Nat) (b : Bytes) : Way :=
  { pos := V3.at b 0, q := quatAt b 0x0C, tOff := numAt b 0x1C 4
    links := (List.range links).map fun i => (V3.at b (0x20 + 0x20 * i), quatAt b (0x2C + 0x20 * i)) }

def wayOk (links : Nat) (b : Bytes) : Bool := finiteAt b 0 7 && (List.range links).all fun i => finiteAt b (0x20 + 0x20 * i) 7

/-- The base pose of a waypoint in 32 bytes. -/
def Way.base (w : Way) : Bytes := w.pos.bytes ++ w.q.bytes ++ leBytes 4 w.tOff

def Way.bytes (w : Way) : Bytes := w.base ++ w.links.flatMap fun l => l.1.bytes ++ l.2.bytes ++ leBytes 4 0

/-- The waypoints of a path in memory; none where one is not finite. -/
def State.readPath (s : State) (links a n : Nat) : Option (List Way) :=
  let l := (List.range n).map fun i => s.rdSeen (a + wayBytes links * i) (wayBytes links)
  if l.all (wayOk links) then some (l.map (Way.parse links)) else none

/-- What an access of a Planner command to memory fails with, reported, R274. -/
def State.plnAccess (s : State) (c : Cmd) (write : Bool) (a n : Nat) : Option Nat := s.access (.part c.part) .other write a n

/-! PLAN_CHECK, R274 -/

/-- The step of a check: 0 selects half an edge. -/
def State.chkStep (s : State) (w : W32) : Rat := if f32? w = some 0 then s.gridEdge / 2 else f32Rat w

def State.stepOk (s : State) (w : W32) : Bool :=
  f32? w == some 0 || (if s.gridOn then inF32 w (5 / 1000) s.gridEdge else inF32 w (5 / 1000) (1 / 2))

/-- The result record of a path. -/
def resultBytes (res gen : Nat) (h : Option Hit) : Bytes :=
  match h with
  | some h => leBytes 1 res ++ leBytes 1 h.state ++ leBytes 1 h.prim ++ leBytes 1 h.at_ ++ leBytes 4 h.seg ++ f32Bytes h.frac ++ leBytes 8 h.cell ++
      leBytes 4 0 ++ leBytes 8 gen
  | none => leBytes 1 res ++ List.replicate 23 0 ++ leBytes 8 gen

/-- The path headers of a table: address, waypoints, cost. -/
def pathHeads (b : Bytes) (n : Nat) : List (Nat × Nat × W32) :=
  (List.range n).map fun i => (numAt b (16 * i) 8, numAt b (16 * i + 8) 2, f32At b (16 * i + 12))

/-- The paths that headers name, or the status. -/
def State.readPaths (s : State) (c : Cmd) (links maxWp : Nat) (l : List (Nat × Nat × W32)) : Except Nat (List (W32 × List Way)) :=
  if l.any fun h => decide (h.2.1 < 2 ∨ maxWp < h.2.1) then .error stBadParam
  else if l.any fun h => (s.plnAccess c false h.1 (wayBytes links * h.2.1)).isSome then .error stRange
  else
    let r := l.map fun h => (s.readPath links h.1 h.2.1).map fun p => (h.2.2, p)
    if r.all Option.isSome then .ok (r.filterMap id) else .error stBadParam

def planCheck (c : Cmd) (s : State) : State :=
  let m := c.p 0x20 1
  let fl := c.p 0x21 1
  let n := c.p 0x22 2
  let res := c.p 0x38 8
  match s.model? m with
  | none => s.failCmd c.id (if s.foreignGrid c.part then stNotPermitted else stBadParam)
  | some b =>
    let ok := decide (fl ≤ 7 ∧ 1 ≤ n ∧ n ≤ 256) && inF32 (f32At c.params 4) 0 1 && finiteAt c.params 8 1 && s.stepOk (f32At c.params 12)
    s.firstFail c [(s.foreignGrid c.part, stNotPermitted), (!ok, stBadParam), ((s.plnAccess c true res (32 * n)).isSome, stRange)] fun s =>
      s.withTable c (c.p 0x30 8) (16 * n) fun t s =>
        match s.readPaths c b.links 1024 (pathHeads t n) with
        | .error st => s.failCmd c.id st
        | .ok paths =>
          let par : ChkPar := { model := m, unknownHit := fl.testBit 0, outHit := fl.testBit 1, margin := f32Rat (f32At c.params 4)
                                floorZ := f32Rat (f32At c.params 8), step := s.chkStep (f32At c.params 12) }
          let js := paths.zipIdx.map fun p => Job.mk (.check c.id p.2) c.deadline par p.1.2
          { s with pln := { s.pln with
            jobs := s.pln.jobs ++ js
            checks := s.pln.checks ++ [{ cmd := c.id, results := res, firstClear := fl.testBit 2, left := n }] } }

def execPlanCheck (dt id : Nat) (s : State) : Host.Outcome State Fault Refusal := runCmd dt id 0x0504 planCheck s

/-- A path of a PLAN_CHECK has been checked or skipped: its result, and after the last the end of the command and the tag that the results
carry, R274, which no layout holds (log entry 57). -/
def State.checkDone (s : State) (cmd path : Nat) (skip : Bool) (h : Option Hit) : State :=
  match s.pln.checks.find? fun k => k.cmd == cmd with
  | none => s
  | some k =>
    let s := s.store (k.results + 32 * path) (resultBytes (if skip then 2 else if h.isSome then 1 else 0) (s.reg .plnGridGen).toNat h)
    let k := { k with left := k.left - 1, clear := k.clear + (if skip || h.isSome then 0 else 1), hits := k.hits + (if h.isSome then 1 else 0),
                      tag := if skip then k.tag else s.pln.tag }
    if k.left = 0 then
      let tags := (s.pln.resultTags.filter fun e => e.1 != k.results) ++ [(k.results, tagOut [k.tag])]
      let s := { s with pln := { s.pln with checks := s.pln.checks.filter fun x => x.cmd != cmd, resultTags := tags } }
      (s.setResult cmd 0x20 (leBytes 2 k.clear ++ leBytes 2 k.hits)).setVerdict cmd 0
    else { s with pln := { s.pln with checks := updFirst (fun x => x.cmd == cmd) (fun _ => k) s.pln.checks } }

/-! PLAN_SEARCH, R275 to R279 -/

def LPrim.parse (b : Bytes) : LPrim :=
  { h0 := numAt b 0 1, h1 := numAt b 1 1, dx := sgn 16 (numAt b 4 2), dy := sgn 16 (numAt b 6 2), cost := f32Rat (f32At b 8)
    poses := (List.range (numAt b 2 1)).map fun i =>
      (f32Rat (f32At b (0x10 + 12 * i)), f32Rat (f32At b (0x14 + 12 * i)), f32Rat (f32At b (0x18 + 12 * i))) }

def lprimOk (b : Bytes) : Bool :=
  decide (numAt b 0 1 ≤ 15 ∧ numAt b 1 1 ≤ 15 ∧ 1 ≤ numAt b 2 1 ∧ numAt b 2 1 ≤ 4) && finiteAt b 8 1 && decide (0 < f32Rat (f32At b 8)) &&
  finiteAt b 0x10 (3 * numAt b 2 1)

/-- A bin of 2π / 16. -/
def binAngle (h : Nat) : Rat := (h : Rat) * piRat / 8

/-- The heading bin nearest a yaw. -/
def headBin (yaw : Rat) : Nat := ((yaw * 8 / piRat + 1 / 2).floor % 16).toNat

def yawQuat (a : Rat) : Quat := ⟨cosRat (a / 2), 0, 0, sinRat (a / 2)⟩

/-- The bytes of a tensor that lie one after another from its base. -/
def Desc.dense (d : Desc) : Nat :=
  (d.outer.foldl (fun (n : Nat × Bool) i => if n.2 ∧ d.stride i = n.1 then (n.1 * d.ext i, true) else (n.1, d.ext i == 1 && n.2)) (d.rowBytes, true)).1

/-- The fields of a search in range. -/
def State.searchOk (s : State) (c : Cmd) : Bool :=
  let b := c.params
  let lat := c.p 0x21 1 == 0
  decide (c.p 0x21 1 ≤ 1 ∧ c.p 0x22 1 ≤ 3 ∧ c.p 0x23 1 ≤ 7 ∧ 1 ≤ c.p 0x50 2 ∧ c.p 0x50 2 ≤ (if lat = true then 1024 else 256) ∧ 2 ≤ c.p 0x52 2 ∧
    c.p 0x52 2 ≤ 1024 ∧ c.p 0x5C 4 ≤ 10000000 ∧ c.deadline ≠ 0) && inF32 (f32At b 4) 0 1 && finiteAt b 0x10 4 &&
  (match f32? (f32At b 0x1C) with | some q => decide (s.gridEdge ≤ q) | none => false) && inF32 (f32At b 0x20) (1 / 50) (315 / 100) &&
  finiteAt b 0x24 1 && s.stepOk (f32At b 0x34) && inF32 (f32At b 0x38) (1 / 100) 20

/-- The start column is (0, 0): nodes count cells from the start. -/
def Search.startNode (r : Search) : SNode := { cx := 0, cy := 0, h := headBin r.start.q.mat.yaw, g := 0, parent := 0, prim := 0 }

/-- The pose of a node, at the height and with the link poses of the start. -/
def Search.way (r : Search) (edge : Rat) (n : SNode) : Way :=
  if n.cx = 0 ∧ n.cy = 0 ∧ n.h = r.startNode.h then r.start
  else { pos := r.start.pos.add ⟨edge * (n.cx : Rat), edge * (n.cy : Rat), 0⟩, q := yawQuat (binAngle n.h), links := r.start.links }

/-- The node that a primitive leads to. -/
def SNode.after (n : SNode) (p : LPrim) (parent prim : Nat) : SNode :=
  { cx := n.cx + p.dx, cy := n.cy + p.dy, h := p.h1, g := n.g + p.cost, parent := parent, prim := prim }

/-- The waypoints of an edge after its start node; a primitive's poses are offsets along the grid axes and from its start heading
(log entry 56). -/
def Search.edgeWays (r : Search) (edge : Rat) (n : SNode) (p : LPrim) : List Way :=
  let w := r.way edge n
  (p.poses.map fun q => { w with pos := w.pos.add ⟨q.1, q.2.1, 0⟩, q := yawQuat (binAngle n.h + q.2.2) }) ++ [r.way edge (n.after p 0 0)]

/-- The path back to the start, start first. -/
def Search.trace (r : Search) (edge : Rat) : Nat → Nat → List Way
  | 0, _ => [r.start]
  | fuel + 1, i =>
    match r.nodes[i]? with
    | none => [r.start]
    | some n =>
      if i = 0 then [r.start]
      else
        match r.nodes[n.parent]?, r.prims[n.prim]? with
        | some q, some p => r.trace edge fuel n.parent ++ r.edgeWays edge q p
        | _, _ => [r.start]

/-- t_off along a lattice path, from v_nom, in µs. -/
def timed (v : Rat) : Rat → V3 → List Way → List Way
  | _, _, [] => []
  | d, at_, w :: r =>
    let d := d + (w.pos.sub at_).norm
    { w with tOff := (d / v * 1000000).floor.toNat } :: timed v d w.pos r

/-- Whether a node is within tolerance of the goal. -/
def Search.reached (r : Search) (edge : Rat) (n : SNode) : Bool :=
  let w := r.way edge n
  let dx := w.pos.x - r.goal.x
  let dy := w.pos.y - r.goal.y
  let d := binAngle n.h - r.goal.z
  let turns := (d / (2 * piRat) + 1 / 2).floor
  decide (dx * dx + dy * dy ≤ r.posTol * r.posTol) && decide (absR (d - 2 * piRat * (turns : Rat)) ≤ r.yawTol)

/-- The least cost per metre of the primitives that move. -/
def Search.perMetre (r : Search) (edge : Rat) : Rat :=
  match (r.prims.filter fun p => p.dx != 0 || p.dy != 0).map fun p => p.cost / (edge * sqrtRat ((p.dx * p.dx + p.dy * p.dy : Int) : Rat)) with
  | [] => 0
  | q :: l => l.foldl (fun (m : Rat) x => if x < m then x else m) q

/-- Cost so far and the Euclidean heuristic. -/
def Search.est (r : Search) (edge : Rat) (n : SNode) : Rat :=
  let w := r.way edge n
  n.g + r.perMetre edge * (V3.mk (w.pos.x - r.goal.x) (w.pos.y - r.goal.y) 0).norm

/-- The open node of least estimate. -/
def Search.best (r : Search) (edge : Rat) : Option Nat :=
  (r.nodes.zipIdx.foldl (fun (b : Option (Rat × Nat)) e =>
    if e.1.closed then b
    else match b with
      | none => some (r.est edge e.1, e.2)
      | some x => if r.est edge e.1 < x.1 then some (r.est edge e.1, e.2) else b) none).map (·.2)

def State.updSearch (s : State) (cmd : Nat) (f : Search → Search) : State :=
  { s with pln := { s.pln with searches := updFirst (fun r => r.cmd == cmd) f s.pln.searches } }

/-- A search is over: it and its jobs leave. -/
def State.dropSearch (s : State) (cmd : Nat) : State :=
  { s with pln := { s.pln with
    searches := s.pln.searches.filter fun r => r.cmd != cmd
    jobs := s.pln.jobs.filter fun j => j.use.cmd != cmd } }

/-- EXHAUSTED, R277. -/
def State.searchNoPath (s : State) (r : Search) : State :=
  ((s.countSearch 8).raise 0x0502 s.gridOwner (evData [r.expanded])).failCmd r.cmd 0x60 |>.dropSearch r.cmd

/-- TIMEOUT, R277. -/
def State.searchLate (s : State) (r : Search) : State :=
  ((s.countSearch 16).raise 0x0503 s.gridOwner (evData [r.expanded, r.invalid])).failCmd r.cmd 0x61 |>.dropSearch r.cmd

/-- SELECTED: the revalidation job is queued, R278. -/
def State.searchSelect (s : State) (r : Search) (path : List Way) (cost : W32) : State :=
  let s := s.updSearch r.cmd fun r => { r with state := .selected, path := path, cost := cost }
  { s with pln := { s.pln with
    jobs := (s.pln.jobs.filter fun j => j.use.cmd != r.cmd) ++ [Job.mk (.revalidate r.cmd) r.deadline r.par path] } }

/-- SEARCHING begins, with an empty node store or every candidate in ascending cost. -/
def State.searchBegin (s : State) (r : Search) : State :=
  if r.lattice then s.updSearch r.cmd fun r => { r with state := .searching, nodes := [r.startNode] }
  else
    let s := s.updSearch r.cmd fun r => { r with state := .searching }
    { s with pln := { s.pln with
      jobs := s.pln.jobs ++ r.cands.zipIdx.map fun (k : Cand × Nat) => Job.mk (.candidate r.cmd k.2) r.deadline r.par k.1.path } }

/-- One step of a search that has no job in the queue. -/
def State.searchStep (s : State) (r : Search) : State :=
  let e := s.gridEdge
  if !r.lattice then s.searchNoPath r
  else
    match r.best e with
    | none => s.searchNoPath r
    | some i =>
      let n := r.nodes.getD i r.startNode
      let way := r.trace e r.nodes.length i
      let path := timed r.vNom 0 r.start.pos (if way.length < 2 then way ++ way else way)
      let s := s.updSearch r.cmd fun x => { x with nodes := x.nodes.modify i fun n => { n with closed := true } }
      if r.reached e n ∧ path.length ≤ r.maxWp then s.searchSelect r path (f32Of n.g)
      else
        let s := s.updSearch r.cmd fun x => { x with expanded := x.expanded + 1 }
        let js := (r.prims.zipIdx.filter fun p => p.1.h0 == n.h).map fun p =>
          Job.mk (.expand r.cmd i p.2) r.deadline r.par (r.way e n :: r.edgeWays e n p.1)
        { s with pln := { s.pln with jobs := s.pln.jobs ++ js } }

/-- Searches run one at a time in acceptance order: the first goes on until it waits for a job, R275, R277. -/
def State.pumpSearch (s : State) : Nat → State
  | 0 => s
  | fuel + 1 =>
    match s.pln.searches with
    | [] => s
    | r :: _ =>
      if !(s.isRunning r.cmd) then (s.dropSearch r.cmd).pumpSearch fuel
      else if r.state = .queued then (s.searchBegin r).pumpSearch fuel
      else if r.state = .searching ∧ !(s.pln.jobs.any fun j => j.use.cmd == r.cmd) then (s.searchStep r).pumpSearch fuel
      else s

/-- Enough steps for the searches that wait and the nodes of one. -/
def State.pumpPln (s : State) : State := s.pumpSearch (4 * s.pln.searches.length + 1000000)

/-- Candidates in ascending cost. -/
def insCand (c : Cand) : List Cand → List Cand
  | [] => [c]
  | x :: r => if f32Rat c.cost < f32Rat x.cost then c :: x :: r else x :: insCand c r

def sortCands (l : List Cand) : List Cand := l.foldl (fun (a : List Cand) c => insCand c a) []

def planSearch (c : Cmd) (s : State) : State :=
  let b := c.params
  let n := c.p 0x50 2
  match s.model? (c.p 0x20 1) with
  | none => s.failCmd c.id (if !s.gridOn || s.foreignGrid c.part then stNotPermitted else stBadParam)
  | some m =>
    s.firstFail c [(!s.gridOn || s.foreignGrid c.part, stNotPermitted), (!(s.searchOk c), stBadParam)] fun s =>
      match s.readDesc c (c.p 0x28 8), s.readDesc c (c.p 0x60 8) with
      | .error st, _ => s.failCmd c.id st
      | _, .error st => s.failCmd c.id st
      | .ok ds, .ok dout =>
        let lat := c.p 0x21 1 == 0
        let sb := s.rdSeen ds.base (wayBytes m.links)
        s.firstFail c [(decide (ds.dense < wayBytes m.links ∨ dout.dense < 0x40 + wayBytes m.links * c.p 0x52 2 ∨ ds.dev ≠ 255 ∨ dout.dev ≠ 255), stBadParam),
            ((s.plnAccess c false ds.base (wayBytes m.links)).isSome || (s.plnAccess c true dout.base dout.dense).isSome, stRange),
            (!(wayOk m.links sb), stBadParam)] fun s =>
          s.withTable c (c.p 0x48 8) (if lat then 64 * n else 16 * n) fun t s =>
            let rows := (List.range n).map fun i => cut t (64 * i) 64
            let cands := if lat then .ok [] else s.readPaths c m.links (c.p 0x52 2) (pathHeads t n)
            match cands with
            | .error st => s.failCmd c.id st
            | .ok ps =>
              if lat && !(rows.all lprimOk) then s.failCmd c.id stBadParam
              else
                let par : ChkPar := { model := c.p 0x20 1, unknownHit := (c.p 0x22 1).testBit 0, outHit := (c.p 0x22 1).testBit 1
                                      margin := f32Rat (f32At b 4), floorZ := f32Rat (f32At b 0x24), step := s.chkStep (f32At b 0x34) }
                let r : Search := {
                  cmd := c.id, deadline := c.deadline, reserve := if c.p 0x5C 4 = 0 then 1000000 else c.p 0x5C 4, lattice := lat
                  retries := c.p 0x23 1, par := par, start := Way.parse m.links sb, startTag := ds.tag, goal := V3.at b 0x10
                  posTol := f32Rat (f32At b 0x1C), yawTol := f32Rat (f32At b 0x20), vNom := f32Rat (f32At b 0x38), maxWp := c.p 0x52 2
                  out := dout.addr, outBase := dout.base, prims := if lat then rows.map LPrim.parse else []
                  cands := sortCands (ps.map fun p => Cand.mk p.1 p.2) }
                let s := (s.setMark dout.addr false).wr dout.base (leBytes 4 0)
                ({ s with pln := { s.pln with searches := s.pln.searches ++ [r] } }).pumpPln

def execPlanSearch (dt id : Nat) (s : State) : Host.Outcome State Fault Refusal := runCmd dt id 0x0505 planSearch s

/-- SEARCH_TIMEOUT: TB0 reaches deadline − reserve_ns while the search is SEARCHING. -/
def searchTimeout (id : Nat) (s : State) : State :=
  match s.pln.searches.find? fun r => r.cmd == id with
  | some r => if r.state = .searching ∧ s.isRunning id ∧ r.deadline ≤ s.now + r.reserve then (s.searchLate r).pumpPln.settle else s
  | none => s

def execSearchTimeout (dt id : Nat) (s : State) : Host.Outcome State Fault Refusal := runEvent dt (searchTimeout id) s

/-- The node store's size, R276. -/
def nodeStore : Nat := 262144

/-- An edge has been checked: a clear one adds its node, or betters the node it leads to. -/
def State.edgeDone (s : State) (r : Search) (node prim : Nat) (hit : Bool) : State :=
  match r.nodes[node]?, r.prims[prim]? with
  | some n, some p =>
    let m := n.after p node prim
    if hit then s
    else match r.nodes.findIdx? fun x => x.cx == m.cx && x.cy == m.cy && x.h == m.h with
      | some i => s.updSearch r.cmd fun x => { x with nodes := x.nodes.modify i fun o => if m.g < o.g then m else o }
      | none =>
        if nodeStore ≤ r.nodes.length then (s.failCmd r.cmd 0x26).dropSearch r.cmd
        else s.updSearch r.cmd fun x => { x with nodes := x.nodes ++ [m] }
  | _, _ => s

/-- The path record but for its magic, R279. -/
def Search.record (r : Search) (links gen : Nat) (tag : Tag) : Bytes :=
  leBytes 4 0 ++ leBytes 2 r.path.length ++ leBytes 1 links ++ leBytes 1 r.par.model ++ leBytes 8 r.startTag.inst ++ leBytes 8 gen ++
  leBytes 4 r.cost.toNat ++ leBytes 1 r.invalid ++ List.replicate 3 0 ++ tag.bytes ++ List.replicate 16 0 ++ r.path.flatMap Way.bytes

/-- A revalidation has ended, R278: published under the hold, or invalidated. -/
def State.revalidated (s : State) (r : Search) (h : Option Hit) : State :=
  let gen := (s.reg .plnGridGen).toNat
  match h with
  | some h =>
    let r := { r with invalid := r.invalid + 1 }
    let s := (s.countSearch 24).raise 0x0504 s.gridOwner (evData [h.seg, h.prim, gen])
    let s := s.updSearch r.cmd fun x => { x with invalid := x.invalid + 1, path := [] }
    if r.invalid ≤ r.retries ∧ s.now + r.reserve < r.deadline then s.searchBegin r else s.searchLate r
  | none =>
    let links := match s.model? r.par.model with | some m => m.links | none => 0
    let s := s.store r.outBase (r.record links gen (tagOut [s.pln.tag, r.startTag]))
    let ins := [s.pln.tag, r.startTag]
    let s := s.updCmd r.cmd fun c => { c with ins := ins, outs := [r.out] }
    let s := s.updSearch r.cmd fun x => { x with state := .revalidating, gen := gen }
    (s.setResult r.cmd 0x20 (leBytes 4 r.path.length ++ leBytes 4 r.expanded ++ leBytes 1 r.invalid ++ List.replicate 3 0 ++
      leBytes 4 r.cost.toNat ++ leBytes 8 gen)).setVerdict r.cmd 0

/-- The commit of a search: magic, the published path and its stop record, R277, R279, R281. -/
def commitSearch (c : Cmd) (s : State) : State :=
  match s.pln.searches.find? fun r => r.cmd == c.id with
  | none => s.complete c.id 0
  | some r =>
    let s := if c.discard then s.complete c.id 0
      else
        let s := (s.wr r.outBase (leBytes 4 0x504C4E50)).countSearch 0
        let s := { s with pln := { s.pln with pub := some ⟨r.startTag.inst, r.path⟩, stopDue := s.pln.stopDue + 1 } }
        s.complete c.id (s.doneStatus c)
    (s.dropSearch c.id).pumpPln

/-! The stop service, R280 to R282 -/

def planStopConfig (c : Cmd) (s : State) : State :=
  let b := c.params
  let ring := c.p 0x20 8
  let n := c.p 0x28 1
  let m := c.p 0x29 1
  let ok := decide (2 ≤ n ∧ n ≤ 16 ∧ c.p 0x2A 1 ≤ 1) && (s.model? m).isSome && inF32 (f32At b 0x0C) (1 / 10) 20 && inF32 (f32At b 0x10) 0 1 &&
    finiteAt b 0x14 1
  s.firstFail c [(!s.gridOn || s.foreignGrid c.part, stNotPermitted), (!ok, stBadParam), (ring % 4096 != 0, stAlignment),
      (!(s.writeRange c.part ring (4096 * n)), stRange)] fun s =>
    let k : StopCfg := { on := true, ring := ring, slots := n, model := m, unknownHit := (c.p 0x2A 1).testBit 0, decel := f32Rat (f32At b 0x0C)
                         margin := f32Rat (f32At b 0x10), floorZ := f32Rat (f32At b 0x14) }
    (({ s with pln := { s.pln with stop := k } }).setReg .plnStopSeq 0).done c

def execPlanStopConfig (dt id : Nat) (s : State) : Host.Outcome State Fault Refusal := runCmd dt id 0x0506 planStopConfig s

/-- The pose at a TB0 offset along a timed path, in µs. -/
def pathAtTime (us : Nat) : List Way → Option Way
  | v :: w :: r =>
    if us ≤ w.tOff then some (if w.tOff ≤ v.tOff ∨ us ≤ v.tOff then v else v.mix w (((us - v.tOff : Nat) : Rat) / ((w.tOff - v.tOff : Nat) : Rat)))
    else pathAtTime us (w :: r)
  | [w] => some w
  | [] => none

/-- The rest of a timed path from an offset on, its pose there first. -/
def pathFrom (us : Nat) (l : List Way) : List Way :=
  match pathAtTime us l with
  | some w => w :: l.filter fun x => decide (us < x.tOff)
  | none => []

/-- The pose at a distance along a path; its end when it is shorter. -/
def pathAtDist (d : Rat) : List Way → Way
  | v :: w :: r =>
    let len := (w.pos.sub v.pos).norm
    if d ≤ len then (if len = 0 then v else v.mix w (d / len)) else pathAtDist (d - len) (w :: r)
  | [w] => w
  | [] => {}

/-- The time in µs at which a stop from v at constant deceleration has covered x. -/
def brakeTime (v a x : Rat) : Nat := ((v - sqrtRat (v * v - 2 * a * x)) / a * 1000000).floor.toNat

/-- Builds, checks and writes the stop record that is due. -/
def State.buildStop (s : State) : State :=
  let k := s.pln.stop
  let s := { s with pln := { s.pln with stopDue := s.pln.stopDue - 1 } }
  if !k.on then s
  else
    let tau := s.pln.tag.inst
    let seq := (s.reg .plnStopSeq).toNat
    let e := s.gridEdge
    let src := match s.pln.pub with
      | some p => if p.start ≤ tau ∧ tau ≤ p.start + 1000 * ((p.path.getLast?.map (·.tOff)).getD 0) then pathFrom ((tau - p.start) / 1000) p.path else []
      | none => []
    let ego := (s.pln.ego.getD {})
    let v2 := ego.v.dot ego.v
    let v := sqrtRat v2
    let dist := v2 / (2 * k.decel)
    let bad := s.pln.ego.isNone
    let n := if bad then 1 else Nat.min 64 (Nat.max 2 ((if e = 0 then 0 else -((-(dist / e)).floor)).toNat + 1))
    let at_ := fun (x : Rat) =>
      if bad then { pos := s.pln.lastPose.p, q := s.pln.lastPose.q }
      else if src.isEmpty then
        ({ pos := ego.p.add (ego.q.mat.app ⟨if ego.v.x < 0 then -x else x, 0, 0⟩), q := ego.q } : Way)
      else { pathAtDist x src with links := [] }
    let path := (List.range n).map fun (i : Nat) =>
      let x := if n ≤ 1 then 0 else dist * (i : Rat) / ((n - 1 : Nat) : Rat)
      { at_ x with tOff := brakeTime v k.decel x }
    let par : ChkPar := { model := k.model, unknownHit := k.unknownHit, outHit := false, margin := k.margin, floorZ := k.floorZ, step := e / 2 }
    let m : BodyModel := match s.model? k.model with | some m => { m with prims := m.prims.filter fun p => p.link == 0 } | none => ⟨0, []⟩
    let h := s.checkPath m par path
    let s := s.countJob h.isSome
    let hd := match h with | some h => if n ≤ 1 then 0 else dist * ((h.seg : Rat) + h.frac) / ((n - 1 : Nat) : Rat) | none => 0
    let fl := (if h.isSome then 1 else 0) + (if src.isEmpty || bad then 0 else 2) + (if bad then 4 else 0) + (if k.unknownHit then 8 else 0)
    let rec_ := leBytes 4 0x504C4E53 ++ leBytes 2 n ++ leBytes 2 fl ++ leBytes 8 seq ++ leBytes 8 tau ++ leBytes 8 (s.reg .plnGridGen).toNat ++
      s.pln.tag.bytes ++ f32Bytes v ++ f32Bytes dist ++ f32Bytes hd ++ leBytes 4 0 ++ path.flatMap Way.base
    let slot := k.ring + 4096 * (seq % Nat.max 1 k.slots)
    let q := Req.part s.gridOwner
    let s := (match s.access q .other true slot rec_.length with
      | some st => s.reportAccess q .other true 23 slot rec_.length st
      | none => s.store slot rec_).setReg .plnStopSeq (BitVec.ofNat 64 (seq + 1))
    if h.isSome then (s.countSat .plnStopHits 0 32).raiseLim 0x0505 0 s.gridOwner (evData [tau, (f32Of hd).toNat]) else s

/-- STOP_RECORD_BUILD: a stop record is due, and no fill or write is in front of it, R273, R281. -/
def stopRecordBuild (s : State) : State := if s.pln.stopDue = 0 then s else s.buildStop

def execStopRecordBuild (dt : Nat) (s : State) : Host.Outcome State Fault Refusal := runEvent dt stopRecordBuild s

/-! CHECK_JOB, R273 -/

/-- Whether job a is served before job b. -/
def Job.before (a b : Job) : Bool :=
  let key := fun (j : Job) => if j.deadline = 0 then 2 ^ 64 else j.deadline
  decide (key a < key b) || (key a == key b && decide (a.use.cmd < b.use.cmd))

/-- The next job: earliest deadline, then acceptance, then queue order. -/
def nextJob (l : List Job) : Option Job :=
  match l with
  | [] => none
  | j :: r => some (r.foldl (fun (b : Job) x => if x.before b then x else b) j)

/-- The jobs without the first that equals one. -/
def dropJob (j : Job) : List Job → List Job
  | [] => []
  | x :: r => if x = j then r else x :: dropJob j r

/-- Whether an earlier path of a first_clear check was CLEAR, so that a path is skipped. -/
def State.skips (s : State) (cmd : Nat) : Bool := s.pln.checks.any fun k => k.cmd == cmd && k.firstClear && decide (0 < k.clear)

/-- What a finished job brings. -/
def State.jobDone (s : State) (j : Job) (skip : Bool) (h : Option Hit) : State :=
  match j.use, s.pln.searches.find? fun r => r.cmd == j.use.cmd with
  | .check c p, _ => s.checkDone c p skip h
  | .expand _ n p, some r => s.edgeDone r n p h.isSome
  | .candidate _ i, some r =>
    (match h, r.cands[i]? with
     | none, some k => s.searchSelect r k.path k.cost
     | _, _ => s.updSearch r.cmd fun r => { r with expanded := r.expanded + 1 })
  | .revalidate _, some r => s.revalidated r h
  | _, none => s

/-- CHECK_JOB: the checker's next job against the present generation; jobs wait for fills and writes that are due. A stop job comes
first. -/
def checkJob (s : State) : State :=
  if s.pln.stopDue ≠ 0 then s.buildStop
  else if !s.pln.fills.isEmpty || !s.waitingWrites.isEmpty then s
  else
    match nextJob s.jobs with
    | none => s
    | some j =>
      let s := { s with pln := { s.pln with jobs := dropJob j s.pln.jobs } }
      match s.model? j.par.model with
      | none => s
      | some m =>
        let skip := s.skips j.use.cmd
        let h := if skip then none else s.checkPath m j.par j.path
        let s := if skip then s else s.countJob h.isSome
        (s.jobDone j skip h).pumpPln.settle

def execCheckJob (dt : Nat) (s : State) : Host.Outcome State Fault Refusal := runEvent dt checkJob s

/-! Registers that are computed, and status, R283, R284 -/

def State.plnGridStat (s : State) : W64 :=
  let wait := !s.pln.fills.isEmpty || !s.waitingWrites.isEmpty
  let q := Nat.min 255 s.jobs.length
  BitVec.ofNat 64 ((if s.hold then 2 ^ 30 else 0) + (if wait then 2 ^ 29 else 0) + (if wait then q * 256 else 0) + q)

/-- PLAN_STATUS: bytes 0x00 to 0x3B of the PLN block. -/
def planStatus (c : Cmd) (s : State) : State :=
  let r4 := fun (r : Reg) => leBytes 4 (s.reg r).toNat
  let r8 := fun (r : Reg) => leBytes 8 (s.reg r).toNat
  s.doneWith c (r4 .plnGridCtl ++ leBytes 4 s.plnGridStat.toNat ++ r4 .plnGridEdge ++ leBytes 4 0 ++ r4 .plnGridOrgX ++ r4 .plnGridOrgY ++
    r4 .plnGridOrgZ ++ leBytes 4 0 ++ r8 .plnGridGen ++ r8 .plnGridTagT ++ r4 .plnGridScroll ++ r4 .plnGridSkip ++ r4 .plnGridWaitNs)

def execPlanStatus (dt id : Nat) (s : State) : Host.Outcome State Fault Refusal := runCmd dt id 0x0507 planStatus s

end Sys2Proof.Machine
end

