-- ==== Sys2Proof/Machine/Restart.lean ====
section
/-! DEFINITION. Partition restarts (R117, R121, R438) and safe states (R437, R438), and their rows. -/
namespace Sys2Proof.Machine

/-- A restart of the owner clears the pins, cancels the spills in flight and stops the walks, chapter 13. -/
def State.restartKv (s : State) (p : Nat) : State :=
  if s.fldOf .mmvKvCtl 31 1 = 1 ∧ s.fldOf .mmvKvCtl 28 3 = p then
    let s := s.kv.pages.foldl (fun (s : State) e =>
      if e.2.state = 2 then
        (s.setKvPage (e.1 / 0x1000000) (e.1 % 0x1000000) { e.2 with state := 1 }).countSat (.mmvKvSpill (e.1 / 0x1000000)) 16 16
      else s) s
    ({ s with kv := { s.kv with walks := [], names := s.kv.names.filter fun e => s.isRunning e.1 } }).kvSync
  else s

/-- A restart of partition p begins, R121: its commands end FAILED, its launch entries are cancelled, its services restart. A
partition that was stopping ends DEFINED (R117). P0 is never restarted. -/
def State.beginRestart (s : State) (p cause : Nat) (cmd : Option Nat) (toDefined : Bool) : State :=
  if p = 0 ∨ s.partState p = .restarting ∨ s.partState p = .undefined ∨ s.partState p = .defined then s
  else
    let stopping := s.partState p == .stopping
    let s := (s.setPart p { s.part p with
      restart := some { cause := cause, at_ := s.ns, toDefined := toDefined || stopping, cmd := cmd } }).toState p .restarting
    let s := if s.isMotion p then s.trigger 0 s.fbMode else s
    let s := s.chargeJobs fun j => j.part == p
    let s := s.ccx.cmds.foldl (fun (s : State) c => if c.part = p ∧ c.noPart = false then s.failCmd c.id 0x1A else s) s
    let s := (((s.cancelGey p).flushStreams p).restartChurn p).pumpPln
    ((s.restartKv p).unpark p).settle

/-- The safe-state entries of a partition in the last 60 s. -/
def State.entriesOf (s : State) (p : Nat) : List Nat := (s.part p).entries.filter fun t => decide (s.ns < t + 60000000000)

/-- A trigger of R437 reaches a partition, R438. The event is raised at once where nothing is restarted, else at the restart's end,
with the triggers that came meanwhile (log entry 62). -/
def State.enterSafe (s : State) (p trig : Nat) : State :=
  if p = 0 ∨ s.partState p = .undefined ∨ s.partState p = .defined then s.raise 0x0806 p (evData [p, trig, 2])
  else
    let l := s.entriesOf p ++ [s.ns]
    let s := (s.setPart p { s.part p with entries := l, safe := (s.part p).safe ++ [trig] }).setFldOf (.ssiPartSafe p) 20 4 (Nat.min 15 l.length)
    let s := s.setFldOf (.ssiPartSafe p) 16 4 trig
    if s.partState p = .restarting then s
    else
      let stop := decide (s.ssi.policy.safeMax < l.length)
      let s := s.setPart p { s.part p with safeStop := stop }
      let s := if stop then s.setFldOf .ssiSafeStat (8 + p) 1 1 else s.setFldOf .ssiSafeStat (16 + p) 1 1
      let s := if s.isMotion p then s.trigger 5 3 else s
      s.beginRestart p 2 none stop

/-- A restart ends: the partition is ACTIVE or DEFINED, EV_PART_RESTARTED tells it but where a safe state only stopped it (R438), its
standing configuration holds again (log entry 63), and what waited for the restart ends. -/
def State.endRestart (s : State) (p : Nat) : State :=
  match s.partState p, (s.part p).restart with
  | .restarting, some r =>
    let x := s.part p
    let dur := s.ns - r.at_
    let s := s.setPart p { x with restart := none, stop := none, safe := [], safeStop := false, checked := if x.safe.isEmpty then x.checked else [] }
    let s := if x.safe.isEmpty then s else (s.setFldOf (.ssiPartSafe p) 24 8 0).setFldOf .ssiSafeStat (16 + p) 1 0
    let s := s.toState p (if r.toDefined then .defined else .active)
    let s := if x.safeStop then s else s.raise 0x0111 p (evData [p, r.cause, dur])
    let s := match x.safe with
      | [] => s
      | t :: more => s.raise 0x0806 p (evData ([p, t, if x.safeStop then 1 else 0] ++ more))
    let s := if s.isMotion p then (s.clearTrigger 0).clearTrigger 5 else s
    let s := (List.range 4).foldl (fun (s : State) j => if s.schedOn j ∧ s.schedOwner j = p ∧ r.toDefined = false then s.resumeSched j 3 else s) s
    let s := match r.cmd with
      | some id => (s.setResult id 0x20 (leBytes 8 dur)).finish id (match s.cmd? id with | some c => s.doneStatus c | none => 0)
      | none => s
    let s := match x.stop with
      | some k => (s.setResult k.cmd 0x20 (leBytes 4 k.ended ++ leBytes 4 k.failed ++ leBytes 1 (if k.timedOut then 1 else 0))).failCmd k.cmd
          (if k.timedOut then 0x19 else 0x1A)
      | none => s
    s.settle
  | _, _ => s

/-- PARTITION_RESTART_END: R121, R439. -/
def execPartitionRestartEnd (dt p : Nat) (s : State) : Host.Outcome State Fault Refusal := runEvent dt (fun s => s.endRestart p) s

/-- CTRL_PART_RESTART: R117. It commits when EV_PART_RESTARTED is raised. -/
def ctrlPartRestart (c : Cmd) (s : State) : State :=
  let p := c.p 0x20 1
  s.firstFail c [(p = 0, stNotPermitted), (7 < p, stBadParam), (s.partState p != .active && s.partState p != .paused, stPartState)]
    fun s => s.beginRestart p 0 (some c.id) false

def execCtrlPartRestart (dt id : Nat) (s : State) : Host.Outcome State Fault Refusal := runCmd dt id 0x0113 ctrlPartRestart s

end Sys2Proof.Machine
end

