-- ==== Sys2Proof/Machine/Checks.lean ====
section
/-! DEFINITION. Starter frames, starter pairs and core retirement: R126, R286, R287, R434 to R436, with their rows. -/
namespace Sys2Proof.Machine

def State.setTar (s : State) (f : Tar → Tar) : State := { s with tar := f s.tar }
def State.updJob (s : State) (seq : Nat) (f : TJob → TJob) : State :=
  s.setTar fun t => { t with jobs := updFirst (fun j => j.seq == seq) f t.jobs }

/-- The checker slot of a physical core, R436. -/
def State.slotOf (s : State) (p : Nat) : Option Nat := s.checkers.findIdx? fun q => q == p

/-! Core retirement, R126 -/

/-- Whether a checker core runs a starter or a rerun, which a promotion waits for. -/
def State.checkerBusy (s : State) (p : Nat) : Bool :=
  match s.slotOf p with
  | some k => (s.tar.starters.any fun r => r.slot == k) || s.tar.jobs.any fun j => j.rerun == 2 && j.rerunSlot == k
  | none => false

/-- The work on a core is abandoned: what had started starts again, and its reruns are dropped (R126, R434). -/
def State.abandon (s : State) (l : Nat) : State :=
  let lost := (s.tar.jobs.filter fun j => j.core == l && (j.rerun == 1 || j.rerun == 2)).length
  (s.setTar fun t => { t with jobs := t.jobs.map fun (j : TJob) =>
    if j.core = l then { j with started := false, ran := false, tiles := 0, pick := 0, shadowBad := 0, disagrees := false, rerun := 0 } else j }).addSat .ssiChkSkip 0 32 lost

/-- Descriptors of a core that is gone: chosen ones move to another core, named ones fail (R304). -/
def State.rehome (s : State) (l : Nat) : State :=
  (s.tar.jobs.filter fun j => j.core == l).foldl (fun (s : State) j =>
    if numAt j.raw 2 1 = 0xFF then
      match s.chooseCore j.part with
      | some m => s.updJob j.seq fun x => { x with core := m }
      | none => s.failCmd j.cmd stNotPermitted
    else s.failCmd j.cmd stNotPermitted) s

/-- The core is marked RETIRED and no longer mapped. -/
def State.dropCore (s : State) (p : Nat) : State :=
  let s := (s.setFldOf .tarRoles (2 * p) 2 2).modReg .tarCoreRetired fun v => setBit v p true
  match s.logicalOf p with
  | some l => s.setFldOf .tarLmap (4 * l) 4 0xF
  | none => s

/-- Retires a physical core: an active one is replaced by the spare given, or by none; a checker is not replaced. -/
def State.retireNow (s : State) (cmd : Option Nat) (p : Nat) (spare : Option Nat) : State :=
  let l := (s.logicalOf p).getD 0xF
  let n := (s.tar.jobs.filter fun j => j.core == l && j.started).length
  let s := (s.abandon l).dropCore p
  let s := match spare with
    | some q =>
      let lq := s.logicalOf q
      let s := (s.setFldOf .tarRoles (2 * q) 2 0).setFldOf .tarLmap (4 * l) 4 q
      match lq with
      | some m => s.setFldOf .tarLmap (4 * m) 4 0xF
      | none => s
    | none => (s.rehome l).pruneTar
  let s := (s.raise 0x0121 0 (evData [p, spare.getD 0xFF])).checkerLost
  match cmd with
  | some id => (s.setResult id 0x20 (leBytes 1 (spare.getD 0xFF) ++ leBytes 3 0 ++ leBytes 4 n)).finish id
      (match s.cmd? id with | some c => s.doneStatus c | none => 0)
  | none => s

/-- The next retirement that waits and can go on: the lowest idle CHECKER core is the spare (log entry 65). -/
def State.pumpRetire (s : State) : State :=
  s.tar.retires.foldl (fun (s : State) r =>
    if s.coreRole r.phys = 2 then s.setTar fun t => { t with retires := t.retires.filter fun x => x.phys != r.phys }
    else
      let spare := if r.promote then s.checkers.find? fun q => !(s.checkerBusy q) else none
      let go := !r.promote || spare.isSome || s.checkers.isEmpty
      let busy := s.coreRole r.phys == 1 && s.checkerBusy r.phys
      if go && !busy then
        (s.setTar fun t => { t with retires := t.retires.filter fun x => x.phys != r.phys }).retireNow r.cmd r.phys spare
      else s) s

/-- A retirement is asked for: with promotion while two non-active cores remain. -/
def State.retire (s : State) (cmd : Option Nat) (p : Nat) : State :=
  if s.coreRole p = 2 ∨ (s.tar.retires.any fun r => r.phys == p) = true then s
  else
    let promote := s.coreRole p == 0 && decide (2 ≤ s.checkers.length)
    (s.setTar fun t => { t with retires := t.retires ++ [Retire.mk cmd p promote] }).pumpRetire

/-- CTRL_CORE_RETIRE: R126. -/
def ctrlCoreRetire (c : Cmd) (s : State) : State :=
  let p := c.p 0x20 1
  let force := (c.p 0x21 1).testBit 0
  s.firstFail c [(decide (13 < p), stBadParam), (s.coreRole p == 2 || s.tar.retires.any fun r => r.phys == p, stBadParam),
    (decide (s.checkers.length < 2) && !force, 0x63)] fun s => s.retire (some c.id) p

def execCtrlCoreRetire (dt id : Nat) (s : State) : Host.Outcome State Fault Refusal := runCmd dt id 0x0128 ctrlCoreRetire s

/-! Starter frames, R435, R436 -/

/-- The next starter set in turn that is usable. -/
def State.starterSet (s : State) : Option Nat :=
  let n := s.ssi.starters.length
  (List.range n).findSome? fun i =>
    let k := (s.tar.starterNext + i) % n
    match s.ssi.starters[k]? with
    | some x => if x.bad then none else some k
    | none => none

/-- A starter begins in a place: a checker slot, or 16 + an active core. -/
def State.beginStarter (s : State) (slot closes : Nat) (pair : Bool) : State :=
  match s.starterSet with
  | none => s
  | some k =>
    let s := s.setTar fun t => { t with starters := t.starters ++ [{ slot := slot, set := k, opened := s.now, closes := closes, pair := pair }]
                                        starterNext := k + 1 }
    if slot < 2 then s.countWrap (.ssiStarterStat slot) 16 16 1 else s

/-- A starter pair runs for a core and, after a disagreement of a rerun, for its checker, R434, R436. -/
def State.startPair (s : State) (p : Nat) (slot : Option Nat) (part : Nat) (frame : Bool) : State :=
  if !s.configured || s.starterSet.isNone || s.tar.pairs.any (fun x => x.core == p) then s
  else
    let s := s.setTar fun t => { t with pairs := t.pairs ++ [{ core := p, checker := slot, part := part, frame := frame }] }
    let s := s.beginStarter (16 + p) 0 true
    match slot with
    | some k => s.beginStarter k 0 true
    | none => s

/-- What a pair shows, R434: nothing retired, or each side that failed. -/
def State.judgePair (s : State) (x : StarterPair) : State :=
  match x.active, (if x.checker.isSome then x.side else some true) with
  | some a, some b =>
    let s := s.setTar fun t => { t with pairs := t.pairs.filter fun y => y.core != x.core }
    let chk := x.checker.map fun k => s.fldOf (.ssiStarterCore k) 0 4
    if a && b then (s.countSat .ssiChkCnt 0 16).raise 0x0803 x.part (evData ([x.part, x.core] ++ chk.toList))
    else
      let s := if a then s else s.retire none x.core
      let s := match chk with
        | some q => if b then s else s.retire none q
        | none => s
      if !a && !b && x.checker.isSome then s.enterSafe x.part 2 else s
  | _, _ => s

/-- STARTER_WINDOW_OPEN: slot k's windows open at starter_phase + n × starter_period_ns, slot 1's half a period later. -/
def starterWindowOpen (k : Nat) (s : State) : State :=
  let y := s.ssi.policy
  let n := sget 0 s.ssi.slotNext k
  let open_ := y.starterPhase + n * y.starterPeriod + (if k = 1 then y.starterPeriod / 2 else 0)
  let skip := (s.now - open_) / Nat.max 1 y.starterPeriod
  if s.configured ∧ k < s.checkers.length ∧ k < 2 ∧ open_ ≤ s.now then
    let s := s.setSsi fun x => { x with slotNext := sset 0 x.slotNext k (n + skip + 1) }
    if s.tar.starters.any fun r => r.slot == k then s
    else s.beginStarter k (open_ + skip * y.starterPeriod + y.starterLen + s.fldOf (.mmvArbCtl 56) 0 13 * 1000 + 1000) false
  else s

def execStarterWindowOpen (dt slot : Nat) (s : State) : Host.Outcome State Fault Refusal := runEvent dt (starterWindowOpen slot) s

/-- Whether an element of value a is in band against its reference r, R430. -/
def Band.inBand (b : Band) (a r : FVal) : Bool :=
  let open_ := Config.bandFree b.absTol b.relTol a.bits32 r.bits32
  match a, r, f32? b.absTol, f32? b.relTol with
  | .nan, .nan, _, _ => b.nanEq
  | .nan, _, _, _ => false
  | _, .nan, _, _ => false
  | .fin _ x, .fin _ y, some t, some u => decide (absR (x - y) ≤ t + u * absR y)
  | .inf _, .fin _ _, some _, some _ => false
  | _, _, _, _ => open_

/-- Whether `bad` elements out of band of n disagree: beyond bad_ppm, rounded down, at least one, R430. -/
def Band.disagrees (b : Band) (n bad : Nat) : Bool := decide (Nat.max 1 (b.ppm * n / 1000000) < bad)

/-- The elements out of band among pairs of a written and a reference value. -/
def Band.outOf (b : Band) (l : List (W32 × W32)) : Nat := (l.filter fun e => !(b.inBand (f32Val e.1) (f32Val e.2))).length

/-- Whether a starter's output agrees with the expected output of its set, R435, R436: elements in the format of the last descriptor's
primary output; one that is missing is out of band. -/
def State.starterAgrees (s : State) (x : StarterSet) (out : Bytes) : Bool :=
  let raw := s.rd (x.listAddr + 128 * (x.n - 1)) 128
  let d := numAt raw (((opOuts (numAt raw 0 1)).headD 0) % 0x100) 8
  let fmt := numAt (s.rd d 128) 8 1
  let want := unpackCodes fmt (s.rd x.expectAddr x.expectLen)
  let got := unpackCodes fmt out
  let bad := (want.zipIdx.filter fun e => match got[e.2]? with
    | some c => !(x.band.inBand (fmtVal fmt c) (fmtVal fmt e.1))
    | none => true).length
  !(x.band.disagrees want.length bad)

/-- STARTER_COMPLETE: the starter of a slot ends and passes when its output agrees with the expected one. -/
def starterComplete (slot : Nat) (out : Bytes) (s : State) : State :=
  match s.tar.starters.find? fun r => r.slot == slot with
  | none => s
  | some r =>
    let agrees := match s.ssi.starters[r.set]? with
      | some x => s.starterAgrees x out
      | none => false
    let s := s.setTar fun t => { t with starters := t.starters.filter fun x => x.slot != slot }
    let p := if slot < 16 then s.fldOf (.ssiStarterCore slot) 0 4 else slot - 16
    let s := if r.late then s.raise 0x0805 0 (evData [slot, s.now - r.closes]) else s
    let s := if agrees then s
      else (if slot < 2 then s.countSat (.ssiStarterStat slot) 0 8 else s).raise 0x0804 0 (evData [p, if slot < 16 then 1 else 0, r.set])
    let s :=
      if r.pair then
        (s.setTar fun t => { t with pairs := t.pairs.map fun (x : StarterPair) =>
          if slot = 16 + x.core then { x with active := some agrees } else if x.checker = some slot ∧ x.side = none then { x with side := some agrees } else x })
          |> fun s => s.tar.pairs.foldl State.judgePair s
      else if agrees then s
      else s.retire none p
    s.pumpRetire.settle

def execStarterComplete (dt slot : Nat) (out : Bytes) (s : State) : Host.Outcome State Fault Refusal :=
  runEvent dt (starterComplete slot out) s

/-- STARTER_WINDOW_CLOSE: the window of a slot closes with its starter unfinished; the starter is counted late. -/
def starterWindowClose (k : Nat) (s : State) : State :=
  match s.tar.starters.find? fun r => r.slot == k && !r.pair && !r.late with
  | some r =>
    if r.closes ≤ s.now then
      (s.setTar fun t => { t with starters := t.starters.map fun (x : StarterRun) => if x.slot = k then { x with late := true } else x }).countSat
        (.ssiStarterStat k) 8 8
    else s
  | none => s

def execStarterWindowClose (dt slot : Nat) (s : State) : Host.Outcome State Fault Refusal := runEvent dt (starterWindowClose slot) s

/-- The inputs that a starter list names and its expected output, R435: the rows of every input tensor in list order, then the output. -/
def State.starterBytes (s : State) (x : StarterSet) : Bytes :=
  let one := fun (i : Nat) =>
    let raw := s.rd (x.listAddr + 128 * i) 128
    let op := numAt raw 0 1
    let outs := opOuts op
    ((opDescs op).filter fun o => !(outs.contains o.1) && decide (o.1 < 0x100) && !(o.2 && numAt raw o.1 8 == 0)).flatMap fun o =>
      let d := Desc.parse (numAt raw o.1 8) (s.rd (numAt raw o.1 8) 128)
      d.rows.flatMap fun a => s.rd a d.rowBytes
  (List.range x.n).flatMap one ++ s.rd x.expectAddr x.expectLen

def State.digestOk (s : State) (x : StarterSet) : Bool := Config.shake256 (s.starterBytes x) 16 == x.digest

/-- STARTER_DIGEST_CHECK: once per hour; a set that fails is not used again until the next cold reset. -/
def starterDigestCheck (s : State) : State :=
  if s.configured ∧ s.ssi.digestAt + 3600000000000 ≤ s.ns then
    let s := s.setSsi fun x => { x with digestAt := s.ns }
    s.ssi.starters.zipIdx.foldl (fun (s : State) e =>
      if e.1.bad || s.digestOk e.1 then s
      else (s.setSsi fun x => { x with starters := x.starters.zipIdx.map fun (y : StarterSet × Nat) => if y.2 = e.2 then { y.1 with bad := true } else y.1 }).raise
        0x0804 0 (evData [0xF, 2, e.2])) s
  else s

def execStarterDigestCheck (dt : Nat) (s : State) : Host.Outcome State Fault Refusal := runEvent dt starterDigestCheck s

end Sys2Proof.Machine
end

