-- ==== Sys2Proof/Machine/Links.lean ====
section
/-! DEFINITION. Device numbers, routes and Chamerline ports: R326 to R333, R339, R340, with the link rows. -/
namespace Sys2Proof.Machine

def State.setMmv (s : State) (f : Mmv → Mmv) : State := { s with mmv := f s.mmv }
def State.port (s : State) (p : Nat) : Port := sget {} s.mmv.ports p
def State.modPort (s : State) (p : Nat) (f : Port → Port) : State :=
  s.setMmv fun m => { m with ports := sset {} m.ports p (f (s.port p)) }

/-- The training state of a port, R329. -/
def State.linkState (s : State) (p : Nat) : Nat := s.fldOf (.mmvLinkStat p) 24 3
def State.linkTo (s : State) (p st : Nat) : State := s.setFldOf (.mmvLinkStat p) 24 3 st
def State.linkReason (s : State) (p r : Nat) : State := s.setFldOf (.mmvLinkStat p) 0 4 r
def State.linkEn (s : State) (p : Nat) : Bool := s.fldOf (.mmvLinkCtl p) 31 1 == 1
def State.autoRetrain (s : State) (p : Nat) : Bool := s.fldOf (.mmvLinkCtl p) 30 1 == 1
def State.devNum (s : State) : Nat := s.fldOf .mmvDevNum 0 5

/-- Whether new traffic may use a port: UP, not frozen for a retrain, not disabled (R332, R333, R507). -/
def State.portOpen (s : State) (p : Nat) : Bool :=
  decide (p < 8) && s.linkState p == 5 && s.fldOf (.mmvLinkStat p) 31 1 == 0 && !(s.ccx.funcs.any fun f => f.kind == 8 && f.idx == p)

/-- The port of a device's route: the primary while it is UP, else the alternate, R327. -/
def State.linkRoute (s : State) (d : Nat) : Option Nat :=
  let a := s.fldOf (.mmvRoute d) 0 4
  let b := s.fldOf (.mmvRoute d) 4 4
  if s.portOpen a then some a else if s.portOpen b then some b else none

/-- The status of a command whose peer has no route: an AUTH_FAILED port says so, R327, R329. -/
def State.noRoute (s : State) (d : Nat) : Nat :=
  let a := s.fldOf (.mmvRoute d) 0 4
  if a < 8 ∧ s.linkState a = 7 then 0x72 else 0x70

/-- Payload bytes leave on a port. -/
def State.linkTx (s : State) (p n : Nat) : State := s.countWrap (.mmvLinkTxBytes p) 0 64 n

/-- Writes bytes into a peer's memory over its route. -/
def State.peerWrite (s : State) (d part addr : Nat) (b : Bytes) : State :=
  match s.linkRoute d with
  | some p => (s.linkTx p b.length).emit (.linkSend p part addr b)
  | none => s

/-- The commands whose traffic is in flight on a port. -/
def State.onPort (s : State) (p : Nat) : List Nat := (s.mmv.peers.filter fun e => e.2.2 == p && s.isRunning e.1).map (·.1)

/-- A port leaves UP: it is told, and commands with traffic in flight end FAILED unless the traffic was drained, chapter 12. -/
def State.linkDown (s : State) (p reason : Nat) (drained : Bool) : State :=
  let s := ((s.linkReason p reason).setFldOf (.mmvLinkStat p) 16 3 0).raise 0x0702 0 (evData [p, reason])
  let s := s.modPort p fun x => { x with since := s.ns, keys := [], gcmAt := [] }
  if drained then s else (s.onPort p).foldl (fun s id => s.failCmd id 0x71) s

/-- A retrain command on the port ends FAILED, and so do the commands that waited for it, R333. -/
def State.retrainFail (s : State) (p st : Nat) : State :=
  match s.mmv.retrains.find? fun r => r.port == p && r.training with
  | some r =>
    let s := (s.setMmv fun m => { m with retrains := m.retrains.filter fun x => x.cmd != r.cmd }).setFldOf (.mmvLinkStat p) 31 1 0
    let s := s.freeze (48 + p) false
    (s.onPort p).foldl (fun s id => s.failCmd id 0x71) (s.failCmd r.cmd st)
  | none => s

/-- A port enters AUTH_FAILED, R329. -/
def State.authFailed (s : State) (p reason : Nat) : State :=
  (((s.linkTo p 7).linkReason p reason).raise 0x0703 0 (evData [p, reason])).retrainFail p 0x72

/-- A port enters EQUALIZE from RETRAIN, or DETECT from DOWN and AUTH_FAILED. -/
def State.linkRestart (s : State) (p st : Nat) : State := (s.linkTo p st).modPort p fun x => { x with since := s.ns }

/-! Keys, R330, R331 -/

/-- The IDENTIFY bytes of one side, R329: set identifier, device, port, nonce. -/
def identBytes (setId dev port : Nat) (nonce : Bytes) : Bytes := leBytes 8 setId ++ leBytes 1 dev ++ leBytes 1 port ++ nonce

/-- The 64 key bytes of R330: each pair ordered by ascending device number. -/
def State.linkKeys (s : State) (p : Nat) (x : Port) : Bytes :=
  let own := s.devNum
  let pair := fun (a b : Bytes) => if own < x.peerDev then a ++ b else b ++ a
  Config.shake256 (Config.linkKey ++ [0x43, 0x48, 0x4D, 0x4C] ++ leBytes 8 Config.setId.toNat ++ pair x.nonce x.peerNonce ++
    pair (leBytes 1 own) (leBytes 1 x.peerDev) ++ pair (leBytes 1 p) (leBytes 1 x.peerPort)) 64

/-- The key of a direction: low to high is the first half. -/
def State.dirKey (s : State) (x : Port) (tx : Bool) : Bytes :=
  if (s.devNum < x.peerDev) = (tx = true) then x.keys.take 32 else x.keys.drop 32

/-- The confirmation tag over the IDENTIFY transcript, own part first for the sender. -/
def State.confirmTag (s : State) (p : Nat) (x : Port) (tx : Bool) : Bytes :=
  let a := identBytes Config.setId.toNat s.devNum p x.nonce
  let b := identBytes Config.setId.toNat x.peerDev x.peerPort x.peerNonce
  (Config.gcmSeal (s.dirKey x tx) [] (if tx then a ++ b else b ++ a) []).2

/-! Training rows, R329 -/

/-- A retrain that ends in DETECT after its 50 ms fails, R333. -/
def State.detectTimeout (s : State) (p : Nat) : State :=
  match s.mmv.retrains.find? fun r => r.port == p && r.training with
  | some r => if r.downAt + 50000000 ≤ s.ns then s.retrainFail p 0x71 else s
  | none => s

/-- LINK_DETECT_RETRY: no signal on any lane; the port goes on retrying. -/
def linkDetectRetry (p : Nat) (s : State) : State := if s.linkState p = 1 then (s.linkReason p 1).detectTimeout p else s

def execLinkDetectRetry (dt port : Nat) (s : State) : Host.Outcome State Fault Refusal := runEvent dt (linkDetectRetry port) s

/-- LINK_SIGNAL_DETECT: DETECT → EQUALIZE. -/
def execLinkSignalDetect (dt port : Nat) (s : State) : Host.Outcome State Fault Refusal :=
  runEvent dt (fun s => if s.linkState port = 1 then s.linkTo port 2 else s) s

/-- LINK_EQUALIZE_DONE: the widest width that equalised, or none; IDENTIFY sends the identification in clear. -/
def linkEqualizeDone (p : Nat) (w : Option Nat) (s : State) : State :=
  if s.linkState p ≠ 2 then s
  else
    let least := match s.fldOf (.mmvLinkCtl p) 28 2 with | 2 => 2 | 3 => 4 | _ => 1
    match w with
    | some n =>
      if least ≤ n ∧ (n = 1 ∨ n = 2 ∨ n = 4) then
        let r := s.draw 32
        let s := (r.2.linkTo p 3).modPort p fun x => { x with width := n, nonce := r.1 }
        s.emit (.linkIdent p (identBytes Config.setId.toNat s.devNum p r.1))
      else ((s.linkTo p 1).linkReason p 2).detectTimeout p
    | none => ((s.linkTo p 1).linkReason p 2).detectTimeout p

def execLinkEqualizeDone (dt port : Nat) (width : Option Nat) (s : State) : Host.Outcome State Fault Refusal :=
  runEvent dt (linkEqualizeDone port width) s

/-- LINK_IDENTIFY_RX: IDENTIFY → AUTH, or AUTH_FAILED with reason 3 or 5. -/
def linkIdentifyRx (p : Nat) (peer : LinkPeer) (s : State) : State :=
  if s.linkState p ≠ 3 then s
  else if peer.setId ≠ Config.setId ∨ peer.setId = 0 ∨ Config.setId = 0 then s.authFailed p 3
  else if peer.dev = s.devNum then s.authFailed p 5
  else
    let x := { s.port p with peerDev := peer.dev, peerPort := peer.port, peerNonce := peer.nonce }
    let x := { x with keys := s.linkKeys p x }
    ((s.linkTo p 4).modPort p fun _ => x).emit (.linkIdent p (s.confirmTag p x true))

def execLinkIdentifyRx (dt port : Nat) (peer : LinkPeer) (s : State) : Host.Outcome State Fault Refusal :=
  runEvent dt (linkIdentifyRx port peer) s

/-- A retrain whose port is UP again commits, R333 step 4. -/
def State.retrainDone (s : State) (p : Nat) : State :=
  match s.mmv.retrains.find? fun r => r.port == p && r.training with
  | some r =>
    let down := s.ns - r.downAt
    let s := (s.setMmv fun m => { m with retrains := m.retrains.filter fun x => x.cmd != r.cmd }).setFldOf (.mmvLinkStat p) 31 1 0
    let s := s.freeze (48 + p) false
    let s := s.raise 0x0706 0 (evData [p, down])
    (s.setResult r.cmd 0x20 (leBytes 8 down)).finish r.cmd (match s.cmd? r.cmd with | some c => s.doneStatus c | none => 0)
  | none => s

/-- LINK_AUTH_CONFIRM: AUTH → UP when the peer's tag verifies, else AUTH_FAILED with reason 4. -/
def linkAuthConfirm (p : Nat) (tag : Bytes) (s : State) : State :=
  if s.linkState p ≠ 4 then s
  else
    let x := s.port p
    if tag ≠ s.confirmTag p x false then s.authFailed p 4
    else
      let s := ((s.linkTo p 5).setFldOf (.mmvLinkStat p) 16 3 x.width).linkReason p 0
      let s := (s.setReg (.mmvLinkPeer p) (setFld (setFld (0 : W64) 0 5 x.peerDev) 8 3 x.peerPort)).countWrap (.mmvLinkTrain p) 0 16 1
      let s := (s.raise 0x0701 0 (evData [p, x.width, x.peerDev, x.peerPort])).modPort p fun x => { x with gcmAt := [] }
      let s := if x.width < 4 then s.raise 0x0704 0 (evData [p]) else s
      s.retrainDone p

def execLinkAuthConfirm (dt port : Nat) (tag : Bytes) (s : State) : Host.Outcome State Fault Refusal :=
  runEvent dt (fun s => (linkAuthConfirm port tag s).settle) s

/-- LINK_LOSS_OF_LOCK: UP → RETRAIN; with auto_retrain the port returns to DETECT at once (log entry 67). -/
def linkLossOfLock (p : Nat) (s : State) : State :=
  if s.linkState p = 5 then
    let s := s.linkDown p 0 false
    if s.autoRetrain p then s.linkRestart p 1 else s.linkRestart p 6
  else s

def execLinkLossOfLock (dt port : Nat) (s : State) : Host.Outcome State Fault Refusal := runEvent dt (fun s => (linkLossOfLock port s).settle) s

/-- 8 GCM failures within 1 ms force a retrain, R329. -/
def State.gcmFail (s : State) (p : Nat) : State :=
  let s := (s.countSat (.mmvLinkErr p) 16 16).countSat (.mmvLinkRetry p) 0 32
  let l := ((s.port p).gcmAt.filter fun t => decide (s.ns < t + 1000000)) ++ [s.ns]
  let s := s.modPort p fun x => { x with gcmAt := l }
  if 8 ≤ l.length then ((s.raise 0x0705 0 (evData [p])).linkDown p 6 false).linkRestart p 2 else s

/-- The payload bytes of a body. -/
def flitBytes : FlitBody → Nat
  | .write _ _ b => b.length
  | .kvSequence _ _ _ _ _ _ _ _ _ l => (l.map List.length).sum
  | .forward _ _ n => n
  | .kvReply _ _ _ => 0
  | .control => 0

/-- A command that a receiver's status ends, R372. -/
def State.kvReplied (s : State) (peer mid st : Nat) : State :=
  s.ccx.cmds.foldl (fun (s : State) c =>
    if c.code = 0x075A ∧ c.p 0x24 1 = peer ∧ c.p 0x28 4 = mid ∧ s.isRunning c.id = true then
      if st = 0 then s.updCmd c.id fun x => { x with verdict := some 0 } else s.failCmd c.id st
    else s) s

/-- LINK_FLIT_RX: R331, R327, R317. -/
def linkFlitRx (p : Nat) (chk : FlitCheck) (body : FlitBody) (s : State) : State :=
  if s.linkState p ≠ 5 then s
  else match chk with
    | .fecFail => (s.countSat (.mmvLinkErr p) 0 16).countSat (.mmvLinkRetry p) 0 32
    | .gcmFail => s.gcmFail p
    | .good =>
      let s := s.countWrap (.mmvLinkRxBytes p) 0 64 (flitBytes body)
      match body with
      | .write part a b =>
        (match s.access (.part part) .other true a b.length with
        | some st => s.reportAccess (.part part) .other true 3 a b.length st
        | none => s.store a b)
      | .kvSequence peer mid ptok layers heads d fmt len tag pages =>
        s.setKv fun k => { k with inbox := k.inbox ++ [{ peer := peer, matchId := mid, ptok := ptok, layers := layers, heads := heads, d := d
                                                         fmt := fmt, len := len, tag := Tag.ofBytes (leBytes 8 tag.1.toNat ++ leBytes 8 tag.2.toNat), pages := pages }] }
      | .kvReply peer mid st => s.kvReplied peer mid st
      | .forward dev hops n =>
        if 4 ≤ hops then s.raiseLim 0x070B p 0 (evData [dev])
        else (match s.linkRoute dev with | some q => s.linkTx q n | none => s)
      | .control => s

def execLinkFlitRx (dt port : Nat) (chk : FlitCheck) (body : FlitBody) (s : State) : Host.Outcome State Fault Refusal :=
  runEvent dt (fun s => (linkFlitRx port chk body s).settle) s

/-- LINK_REKEY: fresh nonces under R330 after every 2^32 flits; counted. -/
def linkRekey (p : Nat) (nonce : Bytes) (s : State) : State :=
  if s.linkState p = 5 then
    let r := s.draw 32
    let x := { s.port p with nonce := r.1, peerNonce := nonce }
    (r.2.modPort p fun _ => { x with keys := s.linkKeys p x }).countWrap (.mmvLinkTrain p) 16 16 1
  else s

def execLinkRekey (dt port : Nat) (peerNonce : Bytes) (s : State) : Host.Outcome State Fault Refusal := runEvent dt (linkRekey port peerNonce) s

/-! Link commands, R332, R333, R341 -/

/-- The route table, R327. -/
def State.setRoutes (s : State) (b : Bytes) : State :=
  (List.range 24).foldl (fun (s : State) d => s.setReg (.mmvRoute d) (BitVec.ofNat 64 (numAt b d 1))) s

/-- Enables or disables a port. -/
def State.setPort (s : State) (p : Nat) (en auto_ : Bool) (w : Nat) : State :=
  let v := setFld (setFld (setFld (0 : W64) 31 1 (if en then 1 else 0)) 30 1 (if auto_ then 1 else 0)) 28 2 (if w = 4 then 3 else w)
  let s := s.setReg (.mmvLinkCtl p) v
  if en then (if s.linkState p = 0 ∨ s.linkState p = 7 then s.linkRestart p 1 else s)
  else
    let s := if s.linkState p = 5 then s.linkDown p 0 false else s
    (s.retrainFail p 0x71).linkTo p 0

/-- MOVE_LINK_CONFIG: R332. -/
def moveLinkConfig (c : Cmd) (s : State) : State :=
  let p := c.p 0x20 1
  let dev := c.p 0x22 1
  let w := c.p 0x23 1
  let ra := c.p 0x28 8
  let past := (List.range 8).any fun q => decide (2 ≤ s.linkState q)
  let go := fun (s : State) =>
    let s := s.setReg .mmvDevNum (setFld (setBit (0 : W64) 7 true) 0 5 dev)
    (if p = 0xFF then s else s.setPort p ((c.p 0x21 1).testBit 0) ((c.p 0x21 1).testBit 1) w).done c
  s.firstFail c [(decide ((7 < p ∧ p ≠ 0xFF) ∨ 23 < dev ∨ (p ≠ 0xFF ∧ w ≠ 1 ∧ w ≠ 2 ∧ w ≠ 4)), stBadParam), (past && s.devNum != dev, stBusy)] fun s =>
    if ra = 0 then go s else s.withTable c ra 24 fun b s => go (s.setRoutes b)

def execMoveLinkConfig (dt id : Nat) (s : State) : Host.Outcome State Fault Refusal := runCmd dt id 0x0730 moveLinkConfig s

/-- MOVE_LINK_RETRAIN: R333, steps 1 and 2. A port in AUTH_FAILED goes to DETECT (R329). -/
def moveLinkRetrain (c : Cmd) (s : State) : State :=
  let p := c.p 0x20 1
  let mode := c.p 0x21 1
  let ms := c.p 0x24 4
  s.firstFail c [(decide (7 < p ∨ 1 < mode ∨ 10000 < ms), stBadParam), (s.mmv.retrains.any fun r => r.port == p, stBusy), (!(s.linkEn p), 0x71)] fun s =>
    let s := (s.freeze (48 + p) true).setFldOf (.mmvLinkStat p) 31 1 1
    let s := if mode = 1 then (s.onPort p).foldl (fun s id => s.updCmd id fun x => { x with discard := true }) s else s
    s.setMmv fun m => { m with retrains := m.retrains ++ [{ cmd := c.id, port := p, due := c.acceptNs + (if ms = 0 then 100 else ms) * 1000000 }] }

def execMoveLinkRetrain (dt id : Nat) (s : State) : Host.Outcome State Fault Refusal := runCmd dt id 0x0731 moveLinkRetrain s

/-- Step 3 of R333 begins: the port leaves for RETRAIN and EQUALIZE, or DETECT when it was not UP. -/
def State.beginTraining (s : State) (r : Retrain) : State :=
  let s := s.setMmv fun m => { m with retrains := updFirst (fun x => x.cmd == r.cmd) (fun x => { x with training := true, downAt := s.ns }) m.retrains }
  if s.linkState r.port = 5 then (s.linkDown r.port 0 true).linkRestart r.port 2
  else if s.linkState r.port = 6 then s.linkRestart r.port 2
  else s.linkRestart r.port 1

/-- LINK_RETRAIN_START: the port's traffic has ended, or the drain timed out and the restarts it caused have ended (R333, R508). -/
def linkRetrainStart (id : Nat) (s : State) : State :=
  match s.mmv.retrains.find? fun r => r.cmd == id && !r.training with
  | some r =>
    let go := (s.onPort r.port).isEmpty || (r.timedOut && !(r.restarted.any fun p => s.partState p == .restarting))
    if go then s.beginTraining r else s
  | none => s

def execLinkRetrainStart (dt id : Nat) (s : State) : Host.Outcome State Fault Refusal := runEvent dt (linkRetrainStart id) s

/-- Bytes 0x00 to 0x27 of a link bank. -/
def State.linkBank (s : State) (p : Nat) : Bytes :=
  leBytes 4 (s.reg (.mmvLinkCtl p)).toNat ++ leBytes 4 (s.reg (.mmvLinkStat p)).toNat ++ leBytes 4 (s.reg (.mmvLinkPeer p)).toNat ++
  leBytes 4 (s.reg (.mmvLinkErr p)).toNat ++ leBytes 4 (s.reg (.mmvLinkRetry p)).toNat ++ leBytes 4 (s.reg (.mmvLinkTrain p)).toNat ++
  leBytes 8 (s.reg (.mmvLinkTxBytes p)).toNat ++ leBytes 8 (s.reg (.mmvLinkRxBytes p)).toNat

/-- MOVE_LINK_STATUS: R341. -/
def moveLinkStatus (c : Cmd) (s : State) : State :=
  if 7 < c.p 0x20 1 then s.failCmd c.id stBadParam else s.doneWith c (s.linkBank (c.p 0x20 1))

def execMoveLinkStatus (dt id : Nat) (s : State) : Host.Outcome State Fault Refusal := runCmd dt id 0x0732 moveLinkStatus s

end Sys2Proof.Machine
end

