-- ==== Sys2Proof/Machine/Tensor.lean ====
section
/-! DEFINITION. The Tensor Array's work: the begin of a command, descriptor starts, tiles, the kernels' rows, the checks' rows, and the
configuration of bands and frame sets: R288 to R312, R349 to R354, R428 to R434. -/
namespace Sys2Proof.Machine

/-! The begin of a command, R98, R100, R290, R303, R354 -/

/-- The (lengths row, KV head) pairs of a dense attention descriptor. -/
def Attn.units (a : Attn) : List (Nat × Nat) :=
  a.rows.zipIdx.flatMap fun r => if r.1.qLen = 0 then [] else (List.range a.hkv).map fun h => (r.2, h)

/-- The (lengths row, page entry) pairs of a paged walk, R362; a row without an earlier page has one entry. -/
def State.walkOf (s : State) (a : Attn) : List (Nat × Nat) :=
  a.rows.zipIdx.flatMap fun r =>
    if r.1.qLen = 0 then []
    else (List.range (Nat.max 1 (ceilDiv (r.1.kvLen - r.1.qLen) (s.tileKeys a)))).map fun p => (r.2, p)

/-- The cores that a command spreads over, R354. -/
def State.spreadCores (s : State) (c : Cmd) (raw : Bytes) (core : Nat) : List Nat :=
  if numAt raw 2 1 = 0xFF ∧ (numAt raw 1 1).testBit 3 = true ∧ numAt raw 0x64 1 = 0 then s.choices c.part else [core]

/-- The output descriptors that a core descriptor names. -/
def State.rawOuts (s : State) (raw : Bytes) : List Nat :=
  let op := numAt raw 0 1
  let at_ := fun (o : Nat) => if 0x100 ≤ o then s.rdNum (numAt raw 0x10 8 + (o - 0x100)) 8 else numAt raw o 8
  ((opOuts op).filter fun o => !((opDescs op).contains (o, true) && at_ o == 0)).map at_

/-- The marks of descriptors that a command may read, at aligned addresses, are cleared, R100 (log entry 88). -/
def State.clearMarks (s : State) (c : Cmd) (l : List Nat) : State :=
  l.foldl (fun (s : State) a => if a % 64 = 0 ∧ s.tableErr c.tableReq a 128 = none then s.setMark a false else s) s

/-- Queues a job at the end or the front of its core's queue. -/
def State.pushJob (s : State) (j : TJob) (front : Bool) : State :=
  s.setTar fun t => { t with jobs := if front then { j with seq := t.nextSeq } :: t.jobs else t.jobs ++ [{ j with seq := t.nextSeq }]
                             nextSeq := t.nextSeq + 1 }

/-- The outputs' marks are cleared, R100. -/
def State.takeOuts (s : State) (pl : Plan) : State := pl.outs.foldl (fun (s : State) o => s.setMark (tdescD pl.ds o).addr false) s

/-- The voxel-set slots that the sparse convolutions of a command name are held until its end, R239: those that hold a set. -/
def State.holdSlots (s : State) (c : Cmd) (raws : List Bytes) : State :=
  raws.foldl (fun (s : State) raw =>
    let a := numAt raw 0x10 8
    if numAt raw 0 1 = 3 ∧ inside a 64 stagingBase stagingSize = true ∧ s.rdNum a 4 = 0x43485653 then
      (s.wr (a + 0x1C) (leBytes 4 (s.rdNum (a + 0x1C) 4 + 1))).setTar fun t => { t with slots := t.slots ++ [(c.id, a)] }
    else s) s

/-- The job of a plan. -/
def Plan.job (pl : Plan) (c : Cmd) (raw : Bytes) (core : Nat) (units : List (Nat × Nat)) : TJob :=
  { cmd := c.id, seq := 0, part := c.part, core := core, raw := raw, ds := pl.ds, outs := pl.outs, units := units, tags := pl.tags
    set := pl.set, band := pl.band, slot := pl.slot, truncated := pl.truncated }

/-- A list dealt over n parts, by turns. -/
def deal {α : Type} (n i : Nat) (l : List α) : List α := (l.zipIdx.filter fun e => e.2 % n == i).map (·.1)

/-- A tensor command becomes RUNNING: its descriptor is read, checked and queued, or the command ends FAILED. -/
def State.beginTensor (s : State) (c : Cmd) : State :=
  if c.code = 0x0604 then
    let list := c.p 0x20 8
    let n := c.p 0x28 2
    if n = 0 ∨ 256 < n then s.failCmd c.id stBadParam
    else s.withTable c list (128 * n) fun b s =>
      let raws := (List.range n).map fun i => cut b (128 * i) 128
      match s.plan c (raws.headD []) true none with
      | (s, .error e) => s.failCmd c.id e
      | (s, .ok pl) =>
        let s := ((s.takeOuts pl).holdSlots c raws).pushJob (pl.job c (raws.headD []) pl.core (s.attnOf (raws.headD []) pl.ds 0).units) false
        s.setTar fun t => { t with chains := t.chains ++ [{ cmd := c.id, core := pl.core, rest := raws.drop 1 }] }
  else
    let raw := cut c.params 0 128
    match s.plan c raw false none with
    | (s, .error e) => s.failCmd c.id e
    | (s, .ok pl) =>
      let s := ((s.takeOuts pl).holdSlots c [raw]).updCmd c.id fun x => { x with ins := pl.tags, outs := pl.outs.map fun o => (tdescD pl.ds o).addr }
      let op := numAt raw 0 1
      if op < 4 then s.pushJob (pl.job c raw pl.core []) false
      else
        let a := s.attnOf raw pl.ds 0
        if a.paged then
          s.setKv fun k => { k with walks := k.walks ++ [{ cmd := c.id, job := pl.job c raw pl.core [], pool := a.pool, todo := s.walkOf a }] }
        else
          let cores := s.spreadCores c raw pl.core
          cores.zipIdx.foldl (fun (s : State) k =>
            let u := deal cores.length k.2 a.units
            if u.isEmpty ∧ k.2 ≠ 0 then s else s.pushJob (pl.job c raw k.1 u) false) s

/-- Whether a tensor command finds an entry free in its core's queue, R290: a full queue keeps it ACCEPTED. -/
def State.tensorRoom (s : State) (c : Cmd) : Bool :=
  let l := if c.code = 0x0604 then s.rdNum (c.p 0x20 8 + 2) 1 else c.p 0x22 1
  match (if l = 0xFF then s.chooseCore c.part else some l) with
  | some l => decide ((s.queued l).length < 64)
  | none => true

/-! Ends of descriptors, R303 -/

/-- A job fails: its command fails with the status. -/
def State.failJob (s : State) (j : TJob) (st : Nat) : State := ((s.chargeJob j).failCmd j.cmd st).settle

/-- The next descriptor of a chain is read, checked and queued at the front of its core's queue. -/
def State.nextInChain (s : State) (ch : Chain) : State :=
  match s.cmd? ch.cmd, ch.rest with
  | some c, raw :: rest =>
    let s := s.setTar fun t => { t with chains := t.chains.map fun (x : Chain) => if x.cmd = ch.cmd then { ch with rest := rest } else x }
    match s.plan c raw true (some ch.core) with
    | (s, .error e) => ((s.clearMarks c (s.rawOuts raw)).failCmd c.id e).settle
    | (s, .ok pl) => (s.takeOuts pl).pushJob (pl.job c raw pl.core (s.attnOf raw pl.ds 0).units) true
  | _, _ => s

/-- A descriptor ends with its verdict: 0 agreed or unchecked, 4 withheld. -/
def State.endJob (s : State) (j : TJob) (st : Nat) : State :=
  let s := s.setTar fun t => { t with jobs := t.jobs.filter fun x => x.seq != j.seq }
  let s := s.countWrap (.tarCoreDone ((s.physOf j.core).getD 0)) 0 32 1
  match s.tar.chains.find? fun x => x.cmd == j.cmd with
  | some ch =>
    let dis := match s.cmd? j.cmd with | some c => c.discard | none => false
    let s := if st = 0 ∧ dis = false then j.outs.foldl (fun (s : State) o => s.publish (tagOut j.tags) (tdescD j.ds o).addr) s else s
    let ch := { ch with done := ch.done + 1, suspect := ch.suspect || st == 4, truncated := ch.truncated || j.truncated }
    let s := s.setResult j.cmd 0x20 (leBytes 2 ch.done)
    if ch.rest.isEmpty then
      (s.setTar fun t => { t with chains := t.chains.filter fun x => x.cmd != j.cmd }).setVerdict j.cmd (if ch.suspect then 4 else if ch.truncated then 3 else 0)
    else s.nextInChain ch
  | none =>
    let s := if st = 4 then s.updCmd j.cmd fun c => { c with outs := [], aux := [4] } else s
    let sus := match s.cmd? j.cmd with | some c => c.aux.contains 4 | none => false
    if (s.tar.jobs.any fun x => x.cmd == j.cmd) || s.kv.walks.any (fun w => w.cmd == j.cmd) then s
    else s.setVerdict j.cmd (if sus then 4 else if j.truncated then 3 else 0)

/-! Cost and start, R120, R121, R290 -/

/-- Macs at the MXE rate in ns at pace 1.00. -/
def mxeNs (macs rate : Nat) : Rat := (macs : Rat) * 2 / (65536 * (Nat.max 1 rate : Nat))

/-- The cost of one page descriptor, R354: the page's K and V of every KV head are read for each tile of 128 query rows, the new tokens join
the tile of the sequence's last page, and the last page bears the writeback (log entry 88). -/
def State.pageCost (s : State) (a : Attn) (u : Nat × Nat) : Rat :=
  let r := a.rows.getD u.1 ⟨0, 0, 0, 0, 0, 0⟩
  let keys := s.tileKeys a
  let last := decide (r.kvLen - r.qLen ≤ (u.2 + 1) * keys)
  let k := if last then r.kvLen - u.2 * keys else keys
  let row := ceilDiv (a.d * fmtBits a.k.fmt) 512 * 64
  let rd := ((2 * a.hkv * Nat.max keys k * row : Nat) : Rat) / 512
  let tiles := (pieces 128 (List.range (r.qLen * a.g))).foldl (fun (t : Rat) q =>
    let pairs := a.hkv * q.length * k
    let mxe := ((4 * a.d * pairs : Nat) : Rat) / (131072 * (pairRate a.k.fmt a.k.fmt : Nat) / 2)
    let vxe := ((4 * pairs : Nat) : Rat) / ((98 / 100 : Rat) * 1024)
    t + (max mxe (max vxe rd) + 120)) 0
  tiles + if last then 156 else 0

/-- The dense cost of a descriptor in ns at pace 1.00, R121. -/
def State.denseCost (s : State) (j : TJob) : Rat :=
  let n := fun o => numAt j.raw o 4
  match numAt j.raw 0 1 with
  | 1 => mxeNs (n 0x10 * n 0x14 * n 0x18 * n 0x1C) (pairRate (numAt j.raw 0x54 1) (numAt j.raw 0x55 1))
  | 2 =>
    let v := numAt j.raw 0x10 1
    let hs := if (1 ≤ v ∧ v ≤ 4) ∨ v = 12 ∨ v = 7 ∨ v = 8 then 1 else 4
    let lanes := if 1 ≤ v ∧ v ≤ 4 ∧ numAt j.raw 0x11 1 = 1 ∧ numAt j.raw 3 1 = 1 then 2048 else 1024
    (n 0x18 * n 0x14 * hs : Nat) / ((98 / 100 : Rat) * (lanes : Nat))
  | 3 =>
    let x := s.spSlot (numAt j.raw 0x10 8) (numAt j.raw 0x20 1)
    mxeNs (x.nPairs * numAt j.raw 0x24 2 * numAt j.raw 0x26 2) (pairRate (numAt j.raw 0x21 1) (numAt j.raw 0x22 1))
  | op =>
    let a := s.attnOf j.raw j.ds 0
    let keys := s.tileKeys a
    let perTile := fun (rows k : Nat) =>
      let pairs := rows * k
      let mxe := (((if op = 4 then 4 else 10) * a.d * pairs : Nat) : Rat) / (131072 * (pairRate a.k.fmt a.k.fmt : Nat) / 2)
      let vxe := (((if op = 4 then 4 else 8) * pairs : Nat) : Rat) / ((98 / 100 : Rat) * 1024)
      let rd := ((2 * k * a.d * fmtBits a.k.fmt / 8 : Nat) : Rat) / 512
      max mxe (max vxe rd) + 120
    if a.paged then j.units.foldl (fun (t : Rat) u => t + s.pageCost a u) 0
    else j.units.foldl (fun (t : Rat) u =>
      let r := a.rows.getD u.1 ⟨0, 0, 0, 0, 0, 0⟩
      t + (pieces 128 (a.qRows r u.2)).foldl (fun (t : Rat) q =>
        t + (pieces keys (List.range r.kvLen)).foldl (fun (t : Rat) k => t + perTile q.length k.length) 0) 0) 156

/-- The time of a descriptor on its core at the core's present probe pace. -/
def State.timeOf (s : State) (j : TJob) : Rat :=
  let p := s.corePace ((s.physOf j.core).getD 0)
  s.denseCost j * 16384 / (if p = 0 then 16384 else (p : Rat))

/-- Whether a core's open window takes a descriptor: its partition's, with the time left. -/
def State.windowTakes (s : State) (j : TJob) : Bool :=
  let w := sget {} s.ccx.winCore j.core
  !(s.inSchedule j.core) || (w.open_ == some j.part && decide (s.timeOf j ≤ (w.closes : Rat) - (s.now : Rat)))

/-- The output and input address ranges of a job. -/
def TJob.outSpans (j : TJob) : List (Nat × Nat) := j.outs.map fun o => (tdescD j.ds o).span
def TJob.spans (j : TJob) : List (Nat × Nat) := j.ds.map fun e => e.2.span

/-- Whether an earlier descriptor still in flight on the core writes where a descriptor reads or writes, R290. -/
def State.hazard (s : State) (j : TJob) : Bool :=
  s.tar.jobs.any fun e => e.core == j.core && e.started && e.seq != j.seq && e.outSpans.any fun a => j.spans.any fun b => spansMeet a b

/-- One of every sample_n checked commands of a frame set is rerun, R433; with one CHECKER core left no more than one of 12. -/
def State.sample (s : State) (j : TJob) : State × Nat :=
  if j.band = 0 then (s, 0)
  else match s.tar.sets.find? fun x => x.part == j.part && x.set == j.set with
    | none => (s, 0)
    | some x =>
      let n := if s.checkers.length = 1 ∧ x.sampleN ≠ 0 then Nat.max 12 x.sampleN else x.sampleN
      let s := s.setTar fun t => { t with sets := updFirst (fun y => y.part == j.part && y.set == j.set) (fun y => { y with count := y.count + 1 }) t.sets }
      (s, if n ≠ 0 ∧ s.checkers.isEmpty = false ∧ (x.count + 1) % n = 0 then 1 else 0)

/-- DESCRIPTOR_START on a logical core: R120, R121, R289, R290, R299. -/
def descriptorStart (l : Nat) (s : State) : State :=
  match (s.queued l).head? with
  | none => s
  | some j =>
    let flying := s.tar.jobs.filter fun e => e.core == l && e.started
    let long := (s.windowsOf j.part l).foldl Nat.max 0
    if !(s.runsOn l) || s.tar.starters.any (fun r => r.slot == 16 + (s.physOf l).getD 0) then s
    else if s.inSchedule l ∧ (long : Rat) < s.timeOf j then s.failJob j 0x36
    else if decide (8 ≤ flying.length) || flying.any (fun e => !e.ran) || s.hazard j || !(s.windowTakes j) then s
    else
      let p := (s.physOf l).getD 0
      let s := match s.tar.rngPend.find? fun e => e.1 == p with
        | some e => s.setTar fun t => { t with rngPend := t.rngPend.filter fun (x : Nat × Bytes) => x.1 != p, rng := (t.rng.filter fun (x : Nat × Bytes) => x.1 != p) ++ [(p, e.2)] }
        | none => s
      let r := s.sample j
      r.1.updJob j.seq fun x => { x with started := true, startedAt := s.ns, rerun := r.2 }

def execDescriptorStart (dt core : Nat) (s : State) : Host.Outcome State Fault Refusal := runEvent dt (descriptorStart core) s

/-! The kernels' rows -/

/-- What a job computes, with its counts; the counter names its free values. -/
def State.kernelOf (s : State) (j : TJob) (ctr : Nat) : Kernel :=
  match numAt j.raw 0 1 with
  | 1 => s.matmul (mmOf j.raw j.ds) ctr
  | 2 => s.vector (vecOf j.raw j.ds) ctr
  | 3 => s.spconv (s.spOf j.raw j.ds) ctr
  | 4 => s.attnFwd (s.attnOf j.raw j.ds ctr) (ctr + 1) j.units (tdescD j.ds 0x28) (tdesc j.ds 0x30)
  | _ => s.attnBwd (bwdOf (s.attnOf j.raw j.ds ctr) j.ds) (ctr + 1) j.units

/-- Adds to a result field. -/
def State.addResult (s : State) (id o n k : Nat) : State :=
  match s.cmd? id with
  | some c => s.setResult id o (leBytes n (numAt c.results (o - 0x20) n + k))
  | none => s

/-- The results of R303, R349 and R352. -/
def State.kernelResults (s : State) (j : TJob) (k : Kernel) : State :=
  if s.tar.chains.any fun x => x.cmd == j.cmd then s
  else match numAt j.raw 0 1 with
    | 1 => (s.addResult j.cmd 0x20 8 k.zero).addResult j.cmd 0x28 8 k.visited
    | 2 => (s.addResult j.cmd 0x20 4 k.sats).addResult j.cmd 0x24 4 k.flushes
    | 3 => s.addResult j.cmd 0x20 4 k.visited
    | 4 => (((s.addResult j.cmd 0x20 8 k.visited).addResult j.cmd 0x28 4 k.tiles).addResult j.cmd 0x2C 4 k.empty).addResult j.cmd 0x30 4
        (match s.kv.fetchedBy.find? fun e => e.1 == j.cmd with | some e => e.2 | none => 0)
    | _ => s.addResult j.cmd 0x20 8 k.visited

/-- The counters and events of a core, R297, R310, R312. -/
def State.kernelCounts (s : State) (j : TJob) (k : Kernel) : State :=
  let p := (s.physOf j.core).getD 0
  let tag := match s.cmd? j.cmd with | some c => c.tag.toNat | none => 0
  let s := ((s.countWrap (.tarCoreBlocks p) 0 64 k.visited).countWrap (.tarCoreZblocks p) 0 64 k.zero).addSat (.tarCoreConv p) 16 16 k.sats
  let s := s.addSat (.tarCoreConv p) 0 16 k.flushes
  let s := if k.sats = 0 then s else s.raiseLim 0x0601 p j.part (evData [p, tag, k.sats])
  if k.flushes = 0 then s else s.raiseLim 0x0602 p j.part (evData [p, tag, k.flushes])

/-- Runs a started job: the tensors are read, the outputs written; unchecked it ends, checked it waits for CHECK_VERDICT. -/
def State.runJob (s : State) (j : TJob) : State :=
  let s := s.chargeOverrun j.core j.part
  let ins := j.ds.filter fun e => !(j.outs.contains e.1) || opReads j.raw e.1
  match ins.findSome? fun e => s.tensorUe e.2 with
  | some a => (s.memUe (.part j.part) (s.coreInput j.core) (s.ueLine a 64)).failJob j 0x25
  | none =>
    let k := s.kernelOf j s.freeCtr
    let s := (({ s with freeCtr := s.freeCtr + 8 }).putRows k).kernelResults j k |>.kernelCounts j k
    let s := s.updJob j.seq fun x => { x with ran := true, ranAt := s.ns }
    if j.band = 0 then s.endJob j 0 else s

/-- The started jobs of a command that have not run. -/
def State.readyJobs (s : State) (id : Nat) : List TJob := s.tar.jobs.filter fun j => j.cmd == id && j.started && !j.ran

/-- A tensor row: every started descriptor of the command runs to its end; what depends on it goes on. -/
def runTensor (code dt id : Nat) (s : State) : Host.Outcome State Fault Refusal :=
  runEvent dt (fun s => match s.cmd? id with
    | some c => if c.state = .running ∧ c.code = code then ((s.readyJobs id).foldl State.runJob (s.start id)).settle else s
    | none => s) s

/-- TENSOR_MATMUL: R305. -/
def execTensorMatmul (dt id : Nat) (s : State) : Host.Outcome State Fault Refusal := runTensor 0x0601 dt id s
/-- TENSOR_VECTOR: R306, R307. -/
def execTensorVector (dt id : Nat) (s : State) : Host.Outcome State Fault Refusal := runTensor 0x0602 dt id s
/-- TENSOR_SPCONV: R238, R308. -/
def execTensorSpconv (dt id : Nat) (s : State) : Host.Outcome State Fault Refusal := runTensor 0x0603 dt id s
/-- TENSOR_CHAIN: R303; each run of the row runs the chain's descriptor in flight. -/
def execTensorChain (dt id : Nat) (s : State) : Host.Outcome State Fault Refusal := runTensor 0x0604 dt id s
/-- ATTN_BWD: R352, R353. -/
def execAttnBwd (dt id : Nat) (s : State) : Host.Outcome State Fault Refusal := runTensor 0x0611 dt id s

/-- A paged ATTN_FWD: started page descriptors are worked through; with the walk done and none left, the command's rows are computed
and written as one job, R350, R362. -/
def State.pagedFwd (s : State) (c : Cmd) : State :=
  let s := (s.readyJobs c.id).foldl (fun (s : State) j => s.chargeOverrun j.core j.part) s
  let s := s.setTar fun t => { t with jobs := t.jobs.map fun (j : TJob) => if j.cmd = c.id ∧ j.started = true then { j with ran := true } else j }
  let mine := s.tar.jobs.filter fun j => j.cmd == c.id
  match s.kv.walks.find? (fun w => w.cmd == c.id), mine.getLast? with
  | some w, some last =>
    if w.todo.isEmpty ∧ mine.all (·.ran) then
      let s := s.setKv fun k => { k with walks := k.walks.filter fun w => w.cmd != c.id }
      let s := s.setTar fun t => { t with jobs := t.jobs.filter fun j => j.cmd != c.id || j.seq == last.seq }
      s.runJob { last with units := (s.attnOf last.raw last.ds 0).units }
    else s
  | _, _ => s

/-- ATTN_FWD: R349 to R351. -/
def execAttnFwd (dt id : Nat) (s : State) : Host.Outcome State Fault Refusal :=
  runEvent dt (fun s => match s.cmd? id with
    | some c =>
      if c.state = .running ∧ c.code = 0x0610 then
        (if s.kv.walks.any fun w => w.cmd == id then (s.start id).pagedFwd c
         else (s.readyJobs id).foldl State.runJob (s.start id)).settle
      else s
    | none => s) s

/-! Tiles, R309, R431, R432 -/

/-- The instants of an event on a core within a span of time. -/
def recentAt (l : List (Nat × List Nat)) (p now span : Nat) : List Nat :=
  ((l.find? fun e => e.1 == p).map (·.2)).getD [] |>.filter fun t => decide (now < t + span)

def setAt (l : List (Nat × List Nat)) (p : Nat) (v : List Nat) : List (Nat × List Nat) := (l.filter fun e => e.1 != p) ++ [(p, v)]

/-- A residue mismatch on a core, R431: counted; above resid_max in one second it is told and a starter pair runs. -/
def State.residue (s : State) (p part : Nat) : State :=
  let l := recentAt s.tar.residAt p s.ns 1000000000 ++ [s.ns]
  let s := (s.setTar fun t => { t with residAt := setAt t.residAt p l }).countSat (.tarCoreResid p) 0 32
  if s.ssi.policy.residMax < l.length then
    ((s.setTar fun t => { t with residAt := setAt t.residAt p [] }).raise 0x0807 0 (evData [p, l.length])).startPair p none part false
  else s

/-- The partitions with a window on a core. -/
def State.windowParts (s : State) (l part : Nat) : List Nat :=
  (part :: (match s.ccx.win with | some w => (w.wins.filter fun x => x.mask.testBit l).map (·.part) | none => [])).eraseDups

/-- An uncorrectable error of a core's memory, R309; past mem_ue_max in one hour the core is retired (R437). -/
def State.coreUe (s : State) (j : TJob) (a : Nat) : State :=
  let p := (s.physOf j.core).getD 0
  let l := recentAt s.tar.memAt p s.ns 3600000000000 ++ [s.ns]
  let parts := s.windowParts j.core j.part
  let s := ((s.setTar fun t => { t with memAt := setAt t.memAt p l }).countSat (.tarCoreEcc p) 0 16).raise 0x0603 j.part (evData [p, a])
  let s := s.failJob j 0x25
  if s.configured ∧ s.ssi.policy.memUeMax < l.length then
    parts.foldl (fun s q => s.enterSafe q 4) ((s.setTar fun t => { t with memAt := setAt t.memAt p [] }).retire none p)
  else s

def State.tolBand (s : State) (p b : Nat) : Band :=
  match (s.part p).bands[b - 1]? with
  | some e => ⟨e.1, e.2.1, e.2.2.1, e.2.2.2⟩
  | none => {}

/-- Which tile of each 16 of a primary output the checker controller shadows, R432: drawn at the first of them (a free value, log entry 95). -/
def State.drawTile (s : State) (j : TJob) : Nat × State :=
  if j.tiles % 16 = 0 then let r := s.fresh; (r.1.toNat % 16, r.2) else (j.pick, s)

/-- A tile of a checked descriptor's primary output has been written: where it is the one picked of its 16, its shadow is compared, R432. -/
def State.shadowTile (s : State) (j : TJob) (r : TileReport) : State :=
  let d := s.drawTile j
  let bd := s.tolBand j.part j.band
  let bad := bd.outOf r.shadow
  d.2.updJob j.seq fun x =>
    if j.tiles % 16 = d.1 then
      { x with tiles := x.tiles + 1, pick := d.1, shadowBad := x.shadowBad + bad
               disagrees := x.disagrees || bd.disagrees r.shadow.length bad }
    else { x with tiles := x.tiles + 1, pick := d.1 }

/-- TILE_COMPLETE on a logical core: the residue check of every descriptor, the shadow of a picked tile, core memory. -/
def tileComplete (l : Nat) (r : TileReport) (s : State) : State :=
  match s.tar.jobs.find? fun j => j.core == l && j.started && !j.ran with
  | none => s
  | some j =>
    let p := (s.physOf l).getD 0
    let s := if r.residueBad || r.recomputeBad then s.residue p j.part else s
    if r.recomputeBad then (s.failJob j 0x64).startPair p none j.part false
    else match r.memBad with
      | some a => s.coreUe j a
      | none => if j.band = 0 ∨ r.primary = false then s else s.shadowTile j r

def execTileComplete (dt core : Nat) (rep : TileReport) (s : State) : Host.Outcome State Fault Refusal := runEvent dt (tileComplete core rep) s

/-! Seeds and status, R299, R303, R310 -/

def State.seedCore (s : State) (p : Nat) (b : Bytes) : State :=
  s.setTar fun t => { t with rngPend := (t.rngPend.filter fun e => e.1 != p) ++ [(p, b)] }

/-- TENSOR_RNG_SEED: R299. -/
def tensorRngSeed (c : Cmd) (s : State) : State :=
  let l := c.p 0x20 1
  let seed := cut c.params 8 16
  s.firstFail c [(leVal seed == 0, stBadParam), (l != 0xFF && (s.physOf l).isNone, stBadParam)] fun s =>
    let ps := if l = 0xFF then List.range 14 else (s.physOf l).toList
    (ps.foldl (fun s p => s.seedCore p seed) s).done c

def execTensorRngSeed (dt id : Nat) (s : State) : Host.Outcome State Fault Refusal := runCmd dt id 0x0605 tensorRngSeed s

/-- RNG_SEED_HI_WRITE on a physical core: commits the seed with the low half held, R310; an all-zero seed is not taken (log entry 60). -/
def rngSeedHiWrite (p : Nat) (v : W64) (s : State) : State :=
  let seed := leBytes 8 (sget 0 s.tar.rngLo p).toNat ++ leBytes 8 v.toNat
  if p < 14 ∧ leVal seed ≠ 0 then s.seedCore p seed else s

def execRngSeedHiWrite (dt core : Nat) (v : W64) (s : State) : Host.Outcome State Fault Refusal := runEvent dt (rngSeedHiWrite core v) s

/-- TAR_CORE_STAT as it reads, R311: busy engines follow the descriptor that issues. -/
def State.coreStat (s : State) (p : Nat) : W64 :=
  let l := (s.logicalOf p).getD 0xF
  let fly := s.tar.jobs.filter fun j => j.core == l && j.started
  let iss := fly.find? fun j => !j.ran
  let mxe := match iss with | some j => numAt j.raw 0 1 != 2 | none => false
  let v := setFld (0 : W64) 29 2 (s.coreRole p)
  let v := setFld (setFld v 23 4 l) 16 7 (Nat.min 64 (s.queued l).length)
  let v := setFld (setFld v 8 4 (Nat.min 8 fly.length)) 31 1 (if fly.isEmpty then 0 else 1)
  let v := setFld (setFld v 4 4 (if mxe then 15 else 0)) 2 2 (if iss.isSome then 3 else 0)
  let v := setBit v 1 (match (s.queued l).head? with | some j => s.hazard j | none => false)
  setBit v 0 (s.tar.rngPend.any fun e => e.1 == p)

/-- Bytes 0x00 to 0x2F of a core bank; its counters read 0 to the host in confidential mode, R310. -/
def State.coreBank (s : State) (p : Nat) : Bytes :=
  let r := fun (n : Nat) (x : Reg) => leBytes n (if s.confidential then 0 else (s.reg x).toNat)
  leBytes 8 (s.coreStat p).toNat ++ leBytes 8 (s.reg (.tarWinOverrunNs p)).toNat ++ r 8 (.tarCoreBlocks p) ++ r 8 (.tarCoreZblocks p) ++
  r 4 (.tarCoreConv p) ++ r 4 (.tarCoreEcc p) ++ r 4 (.tarCoreDone p) ++ r 4 (.tarCoreResid p)

/-- TENSOR_CORE_STATUS: R303. -/
def tensorCoreStatus (c : Cmd) (s : State) : State :=
  match s.physOf (c.p 0x20 1) with
  | some p => s.doneWith c (s.coreBank p)
  | none => s.failCmd c.id stBadParam

def execTensorCoreStatus (dt id : Nat) (s : State) : Host.Outcome State Fault Refusal := runCmd dt id 0x0606 tensorCoreStatus s

/-! Checked commands, R429 to R434 -/

/-- CHECKER_RERUN_START: checker time is granted to a sampled command on a slot, R433. -/
def checkerRerunStart (id k : Nat) (s : State) : State :=
  match s.tar.jobs.find? fun j => j.cmd == id && j.rerun == 1 && j.started with
  | some j =>
    let p := s.fldOf (.ssiStarterCore k) 0 4
    if k < s.checkers.length ∧ k < 2 ∧ s.checkerBusy p = false then s.updJob j.seq fun x => { x with rerun := 2, rerunSlot := k } else s
  | none => s

def execCheckerRerunStart (dt id slot : Nat) (s : State) : Host.Outcome State Fault Refusal := runEvent dt (checkerRerunStart id slot) s

/-- CHECKER_WAIT_TIMEOUT: no grant within check_wait_ns after the active run ended; the rerun is dropped, R433. -/
def checkerWaitTimeout (id : Nat) (s : State) : State :=
  match s.tar.jobs.find? fun j => j.cmd == id && j.rerun == 1 && j.ran with
  | some j =>
    if j.ranAt + s.ssi.policy.checkWait ≤ s.ns then
      ((s.updJob j.seq fun x => { x with rerun := 3 }).countSat .ssiChkSkip 0 32).raiseLim 0x0808 0 j.part (evData [j.part, j.set])
    else s
  | none => s

def execCheckerWaitTimeout (dt id : Nat) (s : State) : Host.Outcome State Fault Refusal := runEvent dt (checkerWaitTimeout id) s

/-- The frame-set record of R434. -/
def State.frameRecord (s : State) (x : FrameSet) : Bytes :=
  let dis := ((s.part x.part).checked.filter id).length
  leBytes 4 0x5346524D ++ leBytes 1 x.set ++ leBytes 1 ((if x.suspect then 1 else 0) + (if bit (s.reg .ssiSafeStat) 27 then 2 else 0)) ++ leBytes 2 0 ++
  leBytes 8 x.frame ++ leBytes 8 x.goodFrame ++ leBytes 8 x.goodDesc ++ x.goodTag.bytes ++ leBytes 4 x.suspects ++ leBytes 4 dis ++ leBytes 8 0

def State.putFrame (s : State) (x : FrameSet) : State :=
  (s.setTar fun t => { t with sets := (t.sets.filter fun y => !(y.part == x.part && y.set == x.set)) ++ [x] }).store x.recAddr (s.frameRecord x)

/-- The partition's last disagree_frames verdicts, R434, R445. -/
def State.noteVerdict (s : State) (p : Nat) (dis : Bool) : State :=
  let l := (s.part p).checked ++ [dis]
  let l := l.drop (l.length - s.ssi.policy.disagreeFrames)
  let n := (l.filter id).length
  let s := (s.setPart p { s.part p with checked := l }).setFldOf (.ssiPartSafe p) 24 8 n
  if dis then s.countSat (.ssiPartSafe p) 0 16 else s

/-- The frame set of a job. -/
def State.setOf (s : State) (j : TJob) : Option FrameSet := s.tar.sets.find? fun x => x.part == j.part && x.set == j.set

/-- The record of a verdict, R434. -/
def State.frameVerdict (s : State) (j : TJob) (dis : Bool) : State :=
  let d := tdescD j.ds (j.outs.headD 0)
  match s.setOf j with
  | none => s
  | some x =>
    if dis then s.putFrame { x with frame := x.frame + 1, suspect := true, suspects := Nat.min 0xFFFFFFFF (x.suspects + 1) }
    else s.putFrame { x with frame := x.frame + 1, goodFrame := x.frame + 1, goodDesc := d.addr, goodBase := d.span, goodTag := tagOut j.tags, suspect := false }

/-- A frame disagrees, R434: counted, told, a starter pair runs, and past disagree_max the partition enters its safe state. -/
def State.disagree (s : State) (j : TJob) (frame bad : Nat) : State :=
  let p := (s.physOf j.core).getD 0
  let s := (s.countSat .ssiChkCnt 16 16).raise 0x0802 j.part (evData [j.part, j.set, frame, p, j.band, bad])
  let s := s.startPair p (if j.rerun = 2 then some j.rerunSlot else none) j.part true
  if s.ssi.policy.disagreeMax ≤ ((s.part j.part).checked.filter fun x => x).length then s.enterSafe j.part 1 else s

/-- CHECK_VERDICT: the shadows and any rerun of the command's descriptor have compared; `rerun` holds each element of the written
output and of the rerun. -/
def checkVerdict (id : Nat) (rerun : List (W32 × W32)) (s : State) : State :=
  match s.tar.jobs.find? fun j => j.cmd == id && j.ran && j.band != 0 && j.rerun != 1 with
  | none => s
  | some j =>
    let re := j.rerun == 2
    let b := s.tolBand j.part j.band
    let bad := b.outOf rerun
    let dis := j.disagrees || (re && b.disagrees rerun.length bad)
    let frame := match s.setOf j with | some x => x.frame + 1 | none => 0
    let s := ((s.noteVerdict j.part dis).frameVerdict j dis).endJob j (if dis then 4 else 0)
    let s := if dis then s.disagree j frame (j.shadowBad + (if re then bad else 0)) else s
    s.pumpRetire.settle

def execCheckVerdict (dt id : Nat) (rerun : List (W32 × W32)) (s : State) : Host.Outcome State Fault Refusal :=
  runEvent dt (checkVerdict id rerun) s

/-- SAFETY_BAND_LOAD: R430. -/
def safetyBandLoad (c : Cmd) (s : State) : State :=
  let n := c.p 0x20 2
  let busy := (s.tar.jobs.any fun j => j.part == c.part && j.band != 0) ||
    s.ccx.cmds.any fun x => x.part == c.part && x.state == .accepted && (x.group == 6 && x.code != 0x0604) && x.p 0x24 2 % 4096 != 0
  s.firstFail c [(decide (n = 0 ∨ 4095 < n), stBadParam), (busy, stBusy)] fun s =>
    s.withTable c (c.p 0x28 8) (16 * n) fun b s =>
      let e := fun (i : Nat) => (f32At b (16 * i), f32At b (16 * i + 4), numAt b (16 * i + 8) 4, (numAt b (16 * i + 12) 4).testBit 0)
      if (List.range n).any fun i => decide (1000000 < numAt b (16 * i + 8) 4) then s.failCmd c.id stBadParam
      else (s.setPart c.part { s.part c.part with bands := (List.range n).map e }).done c

def execSafetyBandLoad (dt id : Nat) (s : State) : Host.Outcome State Fault Refusal := runCmd dt id 0x0802 safetyBandLoad s

/-- SAFETY_FRAMESET_CONFIG: R433. -/
def safetyFramesetConfig (c : Cmd) (s : State) : State :=
  let set := c.p 0x20 1
  let n := c.p 0x21 1
  let a := c.p 0x28 8
  let place := inside a 64 0 hbmSize || inside a 64 stagingBase stagingSize
  s.firstFail c [(decide (set = 0 ∨ 15 < set ∨ n = 1 ∨ 64 < n ∨ a % 64 ≠ 0) || !place, stBadParam)] fun s =>
    match s.access (.part c.part) .other true a 64 with
    | some st => (s.reportAccess (.part c.part) .other true 7 a 64 st).failCmd c.id st
    | none => (s.putFrame { part := c.part, set := set, sampleN := n, recAddr := a }).done c

def execSafetyFramesetConfig (dt id : Nat) (s : State) : Host.Outcome State Fault Refusal := runCmd dt id 0x0803 safetyFramesetConfig s

end Sys2Proof.Machine
end

