-- ==== Sys2Proof/Machine/Moves.lean ====
section
/-! DEFINITION. The movement engine, queue reads and pushes: R90, R91, R313 to R325, R516, with their rows. -/
namespace Sys2Proof.Machine

/-! Tensors here and on peers -/

/-- Whether a descriptor names this device. -/
def State.isLocal (s : State) (d : Desc) : Bool := d.dev == 255 || (bit (s.reg .mmvDevNum) 7 && d.dev == s.devNum)

/-- The code of an element of a tensor here or on a peer, whose memory is a free value of this device (log entry 67). -/
def State.codeAny (s : State) (ctr : Nat) (d : Desc) (idx : List Nat) : Nat :=
  if s.isLocal d then s.code d idx
  else (Config.freeWord (ctr + idx.foldl (fun (n : Nat) i => n * 1048576 + i) 0)).toNat % 2 ^ fmtBits d.fmt

/-- Writes a row of codes to a tensor here or on a peer. -/
def State.putRow (s : State) (part : Nat) (d : Desc) (row : Nat) (l : List Nat) : State :=
  if s.isLocal d then s.store row (packRow d.fmt l) else s.peerWrite d.dev part row (packRow d.fmt l)

/-- The outer indices of a tensor's rows, in the order of Desc.rows. -/
def Desc.outerIdx (d : Desc) : List (List Nat) :=
  d.outer.foldl (fun (l : List (List Nat)) i => (List.range (d.ext i)).flatMap fun k => l.map fun a => a ++ [k]) [[]]

/-- Reads of a peer's rows leave over its route. -/
def State.peerReads (s : State) (part : Nat) (d : Desc) : State :=
  if s.isLocal d then s
  else match s.linkRoute d.dev with
    | some p => d.rows.foldl (fun (s : State) a => (s.countWrap (.mmvLinkRxBytes p) 0 64 d.rowBytes).emit (.linkRead p part a d.rowBytes)) s
    | none => s

/-! The begin of a movement command, R316, R317 -/

/-- The protected region of the owner that holds all of a tensor of this device. -/
def State.ownRegion (s : State) (p : Nat) (d : Desc) : Option Nat :=
  (s.protRegions.findIdx? fun r => r.2.2 == p && d.rows.all fun a => inside a d.rowBytes r.1 r.2.1)

/-- Whether an input lies in a protected region of the owner. -/
def State.movesRegion (s : State) (c : Cmd) (j : MoveJob) : Bool :=
  j.ds.any fun e => !(j.outs.contains e.1) && s.isLocal e.2 && (s.ownRegion c.part e.2).isSome

/-- A protected region is read only into another one of the owner on this device, R460 (log entry 73). -/
def State.regionErr (s : State) (c : Cmd) (j : MoveJob) : Bool :=
  s.movesRegion c j && j.outs.any fun o =>
    let y := tdescD j.ds o
    !(s.isLocal y) || (match s.ownRegion c.part y with
      | none => true
      | some r => j.ds.any fun e => !(j.outs.contains e.1) && s.isLocal e.2 && s.ownRegion c.part e.2 == some r)

/-- The access checks of a movement command's tensors: here under R32, on a peer that it has a route. -/
def State.moveErr (s : State) (c : Cmd) (j : MoveJob) (reads : List Nat) : State × Option Nat :=
  let q := Req.part c.part
  let one := fun (e : Nat × Desc) =>
    let write := j.outs.contains e.1
    if s.isLocal e.2 then
      ((if !write || reads.contains e.1 then s.tensorErr q .move false e.2 else none).map fun x => (false, x)).orElse fun _ =>
        (if write && !(s.movesRegion c j) then s.tensorErr q .move true e.2 else none).map fun x => (true, x)
    else if (s.linkRoute e.2.dev).isNone then some (false, 0, s.noRoute e.2.dev) else none
  match j.ds.findSome? one with
  | some (w, a, st) => (s.reportAccess q .move w 5 a 64 st, some st)
  | none => if s.regionErr c j then (s, some stNotPermitted) else
    match j.ds.find? fun e => s.isLocal e.2 && (!(j.outs.contains e.1) || reads.contains e.1) && (s.tensorUe e.2).isSome with
    | some e => (s.memUe q 5 (s.ueLine ((s.tensorUe e.2).getD 0) 64), some 0x25)
    | none => (s, none)

/-- Whether an output overlaps an input of the same command. -/
def MoveJob.selfMeets (j : MoveJob) : Bool := j.outs.any fun o => j.ds.any fun e => e.1 != o && (tdescD j.ds o).overlaps e.2

/-- Descriptor offsets, outputs, outputs that are also read: a scatter that combines reads its destination's rows, R322. -/
def moveOffs (c : Cmd) : List (Nat × Bool) × List Nat × List Nat :=
  if c.code = 0x0701 then ([(0x20, false), (0x28, false)], [0x28], [])
  else if c.code = 0x0702 then ((0x20, false) :: (List.range (c.p 0x30 1)).map fun i => (0x100 + i, false), [0x20], [])
  else if c.code = 0x0708 then ([(0x28, false)], [0x28], [])
  else ([(0x20, false), (0x28, false), (0x30, false)], [0x30], if c.code = 0x0704 ∧ c.p 0x38 1 ≠ 0 then [0x30] else [])

/-- Registers the job, clears the marks, and notes tags and peers. The inputs of R20 are the tensors that the command reads. -/
def State.takeMove (s : State) (c : Cmd) (j : MoveJob) : State :=
  let reads := (moveOffs c).2.2
  let s := j.outs.foldl (fun (s : State) o => s.setMark (tdescD j.ds o).addr false) s
  let s := s.updCmd c.id fun x => { x with
    ins := (j.ds.filter fun e => !(j.outs.contains e.1) || reads.contains e.1).map (·.2.tag), outs := j.outs.map fun o => (tdescD j.ds o).addr }
  let peers := (j.ds.filterMap fun e => if s.isLocal e.2 then none else (s.linkRoute e.2.dev).map fun p => (c.id, e.2.dev, p))
  s.setMmv fun m => { m with moves := m.moves ++ [j], peers := m.peers ++ peers }

/-- The permutation of R318. -/
def permAt (perm i : Nat) : Nat := perm / 2 ^ (3 * i) % 8

def copyErr (c : Cmd) (ds : List (Nat × Desc)) : Option Nat :=
  let x := tdescD ds 0x20
  let y := tdescD ds 0x28
  let perm := c.p 0x30 4
  let group := Nat.max (fmtGroup x.fmt) (fmtGroup y.fmt)
  let isPerm := (List.range x.rank).all fun i => (List.range x.rank).any fun k => permAt perm k == i
  firstOf [
    (x.rank != y.rank || !isPerm, stBadParam),
    (x.fmt != y.fmt && (decide (10 ≤ x.fmt ∨ 5 ≤ y.fmt)), stFormat),
    (c.p 0x38 4 % group != 0 || c.p 0x50 4 % group != 0, stAlignment)]

def concatErr (c : Cmd) (ds : List (Nat × Desc)) : Option Nat :=
  let y := tdescD ds 0x20
  let axis := c.p 0x31 1
  let src := (ds.filter fun e => e.1 != 0x20).map (·.2)
  firstOf [
    (decide (y.rank ≤ axis) || (src.any fun x => x.rank != y.rank || x.fmt != y.fmt || (List.range 6).any fun i => i != axis && x.ext i != y.ext i) ||
      (src.map fun x => x.ext axis).sum != y.ext axis, stBadParam)]

def rowMoveErr (c : Cmd) (ds : List (Nat × Desc)) : Option Nat :=
  let x := tdescD ds 0x20
  let i := tdescD ds 0x28
  let y := tdescD ds 0x30
  let gather := c.code == 0x0703
  let n := if gather then y.ext 1 else x.ext 1
  let f := y.fmt
  let op := c.p 0x38 1
  firstOf [
    (decide (x.rank ≠ 2 ∨ y.rank ≠ 2 ∨ i.rank ≠ 1 ∨ i.ext 0 ≠ n ∨ x.ext 0 ≠ y.ext 0) || (!gather && decide (2 < op)), stBadParam),
    (i.fmt != 11, stFormat),
    (x.fmt != y.fmt, stBadParam),
    (!gather && ((op == 1 && !(decide (f ≤ 2 ∨ f = 8))) || (op == 2 && !(decide (f ≤ 4 ∨ f = 8)))), stFormat)]

/-- A movement command becomes RUNNING: descriptors, marks, formats and ranges are checked. -/
def State.beginMove (s : State) (c : Cmd) : State :=
  let n := c.p 0x30 1
  let list := c.p 0x28 8
  if c.code = 0x0702 ∧ (n = 0 ∨ 16 < n) then s.failCmd c.id stBadParam
  else if c.code = 0x0708 ∧ 63 < c.p 0x20 1 then s.failCmd c.id stBadParam
  else if c.code = 0x0708 ∧ (s.mmvQueue (c.p 0x20 1) = false ∨ (s.strm (c.p 0x20 1)).owner ≠ some c.part) then s.failCmd c.id stNotPermitted
  else if c.code = 0x0708 ∧ (s.mmv.rings.any fun r => r.1 == c.p 0x20 1) = true then s.failCmd c.id stBusy
  else s.withTable c (if c.code = 0x0702 then list else 0) (if c.code = 0x0702 then 8 * n else 0) fun b s =>
    let o := moveOffs c
    let addr := fun (k : Nat) => if 0x100 ≤ k then numAt b (8 * (k - 0x100)) 8 else c.p k 8
    match s.readDescs c addr o.1 with
    | .error e => (s.descFailed c (o.1.map fun x => addr x.1) e).failCmd c.id e
    | .ok ds =>
      let j : MoveJob := { cmd := c.id, ds := ds, outs := o.2.1 }
      let err := if c.code = 0x0701 then copyErr c ds else if c.code = 0x0702 then concatErr c ds else if c.code = 0x0708 then none else rowMoveErr c ds
      let pre := firstOf [
        ((ds.any fun e => !(j.outs.contains e.1) && !e.2.mark), stBadParam),
        ((ds.any fun e => e.2.dev != 255 && decide (23 < e.2.dev)), stBadParam)]
      match pre, err with
      | some e, _ => s.failCmd c.id e
      | none, some e => s.failCmd c.id e
      | none, none =>
        if j.outs.any (fun x => !(tdescD ds x).outOk) || j.selfMeets then s.failCmd c.id stBadParam
        else match s.moveErr c j o.2.2 with
          | (s, some e) => s.failCmd c.id e
          | (s, none) => s.takeMove c j

/-- The movement commands of R317. -/
def moveCode (code : Nat) : Bool := [0x0701, 0x0702, 0x0703, 0x0704, 0x0708].contains code

/-- Whether a movement command in flight writes where a command that has not started reads or writes: its start waits, R317. -/
def State.moveMeets (s : State) (c : Cmd) : Bool :=
  let o := moveOffs c
  let b := if c.code = 0x0702 then s.rdSeen (c.p 0x28 8) (8 * Nat.min 16 (c.p 0x30 1)) else []
  let offs := if c.code = 0x0702 then o.1.take 17 else o.1
  match s.readDescs c (fun k => if 0x100 ≤ k then numAt b (8 * (k - 0x100)) 8 else c.p k 8) offs with
  | .error _ => false
  | .ok ds => s.mmv.moves.any fun e => e.outs.any fun y => ds.any fun x =>
      (tdescD e.ds y).dev == x.2.dev && spansMeet (tdescD e.ds y).span x.2.span

/-- Whether the engine has room for a movement command: at most 8 run at once, and its start waits for the outputs it meets, R317. -/
def State.moveRoom (s : State) (c : Cmd) : Bool := decide (s.mmv.moves.length < 8) && !(s.moveMeets c)

/-- Whether an earlier movement command still in flight writes where this one reads or writes, R317. -/
def State.moveWaits (s : State) (id : Nat) : Bool :=
  match s.mmv.moves.find? fun j => j.cmd == id with
  | none => false
  | some j => (s.mmv.moves.takeWhile fun e => e.cmd != id).any fun e => e.outs.any fun o => j.ds.any fun x =>
      (tdescD e.ds o).dev == x.2.dev && spansMeet (tdescD e.ds o).span x.2.span

/-- The row of a movement command: it runs once nothing earlier stands in its way; COMMAND_COMMIT makes it final. -/
def runMove (dt id code : Nat) (f : Cmd → MoveJob → State → State) (s : State) : Host.Outcome State Fault Refusal :=
  runEvent dt (fun s => match s.runs id code, s.mmv.moves.find? fun j => j.cmd == id with
    | some c, some j => if s.moveWaits id then s else (f c j (j.ds.foldl (fun (s : State) e => if j.outs.contains e.1 then s else s.peerReads c.part e.2) (s.start id))).settle
    | _, _ => s) s

/-! MOVE_COPY, MOVE_CONCAT: R318, R320 -/

/-- A value as a format's code: a pad of scale bytes or indices is a free value, since no conversion into them is defined (R516). -/
def padCode (ctr fmt : Nat) (r : Round) (v : FVal) : Nat :=
  if 10 ≤ fmt then (Config.freeWord ctr).toNat % 2 ^ fmtBits fmt else (fmtEnc fmt r.infOk (if r.sr then some (Config.srAt ctr 0).toNat else none) v).code

/-- The rows of a MOVE_COPY. -/
def State.copyRows (s : State) (c : Cmd) (x y : Desc) (ctr : Nat) : List (Nat × List Nat) :=
  let perm := c.p 0x30 4
  let r : Round := { sr := (c.p 0x34 1).testBit 0 }
  let pad := padCode ctr y.fmt r (f32Val (BitVec.ofNat 32 (c.p 0x68 4)))
  let dims := List.range y.rank
  y.outerIdx.map fun o => (y.rowAt o, (List.range (y.ext 0)).map fun o0 =>
    let out := o0 :: o
    let src := dims.map fun k =>
      let i := (dims.find? fun i => permAt perm i == k).getD 0
      ((out.getD i 0 : Nat) : Int) - (c.p (0x50 + 4 * i) 4 : Nat) + (c.p (0x38 + 4 * k) 4 : Nat)
    if src.zipIdx.all fun e => decide (0 ≤ e.1 ∧ e.1 < (x.ext e.2 : Nat)) then
      let code := s.codeAny (ctr + 1) x (src.map Int.toNat)
      if x.fmt = y.fmt then code
      else (fmtEnc y.fmt r.infOk (if r.sr then some (Config.srAt ctr (1 + out.foldl (fun (n : Nat) i => n * 1048576 + i) 0)).toNat else none) (fmtVal x.fmt code)).code
    else pad)

/-- MOVE_COPY: R318. -/
def moveCopy (c : Cmd) (j : MoveJob) (s : State) : State :=
  let y := tdescD j.ds 0x28
  let rows := s.copyRows c (tdescD j.ds 0x20) y s.freeCtr
  (rows.foldl (fun (s : State) r => s.putRow c.part y r.1 r.2) { s with freeCtr := s.freeCtr + 2 }).setVerdict c.id 0

def execMoveCopy (dt id : Nat) (s : State) : Host.Outcome State Fault Refusal := runMove dt id 0x0701 moveCopy s

/-- The source of a concatenation that holds an index along the axis, and the index within it. -/
def concatAt (axis : Nat) : List Desc → Nat → Option (Desc × Nat)
  | [], _ => none
  | d :: r, i => if i < d.ext axis then some (d, i) else concatAt axis r (i - d.ext axis)

/-- MOVE_CONCAT: R320. -/
def moveConcat (c : Cmd) (j : MoveJob) (s : State) : State :=
  let y := tdescD j.ds 0x20
  let axis := c.p 0x31 1
  let src := (j.ds.filter fun e => e.1 != 0x20).map (·.2)
  let ctr := s.freeCtr
  let code := fun (out : List Nat) => match concatAt axis src (out.getD axis 0) with
    | some (d, i) => s.codeAny ctr d (out.set axis i)
    | none => 0
  let rows := y.outerIdx.map fun o => (y.rowAt o, (List.range (y.ext 0)).map fun o0 => code (o0 :: o))
  (rows.foldl (fun (s : State) r => s.putRow c.part y r.1 r.2) { s with freeCtr := s.freeCtr + 1 }).setVerdict c.id 0

def execMoveConcat (dt id : Nat) (s : State) : Host.Outcome State Fault Refusal := runMove dt id 0x0702 moveConcat s

/-! MOVE_GATHER, MOVE_SCATTER: R321, R322 -/

/-- Out-of-range indices are counted and told. -/
def State.oob (s : State) (c : Cmd) (n : Nat) : State :=
  let s := s.setResult c.id 0x20 (leBytes 4 n)
  if n = 0 then s
  else (s.addSat .mmvMoveCnt (if c.code = 0x0704 then 16 else 0) 16 n).raiseLim 0x0709 c.code c.part (evData [c.tag.toNat, n])

/-- The index tensor's values. -/
def State.indices (s : State) (ctr : Nat) (d : Desc) : List Nat := (List.range (d.ext 0)).map fun i => s.codeAny ctr d [i]

/-- MOVE_GATHER. -/
def moveGather (c : Cmd) (j : MoveJob) (s : State) : State :=
  let x := tdescD j.ds 0x20
  let y := tdescD j.ds 0x30
  let idx := s.indices s.freeCtr (tdescD j.ds 0x28)
  let pad := padCode s.freeCtr y.fmt {} (f32Val (BitVec.ofNat 32 (c.p 0x3C 4)))
  let ctr := s.freeCtr + 1
  let rows := idx.zipIdx.map fun e => (y.rowAt [e.2], (List.range (y.ext 0)).map fun k => if e.1 < x.ext 1 then s.codeAny ctr x [k, e.1] else pad)
  let s := rows.foldl (fun (s : State) r => s.putRow c.part y r.1 r.2) { s with freeCtr := s.freeCtr + 2 }
  (s.oob c (idx.filter fun i => decide (x.ext 1 ≤ i)).length).setVerdict c.id 0

def execMoveGather (dt id : Nat) (s : State) : Host.Outcome State Fault Refusal := runMove dt id 0x0703 moveGather s

/-- The combination of a destination element with an arriving one, R322. -/
def scatterCode (op fmt old new : Nat) : Nat :=
  match op with
  | 0 => new
  | 1 => (fmtEnc fmt false none (((fmtVal fmt old).add (fmtVal fmt new)).f32)).code
  | _ => (fmtEnc fmt false none (FVal.max (fmtVal fmt old) (fmtVal fmt new))).code

/-- Pairs sorted by a free key: an order of arrival. -/
def insByKey (k : Nat → Rat) (e : Nat × Nat) : List (Nat × Nat) → List (Nat × Nat)
  | [] => [e]
  | x :: r => if k e.2 ≤ k x.2 then e :: x :: r else x :: insByKey k e r

/-- MOVE_SCATTER: rows reach the table in a free order, R322. A peer's table is combined at the peer. -/
def moveScatter (c : Cmd) (j : MoveJob) (s : State) : State :=
  let x := tdescD j.ds 0x20
  let y := tdescD j.ds 0x30
  let op := c.p 0x38 1
  let ctr := s.freeCtr
  let idx := s.indices ctr (tdescD j.ds 0x28)
  let order := idx.zipIdx.foldr (insByKey fun i => Config.freeAt ctr i) []
  let s := order.foldl (fun (s : State) e =>
    if y.ext 1 ≤ e.1 then s
    else
      let row := (List.range (y.ext 0)).map fun k => s.codeAny (ctr + 1) x [k, e.2]
      let out := if s.isLocal y then row.zipIdx.map fun v => scatterCode op y.fmt (s.elem y.fmt (y.rowAt [e.1]) v.2) v.1 else row
      s.putRow c.part y (y.rowAt [e.1]) out) { s with freeCtr := s.freeCtr + 2 }
  (s.oob c (idx.filter fun i => decide (y.ext 1 ≤ i)).length).setVerdict c.id 0

def execMoveScatter (dt id : Nat) (s : State) : Host.Outcome State Fault Refusal := runMove dt id 0x0704 moveScatter s

/-! Queue reads, R325 -/

/-- Bytes laid over the rows of a tensor in order. -/
def State.putLinear (s : State) (part : Nat) (d : Desc) (b : Bytes) : State :=
  (d.rows.zipIdx.foldl (fun (s : State) r =>
    let x := (b.drop (r.2 * d.rowBytes)).take d.rowBytes
    if x.isEmpty then s else if s.isLocal d then s.store r.1 x else s.peerWrite d.dev part r.1 x) s)

/-- The packets that fit, in order. -/
def fitPackets (room : Nat) : Nat → List Pkt → List Pkt
  | 0, _ => []
  | _, [] => []
  | n + 1, p :: r => if p.bytes.length ≤ room then p :: fitPackets (room - p.bytes.length) n r else []

/-- The tags of raw frames that leave stream n's queue, R19: their stamps on TB0, their stream as origin. No rule gives their window: a free
value (log entry 69). -/
def frameTags (n window : Nat) (l : List Pkt) : List Tag :=
  l.map fun p => { inst := p.stamp, window := window, origin := n, revised := false, valid := true }

/-- MOVE_QUEUE_READ: the whole packets that the queue holds, at most max_pkts, as many as fit (log entry 69). -/
def moveQueueRead (c : Cmd) (j : MoveJob) (s : State) : State :=
  let n := c.p 0x20 1
  let d := tdescD j.ds 0x28
  let l := fitPackets (d.rowBytes * d.count) (c.p 0x30 4) (s.strm n).queue
  let b := l.flatMap Pkt.bytes
  let w := s.fresh
  let s := l.foldl (fun (s : State) _ => s.takeHead n) (w.2.putLinear c.part d b)
  let s := s.updCmd c.id fun x => { x with ins := frameTags n (w.1.toNat % 2 ^ 32) l }
  ((s.setResult c.id 0x20 (leBytes 4 l.length)).setResult c.id 0x28 (leBytes 8 b.length)).setVerdict c.id 0

def execMoveQueueRead (dt id : Nat) (s : State) : Host.Outcome State Fault Refusal := runMove dt id 0x0708 moveQueueRead s

/-! MOVE_PUSH_HOST, R90, R91 -/

/-- MOVE_PUSH_HOST: COMMAND_COMMIT ends it after the last write, or after the read-back under Relaxed Ordering. -/
def movePushHost (c : Cmd) (s : State) : State :=
  let src := c.p 0x20 8
  let n := c.p 0x30 8
  s.firstFail c [(decide (n = 0 ∨ 0x100000000 < n), stBadParam), (!s.busMaster, 0x41)] fun s =>
    match s.access (.part c.part) .other false src n with
    | some st => (s.reportAccess (.part c.part) .other false 5 src n st).failCmd c.id st
    | none =>
      if s.poisoned src n then (s.memUe (.part c.part) 5 (s.ueLine src n)).failCmd c.id 0x25
      else ((s.push c.id (c.p 0x28 8) (s.rdSeen src n) ((c.p 0x38 4).testBit 0)).setResult c.id 0x20 (leBytes 8 n)).setVerdict c.id 0

def execMovePushHost (dt id : Nat) (s : State) : Host.Outcome State Fault Refusal := runCmd dt id 0x0720 movePushHost s

/-! Frame rings, R323, R324 -/

def State.ring? (s : State) (n : Nat) : Option Ring := (s.mmv.rings.find? fun e => e.1 == n).map (·.2)
def State.setRing (s : State) (n : Nat) (r : Ring) : State :=
  s.setMmv fun m => { m with rings := (m.rings.filter fun e => e.1 != n) ++ [(n, r)] }

/-- MOVE_FRAME_RING: R323. -/
def moveFrameRing (c : Cmd) (s : State) : State :=
  let n := c.p 0x20 1
  let k := c.p 0x21 1
  let sb := c.p 0x24 4
  let a := c.p 0x28 8
  let lines := (c.p 0x22 1).testBit 0
  let pitch := c.p 0x30 4
  let w := c.p 0x34 4
  let bad := decide (k ≠ 0 ∧ (k < 2 ∨ 64 < k ∨ sb < 65536 ∨ 67108864 < sb ∨ sb % 65536 ≠ 0 ∨ w < 1000000 ∨ 4000000000 < w)) ||
    (k != 0 && (if lines then decide (pitch = 0 ∨ pitch % 64 ≠ 0) else pitch != 0))
  s.firstFail c [(decide (63 < n) || bad, stBadParam), (!(s.mmvQueue n) || (s.strm n).owner != some c.part, stNotPermitted), (s.strmOn n, stBusy),
      (k != 0 && decide (a % 65536 ≠ 0), stAlignment)] fun s =>
    if k = 0 then (s.setMmv fun m => { m with rings := m.rings.filter fun e => e.1 != n }).done c
    else match s.access (.part c.part) .other true a (k * sb) with
      | some st => (s.reportAccess (.part c.part) .other true 7 a (k * sb) st).failCmd c.id st
      | none => (s.setRing n { stream := n, slots := k, lines := lines, slotBytes := sb, addr := a, pitch := pitch, window := w, part := c.part }).done c

def execMoveFrameRing (dt id : Nat) (s : State) : Host.Outcome State Fault Refusal := runCmd dt id 0x0710 moveFrameRing s

/-- The slot header and descriptor of R324, magic included. -/
def Ring.header (r : Ring) (f : RingFrame) (flags : BitVec 16) (stamp : Nat) (base : Nat) : Bytes :=
  let fl := if f.trunc then setBit flags 12 true else flags
  let tag : Tag := { inst := stamp, window := r.window, origin := r.stream, revised := false, valid := true }
  let exts := if r.lines then [f.longest, f.pkts] else [f.length]
  let ext := fun (i : Nat) => leBytes 4 (exts.getD i 1)
  let stride := fun (i : Nat) => leBytes 8 (if r.lines ∧ i = 0 then r.pitch else 0)
  leBytes 4 0x4D4D5646 ++ leBytes 1 r.stream ++ leBytes 1 0 ++ leBytes 2 fl.toNat ++ leBytes 4 f.frame ++ leBytes 4 f.pkts ++ leBytes 8 stamp ++
  leBytes 8 f.length ++ List.replicate 96 0 ++
  (leBytes 8 (base + 0x100) ++ leBytes 1 8 ++ leBytes 1 (if r.lines then 2 else 1) ++ leBytes 1 1 ++ leBytes 1 255 ++ leBytes 4 0 ++
    (List.range 6).flatMap ext ++ (List.range 5).flatMap stride ++ tag.bytes ++ List.replicate 32 0)

/-- The frame ring reports a frame's slot address to Churn, which holds the frame's header already or takes it with the report, R196. -/
def State.ringReport (s : State) (n : Nat) (x : Sample) : State :=
  let mine := fun (y : Sample) => y.addr.isNone && y.frame == x.frame && y.stamp == x.stamp
  let l := sget [] s.chn.samples n
  if l.any mine then
    { s with chn := { s.chn with samples := sset [] s.chn.samples n (l.map fun y => if mine y then { y with flags := x.flags, addr := x.addr } else y) } }
  else s.churnSample n x

/-- The slot is committed: header, then magic; Churn is told the slot address. -/
def State.ringCommit (s : State) (r : Ring) (f : RingFrame) (flags : BitVec 16) (stamp : Nat) : State :=
  let base := r.addr + f.slot * r.slotBytes
  let h := r.header f flags stamp base
  let s := (s.store base h).setRing r.stream { r with cur := none, next := (f.slot + 1) % r.slots }
  let s := if f.trunc then (s.countSat .mmvFrTrunc 0 32).raiseLim 0x070A r.stream r.part (evData [r.stream, f.frame]) else s
  let fl := if f.trunc then setBit flags 12 true else flags
  s.ringReport r.stream { stamp := stamp, flags := fl, frame := f.frame, bytes := h.take 128, payload := s.rd (base + 0x100) f.length,
                           addr := some base }

/-- A payload goes into the open slot; after the first that does not fit none is written. -/
def Ring.fits (r : Ring) (f : RingFrame) (n : Nat) : Bool :=
  !f.trunc && decide (0x100 + (if r.lines then f.pkts * r.pitch else f.length) + n ≤ r.slotBytes) && (!r.lines || decide (n ≤ r.pitch))

def State.ringPacket (s : State) (r : Ring) (p : Pkt) : State :=
  let starts := p.kind == 1 || p.kind == 3
  let ends := p.kind == 2 || p.kind == 3 || p.kind == 4
  let s := match r.cur with
    | some f => if starts then s.ringCommit r f (setBit 0 12 true) f.stamp else s
    | none => s
  let r := (s.ring? r.stream).getD r
  let s := if starts then (s.wr (r.addr + r.next * r.slotBytes) (leBytes 4 0)).setRing r.stream { r with cur := some { slot := r.next, frame := p.frame } } else s
  let r := (s.ring? r.stream).getD r
  match r.cur with
  | none => s
  | some f =>
    let n := p.payload.length
    let ok := r.fits f n
    let at_ := r.addr + f.slot * r.slotBytes + 0x100 + (if r.lines then f.pkts * r.pitch else f.length)
    let s := if n ≠ 0 ∧ ok = true then s.store at_ p.payload else s
    let f := { f with stamp := p.stamp, frame := p.frame }
    let f := if n = 0 then f
      else if ok then { f with pkts := f.pkts + 1, length := f.length + n, longest := Nat.max f.longest n }
      else { f with trunc := true }
    if ends then s.ringCommit r f p.flags p.stamp else s.setRing r.stream { r with cur := some f }

/-- MMV empties the queues of the streams that have a ring. -/
def State.pumpRings (s : State) : State :=
  s.mmv.rings.foldl (fun (s : State) e =>
    let q := (s.strm e.1).queue
    q.foldl (fun (s : State) p => match s.ring? e.1 with | some r => s.ringPacket r p | none => s) (q.foldl (fun (s : State) _ => s.takeHead e.1) s)) s

/-- A queue reset or a restart of the owner mid-frame: the slot is committed with what it holds, flagged; its stamp is that of the last
packet taken, since no frame end has come (log entry 83). -/
def State.ringCut (s : State) (n : Nat) : State :=
  match s.ring? n with
  | some r => (match r.cur with | some f => s.ringCommit r f (setBit 0 12 true) f.stamp | none => s)
  | none => s

/-! Packets, R166 to R182 -/

/-- Churn takes the copies of the frame-end headers of the streams that MMV consumes, R196. -/
def State.pumpHeads (s : State) : State :=
  (List.range 64).foldl (fun (s : State) n =>
    let l := (s.strm n).heads
    if l.isEmpty then s
    else l.foldl (fun (s : State) p =>
      s.churnSample n { stamp := p.stamp, flags := p.flags, frame := p.frame, bytes := p.bytes, payload := [], addr := none })
      (s.modStrm n fun x => { x with heads := [] })) s

/-- What takes packets that became whole: frame rings and Churn. -/
def State.pumpQueues (s : State) : State := s.pumpHeads.pumpRings.pumpChurn

/-- SENSOR_PACKET_RX. -/
def execSensorPacketRx (dt : Nat) (pkt : SensorPacket) (s : State) : Host.Outcome State Fault Refusal :=
  runEvent dt (fun s => (s.sensorPacket pkt).pumpQueues) s

/-- ENCODER_SAMPLE_TICK: a sample of an encoder port is a whole frame of the stream with the lowest number on it, stamped on TB0 and on the
stream's time base at the tick, R166, R168, R169. -/
def encoderSampleTick (port : Nat) (pos : W32) (idx status : BitVec 16) (edge : W32) (s : State) : State :=
  let b := encoderBytes pos idx status edge
  (match ((s.portStreams 5 port).filter s.strmLive).head? with
    | some n => s.ingress n 3 false b s.now (s.tbNow (s.fldOf (.siuStreamCtl n) 5 3)) 0 false false
    | none => s).pumpQueues

def execEncoderSampleTick (dt port : Nat) (pos : W32) (idx : BitVec 16) (status : BitVec 16) (edgeNs : W32) (s : State) :
    Host.Outcome State Fault Refusal :=
  runEvent dt (encoderSampleTick port pos idx status edgeNs) s

/-- INTAKE_STREAM_DISABLE: R174, R178, R182, R185. A frame in progress closes and is passed on, or flushed with the whole packets that
wait. -/
def intakeStreamDisable (c : Cmd) (s : State) : State :=
  let n := c.p 0x20 1
  s.firstFail c [(decide (63 < n), stBadParam), (s.foreignStream n c.part, stNotPermitted)] fun s =>
    let s := s.disableStream n
    let flush := (c.p 0x21 1).testBit 0
    let k := if flush then (s.strm n).queue.length else 0
    ((if flush then s.emptyQ n else s).pumpQueues).doneWith c (leBytes 4 k)

def execIntakeStreamDisable (dt id : Nat) (s : State) : Host.Outcome State Fault Refusal := runCmd dt id 0x0305 intakeStreamDisable s

/-- QUEUE_PTR_MISMATCH: R182, R324, R325, R437 trigger 3; for P0 the event alone. The count of trigger 3 starts anew after it. -/
def queuePtrMismatch (n : Nat) (ptr : QPtr) (s : State) : State :=
  let s := (if ptr = .tap then s else s.ringCut n).queueReset n ptr
  if ptr = .tap then
    let taps := s.ssi.rfx.taps.map fun (t : Tap) => if t.stream = n then { t with next := 0 } else t
    { s with ssi := { s.ssi with rfx := { s.ssi.rfx with taps := taps } } }
  else
    let s := s.ccx.cmds.foldl (fun (s : State) c => if c.code = 0x0708 ∧ c.p 0x20 1 = n ∧ c.state = .running ∧ c.verdict = none then s.failCmd c.id 0x52 else s) s
    let max := s.ssi.policy.qResetMax
    let l := (s.strm n).resets.filter fun t => decide (s.now < t + 10000000000)
    let p := s.strmPart n
    let s := if s.configured ∧ max ≠ 0 ∧ max < l.length ∧ p ≠ 0 then (s.modStrm n fun x => { x with resets := [] }).enterSafe p 3 else s
    s.pumpQueues.settle

def execQueuePtrMismatch (dt st : Nat) (ptr : QPtr) (s : State) : Host.Outcome State Fault Refusal :=
  runEvent dt (fun s => if st < 64 then queuePtrMismatch st ptr s else s) s

end Sys2Proof.Machine
end

