-- ==== Sys2Proof/Machine/Coll.lean ====
section
/-! DEFINITION. Collectives: R334 to R338, with their rows. -/
namespace Sys2Proof.Machine

/-- The member device numbers, ascending. -/
def Coll.devs (k : Coll) : List Nat := (List.range 24).filter fun d => k.members.testBit d

/-- The rank of a device. -/
def Coll.rank (k : Coll) (d : Nat) : Nat := (k.devs.takeWhile fun x => x != d).length

def Coll.n (k : Coll) : Nat := k.devs.length

/-- Whether a device's local source, or destination, has a part in the operation, R335. -/
def Coll.hasSrc (op root d : Nat) : Bool := if op = 0 then d == root else op != 7
def Coll.hasDst (op root d : Nat) : Bool := if op = 1 then d == root else op != 6

/-- The operations that reduce. -/
def collReduces (op : Nat) : Bool := op == 1 || op == 2 || op == 3

/-- The formats of R337 for a reduction. -/
def collFmt (redop f : Nat) : Bool := decide (f ≤ 2) || (redop != 0 && decide (f = 3 ∨ f = 4))

/-- The extents of a tensor with its outermost one divided by n; none where it does not divide. -/
def Desc.chunkExts (d : Desc) (n : Nat) : Option (List Nat) :=
  let o := d.rank - 1
  if d.ext o % n ≠ 0 then none else some ((List.range d.rank).map fun i => if i = o then d.ext o / n else d.ext i)

def Desc.extList (d : Desc) : List Nat := (List.range d.rank).map d.ext

/-- The shapes that the operation requires of this device's own pieces, R335. -/
def Coll.shapesOk (k : Coll) : Bool :=
  match k.src, k.dst with
  | some x, some y =>
    x.fmt == y.fmt &&
    (if k.op = 3 then x.chunkExts k.n == some y.extList
     else if k.op = 4 then y.chunkExts k.n == some x.extList
     else if k.op = 5 then x.extList == y.extList && (x.chunkExts k.n).isSome
     else x.extList == y.extList)
  | _, _ => true

/-- All codes of a tensor, row by row. -/
def State.flatCodes (s : State) (d : Desc) : List Nat := d.rows.flatMap (s.rowCodes d)

/-- The rows of a tensor as dense bytes. -/
def State.denseBytes (s : State) (d : Desc) : Bytes := d.rows.flatMap fun r => packRow d.fmt (s.rowCodes d r)

/-- The codes that dense rows of n elements hold. -/
def denseCodes (fmt n rows : Nat) (b : Bytes) : List Nat :=
  let w := fmtBits fmt
  let rb := ceilDiv (n * w) 8
  (List.range rows).flatMap fun r =>
    let v := leVal (cut b (r * rb) rb)
    (List.range n).map fun i => (v >>> (i * w)) % 2 ^ w

/-- The codes that a record brings. -/
def collCodes (r : CollRecord) : List Nat :=
  denseCodes r.fmt (r.exts.headD 1) ((r.exts.drop 1).foldl (fun (n : Nat) e => n * e) 1) r.src

def tagWords (t : Tag) : W64 × W64 := (BitVec.ofNat 64 (leVal (t.bytes.take 8)), BitVec.ofNat 64 (leVal (t.bytes.drop 8)))

/-- This device's matching record, R336. -/
def State.ownRecord (s : State) (k : Coll) : CollRecord :=
  let d := (k.src.orElse fun _ => k.dst).getD (tdescD [] 0)
  { dev := s.devNum, op := k.op, redop := k.redop, root := k.root, members := k.members, fmt := d.fmt, exts := d.extList
    src := match k.src with | some x => s.denseBytes x | none => []
    tag := tagWords (match k.src with | some x => x.tag | none => {}) }

/-- Whether two records agree, R336; a SEND and its RECV name each other (log entry 70). -/
def collAgree (a b : CollRecord) : Bool :=
  let pair := decide ((a.op = 6 ∧ b.op = 7) ∨ (a.op = 7 ∧ b.op = 6))
  (if pair then a.root == b.dev && b.root == a.dev else a.op == b.op && a.root == b.root && decide (a.op < 6)) &&
  a.members.testBit b.dev && a.redop == b.redop && a.members == b.members && a.fmt == b.fmt && a.exts == b.exts

/-- The record's content as it leaves. -/
def recordBytes (id : Nat) (r : CollRecord) : Bytes :=
  leBytes 4 id ++ leBytes 1 r.dev ++ leBytes 1 r.op ++ leBytes 1 r.redop ++ leBytes 1 r.root ++ leBytes 4 r.members ++ leBytes 1 r.fmt ++
  leBytes 1 r.exts.length ++ r.exts.flatMap (leBytes 4) ++ leBytes 8 r.tag.1.toNat ++ leBytes 8 r.tag.2.toNat ++ r.src

/-- Records that disagree with this device's end its collective. -/
def State.collMismatch (s : State) (k : Coll) (dev : Nat) : State :=
  (s.raise 0x0708 0 (evData [k.id, dev])).failCmd k.cmd stBadParam

/-- A record joins a collective of this device. -/
def State.collJoin (s : State) (k : Coll) (r : CollRecord) : State :=
  if !(collAgree (s.ownRecord k) r) then s.collMismatch k r.dev
  else
    let recs := (k.recs.filter fun x => x.dev != r.dev) ++ [r]
    let k' := { k with recs := recs, since := if recs.length + 1 = k.n then s.ns else k.since }
    s.setMmv fun m => { m with colls := updFirst (fun x => x.cmd == k.cmd) (fun _ => k') m.colls }

/-- At most 16 collectives run at once, R336. -/
def State.collRoom (s : State) : Bool := decide (s.mmv.colls.length < 16)

/-- Reads the descriptors that have a part; the other address is not looked at (log entry 70). -/
def State.collDescs (s : State) (c : Cmd) (op root : Nat) : Except Nat (Option Desc × Option Desc) :=
  let get := fun (has : Bool) (o : Nat) =>
    if has then (match s.readDesc c (c.p o 8) with | .error e => (Except.error e : Except Nat (Option Desc)) | .ok d => .ok (some d)) else .ok none
  match get (Coll.hasSrc op root s.devNum) 0x30, get (Coll.hasDst op root s.devNum) 0x38 with
  | .error e, _ => .error e
  | _, .error e => .error e
  | .ok a, .ok b => .ok (a, b)

/-- The parameter checks of R334. -/
def State.collBad (s : State) (c : Cmd) : Bool :=
  let op := c.p 0x20 1
  let root := c.p 0x22 1
  let members := c.p 0x24 4
  decide (7 < op) || (collReduces op && decide (2 < c.p 0x21 1)) || c.p 0x23 1 != 0 || decide (60000 < c.p 0x2C 4) || decide (2 ^ 24 ≤ members) ||
  !(bit (s.reg .mmvDevNum) 7) || !(members.testBit s.devNum) || (decide (op = 0 ∨ op = 1 ∨ op = 6 ∨ op = 7) && !(members.testBit root)) ||
  (decide (op = 6 ∨ op = 7) && root == s.devNum) || s.mmv.colls.any fun k => k.id == c.p 0x28 4

/-- The formats, marks, shapes and overlap of a collective's pieces. -/
def Coll.err (k : Coll) : Option Nat :=
  let ds := k.src.toList ++ k.dst.toList
  firstOf [
    ((match k.src with | some d => !d.mark | none => false) || (ds.any fun d => d.dev != 255), stBadParam),
    (collReduces k.op && ds.any fun d => !(collFmt k.redop d.fmt), stFormat),
    (!k.shapesOk, stBadParam),
    ((match k.dst with | some d => !d.outOk | none => false) ||
      (match k.src, k.dst with | some x, some y => y.overlaps x | _, _ => false), stBadParam)]

/-- A collective becomes RUNNING: checked, its record sent, records that came before matched. -/
def State.beginColl (s : State) (c : Cmd) : State :=
  let op := c.p 0x20 1
  let root := c.p 0x22 1
  if s.collBad c then s.failCmd c.id stBadParam
  else match s.collDescs c op root with
    | .error e => (s.descFailed c [c.p 0x30 8, c.p 0x38 8] e).failCmd c.id e
    | .ok (src, dst) =>
      let k : Coll := { cmd := c.id, id := c.p 0x28 4, op := op, redop := if collReduces op then c.p 0x21 1 else 0, root := root, members := c.p 0x24 4
                        timeoutMs := if c.p 0x2C 4 = 0 then 1000 else c.p 0x2C 4, since := s.ns, src := src, dst := dst }
      let others := k.devs.filter fun d => d != s.devNum
      match k.err with
      | some e => s.failCmd c.id e
      | none =>
        let j : MoveJob := { cmd := c.id, ds := (src.map fun d => (0x30, d)).toList ++ (dst.map fun d => (0x38, d)).toList, outs := dst.toList.map fun _ => 0x38 }
        match s.moveErr c j [] with
        | (s, some e) => s.failCmd c.id e
        | (s, none) => if s.movesRegion c j && !others.isEmpty then s.failCmd c.id stNotPermitted else
          match others.find? fun d => (s.linkRoute d).isNone with
          | some d => s.failCmd c.id (s.noRoute d)
          | none =>
            let s := dst.toList.foldl (fun (s : State) d => s.setMark d.addr false) s
            let s := s.updCmd c.id fun x => { x with outs := dst.toList.map Desc.addr }
            let peers := others.filterMap fun d => (s.linkRoute d).map fun p => (c.id, d, p)
            let came := (s.mmv.arrived.filter fun e => e.1 == k.id).map (·.2)
            let s := s.setMmv fun m => { m with colls := m.colls ++ [k], peers := m.peers ++ peers, arrived := m.arrived.filter fun e => e.1 != k.id }
            let s := s.emit (.collRecord (recordBytes k.id (s.ownRecord k)))
            came.foldl (fun (s : State) r => match s.mmv.colls.find? fun x => x.cmd == c.id with
              | some k => s.collJoin k r
              | none => s) s

/-- COLL_MATCH_RECORD_RX. -/
def collMatchRecordRx (id : Nat) (r : CollRecord) (s : State) : State :=
  match s.mmv.colls.find? fun k => k.id == id with
  | some k => (s.collJoin k r).settle
  | none => s.setMmv fun m => { m with arrived := (m.arrived.filter fun e => !(e.1 == id && e.2.dev == r.dev)) ++ [(id, r)] }

def execCollMatchRecordRx (dt collId : Nat) (rec : CollRecord) (s : State) : Host.Outcome State Fault Refusal :=
  runEvent dt (collMatchRecordRx collId rec) s

/-! The transfer -/

/-- One combination in FP32, rounded to the format to nearest-even, R337. -/
def collCombine (redop fmt a b : Nat) : Nat :=
  let x := fmtVal fmt a
  let y := fmtVal fmt b
  let v := match redop with | 0 => (x.add y).f32 | 1 => FVal.max x y | _ => FVal.min x y
  (fmtEnc fmt false none v).code

/-- The reduction of contributions in a free order, chunk by chunk, R337. -/
def collReduce (ctr redop fmt n : Nat) (l : List (List Nat)) : List Nat :=
  let len := (l.headD []).length
  (List.range len).map fun i =>
    let chunk := i * n / Nat.max 1 len
    let parts := (l.zipIdx.map fun e => (e.1.getD i 0, e.2)).foldr (insByKey fun r => Config.freeAt ctr (chunk * 32 + r)) []
    match parts.map (·.1) with
    | [] => 0
    | a :: r => r.foldl (collCombine redop fmt) a

/-- Chunk r of n of a list. -/
def chunkOf (n r : Nat) (l : List Nat) : List Nat := (l.drop (r * (l.length / n))).take (l.length / n)

/-- What this device's destination receives, from every member's codes in rank order, R335. -/
def Coll.result (k : Coll) (ctr me fmt : Nat) (l : List (List Nat)) : List Nat :=
  let red := fun (x : List (List Nat)) => collReduce ctr k.redop fmt k.n x
  match k.op with
  | 0 => l.getD (k.rank k.root) []
  | 1 | 2 => red l
  | 3 => chunkOf k.n (k.rank me) (red l)
  | 4 => l.flatten
  | 5 => l.flatMap (chunkOf k.n (k.rank me))
  | _ => l.getD (k.rank k.root) []

/-- Writes a flat list of codes over the rows of a tensor. -/
def State.putCodes (s : State) (d : Desc) (l : List Nat) : State :=
  d.rows.zipIdx.foldl (fun (s : State) r => s.store r.1 (packRow d.fmt ((l.drop (r.2 * d.ext 0)).take (d.ext 0)))) s

/-- Whether the port's peer is a device. -/
def State.directTo (s : State) (d : Nat) : Bool :=
  match s.linkRoute d with
  | some p => s.fldOf (.mmvLinkPeer p) 0 5 == d
  | none => false

/-- The ring of R338: the chunk of every member is at least 1 MiB and every rank's route to the next is direct; whether the other
members' routes are is free here (log entry 70). -/
def State.collRing (s : State) (k : Coll) (bytes : Nat) : Bool :=
  let next := k.devs.getD ((k.rank s.devNum + 1) % k.n) 0
  decide (0x100000 ≤ bytes / k.n) && (k.n == 1 || s.directTo next) && (k.n == 1 || Config.freeWord s.freeCtr != 0)

/-- Payload bytes that device d sends to device e under the direct algorithm (log entry 70). -/
def Coll.owes (k : Coll) (d e bytes : Nat) : Nat :=
  if d = e then 0
  else match k.op with
    | 0 => if k.root = d then bytes else 0
    | 1 => if k.root = e then bytes else 0
    | 3 | 5 => bytes / k.n
    | 6 => if k.root = e then bytes else 0
    | 7 => if k.root = d then bytes else 0
    | _ => bytes

/-- Payload counted on the route to a device. -/
def State.collCount (s : State) (tx : Bool) (e : Nat × Nat) : State :=
  match s.linkRoute e.1 with
  | some p => if tx then s.linkTx p e.2 else s.countWrap (.mmvLinkRxBytes p) 0 64 e.2
  | none => s

/-- The transfers of a collective, counted on the links. -/
def State.collTraffic (s : State) (k : Coll) (ring : Bool) (bytes : Nat) : State :=
  let me := s.devNum
  let n := k.n
  if ring then
    let amount := (if k.op = 2 then 2 else 1) * (n - 1) * (bytes / n)
    let r := k.rank me
    (s.collCount true (k.devs.getD ((r + 1) % n) 0, amount)).collCount false (k.devs.getD ((r + n - 1) % n) 0, amount)
  else
    k.devs.foldl (fun (s : State) d => (s.collCount true (d, k.owes me d bytes)).collCount false (d, k.owes d me bytes)) s

/-- The tag that a record brings. -/
def recordTag (r : CollRecord) : Tag := Tag.ofBytes (leBytes 8 r.tag.1.toNat ++ leBytes 8 r.tag.2.toNat)

/-- The records of all members in rank order. -/
def State.collAll (s : State) (k : Coll) : List CollRecord :=
  k.devs.filterMap fun d => if d = s.devNum then some (s.ownRecord k) else k.recs.find? fun r => r.dev == d

/-- MOVE_COLLECTIVE: once every record has arrived the transfers run, and COMMAND_COMMIT ends it. -/
def moveCollective (c : Cmd) (k : Coll) (s : State) : State :=
  let all := s.collAll k
  let fmt := (s.ownRecord k).fmt
  let piece := ((all.filter fun r => Coll.hasSrc r.op k.root r.dev || decide (6 ≤ r.op)).map fun r => r.src.length).foldl Nat.max 0
  let ring := s.collRing k (if k.op = 4 then piece * k.n else piece) && decide (k.op < 6)
  let res := k.result s.freeCtr s.devNum fmt (all.map collCodes)
  let tags := (all.filter fun r => if 6 ≤ k.op then r.dev == k.root else Coll.hasSrc k.op k.root r.dev).map recordTag
  let s := (s.collTraffic k ring piece).updCmd c.id fun x => { x with ins := tags }
  let s := { s with freeCtr := s.freeCtr + 1 }
  let s := match k.dst with | some d => s.putCodes d res | none => s
  (s.setResult c.id 0x20 (leBytes 1 (k.rank s.devNum) ++ leBytes 1 (if ring then 0 else 1))).setVerdict c.id 0

def execMoveCollective (dt id : Nat) (s : State) : Host.Outcome State Fault Refusal :=
  runEvent dt (fun s => match s.runs id 0x0740, s.mmv.colls.find? fun k => k.cmd == id with
    | some c, some k => if k.recs.length + 1 = k.n then (moveCollective c k (s.start id)).settle else s
    | _, _ => s) s

/-- COLL_TIMEOUT: a member whose record or traffic is missing for timeout_ms; which members' traffic stopped is free. -/
def collTimeout (k : Coll) (s : State) : State :=
  if s.ns < k.since + k.timeoutMs * 1000000 then s
  else
    let missing := (k.devs.filter fun d => d != s.devNum && !(k.recs.any fun r => r.dev == d)).foldl (fun (m : Nat) d => m + 2 ^ d) 0
    let r := s.fresh
    let e := if missing = 0 then ((r.1.toNat &&& k.members), r.2) else (missing, s)
    ((e.2.raise 0x0707 0 (evData [k.id, e.1])).failCmd k.cmd 0x70).settle

def execCollTimeout (dt id : Nat) (s : State) : Host.Outcome State Fault Refusal :=
  runEvent dt (fun s => match s.mmv.colls.find? fun k => k.cmd == id with
    | some k => if s.isRunning id ∧ (s.cmd? id).any (fun c => c.verdict.isNone) = true then collTimeout k s else s
    | none => s) s

end Sys2Proof.Machine
end

