-- ==== Sys2Proof/Machine/Kv.lean ====
section
/-! DEFINITION. The KV page cache: R355 to R375 with their rows. A KV command's row does its work and commits it (R99); a row whose
pages are not there yet leaves it RUNNING. -/
namespace Sys2Proof.Machine

/-! Pages and their holders, R357, R358 -/

def State.addRef (s : State) (pool id : Nat) : State :=
  let p := s.kvPage pool id
  s.setKvPage pool id { p with refs := p.refs + 1 }

/-- A reference goes; the last one frees a page that no spill or fetch holds. -/
def State.unref (s : State) (pool id : Nat) : State :=
  let p := s.kvPage pool id
  if p.refs ≤ 1 ∧ (p.state = 1 ∨ p.state = 3 ∨ p.state = 5) then s.setKvPage pool id { p with state := 0, refs := 0, node := false }
  else s.setKvPage pool id { p with refs := p.refs - 1 }

/-- Free logical IDs of a pool. -/
def State.freeIds (s : State) (pool : Nat) (k : KvPool) : List Nat :=
  let used := ((s.kvPages pool).filter fun e => e.2.state != 0).map (·.1)
  (List.range k.ids).filter fun i => !(used.contains i)

/-- The lowest free page takes the lowest free frame: RESIDENT, with one reference. -/
def State.takePage (s : State) (pool : Nat) (k : KvPool) : Option (Nat × State) :=
  match (s.freeIds pool k).head?, (s.freeFrames pool k).head? with
  | some id, some f => some (id, s.setKvPage pool id { s.kvPage pool id with state := 1, node := false, refs := 1, frame := f, last := s.now })
  | _, _ => none

/-- The older of two pages by last_use. -/
def olderPage {α : Type} (last : α → Nat) (l : List α) : Option α :=
  l.foldl (fun (b : Option α) x => match b with | none => some x | some y => if last x < last y then some x else some y) none

/-- Step 1 of R358: the node whose page nothing else holds, that has no child, oldest first; for a frame the page is RESIDENT. -/
def State.nodeVictim (s : State) (pool : Option Nat) (frame : Bool) : Option KvNode :=
  let ok := fun (n : KvNode) =>
    let p := s.kvPage n.pool n.page
    pool.all (fun q => q == n.pool) && p.refs == 1 && (if frame then p.state == 1 else p.state == 1 || p.state == 3 || p.state == 5) &&
    !(s.kv.nodes.any fun m => m.pool == n.pool && m.depth == n.depth + 1 && m.parent == n.hash)
  olderPage (fun n => (s.kvPage n.pool n.page).last) (s.kv.nodes.filter ok)

/-- A node goes, and its page with it. -/
def State.dropNode (s : State) (n : KvNode) : State :=
  let s := s.setKv fun k => { k with nodes := k.nodes.filter fun m => !(m.pool == n.pool && m.hash == n.hash && m.depth == n.depth) }
  (s.setKvPage n.pool n.page { s.kvPage n.pool n.page with node := false }).unref n.pool n.page

/-- Whether a Cellar region can be reached, R368. -/
def State.cellarUp (s : State) (k : KvPool) : Bool :=
  match k.cellar.target with
  | 1 => (s.linkRoute k.cellar.dev).isSome
  | 2 => s.busMaster
  | _ => false

/-- Step 2 of R358: a spill of the oldest unpinned RESIDENT page begins. -/
def State.spillOne (s : State) (pool : Nat) (k : KvPool) : Option State :=
  match olderPage (fun e => e.2.last) ((s.kvPages pool).filter fun e => e.2.state == 1 && e.2.pins == 0), (s.freeSlots pool k).head? with
  | some (id, p), some slot => if s.cellarUp k then some (s.setKvPage pool id { p with state := 2, slot := slot, gen := p.gen + 1 }) else none
  | _, _ => none

/-- Reclaiming found no page. -/
def State.poolLow (s : State) (pool : Nat) : State := s.raiseLim 0x0720 pool s.kvOwner (evData [pool, s.kvFree pool])

def State.freeNodePages (s : State) (pool : Nat) (k : KvPool) (n ids : Nat) : Nat → State
  | 0 => s
  | f + 1 =>
    if n ≤ (s.freeFrames pool k).length ∧ ids ≤ (s.freeIds pool k).length then s
    else match s.nodeVictim (some pool) true with
      | some v => (s.dropNode v).freeNodePages pool k n ids f
      | none => s

def State.startSpills (s : State) (pool : Nat) (k : KvPool) : Nat → State
  | 0 => s
  | n + 1 => match s.spillOne pool k with
    | some s => s.startSpills pool k n
    | none => s

/-- Makes room for n frames and some IDs: 0 there is, 1 spills are on their way, 2 there is none. -/
def State.kvNeed (s : State) (pool : Nat) (k : KvPool) (n ids : Nat) : State × Nat :=
  let s := s.freeNodePages pool k n ids s.kv.nodes.length
  let flying := fun (s : State) => ((s.kvPages pool).filter fun e => e.2.state == 2).length
  if (s.freeIds pool k).length < ids then (s.poolLow pool, 2)
  else
    let free := (s.freeFrames pool k).length
    if n ≤ free then (s, 0)
    else
      let s := s.startSpills pool k (n - free - flying s)
      if n ≤ free + flying s then (s, 1) else (s.poolLow pool, 2)

/-- A fetch begins: the page takes a frame. 0 it has begun, 1 a spill is on its way, 2 there is no frame. -/
def State.beginFetch (s : State) (pool id : Nat) (k : KvPool) : State × Nat :=
  let r := s.kvNeed pool k 1 0
  let s := r.1
  if r.2 ≠ 0 then r
  else match (s.freeFrames pool k).head? with
    | some f => ((s.setKvPage pool id { s.kvPage pool id with state := 4, frame := f }).setKv fun v => { v with
        fetches := v.fetches ++ [KvFetch.mk pool id s.ns] }, 0)
    | none => (s, 2)

/-- Fetches of the pages of a list that lie in the Cellar; 0 all are resident, 1 wait, 2 no frame. -/
def State.fetchAll (s : State) (pool : Nat) (k : KvPool) (l : List Nat) : State × Nat :=
  l.foldl (fun (r : State × Nat) id =>
    let p := r.1.kvPage pool id
    if p.state = 3 then
      let b := r.1.beginFetch pool id k
      (b.1, Nat.max r.2 (Nat.max 1 b.2))
    else if p.state = 4 then (r.1, Nat.max r.2 1)
    else r) (s, 0)

/-! Runners -/

/-- The row of a KV command: it acts, or waits and may be run again. -/
def runKv (dt id code : Nat) (f : Cmd → State → State × Bool) (s : State) : Host.Outcome State Fault Refusal :=
  runEvent dt (fun s => match s.runs id code with
    | some c =>
      let r := f c s
      (if r.2 then r.1 else r.1.start id).settle
    | none => s) s

def State.kvFail (s : State) (c : Cmd) (st : Nat) : State × Bool := (s.failCmd c.id st, false)

/-- A command of the owner, R355. -/
def kvMine (c : Cmd) (s : State) (k : State → State × Bool) : State × Bool :=
  if !s.kvOn || s.kvOwner != c.part then s.kvFail c stNotPermitted else k s

/-- A command that names a LIVE sequence. -/
def kvWith (c : Cmd) (s : State) (f : KvSeq → KvPool → State → State × Bool) : State × Bool :=
  let q := c.p 0x20 4
  match s.seqErr c q with
  | some e => s.kvFail c e
  | none => match s.kvSeq? q with
    | none => s.kvFail c stBadParam
    | some x => match s.kvPool? x.pool with
      | none => s.kvFail c stBadParam
      | some k => f x k s

/-- An event runner's command that commits in its row. -/
def State.kvDone (s : State) (c : Cmd) (b : Bytes) : State × Bool := (s.doneWith c b, false)

/-! KV_INIT, KV_POOL_CREATE, KV_CELLAR_CONFIG, KV_SET_ROLE: R355, R356, R367, R371 -/

/-- KV_INIT. -/
def kvInit (c : Cmd) (s : State) : State × Bool :=
  let a := c.p 0x20 8
  let n := c.p 0x28 8
  let need := 4096 + 256 * c.p 0x30 4 + 1024 * c.p 0x34 4 + 64 * c.p 0x38 4 + 32 * c.p 0x3C 4
  let bad := decide (65536 < c.p 0x30 4 ∨ 4194304 < c.p 0x38 4 ∨ a % 65536 ≠ 0 ∨ n < need)
  if s.kvOn && s.kvOwner != c.part then s.kvFail c stNotPermitted
  else if bad then s.kvFail c stBadParam
  else if s.kv.seqs.any fun e => !e.2.broken then s.kvFail c stBusy
  else match ({ s with kv := {} }).access (.part c.part) .other true a n with
    | some st => (s.reportAccess (.part c.part) .other true 6 a n st).kvFail c st
    | none =>
      let r := s.draw 32
      let s := (r.2.setReg .mmvKvCtl (setFld (setFld (0 : W64) 31 1 1) 28 3 c.part)).clearMem a n
      let s := s.setKv fun k => { names := k.names, metaAddr := a, metaBytes := n, maxSeq := c.p 0x30 4, ptBlocks := c.p 0x34 4
                                  maxNodes := c.p 0x38 4, maxIds := c.p 0x3C 4, key := r.1 }
      s.kvDone c []

def execKvInit (dt id : Nat) (s : State) : Host.Outcome State Fault Refusal := runKv dt id 0x0750 kvInit s

/-- KV_POOL_CREATE. -/
def kvPoolCreate (c : Cmd) (s : State) : State × Bool := kvMine c s fun s =>
  let p := c.p 0x20 1
  let frames := c.p 0x2C 4
  let ids := c.p 0x38 4
  let idBase := (s.kv.pools.map fun e => e.2.ids).sum
  let k : KvPool := { ptok := c.p 0x21 1, fmt := c.p 0x22 1, sharing := (c.p 0x23 1).testBit 0, layers := c.p 0x24 2, heads := c.p 0x26 2, d := c.p 0x28 2
                      frames := frames, addr := c.p 0x30 8, ids := ids, reserve := if c.p 0x3C 4 = 0 then frames / 16 else c.p 0x3C 4
                      prefetch := c.p 0x40 1, salt := cut c.params 0x28 16, idBase := idBase, size := 0 }
  let k := { k with size := k.pageBytes }
  let bad := decide (7 < p ∨ k.ptok < 4 ∨ 8 < k.ptok ∨ k.layers = 0 ∨ 512 < k.layers ∨ k.heads = 0 ∨ 64 < k.heads ∨ k.d < 16 ∨ 256 < k.d ∨ k.d % 16 ≠ 0 ∨
    frames = 0 ∨ k.addr % 65536 ≠ 0 ∨ ids < frames ∨ 16777216 < ids ∨ s.kv.maxIds < idBase + ids ∨ 64 < k.prefetch)
  if s.kvRole = 3 then s.kvFail c stNotPermitted
  else if bad then s.kvFail c stBadParam
  else if k.fmt = 0 ∨ 4 < k.fmt then s.kvFail c stFormat
  else if (s.kvPool? p).isSome then s.kvFail c stBusy
  else match s.access (.part c.part) .other true k.addr (frames * k.size) with
    | some st => (s.reportAccess (.part c.part) .other true 6 k.addr (frames * k.size) st).kvFail c st
    | none => ((s.setKvPool p k).setFldOf .mmvKvCtl p 1 1).kvDone c (leBytes 8 k.size)

def execKvPoolCreate (dt id : Nat) (s : State) : Host.Outcome State Fault Refusal := runKv dt id 0x0751 kvPoolCreate s

/-- Bytes of a pool's Cellar region. -/
def KvPool.cellarSize (k : KvPool) : Nat := if k.cellar.target = 0 then 0 else k.cellar.slots * (k.size + 64)

/-- KV_CELLAR_CONFIG. -/
def kvCellarConfig (c : Cmd) (s : State) : State × Bool := kvMine c s fun s =>
  let p := c.p 0x20 1
  match s.kvPool? p with
  | none => s.kvFail c stBadParam
  | some k =>
    let t := c.p 0x21 1
    let e : Cellar := if t = 0 then {} else
      { target := t, dev := c.p 0x22 1, timeoutMs := c.p 0x24 4, base := c.p 0x28 8, slots := c.p 0x30 4, apOff := c.p 0x38 8 }
    let x := { k with cellar := e }
    let bad := decide (2 < t) || (t != 0 && (decide ((t = 1 ∧ 23 < e.dev) ∨ e.timeoutMs = 0 ∨ 10000 < e.timeoutMs ∨ e.slots = 0 ∨ e.apOff % 0x40000000 ≠ 0 ∨
        cellarSize < e.apOff + x.cellarSize) ||
      s.kv.pools.any fun o => o.1 != p && o.2.cellar.target != 0 && meets e.apOff x.cellarSize o.2.cellar.apOff o.2.cellarSize))
    if bad then s.kvFail c stBadParam
    else if (s.kvPages p).any fun e => decide (2 ≤ e.2.state ∧ e.2.state ≤ 4) then s.kvFail c stBusy
    else (s.setKvPool p x).kvDone c []

def execKvCellarConfig (dt id : Nat) (s : State) : Host.Outcome State Fault Refusal := runKv dt id 0x0752 kvCellarConfig s

/-- KV_SET_ROLE. -/
def kvSetRole (c : Cmd) (s : State) : State × Bool := kvMine c s fun s =>
  if 3 < c.p 0x20 1 then s.kvFail c stBadParam else (s.setFldOf .mmvKvCtl 24 2 (c.p 0x20 1)).kvDone c []

def execKvSetRole (dt id : Nat) (s : State) : Host.Outcome State Fault Refusal := runKv dt id 0x075C kvSetRole s

/-! Sequences, R359, R366 -/

/-- Page-table blocks in use. -/
def State.ptUsed (s : State) : Nat := (s.kv.seqs.map fun e => ceilDiv e.2.table.length 256).sum

/-- Whether the blocks of more table entries are there. -/
def State.ptRoom (s : State) (old new : Nat) : Bool := decide (s.ptUsed + ceilDiv new 256 ≤ s.kv.ptBlocks + ceilDiv old 256)

/-- The lowest free sequence ID. -/
def State.freeSeq (s : State) : Option Nat :=
  if s.kv.maxSeq ≤ s.kv.seqs.length then none
  else (List.range (s.kv.seqs.length + 1)).find? fun q => !(s.kv.seqs.any fun e => e.1 == q)

/-- The hash of a block, R365. -/
def blockHash (salt : Bytes) (prev : Nat) (tokens : List Nat) : Nat :=
  numAt (Config.shake256 (salt ++ leBytes 8 prev ++ tokens.flatMap (leBytes 4)) 8) 0 8

/-- The hashes of the full blocks of a token list, from the given one on. -/
def blockHashes (k : KvPool) (tokens : List Nat) : Nat → Nat → List Nat
  | 0, _ => []
  | n + 1, prev =>
    let h := blockHash k.salt prev (tokens.take k.tokens)
    h :: blockHashes k (tokens.drop k.tokens) n h

/-- The node that names a prefix. -/
def State.nodeOf (s : State) (pool hash depth : Nat) : Option KvNode :=
  s.kv.nodes.find? fun n => n.pool == pool && n.hash == hash && n.depth == depth

/-- Reads n token IDs from a descriptor of u32 elements. -/
def withTokens (c : Cmd) (a n : Nat) (s : State) (f : List Nat → State → State × Bool) : State × Bool :=
  match s.readDesc c a with
  | .error e => (s.descFailed c [a] e).kvFail c e
  | .ok d =>
    if d.dev ≠ 255 ∨ d.mark = false then s.kvFail c stBadParam
    else if d.fmt ≠ 11 then s.kvFail c stFormat
    else if d.ext 0 * d.count < n then s.kvFail c stBadParam
    else match s.tensorErr (.part c.part) .other false d with
      | some (b, st) => (s.reportAccess (.part c.part) .other false 6 b 64 st).kvFail c st
      | none => match s.tensorUe d with
        | some b => (s.memUe (.part c.part) 6 (s.ueLine b 64)).kvFail c 0x25
        | none => f ((s.flatCodes d).take n) s

/-- The pages of the longest matched prefix. -/
def State.matchPrefix (s : State) (pool : Nat) : List Nat → Nat → List Nat
  | [], _ => []
  | h :: r, depth => match s.nodeOf pool h depth with
    | some n => if (s.kvPage pool n.page).state = 5 then [] else n.page :: s.matchPrefix pool r (depth + 1)
    | none => []

/-- KV_SEQ_CREATE. -/
def kvSeqCreate (c : Cmd) (s : State) : State × Bool := kvMine c s fun s =>
  let p := c.p 0x20 1
  let n := c.p 0x24 4
  match s.kvPool? p, s.freeSeq with
  | none, _ => s.kvFail c stBadParam
  | some _, none => s.kvFail c 0x27
  | some k, some q =>
    let make := fun (table : List Nat) (s : State) =>
      if !(s.ptRoom 0 table.length) then (s.poolLow p).kvFail c 0x26
      else
        let s := table.foldl (fun (s : State) id => s.addRef p id) s
        (s.setKvSeq q { pool := p, len := table.length * k.tokens, table := table }).kvDone c
          (leBytes 4 q ++ leBytes 4 (table.length * k.tokens) ++ leBytes 4 table.length)
    if (c.p 0x21 1).testBit 0 ∧ n ≠ 0 then
      withTokens c (c.p 0x28 8) n s fun l s =>
        let blocks := Nat.min 8192 (n / k.tokens)
        let m := if k.sharing then s.matchPrefix p (blockHashes k l blocks 0) 0 else []
        make m ((s.addSat (.mmvKvPrefix p) 0 16 m.length).addSat (.mmvKvPrefix p) 16 16 (blocks - m.length))
    else make [] s

def execKvSeqCreate (dt id : Nat) (s : State) : Host.Outcome State Fault Refusal := runKv dt id 0x0753 kvSeqCreate s

/-- KV_SEQ_FORK. -/
def kvSeqFork (c : Cmd) (s : State) : State × Bool := kvWith c s fun x _ s =>
  match s.freeSeq with
  | none => s.kvFail c 0x27
  | some q =>
    if !(s.ptRoom 0 x.table.length) then (s.poolLow x.pool).kvFail c 0x26
    else ((x.table.foldl (fun (s : State) id => s.addRef x.pool id) s).setKvSeq q x).kvDone c (leBytes 4 q)

def execKvSeqFork (dt id : Nat) (s : State) : Host.Outcome State Fault Refusal := runKv dt id 0x0754 kvSeqFork s

/-- KV_SEQ_TRUNCATE. -/
def kvSeqTruncate (c : Cmd) (s : State) : State × Bool := kvWith c s fun x k s =>
  let n := c.p 0x24 4
  if x.len < n then s.kvFail c stBadParam
  else
    let keep := ceilDiv n k.tokens
    let gone := x.table.drop keep
    let s := s.setKvSeq (c.p 0x20 4) { x with len := n, table := x.table.take keep }
    (gone.foldl (fun (s : State) id => s.unref x.pool id) s).kvSync.kvDone c (leBytes 4 gone.length)

def execKvSeqTruncate (dt id : Nat) (s : State) : Host.Outcome State Fault Refusal := runKv dt id 0x0755 kvSeqTruncate s

/-- A sequence is released. -/
def State.releaseSeq (s : State) (q : Nat) (x : KvSeq) : State :=
  let s := s.setKv fun k => { k with seqs := k.seqs.filter fun e => e.1 != q }
  (x.table.foldl (fun (s : State) id => s.unref x.pool id) s).kvSync

/-- KV_SEQ_RELEASE, of a BROKEN sequence too. -/
def kvSeqRelease (c : Cmd) (s : State) : State × Bool := kvMine c s fun s =>
  match s.kvSeq? (c.p 0x20 4) with
  | none => s.kvFail c stBadParam
  | some x => (s.releaseSeq (c.p 0x20 4) x).kvDone c (leBytes 4 x.table.length)

def execKvSeqRelease (dt id : Nat) (s : State) : Host.Outcome State Fault Refusal := runKv dt id 0x0756 kvSeqRelease s

/-- KV_SEQ_STATUS. -/
def kvSeqStatus (c : Cmd) (s : State) : State × Bool := kvMine c s fun s =>
  let q := c.p 0x20 4
  match s.kvSeq? q with
  | none => s.kvFail c stBadParam
  | some x =>
    let n := fun (st : Nat → Bool) => (x.table.filter fun id => st (s.kvPage x.pool id).state).length
    let waiting := (s.kv.names.filter fun e => e.1 != c.id && e.2.contains q).length
    s.kvDone c (leBytes 1 (if x.broken then 2 else 1) ++ leBytes 1 x.pool ++ leBytes 2 0 ++ leBytes 4 x.len ++ leBytes 4 x.table.length ++
      leBytes 4 (n fun t => t == 1 || t == 2) ++ leBytes 4 (n fun t => t == 3) ++ leBytes 4 waiting ++ leBytes 8 0 ++ x.tag.bytes)

def execKvSeqStatus (dt id : Nat) (s : State) : Host.Outcome State Fault Refusal := runKv dt id 0x075D kvSeqStatus s

/-! KV_APPEND, R363, R364 -/

/-- The checks of the two tensors. -/
def appendErr (c : Cmd) (k : KvPool) (ds : List (Nat × Desc)) : Option Nat :=
  let n := c.p 0x24 4
  firstOf [
    ((ds.any fun e => e.2.dev != 255 || !e.2.mark || !(e.2.hasShape [k.d, n, k.heads, k.layers]) || decide (4 < e.2.rank)), stBadParam),
    ((ds.any fun e => e.2.fmt != k.fmt && e.2.fmt != 1 && e.2.fmt != 2), stFormat)]

/-- A row as the pool holds it: a 16-bit input is multiplied, then converted. -/
def appendCode (k : KvPool) (d : Desc) (mul : FVal) (code : Nat) : Nat :=
  if d.fmt = 1 ∨ d.fmt = 2 then (fmtEnc k.fmt false none ((fmtVal d.fmt code).mul mul).f32).code else code

/-- Writes one token of every layer, head and kind. -/
def State.appendToken (s : State) (k : KvPool) (ds : List (Nat × Desc)) (mulK mulV : FVal) (frame i pos : Nat) : State :=
  (List.range k.layers).foldl (fun (s : State) l => (List.range k.heads).foldl (fun (s : State) h => [0, 1].foldl (fun (s : State) kind =>
    let d := tdescD ds (0x28 + 8 * kind)
    let row := d.rowAt [i, h, l]
    s.store (k.rowAt frame l kind h (pos % k.tokens)) (packRow k.fmt ((s.rowCodes d row).map (appendCode k d (if kind = 0 then mulK else mulV))))) s) s) s

/-- A shared page is copied to a new frame before it is written, R364. -/
def State.copyPage (s : State) (q : Nat) (x : KvSeq) (k : KvPool) (entry : Nat) : State :=
  let old := x.table.getD entry 0
  match s.takePage x.pool k with
  | none => s
  | some (id, s) =>
    let s := s.wr (k.frameAt (s.kvPage x.pool id).frame) (s.rd (k.frameAt (s.kvPage x.pool old).frame) k.size)
    ((s.setKvSeq q { x with table := x.table.set entry id }).unref x.pool old).countSat (.mmvKvCow x.pool) 0 32

/-- New pages at the end of a table. -/
def State.growTable (s : State) (q : Nat) (k : KvPool) : Nat → State
  | 0 => s
  | n + 1 => match s.kvSeq? q with
    | none => s
    | some x => match s.takePage x.pool k with
      | none => s
      | some (id, s) => (s.setKvSeq q { x with table := x.table ++ [id] }).growTable q k n

/-- KV_APPEND: every page is there before the first write; it commits in its row. -/
def kvAppend (c : Cmd) (s : State) : State × Bool := kvWith c s fun x k s =>
  let q := c.p 0x20 4
  let n := c.p 0x24 4
  match s.readDescs c (fun o => c.p o 8) [(0x28, false), (0x30, false)] with
  | .error e => (s.descFailed c [c.p 0x28 8, c.p 0x30 8] e).kvFail c e
  | .ok ds =>
    let entries := ceilDiv (x.len + n) k.tokens
    let first := x.len / k.tokens
    let part := x.len % k.tokens ≠ 0 ∧ n ≠ 0
    let p := s.kvPage x.pool (x.table.getD first 0)
    let cow := part ∧ 1 < p.refs
    match appendErr c k ds with
    | some e => s.kvFail c e
    | none => match ds.findSome? fun e => s.tensorErr (.part c.part) .other false e.2 with
      | some (b, st) => (s.reportAccess (.part c.part) .other false 6 b 64 st).kvFail c st
      | none => match (ds.findSome? fun e => s.tensorUe e.2) with
        | some b => (s.memUe (.part c.part) 6 (s.ueLine b 64)).kvFail c 0x25
        | none =>
          if 8192 < entries then s.kvFail c 0x27
          else if !(s.ptRoom x.table.length entries) then (s.poolLow x.pool).kvFail c 0x26
          else
            let f := s.fetchAll x.pool k (if part then [x.table.getD first 0] else [])
            if f.2 = 2 then f.1.kvFail c 0x26
            else if f.2 = 1 then (f.1, true)
            else
              let more := entries - x.table.length
              let need := s.kvNeed x.pool k (more + if cow then 1 else 0) (more + if cow then 1 else 0)
              if need.2 = 2 then need.1.kvFail c 0x26
              else if need.2 = 1 then (need.1, true)
              else
                let s := if cow then need.1.copyPage q x k first else need.1
                let s := s.growTable q k more
                let y := (s.kvSeq? q).getD x
                let mul := fun (o : Nat) => f32Val (BitVec.ofNat 32 (c.p o 4))
                let s := (List.range n).foldl (fun (s : State) i =>
                  let id := y.table.getD ((x.len + i) / k.tokens) 0
                  (s.appendToken k ds (mul 0x38) (mul 0x3C) (s.kvPage x.pool id).frame i (x.len + i)).touchPage x.pool id) s
                let tag := if (c.p 0x40 1).testBit 0 then tagOut (x.tag :: ds.map (·.2.tag)) else x.tag
                (s.setKvSeq q { y with len := x.len + n, tag := tag }).kvSync.kvDone c (leBytes 4 (x.len + n) ++ leBytes 4 (if cow then 1 else 0))

def execKvAppend (dt id : Nat) (s : State) : Host.Outcome State Fault Refusal := runKv dt id 0x0757 kvAppend s

/-! KV_PUBLISH, R366 -/

/-- One block of a publish: the state, the blocks entered, the duplicates, and whether the tree is full. -/
def State.publishBlock (s : State) (q pool : Nat) (hash parent depth : Nat) (r : Nat × Nat × Bool) : State × Nat × Nat × Bool :=
  match s.kvSeq? q with
  | none => (s, r)
  | some x =>
    let own := x.table.getD depth 0
    if r.2.2 then (s, r)
    else match s.nodeOf pool hash depth with
      | some n =>
        if n.page = own then (s, r)
        else
          let s := (s.addRef pool n.page).setKvSeq q { x with table := x.table.set depth n.page }
          ((s.unref pool own), r.1, r.2.1 + 1, false)
      | none =>
        let s := if s.kv.maxNodes ≤ s.kv.nodes.length then (match s.nodeVictim none false with | some v => s.dropNode v | none => s) else s
        if s.kv.maxNodes ≤ s.kv.nodes.length then (s, r.1, r.2.1, true)
        else
          let s := s.setKv fun k => { k with nodes := k.nodes ++ [KvNode.mk pool hash parent depth own] }
          let p := s.kvPage pool own
          (s.setKvPage pool own { p with node := true, refs := p.refs + 1 }, r.1 + 1, r.2.1, false)

/-- KV_PUBLISH. -/
def kvPublish (c : Cmd) (s : State) : State × Bool := kvWith c s fun x k s =>
  withTokens c (c.p 0x28 8) x.len s fun l s =>
    let hs := if k.sharing then blockHashes k l (x.len / k.tokens) 0 else []
    let r := hs.zipIdx.foldl (fun (r : State × Nat × Nat × Bool) h =>
      r.1.publishBlock (c.p 0x20 4) x.pool h.1 (if h.2 = 0 then 0 else hs.getD (h.2 - 1) 0) h.2 r.2) (s, 0, 0, false)
    r.1.kvSync.kvDone c (leBytes 4 r.2.1 ++ leBytes 4 r.2.2.1)

def execKvPublish (dt id : Nat) (s : State) : Host.Outcome State Fault Refusal := runKv dt id 0x0758 kvPublish s

/-! KV_PREFETCH and the Cellar, R358, R367 to R369 -/

/-- Fetches that ended for a command. -/
def State.fetchedFor (s : State) (id : Nat) : Nat := match s.kv.fetchedBy.find? fun e => e.1 == id with | some e => e.2 | none => 0

/-- KV_PREFETCH. -/
def kvPrefetch (c : Cmd) (s : State) : State × Bool := kvWith c s fun x k s =>
  let r := s.fetchAll x.pool k x.table
  if r.2 = 2 then r.1.kvFail c 0x26
  else if r.2 = 1 then (r.1, true)
  else r.1.kvDone c (leBytes 4 (r.1.fetchedFor c.id))

def execKvPrefetch (dt id : Nat) (s : State) : Host.Outcome State Fault Refusal := runKv dt id 0x0759 kvPrefetch s

/-- The IV of a slot: pool, logical ID, generation (log entry 71). -/
def pageIv (pool id gen : Nat) : Bytes := leBytes 1 pool ++ leBytes 3 id ++ leBytes 8 gen

/-- A slot: the encrypted page and its trailer, R369. -/
def State.slotBytes (s : State) (pool id : Nat) (k : KvPool) (p : KvPage) : Bytes :=
  let e := Config.gcmSeal s.kv.key (pageIv pool id p.gen) [] (s.rd (k.frameAt p.frame) k.size)
  e.1 ++ cut e.2 0 16 ++ leBytes 4 id ++ leBytes 1 pool ++ List.replicate 11 0 ++ leBytes 8 p.gen ++ List.replicate 24 0

/-- The page that a slot holds, when its trailer and its tag agree. -/
def State.openSlot (s : State) (pool id : Nat) (k : KvPool) (p : KvPage) (b : Bytes) : Option Bytes :=
  let n := k.size
  if b.length = n + 64 ∧ numAt b (n + 16) 4 = id ∧ numAt b (n + 20) 1 = pool ∧ numAt b (n + 32) 8 = p.gen then
    Config.gcmOpen s.kv.key (pageIv pool id p.gen) [] (b.take n) (cut b n 16)
  else none

/-- A page whose last reference went while it was being moved is free. -/
def State.freeIfUnheld (s : State) (pool id : Nat) : State :=
  if (s.kvPage pool id).refs = 0 then s.setKvPage pool id { s.kvPage pool id with state := 0, node := false } else s

/-- KV_SPILL_DONE: the slot is written, or the region could not be reached and the page stays. -/
def kvSpillDone (pool id : Nat) (s : State) : State :=
  let p := s.kvPage pool id
  match s.kvPool? pool with
  | none => s
  | some k =>
    if p.state ≠ 2 then s
    else if !(s.cellarUp k) then (s.setKvPage pool id { p with state := 1 }).freeIfUnheld pool id
    else
      let at_ := k.cellar.base + p.slot * (k.size + 64)
      let b := s.slotBytes pool id k p
      let s := if k.cellar.target = 1 then s.peerWrite k.cellar.dev s.kvOwner at_ b else s.hostWrites at_ b false
      ((s.setKvPage pool id { p with state := 3 }).countSat (.mmvKvSpill pool) 0 16).freeIfUnheld pool id

def execKvSpillDone (dt pool page : Nat) (s : State) : Host.Outcome State Fault Refusal := runEvent dt (kvSpillDone pool page) s

/-- The sequences whose tables hold a page. -/
def State.holders (s : State) (pool id : Nat) : List Nat :=
  (s.kv.seqs.filter fun e => e.2.pool == pool && e.2.table.contains id).map (·.1)

/-- The page of a walk's entry. -/
def State.walkPage (s : State) (w : KvWalk) (e : Nat × Nat) : Option Nat :=
  let r := (s.attnOf w.job.raw w.job.ds 0).rows.getD e.1 ⟨0, 0, 0, 0, 0, 0⟩
  if r.kvLen ≤ r.qLen then none else (s.kvSeq? r.seq).bind fun x => x.table[e.2]?

/-- The RUNNING commands that need a page now. -/
def State.needers (s : State) (pool id : Nat) : List Nat :=
  let qs := s.holders pool id
  (s.ccx.cmds.filter fun c => c.state == .running && c.verdict.isNone && s.kv.names.any (fun e => e.1 == c.id && e.2.any qs.contains) &&
    (if c.code = 0x0610 then s.kv.walks.any fun w => w.cmd == c.id && w.todo.any fun t => s.walkPage w t == some id
     else c.code == 0x0757 || c.code == 0x0759 || c.code == 0x075A)).map (·.id)

/-- A fetched page failed its check, R369. -/
def State.losePage (s : State) (pool id : Nat) : State :=
  let need := s.needers pool id
  let qs := (s.holders pool id).filter fun q => match s.kvSeq? q with | some x => !x.broken | none => false
  let s := ((s.setKvPage pool id { s.kvPage pool id with state := 5 }).countSat (.mmvKvLost pool) 0 32).raise 0x0721 s.kvOwner (evData [pool, id])
  let s := qs.foldl (fun (s : State) q => match s.kvSeq? q with
    | some x => (s.setKvSeq q { x with broken := true }).raise 0x0722 s.kvOwner (evData [q])
    | none => s) s
  ((need.foldl (fun (s : State) c => s.failCmd c 0x25) s).freeIfUnheld pool id).settle

/-- KV_FETCH_DONE with what the slot held. -/
def kvFetchDone (pool id : Nat) (b : Bytes) (s : State) : State :=
  let p := s.kvPage pool id
  match s.kvPool? pool with
  | none => s
  | some k =>
    if p.state ≠ 4 ∨ s.cellarUp k = false then s
    else
      let s := s.setKv fun v => { v with fetches := v.fetches.filter fun f => !(f.pool == pool && f.page == id) }
      let s := s.countSat (.mmvKvFetch pool) 0 16
      let s := match s.linkRoute k.cellar.dev with
        | some q => if k.cellar.target = 1 then s.countWrap (.mmvLinkRxBytes q) 0 64 (k.size + 64) else s
        | none => s
      match s.openSlot pool id k p b with
      | none => s.losePage pool id
      | some page =>
        let qs := s.holders pool id
        let ids := (s.kv.names.filter fun e => e.2.any qs.contains).map (·.1)
        let s := s.setKv fun v => { v with fetchedBy := (v.fetchedBy.filter fun e => !(ids.contains e.1)) ++ ids.map fun i => (i, s.fetchedFor i + 1) }
        ((s.wr (k.frameAt p.frame) (cut page 0 k.size)).setKvPage pool id { p with state := 1 }).freeIfUnheld pool id

def execKvFetchDone (dt pool page : Nat) (slot : Bytes) (s : State) : Host.Outcome State Fault Refusal := runEvent dt (kvFetchDone pool page slot) s

/-- KV_FETCH_TIMEOUT: the page stays in the Cellar. -/
def kvFetchTimeout (pool id : Nat) (s : State) : State :=
  match s.kvPool? pool, s.kv.fetches.find? fun f => f.pool == pool && f.page == id with
  | some k, some f =>
    if s.ns < f.since + k.cellar.timeoutMs * 1000000 ∨ (s.kvPage pool id).state ≠ 4 then s
    else
      let need := s.needers pool id
      let s := s.setKv fun v => { v with fetches := v.fetches.filter fun f => !(f.pool == pool && f.page == id) }
      let s := (s.setKvPage pool id { s.kvPage pool id with state := 3 }).raiseLim 0x0723 pool s.kvOwner (evData [pool, k.cellar.target])
      ((need.foldl (fun (s : State) c => s.failCmd c 0x28) s).freeIfUnheld pool id).settle
  | _, _ => s

def execKvFetchTimeout (dt pool page : Nat) (s : State) : Host.Outcome State Fault Refusal := runEvent dt (kvFetchTimeout pool page) s

/-- KV_RECLAIM: in the background, while fewer than reserve frames are free. -/
def kvReclaim (pool : Nat) (s : State) : State :=
  match s.kvPool? pool with
  | none => s
  | some k =>
    if k.reserve ≤ (s.freeFrames pool k).length then s
    else match s.nodeVictim (some pool) true with
      | some v => s.dropNode v
      | none => match s.spillOne pool k with
        | some s => s
        | none => s.poolLow pool

def execKvReclaim (dt pool : Nat) (s : State) : Host.Outcome State Fault Refusal := runEvent dt (kvReclaim pool) s

/-! The walk, R361, R362 -/

/-- KV_WALK_EMIT: the next page descriptor enters the core's queue once its page is resident. -/
def kvWalkEmit (id : Nat) (s : State) : State :=
  match s.kv.walks.find? fun w => w.cmd == id with
  | none => s
  | some w => match w.todo, s.kvPool? w.pool with
    | e :: rest, some k =>
      let put := fun (w : KvWalk) (s : State) => s.setKv fun v => { v with walks := updFirst (fun x => x.cmd == id) (fun _ => w) v.walks }
      let emit := fun (s : State) =>
        if 64 ≤ (s.queued w.job.core).length then s
        else (put { w with todo := rest, stalled := false } s).pushJob { w.job with units := [e] } false
      let row := (s.attnOf w.job.raw w.job.ds 0).rows.getD e.1 ⟨0, 0, 0, 0, 0, 0⟩
      let late := fun (s : State) =>
        if w.stalled then s
        else ((put { w with stalled := true } s).countSat (.mmvKvFetch w.pool) 16 16).raiseLim 0x0724 w.pool s.kvOwner (evData [w.pool, row.seq])
      match s.walkPage w e with
      | none => emit s
      | some page =>
        let st := (s.kvPage w.pool page).state
        if st = 1 then
          let s := (emit s).touchPage w.pool page
          match s.walkPage w (e.1, e.2 + k.prefetch) with
          | some next => if (s.kvPage w.pool next).state = 3 then (s.beginFetch w.pool next k).1 else s
          | none => s
        else if st = 4 then late s
        else if st = 3 then
          let r := s.beginFetch w.pool page k
          if r.2 = 2 then (r.1.failCmd id 0x26).settle else late r.1
        else if st = 5 then (s.failCmd id 0x25).settle
        else s
    | _, _ => s

def execKvWalkEmit (dt id : Nat) (s : State) : Host.Outcome State Fault Refusal := runEvent dt (kvWalkEmit id) s

/-- The sequences that a command names, R358: by its parameters, or by the rows of a paged ATTN_FWD. -/
def State.seqsOf (s : State) (c : Cmd) : List Nat :=
  if c.code = 0x0610 ∧ c.p 0x84 1 = 1 then
    match s.readDesc c (c.p 0x60 8) with
    | .error _ => []
    | .ok d => (((List.range (c.p 0x68 4)).map fun r => s.lenRow d r).filter fun r => r.qLen != 0).map (·.seq) |>.eraseDups
  else if (0x0754 ≤ c.code ∧ c.code ≤ 0x075A) ∨ c.code = 0x075D then [c.p 0x20 4]
  else []

/-- COMMAND_ACCEPT of a command that names sequences: they are pinned, which cancels their spills (R358, R369); the first fetches of a
paged ATTN_FWD start (R362); one accepted after a release of its sequence is marked (R361). -/
def State.kvAccept (s : State) (c : Cmd) : State :=
  let qs := s.seqsOf c
  if !s.kvOn || s.kvOwner != c.part || qs.isEmpty then s
  else
    let doomed := s.ccx.cmds.any fun e => e.code == 0x0756 && decide (e.id < c.id) && !e.state.final && qs.contains (e.p 0x20 4)
    let s := if doomed then s.updCmd c.id fun x => { x with aux := [0x11] } else s
    let s := (s.setKv fun k => { k with names := k.names ++ [(c.id, qs)] }).kvSync
    let s := s.kv.pages.foldl (fun (s : State) e =>
      let pool := e.1 / 0x1000000
      let p := s.kvPage pool (e.1 % 0x1000000)
      if p.state = 2 ∧ p.pins ≠ 0 then (s.setKvPage pool (e.1 % 0x1000000) { p with state := 1 }).countSat (.mmvKvSpill pool) 16 16 else s) s
    if c.code ≠ 0x0610 then s
    else qs.foldl (fun (s : State) q => match s.kvSeq? q with
      | none => s
      | some x => match s.kvPool? x.pool with
        | none => s
        | some k => (x.table.take k.prefetch).foldl (fun (s : State) id =>
            if (s.kvPage x.pool id).state = 3 then (s.beginFetch x.pool id k).1 else s) s) s

/-- Whether a command waits for an earlier one on a sequence that both name, R361. -/
def State.kvWaits (s : State) (c : Cmd) : Bool :=
  let of_ := fun (id : Nat) => ((s.kv.names.find? fun e => e.1 == id).map (·.2)).getD []
  c.code != 0x075D && s.ccx.cmds.any fun e => decide (e.id < c.id) && !e.state.final && e.code != 0x075D && (of_ e.id).any (of_ c.id).contains

/-! Moving a sequence, R372 -/

/-- What a sender says of a sequence before its pages. -/
def kvHeader (c : Cmd) (x : KvSeq) (k : KvPool) : Bytes :=
  leBytes 4 (c.p 0x28 4) ++ leBytes 1 k.ptok ++ leBytes 1 k.fmt ++ leBytes 2 k.layers ++ leBytes 2 k.heads ++ leBytes 2 k.d ++ leBytes 4 x.len ++ x.tag.bytes

/-- KV_SEQ_SEND: it fetches its Cellar pages, sends, and waits for the receiver's status. -/
def kvSeqSend (c : Cmd) (s : State) : State × Bool := kvWith c s fun x k s =>
  let dev := c.p 0x24 1
  if s.kvRole = 2 ∨ s.kvRole = 3 then s.kvFail c stNotPermitted
  else if 23 < dev then s.kvFail c stBadParam
  else if (s.linkRoute dev).isNone then s.kvFail c 0x70
  else if c.aux.contains 1 then (s, true)
  else
    let r := s.fetchAll x.pool k x.table
    if r.2 = 2 then r.1.kvFail c 0x26
    else if r.2 = 1 then (r.1, true)
    else
      let s := r.1
      let b := kvHeader c x k ++ x.table.flatMap fun id => s.rd (k.frameAt (s.kvPage x.pool id).frame) k.size
      let s := x.table.foldl (fun (s : State) id => s.touchPage x.pool id) (s.peerWrite dev c.part 0 b)
      ((s.setResult c.id 0x20 (leBytes 8 (x.table.length * k.size))).updCmd c.id fun y => { y with aux := y.aux ++ [1] }, true)

def execKvSeqSend (dt id : Nat) (s : State) : Host.Outcome State Fault Refusal := runKv dt id 0x075A kvSeqSend s

/-- The commit of a KV_SEQ_SEND releases the sequence where it is asked to. -/
def State.commitSend (s : State) (c : Cmd) : State :=
  match s.kvSeq? (c.p 0x20 4) with
  | some x => if (c.p 0x25 1).testBit 0 then s.releaseSeq (c.p 0x20 4) x else s
  | none => s

/-- The receiver's status goes back to the sender. -/
def State.kvAnswer (s : State) (c : Cmd) (st : Nat) : State :=
  s.peerWrite (c.p 0x21 1) c.part 0 (leBytes 4 (c.p 0x28 4) ++ leBytes 1 st)

/-- KV_SEQ_RECV. -/
def kvSeqRecv (c : Cmd) (s : State) : State × Bool := kvMine c s fun s =>
  let p := c.p 0x20 1
  let peer := c.p 0x21 1
  let ms := c.p 0x24 4
  if s.kvRole = 1 ∨ s.kvRole = 3 then s.kvFail c stNotPermitted
  else match s.kvPool? p with
    | none => s.kvFail c stBadParam
    | some k =>
      if 23 < peer ∨ ms = 0 ∨ 60000 < ms then s.kvFail c stBadParam
      else match s.kv.inbox.find? fun m => m.peer == peer && m.matchId == c.p 0x28 4 with
        | none => if (s.linkRoute peer).isNone then s.kvFail c 0x70 else (s, true)
        | some m =>
          let take := fun (s : State) => s.setKv fun v => { v with inbox := v.inbox.filter fun x => !(x.peer == peer && x.matchId == c.p 0x28 4) }
          let fail := fun (s : State) (st : Nat) => ((take s).kvAnswer c st).kvFail c st
          let n := ceilDiv m.len k.tokens
          if m.ptok ≠ k.ptok ∨ m.layers ≠ k.layers ∨ m.heads ≠ k.heads ∨ m.d ≠ k.d ∨ m.fmt ≠ k.fmt then fail s stBadParam
          else match s.freeSeq with
            | none => fail s 0x27
            | some q =>
              if 8192 < n then fail s 0x27
              else if !(s.ptRoom 0 n) then fail (s.poolLow p) 0x26
              else
                let r := s.kvNeed p k n n
                if r.2 = 2 then fail r.1 0x26
                else if r.2 = 1 then (r.1, true)
                else
                  let s := ((take r.1).setKvSeq q { pool := p, len := m.len, tag := m.tag }).growTable q k n
                  let table := ((s.kvSeq? q).map (·.table)).getD []
                  let s := table.zipIdx.foldl (fun (s : State) e => s.wr (k.frameAt (s.kvPage p e.1).frame) (cut (m.pages.getD e.2 []) 0 k.size)) s
                  (s.kvAnswer c 0).kvDone c (leBytes 4 q)

def execKvSeqRecv (dt id : Nat) (s : State) : Host.Outcome State Fault Refusal := runKv dt id 0x075B kvSeqRecv s

/-- KV_SEQ_RECV_TIMEOUT: no sender within timeout_ms. -/
def kvSeqRecvTimeout (id : Nat) (s : State) : State :=
  match s.runs id 0x075B with
  | some c =>
    let matched := s.kv.inbox.any fun m => m.peer == c.p 0x21 1 && m.matchId == c.p 0x28 4
    if matched ∨ s.now < c.ranAt + c.p 0x24 4 * 1000000 then s else (s.failCmd id 0x70).settle
  | none => s

def execKvSeqRecvTimeout (dt id : Nat) (s : State) : Host.Outcome State Fault Refusal := runEvent dt (kvSeqRecvTimeout id) s

end Sys2Proof.Machine
end

