-- ==== Sys2Proof/Machine/Matrix.lean ====
section
/-! DEFINITION. The matrix unit of the Island, R397, R399: rows of 64 INT8 or BF16 operands by a 64 × 64 matrix. Its operands and sums stand
in the part of Island memory that R400 gives to the reflex program and its loop data; where a program puts them there is its own (log entry 94). -/
namespace Sys2Proof.Machine

/-- The part of Island memory for the reflex program, loop data and payload buffers, R400: its first offset and its size. -/
def loopData : Nat × Nat := (0x40000, 0x80000)

/-- The 64 operands of one row of A, or of one column of B, both row by row. -/
def rowOps (width : Nat) (b : Bytes) (i : Nat) : List Nat := (List.range 64).map fun k => numAt b (width * (64 * i + k)) width

def colOps (width : Nat) (b : Bytes) (j : Nat) : List Nat := (List.range 64).map fun k => numAt b (width * (64 * k + j)) width

/-- The exact INT32 sum of 64 INT8 products, R399. -/
def intSum (x y : List Nat) : Int := (List.zipWith (fun a b => sgn 8 a * sgn 8 b) x y).foldl (· + ·) 0

/-- One FP32 addition of the unit: exact where FP32 holds the sum, else a free value, the same from run to run (log entries 18, 94). -/
def cellAdd (x y : FVal) : FVal :=
  match x.add y with
  | .fin n q => if q = 0 then .fin n 0 else f32Val (f32Of q)
  | v => v

/-- The FP32 sum of 64 BF16 products, in the order of the cells of a row, R399. -/
def floatSum (x y : List Nat) : FVal :=
  (List.zipWith (fun a b => (fmtVal 1 a).mul (fmtVal 1 b)) x y).foldl cellAdd (.fin false 0)

/-- The four bytes of one sum. -/
def cellBytes (bf16 : Bool) (x y : List Nat) : Bytes :=
  if bf16 then leBytes 4 (floatSum x y).bits32.toNat else leBytes 4 (unsgn 32 (intSum x y))

/-- The sums of an operation, row by row. -/
def matrixBytes (m : MatrixOp) (a b : Bytes) : Bytes :=
  let w := if m.bf16 then 2 else 1
  (List.range m.rows).flatMap fun i => (List.range 64).flatMap fun j => cellBytes m.bf16 (rowOps w a i) (colOps w b j)

/-- An operation of the matrix unit on Island memory; one that leaves its part of it is not the loop's. -/
def State.matrixOp (s : State) (m : MatrixOp) : State :=
  let w := if m.bf16 then 2 else 1
  let ok := fun (o n : Nat) => inside o n loopData.1 loopData.2
  if decide (m.rows ≤ 64) && ok m.a (w * 64 * m.rows) && ok m.b (w * 4096) && ok m.dst (256 * m.rows) then
    s.wrIsl m.dst (matrixBytes m (s.isl m.a (w * 64 * m.rows)) (s.isl m.b (w * 4096)))
  else s

end Sys2Proof.Machine
end

