-- ==== Sys2Proof/Machine/Reflex.lean ====
section
/-! DEFINITION. The reflex lane: taps, loops, trajectories, modes and the lockstep pair: R397 to R418, with its rows. -/
namespace Sys2Proof.Machine

/-! Taps, R404 to R406 -/

def State.setTap (s : State) (k : Nat) (t : Tap) : State := s.setRfx fun r => { r with taps := r.taps.set k t }

/-- Loops that a stream triggers have their packet. -/
def State.arrive (s : State) (stream : Nat) : State :=
  s.setRfx fun r => { r with loops := r.loops.map fun (l : Loop) => if l.trigger = stream then { l with arrived := true } else l }

/-- TAP_DELIVERY: the first packet of the tap's queue goes into its ring. -/
def tapDelivery (k : Nat) (s : State) : State :=
  match s.ssi.rfx.taps[k]? with
  | none => s
  | some t => match (s.strm t.stream).tapQ with
    | [] => s
    | p :: rest =>
      let s := s.modStrm t.stream fun x => { x with tapQ := rest }
      if t.slotBytes < 32 + p.payload.length then s.countSat (.ssiTapDrop k) 0 32
      else
        let s := (s.wrIsl (t.base + t.next % t.slots * t.slotBytes) (p.header ++ p.payload)).setTap k { t with next := t.next + 1 }
        let s := if t.slots ≤ t.next then (s.countSat (.ssiTap k) 16 16).raiseLim 0x0843 k 0 (evData [k, t.stream]) else s
        s.arrive t.stream

def execTapDelivery (dt tap : Nat) (s : State) : Host.Outcome State Fault Refusal := runEvent dt (tapDelivery tap) s

/-! Loops, R401 to R403, R408 -/

def State.setLoop (s : State) (n : Nat) (l : Loop) : State := s.setRfx fun r => { r with loops := r.loops.set n l }

/-- The instant of a periodic loop's next release after its last. -/
def Loop.due (l : Loop) : Nat := if l.last < l.phase then l.phase else l.phase + ((l.last - l.phase) / l.period + 1) * l.period

/-- Whether a loop is released now, and whether without its packet, R402. -/
def Loop.releases (l : Loop) (now : Nat) : Option Bool :=
  if l.trigger = 0xFF then (if l.due ≤ now then some false else none)
  else if l.arrived then some false
  else if 2 * l.last + 3 * l.period ≤ 2 * now then some true
  else none

/-- The release instant: a periodic loop's is its schedule's latest. -/
def Loop.at (l : Loop) (now : Nat) : Nat := if l.trigger = 0xFF then now - (now - l.phase) % l.period else now

/-- REFLEX_LOOP_RELEASE: a loop still running skips the release, R403. -/
def reflexLoopRelease (n : Nat) (s : State) : State :=
  match s.ssi.rfx.loops[n]? with
  | none => s
  | some l => match (if s.lane = 4 then none else l.releases s.now) with
    | none => s
    | some noInput =>
      let at_ := l.at s.now
      if l.running then
        let row := l.skipRow + 1
        let s := (s.setLoop n { l with last := at_, skipRow := row, arrived := false, cleanFrom := s.ns }).countSat (.ssiRfxLoop n) 16 16
        let s := s.raiseLim 0x0841 n 0 (evData [n, s.fldOf (.ssiRfxLoop n) 16 16])
        if l.critical ∧ row = l.overrunMax then s.trigger 3 3 else s
      else
        let s := s.setLoop n { l with last := at_, skipRow := 0, arrived := false, running := true, started := s.ns, noInput := noInput }
        if noInput then s.countSat (.ssiRfxLoop n) 0 16 else s

def execReflexLoopRelease (dt n : Nat) (s : State) : Host.Outcome State Fault Refusal := runEvent dt (reflexLoopRelease n) s

/-- The tag that a tap's newest header gives, R408. -/
def State.tapTag (s : State) (t : Tap) : Option Tag :=
  if t.next = 0 then none
  else some { inst := leVal (s.isl (t.base + (t.next - 1) % t.slots * t.slotBytes) 8), window := t.window, origin := t.stream, revised := false, valid := true }

/-- The tags of what a run used: its trigger's tap, and of the others and the trajectory what the program chose, a free value (log entry 74). -/
def State.runTags (s : State) (l : Loop) (free : W64) : List Tag :=
  let taps := s.ssi.rfx.taps.zipIdx.filterMap fun e =>
    if (l.trigger == e.1.stream && !l.noInput) || bit free e.2 then s.tapTag e.1 else none
  let traj := if l.tracking ∧ s.lane = 1 then s.ssi.rfx.traj.toList.map (·.tag) else []
  taps ++ traj

/-- REFLEX_LOOP_COMPLETE: the run ends after `runNs`, in which its program used the matrix unit as `run.ops` says (R399); unless it commits
nothing, it writes its payload, the buffer's tag and mark, and switches the entry's payload_desc. -/
def reflexLoopComplete (n entry off runNs : Nat) (run : LoopRun) (s : State) : State :=
  match s.ssi.rfx.loops[n]? with
  | none => s
  | some l =>
    if l.running = false ∨ s.lane = 4 then s
    else
      let r := s.fresh
      let tag := tagOut (s.runTags l r.1)
      let s := (r.2.setLoop n { l with running := false }).maxFld (.ssiRfxLoopMax n) 0 32 runNs
      let s := run.ops.foldl State.matrixOp s
      if run.payload.isEmpty ∨ 32 ≤ entry ∨ 0x200000 < off + 128 then s
      else
        let base := leVal (s.isl off 8)
        let s := if inside base run.payload.length 0 0x200000 then s.wrIsl base run.payload else s
        let s := s.wrIsl (off + 0x50) tag.bytes
        let s := s.wrIsl (off + 0x0A) [setBit ((s.isl (off + 0x0A) 1).headD 0) 0 true]
        s.setGey entry { s.gey entry with plDesc := 2 ^ 63 + off }

def execReflexLoopComplete (dt n entry descOff runNs : Nat) (run : LoopRun) (s : State) :
    Host.Outcome State Fault Refusal :=
  runEvent dt (reflexLoopComplete n entry descOff runNs run) s

/-! Trajectories, R410, R411 -/

/-- The motion loop, R425. -/
def State.motionLoop (s : State) : Option Loop := s.ssi.rfx.loops.find? fun l => l.tracking

/-- The instant of the motion loop's next release, as far as it is fixed (log entry 64). -/
def Loop.nextRelease (l : Loop) (now : Nat) : Nat :=
  if l.trigger = 0xFF then (if now < l.phase then l.phase else now - (now - l.phase) % l.period + l.period) else Nat.max now (l.last + l.period)

/-- Whether a value lies within its channel's limits; a value that is no number does not. -/
def Chan.holds (c : Chan) (w : W32) : Bool :=
  match f32? w with
  | some q => decide (f32Rat c.lo ≤ q ∧ q ≤ f32Rat c.hi)
  | none => false

/-- The first point and channel that check 7 refuses. -/
def badPoint (m : Motion) (dtNs : Nat) (pts : List (List W32)) : Option (Nat × Nat) :=
  (pts.zipIdx.findSome? fun p =>
    p.1.zipIdx.findSome? fun v =>
      let c := m.chans.getD v.2 ⟨0, 0, 0, 0⟩
      let step := match p.2 with
        | 0 => false
        | i + 1 => decide (f32Rat c.rate * (dtNs : Rat) / 1000000000 < absR (f32Rat v.1 - f32Rat ((pts.getD i []).getD v.2 0)))
      if !(c.holds v.1) || step then some (p.2, v.2) else none)

/-- The first channel whose step to the new trajectory is too large, check 8. -/
def badStep (m : Motion) (present next : List Rat) : Option Nat :=
  ((List.zipWith (fun (a b : Rat) => absR (b - a)) present next).zipIdx.find? fun e => decide (f32Rat (m.chans.getD e.2 ⟨0, 0, 0, 0⟩).step < e.1)).map (·.2)

/-- An offer is refused: counted and told, R416. -/
def State.refuseOffer (s : State) (c : Cmd) (st point ch : Nat) : State × Bool :=
  let s := (s.countSat .ssiRfxRefused 0 32).raiseLim 0x0842 0 0 (evData [st, point, ch])
  let s := s.setResult c.id 0x20 (leBytes 16 0 ++ leBytes 4 point ++ leBytes 1 ch)
  (s.failCmd c.id st, false)

/-- Whether a trigger other than STARVED and REQUEST stands in an offer's way; OVERRUN does until the critical loops run clean for 1 s. -/
def State.offerBlocked (s : State) : Bool :=
  let t := s.triggers
  let clean := s.ssi.rfx.loops.all fun l => !l.critical || decide (l.cleanFrom + 1000000000 ≤ s.ns)
  s.lane == 4 || t.testBit 0 || t.testBit 1 || t.testBit 5 || (t.testBit 3 && !clean)

/-- The buffer that neither the accepted trajectory nor an offer holds. -/
def State.freeTraj (s : State) : Option Nat :=
  [0, 1].find? fun b => (match s.ssi.rfx.traj with | some t => t.buf != b | none => true) && !(s.ssi.rfx.offers.any fun o => o.2.buf == b)

/-- SAFETY_TRAJ_OFFER: the checks of R411; the swap at the motion loop's next release commits it. With no buffer free it waits. -/
def safetyTrajOffer (c : Cmd) (s : State) : State × Bool :=
  let start := c.p 0x28 8
  let dtNs := c.p 0x30 4
  let n := c.p 0x34 2
  let ch := c.p 0x36 1
  let no := fun (s : State) (st : Nat) => s.refuseOffer c st 0xFFFFFFFF 0
  match s.ssi.rfx.motion with
  | none => no s stNotPermitted
  | some m =>
    if m.part ≠ c.part then no s stNotPermitted
    else if s.offerBlocked then no s stPartState
    else if dtNs < 62500 ∨ 100000000 < dtNs ∨ n < 2 ∨ 4096 < n ∨ 65536 < n * ch ∨ ch ≠ m.chans.length then no s stBadParam
    else match s.readDesc c (c.p 0x20 8) with
      | .error e => no (s.descFailed c [c.p 0x20 8] e) e
      | .ok d =>
        if !d.mark || d.dev != 255 || !(d.hasShape [ch, n]) then no s stBadParam
        else if d.fmt ≠ 0 then no s stFormat
        else if !d.tag.valid then no s 0x30
        else if d.tag.inst + m.ageLimit < s.now then no s 0x32
        else if d.tag.expiry < s.now ∨ start + (n - 1) * dtNs ≤ s.now then no s 0x33
        else match s.tensorErr (.part c.part) .other false d with
          | some (a, st) => no (s.reportAccess (.part c.part) .other false 26 a 64 st) st
          | none => match s.tensorUe d with
            | some a => no (s.memUe (.part c.part) 26 (s.ueLine a 64)) 0x25
            | none =>
              let pts := d.rows.map fun a => (s.rowCodes d a).map fun v => BitVec.ofNat 32 v
              match badPoint m dtNs pts with
              | some (p, k) => s.refuseOffer c stBadParam p k
              | none =>
                let swap := match s.motionLoop with | some l => l.nextRelease s.now | none => s.now
                let t : Traj := { seq := 0, start := start, dtNs := dtNs, chans := ch, points := pts, tag := d.tag, buf := 0, swap := swap }
                match badStep m s.setpoint (t.at (swap : Rat)) with
                | some k => s.refuseOffer c stBadParam (Nat.min (n - 1) ((swap - start) / dtNs)) k
                | none => match s.freeTraj with
                  | none => (s, true)
                  | some b =>
                    let s := s.wrIsl (0xC0000 + 0x40000 * b) (pts.flatMap fun p => p.flatMap fun w => leBytes 4 w.toNat)
                    (s.setRfx fun r => { r with offers := r.offers ++ [(c.id, { t with buf := b })] }, false)

def execSafetyTrajOffer (dt id : Nat) (s : State) : Host.Outcome State Fault Refusal := runKv dt id 0x0840 safetyTrajOffer s

/-- TRAJ_SWAP: a checked offer is swapped in at the motion loop's release; the lane tracks it. -/
def trajSwap (s : State) : State :=
  match s.ssi.rfx.offers, s.motionLoop with
  | (id, t) :: rest, some l =>
    if s.isRunning id = false then s.setRfx fun r => { r with offers := rest }
    else if l.last < t.swap ∨ s.lane = 4 then s
    else
      let t := { t with seq := s.ssi.rfx.nextSeq, swap := l.last }
      let s := (s.setRfx fun r => { r with offers := rest, traj := some t, nextSeq := r.nextSeq + 1 }).toLane 1
      let s := ((s.clearTrigger 2).clearTrigger 3).clearTrigger 4
      let s := (s.setReg .ssiRfxTrajSeq (BitVec.ofNat 64 t.seq)).setReg .ssiRfxTrajT (BitVec.ofNat 64 t.start)
      match s.cmd? id with
      | some c => (s.doneWith c (leBytes 8 t.seq ++ leBytes 8 t.swap ++ leBytes 4 0xFFFFFFFF ++ leBytes 1 0)).settle
      | none => s
  | _, _ => s

def execTrajSwap (dt : Nat) (s : State) : Host.Outcome State Fault Refusal := runEvent dt trajSwap s

/-- TRAJ_STARVED: TB0 has passed the accepted trajectory's last point or its tag's expiry, R413. -/
def trajStarved (s : State) : State :=
  match s.ssi.rfx.traj with
  | none => s
  | some t =>
    let last := t.start + (t.points.length - 1) * t.dtNs
    if s.lane ≠ 0 ∧ s.triggers.testBit 2 = false ∧ (last < s.now ∨ t.tag.expiry < s.now) then (s.trigger 2 s.fbMode).settle else s

def execTrajStarved (dt : Nat) (s : State) : Host.Outcome State Fault Refusal := runEvent dt trajStarved s

/-- STOP_STANDSTILL: the stop profile has run out, R412. -/
def stopStandstill (s : State) : State :=
  if s.lane = 3 ∧ s.ssi.rfx.from_ + s.ssi.rfx.stopT ≤ s.now then s.toLane 2 else s

def execStopStandstill (dt : Nat) (s : State) : Host.Outcome State Fault Refusal := runEvent dt stopStandstill s

/-- STOP_MIRROR_COPY: the newest record of the Planner's stop ring, R414. -/
def stopMirrorCopy (s : State) : State :=
  let k := s.pln.stop
  let seq := (s.reg .plnStopSeq).toNat
  if k.on = false ∨ seq = 0 ∨ s.pwr.mainUp = false then s
  else s.setRfx fun r => { r with mirror := s.rd (k.ring + 4096 * ((seq - 1) % Nat.max 1 k.slots)) 4096 }

def execStopMirrorCopy (dt : Nat) (s : State) : Host.Outcome State Fault Refusal := runEvent dt stopMirrorCopy s

/-! Modes and FAULT, R398, R412, R415 -/

/-- SAFETY_REFLEX_MODE: trigger REQUEST. -/
def safetyReflexMode (c : Cmd) (s : State) : State :=
  let m := c.p 0x20 1
  let old := s.lane
  s.firstFail c [(m != 2 && m != 3, stBadParam), (old == 4, stPartState)] fun s => (s.trigger 4 m).doneWith c (leBytes 1 old)

def execSafetyReflexMode (dt id : Nat) (s : State) : Host.Outcome State Fault Refusal := runCmd dt id 0x0841 safetyReflexMode s

/-- SAFETY_REFLEX_STATUS: bytes 0x00 to 0x1F of the reflex bank. -/
def safetyReflexStatus (c : Cmd) (s : State) : State :=
  s.doneWith c (leBytes 8 (s.reg .ssiRfxStat).toNat ++ leBytes 8 (s.reg .ssiRfxTrajSeq).toNat ++ leBytes 8 (s.reg .ssiRfxTrajT).toNat ++
    leBytes 8 (s.reg .ssiRfxRefused).toNat)

def execSafetyReflexStatus (dt id : Nat) (s : State) : Host.Outcome State Fault Refusal := runCmd dt id 0x0842 safetyReflexStatus s

/-- LOCKSTEP_MISMATCH: the pair halts in FAULT, R398, R440. -/
def lockstepMismatch (addr : Nat) (s : State) : State :=
  if s.lane = 4 then s
  else
    let s := ((s.setFldOf .ssiRfxStat 16 3 4).setFldOf .ssiRfxStat 0 1 1).setRfx fun r => { r with loops := r.loops.map fun (l : Loop) => { l with running := false } }
    let s := (s.fallbackOnly true).failOffers
    ((s.raise 0x0844 0 (evData [addr])).addCause 2).settle

def execLockstepMismatch (dt addr : Nat) (s : State) : Host.Outcome State Fault Refusal := runEvent dt (lockstepMismatch addr) s

end Sys2Proof.Machine
end

