-- ==== Sys2Proof/Machine/HostPort.lean ====
section
/-! DEFINITION. The host port: configuration requests, link and power states, error logging, mailbox writes, response and event
slots, interrupt moderation, the data port and the warm-reset request; R59 to R93, R122, R123, R506. -/
namespace Sys2Proof.Machine

/-- Whether host accesses to the BARs reach the part: the link is up and the function in D0. -/
def State.hostOpen (s : State) : Bool := s.hp.linkUp && !s.hp.d3hot

/-! Configuration space, R59 to R61; the places of the fields are those of the PCI Express specification (log entry 14) -/

/-- The bits of base address register n that hold an address: BAR 0 is 4 MiB, BAR 2 64 KiB and BAR 4 1 MiB, each of 64 bits (R33). -/
def barMask (n : Nat) : W32 :=
  match n with
  | 0 => 0xFFC00000#32
  | 2 => 0xFFFF0000#32
  | 4 => 0xFFF00000#32
  | 1 | 3 | 5 => 0xFFFFFFFF#32
  | _ => 0

/-- The capabilities that the function offers: power management, PCI Express and MSI-X, and no MSI (R59). -/
def capOffered (id : Nat) : Bool := [0x01, 0x10, 0x11].contains id

/-- The extended capabilities of R59: AER, Device Serial Number, Secondary PCIe, Data Link Feature, Physical Layer 16.0, 32.0 and 64.0
GT/s and Lane Margining; no SR-IOV, ATS, PASID, PRI, L1 PM substates or IDE. -/
def extCapOffered (id : Nat) : Bool := [0x01, 0x03, 0x19, 0x25, 0x26, 0x2A, 0x31, 0x27].contains id

/-- The bit of an error in the correctable or the uncorrectable status register of AER; advisory errors set both. -/
def aerCorrBit : PcieErr → Option Nat
  | .receiver => some 0
  | .badTlp => some 6
  | .badDllp => some 7
  | .replayRollover => some 8
  | .replayTimeout => some 12
  | .poisonedTlp | .unsupportedRequest | .unexpectedCompletion => some 13
  | .correctedInternal => some 14
  | _ => none

def aerUncorrBit : PcieErr → Option Nat
  | .dataLinkProtocol => some 4
  | .poisonedTlp => some 12
  | .flowControlProtocol => some 13
  | .completionTimeout => some 14
  | .unexpectedCompletion => some 16
  | .receiverOverflow => some 17
  | .malformedTlp => some 18
  | .unsupportedRequest => some 20
  | .uncorrectableInternal => some 22
  | _ => none

/-- The status register of AER that a bit assignment gives for a log. -/
def aerStatus (bitOf : PcieErr → Option Nat) (log : List PcieErr) : W32 :=
  log.foldl (fun (v : W32) e => match bitOf e with | some b => setBit v b true | none => v) 0

/-- A write of ones clears status bits: the errors whose bits of that register are cleared leave the log. -/
def aerClear (bitOf : PcieErr → Option Nat) (log : List PcieErr) (v : W32) : List PcieErr :=
  log.filter fun e => match bitOf e with | some b => !(bit v b) | none => true

/-- What a configuration read returns. -/
def State.cfgRead (s : State) (r : CfgReg) : W32 :=
  match r with
  | .ids => 0x72400000#32 ||| Config.vendorId.setWidth 32
  | .command => s.hp.cfgCommand
  | .classCode => 0x12000001#32
  | .header => 0
  | .bar n => (sget 0 s.hp.cfgBars n &&& barMask n) ||| (if n = 0 ∨ n = 2 ∨ n = 4 then 4 else 0)
  | .subsystem => BitVec.ofNat 32 ((if Config.orderCode = 0 then 1 else 2) * 65536) ||| Config.vendorId.setWidth 32
  | .interruptPin => 0
  | .capability id => if capOffered id then (Config.capLink id &&& 0xFFFFFF00#32) ||| BitVec.ofNat 32 id else 0
  | .extCapability id => if extCapOffered id then (Config.capLink (65536 + id) &&& 0xFFFF0000#32) ||| BitVec.ofNat 32 id else 0
  | .powerState => if s.hp.d3hot then 0xB else 0x8
  | .devCap => 0x2
  | .devControl => s.hp.cfgDevControl
  | .linkCap => 0x86#32 ||| (2#32 <<< 10) ||| (3#32 <<< 15)
  | .linkCap2 => 0x7E
  | .devCap2 => 0x1F
  | .devControl2 => s.hp.cfgDevControl2
  | .msixControl => setFld s.hp.cfgMsix 16 11 7
  | .msixTable => 0x20000
  | .msixPba => 0x21000
  | .serialLo => Config.serial.setWidth 32
  | .serialHi => (Config.serial >>> 32).setWidth 32
  | .aerUncorr => aerStatus aerUncorrBit s.hp.aer
  | .aerCorr => aerStatus aerCorrBit s.hp.aer
  | .other n => match s.hp.cfgOther.find? fun e => e.1 == n with | some e => e.2 | none => Config.cfgOther n

/-- Sends every vector whose pending bit is set and that can be sent now, R85. -/
def State.sendPending (s : State) : State :=
  (List.range 8).foldl (fun s v =>
    if bit (s.reg .msixPba) v && s.msixOpen && !(s.msixMasked v) then (s.modReg .msixPba fun p => setBit p v false).msixSend v
    else s) s

/-- A configuration write to the registers that the spec's rules use; the others keep what is written (log entry 14). Bus Master, MSI-X
Enable and a cleared Function Mask let the messages go that waited, R85. -/
def State.cfgWrite (s : State) (r : CfgReg) (v : W32) : State :=
  match r with
  | .command => ({ s with hp := { s.hp with cfgCommand := v &&& 0x0000FFFF#32 } }).sendPending
  | .bar n => { s with hp := { s.hp with cfgBars := sset 0 s.hp.cfgBars n (v &&& barMask n) } }
  | .devControl => { s with hp := { s.hp with cfgDevControl := v &&& 0x0000FFFF#32 } }
  | .devControl2 => { s with hp := { s.hp with cfgDevControl2 := v &&& 0x1F#32 } }
  | .msixControl => ({ s with hp := { s.hp with cfgMsix := v &&& 0xC0000000#32 } }).sendPending
  | .aerUncorr => { s with hp := { s.hp with aer := aerClear aerUncorrBit s.hp.aer v } }
  | .aerCorr => { s with hp := { s.hp with aer := aerClear aerCorrBit s.hp.aer v } }
  | .other n => { s with hp := { s.hp with cfgOther := (n, v) :: s.hp.cfgOther.filter fun e => e.1 != n } }
  | _ => s

/-- CONFIG_REQUEST: answered from the first request after link training, never with Retry Status, R61. -/
def configRequest (r : CfgReg) (wr : Option W32) (s : State) : State :=
  if s.hp.linkUp then
    match wr with
    | none => s.emit (.cfgRead (s.cfgRead r).toNat)
    | some v => s.cfgWrite r v
  else s

def execConfigRequest (dt : Nat) (reg : CfgReg) (wr : Option W32) (s : State) : Host.Outcome State Fault Refusal :=
  runEvent dt (configRequest reg wr) s

/-! Link states, R62, R63 -/

def execPciePerstRelease (dt : Nat) (s : State) : Host.Outcome State Fault Refusal :=
  runEvent dt (fun s => { s with hp := { s.hp with perstHigh := true } }) s

/-- The registers that R62 resets: the host port registers and the MSI-X table. -/
def Reg.hostPort (r : Reg) : Bool := decide (0x10000 ≤ r.addr ∧ r.addr < 0x30000)

/-- The commands that push to host memory as the whole of their work. -/
def pushCodes : List Nat := [0x0720, 0x0A04, 0x0901, 0x0902]

/-- The host port as R62 leaves it; the AER log, the AVS of events and the counts of discarded items are Bivexa's own. -/
def HostPort.linkReset (h : HostPort) (perst : Bool) : HostPort :=
  { perstHigh := h.perstHigh && !perst, mbox := mboxReset, evtQ := h.evtQ, evtLost := h.evtLost,
    rspDiscarded := h.rspDiscarded + h.rspQ.length, evtDiscarded := h.evtDiscarded, restoreDue := true }

/-- R62 and R63: the host port is reset and holds no response slot any more; commands keep running, responses and events are discarded and counted, running pushes
end FAILED with ST_HOST_LINK_DOWN. -/
def State.linkReset (s : State) (perst : Bool) : State :=
  let lost := s.hp.rspQ
  let s := { s with hp := s.hp.linkReset perst }
  let s := s.resetRegs Reg.hostPort
  let s := if lost.isEmpty then s else s.setFldOf .ccxHpMboxErr 1 1 1
  let s := lost.foldl (fun s id => s.updCmd id fun c => { c with responded := true }) s
  let s := { s with ccx := { s.ccx with cmds := s.ccx.cmds.map fun (c : Cmd) => { c with rspSlot := none } } }
  let s := (s.ccx.cmds.filter fun c => c.state == .running && pushCodes.contains c.code).foldl
    (fun s c => s.failCmd c.id 0x40) s
  (s.raise 0x0101 0).settle

/-- PCIE_LINK_RESET. -/
def pcieLinkReset (cause : LinkResetCause) (s : State) : State :=
  if s.hp.linkUp ∨ cause = .perst then s.linkReset (cause == .perst) else s

def execPcieLinkReset (dt : Nat) (cause : LinkResetCause) (s : State) : Host.Outcome State Fault Refusal :=
  runEvent dt (pcieLinkReset cause) s

/-- PCIE_LINK_UP: training completes once PERST# is high, the reference clock is there and the PHYs are released, R62, R481. -/
def pcieLinkUp (s : State) : State :=
  if s.hp.perstHigh && s.pwr.phyUp && s.pwr.refs.contains .pcie then { s with hp := { s.hp with linkUp := true } } else s

def execPcieLinkUp (dt : Nat) (s : State) : Host.Outcome State Fault Refusal := runEvent dt pcieLinkUp s

/-- HOST_LINK_RESTORED: the first event after Bus Master and MSI-X are enabled again, with its three counts, R63; it follows
EV_RESET_REPORT, R485. -/
def hostLinkRestored (s : State) : State :=
  if s.hp.restoreDue && s.hp.linkUp && s.ready && bit s.hp.cfgCommand 2 && bit s.hp.cfgMsix 31 then
    let running := (s.ccx.cmds.filter fun c => c.state == .running).length
    let e : Event := { code := 0x0102, inst := s.now, data := leBytes 4 s.hp.rspDiscarded ++ leBytes 4 s.hp.evtDiscarded ++ leBytes 4 running }
    let s := s.emit (.p0Event e)
    let q := match s.hp.evtQ with
      | [] => [e]
      | x :: rest => if x.code = 0x0A08 then x :: e :: rest else e :: x :: rest
    { s with hp := { s.hp with evtQ := q, restoreDue := false, rspDiscarded := 0, evtDiscarded := 0 } }
  else s

def execHostLinkRestored (dt : Nat) (s : State) : Host.Outcome State Fault Refusal := runEvent dt hostLinkRestored s

def execPcieD3hotEntry (dt : Nat) (s : State) : Host.Outcome State Fault Refusal :=
  runEvent dt (fun s => if s.hp.linkUp then { s with hp := { s.hp with d3hot := true } } else s) s

/-- PCIE_D0_RETURN: everything is as it was before D3hot, and the messages that waited are sent, R63. -/
def execPcieD0Return (dt : Nat) (s : State) : Host.Outcome State Fault Refusal :=
  runEvent dt (fun s => if s.hp.d3hot then ({ s with hp := { s.hp with d3hot := false } }).sendPending else s) s

/-- Whether AER logs an error as correctable, R93. -/
def pcieCorrectable : PcieErr → Bool
  | .receiver | .badTlp | .badDllp | .replayTimeout | .replayRollover | .correctedInternal => true
  | _ => false

/-- The errors that take the link down, R93. -/
def pcieFatal : PcieErr → Bool
  | .malformedTlp | .dataLinkProtocol | .flowControlProtocol | .receiverOverflow => true
  | _ => false

/-- Logs an error through AER: counted, and vector 5, R93. -/
def State.logAer (s : State) (e : PcieErr) : State :=
  let s := { s with hp := { s.hp with aer := s.hp.aer ++ [e] } }
  (if pcieCorrectable e then s.countSat .ccxHpErrCnt 0 16 else s.countSat .ccxHpErrCnt 16 16).cause 5

/-- PCIE_ERROR: R93. An Unsupported Request is answered with a UR completion; an unexpected completion is dropped. -/
def pcieError (e : PcieErr) (s : State) : State :=
  if s.hp.linkUp then
    let s := s.logAer e
    if pcieFatal e then s.linkReset false
    else match e with
      | .uncorrectableInternal => s.raise 0x0106 0
      | .unsupportedRequest => s.emit .unsupported
      | _ => s
  else s

def execPcieError (dt : Nat) (err : PcieErr) (s : State) : Host.Outcome State Fault Refusal := runEvent dt (pcieError err) s

/-- HOST_COMPLETION_TIMEOUT: the read-back that a push under Relaxed Ordering issued times out, and its command ends FAILED with
ST_HOST_TIMEOUT, R91, R93; a push without Relaxed Ordering reads nothing. -/
def hostCompletionTimeout (id : Nat) (s : State) : State :=
  match s.cmd? id with
  | some c =>
    if c.state = .running ∧ s.hp.reads.contains id then ((s.logAer .completionTimeout).failCmd id 0x42).settle else s
  | none => s

def execHostCompletionTimeout (dt id : Nat) (s : State) : Host.Outcome State Fault Refusal :=
  runEvent dt (hostCompletionTimeout id) s

/-! Mailboxes, R70 to R82 -/

def State.mb (s : State) (o n : Nat) : Bytes := sgetAll 0 s.hp.mbox o n

def State.wrMb (s : State) (o : Nat) (b : Bytes) : State := { s with hp := { s.hp with mbox := ssetAll 0 s.hp.mbox o b } }

/-- The own bit of slot n of the 96, R70. -/
def State.slotOwn (s : State) (n : Nat) : Bool := bit (sget 0 s.hp.mbox (256 * n + 3)) 7

/-- The bit mask of the slots from `base` on whose own bit is b, as CCX_HP_MBOX_REQ_OWN, RSP_OWN and EVT_OWN report it. -/
def State.ownMask (s : State) (base : Nat) (b : Bool) : Nat :=
  (List.range 32).foldl (fun m i => if s.slotOwn (base + i) = b then m + 2 ^ i else m) 0

/-- A dropped mailbox write, R71. -/
def State.dropMbox (s : State) (slot : Nat) : State :=
  (((s.setFldOf .ccxHpMboxErr 0 1 1).countSat .ccxHpMboxErr 16 16).raise 0x0103 0 (evData [slot / 32, slot % 32])).cause 5

/-- A slot passes to the device: a request is POSTED; a returned response slot ends the host's hold on its command, R80, R104. -/
def State.handOver (s : State) (slot : Nat) : State :=
  if slot < 32 then { s with hp := { s.hp with posted := s.hp.posted ++ [slot] } }
  else if slot < 64 then
    { s with ccx := { s.ccx with cmds := s.ccx.cmds.filter fun c => c.rspSlot != some (slot - 32) } }
  else s

/-- What a host read of n bytes at an offset of BAR 2 returns: 0 outside READY and in the reserved part, R17, R33. -/
def State.mboxRead (s : State) (off n : Nat) : Bytes :=
  (List.range n).map fun i => if s.hostOpen ∧ s.ready ∧ off + i < 0x6000 then sget 0 s.hp.mbox (off + i) else 0

/-- MBOX_SLOT_WRITE: R71, R72. A write carries the bytes that fall in its slot; outside READY it is dropped, R17. A poisoned TLP is logged
at every stage, R93. -/
def mboxSlotWrite (off : Nat) (bytes : Bytes) (poisoned : Bool) (s : State) : State :=
  let slot := off / 256
  if !s.hostOpen || bytes.isEmpty then s
  else if !s.ready || slot ≥ 96 then if poisoned then s.logAer .poisonedTlp else s
  else if poisoned then (s.logAer .poisonedTlp).dropMbox slot
  else if s.slotOwn slot then s.dropMbox slot
  else
    let s := s.wrMb off (bytes.take (256 * (slot + 1) - off))
    if s.slotOwn slot then s.handOver slot else s

def execMboxSlotWrite (dt off : Nat) (bytes : Bytes) (poisoned : Bool) (s : State) : Host.Outcome State Fault Refusal :=
  runEvent dt (mboxSlotWrite off bytes poisoned) s

/-- An instant as responses and events report it: rounded down to 1 ms in confidential mode, R465. -/
def State.seen (s : State) (t : Nat) : Nat := if bit (s.reg .ssiSecStat) 31 then t - t % 1000000 else t

/-- The 256 bytes of a response slot, R77. -/
def State.response (s : State) (c : Cmd) : Bytes :=
  leBytes 4 (c.part % 8 * 2 ^ 28 + c.state.num * 2 ^ 24 + c.status % 256 * 2 ^ 16 + c.code % 65536) ++
  leBytes 4 c.tag.toNat ++ leBytes 8 (s.seen c.commit) ++ leBytes 8 (s.seen c.accept) ++ leBytes 4 s.hp.rspSeq ++
  leBytes 1 c.slot ++ leBytes 3 0 ++ cut c.results 0 224

/-- RESPONSE_WRITE: the next response slot of the ring, once it is device-owned, R77, R80. -/
def responseWrite (s : State) : State :=
  let n := s.hp.rspNext
  match s.hp.rspQ with
  | [] => s
  | id :: rest =>
    if !s.ready || !s.hp.linkUp || s.hp.d3hot || !(s.slotOwn (32 + n)) then s
    else
      match s.cmd? id with
      | none => { s with hp := { s.hp with rspQ := rest } }
      | some c =>
        let s := s.wrMb (0x2000 + 256 * n) (s.response c)
        let s := { s with hp := { s.hp with rspQ := rest, rspNext := (n + 1) % 32, rspSeq := (s.hp.rspSeq + 1) % 2 ^ 32 } }
        let s := s.updCmd id fun c => { c with responded := true, rspSlot := some n }
        if c.irq then s.cause 0 else s

def execResponseWrite (dt : Nat) (s : State) : Host.Outcome State Fault Refusal := runEvent dt responseWrite s

/-- The 256 bytes of an event slot, R79. -/
def State.eventBytes (s : State) (e : Event) : Bytes :=
  leBytes 4 (e.part % 8 * 2 ^ 28 + (if s.hp.evtLost = 0 then 0 else 2 ^ 27) + e.code % 65536) ++ leBytes 4 s.hp.evtSeq ++
  leBytes 8 (s.seen e.inst) ++ leBytes 4 e.repeats ++ leBytes 4 s.hp.evtLost ++ leBytes 8 0 ++ cut e.data 0 224

/-- EVENT_SLOT_WRITE: the next event slot of the ring, once it is device-owned, R79, R80, R84. -/
def eventSlotWrite (s : State) : State :=
  let n := s.hp.evtNext
  match s.hp.evtQ with
  | [] => s
  | e :: rest =>
    if !s.ready || !s.hp.linkUp || s.hp.d3hot || s.hp.restoreDue || !(s.slotOwn (64 + n)) then s
    else
      let s := s.wrMb (0x4000 + 256 * n) (s.eventBytes e)
      let s := { s with hp := { s.hp with
        evtQ := rest, evtNext := (n + 1) % 32, evtSeq := (s.hp.evtSeq + 1) % 2 ^ 32, evtLost := 0 } }
      if e.code / 256 = 8 ∨ e.code / 256 = 9 then s.cause 2 else s.cause 1

def execEventSlotWrite (dt : Nat) (s : State) : Host.Outcome State Fault Refusal := runEvent dt eventSlotWrite s

/-- MSIX_MODERATION_EXPIRY: the gap of a vector is over, and the merged causes are sent as one message, R85. -/
def msixModerationExpiry (v : Nat) (s : State) : State :=
  if s.hp.modMerged.contains v && !(s.inGap v) then
    ({ s with hp := { s.hp with modMerged := s.hp.modMerged.filter fun x => x != v } }).msixSend v
  else s

def execMsixModerationExpiry (dt v : Nat) (s : State) : Host.Outcome State Fault Refusal := runEvent dt (msixModerationExpiry v) s

/-- MSIX_UNMASK: the function mask or a vector's mask is cleared, and a pending message is sent, R85. -/
def msixUnmask (v : Option Nat) (s : State) : State :=
  if !s.hostOpen then s
  else match v with
    | none => ({ s with hp := { s.hp with cfgMsix := setBit s.hp.cfgMsix 30 false } }).sendPending
    | some i => if i < 8 then (s.modReg (.msixEntry i 3) fun x => setBit x 0 false).sendPending else s

def execMsixUnmask (dt : Nat) (v : Option Nat) (s : State) : Host.Outcome State Fault Refusal := runEvent dt (msixUnmask v) s

/-! Data port, R67, R86 to R88, R122, R123, R506 -/

/-- Bits 1:0 of the pointer read 0 and ignore writes, R67. -/
def alignPtr (v : W64) : W64 := v &&& ~~~(3#64)

/-- The image has arrived: the pointer has reached its end, R123. A TLP brings the pointer there when it starts below the end and ends at or
above it; a write to the pointer, when it names the end (log entry 87). -/
def State.imageEnd (s : State) (reached : Nat → Bool) : State :=
  if s.stage = 2 ∧ s.ccx.imageLen ≠ 0 ∧ reached (loadBase + s.ccx.imageLen) then s.setStage 3 else s

/-- The pointer takes a value. In stage LOAD, the base of the load region discards what was received, R123. -/
def State.setPtr (s : State) (v : W64) : State :=
  let s := s.setReg .ccxHpDportPtr (alignPtr v)
  if s.stage = 2 ∧ alignPtr v = BitVec.ofNat 64 loadBase then { s with ccx := { s.ccx with imageLen := 0, imageHdr := 0 } }
  else s.imageEnd fun e => (alignPtr v).toNat == e

/-- DPORT_PTR_WRITE: R67. -/
def dportPtrWrite (w : PtrWrite) (s : State) : State :=
  if !s.hostOpen then s
  else match w with
    | .full v => s.setPtr v
    | .high v => { s with hp := { s.hp with dportHigh := some v } }
    | .low v =>
      let hi := match s.hp.dportHigh with | some h => h.toNat | none => s.fldOf .ccxHpDportPtr 32 32
      ({ s with hp := { s.hp with dportHigh := none } }).setPtr (BitVec.ofNat 64 (hi * 2 ^ 32 + v.toNat))

def execDportPtrWrite (dt : Nat) (w : PtrWrite) (s : State) : Host.Outcome State Fault Refusal := runEvent dt (dportPtrWrite w) s

/-- The enabled bytes of a write TLP with their places from the pointer on, R86. -/
def tlpBytes (dws : List W32) (first last : BitVec 4) : List (Nat × Byte) :=
  let n := dws.length
  (dws.zipIdx.flatMap fun (d, i) =>
    (List.range 4).filterMap fun j =>
      let be := if i = 0 then first else if i + 1 = n then last else 15#4
      if be.getLsbD j then some (4 * i + j, (d >>> (8 * j)).setWidth 8) else none)

def State.advancePtr (s : State) (dws : Nat) : State :=
  s.modReg .ccxHpDportPtr fun p => p + BitVec.ofNat 64 (4 * dws)

/-- A data-port access fails as a whole, R88: counted, range set, vector 5, EV_DPORT_RANGE with the pointer. -/
def State.dportFail (s : State) (ptr : Nat) : State :=
  (((s.countSat .ccxHpDportDrops 0 32).setFldOf .ccxHpDportStat 1 1 1).raise 0x0104 0 (evData [ptr])).cause 5

/-- Whether a header read in stage LOAD is valid, R122. -/
def headerOk (h : Bytes) : Bool :=
  let len := numAt h 8 8
  numAt h 0 4 == 0x42565841 && numAt h 4 4 == 4096 && decide (8192 ≤ len ∧ len ≤ 251658240 ∧ len % 64 = 0) &&
  decide (numAt h 0x10 1 ≤ 63) && numAt h 0x11 1 == 1 && decide (1 ≤ numAt h 0x12 2 ∧ numAt h 0x12 2 ≤ 64)

/-- The boot fails: stage HALTED with the status in CCX_ID_BOOT_ERR, R123. -/
def State.halt (s : State) (st : Nat) : State := (s.setFldOf .ccxIdBootErr 0 8 st).setStage 7

/-- The boot ROM sees bytes of the image arrive and reads the header once the first 4,096 are there, R123. -/
def State.headerArrives (s : State) (ptr : Nat) (l : List (Nat × Byte)) : State :=
  let m := l.foldl (fun (m : Nat) e => if ptr + e.1 < loadBase + 4096 then m ||| 2 ^ (ptr + e.1 - loadBase) else m) s.ccx.imageHdr
  let s := { s with ccx := { s.ccx with imageHdr := m } }
  if s.ccx.imageLen = 0 ∧ m + 1 = 2 ^ 4096 then
    let h := s.rd loadBase 0x20
    if headerOk h then { s with ccx := { s.ccx with imageLen := numAt h 8 8 } } else s.halt 0x80
  else s

/-- A TLP at the data port is stored byte by byte where its byte enables allow. -/
def State.storeTlp (s : State) (ptr : Nat) (l : List (Nat × Byte)) : State :=
  (l.foldl (fun s e => s.wr (ptr + e.1) [e.2]) s).clearPoison ptr l.length

/-- The pointer passes a TLP of n bytes, R86, which may be the image's last, R123. -/
def State.passTlp (s : State) (ptr dws : Nat) : State :=
  (s.advancePtr dws).imageEnd fun e => decide (ptr < e ∧ e ≤ ptr + 4 * dws)

/-- DPORT_WRITE: R86, R88, R506. Outside READY no event is raised; a write that R506 does not count is no data-port drop of R84 and sends no
vector 5, unless AER logs it (DESIGN CHOICE, log entry 87). A write that covers a poisoned line only in part (R379) is a TLP that fails as
a whole: range is set and EV_DPORT_RANGE raised besides EV_MEM_UNCORRECTABLE (DESIGN CHOICE, log entry 87). -/
def dportWrite (dws : List W32) (first last : BitVec 4) (poisoned : Bool) (s : State) : State :=
  let ptr := (s.reg .ccxHpDportPtr).toNat
  let n := 4 * dws.length
  let bytes := tlpBytes dws first last
  if !s.hostOpen then s
  else
    let s' :=
      if poisoned then
        let s := (s.setFldOf .ccxHpDportStat 2 1 1).logAer .poisonedTlp
        let s := if s.stage = 5 ∨ s.stage = 2 ∨ s.stage = 3 then s.countSat .ccxHpDportDrops 0 32 else s
        if s.stage = 5 then s.raise 0x0105 0 (evData [ptr]) else s
      else if s.stage = 5 then
        match s.access .host .other true ptr n with
        | none => s.storeTlp ptr bytes
        | some st => (s.reportAccess .host .other true 1 ptr n st).dportFail ptr
      else if s.stage = 2 ∧ inside ptr n loadBase loadSize then (s.storeTlp ptr bytes).headerArrives ptr bytes
      else if s.stage = 2 ∨ s.stage = 3 then
        ((s.countSat .ccxHpDportDrops 0 32).setFldOf .ccxHpDportStat 1 1 1).cause 5
      else s
    s'.passTlp ptr dws.length

def execDportWrite (dt : Nat) (dws : List W32) (firstBe lastBe : BitVec 4) (poisoned : Bool) (s : State) :
    Host.Outcome State Fault Refusal := runEvent dt (dportWrite dws firstBe lastBe poisoned) s

/-- DPORT_READ: R86 to R88, R506. -/
def dportRead (dws : Nat) (s : State) : State :=
  let ptr := (s.reg .ccxHpDportPtr).toNat
  let n := 4 * dws
  let zeros : Bytes := List.replicate n 0
  if !s.hostOpen then s
  else
    let s' :=
      if s.stage = 5 then
        match s.access .host .other false ptr n with
        | none =>
          if s.poisoned ptr n then
            ((s.memUe .host 1 (s.ueLine ptr n)).raise 0x0105 0 (evData [ptr])).emit (.readData (s.rdSeen ptr n) true)
          else s.emit (.readData (s.rdSeen ptr n) false)
        | some st =>
          ((if st = stRange ∨ st = stHole then s.reportAccess .host .other false 1 ptr n st else s).dportFail ptr).emit
            (.readData zeros false)
      else s.emit (.readData zeros false)
    s'.passTlp ptr dws

def execDportRead (dt dws : Nat) (s : State) : Host.Outcome State Fault Refusal := runEvent dt (dportRead dws) s

end Sys2Proof.Machine
end

