-- ==== Sys2Proof/Machine/Image.lean ====
section
/-! DEFINITION. Signed objects and statements: R122, R451, R452, R454. -/
namespace Sys2Proof.Machine

/-- The fuse counter and the revoked slots, R454, R466. -/
def State.fuse (s : State) : Nat := s.fldOf .ssiSecFuse 0 6
def State.revoked (s : State) (n : Nat) : Bool := bit (s.reg .ssiSecFuse) (28 + n)

/-- The root slot whose hash a public key has, among the slots not revoked. -/
def State.rootSlot (s : State) (pk : Bytes) : Option Nat :=
  (List.range 4).find? fun n => !(s.revoked n) && Config.rootHash n == Config.shake256 pk 64

/-- The checks of R451 in order: the root slot and the digest, or the status. -/
def State.checkSigned (s : State) (b : Bytes) (len pkOff sigOff : Nat) (rollback : Option Nat) : Except Nat (Nat × Bytes) :=
  if sigOff < pkOff + 1793 ∨ len < sigOff + 1280 then .error 0x80
  else
    let pk := cut b pkOff 1793
    let digest := Config.shake256 (b.take sigOff) 64
    match s.rootSlot pk with
    | none => .error 0x81
    | some n =>
      if !(Config.falconVerify pk digest (cut b sigOff 1280)) then .error 0x81
      else match rollback with
        | some r => if r < s.fuse then .error 0x82 else .ok (n, digest)
        | none => .ok (n, digest)

/-- The header fields of R122 that every package has. -/
structure Package where
  len : Nat
  rollback : Nat
  fmt : Nat
  version : Nat
  comps : List (Nat × Nat × Nat × Nat × Nat)
deriving DecidableEq, Repr

/-- Components: id, scope, offset, length, version. -/
def Package.parse (b : Bytes) : Package :=
  let comp := fun (i : Nat) => (numAt b (0x100 + 32 * i) 2, numAt b (0x102 + 32 * i) 1, numAt b (0x108 + 32 * i) 8, numAt b (0x110 + 32 * i) 8, numAt b (0x118 + 32 * i) 8)
  { len := numAt b 8 8, rollback := numAt b 0x10 1, fmt := numAt b 0x11 1, version := numAt b 0x18 8, comps := (List.range (numAt b 0x12 2)).map comp }

/-- Whether a header is valid for a package of the given format, R122. -/
def packageHeaderOk (b : Bytes) (fmt : Nat) : Bool :=
  let len := numAt b 8 8
  numAt b 0 4 == 0x42565841 && numAt b 4 4 == 4096 && decide (8192 ≤ len ∧ len ≤ 251658240 ∧ len % 64 = 0) &&
  decide (numAt b 0x10 1 ≤ 63) && numAt b 0x11 1 == fmt && decide (1 ≤ numAt b 0x12 2 ∧ numAt b 0x12 2 ≤ 64) &&
  (Package.parse b).comps.all fun c => inside c.2.2.1 c.2.2.2.1 0 len

/-- Verifies a package: header, then R451. -/
def State.checkPackage (s : State) (b : Bytes) (fmt : Nat) : Except Nat (Package × Nat × Bytes) :=
  let p := Package.parse b
  if b.length < 4096 ∨ packageHeaderOk b fmt = false ∨ b.length < p.len then .error 0x80
  else match s.checkSigned b p.len (numAt b 0x20 8) (numAt b 0x28 8) (some p.rollback) with
    | .error e => .error e
    | .ok r => .ok (p, r.1, r.2)

/-- A signed statement with a body of n bytes, R452: the root slot of its key, or none when it fails. -/
def State.checkStatement (s : State) (b : Bytes) (n : Nat) : Option Nat :=
  let sig := roundUp (n + 1793) 64
  let pk := cut b n 1793
  if b.length < sig + 1280 ∨ leVal (cut b (n + 1793) (sig - n - 1793)) ≠ 0 then none
  else match s.rootSlot pk with
    | none => none
    | some slot => if Config.falconVerify pk (Config.shake256 (b.take (n + 1793)) 64) (cut b sig 1280) then some slot else none

end Sys2Proof.Machine
end

