-- ==== Sys2Proof/Machine/Security.lean ====
section
/-! DEFINITION. Identity, attestation, anti-rollback, weight packages, debug access and confidential mode: R449 to R468. -/
namespace Sys2Proof.Machine

def State.setSec (s : State) (f : Sec → Sec) : State := s.setSsi fun x => { x with sec := f x.sec }

/-- Reads a statement, and goes on with its body and the root slot of its key, R452. -/
def withStatement (c : Cmd) (n : Nat) (s : State) (k : Bytes → Nat → State → State) : State :=
  s.withTable c (c.p 0x20 8) (c.p 0x28 4) fun b s =>
    match s.checkStatement b n with
    | none => s.failCmd c.id 0x85
    | some slot => k (b.take n) slot s

/-! Identity and attestation, R456, R457 -/

/-- SEC_GET_IDENTITY: COMMAND_COMMIT ends it after the last write (R91). -/
def secGetIdentity (c : Cmd) (s : State) : State :=
  if s.busMaster then (s.push c.id (c.p 0x20 8) (cut Config.certificate 0 6272) false).setVerdict c.id 0 else s.failCmd c.id 0x41

def execSecGetIdentity (dt id : Nat) (s : State) : Host.Outcome State Fault Refusal := runCmd dt id 0x0901 secGetIdentity s

/-- The update chain: 0 at a warm reset, then SHAKE256 of the chain and each package's digest. -/
def State.updateChain (s : State) : Bytes :=
  s.ccx.fwChain.foldl (fun (h : Bytes) e => Config.shake256 (h ++ e.2) 64) (List.replicate 64 0)

/-- The 512-byte body of an attestation. -/
def State.attestBody (s : State) (nonce : Bytes) : Bytes :=
  let st := s.reg .ssiSecStat
  let flags := (if s.confidential then 1 else 0) + (if bit st 29 then 2 else 0) + (if s.configured then 4 else 0) + (if bit st 28 then 8 else 0)
  leBytes 4 0x41545354 ++ leBytes 2 1 ++ leBytes 2 flags ++ leBytes 8 Config.serial.toNat ++ leBytes 8 Config.setId.toNat ++ nonce ++
  leBytes 8 (s.seen s.now) ++ leBytes 8 s.ccx.imageVersion ++ cut s.ccx.imageDigest 0 64 ++ leBytes 1 s.ccx.imageRollback ++ leBytes 1 s.fuse ++
  leBytes 1 (s.fldOf .ssiSecStat 26 2) ++ leBytes 1 (if bit (s.reg .mmvDevNum) 7 then s.devNum else 0xFF) ++ leBytes 4 (s.reg .ccxIdGen).toNat ++
  leBytes 4 s.ccx.fwChain.length ++ leBytes 4 0 ++ leBytes 8 s.ssi.cfgVersion ++ cut s.ssi.sec.cfgDigest 0 64 ++ cut s.ssi.sec.policy 0 64 ++
  s.updateChain ++ List.replicate 160 0

/-- SEC_ATTEST. -/
def secAttest (c : Cmd) (s : State) : State :=
  if s.busMaster then
    let b := s.attestBody (cut c.params 0 32)
    (s.push c.id (c.p 0x40 8) (b ++ cut (Config.falconSign b) 0 1280) false).setVerdict c.id 0
  else s.failCmd c.id 0x41

def execSecAttest (dt id : Nat) (s : State) : Host.Outcome State Fault Refusal := runCmd dt id 0x0902 secAttest s

/-! Anti-rollback and revocation, R453 to R455 -/

/-- A supply warning on VSAFE or VIO is in force, R474, R486. -/
def State.safeWarn (s : State) : Bool := bit (s.reg .ssiPwrStat) 1 || bit (s.reg .ssiPwrStat) 2

/-- SEC_ROLLBACK_COMMIT. -/
def secRollbackCommit (c : Cmd) (s : State) : State :=
  let old := s.fuse
  let new := s.ccx.imageRollback
  if new ≤ old then (s.setResult c.id 0x20 (leBytes 1 old ++ leBytes 1 old)).finish c.id 0x01
  else if s.safeWarn then s.failCmd c.id stBusy
  else
    let s := (s.setFldOf .ssiSecFuse 0 6 new).setFldOf .ssiSecStat 28 1 0
    (s.raise 0x0901 0 (evData [old, new])).doneWith c (leBytes 1 old ++ leBytes 1 new)

def execSecRollbackCommit (dt id : Nat) (s : State) : Host.Outcome State Fault Refusal := runCmd dt id 0x0903 secRollbackCommit s

/-- SEC_ROOT_REVOKE; a slot that is revoked already ends it ST_ALREADY_DONE (log entry 73). -/
def secRootRevoke (c : Cmd) (s : State) : State :=
  withStatement c 64 s fun b slot s =>
    let n := numAt b 4 1
    let serial := numAt b 8 8
    let last := (List.range 4).all fun k => k == n || s.revoked k
    if numAt b 0 4 ≠ 0x52564B53 ∨ 3 < n ∨ (serial ≠ 0 ∧ serial ≠ Config.serial.toNat) then s.failCmd c.id 0x85
    else if slot = n ∨ last then s.failCmd c.id stNotPermitted
    else if s.revoked n then s.finish c.id 0x01
    else ((s.setFldOf .ssiSecFuse (28 + n) 1 1).raise 0x0902 0 (evData [n])).done c

def execSecRootRevoke (dt id : Nat) (s : State) : Host.Outcome State Fault Refusal := runCmd dt id 0x0904 secRootRevoke s

/-! Weight packages, R458 to R462 -/

/-- The header of a weight package, R458. -/
structure Weights where
  flags : Nat
  packageId : Nat
  plain : Nat
  chunk : Nat
  wraps : Nat
  wrapOff : Nat
  dataOff : Nat
  sigOff : Nat
  pkOff : Nat
deriving DecidableEq, Repr

def Weights.parse (b : Bytes) : Weights :=
  { flags := numAt b 6 2, packageId := numAt b 8 8, plain := numAt b 0x10 8, chunk := numAt b 0x18 4, wraps := numAt b 0x1C 2
    wrapOff := numAt b 0x20 8, dataOff := numAt b 0x28 8, sigOff := numAt b 0x30 8, pkOff := numAt b 0x38 8 }

def Weights.chunks (w : Weights) : Nat := ceilDiv w.plain (Nat.max 1 w.chunk)

/-- The offset and length of chunk i. -/
def Weights.chunkAt (w : Weights) (i : Nat) : Nat × Nat :=
  (w.dataOff + i * (w.chunk + 64), Nat.min w.chunk (w.plain - i * w.chunk))

/-- Check 1 of R461; the package lies within the length the command gives. -/
def Weights.ok (w : Weights) (b : Bytes) : Bool :=
  let pow := (List.range 9).any fun i => w.chunk == 65536 * 2 ^ i
  let last := w.chunkAt (w.chunks - 1)
  numAt b 0 4 == 0x4657504B && numAt b 4 2 == 1 && decide (4096 ≤ b.length ∧ 1 ≤ w.plain ∧ w.plain ≤ 0x800000000 ∧ 1 ≤ w.wraps ∧ w.wraps ≤ 25) && pow &&
  decide (w.wrapOff % 64 = 0 ∧ w.dataOff % 64 = 0 ∧ w.wrapOff + 1664 * w.wraps ≤ b.length ∧ last.1 + last.2 + 64 ≤ b.length) &&
  (w.flags.testBit 0 || decide (w.sigOff = 0 ∧ w.pkOff = 0))

/-- The wrap entry that this device takes, R459. -/
def Weights.entry (w : Weights) (b : Bytes) : Option Bytes :=
  let es := (List.range w.wraps).map fun i => cut b (w.wrapOff + 1664 * i) 1664
  match es.find? fun e => numAt e 0 1 == 2 && numAt e 8 8 == Config.serial.toNat with
  | some e => some e
  | none => es.find? fun e => numAt e 0 1 == 1 && numAt e 8 8 != 0 && numAt e 8 8 == Config.setId.toNat

/-- The plain bytes of chunks from i on, or the index of the first that fails. -/
def Weights.open_ (w : Weights) (key b : Bytes) : Nat → Nat → Except Nat Bytes
  | 0, _ => .ok []
  | n + 1, i =>
    let c := w.chunkAt i
    match Config.gcmOpen key (leBytes 8 w.packageId ++ leBytes 4 i) (b.take 0x40) (cut b c.1 c.2) (cut b (c.1 + c.2) 16) with
    | none => .error i
    | some p => match w.open_ key b n (i + 1) with
      | .error e => .error e
      | .ok r => .ok (p ++ r)

/-- The free handle. -/
def State.freeRegion (s : State) : Option Nat := (List.range 16).find? fun n => (s.reg (.ssiSecProtSize n)).toNat == 0

/-- SSI_SEC_STAT counts the regions in use. -/
def State.showRegions (s : State) : State := s.setFldOf .ssiSecStat 0 5 s.protRegions.length

/-- A failing unwrap or chunk, R461. -/
def State.weightFail (s : State) (c : Cmd) (w : Weights) (chunk : Option Nat) (st : Nat) : State :=
  let s := s.countSat .ssiSecCnt (if chunk.isSome then 16 else 0) 16
  (s.raise 0x0903 c.part (evData [w.packageId, chunk.getD 0xFFFFFFFF])).failCmd c.id st

/-- The checks of R461 before anything is written: the content key. -/
def State.weightErr (s : State) (c : Cmd) (w : Weights) (b : Bytes) : Option Nat :=
  let dst := c.p 0x30 8
  let size := roundUp w.plain 65536
  let signed := if w.flags.testBit 0 then (match s.checkSigned b b.length w.pkOff w.sigOff none with | .error e => some e | .ok _ => none) else none
  let entry := (w.entry b).bind fun e => Config.unwrapKey e (leBytes 8 w.packageId)
  if !(w.ok b) then some 0x80
  else if (w.flags.testBit 1 && !s.confidential) || (w.flags.testBit 2 && bit (s.reg .ssiSecStat) 29) then some stNotPermitted
  else match signed with
    | some e => some e
    | none =>
      if entry.isNone then some 0x83
      else if decide (dst % 65536 ≠ 0 ∨ hbmSize < dst + size) || !(s.inRange (.part c.part) true dst size) then some stRange
      else if s.meetsProt dst size then some 0x22
      else if s.freeRegion.isNone then some 0x26
      else none

/-- SEC_WEIGHT_LOAD. A load that fails leaves what it wrote zeroed. -/
def secWeightLoad (c : Cmd) (s : State) : State :=
  let dst := c.p 0x30 8
  s.withTable c (c.p 0x20 8) (c.p 0x28 8) fun b s =>
    let w := Weights.parse b
    match s.weightErr c w b with
    | some 0x83 => s.weightFail c w none 0x83
    | some e => s.failCmd c.id e
    | none =>
      let key := ((w.entry b).bind fun e => Config.unwrapKey e (leBytes 8 w.packageId)).getD []
      let tags := (List.range w.chunks).flatMap fun i => cut b ((w.chunkAt i).1 + (w.chunkAt i).2) 16
      match w.open_ key b w.chunks 0 with
      | .error i => ((s.clearMem dst (i * w.chunk)).clearPoison dst (i * w.chunk)).weightFail c w (some i) 0x81
      | .ok p =>
        if Config.shake256 tags 64 ≠ cut b 0x40 64 then ((s.clearMem dst w.plain).clearPoison dst w.plain).failCmd c.id 0x81
        else
          let n := s.freeRegion.getD 0
          let s := s.store dst (cut p 0 w.plain)
          let s := (s.setReg (.ssiSecProtBase n) (BitVec.ofNat 64 dst)).setReg (.ssiSecProtSize n) (BitVec.ofNat 64 (ceilDiv w.plain 65536))
          let s := (s.setReg (.ssiSecProtPart n) (BitVec.ofNat 64 c.part)).showRegions
          s.doneWith c (leBytes 1 n ++ List.replicate 7 0 ++ leBytes 8 w.plain)

def execSecWeightLoad (dt id : Nat) (s : State) : Host.Outcome State Fault Refusal := runCmd dt id 0x0910 secWeightLoad s

/-- Whether a RUNNING command reads a region, R462. -/
def State.regionRead (s : State) (base size : Nat) : Bool :=
  let reads := fun (ds : List (Nat × Desc)) (outs : List Nat) => ds.any fun e => !(outs.contains e.1) && e.2.rows.any fun a => meets a e.2.rowBytes base size
  (s.tar.jobs.any fun j => reads j.ds j.outs) || s.mmv.moves.any fun j => reads j.ds j.outs

/-- SEC_WEIGHT_RELEASE: it waits for the commands that read the region. -/
def secWeightRelease (c : Cmd) (s : State) : State × Bool :=
  let n := c.p 0x20 1
  let base := (s.reg (.ssiSecProtBase n)).toNat
  let size := (s.reg (.ssiSecProtSize n)).toNat * 65536
  if 15 < n ∨ size = 0 then s.kvFail c stBadParam
  else if s.fldOf (.ssiSecProtPart n) 0 3 ≠ c.part then s.kvFail c stNotPermitted
  else if s.regionRead base size then (s, true)
  else
    let s := (s.clearMem base size).clearPoison base size
    let s := ((s.setReg (.ssiSecProtBase n) 0).setReg (.ssiSecProtSize n) 0).setReg (.ssiSecProtPart n) 0
    s.showRegions.kvDone c []

def execSecWeightRelease (dt id : Nat) (s : State) : Host.Outcome State Fault Refusal := runKv dt id 0x0911 secWeightRelease s

/-! Debug and confidential mode, R463 to R465 -/

/-- A fresh debug nonce. -/
def State.drawNonce (s : State) : State :=
  let r := s.draw 32
  (List.range 4).foldl (fun (s : State) i => s.setReg (.ssiSecDbgNonce i) (BitVec.ofNat 64 (numAt r.1 (8 * i) 8))) r.2

/-- The nonce of SSI_SEC_DBG_NONCE. -/
def State.dbgNonce (s : State) : Bytes := (List.range 4).flatMap fun i => leBytes 8 (s.reg (.ssiSecDbgNonce i)).toNat

/-- SEC_DEBUG_UNLOCK: whatever its outcome, an attempt draws a fresh nonce. -/
def secDebugUnlock (c : Cmd) (s : State) : State :=
  let nonce := s.dbgNonce
  let s := s.drawNonce
  if s.confidential then s.failCmd c.id 0x84
  else withStatement c 128 s fun b _ s =>
    let level := numAt b 4 1
    if numAt b 0 4 ≠ 0x44424755 ∨ level = 0 ∨ 2 < level ∨ numAt b 8 8 ≠ Config.serial.toNat ∨ cut b 0x10 32 ≠ nonce then s.failCmd c.id 0x85
    else
      let s := (s.setFldOf .ssiSecStat 29 2 3).emit (.jtag true)
      (s.raise 0x0904 0 (evData [level])).done c

def execSecDebugUnlock (dt id : Nat) (s : State) : Host.Outcome State Fault Refusal := runCmd dt id 0x0921 secDebugUnlock s

/-- Whether a policy of R464 applies to this device. -/
def State.policyOk (s : State) (b : Bytes) : Bool :=
  let scope := numAt b 4 1
  let target := numAt b 8 8
  let match_ := (scope == 0 && target == Config.serial.toNat) || (scope == 1 && target != 0 && target == Config.setId.toNat)
  numAt b 0 4 == 0x43464450 && match_ && decide (numAt b 0x10 8 ≤ s.ccx.imageVersion ∧ numAt b 0x18 8 ≤ s.ssi.cfgVersion) &&
  !((numAt b 0x20 4).testBit 0 && bit (s.reg .ssiSecStat) 29) && leVal (cut b 0x24 220) == 0

/-- SEC_CONFIDENTIAL_ENTER. -/
def secConfidentialEnter (c : Cmd) (s : State) : State :=
  if s.confidential then s.finish c.id 0x01
  else withStatement c 256 s fun b _ s =>
    if !(s.policyOk b) then s.failCmd c.id 0x85
    else
      let d := Config.shake256 b 64
      let s := if bit (s.reg .ssiSecStat) 30 then s.emit (.jtag false) else s
      let s := ((s.setFldOf .ssiSecStat 31 1 1).setFldOf .ssiSecStat 30 1 0).setSec fun x => { x with policy := d }
      (s.raise 0x0905 0 (d.take 8)).done c

def execSecConfidentialEnter (dt id : Nat) (s : State) : Host.Outcome State Fault Refusal := runCmd dt id 0x0920 secConfidentialEnter s

end Sys2Proof.Machine
end

