-- ==== Sys2Proof/Machine/Control.lean ====
section
/-! DEFINITION. The Control group: functions (R108 to R111), partitions (R114 to R117), host ranges (R118), windows (R119, R120), live
update (R124, R125), drain timeouts (R508), and their rows. -/
namespace Sys2Proof.Machine

/-! Functions, R108 to R111, R507 -/

/-- The kinds of R108 with their indices. -/
def funcExists (kind idx : Nat) : Bool :=
  if kind = 1 then decide (idx ≤ 13) else if kind = 8 then decide (idx ≤ 7) else decide (2 ≤ kind ∧ kind ≤ 7 ∧ idx = 0)

/-- The core that a tensor command names: its descriptor's, or the first of its chain's list, R507. -/
def State.namedCore (s : State) (c : Cmd) : Nat := if c.code = 0x0604 then s.rdNum (c.p 0x20 8 + 2) 1 else c.p 0x22 1

/-- Whether a command is for a function, R507. -/
def State.isFor (s : State) (c : Cmd) (kind idx : Nat) : Bool :=
  match kind with
  | 1 => [0x0601, 0x0602, 0x0603, 0x0604, 0x0610, 0x0611].contains c.code && (s.namedCore c == idx || (s.tar.jobs.any fun j => j.cmd == c.id && j.core == idx) ||
    s.kv.walks.any fun w => w.cmd == c.id && w.job.core == idx)
  | 2 => c.code == 0x0401
  | 4 => c.code == 0x0421
  | 5 => c.code == 0x0504 || c.code == 0x0505
  | 6 => [0x0701, 0x0702, 0x0703, 0x0704, 0x0708, 0x0720].contains c.code
  | 7 => c.code == 0x0740
  | _ => false

/-- Whether a command is for a function that is disabled. -/
def State.funcRefuses (s : State) (c : Cmd) : Bool := s.ccx.funcs.any fun f => s.isFor c f.kind f.idx

def State.setFuncs (s : State) (f : List FuncRec → List FuncRec) : State := { s with ccx := { s.ccx with funcs := f s.ccx.funcs } }

/-- Marks commands to end DISCARDED at their natural end, R110. -/
def State.discardAll (s : State) (l : List Nat) : State := l.foldl (fun (s : State) id => s.updCmd id fun c => { c with discard := true }) s

/-- A function is enabled again; an alignment function goes on with its schedules, R507. -/
def State.enableFunc (s : State) (kind idx : Nat) : State :=
  let s := s.setFuncs fun l => l.filter fun f => !(f.kind == kind && f.idx == idx)
  if kind = 2 then (List.range 4).foldl (fun (s : State) j => s.resumeSched j 2) s else s

/-- Whether the parameters of CTRL_FUNC_DISABLE lie in their ranges, R109. -/
def Cmd.disableOk (c : Cmd) : Bool := funcExists (c.p 0x20 1) (c.p 0x22 2) && decide (c.p 0x21 1 ≤ 1 ∧ c.p 0x24 4 ≤ 10000)

/-- The function stops accepting work, R110; a second disable joins a pending one. -/
def State.disableFunc (s : State) (c : Cmd) : State :=
  let kind := c.p 0x20 1
  let mode := c.p 0x21 1
  let idx := c.p 0x22 2
  let ms := c.p 0x24 4
  match s.ccx.funcs.find? fun f => f.kind == kind && f.idx == idx with
  | some f =>
    let s := s.setFuncs (updFirst (fun f => f.kind == kind && f.idx == idx) fun f => { f with discard := f.discard || mode == 1, cmds := f.cmds ++ [c.id] })
    if mode = 1 ∧ f.discard = false then
      let s := s.discardAll (f.waiting.filter s.isRunning)
      if kind = 2 then s.disableAlign true else if kind = 3 then s.discardFrame else s
    else s
  | none =>
    let mine := s.ccx.cmds.filter fun x => s.isFor x kind idx
    let queued := mine.filter fun x => x.state == .accepted
    let running := mine.filter fun x => x.state == .running
    let rec_ : FuncRec := { kind := kind, idx := idx, discard := mode == 1, due := c.acceptNs + (if ms = 0 then 100 else ms) * 1000000, waiting := running.map (·.id)
                            cmds := [c.id], ended := running.length, failed := queued.length, committed := false }
    let s := s.setFuncs fun l => l ++ [rec_]
    let s := queued.foldl (fun (s : State) x => s.failCmd x.id 0x18) s
    let s := if mode = 1 then s.discardAll rec_.waiting else s
    if kind = 2 then s.disableAlign (mode == 1) else if kind = 3 ∧ mode = 1 then s.discardFrame else s

/-- Whether an earlier disable of the named function has committed, R111; one that timed out counts as committed (DESIGN CHOICE, log
entry 75). -/
def State.disabledBefore (s : State) (c : Cmd) : Bool :=
  s.ccx.funcs.any fun f => f.kind == c.p 0x20 1 && f.idx == c.p 0x22 2 && f.committed

/-- CTRL_FUNC_DISABLE at its acceptance, R110: 2 marks a disable that acts since then, 3 one that changes nothing. -/
def State.disableAccepted (s : State) (c : Cmd) : State :=
  if c.disableOk = false then s
  else if s.disabledBefore c then s.updCmd c.id fun x => { x with aux := [3] }
  else (s.disableFunc c).updCmd c.id fun x => { x with aux := [2] }

/-- CTRL_FUNC_DISABLE: R110, R111. It has acted at its acceptance and commits when the last RUNNING command has ended. -/
def ctrlFuncDisable (c : Cmd) (s : State) : State :=
  if c.aux.contains 2 then s
  else s.firstFail c [(!c.disableOk, stBadParam)] fun s =>
    if c.aux.contains 3 || s.disabledBefore c then s.doneWith c (leBytes 8 0) else s.disableFunc c

def execCtrlFuncDisable (dt id : Nat) (s : State) : Host.Outcome State Fault Refusal := runCmd dt id 0x0103 ctrlFuncDisable s

/-- CTRL_FUNC_ENABLE: R111. -/
def ctrlFuncEnable (c : Cmd) (s : State) : State :=
  let kind := c.p 0x20 1
  let idx := c.p 0x22 2
  s.firstFail c [(!(funcExists kind idx), stBadParam), (s.ccx.funcs.any fun f => f.kind == kind && f.idx == idx && !f.committed, stBusy)] fun s =>
    (if s.funcOff kind idx then s.enableFunc kind idx else s).done c

def execCtrlFuncEnable (dt id : Nat) (s : State) : Host.Outcome State Fault Refusal := runCmd dt id 0x0104 ctrlFuncEnable s

/-! Tables of ranges and quotas, R115, R116 -/

/-- Range entries: base, size in units of 64 KiB, flags. -/
def rangeEntries (b : Bytes) (n : Nat) : List (Nat × Nat × Nat) :=
  (List.range n).map fun (i : Nat) => (numAt b (16 * i) 8, numAt b (16 * i + 8) 4, numAt b (16 * i + 12) 4 % 8)

/-- Quota entries: arbiter, quota. -/
def quotaEntries (b : Bytes) (n : Nat) : List (Nat × Nat) := (List.range n).map fun (i : Nat) => (numAt b (4 * i) 2, numAt b (4 * i + 2) 1)

/-- Whether the fields of the entries lie in their ranges. -/
def rangesOk (l : List (Nat × Nat × Nat)) : Bool := l.all fun e => decide (e.1 % 65536 = 0 ∧ 1 ≤ e.2.1)
def quotasOk (l : List (Nat × Nat)) : Bool :=
  (l.all fun e => decide (e.1 ≤ 57 ∧ 1 ≤ e.2 ∧ e.2 ≤ 64)) && (l.map (·.1)).eraseDups.length == l.length

/-- Whether a range reaches the register space or the firmware load region. -/
def reachesOwn (e : Nat × Nat × Nat) : Bool := meets e.1 (e.2.1 * 65536) csrBase csrSize || meets e.1 (e.2.1 * 65536) loadBase loadSize

/-- Whether a range overlaps one of another bank that it does not share. -/
def State.rangeClash (s : State) (p : Nat) (e : Nat × Nat × Nat) : Bool :=
  (List.range 8).any fun q => q != p && (s.ranges q).any fun x =>
    meets e.1 (e.2.1 * 65536) x.1 x.2.1 && !(e.2.2.testBit 2 && x.2.2.testBit 2)

/-- Whether the quotas would exceed 64 on an arbiter. -/
def State.quotaOver (s : State) (p : Nat) (l : List (Nat × Nat)) : Bool :=
  l.any fun e => decide (64 < e.2 + (List.range 8).foldl (fun (n : Nat) q => if q = p then n else n + s.fldOf (.mmvArbQuota e.1) (8 * q) 8) 0)

/-- The conditions of R116 after the field checks, in order; a protected region of R460 that loses its range is not permitted. -/
def State.defineErr (s : State) (p : Nat) (r : List (Nat × Nat × Nat)) (q : List (Nat × Nat)) : Option Nat :=
  let lost := s.protRegions.any fun e => e.2.2 == p && !(r.any fun x => inside e.1 e.2.1 x.1 (x.2.1 * 65536))
  (([(r.any fun e => s.inHole e.1 (e.2.1 * 65536), stHole), (r.any reachesOwn || lost, stNotPermitted), (r.any (s.rangeClash p), 0x22),
    (s.quotaOver p q, 0x23)] : List (Bool × Nat)).find? (·.1)).map (·.2)

/-- Writes a range bank. -/
def State.setRanges (s : State) (bank : Nat) (l : List (Nat × Nat × Nat)) : State :=
  (List.range 16).foldl (fun (s : State) r =>
    let e := l.getD r (0, 0, 0)
    (s.setReg (.mmvRangeBase bank r) (BitVec.ofNat 64 e.1)).setReg (.mmvRangeSize bank r) (BitVec.ofNat 64 (e.2.1 + e.2.2 * 2 ^ 32))) s

/-- Writes the quotas of a partition; an arbiter without an entry has none. -/
def State.setQuotas (s : State) (p : Nat) (l : List (Nat × Nat)) : State :=
  (List.range 58).foldl (fun (s : State) n => s.setFldOf (.mmvArbQuota n) (8 * p) 8 (((l.find? fun e => e.1 == n).map (·.2)).getD 0)) s

/-! Partitions, R114 to R117 -/

/-- CTRL_PART_DEFINE: R115, R116. -/
def ctrlPartDefine (c : Cmd) (s : State) : State :=
  let p := c.p 0x20 1
  let nr := c.p 0x21 1
  let nq := c.p 0x22 1
  let cc := c.p 0x23 1
  s.firstFail c [(p == 0, stNotPermitted), (decide (7 < p ∨ nr = 0 ∨ 16 < nr ∨ 64 < nq ∨ cc = 0 ∨ 7 < cc), stBadParam),
      (s.partState p != .undefined && s.partState p != .defined, stPartState)] fun s =>
    s.withTable c (c.p 0x28 8) (16 * nr) fun br s => s.withTable c (if nq = 0 then 0 else c.p 0x30 8) (4 * nq) fun bq s =>
      let r := rangeEntries br nr
      let q := quotaEntries bq nq
      if !(rangesOk r && quotasOk q) then s.failCmd c.id stBadParam
      else match s.defineErr p r q with
        | some e => s.failCmd c.id e
        | none => ((((s.setRanges p r).setQuotas p q).setPart p { s.part p with core := cc }).toState p .defined).done c

def execCtrlPartDefine (dt id : Nat) (s : State) : Host.Outcome State Fault Refusal := runCmd dt id 0x0110 ctrlPartDefine s

/-- The standing configuration of a partition, which was kept while it was DEFINED, is applied: its streams align anew and its schedules go
on, R117 (log entry 88). -/
def State.applyStanding (s : State) (p : Nat) : State :=
  let s := (s.flushStreams p).restartChurn p
  let s := (List.range 64).foldl (fun (s : State) n => if (s.strm n).owner = some p ∧ s.strmOn n = true then s.enableStream n else s) s
  (List.range 4).foldl (fun (s : State) j => if s.schedOn j ∧ s.schedOwner j = p then s.resumeSched j 3 else s) s

/-- CTRL_PART_START: R117. -/
def ctrlPartStart (c : Cmd) (s : State) : State :=
  let p := c.p 0x20 1
  s.firstFail c [(p == 0, stNotPermitted), (decide (7 < p), stBadParam), (s.partState p != .defined, stPartState)] fun s =>
    (((s.setFldOf .ssiSafeStat (8 + p) 1 0).toState p .active).applyStanding p).done c

def execCtrlPartStart (dt id : Nat) (s : State) : Host.Outcome State Fault Refusal := runCmd dt id 0x0111 ctrlPartStart s

/-- Why a CTRL_PART_STOP is refused, R114, R117. -/
def State.stopErrs (s : State) (c : Cmd) : List (Bool × Nat) :=
  let p := c.p 0x20 1
  [(p == 0, stNotPermitted), (decide (7 < p ∨ 1 < c.p 0x21 1 ∨ 10000 < c.p 0x24 4), stBadParam),
    (s.partState p != .active && s.partState p != .paused, stPartState)]

/-- The partition enters STOPPING: its queued commands end FAILED, its RUNNING ones end under the mode, its launch entries are cancelled,
R117. -/
def State.beginStop (s : State) (c : Cmd) : State :=
  let p := c.p 0x20 1
  let ms := c.p 0x24 4
  let queued := s.ccx.cmds.filter fun x => x.state == .accepted && !x.noPart && x.part == p
  let running := (s.runningOf p).map (·.id)
  let stop : StopRec := { cmd := c.id, due := c.acceptNs + (if ms = 0 then 100 else ms) * 1000000, ended := running.length, failed := queued.length }
  let s := (s.setPart p { s.part p with stop := some stop }).toState p .stopping
  let s := queued.foldl (fun (s : State) x => s.failCmd x.id stPartState) s
  (if c.p 0x21 1 = 1 then s.discardAll running else s).cancelGey p

/-- CTRL_PART_STOP at its acceptance, R117: where it is not refused there, it acts. -/
def State.stopAccepted (s : State) (c : Cmd) : State :=
  if (s.stopErrs c).any (·.1) then s else (s.beginStop c).updCmd c.id fun x => { x with aux := [2] }

/-- CTRL_PART_STOP: R117. It has acted at its acceptance, else it acts now, and commits when the last RUNNING command has ended. -/
def ctrlPartStop (c : Cmd) (s : State) : State :=
  if c.aux.contains 2 then s else s.firstFail c (s.stopErrs c) fun s => s.beginStop c

def execCtrlPartStop (dt id : Nat) (s : State) : Host.Outcome State Fault Refusal := runCmd dt id 0x0112 ctrlPartStop s

/-- CTRL_SET_HOST_RANGES: R118. An address of 0 selects the inline form. -/
def ctrlSetHostRanges (c : Cmd) (s : State) : State :=
  let n := c.p 0x20 1
  let a := c.p 0x28 8
  let go := fun (b : Bytes) (s : State) =>
    let r := (rangeEntries b n).map fun (e : Nat × Nat × Nat) => (e.1, e.2.1, e.2.2 % 4)
    s.firstFail c [(!(rangesOk r), stBadParam), (r.any reachesOwn || r.any (fun e => s.meetsProt e.1 (e.2.1 * 65536)), stNotPermitted)] fun s => (s.setRanges 8 r).done c
  s.firstFail c [(decide (16 < n ∨ (a = 0 ∧ 12 < n)), stBadParam)] fun s =>
    if a = 0 then go (c.params.drop 16) s else s.withTable c a (16 * n) go

def execCtrlSetHostRanges (dt id : Nat) (s : State) : Host.Outcome State Fault Refusal := runCmd dt id 0x0118 ctrlSetHostRanges s

/-! Windows, R119, R120 -/

/-- Window entries. -/
def winEntries (b : Bytes) (n : Nat) : List Win :=
  (List.range n).map fun (i : Nat) => { mask := numAt b (16 * i) 2, part := numAt b (16 * i + 2) 1, start := numAt b (16 * i + 4) 4, len := numAt b (16 * i + 8) 4 }

/-- Whether two windows overlap on a core, or one does not fit its period. -/
def winConflict (period : Nat) (l : List Win) : Bool :=
  (l.any fun w => decide (period < w.start + w.len)) ||
  l.zipIdx.any fun a => l.zipIdx.any fun b => decide (a.2 < b.2) && (a.1.mask &&& b.1.mask) != 0 && meets a.1.start a.1.len b.1.start b.1.len

/-- CTRL_SET_WINDOWS: R119. -/
def ctrlSetWindows (c : Cmd) (s : State) : State :=
  let us := c.p 0x20 4
  let n := c.p 0x24 1
  s.firstFail c [(decide (us < 100 ∨ 1000000 < us ∨ 64 < n), stBadParam)] fun s =>
    s.withTable c (if n = 0 then 0 else c.p 0x28 8) (16 * n) fun b s =>
      let l := winEntries b n
      let bad := l.any fun w => decide (w.part = 0 ∨ 7 < w.part ∨ w.len < 50 ∨ 2 ^ 14 ≤ w.mask)
      let idle := l.any fun w => (List.range 14).any fun k => w.mask.testBit k && !(s.runsOn k)
      s.firstFail c [(bad, stBadParam), (winConflict us l, 0x36), (idle, stNotPermitted)] fun s =>
        let from_ := roundUp (s.now + 1000000) (us * 1000)
        ({ s with ccx := { s.ccx with winNext := some ⟨us * 1000, l, from_⟩ } }).doneWith c (leBytes 8 from_)

def execCtrlSetWindows (dt id : Nat) (s : State) : Host.Outcome State Fault Refusal := runCmd dt id 0x0119 ctrlSetWindows s

/-- WINDOW_SCHEDULE_START: the schedule takes effect; no windows remove it. -/
def windowScheduleStart (s : State) : State :=
  match s.ccx.winNext with
  | some w => if w.from_ ≤ s.now then { s with ccx := { s.ccx with win := if w.wins.isEmpty then none else some w, winNext := none, winCore := [] } } else s
  | none => s

def execWindowScheduleStart (dt : Nat) (s : State) : Host.Outcome State Fault Refusal := runEvent dt windowScheduleStart s

/-- The window of a core that the schedule has open at an instant: partition, scheduled start and end. -/
def WinSched.at (w : WinSched) (l now : Nat) : Option (Nat × Nat × Nat) :=
  let base := now - now % w.period
  (w.wins.find? fun x => x.mask.testBit l && decide (x.start * 1000 ≤ now % w.period ∧ now % w.period < (x.start + x.len) * 1000)).map fun x =>
    (x.part, base + x.start * 1000, base + (x.start + x.len) * 1000)

/-- WINDOW_BOUNDARY: a core's window closes or opens; a descriptor still running holds its window until it ends (R120). -/
def windowBoundary (l : Nat) (s : State) : State :=
  match s.ccx.win with
  | none => s
  | some w =>
    let x := sget {} s.ccx.winCore l
    let set := fun (y : WinCore) => { s with ccx := { s.ccx with winCore := sset {} s.ccx.winCore l y } }
    let busy := s.tar.jobs.any fun j => j.core == l && j.started && !j.ran
    match w.at l s.now with
    | some (p, a, b) =>
      if x.open_ = some p ∧ x.opens = a then s
      else if x.open_.isSome ∧ busy = true then s
      else
        let cut_ := ((x.shorten.find? fun e => e.1 == p).map (·.2)).getD 0
        set { open_ := some p, opens := a, closes := Nat.max s.now (b - cut_), shorten := x.shorten.filter fun e => e.1 != p }
    | none => if x.open_.isSome ∧ busy = true then s else set { x with open_ := none }

def execWindowBoundary (dt core : Nat) (s : State) : Host.Outcome State Fault Refusal := runEvent dt (windowBoundary core) s

/-! Live update, R124, R125 -/

/-- The partitions bound to a control core that are in a state. -/
def State.boundTo (s : State) (cc : Nat) (st : PartState) : List Nat :=
  (List.range 8).filter fun p => decide (p ≠ 0) && (s.part p).core == cc && s.partState p == st

/-- CTRL_FW_UPDATE: the package is verified, and the partitions bound to the control core are PAUSED, R124, R125 steps 1 and 2. -/
def ctrlFwUpdate (c : Cmd) (s : State) : State :=
  let cid := c.p 0x20 2
  let mode := c.p 0x22 1
  let cc := c.p 0x23 1
  let ms := c.p 0x24 4
  let n := c.p 0x30 4
  s.firstFail c [(decide (1 < mode ∨ cc = 0 ∨ 7 < cc ∨ 10000 < ms ∨ 16777216 < n), stBadParam), (s.ccx.fwUpd.isSome, stBusy)] fun s =>
    s.withTable c (c.p 0x28 8) n fun b s =>
      match s.checkPackage b 1 with
      | .error e => s.failCmd c.id e
      | .ok (k, _, digest) =>
        match k.comps with
        | [x] =>
          let run := s.ccx.comps.find? fun y => y.id == cid
          s.firstFail c [(x.1 != cid || run.isNone, stBadParam), (x.2.1 != 1 || run.any (fun y => y.scope != 1), stNotPermitted)] fun s =>
            let l := s.boundTo cc .active
            let running := (l.flatMap s.runningOf).map (·.id)
            let upd : FwUpd := { cmd := c.id, core := cc, comp := ⟨cid, 1, x.2.2.2.2⟩, due := c.acceptNs + (if ms = 0 then 100 else ms) * 1000000
                                 pausedAt := s.ns, mask := l, digest := digest }
            let s := l.foldl (fun (s : State) p => s.toState p .paused) { s with ccx := { s.ccx with fwUpd := some upd } }
            if mode = 1 then s.discardAll running else s
        | _ => s.failCmd c.id 0x80

def execCtrlFwUpdate (dt id : Nat) (s : State) : Host.Outcome State Fault Refusal := runCmd dt id 0x0120 ctrlFwUpdate s

/-- The paused partitions of an update go on; their held commands are to be dispatched in acceptance order, R125 step 5. -/
def State.resumeParts (s : State) (l : List Nat) : State :=
  let held := (s.ccx.cmds.filter fun c => c.state == .accepted && !c.noPart && l.contains c.part).map (·.id)
  let s := { s with ccx := { s.ccx with order := held } }
  l.foldl (fun (s : State) p => if s.partState p = .paused then s.toState p .active else s) s

/-- Whether a live update still waits for its partitions to drain, or for the restarts of its timeout; the swap step begins when it does not,
R125. -/
def State.updWaits (s : State) (u : FwUpd) : Bool :=
  u.mask.any fun p => (s.partState p == .paused && !(s.runningOf p).isEmpty) || (u.timedOut && s.partState p == .restarting)

/-- FW_UPDATE_SWAP: the paused partitions have drained, or the restarts of the timeout have ended; the component is swapped and the
command commits, R125 steps 4 and 5. -/
def fwUpdateSwap (id : Nat) (s : State) : State :=
  match s.ccx.fwUpd with
  | none => s
  | some u =>
    if u.cmd ≠ id ∨ s.updWaits u = true then s
    else
      let live := (s.ccx.live.filter fun y => !(y.1 == u.core && y.2.id == u.comp.id)) ++ [(u.core, u.comp)]
      let s := { s with ccx := { s.ccx with fwUpd := none, live := live, fwChain := s.ccx.fwChain ++ [(u.comp, u.digest)] } }
      let s := (s.resumeParts u.mask).raise 0x0120 0 (evData [u.comp.id, u.core, u.comp.version])
      match s.cmd? id with
      | some c => (s.doneWith c (leBytes 8 (s.ns - u.pausedAt) ++ leBytes 1 (u.mask.foldl (fun m p => m + 2 ^ p) 0))).settle
      | none => s

def execFwUpdateSwap (dt id : Nat) (s : State) : Host.Outcome State Fault Refusal := runEvent dt (fwUpdateSwap id) s

/-! Drain timeouts, R508 -/

/-- The partitions but P0 whose commands are named, each once. -/
def State.partsOf (s : State) (l : List Nat) : List Nat :=
  ((l.filterMap s.cmd?).filterMap fun c => if c.noPart ∨ c.part = 0 then none else some c.part).eraseDups

def partMask (l : List Nat) : Nat := l.foldl (fun m p => m + 2 ^ p) 0

def State.restartAll (s : State) (l : List Nat) : State := l.foldl (fun (s : State) p => s.beginRestart p 1 none false) s

/-- A drain of a function times out; with nobody to restart the disable ends FAILED at once. -/
def State.funcTimeout (s : State) (f : FuncRec) : State :=
  let l := s.partsOf (f.waiting.filter s.isRunning)
  let at_ := fun (x : FuncRec) => x.kind == f.kind && x.idx == f.idx
  if l.isEmpty then
    let s := (s.setFuncs (updFirst at_ fun x => { x with committed := true, cmds := [] })).raise 0x0112 0 (evData [f.kind, f.idx, 0])
    (f.cmds.foldl (fun (s : State) id => (s.setResult id 0x20 (leBytes 4 f.ended ++ leBytes 4 f.failed)).failCmd id 0x19) s).settle
  else (s.setFuncs (updFirst at_ fun x => { x with restarting := l })).restartAll l

/-- A drain of a retrain times out, R333. -/
def State.retrainTimeout (s : State) (r : Retrain) : State :=
  let l := s.partsOf (s.onPort r.port)
  let s := s.setMmv fun m => { m with retrains := updFirst (fun x => x.cmd == r.cmd) (fun x => { x with timedOut := true, restarted := l }) m.retrains }
  (s.restartAll l).raise 0x0112 0 (evData [8, r.port, partMask l])

/-- The partitions whose frames a re-split waits for, R243. -/
def State.splitOwners (s : State) : List Nat :=
  (((List.range 4).filter fun j => s.schedOn j && s.voxelised j).map s.schedOwner).eraseDups.filter fun p => p != 0

/-- A drain of a re-split times out; it goes on with its step 3 once the restarts have ended, R243, R508. -/
def State.splitTimeout (s : State) (k : Split) : State :=
  let l := s.splitOwners
  (({ s with chn := { s.chn with split := some { k with timedOut := true, restarted := l } } }).restartAll l).raise 0x0112 0 (evData [3, 0, partMask l])

/-- The drains of retrains and re-splits. -/
def State.otherTimeout (s : State) (id : Nat) : State :=
  match s.mmv.retrains.find? fun r => r.cmd == id && !r.training && !r.timedOut with
  | some r => if r.due ≤ s.ns then s.retrainTimeout r else s
  | none => match s.chn.split with
    | some k => if k.cmd = id ∧ k.timedOut = false ∧ k.due ≤ s.ns ∧ s.frameBusy.isSome = true then s.splitTimeout k else s
    | none => s

/-- DRAIN_TIMEOUT of the command that drains: R110, R117, R125, R243, R333, R508. -/
def drainTimeout (id : Nat) (s : State) : State :=
  match s.ccx.funcs.find? fun f => f.cmds.head? == some id && !f.committed && f.restarting.isEmpty with
  | some f => if f.due ≤ s.ns then s.funcTimeout f else s
  | none => match (List.range 8).find? fun p => s.partState p == .stopping && (s.part p).stop.any fun k => k.cmd == id && decide (k.due ≤ s.ns) with
    | some p =>
      let s := (s.setPart p { s.part p with stop := (s.part p).stop.map fun k => { k with timedOut := true } }).beginRestart p 1 none true
      s.raise 0x0112 p (evData [0, p, partMask [p]])
    | none => match s.ccx.fwUpd with
      | some u =>
        if u.cmd = id ∧ u.timedOut = false ∧ u.due ≤ s.ns then
          let l := u.mask.filter fun p => s.partState p == .paused && !(s.runningOf p).isEmpty
          (({ s with ccx := { s.ccx with fwUpd := some { u with timedOut := true } } }).restartAll l).raise 0x0112 0 (evData [0, u.core, partMask l])
        else s.otherTimeout id
      | none => s.otherTimeout id

def execDrainTimeout (dt id : Nat) (s : State) : Host.Outcome State Fault Refusal := runEvent dt (drainTimeout id) s

end Sys2Proof.Machine
end

