-- ==== Sys2Proof/Machine/Guard.lean ====
section
/-! DEFINITION. The safety configuration (R422 to R428), safe states on request (R437, R438), the standby group (R442, R443), the pins
of the Island (R421, R440), and their rows. -/
namespace Sys2Proof.Machine

/-! The sections of a safety configuration, R423 -/

/-- The bytes of a section; empty where the package has none. -/
def Package.section_ (p : Package) (b : Bytes) (kind : Nat) : Bytes :=
  match p.comps.find? fun c => c.1 == kind with
  | some c => cut b c.2.2.1 c.2.2.2.1
  | none => []

/-- The entries of n bytes that a section holds. -/
def cutEvery (b : Bytes) (n : Nat) : List Bytes := (List.range (b.length / n)).map fun (i : Nat) => cut b (n * i) n

/-- Whether the sections are those of R423, each once, the required ones among them, and each of a length that its entries fill. -/
def Package.sectionsOk (p : Package) (b : Bytes) : Bool :=
  let len := fun (k : Nat) => (p.section_ b k).length
  let fits := fun (k n most : Nat) => len k % n == 0 && decide (len k ≤ n * most)
  (p.comps.all fun c => decide (1 ≤ c.1 ∧ c.1 ≤ 10 ∧ c.2.1 = 0)) && (p.comps.map (·.1)).eraseDups.length == p.comps.length &&
  len 1 == 64 && fits 2 16 16 && decide (16 ≤ len 2) && fits 3 4 64 && fits 4 64 64 && fits 5 16 16 && fits 6 32 8 && fits 7 48 32 &&
  decide (len 9 ≤ 262144) && fits 10 64 8 && p.comps.any fun c => c.1 == 10

/-- The policy of R424; none where a field lies outside its range. -/
def policyOf (b : Bytes) : Option Policy :=
  let g := numAt b
  if 1 ≤ g 0 1 ∧ g 0 1 ≤ 15 ∧ 10 ≤ g 1 1 ∧ g 1 1 ≤ 255 ∧ g 2 1 ≤ 15 ∧ 1 ≤ g 3 1 ∧ 1 ≤ g 4 1 ∧ g 4 1 ≤ 15 ∧ 1 ≤ g 5 1 ∧ g 5 1 ≤ 15 ∧
      100000000 ≤ g 8 4 ∧ g 8 4 ≤ 1000000000 ∧ 10000 ≤ g 0xC 4 ∧ g 0xC 4 ≤ 50000000 ∧ g 0x18 4 ≤ 10000000 then
    some { disagreeMax := g 0 1, disagreeFrames := g 1 1, qResetMax := g 2 1, residMax := g 3 1, memUeMax := g 4 1, safeMax := g 5 1
           starterPeriod := g 8 4, starterLen := g 0xC 4, starterPhase := g 0x10 8, checkWait := g 0x18 4 }
  else none

/-- The taps of a section, their rings one after the other in the tap area (R400); a window of 0 is twice the stream's period. -/
def tapsOf (l : List Bytes) (period : Nat → Nat) : List Tap :=
  (l.foldl (fun (x : List Tap × Nat) b =>
    let g := numAt b
    let w := if g 8 4 = 0 then 2 * period (g 0 1) else g 8 4
    let t : Tap := { stream := g 0 1, slots := g 2 2, slotBytes := g 4 4, window := w, base := x.2 }
    (x.1 ++ [t], x.2 + g 2 2 * g 4 4)) (([], 0x140000) : List Tap × Nat)).1

/-- Whether the taps' fields lie in their ranges, no stream has two, and the rings fit the tap area. -/
def tapsOk (l : List Bytes) (taps : List Tap) : Bool :=
  (l.all fun b => numAt b 8 4 == 0 || decide (10000 ≤ numAt b 8 4 ∧ numAt b 8 4 ≤ 4000000000)) &&
  (taps.all fun t => decide (t.stream ≤ 63 ∧ 1 ≤ t.slots ∧ 64 ≤ t.slotBytes ∧ t.slotBytes ≤ 65536 ∧ t.slotBytes % 64 = 0)) &&
  (taps.map (·.stream)).eraseDups.length == taps.length &&
  (taps.all fun t => decide (t.base + t.slots * t.slotBytes ≤ 0x200000))

/-- A loop entry, R425. -/
def loopOf (now ns : Nat) (b : Bytes) : Loop :=
  let g := numAt b
  { period := g 0 4, phase := g 4 4, budget := g 8 4, trigger := g 0xC 1, critical := (g 0xD 1).testBit 0, tracking := (g 0xD 1).testBit 1
    overrunMax := g 0xE 1, entry := g 0x10 8, last := now, cleanFrom := ns }

/-- Whether the loops' fields lie in their ranges, at most one tracks, and their utilisation is at most 0.85, R401, R425. -/
def loopsOk (l : List Loop) (taps : List Tap) : Bool :=
  (l.all fun x => decide (62500 ≤ x.period ∧ x.period ≤ 4000000 ∧ 1 ≤ x.overrunMax ∧ x.overrunMax ≤ 15) &&
    (x.trigger == 0xFF || taps.any fun t => t.stream == x.trigger)) &&
  decide ((l.filter fun x => x.tracking).length ≤ 1) &&
  decide (l.foldl (fun (u : Rat) x => u + (x.budget : Rat) / (x.period : Rat)) 0 ≤ (17 : Rat) / 20)

/-- The motion entry with its channels, R426. -/
def motionOf (b : Bytes) : Motion :=
  let g := numAt b
  let ch := fun (i : Nat) => Chan.mk (f32At b (32 + 16 * i)) (f32At b (36 + 16 * i)) (f32At b (40 + 16 * i)) (f32At b (44 + 16 * i))
  { part := g 0 1, fbMode := g 1 1, ageLimit := g 4 4, stopNs := g 8 4, stopHardNs := g 0xC 4, chans := (List.range (g 2 1)).map ch }

def motionOk (b : Bytes) : Bool :=
  let g := numAt b
  decide (1 ≤ g 0 1 ∧ g 0 1 ≤ 7 ∧ 2 ≤ g 1 1 ∧ g 1 1 ≤ 3 ∧ 1 ≤ g 2 1 ∧ g 2 1 ≤ 64 ∧ b.length = 32 + 16 * g 2 1)

/-- A starter set, R435. -/
def starterOf (b : Bytes) : StarterSet :=
  let g := numAt b
  let band : Band := { absTol := f32At b 0x10, relTol := f32At b 0x14, ppm := g 0x18 4, nanEq := (g 0x1C 4).testBit 0 }
  { listAddr := g 0 8, n := g 8 2, expectLen := g 0xC 4, band := band, expectAddr := g 0x20 8, digest := cut b 0x28 16 }

/-- Whether a starter set's fields lie in their ranges, its list in P0's ranges, and its digest verifies. -/
def State.starterOk (s : State) (p0 : List (Nat × Nat × Nat)) (x : StarterSet) : Bool :=
  decide (1 ≤ x.n ∧ x.n ≤ 64 ∧ x.band.ppm ≤ 1000000) &&
  (p0.any fun e => e.2.2.testBit 0 && inside x.listAddr (64 * x.n) e.1 (e.2.1 * 65536)) && s.digestOk x

/-- A stream of the configuration goes to P0, with its checks; none where it conflicts or a field lies outside its range. -/
def State.p0Stream (s : State) (taps : List Tap) (b : Bytes) : Option State :=
  let n := numAt b 0 1
  let d := cut b 0 48
  let e := cut b 48 16
  let tap := taps.any fun t => t.stream == n
  if s.streamFieldsOk d && (numAt d 0x19 1).testBit 1 == tap && !(s.foreignStream n 0) && !(s.strmOn n) && numAt e 0 1 == n && e2eOk e (numAt d 1 1)
  then some (((s.configStream d 0 tap).syncQ n).configE2e e 0) else none

/-- All streams of the configuration; each stream once. -/
def State.p0Streams (s : State) (taps : List Tap) (l : List Bytes) : Option State :=
  if (l.map fun b => numAt b 0 1).eraseDups.length ≠ l.length then none
  else l.foldl (fun (o : Option State) b => o.bind fun s => s.p0Stream taps b) (some s)

/-- The launch entries are written and armed, R153; one that names device memory is refused at arming, R407. -/
def State.p0Launch (s : State) (l : List Bytes) : State :=
  l.zipIdx.foldl (fun (s : State) (e : Bytes × Nat) => s.armP0 e.2 (geyParse (s.gey e.2) e.1)) s

/-- The Tap registers name their streams, R409. -/
def State.showTaps (s : State) (taps : List Tap) : State :=
  taps.zipIdx.foldl (fun (s : State) (e : Tap × Nat) => s.setFldOf (.ssiTap e.2) 0 8 e.1.stream) s

/-- What the Island holds of an accepted configuration; the setpoints of the lane are what the program measures, free values. -/
def State.applyReflex (s : State) (taps : List Tap) (loops : List Loop) (motion : Option Motion) : State :=
  let ctr := s.freeCtr
  let base := (List.range (match motion with | some m => m.chans.length | none => 0)).map fun (i : Nat) => Config.freeAt ctr i
  let s := { s with freeCtr := ctr + 1 }
  (s.setRfx fun r => { r with taps := taps, loops := loops, motion := motion, base := base }).showTaps taps

/-- The checks of R427 after the signature, and the acceptance; none where a check fails. -/
def State.acceptConfig (s : State) (p : Package) (b digest : Bytes) : Option State :=
  let sec := p.section_ b
  let ranges := rangeEntries (sec 2) ((sec 2).length / 16)
  let quotas := quotaEntries (sec 3) ((sec 3).length / 4)
  let streams := cutEvery (sec 4) 64
  let tapB := cutEvery (sec 5) 16
  let period := fun (n : Nat) => match streams.find? fun x => numAt x 0 1 == n with | some x => numAt x 0xC 4 | none => 0
  let taps := tapsOf tapB period
  let loops := (cutEvery (sec 6) 32).map (loopOf s.now s.ns)
  let launch := cutEvery (sec 7) 48
  let sets := (cutEvery (sec 10) 64).map starterOf
  let rangesOk_ := rangesOk ranges && !(ranges.any fun e => s.inHole e.1 (e.2.1 * 65536) || reachesOwn e || s.rangeClash 0 e)
  let parts := p.sectionsOk b && rangesOk_ && quotasOk quotas && !(s.quotaOver 0 quotas) && tapsOk tapB taps && loopsOk loops taps
  let inStreams := taps.all fun t => streams.any fun x => numAt x 0 1 == t.stream
  let launchOk := launch.all fun x => (geyParse {} x).fieldsOk
  let motion := if (sec 8).isEmpty then none else some (motionOf (sec 8))
  if !(parts && inStreams && launchOk && ((sec 8).isEmpty || motionOk (sec 8)) && sets.all (s.starterOk ranges)) then none
  else match policyOf (sec 1), s.p0Streams taps streams with
    | some pol, some s =>
      let s := (streams.map fun x => numAt x 0 1).foldl (fun (s : State) n => if s.profileRefuses n then s else s.enableStream n) s
      let s := ((s.setRanges 0 ranges).setQuotas 0 quotas).p0Launch launch
      let s := (if (sec 9).isEmpty then s else s.wrIsl 0x40000 (sec 9)).applyReflex taps loops motion
      let at_ := s.ns
      let s := s.setSsi fun x => { x with
        policy := pol, cfgVersion := p.version, starters := sets, digestAt := at_, slotNext := [], sec := { x.sec with cfgDigest := digest } }
      let s := ((s.setFldOf .ssiSafeStat 31 1 1).setReg .ssiSafeCfgVer (BitVec.ofNat 64 p.version)).syncCheckers
      some ((s.dropCause 1).raise 0x0801 0 (evData [p.version]))
    | _, _ => none

/-- SAFETY_CONFIG_LOAD: R427. It is read as SYSTEM, since P0 has no ranges before it (log entry 76). -/
def safetyConfigLoad (c : Cmd) (s : State) : State :=
  s.firstFail c [(c.part != 0, stNotPermitted), (s.configured, stBusy)] fun s =>
    s.withTableAs .system c (c.p 0x20 8) (c.p 0x28 4) fun b s =>
      match s.checkPackage b 2 with
      | .error e => s.failCmd c.id e
      | .ok (p, _, _) => match s.acceptConfig p b (Config.shake256 b 64) with
        | none => s.failCmd c.id 0x85
        | some s => s.doneWith c (leBytes 8 p.version)

def execSafetyConfigLoad (dt id : Nat) (s : State) : Host.Outcome State Fault Refusal := runCmd dt id 0x0801 safetyConfigLoad s

/-! Safe states and status, R438, R446 -/

/-- SAFETY_SAFE_STATE: it commits with its outcome, and the safe state begins. -/
def safetySafeState (c : Cmd) (s : State) : State :=
  let p := c.p 0x20 1
  s.firstFail c [(decide (p = 0 ∨ 7 < p), stBadParam), (c.part != 0 && c.part != p, stNotPermitted),
      (s.partState p == .undefined || s.partState p == .defined, stPartState)] fun s =>
    let stop := if s.partState p = .restarting then (s.part p).safeStop else decide (s.ssi.policy.safeMax < (s.entriesOf p).length + 1)
    (s.doneWith c (leBytes 1 (if stop then 1 else 0))).enterSafe p 5

def execSafetySafeState (dt id : Nat) (s : State) : Host.Outcome State Fault Refusal := runCmd dt id 0x0804 safetySafeState s

/-- SAFETY_STATUS: bytes 0x00_1000 to 0x00_102F and 0x00_1100 to 0x00_112F of the SSI block; bytes without a register read 0. -/
def safetyStatus (c : Cmd) (s : State) : State :=
  let r4 := fun (r : Reg) => leBytes 4 (s.reg r).toNat
  let slot := fun (k : Nat) => r4 (.ssiStarterStat k) ++ r4 (.ssiStarterDefer k) ++ r4 (.ssiStarterCore k) ++ leBytes 4 0
  s.doneWith c (r4 .ssiSafeStat ++ leBytes 4 0 ++ leBytes 8 (s.reg .ssiSafeCfgVer).toNat ++
    ((List.range 8).flatMap fun (p : Nat) => r4 (.ssiPartSafe p)) ++ r4 .ssiChkCnt ++ r4 .ssiChkSkip ++ leBytes 8 0 ++ slot 0 ++ slot 1)

def execSafetyStatus (dt id : Nat) (s : State) : Host.Outcome State Fault Refusal := runCmd dt id 0x0805 safetyStatus s

/-! Standby devices, R442, R443 -/

def State.standby (s : State) : Standby := s.ssi.standby
def State.modStandby (s : State) (f : Standby → Standby) : State := s.setSsi fun x => { x with standby := f x.standby }

/-- The other members of the group. -/
def State.groupMembers (s : State) : List Nat := (List.range 24).filter fun d => s.standby.group.testBit d && d != s.devNum

/-- Standbys that are missing: one for every six active ones. How many of the other members stand by is not told to this device: a
free value (log entry 77). -/
def State.standbyDeficit (s : State) (free : Nat) : Nat :=
  let others := s.groupMembers.length
  let n := others + 1
  let have_ := free % (others + 1) + (if s.standby.role = 2 then 1 else 0)
  ceilDiv (n - have_) 6 - have_

/-- SAFETY_STANDBY_CONFIG: R442. -/
def safetyStandbyConfig (c : Cmd) (s : State) : State :=
  let role := c.p 0x20 1
  let period := if c.p 0x22 2 = 0 then 10 else c.p 0x22 2
  let group := c.p 0x24 4
  let misses := if c.p 0x28 1 = 0 then 3 else c.p 0x28 1
  s.firstFail c [(decide (2 < role ∨ 100 < period ∨ 2 ^ 24 ≤ group ∨ misses < 2 ∨ 15 < misses), stBadParam)] fun s =>
    let at_ := s.ns
    let s := (s.modStandby fun _ => { role := role, period := period, group := group, misses := misses, joined := at_, sentAt := at_ }).setFldOf
      .ssiSafeStat 24 2 role
    let r := s.fresh
    let d := if role = 0 then 0 else s.standbyDeficit r.1.toNat
    let s := if d = 0 then r.2 else r.2.raise 0x080A 0 (evData [d])
    s.done c

def execSafetyStandbyConfig (dt id : Nat) (s : State) : Host.Outcome State Fault Refusal := runCmd dt id 0x0806 safetyStandbyConfig s

/-- HEARTBEAT_TX: once per period a member sends its heartbeat. -/
def heartbeatTx (s : State) : State :=
  let b := s.standby
  let at_ := s.ns
  if s.ready ∧ b.role ≠ 0 ∧ b.sentAt + b.period * 1000000 ≤ at_ then (s.modStandby fun x => { x with sentAt := at_ }).emit (.heartbeat s.devNum) else s

def execHeartbeatTx (dt : Nat) (s : State) : Host.Outcome State Fault Refusal := runEvent dt heartbeatTx s

/-- HEARTBEAT_RX: a member is heard; a member that answers again is not lost, and this device is not isolated. -/
def heartbeatRx (d : Nat) (s : State) : State :=
  if s.ready ∧ s.standby.role ≠ 0 ∧ s.groupMembers.contains d = true then
    let at_ := s.ns
    (s.modStandby fun x => { x with
      seen := (d, at_) :: x.seen.filter fun e => e.1 != d, lost := x.lost.filter fun e => e != d }).setFldOf .ssiSafeStat 26 1 0
  else s

def execHeartbeatRx (dt dev : Nat) (s : State) : Host.Outcome State Fault Refusal := runEvent dt (heartbeatRx dev) s

/-- The instant at which a member was last heard, or the group was joined. -/
def Standby.heard (b : Standby) (d : Nat) : Nat := match b.seen.find? fun e => e.1 == d with | some e => e.2 | none => b.joined

/-- The collectives that involve a lost member end, R336, R443. -/
def State.loseMember (s : State) (d : Nat) : State :=
  s.mmv.colls.foldl (fun (s : State) k =>
    if k.members.testBit d ∧ s.isRunning k.cmd = true ∧ (s.cmd? k.cmd).any (fun c => c.verdict.isNone) = true then
      (s.raise 0x0707 0 (evData [k.id, 2 ^ d])).failCmd k.cmd 0x70
    else s) s

/-- The promotion of a standby: its ports go down, it takes the lost number, and the ports that were enabled train again, R443. -/
def State.promote (s : State) (d : Nat) : State :=
  let old := s.devNum
  let on := (List.range 8).filter s.linkEn
  let width := fun (p : Nat) => match s.fldOf (.mmvLinkCtl p) 28 2 with | 3 => 4 | w => w
  let ctl := on.map fun p => (p, s.autoRetrain p, width p)
  let s := ctl.foldl (fun (s : State) (e : Nat × Bool × Nat) => s.setPort e.1 false e.2.1 e.2.2) s
  let s := s.setReg .mmvDevNum (setFld (setBit (0 : W64) 7 true) 0 5 d)
  let s := ctl.foldl (fun (s : State) (e : Nat × Bool × Nat) => s.setPort e.1 true e.2.1 e.2.2) s
  let s := (s.modStandby fun x => { x with role := 1, lost := x.lost.filter fun e => e != d }).setFldOf .ssiSafeStat 24 2 1
  s.raise 0x080B 0 (evData [old, d])

/-- HEARTBEAT_MISS_TIMEOUT: a member is lost. A device that has no route to any other member is isolated and keeps its number. A
standby promotes itself where no standby of a lower number sees the loss, which this device is not told: a free value (log entry 77). -/
def heartbeatMissTimeout (d : Nat) (s : State) : State :=
  let b := s.standby
  if !(s.ready && b.role != 0 && s.groupMembers.contains d && !(b.lost.contains d) && decide (b.heard d + b.misses * b.period * 1000000 ≤ s.ns)) then s
  else
    let s := ((s.modStandby fun x => { x with lost := x.lost ++ [d] }).raise 0x080A 0 (evData [d])).loseMember d
    let others := s.groupMembers.filter fun e => e != d
    let s :=
      if s.groupMembers.all fun e => (s.linkRoute e).isNone then (s.setFldOf .ssiSafeStat 26 1 1).raise 0x080C 0
      else if b.role = 2 then
        let r := s.fresh
        let lower := others.filter fun e => decide (e < s.devNum) && !(s.standby.lost.contains e)
        if lower.isEmpty ∨ r.1.getLsbD 0 then r.2.promote d else r.2
      else s
    s.settle

def execHeartbeatMissTimeout (dt dev : Nat) (s : State) : Host.Outcome State Fault Refusal := runEvent dt (heartbeatMissTimeout dev) s

/-! The Island's watchdog and pins, R421, R437, R440 -/

/-- CONTROL_CORE_WATCHDOG_TIMEOUT: trigger 6 for the partitions bound to the core. -/
def controlCoreWatchdogTimeout (cc : Nat) (s : State) : State :=
  if s.ready ∧ 1 ≤ cc ∧ cc ≤ 7 then
    ((List.range 8).filter fun p => decide (p ≠ 0) && s.partState p != .undefined && (s.part p).core == cc).foldl (fun (s : State) p => s.enterSafe p 6) s
  else s

def execControlCoreWatchdogTimeout (dt cc : Nat) (s : State) : Host.Outcome State Fault Refusal := runEvent dt (controlCoreWatchdogTimeout cc) s

/-- SAFE_ALIVE_TOGGLE: every millisecond, 10 µs more or less, while the Island's monitors pass. -/
def safeAliveToggle (s : State) : State :=
  let at_ := s.ns
  if s.pwr.porstHigh ∧ s.ssi.alive ∧ s.ssi.aliveAt + 990000 ≤ at_ then s.setSsi fun x => { x with aliveLevel := !x.aliveLevel, aliveAt := at_ } else s

def execSafeAliveToggle (dt : Nat) (s : State) : Host.Outcome State Fault Refusal := runEvent dt safeAliveToggle s

/-- ISLAND_MONITOR_FAIL: SAFE_FAULT_N is driven low and SAFE_ALIVE stops in its present state. -/
def islandMonitorFail (s : State) : State :=
  if s.pwr.porstHigh then (s.setSsi fun x => { x with alive := false }).addCause 6 else s

def execIslandMonitorFail (dt : Nat) (s : State) : Host.Outcome State Fault Refusal := runEvent dt islandMonitorFail s

end Sys2Proof.Machine
end

