-- ==== Sys2Proof/Machine/Admit.lean ====
section
/-! DEFINITION. Deadline admission: the unit that a command waits for, the band predicted with it, and the decision of R52, R53, R101, R510. -/
namespace Sys2Proof.Machine

/-- The ACTIVE cores of TAR_ROLES, R286. -/
def State.activeCores (s : State) : Nat := ((List.range 14).filter fun p => s.coreRole p == 0).length

/-- The codes of commands that run core descriptors, R303, R349. -/
def tensorCode (code : Nat) : Bool := [0x0601, 0x0602, 0x0603, 0x0604, 0x0610, 0x0611].contains code

/-- The core descriptors of a command: the 128 bytes of its parameters, or a chain's list in device memory, R303. -/
def State.coreDescs (s : State) (c : Cmd) : List Bytes :=
  if c.code = 0x0604 then
    let n := Nat.min 256 (c.p 0x28 2)
    (List.range n).map fun i => s.rdSeen (c.p 0x20 8 + 128 * i) 128
  else if tensorCode c.code then [cut c.params 0 128]
  else []

/-- Whether a descriptor's operation uses the MXEs: all but VECTOR, R303. -/
def usesMxe (raw : Bytes) : Bool := numAt raw 0 1 != 2

/-- Whether a descriptor is spread over every core that its partition may use, R349. -/
def spreadDesc (raw : Bytes) : Bool :=
  (numAt raw 0 1 == 4 || numAt raw 0 1 == 5) && numAt raw 2 1 == 0xFF && (numAt raw 1 1).testBit 3 && numAt raw 0x64 1 == 0

/-- The number of cores whose MXEs a command will occupy, R510: none where no descriptor of it uses them, every core of a spread command,
else the one core it runs on. -/
def State.mxeCores (s : State) (c : Cmd) : Nat :=
  match (s.coreDescs c).filter usesMxe with
  | [] => 0
  | raw :: _ => if c.code ≠ 0x0604 ∧ spreadDesc raw = true then (s.choices c.part).length else 1

/-- The band predicted with the command admitted, R510. -/
def State.predictBand (s : State) (c : Cmd) : Nat :=
  bandOf (Nat.min 100 (s.gov.busyPct + 100 * s.mxeCores c / Nat.max 1 s.activeCores))

/-- The core that a tensor command waits for, R510: the one its work is queued on, the one its first descriptor names, or the one that
Bivexa would choose for it now. -/
def State.targetCore (s : State) (c : Cmd) : Option Nat :=
  match s.tar.jobs.find? (fun j => j.cmd == c.id), s.kv.walks.find? (fun w => w.cmd == c.id) with
  | some j, _ => some j.core
  | none, some w => some w.job.core
  | none, none =>
    let l := numAt ((s.coreDescs c).headD []) 2 1
    if l = 0xFF then s.chooseCore c.part else some l

/-- The unit a command waits for, R510: a core, or the unit of its group. -/
def State.unitOf (s : State) (c : Cmd) : Nat :=
  if tensorCode c.code then (match s.targetCore c with | some l => 0x100 + l | none => 0x1FF)
  else if c.code = 0x0740 then 7 * 256 else if c.group = 7 then 0x600 else c.group

/-- The work of a command that has not been run, in ns at pace 1.00. -/
def State.costLeft (s : State) (c : Cmd) : Nat :=
  if c.state = .running then c.cost - (s.now - c.ranAt) * s.probePace / 16384 else c.cost

/-- The wait for the commands already admitted to the unit and not yet ended, R510. -/
def State.queueWait (s : State) (c : Cmd) : Rat :=
  let l := s.ccx.cmds.filter fun x => (x.state == .accepted || x.state == .running) && x.id != c.id && s.unitOf x == s.unitOf c
  let sum := l.foldl (fun n x => n + s.costLeft x) 0
  if sum = 0 then 0 else if s.probePace = 0 then (sum : Rat) else (sum : Rat) * 16384 / (s.probePace : Rat)

/-- The finish test of R52 at a set point: the pace, the cells outside, and whether the deadline is met. -/
def State.feasible (s : State) (c : Cmd) (mv : Nat) (useProbe : Bool) : Rat × List Nat × Bool :=
  let e := s.expectPace mv s.pwr.tj (s.predictBand c)
  let probe : Rat := (s.probePace : Rat) / 16384
  let p := if useProbe && s.probePace != 0 && decide (probe < e.1) then probe else e.1
  (p, e.2, decide (0 < p) && decide ((s.now : Rat) + s.queueWait c + (c.cost : Rat) / p ≤ (c.deadline : Rat)))

/-- Raises EV_PACE_ENVELOPE, once for an admission, and sets the flag, R52. The first cell outside its envelope is the one that the limit
of R53 counts by (log entry 82). -/
def State.envelope (s : State) (cells : List Nat) (band : Nat) : State :=
  match cells with
  | [] => s
  | k :: _ => (s.raiseLim 0x0A03 k 0 (evData [s.vset, unsgn 64 s.pwr.tj, band])).modReg .ccxPwrFlags fun v => setBit v 1 true

/-- Deadline admission, R52: the command is admitted at a pace, possibly after the set point has been raised to the lowest one, in steps of
1 mV (R43), that is enough, or refused. -/
def State.admitWork (s : State) (c : Cmd) : State × Option Nat :=
  let s := { s with gov := { s.gov with admitAt := some s.now } }
  let f := s.feasible c s.vset true
  let s := s.envelope f.2.1 (s.predictBand c)
  if f.2.2 then (s, some (f.1 * 16384).floor.toNat)
  else
    match ((List.range 400).map fun i => s.vset + 1 + i).find? fun mv => s.mayRaise mv && (s.feasible c mv false).2.2 with
    | some mv =>
      let r := s.stepTo mv
      ({ r with gov := { r.gov with target := Nat.max r.gov.target mv } }, some ((s.feasible c mv false).1 * 16384).floor.toNat)
    | none => (s, none)

end Sys2Proof.Machine
end

