-- ==== Sys2Proof/Machine/Power.lean ====
section
/-! DEFINITION. Supplies, temperature, reference clocks, cold and warm resets and start-up: R16, R17, R65, R69, R123, R469 to R487, R494. -/
namespace Sys2Proof.Machine

def State.modPwr (s : State) (f : Pwr → Pwr) : State := { s with pwr := f s.pwr }

/-- A bit of SSI_PWR_STAT. -/
def State.pwrBit (s : State) (i : Nat) : Bool := bit (s.reg .ssiPwrStat) i
def State.setPwrBit (s : State) (i : Nat) (v : Bool) : State := s.modReg .ssiPwrStat fun x => setBit x i v

/-- VCORE_EN asserts again at the instant the Island set for it, R481, R483. -/
def State.syncEn (s : State) : State :=
  match s.pwr.enDue with
  | some t => if t ≤ s.ns then (s.modPwr fun p => { p with enDue := none, riseAt := t }).setPwrBit 31 true else s
  | none => s

/-- The Island deasserts VCORE_EN, and VCORE_PG falls with it. -/
def State.enOff (s : State) (due : Option Nat) : State :=
  ((s.setPwrBit 31 false).setPwrBit 30 false).modPwr fun p => { p with enDue := due }

/-! Reset causes, R479, R480 -/

/-- The codes of CCX_ID_STATE.cause. -/
def resetCode : ResetCause → Nat
  | .warmHost => 1 | .warmP0 => 2 | .vcore => 3 | .thermal => 4

/-- The part runs its main domain again at step 2 of a warm start-up, R480: a VCORE reset threshold or a thermal trip in it. -/
def State.warmAgain (s : State) (w : Warm) (code : Nat) : State :=
  let at_ := s.ns
  let c := if at_ ≤ w.at_ + 100 then Nat.max w.code code else code
  let s := s.modPwr fun p => { p with mainUp := false, warm := some { w with code := c, held := true, lowAt := at_ } }
  let s := s.setFldOf .mmvMemStat 30 1 1
  if s.stage = 6 then s else s.setStage 6

/-- SSI_PWR_RST_CNT counts a cause. -/
def State.countReset (s : State) (code : Nat) : State := s.countSat .ssiPwrRstCnt (8 * (code - 1)) 8

/-- The Island latches a cause. A warm request counts only at ready = 1 or HALTED; R69, R480. -/
def State.request (s : State) (code : Nat) : State :=
  let at_ := s.ns
  if s.pwr.porstHigh = false then s
  else if code ≤ 2 then
    if (s.ready ∨ s.stage = 7) ∧ s.pwr.reqs.all (fun e => decide (at_ ≤ e.2 + 100)) = true then (s.countReset code).modPwr fun p => { p with reqs := p.reqs ++ [(code, at_)] } else s
  else
    let s := s.countReset code
    match (if s.stage = 7 then none else s.pwr.warm) with
    | some w => s.warmAgain w code
    | none => s.modPwr fun p => { p with reqs := p.reqs ++ [(code, at_)] }

/-- P0_WARM_RESET_REQUEST. -/
def execP0WarmResetRequest (dt : Nat) (s : State) : Host.Outcome State Fault Refusal := runEvent dt (fun s => s.request 2) s

/-- PARTITION_RESTART_TIMEOUT: a restart that misses its 40 ms, R439. -/
def partitionRestartTimeout (p : Nat) (s : State) : State :=
  match s.partState p, (s.part p).restart with
  | .restarting, some r => if r.at_ + 40000000 ≤ s.ns then s.request 2 else s
  | _, _ => s

def execPartitionRestartTimeout (dt p : Nat) (s : State) : Host.Outcome State Fault Refusal := runEvent dt (partitionRestartTimeout p) s

/-- WARM_RESET_REQUEST_WRITE: the two writes to CCX_HP_RESET, R69. -/
def warmResetRequestWrite (v : W32) (s : State) : State :=
  if !s.hostOpen then s
  else
    let setSeq := fun (x : Option Nat) => { s with hp := { s.hp with warmSeq := x } }
    if v.toNat = 0xA5C3 then setSeq (some s.ns)
    else match s.hp.warmSeq with
      | some t => if v.toNat = 0x5752 ∧ s.ns ≤ t + 1000000 then (setSeq none).request 1 else setSeq none
      | none => s

def execWarmResetRequestWrite (dt : Nat) (v : W32) (s : State) : Host.Outcome State Fault Refusal := runEvent dt (warmResetRequestWrite v) s

/-! What a reset of the main domain loses, R17, R26, R182, R484 -/

/-- The block of a register in the map of R31, by subsystem index; none for BAR 0 registers. -/
def Reg.block (r : Reg) : Option Nat := if csrBase ≤ r.addr then some ((r.addr - csrBase) / 0x1000000) else none

/-- The registers of the main domain that keep their values: the PPL, the RWS registers, the memory's own state and P0's ranges. -/
def Reg.warmKept : Reg → Bool
  | .ccxPwrPpl | .tarRoles | .tarLmap | .tarCoreRetired | .mmvMemStat | .mmvRangeBase 0 _ | .mmvRangeSize 0 _ => true
  | _ => false

def Reg.mainDomain (r : Reg) : Bool :=
  (match r.block with | some b => [0, 3, 4, 5, 6].contains b | none => false) && !r.warmKept

/-- The registers of the main domain read their reset values; P0 keeps its quotas. -/
def State.loseRegs (s : State) : State :=
  let quotas := (List.range 58).map fun (n : Nat) => (n, s.fldOf (.mmvArbQuota n) 0 8)
  (quotas.filter fun e => e.2 != 0).foldl (fun (s : State) e => s.setFldOf (.mmvArbQuota e.1) 0 8 e.2) (s.resetRegs Reg.mainDomain)

/-- Streams: queues are flushed and counted, those of streams that are off and still hold packets too; those without a tap go OFF and belong to no one; calibrations are lost. -/
def State.loseStreams (s : State) : State :=
  (List.range 64).foldl (fun (s : State) n =>
    let s := s.modStrm n fun x => { x with calMax := [], cal := [] }
    let kept := !(s.strm n).queue.isEmpty
    if s.tapOn n then
      if s.strmOn n then
        ((s.emptyQ n).loseFrame n).modStrm n fun x => { x with flushes := x.flushes + 1, dropPending := x.dropPending || x.cur.isSome }
      else if kept then (s.emptyQ n).modStrm n fun x => { x with flushes := x.flushes + 1 }
      else s
    else
      let s := if s.strmOn n || kept then
          ((if s.strmOn n then s.disableStream n else s).emptyQ n).modStrm n fun x => { x with flushes := x.flushes + 1 }
        else s
      s.modStrm n fun x => { x with owner := none }) s

/-- The fall-back of a cancelled entry is emitted where Geyser had fetched it: whether it had is a free value (log entry 78). -/
def State.loseEntry (s : State) (i : Nat) (free : Bool) : State :=
  let e := s.gey i
  if e.state.cancellable then
    if e.fbHave && e.fbMark && free then s.setGey i { e with status := 0x1A, state := .cancelled, fbDue := true, owner := 255 }
    else (s.setGey i { e with status := 0x1A, owner := 255 }).freeGey i
  else if e.state = .free then s.setGey i { e with owner := 255, freeSince := s.ns }
  else s.setGey i { e with owner := 255, noRearm := true }

/-- Time and network: the launch entries of P1 to P7 are cancelled, snapshot epochs and the steps of commands are gone. -/
def State.loseTime (s : State) : State :=
  let r := s.fresh
  let s := ((List.range 224).map (· + 32)).foldl (fun (s : State) i => if (s.gey i).owner = 0 then s else s.loseEntry i (r.1.getLsbD (i % 64))) r.2
  let tbs := s.tnu.tbs.map fun (e : Nat × TimeBase) => (e.1, { e.2 with steps := e.2.steps.filter fun x => x.cmd.isNone })
  let handoff := s.tnu.handoff.filter fun h => decide (h.idx < 32)
  { s with tnu := { s.tnu with tbs := tbs, handoff := handoff, epochs := [], nextEpoch := 0 } }

/-- Control memory: commands, partitions, functions, windows, live updates. Partitions keep what the Island counts of their safe-state
entries; the length of the image is kept where it is verified in place. -/
def State.loseControl (s : State) (load : Bool) : State :=
  let parts := s.ccx.parts.foldl (fun (m : List (Nat × Part)) e => sset {} m e.1 { entries := e.2.entries }) []
  let ccx : Ccx := { nextId := s.ccx.nextId, parts := parts, imageLen := if load then 0 else s.ccx.imageLen }
  let pace := s.gov.pace.filter fun e => !([0, 3, 4, 5, 6].contains e.1)
  let gov : Gov := { ceiling := s.gov.ceiling, burstMs := s.gov.burstMs, margin := s.gov.margin, windowMs := s.gov.windowMs, pace := pace }
  let s := { s with ccx := ccx, gov := gov }
  let s := (s.setFldOf .ssiSafeStat 8 16 0).setFldOf .ssiSafeStat 24 3 0
  ((List.range 8).foldl (fun (s : State) p => s.setFldOf (.ssiPartSafe p) 24 8 0) s).modStandby fun _ => {}

/-- The host port: slots and sequence numbers start anew, and the data-port pointer is 0; the link stays trained. -/
def State.losePort (s : State) : State :=
  let hp : HostPort := { s.hp with
    mbox := mboxReset, posted := [], rspNext := 0, evtNext := 0, rspSeq := 0, evtSeq := 0, rspQ := [], evtQ := [], evtLost := 0
    rspDiscarded := 0, evtDiscarded := 0, dportHigh := none, warmSeq := none }
  (({ s with hp := hp }).setReg .ccxHpDportPtr 0).setFldOf .ccxHpDportStat 0 1 1

/-- Memories of the main domain but HBM3E: what they hold is gone. -/
def State.loseMem (s : State) : State :=
  let s := (List.range 14).foldl (fun (s : State) n => s.clearMem (coreBase n) 0x2000000) s
  ((s.clearMem stagingBase stagingSize).clearMem churnBase churnSize).clearMem gridBase gridSize

/-- All that a reset of the main domain loses. -/
def State.mainLoss (s : State) (load : Bool) : State :=
  let s := ((((s.loseStreams).loseTime).losePort).loseRegs).loseMem
  let tar : Tar := { residAt := s.tar.residAt, memAt := s.tar.memAt, starterNext := s.tar.starterNext, starterBad := s.tar.starterBad }
  let s := { s with tar := tar, chn := {}, trk := {}, pln := {}, mmv := {}, kv := {} }
  (s.loseControl load).setSsi fun x => { x with slotNext := [] }

/-- MAIN_RESET_ENTRY: steps 1 and 2 of R482, on a cause that the Island has latched; of causes within 100 ns the higher is reported. -/
def mainResetEntry (cause : ResetCause) (s : State) : State :=
  match s.pwr.reqs with
  | [] => s
  | (c0, t0) :: rest =>
    if !(s.pwr.reqs.any fun e => e.1 == resetCode cause) || (s.pwr.warm.isSome && s.stage != 7) then s
    else
      let code := rest.foldl (fun (c : Nat) e => if e.2 ≤ t0 + 100 then Nat.max c e.1 else if 3 ≤ e.1 then e.1 else c) c0
      let load := !(s.stage == 4 || s.stage == 5)
      let low := s.ns
      let w : Warm := { code := code, at_ := t0, load := load, boundAt := t0, lowAt := low }
      let s := (s.setStage 6).raise 0x0A80 0 (evData [code])
      let s := s.trigger 1 s.fbMode
      let s := s.setFldOf .mmvMemStat 30 1 1
      (s.mainLoss load).modPwr fun p => { p with warm := some w, reqs := [], mainUp := false, scrubPos := 0 }

def execMainResetEntry (dt : Nat) (cause : ResetCause) (s : State) : Host.Outcome State Fault Refusal := runEvent dt (mainResetEntry cause) s

/-- MAIN_DOMAIN_RELEASE: step 3 of R482, once no VCORE reset and no thermal trip holds it, VCORE is good and SREF0 has been present for
1 ms; on the way to LOAD the boot ROM waits for an image (R123). CCX_ID_STATE.cause reports the reset from here on (log entry 78). -/
def mainDomainRelease (s : State) : State :=
  match s.pwr.warm with
  | none => s
  | some w =>
    let sref := s.pwr.refs.contains .sref0 && decide (s.pwr.srefAt = 0 ∨ s.pwr.srefAt + 1000000 ≤ s.ns)
    if !w.held || s.pwrBit 4 || s.pwrBit 6 || !(s.pwrBit 30) || !sref then s
    else
      let at_ := s.ns
      let s := (s.modPwr fun p => { p with mainUp := true, phyUp := true, scrubFrom := at_, warm := some { w with held := false } }).setFldOf .mmvMemStat 30 1 0
      let s := (s.setReg .ccxPwrVset 750).setFldOf .ccxIdState 8 8 w.code
      if w.load ∧ s.fldOf .mmvMemStat 31 1 = 1 then s.setStage 2 else s

def execMainDomainRelease (dt : Nat) (s : State) : Host.Outcome State Fault Refusal := runEvent dt mainDomainRelease s

/-- WARM_BOUND_TIMEOUT: 250 ms have passed; a thermal trip's bound counts from its release, a load from HALTED has none. -/
def warmBoundTimeout (s : State) : State :=
  match s.pwr.warm with
  | none => s
  | some w =>
    if w.load ∨ w.missed ∨ s.pwrBit 6 = true ∨ s.ns < w.boundAt + 250000000 then s
    else (s.modPwr fun p => { p with warm := some { w with missed := true } }).addCause 3

def execWarmBoundTimeout (dt : Nat) (s : State) : Host.Outcome State Fault Refusal := runEvent dt warmBoundTimeout s

/-! Cold reset and start-up, R471, R481, R123 -/

/-- Every state but the fuses, the pins and the cold-source register is gone; the part is held in cold reset. -/
def State.coldReset (s : State) (src : Nat) : State :=
  let hp : HostPort := { perstHigh := s.hp.perstHigh, mbox := mboxReset }
  let pwr : Pwr := { vaon := s.pwr.vaon, tj := s.pwr.tj, refs := s.pwr.refs, srefAt := s.pwr.srefAt }
  let csr := s.csr.filter fun e => e.1 == .ssiSecFuse
  let count := (s.fldOf .ssiPwrColdSrc 16 16 + 1) % 65536
  let x : State := { pending := s.pending, ticks := s.ticks, freeCtr := s.freeCtr, out := s.out, csr := csr, hp := hp, pwr := pwr }
  (x.setReg .ssiPwrColdSrc (BitVec.ofNat 64 (count * 65536 + src))).setPwrBit 7 (src == 5)

/-- VAON_POWER_ON_RELEASE: VAON is above 0.74 V; SSI_PWR_COLD_SRC starts anew, R472. -/
def vaonPowerOnRelease (s : State) : State :=
  if s.pwr.vaon then s else (s.modPwr fun p => { p with vaon := true }).setReg .ssiPwrColdSrc 0x00010001

def execVaonPowerOnRelease (dt : Nat) (s : State) : Host.Outcome State Fault Refusal := runEvent dt vaonPowerOnRelease s

/-- PORST_LOW: PORST_N goes low, source 2, or VAON falls below its level, source 1. A part that is held already stays so. -/
def porstLow (vaon : Bool) (s : State) : State :=
  if vaon then (s.coldReset 1).modPwr fun p => { p with vaon := false }
  else if s.pwr.porstHigh then s.coldReset 2
  else s

def execPorstLow (dt : Nat) (vaon : Bool) (s : State) : Host.Outcome State Fault Refusal := runEvent dt (porstLow vaon) s

/-- COLD_START: the Island is released and runs the ROM; VCORE_EN is asserted; the unlock nonce is drawn (R463). -/
def coldStart (s : State) : State :=
  if s.pwr.vaon ∧ s.pwr.porstHigh = false then
    let at_ := s.ns
    let s := s.modPwr fun p => { p with porstHigh := true, riseAt := at_, coldAt := at_ }
    ((((s.setPwrBit 31 true).setPwrBit 7 false).showCauses).drawNonce).setStage 1
  else s

def execColdStart (dt : Nat) (s : State) : Host.Outcome State Fault Refusal := runEvent dt coldStart s

/-- VCORE_PG_SEEN: VCORE is good; at a cold start the set point is raised to 0.75 V and the main domain and the Edge PHYs are released. -/
def vcorePgSeen (s : State) : State :=
  let s := s.syncEn
  if s.pwr.porstHigh = false ∨ s.pwrBit 31 = false ∨ s.pwrBit 30 = true then s
  else
    let s := s.setPwrBit 30 true
    if s.stage = 1 then (s.setReg .ccxPwrVset 750).modPwr fun p => { p with mainUp := true, phyUp := true } else s

def execVcorePgSeen (dt : Nat) (s : State) : Host.Outcome State Fault Refusal := runEvent dt vcorePgSeen s

/-- VCORE_PG_TIMEOUT: 10 ms without VCORE_PG; VCORE_EN comes again after 100 ms, and the third failure halts the part. -/
def vcorePgTimeout (s : State) : State :=
  let s := s.syncEn
  if s.stage ≠ 1 ∨ s.pwrBit 31 = false ∨ s.pwrBit 30 = true ∨ s.ns < s.pwr.riseAt + 10000000 then s
  else
    let n := s.pwr.vcoreTries + 1
    let s := s.modPwr fun p => { p with vcoreTries := n }
    if n < 3 then s.enOff (some (s.ns + 100000000)) else (s.enOff none).halt 0xFF

def execVcorePgTimeout (dt : Nat) (s : State) : Host.Outcome State Fault Refusal := runEvent dt vcorePgTimeout s

/-- HBM_INIT_DONE: every line is zeroed (R379), and the boot ROM waits for the image. -/
def hbmInitDone (s : State) : State :=
  let wait := s.stage == 1 || (s.stage == 6 && s.pwr.warm.any fun w => w.load && !w.held)
  if wait && s.pwr.mainUp && s.fldOf .mmvMemStat 31 1 == 0 then
    let at_ := s.ns
    let s := ((s.clearMem 0 hbmSize).modPwr fun p => { p with hbmPoison := [], scrubPos := 0, scrubFrom := at_ }).setFldOf .mmvMemStat 31 1 1
    s.setStage 2
  else s

def execHbmInitDone (dt : Nat) (s : State) : Host.Outcome State Fault Refusal := runEvent dt hbmInitDone s

/-- The components and the header fields of a verified image. -/
def State.takeImage (s : State) (p : Package) (slot : Nat) (digest : Bytes) : State :=
  let comps := p.comps.map fun (c : Nat × Nat × Nat × Nat × Nat) => Comp.mk c.1 c.2.1 c.2.2.2.2
  let s := { s with ccx := { s.ccx with
    comps := comps, fwChain := [], imageLen := p.len, imageRollback := p.rollback, imageVersion := p.version, imageDigest := digest, imageSlot := slot } }
  (s.setFldOf .ssiSecStat 26 2 slot).setFldOf .ssiSecStat 28 1 (if s.fuse < p.rollback then 1 else 0)

/-- IMAGE_VERIFY_DONE: the image in the load region, R123 step 6, R482 step 4; a failure halts the part, and in a warm start-up drives
SAFE_FAULT_N low. -/
def imageVerifyDone (s : State) : State :=
  let inPlace := s.stage == 6 && s.pwr.warm.any fun w => !w.held && !w.load
  if s.stage = 3 ∨ inPlace = true then
    match s.checkPackage (s.rd loadBase s.ccx.imageLen) 1 with
    | .error e => (if inPlace then s.addCause 3 else s).halt e
    | .ok (p, slot, digest) => (s.takeImage p slot digest).setStage 4
  else s

def execImageVerifyDone (dt : Nat) (s : State) : Host.Outcome State Fault Refusal := runEvent dt imageVerifyDone s

/-- The random generators of the cores are seeded, R299. -/
def State.seedCores (s : State) : State :=
  (List.range 14).foldl (fun (s : State) p =>
    let r := s.draw 16
    { r.2 with tar := { r.2.tar with rng := r.2.tar.rng ++ [(p, r.1)] } }) s

/-- The discipline sources that Bivexa applies at a cold start-up, R127: HOST to TB0 and TB3, PTP to TB1, GPTP to TB2; not to a time base that P0
has locked (R133). -/
def State.defaultSources (s : State) : State :=
  [(0, 1), (1, 2), (2, 3), (3, 1)].foldl (fun (s : State) e => if s.locked e.1 then s else s.setFldOf (.tnuTbCtl e.1) 12 4 e.2) s

/-- BIVEXA_READY: stage READY; EV_RESET_REPORT is the first event, R485. -/
def bivexaReady (s : State) : State :=
  if s.stage ≠ 4 then s
  else
    let target := if s.gov.ceiling = 0 then 550 else 750
    let rst := (s.reg .ssiPwrRstCnt).toNat
    let s := ({ s with gov := { s.gov with target := target } }).seedCores
    match s.pwr.warm with
    | none => (s.defaultSources.setStage 5).raise 0x0A08 0 (evData [s.fldOf .ssiPwrColdSrc 0 4, s.ns - s.pwr.coldAt, rst])
    | some w =>
      let s := ((s.modPwr fun p => { p with warm := none }).countWrap .ccxIdGen 0 32 1).restorePace
      let s := s.setStage 5
      let s := s.raise 0x0A08 0 (evData [w.code, s.ns - w.at_, rst])
      (s.clearTrigger 1).dropCause 3

def execBivexaReady (dt : Nat) (s : State) : Host.Outcome State Fault Refusal := runEvent dt bivexaReady s

/-! Supply monitors, R472 to R474, R483 -/

/-- The code of a rail: its warning bit in SSI_PWR_STAT, its place in SSI_PWR_WARN_CNT and the rail of its events (log entry 7). -/
def railNum : Rail → Nat
  | .vcore => 0 | .vsafe => 1 | .vio => 2

/-- The warning thresholds in mV. -/
def State.warnMv (s : State) : Rail → Nat
  | .vcore => (s.reg .ssiPwrVcoreWarn).toNat
  | .vsafe => 720
  | .vio => 1660

/-- SUPPLY_WARNING: R474. -/
def supplyWarning (r : Rail) (mv : Nat) (s : State) : State :=
  if s.pwr.porstHigh = false ∨ s.pwrBit (railNum r) = true ∨ s.warnMv r ≤ mv then s
  else
    let s := ((s.setPwrBit (railNum r) true).countSat .ssiPwrWarnCnt (8 * railNum r) 8).raiseLim 0x0A05 (railNum r) 0 (evData [railNum r, mv, s.warnMv r])
    match r with
    | .vcore => s.setGate (Nat.min s.gate 32)
    | .vsafe => s.addCause 5
    | .vio => s

def execSupplyWarning (dt : Nat) (rail : Rail) (mv : Nat) (s : State) : Host.Outcome State Fault Refusal := runEvent dt (supplyWarning rail mv) s

/-- SUPPLY_RESTORED: R474. -/
def supplyRestored (r : Rail) (s : State) : State :=
  if s.pwrBit (railNum r) = false then s
  else
    let s := (s.setPwrBit (railNum r) false).raise 0x0A06 0 (evData [railNum r])
    if r = .vsafe then s.dropCause 5 else s

def execSupplyRestored (dt : Nat) (rail : Rail) (s : State) : Host.Outcome State Fault Refusal := runEvent dt (supplyRestored rail) s

/-- VCORE_RESET_THRESHOLD: the main domain is held until VCORE recovers, cause 3. -/
def vcoreResetThreshold (s : State) : State :=
  if s.pwr.porstHigh ∧ (s.pwr.mainUp ∨ s.pwr.warm.isSome) ∧ s.pwrBit 4 = false then (s.setPwrBit 4 true).request 3 else s

def execVcoreResetThreshold (dt : Nat) (s : State) : Host.Outcome State Fault Refusal := runEvent dt vcoreResetThreshold s

/-- SUPPLY_RESET_THRESHOLD: VSAFE or VIO resets the whole part; VCORE has its own row. -/
def supplyResetThreshold (r : Rail) (s : State) : State :=
  if s.pwr.porstHigh = false then s
  else match r with
    | .vcore => s
    | .vsafe => s.coldReset 3
    | .vio => s.coldReset 4

def execSupplyResetThreshold (dt : Nat) (rail : Rail) (s : State) : Host.Outcome State Fault Refusal := runEvent dt (supplyResetThreshold rail) s

/-- VCORE_RECOVERED: R483. -/
def execVcoreRecovered (dt : Nat) (s : State) : Host.Outcome State Fault Refusal := runEvent dt (fun s => s.syncEn.setPwrBit 4 false) s

/-- VCORE_RECOVERY_TIMEOUT: after 100 ms VCORE_EN goes off for 10 ms, once; after another 100 ms the bound is missed. -/
def vcoreRecoveryTimeout (s : State) : State :=
  let s := s.syncEn
  match s.pwr.warm with
  | none => s
  | some w =>
    if s.pwrBit 4 = false ∨ s.ns < w.lowAt + 100000000 then s
    else if w.cycled = false then
      let on := s.ns + 10000000
      (s.enOff (some on)).modPwr fun p => { p with warm := some { w with cycled := true, lowAt := on } }
    else if w.missed = false then (s.modPwr fun p => { p with warm := some { w with missed := true } }).addCause 3
    else s

def execVcoreRecoveryTimeout (dt : Nat) (s : State) : Host.Outcome State Fault Refusal := runEvent dt vcoreRecoveryTimeout s

/-! Temperature, R477 -/

/-- SSI_PWR_TJ shows the present and the highest Tj. -/
def State.showTj (s : State) (tj : Int) : State :=
  let high := match s.pwr.tjHigh with | some h => max h tj | none => tj
  (s.modPwr fun p => { p with tj := tj, tjHigh := some high }).setReg .ssiPwrTj (BitVec.ofNat 64 (unsgn 8 high * 256 + unsgn 8 tj))

/-- The throttle bit, and EV_THERMAL_THROTTLE when Tj comes within 5 °C of its maximum. -/
def State.throttleTj (s : State) (tj : Int) : State :=
  let near := decide (maxTj - 5 ≤ tj)
  let was := s.pwrBit 5
  let s := s.setPwrBit 5 near
  if near && !was then s.raiseLim 0x0A07 0 0 (evData [unsgn 64 tj]) else s

/-- TJ_SAMPLE: the critical limit resets the part, the trip turns VCORE off, its release turns it on. -/
def tjSample (tj : Int) (s : State) : State :=
  if s.pwr.porstHigh = false then s.modPwr fun p => { p with tj := tj }
  else
    let s := (s.showTj tj).throttleTj tj
    if maxTj + 15 ≤ tj then s.coldReset 5
    else if s.pwrBit 6 then
      if tj ≤ maxTj - 15 then
        let at_ := s.ns
        ((s.setPwrBit 6 false).setPwrBit 31 true).modPwr fun p => { p with
          riseAt := at_, enDue := none, warm := p.warm.map fun w => { w with boundAt := at_, lowAt := at_ } }
      else s
    else if maxTj + 5 ≤ tj then ((s.setPwrBit 6 true).enOff none).request 4
    else s

def execTjSample (dt : Nat) (tj : Int) (s : State) : Host.Outcome State Fault Refusal := runEvent dt (tjSample tj) s

/-! Reference clocks, R494 -/

def State.noRef (s : State) (r : RefClk) : State := s.modPwr fun p => { p with refs := p.refs.filter fun x => x != r }

/-- SREF0 is lost: HBM3E goes into self-refresh, every link goes DOWN with reason 1, and the Island requests a warm reset. -/
def State.sref0Lost (s : State) : State :=
  let s := s.setFldOf .mmvMemStat 30 1 1
  let s := (List.range 8).foldl (fun (s : State) p =>
    if s.linkState p = 0 then s
    else
      let s := if s.linkState p = 5 then s.linkDown p 1 false else s.linkReason p 1
      (s.retrainFail p 0x71).linkTo p 0) s
  s.settle.request 2

/-- SREF1 is lost: the domains on the MACs enter holdover, R150. -/
def State.sref1Lost (s : State) : State :=
  (List.range 8).foldl (fun (s : State) tb =>
    match (s.tbase tb).ptp with
    | some g => if g.role ≠ 1 ∧ (s.tbase tb).gm ≠ 0 then s.ptpLost tb else s
    | none => s) s

/-- REFCLK_LOST. -/
def refclkLost (r : RefClk) (s : State) : State :=
  if !(s.pwr.refs.contains r) then s
  else match r with
    | .timeref => timerefLost s
    | .pcie =>
      let s := (s.noRef .pcie).raise 0x0A09 0 (evData [0])
      if s.hp.linkUp then s.linkReset false else s
    | .sref0 => ((s.noRef .sref0).raise 0x0A09 0 (evData [2])).sref0Lost
    | .sref1 => ((s.noRef .sref1).raise 0x0A09 0 (evData [3])).sref1Lost

def execRefclkLost (dt : Nat) (ref : RefClk) (s : State) : Host.Outcome State Fault Refusal := runEvent dt (refclkLost ref) s

/-- REFCLK_RESTORED. The links train again by their own rows. -/
def refclkRestored (r : RefClk) (s : State) : State :=
  if s.pwr.refs.contains r then s
  else match r with
    | .timeref => timerefRestored s
    | _ =>
      let at_ := s.ns
      s.modPwr fun p => { p with refs := p.refs ++ [r], srefAt := if r = .sref0 then at_ else p.srefAt }

def execRefclkRestored (dt : Nat) (ref : RefClk) (s : State) : Host.Outcome State Fault Refusal := runEvent dt (refclkRestored ref) s

end Sys2Proof.Machine
end

