-- ==== Sys2Proof/Machine/Lifecycle.lean ====
section
/-! DEFINITION. The life of a host command: acceptance (R73 to R76, R81, R83, R98, R101), dispatch (R73, R98, R100, R102, R114), commit
(R99, R100) and abort (R103 to R107), with their rows. -/
namespace Sys2Proof.Machine

/-! The header, R74 to R76 -/

/-- The parameter lengths of R76 in 4-byte units, by code. -/
def paramLens : List (Nat × Nat) :=
  [(0x0102, 2), (0x0103, 2), (0x0104, 1), (0x0110, 6), (0x0111, 1), (0x0112, 2), (0x0113, 1), (0x0119, 4), (0x0120, 5), (0x0128, 1)] ++
  [(0x0201, 1), (0x0202, 1), (0x0203, 4), (0x0204, 4), (0x0205, 2), (0x0206, 2), (0x0207, 0), (0x0208, 3), (0x0209, 3), (0x0210, 4),
   (0x0220, 16), (0x0221, 1), (0x0222, 1)] ++
  [(0x0301, 4), (0x0302, 12), (0x0303, 4), (0x0304, 1), (0x0305, 1), (0x0306, 1), (0x0307, 1), (0x0308, 1)] ++
  [(0x0401, 12), (0x0402, 1), (0x0403, 2), (0x0404, 10), (0x0405, 17), (0x0406, 1), (0x0410, 7), (0x0411, 16), (0x0412, 5), (0x0413, 0),
   (0x0414, 2), (0x0415, 0), (0x0420, 9), (0x0421, 6), (0x0422, 1), (0x0423, 0)] ++
  [(0x0501, 6), (0x0502, 4), (0x0503, 4), (0x0504, 8), (0x0505, 18), (0x0506, 6), (0x0507, 0)] ++
  [(0x0601, 32), (0x0602, 32), (0x0603, 32), (0x0604, 3), (0x0605, 6), (0x0606, 1), (0x0610, 32), (0x0611, 32)] ++
  [(0x0701, 19), (0x0702, 5), (0x0703, 8), (0x0704, 8), (0x0708, 5), (0x0710, 6), (0x0720, 7), (0x0730, 4), (0x0731, 2), (0x0732, 1),
   (0x0740, 8), (0x0750, 8), (0x0751, 14), (0x0752, 8), (0x0753, 4), (0x0754, 1), (0x0755, 2), (0x0756, 1), (0x0757, 9), (0x0758, 4),
   (0x0759, 1), (0x075A, 3), (0x075B, 3), (0x075C, 1), (0x075D, 1), (0x0760, 12), (0x0761, 1), (0x0762, 1)] ++
  [(0x0801, 3), (0x0802, 4), (0x0803, 4), (0x0804, 1), (0x0805, 0), (0x0806, 3), (0x0840, 6), (0x0841, 1), (0x0842, 0)] ++
  [(0x0901, 2), (0x0902, 10), (0x0903, 0), (0x0904, 3), (0x0910, 6), (0x0911, 1), (0x0920, 3), (0x0921, 3)] ++
  [(0x0A01, 1), (0x0A02, 2), (0x0A03, 1), (0x0A04, 3), (0x0A05, 3), (0x0A06, 1), (0x0A07, 0)]

/-- The length that a command defines; none for an undefined code. CTRL_SET_HOST_RANGES counts its inline entries, R118. -/
def Cmd.paramLen (c : Cmd) : Option Nat :=
  if c.code = 0x0118 then some (if c.p 0x28 8 = 0 then 4 + 4 * c.p 0x20 1 else 4)
  else (paramLens.find? fun e => e.1 == c.code).map (·.2)

/-- The command that a request slot holds. -/
def State.slotCmd (s : State) (slot : Nat) : Cmd :=
  let b := s.mb (256 * slot) 256
  let w := BitVec.ofNat 32 (numAt b 0 4)
  { id := s.ccx.nextId, slot := slot, part := fld w 28 3, fence := bit w 27, irq := bit w 26, code := fld w 0 16
    tag := BitVec.ofNat 32 (numAt b 4 4), deadline := numAt b 8 8, cost := numAt b 16 8, params := cut b 32 224
    accept := s.now, acceptNs := s.ns }

/-- The parameter length that a slot's word 0 states. -/
def State.slotLen (s : State) (slot : Nat) : Nat := numAt (s.mb (256 * slot + 2) 1) 0 1

/-- The checks of R75, R101, R114 and R110 in their order; none when the command passes. -/
def State.acceptErr (s : State) (c : Cmd) (plen : Nat) : Option Nat :=
  if 56 < plen then some stBadParam
  else match c.paramLen with
    | none => some 0x10
    | some n =>
      if n ≠ plen ∨ 2 ^ 40 ≤ c.cost then some stBadParam
      else if c.deadline ≠ 0 ∧ c.deadline < c.accept then some 0x17
      else if c.noPart = false ∧ s.partState c.part ≠ .active ∧ s.partState c.part ≠ .paused then some stPartState
      else if s.funcRefuses c then some 0x18
      else none

/-! Abort, R103 to R107 -/

/-- The target: the earliest-accepted command of a partition and tag whose response slot the host has not returned. -/
def State.abortTarget (s : State) (c : Cmd) : Option Cmd :=
  s.ccx.cmds.find? fun t => t.part == c.p 0x20 1 && t.tag.toNat == c.p 0x24 4 && decide (t.id < c.id)

/-- The results of CTRL_ABORT. -/
def abortResult (t : Cmd) : Bytes :=
  leBytes 1 t.state.num ++ leBytes 1 t.status ++ leBytes 1 t.slot ++ leBytes 5 0 ++ leBytes 8 t.accept ++ leBytes 8 t.commit

/-- Work of an aborted command that its unit still holds is gone: re-splits, retrains, live updates, disables, epochs, steps. -/
def State.dropAborted (s : State) (id : Nat) : State :=
  let s := match s.chn.split with
    | some x => if x.cmd = id then { s with chn := { s.chn with split := none } } else s
    | none => s
  let s := match s.mmv.retrains.find? fun r => r.cmd == id with
    | some r => ((s.setMmv fun m => { m with retrains := m.retrains.filter fun x => x.cmd != id }).setFldOf (.mmvLinkStat r.port) 31 1 0).freeze (48 + r.port) false
    | none => s
  let s := match s.ccx.fwUpd with
    | some u => if u.cmd = id then ({ s with ccx := { s.ccx with fwUpd := none } }).resumeParts u.mask else s
    | none => s
  match s.ccx.funcs.find? fun f => f.cmds.contains id && !f.committed with
  | some f =>
    if f.cmds = [id] then s.enableFunc f.kind f.idx
    else s.setFuncs (updFirst (fun x => x.kind == f.kind && x.idx == f.idx) fun x => { x with cmds := x.cmds.filter fun k => k != id })
  | none => s

/-- The target ends ABORTED. -/
def State.abortNow (s : State) (t : Cmd) : State :=
  (((((s.chargeJobs fun j => j.cmd == t.id).endCmd t.id .aborted 0x1C).dropAborted t.id).settle).pumpPln).pumpRetire

/-- Whether the target runs on whatever asks for its abort: an abort, a retirement, a live update whose swap step has begun, a retrain that
trains (R104, R107, R333). -/
def State.notAbortable (s : State) (t : Cmd) : Bool :=
  t.code == 0x0102 || (t.state == .running && (t.code == 0x0128 ||
    (s.mmv.retrains.any fun r => r.cmd == t.id && r.training) || (s.chn.split.any fun k => k.cmd == t.id && (k.timedOut || s.frameBusy.isNone)) || s.ccx.fwUpd.any fun u => u.cmd == t.id && !(s.updWaits u)))

/-- CTRL_ABORT with its target found: the abort point is now. -/
def State.abortFor (s : State) (c t : Cmd) : State :=
  if t.state.final then (s.setResult c.id 0x20 (abortResult t)).finish c.id 0x01
  else
    let s := s.abortNow t
    match s.cmd? t.id with
    | some t => (s.setResult c.id 0x20 (abortResult t)).done c
    | none => s.done c

/-- CTRL_ABORT: the target that was ACCEPTED at the abort's acceptance has ended there. -/
def ctrlAbort (c : Cmd) (s : State) : State :=
  if c.aux.contains 1 then s.done c
  else if 7 < c.p 0x20 1 then s.failCmd c.id stBadParam
  else match s.abortTarget c with
    | none => s.failCmd c.id 0x15
    | some t => if s.notAbortable t then s.failCmd c.id 0x16 else s.abortFor c t

def execCtrlAbort (dt id : Nat) (s : State) : Host.Outcome State Fault Refusal := runCmd dt id 0x0102 ctrlAbort s

/-- The abort point of a target that is ACCEPTED is the abort's acceptance, R105. -/
def State.abortAccepted (s : State) (c : Cmd) : State :=
  match s.abortTarget c with
  | some t =>
    if t.state = .accepted ∧ s.notAbortable t = false then
      let s := s.abortNow t
      match s.cmd? t.id with
      | some t => (s.setResult c.id 0x20 (abortResult t)).updCmd c.id fun x => { x with aux := [1] }
      | none => s
    else s
  | none => s

/-! Acceptance, R73, R75, R81, R83 -/

/-- Commands whose response the host has returned, or that never get one any more, are forgotten. -/
def State.pruneCmds (s : State) : State :=
  { s with ccx := { s.ccx with cmds := s.ccx.cmds.filter fun c => !(c.state.final && c.responded && c.rspSlot.isNone) } }

/-- The slot is copied and returned to the host: vector 4 when slot_free is set. -/
def State.takeSlot (s : State) (slot : Nat) (c : Cmd) : State :=
  let own := sget 0 s.hp.mbox (256 * slot + 3)
  let hp : HostPort := { s.hp with mbox := sset 0 s.hp.mbox (256 * slot + 3) (setBit own 7 false), posted := s.hp.posted.drop 1 }
  let ccx : Ccx := { s.ccx with cmds := s.ccx.cmds ++ [c], nextId := s.ccx.nextId + 1 }
  let s := { s with hp := hp, ccx := ccx }
  if bit (s.reg .ccxHpIrqCtl) 8 then s.cause 4 else s

/-- What a command does at its acceptance: an abort reaches an ACCEPTED target (R105), a disable and a stop take effect (R110, R117). -/
def State.atAccept (s : State) (c : Cmd) : State :=
  if c.code = 0x0102 then s.abortAccepted c
  else if c.code = 0x0103 then s.disableAccepted c
  else if c.code = 0x0112 then s.stopAccepted c
  else s

/-- A command that passes its checks is admitted under R52, names its sequences, and acts where it does so at its acceptance. -/
def State.admitted (s : State) (c : Cmd) : State :=
  let r := if c.deadline ≠ 0 ∧ c.cost ≠ 0 then s.admitWork c else (s, some 0)
  match r.2 with
  | none => r.1.failCmd c.id 0x17
  | some pace =>
    let s := (r.1.updCmd c.id fun x => { x with paceUse := pace }).kvAccept c
    s.atAccept c

/-- COMMAND_ACCEPT: the oldest posted slot, while fewer than 1,024 accepted commands have no response. -/
def commandAccept (s : State) : State :=
  match s.hp.posted with
  | [] => s
  | slot :: _ =>
    let s := s.pruneCmds
    if !s.ready || decide (1024 ≤ (s.ccx.cmds.filter fun c => !c.responded).length) then s
    else
      let c := s.slotCmd slot
      let err := s.acceptErr c (s.slotLen slot)
      let s := s.takeSlot slot c
      (match err with
        | some st => s.failCmd c.id st
        | none => s.admitted c).settle

def execCommandAccept (dt : Nat) (s : State) : Host.Outcome State Fault Refusal := runEvent dt commandAccept s

/-! Dispatch, R73, R98, R102, R114, R361 -/

/-- Whether the fence of a command holds it: an earlier command of its partition, or of groups 0x01 and 0x0A, has not ended. -/
def State.fenced (s : State) (c : Cmd) : Bool :=
  c.fence && c.code != 0x0102 && s.ccx.cmds.any fun e =>
    decide (e.id < c.id) && !e.state.final && e.noPart == c.noPart && (c.noPart || e.part == c.part)

/-- Whether an earlier command that the same live update held has not been dispatched yet, R125 step 5. -/
def State.outOfOrder (s : State) (c : Cmd) : Bool :=
  s.ccx.order.contains c.id && s.ccx.cmds.any fun e => decide (e.id < c.id) && e.state == .accepted && s.ccx.order.contains e.id

/-- Whether a command may not be given to its unit yet: its fence, its paused partition or a command before it holds it. -/
def State.held (s : State) (c : Cmd) : Bool :=
  s.fenced c || (!c.noPart && s.partState c.part == .paused) || s.kvWaits c || s.outOfOrder c

/-- Whether the unit of a command has room for it, R290, R317, R336; movement commands start in acceptance order. -/
def State.room (s : State) (c : Cmd) : Bool :=
  if [0x0601, 0x0602, 0x0603, 0x0604, 0x0610, 0x0611].contains c.code then s.tensorRoom c
  else if moveCode c.code then
    s.moveRoom c && !(s.ccx.cmds.any fun e => decide (e.id < c.id) && e.state == .accepted && moveCode e.code && !(s.held e))
  else if c.code = 0x0740 then s.collRoom
  else true

/-- What a unit does as it takes a command: descriptors are read and checked, input tags read, output marks cleared, R98, R100. -/
def State.begin_ (s : State) (c : Cmd) : State :=
  if [0x0601, 0x0602, 0x0603, 0x0604, 0x0610, 0x0611].contains c.code then s.beginTensor c
  else if moveCode c.code then s.beginMove c
  else if c.code = 0x0740 then s.beginColl c
  else s

/-- The output descriptors that a command names as it becomes RUNNING, R100; of a chain, those of its first descriptor (R303). -/
def State.outNames (s : State) (c : Cmd) : List Nat :=
  if tensorCode c.code then s.rawOuts ((s.coreDescs c).headD [])
  else if moveCode c.code then (moveOffs c).2.1.map fun o => c.p o 8
  else if c.code = 0x0740 then [c.p 0x38 8]
  else if c.code = 0x0505 then [c.p 0x60 8]
  else []

/-- Whether the unit of a command reads all that the command names as it takes it; of another command the row reads its tables out of the
memory of now, R509. -/
def Cmd.readsNow (c : Cmd) : Bool := tensorCode c.code || moveCode c.code || c.code == 0x0740

/-- The marks of the outputs are clear from now on, also where the command has failed as it began, R100. -/
def State.clearOuts (s : State) (c : Cmd) (t : State) : State :=
  match t.cmd? c.id with
  | some x => if x.state = .failed ∨ c.code = 0x0505 then t.clearMarks c (s.outNames c) else t
  | none => t

/-- COMMAND_DISPATCH. -/
def commandDispatch (id : Nat) (s : State) : State :=
  match s.cmd? id with
  | none => s
  | some c =>
    if c.state ≠ .accepted ∨ s.ready = false ∨ s.held c = true then s
    else if s.funcRefuses c then (s.failCmd id 0x18).settle
    else if s.room c = false then s
    else
      let at_ := s.now
      let seen := if c.readsNow then none else some s.mem
      let s := s.updCmd id fun x => { x with state := .running, ranAt := at_, seen := seen }
      (s.clearOuts c (if c.aux.contains 0x11 then s.failCmd id stBadParam else s.begin_ { c with state := .running, ranAt := at_ })).settle

def execCommandDispatch (dt id : Nat) (s : State) : Host.Outcome State Fault Refusal := runEvent dt (commandDispatch id) s

/-! Commit, R99, R100 -/

/-- A command whose unit has finished ends with the unit's status: below 0x10 COMPLETED, else FAILED. -/
def State.endWith (s : State) (c : Cmd) (v : Nat) : State :=
  if v = 0 then s.complete c.id (s.doneStatus c) else if v < 0x10 then s.complete c.id v else s.failCmd c.id v

/-- COMMAND_COMMIT: marks, tags and the final state; association, search and sequence transfer publish what they hold. -/
def commandCommit (id : Nat) (s : State) : State :=
  match s.cmd? id with
  | none => s
  | some c => match c.verdict with
    | none => s
    | some v =>
      if c.state ≠ .running then s
      else
        let s := if v ≠ 0 then s.endWith c v
          else if c.code = 0x0421 then commitAssoc c s
          else if c.code = 0x0505 then commitSearch c s
          else if c.code = 0x075A then (if c.discard then s else s.commitSend c).done c
          else s.endWith c 0
        s.settle

def execCommandCommit (dt id : Nat) (s : State) : Host.Outcome State Fault Refusal := runEvent dt (commandCommit id) s

end Sys2Proof.Machine
end

