-- ==== Sys2Proof/Machine/RegWrite.lean ====
section
/-! DEFINITION. Writes to registers that have no row of their own: the access types of R10 and R11, the writers of R31, R34, R35, and the
field rules of each register's table. -/
namespace Sys2Proof.Machine

/-- The bits of a register that a write replaces, from the RW fields of its table. -/
def Reg.writeMask : Reg → W64
  | .paceCtl _ => 0xFFFFF003
  | .ccxHpIrqCtl => 0x13F
  | .ccxHpIrqMod v => if v = 2 ∨ v = 3 then 0 else 0x3FF
  | .tnuTbCtl n => if n = 0 then 0x80FFF000 else 0x80FFF100
  | .tnuTbJumpThr _ | .tnuCmpPer _ | .tnuCmpPulse _ | .siuStreamPeriod _ | .siuStreamSlat _ | .siuStreamSel _ | .mmvArbUrgency _ | .mmvArbWindow _
  | .tnuMacIgLat _ | .tnuMacEgLat _ | .tnuMacAsym _ | .chnEgoExtVx | .chnEgoExtVy | .chnEgoExtVz => 0xFFFFFFFF
  | .tnuCapCtl _ => 0xFF73
  | .tnuCmpCtl _ => 0x80007F70
  | .tnuCmpAt _ => 0xFFFFFFFFFFFFFFFF
  | .tnuGpioSel => 0xFFFF
  | .siuCtl => 1
  | .siuStreamCtl _ => 0xFFFFFFE0
  | .siuStreamSrc _ => 0xFFFF0000
  | .siuStreamFrozenCtl _ => 0xFFFF
  | .siuQCfg _ => 0x83FF01FF
  | .chnSchedCtl _ => 0xFC000000
  | .chnTrkCtl => 0xFF000000
  | .plnGridCtl => 0xFF800000
  | .tarIssueGate => 0x7F
  | .tarCoreRetired => 0x3FFF
  | .tarRoles => 0x0FFFFFFF
  | .tarLmap => 0x00FFFFFFFFFFFFFF
  | .mmvLinkCtl _ => 0xF0000000
  | .mmvKvCtl => 0xF30000FF
  | .mmvMemCtl => 0xFF01
  | .mmvArbCtl _ => 0x1FFF
  | .mmvArbRank _ _ => 0x1F1F1F1F
  | .ssiPwrVcoreWarn => 0x3FF
  | .msixEntry _ w => if w = 0 then 0xFFFFFFFC else if w = 3 then 1 else 0xFFFFFFFF
  | _ => 0

/-- The W1C bits of a register. -/
def Reg.w1c : Reg → W64
  | .paceStat _ => 0x8000
  | .ccxPwrFlags => 0x1F
  | .ccxHpDportStat | .ccxHpMboxErr => 7
  | .ccxHpIrqStat | .tnuTbStat _ => 0x3F
  | .tnuCmpCtl _ => 1
  | .siuStreamFlags _ => 0xFF
  | _ => 0

/-- Counters that a write of 0 clears; other writes change nothing (log entry 80). -/
def Reg.zeroClears : Reg → Bool
  | .ccxHpDportDrops | .tnuGeyRefused | .tnuGeyLate | .plnGridWaitNs | .tarWinOverrunNs _ | .mmvArbMaxwait _ => true
  | _ => false

/-- Fields whose values are bounded; a write of another value leaves the field (log entry 80). -/
def Reg.bounds : Reg → List (Nat × Nat × (Nat → Bool))
  | .paceCtl _ => [(12, 20, fun x => decide (1 ≤ x ∧ x ≤ 1000000))]
  | .ccxHpIrqMod _ => [(0, 10, fun x => decide (x ≤ 1000))]
  | .tnuTbCtl _ => [(12, 4, fun x => decide (x ≤ 5))]
  | .tnuTbJumpThr _ => [(0, 32, fun x => decide (1000 ≤ x ∧ x ≤ 1000000000))]
  | .tnuCmpPer _ => [(0, 32, fun x => decide (x = 0 ∨ 1000 ≤ x))]
  | .tnuCmpPulse _ => [(0, 32, fun x => decide (20 ≤ x))]
  | .siuStreamCtl _ => [(8, 8, fun x => decide (2 ≤ x)), (28, 3, fun x => decide (x ≤ 3))]
  | .tarIssueGate => [(0, 7, fun x => decide (1 ≤ x ∧ x ≤ 64))]
  | .mmvMemCtl => [(8, 8, fun x => decide (1 ≤ x ∧ x ≤ 168))]
  | .mmvArbCtl _ => [(0, 13, fun x => decide (1 ≤ x ∧ x ≤ 4096))]
  | .mmvArbUrgency _ => [(0, 32, fun x => decide (x ≤ 100000000))]
  | .mmvArbWindow _ => [(0, 32, fun x => decide (1024 ≤ x ∧ x ≤ 1048576 ∧ x % 64 = 0))]
  | .ssiPwrVcoreWarn => [(0, 10, fun x => decide (460 ≤ x ∧ x ≤ 700))]
  | _ => []

/-- The registers that rows of their own write. -/
def Reg.ownRow : Reg → Bool
  | .ccxHpDportPtr | .ccxHpReset | .tnuTbInc _ | .tnuTbStep _ | .tnuTbUnlock _ | .tnuXstampCtl | .siuQDropRest _ | .chnEgoExtT | .tarRngSeedHi _ => true
  | _ => false

/-- The registers of 64 bits among those that a write changes here. -/
def Reg.wide : Reg → Bool
  | .tnuCmpAt _ | .tarLmap | .tarWinOverrunNs _ | .tarRngSeedLo _ => true
  | _ => false

/-- The bits that a writer may replace: none beyond its reach (R31, R35), not a locked time base (R133), not P0's lock and ranks (R386). No
rule names a writer of SSI_PACE_CTL and SSI_PACE_STAT (R31 keeps the control cores off the SSI block and R39 names none): nobody writes
them (DESIGN CHOICE, log entry 85). -/
def State.reach (s : State) (who : Writer) (r : Reg) : W64 :=
  let all := ~~~(0 : W64)
  match who with
  | .host => if r.addr < 0x30000 ∧ s.hostOpen = true then all else 0
  | .bivexa =>
    if s.stage ≠ 4 ∧ s.stage ≠ 5 then 0
    else match r with
      | .tnuTbCtl n => if s.mayWriteTb .bivexa n then 0x7FFFFFFF else 0
      | .tnuTbJumpThr n => if s.mayWriteTb .bivexa n then all else 0
      | .mmvArbRank n w => if n < 48 ∧ w = 6 then 0x0000FFFF else all
      | .ssiPwrVcoreWarn => all
      | r => if csrBase ≤ r.addr ∧ r.block ≠ some 7 then all else 0
  | .p0 =>
    if s.pwr.porstHigh = false then 0
    else match r with
      | .mmvArbRank _ _ => all
      | .chnEgoExtVx | .chnEgoExtVy | .chnEgoExtVz => all
      | r => if r.block = some 1 then all else 0

/-- The value that a write leaves in a register: reserved and read-only bits stay, W1C bits that are written 1 clear. -/
def Reg.written (r : Reg) (reach old v : W64) : W64 :=
  if r.zeroClears then (if v = 0 ∧ reach ≠ 0 then 0 else old)
  else
    let m := r.writeMask &&& reach
    let x := (old &&& ~~~m) ||| (v &&& m)
    let x := r.bounds.foldl (fun (x : W64) e => if e.2.2 (fld x e.1 e.2.1) then x else setFld x e.1 e.2.1 (fld old e.1 e.2.1)) x
    x &&& ~~~(v &&& r.w1c &&& reach)

/-- What follows from a register's new value: messages of vectors that are unmasked, the Island's view of the checkers, the seed half. -/
def State.afterWrite (s : State) (who : Writer) (r : Reg) (v : W64) : State :=
  match r with
  | .msixEntry _ 3 => s.sendPending
  | .paceCtl ss => s.setPaceIv ss { s.paceIv ss with since := s.now }
  | .tarRoles => s.syncCheckers
  | .chnSchedCtl j => s.syncSched j
  | .siuStreamCtl _ => s.assignSlots
  | .tnuCmpCtl k => { s with tnu := { s.tnu with cmpOwner := sset .bivexa s.tnu.cmpOwner k who } }
  | .tarRngSeedLo p => if (s.stage = 4 ∨ s.stage = 5) then { s with tar := { s.tar with rngLo := sset 0 s.tar.rngLo p v } } else s
  | _ => s

/-- A write that a rule turns away: a compare action that names a timed GPIO which Geyser drives, R141. -/
def State.turnsAway (s : State) (r : Reg) (x : W64) : Bool :=
  match r with
  | .tnuCmpCtl _ => bit x 31 && decide (1 ≤ fld x 4 3 ∧ fld x 4 3 ≤ 4) && !(bit (s.reg .tnuGpioSel) (fld x 8 4))
  | _ => false

/-- The new value of a register takes its place. A time base changes its format under R132 only: while something refers to it the field
stays. A new source starts its discipline anew. -/
def State.place (s : State) (r : Reg) (x : W64) : State :=
  if x = s.reg r then s
  else match r with
    | .tnuTbCtl n =>
      let old := s.reg r
      let s := if bit x 8 ≠ bit old 8 ∧ !(s.tbReferred n) then s.setFormat n (if bit x 8 then 1 else 0) else s
      let s := if fld x 12 4 ≠ fld old 12 4 then s.newSource n else s
      s.setReg r (setBit x 8 (bit (s.reg r) 8))
    | r => s.setReg r x

/-- A write of a whole register. -/
def State.writeReg (s : State) (who : Writer) (r : Reg) (v : W64) : State :=
  if r.ownRow then s
  else
    let reach := s.reach who r
    if reach = 0 then s
    else if r = .tarIssueGate then s.setGate (fld (r.written reach (s.reg r) v) 0 7)
    else
      let x := r.written reach (s.reg r) v
      if s.turnsAway r x then s else (s.place r x).afterWrite who r v

/-- A write of 4 bytes at an address: a register of 32 bits, or a half of one of 64. -/
def State.writeWord (s : State) (who : Writer) (addr : Nat) (v : W64) : State :=
  match Reg.ofAddr addr, Reg.ofAddr (addr - 4) with
  | some r, _ => s.writeReg who r (if r.wide then setFld (s.reg r) 0 32 (fld v 0 32) else setFld 0 0 32 (fld v 0 32))
  | none, some r => if r.wide ∧ 4 ≤ addr then s.writeReg who r (setFld (s.reg r) 32 32 (fld v 0 32)) else s
  | none, none => s

/-- REGISTER_WRITE: `addr` is a BAR 0 offset for the host and a device address for the control and Island cores. Eight bytes reach a
register of 64 bits whole, or two of 32 bits. -/
def registerWrite (who : Writer) (addr size : Nat) (v : W64) (s : State) : State :=
  if who = .host ∧ csrBase ≤ addr then s
  else if size = 4 then s.writeWord who addr v
  else if size = 8 then
    match Reg.ofAddr addr with
    | some r => if r.wide then s.writeReg who r v else (s.writeWord who addr v).writeWord who (addr + 4) (v >>> 32)
    | none => s.writeWord who (addr + 4) (v >>> 32)
  else s

def execRegisterWrite (dt : Nat) (who : Writer) (addr size : Nat) (v : W64) (s : State) : Host.Outcome State Fault Refusal :=
  runEvent dt (registerWrite who addr size v) s

/-- Whether the host sees a register: the SSI shows it the safety, security and power banks and the reflex bank only, R31. -/
def Reg.hostSees (r : Reg) : Bool :=
  let o := r.addr % 0x1000000
  r.block != some 7 || decide (0x1000 ≤ o ∧ o < 0x4000) || decide (0x8000 ≤ o ∧ o < 0x9000)

/-- Registers of R42, R66, R133, R283, R310, R339, R373 whose content follows from the rest of the state, and write-only registers. -/
def State.derived (s : State) (who : Writer) : Reg → Option Nat
  | .paceOps .. | .paceProbe .. | .tarCoreBlocks _ | .tarCoreZblocks _ | .tarCoreConv _ | .tarCoreEcc _ | .tarCoreDone _ | .tarCoreResid _ =>
    if bit (s.reg .ssiSecStat) 31 ∧ who ≠ .bivexa then some 0 else none
  | .ccxHpMboxReqOwn => some (s.ownMask 0 true)
  | .ccxHpMboxRspOwn => some (s.ownMask 32 false)
  | .ccxHpMboxEvtOwn => some (s.ownMask 64 false)
  | .tnuTbSec n => some (if s.tbShort n then 0 else s.tbSec n)
  | .tnuTbNow n => some (s.tbNow n)
  | .chnTrkStat => some s.trkStat.toNat
  | .plnGridStat => some s.plnGridStat.toNat
  | .tarCoreStat p => some (s.coreStat p).toNat
  | .mmvMoveStat =>
    let w := (s.ccx.cmds.filter fun c => c.state == .accepted && moveCode c.code && !(s.held c) && !(s.room c)).length
    some (256 * Nat.min 8 s.mmv.moves.length + Nat.min 255 w)
  | .mmvCollStat => some (256 * s.mmv.colls.length + Nat.min 4 (s.mmv.colls.filter fun k => k.recs.length + 1 == k.n).length)
  | .mmvKvSeq => some s.kv.seqs.length
  | .mmvKvNodes => some s.kv.nodes.length
  | .mmvKvPoolFree p => some (s.kvFree p)
  | .mmvKvPoolIds p => some (s.kvIdsUsed p)
  | .mmvKvPoolCellar p => some (s.kvInCellar p)
  | .ccxHpReset | .tnuTbStep _ | .tnuTbUnlock _ | .tnuXstampCtl | .siuQDropRest _ => some 0
  | .chnEgoExtVx | .chnEgoExtVy | .chnEgoExtVz | .chnEgoExtT | .tarRngSeedLo _ | .tarRngSeedHi _ => some 0
  | _ => none

/-- What a read of a register returns; per-unit counters read 0 in confidential mode to all but Bivexa, R35, R310. The latch of TNU_TB_NS and the clear of TNU_CAP_STAT on a read are rows of their own. -/
def State.readReg (s : State) (who : Writer) (r : Reg) : W64 :=
  if who = .host ∧ r.hostSees = false then 0
  else match s.derived who r with
  | some n => BitVec.ofNat 64 n
  | none => s.reg r

/-- A read of 4 bytes at an address: a register of 32 bits or a half of one of 64; an unimplemented register reads 0, R31. -/
def State.readWord (s : State) (who : Writer) (addr : Nat) : W32 :=
  match Reg.ofAddr addr, Reg.ofAddr (addr - 4) with
  | some r, _ => (s.readReg who r).setWidth 32
  | none, some r => if 4 ≤ addr then (s.readReg who r >>> 32).setWidth 32 else 0
  | none, none => 0

/-- The register address behind an offset of BAR 0, R34: the identity block, the host port and the MSI-X table at their offsets, and eight
mirrors of 256 KiB of the subsystem blocks; none in the reserved parts. -/
def barAddr (off : Nat) : Option Nat :=
  if off < 0x30000 then some off
  else if 0x40000 ≤ off ∧ off < 0x240000 then some (csrBase + (off - 0x40000) / 0x40000 * 0x1000000 + (off - 0x40000) % 0x40000)
  else none

/-- What a host read of 4 bytes at an offset of BAR 0 returns, R31, R34. -/
def State.barRead (s : State) (off : Nat) : W32 :=
  match barAddr off with
  | some a => s.readWord .host a
  | none => 0

end Sys2Proof.Machine
end

