-- ==== Sys2Proof/Machine/Dispatch.lean ====
section
/-! DEFINITION. The dispatch: one arm per command, each a direct call of its meaning. -/
namespace Sys2Proof.Machine

/-- The effect of a command on everything but the queue. -/
def exec (i : Instr) (s : State) : Host.Outcome State Fault Refusal :=
  match i with
  -- host port (R59–R93)
  | .configRequest dt reg wr => Sys2Proof.Machine.execConfigRequest dt reg wr s
  | .pciePerstRelease dt => Sys2Proof.Machine.execPciePerstRelease dt s
  | .pcieLinkReset dt cause => Sys2Proof.Machine.execPcieLinkReset dt cause s
  | .pcieLinkUp dt => Sys2Proof.Machine.execPcieLinkUp dt s
  | .hostLinkRestored dt => Sys2Proof.Machine.execHostLinkRestored dt s
  | .pcieD3hotEntry dt => Sys2Proof.Machine.execPcieD3hotEntry dt s
  | .pcieD0Return dt => Sys2Proof.Machine.execPcieD0Return dt s
  | .pcieError dt err => Sys2Proof.Machine.execPcieError dt err s
  | .mboxSlotWrite dt off bytes poisoned => Sys2Proof.Machine.execMboxSlotWrite dt off bytes poisoned s
  | .commandAccept dt => Sys2Proof.Machine.execCommandAccept dt s
  | .commandDispatch dt id => Sys2Proof.Machine.execCommandDispatch dt id s
  | .commandCommit dt id => Sys2Proof.Machine.execCommandCommit dt id s
  | .responseWrite dt => Sys2Proof.Machine.execResponseWrite dt s
  | .eventSlotWrite dt => Sys2Proof.Machine.execEventSlotWrite dt s
  | .msixModerationExpiry dt v => Sys2Proof.Machine.execMsixModerationExpiry dt v s
  | .msixUnmask dt v => Sys2Proof.Machine.execMsixUnmask dt v s
  | .dportPtrWrite dt w => Sys2Proof.Machine.execDportPtrWrite dt w s
  | .dportWrite dt dws firstBe lastBe poisoned => Sys2Proof.Machine.execDportWrite dt dws firstBe lastBe poisoned s
  | .dportRead dt dws => Sys2Proof.Machine.execDportRead dt dws s
  | .warmResetRequestWrite dt v => Sys2Proof.Machine.execWarmResetRequestWrite dt v s
  | .registerWrite dt who addr size v => Sys2Proof.Machine.execRegisterWrite dt who addr size v s
  -- pace and governor (R36–R56)
  | .paceIntervalEnd dt ss ops probes => Sys2Proof.Machine.execPaceIntervalEnd dt ss ops probes s
  | .avsSetPointStep dt v => Sys2Proof.Machine.execAvsSetPointStep dt v s
  | .powerLimitTick dt p busyPct => Sys2Proof.Machine.execPowerLimitTick dt p busyPct s
  | .burstEnd dt => Sys2Proof.Machine.execBurstEnd dt s
  | .thermalThrottleTick dt => Sys2Proof.Machine.execThermalThrottleTick dt s
  | .avsFault dt => Sys2Proof.Machine.execAvsFault dt s
  | .paceTableMerge dt => Sys2Proof.Machine.execPaceTableMerge dt s
  -- Control group (R97) and its events
  | .ctrlAbort dt id => Sys2Proof.Machine.execCtrlAbort dt id s
  | .ctrlFuncDisable dt id => Sys2Proof.Machine.execCtrlFuncDisable dt id s
  | .ctrlFuncEnable dt id => Sys2Proof.Machine.execCtrlFuncEnable dt id s
  | .drainTimeout dt id => Sys2Proof.Machine.execDrainTimeout dt id s
  | .ctrlPartDefine dt id => Sys2Proof.Machine.execCtrlPartDefine dt id s
  | .ctrlPartStart dt id => Sys2Proof.Machine.execCtrlPartStart dt id s
  | .ctrlPartStop dt id => Sys2Proof.Machine.execCtrlPartStop dt id s
  | .ctrlPartRestart dt id => Sys2Proof.Machine.execCtrlPartRestart dt id s
  | .partitionRestartEnd dt p => Sys2Proof.Machine.execPartitionRestartEnd dt p s
  | .partitionRestartTimeout dt p => Sys2Proof.Machine.execPartitionRestartTimeout dt p s
  | .ctrlSetHostRanges dt id => Sys2Proof.Machine.execCtrlSetHostRanges dt id s
  | .ctrlSetWindows dt id => Sys2Proof.Machine.execCtrlSetWindows dt id s
  | .windowScheduleStart dt => Sys2Proof.Machine.execWindowScheduleStart dt s
  | .windowBoundary dt core => Sys2Proof.Machine.execWindowBoundary dt core s
  | .ctrlFwUpdate dt id => Sys2Proof.Machine.execCtrlFwUpdate dt id s
  | .fwUpdateSwap dt id => Sys2Proof.Machine.execFwUpdateSwap dt id s
  | .ctrlCoreRetire dt id => Sys2Proof.Machine.execCtrlCoreRetire dt id s
  -- Power group (R48, R487)
  | .powerSetLimit dt id => Sys2Proof.Machine.execPowerSetLimit dt id s
  | .powerSetPolicy dt id => Sys2Proof.Machine.execPowerSetPolicy dt id s
  | .powerSetMargin dt id => Sys2Proof.Machine.execPowerSetMargin dt id s
  | .powerReadPaceTable dt id => Sys2Proof.Machine.execPowerReadPaceTable dt id s
  | .powerLoadPaceTable dt id => Sys2Proof.Machine.execPowerLoadPaceTable dt id s
  | .powerSetWarn dt id => Sys2Proof.Machine.execPowerSetWarn dt id s
  | .powerStatus dt id => Sys2Proof.Machine.execPowerStatus dt id s
  -- time (R127–R164)
  | .timebasePllLock dt => Sys2Proof.Machine.execTimebasePllLock dt s
  | .timeSetFormat dt id => Sys2Proof.Machine.execTimeSetFormat dt id s
  | .timeSetSource dt id => Sys2Proof.Machine.execTimeSetSource dt id s
  | .timeSetIncrement dt id => Sys2Proof.Machine.execTimeSetIncrement dt id s
  | .timeStep dt id => Sys2Proof.Machine.execTimeStep dt id s
  | .timeStepUnlock dt id => Sys2Proof.Machine.execTimeStepUnlock dt id s
  | .timeSetJumpThreshold dt id => Sys2Proof.Machine.execTimeSetJumpThreshold dt id s
  | .timeRead dt id => Sys2Proof.Machine.execTimeRead dt id s
  | .timePpsConfig dt id => Sys2Proof.Machine.execTimePpsConfig dt id s
  | .timePtpConfig dt id => Sys2Proof.Machine.execTimePtpConfig dt id s
  | .timeSnapshot dt id => Sys2Proof.Machine.execTimeSnapshot dt id s
  | .timeLaunchAdd dt id => Sys2Proof.Machine.execTimeLaunchAdd dt id s
  | .timeLaunchCancel dt id => Sys2Proof.Machine.execTimeLaunchCancel dt id s
  | .timeLaunchStatus dt id => Sys2Proof.Machine.execTimeLaunchStatus dt id s
  | .tbIncWrite dt who tb v => Sys2Proof.Machine.execTbIncWrite dt who tb v s
  | .tbStepWrite dt who tb v => Sys2Proof.Machine.execTbStepWrite dt who tb v s
  | .tbUnlockWrite dt tb v => Sys2Proof.Machine.execTbUnlockWrite dt tb v s
  | .tbUnlockExpiry dt tb => Sys2Proof.Machine.execTbUnlockExpiry dt tb s
  | .tbSecRead dt tb => Sys2Proof.Machine.execTbSecRead dt tb s
  | .timeBaseStepApply dt tb => Sys2Proof.Machine.execTimeBaseStepApply dt tb s
  | .xstampWrite dt v => Sys2Proof.Machine.execXstampWrite dt v s
  | .captureEdge dt src rising => Sys2Proof.Machine.execCaptureEdge dt src rising s
  | .capStatRead dt ch => Sys2Proof.Machine.execCapStatRead dt ch s
  | .compareFire dt k => Sys2Proof.Machine.execCompareFire dt k s
  | .timerefLost dt => Sys2Proof.Machine.execTimerefLost dt s
  | .timerefRestored dt => Sys2Proof.Machine.execTimerefRestored dt s
  | .ppsInEdge dt rising => Sys2Proof.Machine.execPpsInEdge dt rising s
  | .ppsOutPulse dt => Sys2Proof.Machine.execPpsOutPulse dt s
  | .ptpEventRx dt port tb msg => Sys2Proof.Machine.execPtpEventRx dt port tb msg s
  | .geyserEntryWriteP0 dt e off bytes => Sys2Proof.Machine.execGeyserEntryWriteP0 dt e off bytes s
  | .geyserFetch dt e => Sys2Proof.Machine.execGeyserFetch dt e s
  | .geyserFetchDone dt e => Sys2Proof.Machine.execGeyserFetchDone dt e s
  | .geyserLaunchTick dt e => Sys2Proof.Machine.execGeyserLaunchTick dt e s
  | .geyserHeldStart dt e => Sys2Proof.Machine.execGeyserHeldStart dt e s
  | .geyserTransmitDone dt e => Sys2Proof.Machine.execGeyserTransmitDone dt e s
  | .snapshotEpoch dt => Sys2Proof.Machine.execSnapshotEpoch dt s
  | .snapshotRecordWrite dt banks => Sys2Proof.Machine.execSnapshotRecordWrite dt banks s
  -- intake (R165–R188)
  | .intakePortConfig dt id => Sys2Proof.Machine.execIntakePortConfig dt id s
  | .intakeStreamConfig dt id => Sys2Proof.Machine.execIntakeStreamConfig dt id s
  | .intakeE2eConfig dt id => Sys2Proof.Machine.execIntakeE2eConfig dt id s
  | .intakeStreamEnable dt id => Sys2Proof.Machine.execIntakeStreamEnable dt id s
  | .intakeStreamDisable dt id => Sys2Proof.Machine.execIntakeStreamDisable dt id s
  | .intakeResync dt id => Sys2Proof.Machine.execIntakeResync dt id s
  | .intakeSetProfile dt id => Sys2Proof.Machine.execIntakeSetProfile dt id s
  | .intakeStreamStatus dt id => Sys2Proof.Machine.execIntakeStreamStatus dt id s
  | .sensorPacketRx dt pkt => Sys2Proof.Machine.execSensorPacketRx dt pkt s
  | .encoderSampleTick dt port pos idx status edgeNs => Sys2Proof.Machine.execEncoderSampleTick dt port pos idx status edgeNs s
  | .streamSilentTimeout dt st => Sys2Proof.Machine.execStreamSilentTimeout dt st s
  | .queueRead dt st => Sys2Proof.Machine.execQueueRead dt st s
  | .qDropRestWrite dt st => Sys2Proof.Machine.execQDropRestWrite dt st s
  | .tapDelivery dt tap => Sys2Proof.Machine.execTapDelivery dt tap s
  -- Churn alignment (R189–R217)
  | .churnOpenInstant dt id => Sys2Proof.Machine.execChurnOpenInstant dt id s
  | .churnCloseSchedule dt id => Sys2Proof.Machine.execChurnCloseSchedule dt id s
  | .churnStreamRole dt id => Sys2Proof.Machine.execChurnStreamRole dt id s
  | .churnSetEgo dt id => Sys2Proof.Machine.execChurnSetEgo dt id s
  | .churnSetTransform dt id => Sys2Proof.Machine.execChurnSetTransform dt id s
  | .churnInstantStatus dt id => Sys2Proof.Machine.execChurnInstantStatus dt id s
  | .egoExtTWrite dt who v => Sys2Proof.Machine.execEgoExtTWrite dt who v s
  | .instantOpen dt sched => Sys2Proof.Machine.execInstantOpen dt sched s
  | .instantCloseWatermark dt sched => Sys2Proof.Machine.execInstantCloseWatermark dt sched s
  | .instantCloseLimit dt sched => Sys2Proof.Machine.execInstantCloseLimit dt sched s
  | .instantRecordCommit dt sched k => Sys2Proof.Machine.execInstantRecordCommit dt sched k s
  | .revisionRecordCommit dt sched k => Sys2Proof.Machine.execRevisionRecordCommit dt sched k s
  | .instantSeal dt sched k => Sys2Proof.Machine.execInstantSeal dt sched k s
  -- Churn points (R218–R247)
  | .churnPointFormat dt id => Sys2Proof.Machine.execChurnPointFormat dt id s
  | .churnVoxelConfig dt id => Sys2Proof.Machine.execChurnVoxelConfig dt id s
  | .churnOctreeConfig dt id => Sys2Proof.Machine.execChurnOctreeConfig dt id s
  | .churnOctreeClear dt id => Sys2Proof.Machine.execChurnOctreeClear dt id s
  | .churnTableSplit dt id => Sys2Proof.Machine.execChurnTableSplit dt id s
  | .tableSplitApply dt id => Sys2Proof.Machine.execTableSplitApply dt id s
  | .churnVoxelStatus dt id => Sys2Proof.Machine.execChurnVoxelStatus dt id s
  | .pointFrameBuild dt => Sys2Proof.Machine.execPointFrameBuild dt s
  -- Churn tracks (R248–R260)
  | .churnTrackConfig dt id => Sys2Proof.Machine.execChurnTrackConfig dt id s
  | .churnAssociate dt id => Sys2Proof.Machine.execChurnAssociate dt id s
  | .churnTrackDrop dt id => Sys2Proof.Machine.execChurnTrackDrop dt id s
  | .churnTrackStatus dt id => Sys2Proof.Machine.execChurnTrackStatus dt id s
  -- Planner (R261–R285)
  | .planGridConfig dt id => Sys2Proof.Machine.execPlanGridConfig dt id s
  | .planGridWrite dt id => Sys2Proof.Machine.execPlanGridWrite dt id s
  | .planModelSet dt id => Sys2Proof.Machine.execPlanModelSet dt id s
  | .planCheck dt id => Sys2Proof.Machine.execPlanCheck dt id s
  | .planSearch dt id => Sys2Proof.Machine.execPlanSearch dt id s
  | .planStopConfig dt id => Sys2Proof.Machine.execPlanStopConfig dt id s
  | .planStatus dt id => Sys2Proof.Machine.execPlanStatus dt id s
  | .gridFill dt => Sys2Proof.Machine.execGridFill dt s
  | .checkJob dt => Sys2Proof.Machine.execCheckJob dt s
  | .searchTimeout dt id => Sys2Proof.Machine.execSearchTimeout dt id s
  | .stopRecordBuild dt => Sys2Proof.Machine.execStopRecordBuild dt s
  -- Tensor (R286–R312, R349–R354, R428–R436)
  | .tensorMatmul dt id => Sys2Proof.Machine.execTensorMatmul dt id s
  | .tensorVector dt id => Sys2Proof.Machine.execTensorVector dt id s
  | .tensorSpconv dt id => Sys2Proof.Machine.execTensorSpconv dt id s
  | .tensorChain dt id => Sys2Proof.Machine.execTensorChain dt id s
  | .tensorRngSeed dt id => Sys2Proof.Machine.execTensorRngSeed dt id s
  | .tensorCoreStatus dt id => Sys2Proof.Machine.execTensorCoreStatus dt id s
  | .attnFwd dt id => Sys2Proof.Machine.execAttnFwd dt id s
  | .attnBwd dt id => Sys2Proof.Machine.execAttnBwd dt id s
  | .rngSeedHiWrite dt core v => Sys2Proof.Machine.execRngSeedHiWrite dt core v s
  | .descriptorStart dt core => Sys2Proof.Machine.execDescriptorStart dt core s
  | .tileComplete dt core rep => Sys2Proof.Machine.execTileComplete dt core rep s
  | .checkerRerunStart dt id slot => Sys2Proof.Machine.execCheckerRerunStart dt id slot s
  | .checkVerdict dt id rerun => Sys2Proof.Machine.execCheckVerdict dt id rerun s
  | .starterWindowOpen dt slot => Sys2Proof.Machine.execStarterWindowOpen dt slot s
  | .starterComplete dt slot out => Sys2Proof.Machine.execStarterComplete dt slot out s
  -- movement and links (R313–R342)
  | .moveCopy dt id => Sys2Proof.Machine.execMoveCopy dt id s
  | .moveConcat dt id => Sys2Proof.Machine.execMoveConcat dt id s
  | .moveGather dt id => Sys2Proof.Machine.execMoveGather dt id s
  | .moveScatter dt id => Sys2Proof.Machine.execMoveScatter dt id s
  | .moveQueueRead dt id => Sys2Proof.Machine.execMoveQueueRead dt id s
  | .moveFrameRing dt id => Sys2Proof.Machine.execMoveFrameRing dt id s
  | .movePushHost dt id => Sys2Proof.Machine.execMovePushHost dt id s
  | .moveLinkConfig dt id => Sys2Proof.Machine.execMoveLinkConfig dt id s
  | .moveLinkRetrain dt id => Sys2Proof.Machine.execMoveLinkRetrain dt id s
  | .linkRetrainStart dt id => Sys2Proof.Machine.execLinkRetrainStart dt id s
  | .moveLinkStatus dt id => Sys2Proof.Machine.execMoveLinkStatus dt id s
  | .moveCollective dt id => Sys2Proof.Machine.execMoveCollective dt id s
  | .collMatchRecordRx dt collId rec => Sys2Proof.Machine.execCollMatchRecordRx dt collId rec s
  | .collTimeout dt id => Sys2Proof.Machine.execCollTimeout dt id s
  | .linkSignalDetect dt port => Sys2Proof.Machine.execLinkSignalDetect dt port s
  | .linkEqualizeDone dt port width => Sys2Proof.Machine.execLinkEqualizeDone dt port width s
  | .linkIdentifyRx dt port peer => Sys2Proof.Machine.execLinkIdentifyRx dt port peer s
  | .linkAuthConfirm dt port tag => Sys2Proof.Machine.execLinkAuthConfirm dt port tag s
  | .linkLossOfLock dt port => Sys2Proof.Machine.execLinkLossOfLock dt port s
  | .linkFlitRx dt port chk body => Sys2Proof.Machine.execLinkFlitRx dt port chk body s
  -- KV pages (R355–R375)
  | .kvInit dt id => Sys2Proof.Machine.execKvInit dt id s
  | .kvPoolCreate dt id => Sys2Proof.Machine.execKvPoolCreate dt id s
  | .kvCellarConfig dt id => Sys2Proof.Machine.execKvCellarConfig dt id s
  | .kvSeqCreate dt id => Sys2Proof.Machine.execKvSeqCreate dt id s
  | .kvSeqFork dt id => Sys2Proof.Machine.execKvSeqFork dt id s
  | .kvSeqTruncate dt id => Sys2Proof.Machine.execKvSeqTruncate dt id s
  | .kvSeqRelease dt id => Sys2Proof.Machine.execKvSeqRelease dt id s
  | .kvAppend dt id => Sys2Proof.Machine.execKvAppend dt id s
  | .kvPublish dt id => Sys2Proof.Machine.execKvPublish dt id s
  | .kvPrefetch dt id => Sys2Proof.Machine.execKvPrefetch dt id s
  | .kvSeqSend dt id => Sys2Proof.Machine.execKvSeqSend dt id s
  | .kvSeqRecv dt id => Sys2Proof.Machine.execKvSeqRecv dt id s
  | .kvSetRole dt id => Sys2Proof.Machine.execKvSetRole dt id s
  | .kvSeqStatus dt id => Sys2Proof.Machine.execKvSeqStatus dt id s
  | .kvWalkEmit dt id => Sys2Proof.Machine.execKvWalkEmit dt id s
  | .kvReclaim dt pool => Sys2Proof.Machine.execKvReclaim dt pool s
  | .kvSpillDone dt pool page => Sys2Proof.Machine.execKvSpillDone dt pool page s
  | .kvFetchDone dt pool page slot => Sys2Proof.Machine.execKvFetchDone dt pool page slot s
  -- memory and arbiters (R376–R396)
  | .memArbConfig dt id => Sys2Proof.Machine.execMemArbConfig dt id s
  | .memArbStatus dt id => Sys2Proof.Machine.execMemArbStatus dt id s
  | .memErrStatus dt id => Sys2Proof.Machine.execMemErrStatus dt id s
  | .arbiterDecision dt arb arrivals => Sys2Proof.Machine.execArbiterDecision dt arb arrivals s
  | .arbiterSliceBoundary dt arb => Sys2Proof.Machine.execArbiterSliceBoundary dt arb s
  | .arbFreezeWrite dt who arb v => Sys2Proof.Machine.execArbFreezeWrite dt who arb v s
  -- safety (R397–R448)
  | .safetyConfigLoad dt id => Sys2Proof.Machine.execSafetyConfigLoad dt id s
  | .safetyBandLoad dt id => Sys2Proof.Machine.execSafetyBandLoad dt id s
  | .safetyFramesetConfig dt id => Sys2Proof.Machine.execSafetyFramesetConfig dt id s
  | .safetySafeState dt id => Sys2Proof.Machine.execSafetySafeState dt id s
  | .safetyStatus dt id => Sys2Proof.Machine.execSafetyStatus dt id s
  | .safetyStandbyConfig dt id => Sys2Proof.Machine.execSafetyStandbyConfig dt id s
  | .safetyTrajOffer dt id => Sys2Proof.Machine.execSafetyTrajOffer dt id s
  | .safetyReflexMode dt id => Sys2Proof.Machine.execSafetyReflexMode dt id s
  | .safetyReflexStatus dt id => Sys2Proof.Machine.execSafetyReflexStatus dt id s
  | .heartbeatTx dt => Sys2Proof.Machine.execHeartbeatTx dt s
  | .heartbeatRx dt dev => Sys2Proof.Machine.execHeartbeatRx dt dev s
  | .heartbeatMissTimeout dt dev => Sys2Proof.Machine.execHeartbeatMissTimeout dt dev s
  | .reflexLoopRelease dt n => Sys2Proof.Machine.execReflexLoopRelease dt n s
  | .reflexLoopComplete dt n entry descOff runNs run => Sys2Proof.Machine.execReflexLoopComplete dt n entry descOff runNs run s
  | .trajSwap dt => Sys2Proof.Machine.execTrajSwap dt s
  | .trajStarved dt => Sys2Proof.Machine.execTrajStarved dt s
  | .stopStandstill dt => Sys2Proof.Machine.execStopStandstill dt s
  | .safeAliveToggle dt => Sys2Proof.Machine.execSafeAliveToggle dt s
  -- security (R449–R468)
  | .secGetIdentity dt id => Sys2Proof.Machine.execSecGetIdentity dt id s
  | .secAttest dt id => Sys2Proof.Machine.execSecAttest dt id s
  | .secRollbackCommit dt id => Sys2Proof.Machine.execSecRollbackCommit dt id s
  | .secRootRevoke dt id => Sys2Proof.Machine.execSecRootRevoke dt id s
  | .secWeightLoad dt id => Sys2Proof.Machine.execSecWeightLoad dt id s
  | .secWeightRelease dt id => Sys2Proof.Machine.execSecWeightRelease dt id s
  | .secConfidentialEnter dt id => Sys2Proof.Machine.execSecConfidentialEnter dt id s
  | .secDebugUnlock dt id => Sys2Proof.Machine.execSecDebugUnlock dt id s
  -- power, reset and start-up (R469–R487, R494)
  | .porstLow dt vaon => Sys2Proof.Machine.execPorstLow dt vaon s
  | .coldStart dt => Sys2Proof.Machine.execColdStart dt s
  | .vcorePgTimeout dt => Sys2Proof.Machine.execVcorePgTimeout dt s
  | .hbmInitDone dt => Sys2Proof.Machine.execHbmInitDone dt s
  | .imageVerifyDone dt => Sys2Proof.Machine.execImageVerifyDone dt s
  | .bivexaReady dt => Sys2Proof.Machine.execBivexaReady dt s
  | .p0WarmResetRequest dt => Sys2Proof.Machine.execP0WarmResetRequest dt s
  | .mainResetEntry dt cause => Sys2Proof.Machine.execMainResetEntry dt cause s
  | .mainDomainRelease dt => Sys2Proof.Machine.execMainDomainRelease dt s
  | .supplyWarning dt rail mv => Sys2Proof.Machine.execSupplyWarning dt rail mv s
  | .supplyRestored dt rail => Sys2Proof.Machine.execSupplyRestored dt rail s
  | .vcoreResetThreshold dt => Sys2Proof.Machine.execVcoreResetThreshold dt s
  | .supplyResetThreshold dt rail => Sys2Proof.Machine.execSupplyResetThreshold dt rail s
  | .vcoreRecovered dt => Sys2Proof.Machine.execVcoreRecovered dt s
  | .tjSample dt tj => Sys2Proof.Machine.execTjSample dt tj s
  | .refclkLost dt ref => Sys2Proof.Machine.execRefclkLost dt ref s
  | .refclkRestored dt ref => Sys2Proof.Machine.execRefclkRestored dt ref s
  | .vcorePgSeen dt => Sys2Proof.Machine.execVcorePgSeen dt s
  | .vaonPowerOnRelease dt => Sys2Proof.Machine.execVaonPowerOnRelease dt s
  -- rows that only rare faults and timeouts bring (chapters 3, 5 to 7, 11 to 13, 15, 16, 18)
  | .canArbitrationLost dt e => Sys2Proof.Machine.execCanArbitrationLost dt e s
  | .starterWindowClose dt slot => Sys2Proof.Machine.execStarterWindowClose dt slot s
  | .starterDigestCheck dt => Sys2Proof.Machine.execStarterDigestCheck dt s
  | .checkerWaitTimeout dt id => Sys2Proof.Machine.execCheckerWaitTimeout dt id s
  | .linkRekey dt port peerNonce => Sys2Proof.Machine.execLinkRekey dt port peerNonce s
  | .linkDetectRetry dt port => Sys2Proof.Machine.execLinkDetectRetry dt port s
  | .ptpMessageInterval dt tb tx => Sys2Proof.Machine.execPtpMessageInterval dt tb tx s
  | .kvSeqRecvTimeout dt id => Sys2Proof.Machine.execKvSeqRecvTimeout dt id s
  | .bridgeTransparentCorrect dt inPort outPort tb frame rx tx => Sys2Proof.Machine.execBridgeTransparentCorrect dt inPort outPort tb frame rx tx s
  | .ppsMissingTimeout dt tb => Sys2Proof.Machine.execPpsMissingTimeout dt tb s
  | .ptpAnnounceTimeout dt tb => Sys2Proof.Machine.execPtpAnnounceTimeout dt tb s
  | .shortTbEntryHandoff dt e => Sys2Proof.Machine.execShortTbEntryHandoff dt e s
  | .shortTbWrapRead dt tb => Sys2Proof.Machine.execShortTbWrapRead dt tb s
  | .islandMonitorFail dt => Sys2Proof.Machine.execIslandMonitorFail dt s
  | .lockstepMismatch dt addr => Sys2Proof.Machine.execLockstepMismatch dt addr s
  | .patrolScrub dt find => Sys2Proof.Machine.execPatrolScrub dt find s
  | .hostCompletionTimeout dt id => Sys2Proof.Machine.execHostCompletionTimeout dt id s
  | .avsRetry dt ok => Sys2Proof.Machine.execAvsRetry dt ok s
  | .queuePtrMismatch dt st ptr => Sys2Proof.Machine.execQueuePtrMismatch dt st ptr s
  | .egoInvalidTimeout dt => Sys2Proof.Machine.execEgoInvalidTimeout dt s
  | .kvFetchTimeout dt pool page => Sys2Proof.Machine.execKvFetchTimeout dt pool page s
  | .controlCoreWatchdogTimeout dt cc => Sys2Proof.Machine.execControlCoreWatchdogTimeout dt cc s
  | .warmBoundTimeout dt => Sys2Proof.Machine.execWarmBoundTimeout dt s
  | .vcoreRecoveryTimeout dt => Sys2Proof.Machine.execVcoreRecoveryTimeout dt s
  | .stopMirrorCopy dt => Sys2Proof.Machine.execStopMirrorCopy dt s

end Sys2Proof.Machine
end

