-- ==== Sys2Proof/WellFormed.lean ====
section
/-! DEFINITION. Which commands are well formed: the operands that a row names lie in the ranges the spec gives them. The model gives a
next state to any command; on one that is not well formed nothing is claimed. -/
namespace Sys2Proof

/-- A configuration dword lies in the 4 KiB configuration space. -/
def CfgReg.wf : CfgReg → Bool
  | .other d => decide (d < 1024)
  | _ => true

/-- A packet's port lies among the ports of R165 and its slots among 16. -/
def SensorPacket.wf (p : SensorPacket) : Bool := decide (p.kind < 8 ∧ p.port < 16 ∧ p.slotBytes.length ≤ 16)

/-- The 2 ns ticks that pass before a command. -/
def Instr.dt : Instr → Nat
  | .configRequest dt .. => dt
  | .pciePerstRelease dt => dt
  | .pcieLinkReset dt .. => dt
  | .pcieLinkUp dt => dt
  | .hostLinkRestored dt => dt
  | .pcieD3hotEntry dt => dt
  | .pcieD0Return dt => dt
  | .pcieError dt .. => dt
  | .mboxSlotWrite dt .. => dt
  | .commandAccept dt => dt
  | .commandDispatch dt .. => dt
  | .commandCommit dt .. => dt
  | .responseWrite dt => dt
  | .eventSlotWrite dt => dt
  | .msixModerationExpiry dt .. => dt
  | .msixUnmask dt .. => dt
  | .dportPtrWrite dt .. => dt
  | .dportWrite dt .. => dt
  | .dportRead dt .. => dt
  | .warmResetRequestWrite dt .. => dt
  | .registerWrite dt .. => dt
  | .paceIntervalEnd dt .. => dt
  | .avsSetPointStep dt .. => dt
  | .powerLimitTick dt .. => dt
  | .burstEnd dt => dt
  | .thermalThrottleTick dt => dt
  | .avsFault dt => dt
  | .paceTableMerge dt => dt
  | .ctrlAbort dt .. => dt
  | .ctrlFuncDisable dt .. => dt
  | .ctrlFuncEnable dt .. => dt
  | .drainTimeout dt .. => dt
  | .ctrlPartDefine dt .. => dt
  | .ctrlPartStart dt .. => dt
  | .ctrlPartStop dt .. => dt
  | .ctrlPartRestart dt .. => dt
  | .partitionRestartEnd dt .. => dt
  | .partitionRestartTimeout dt .. => dt
  | .ctrlSetHostRanges dt .. => dt
  | .ctrlSetWindows dt .. => dt
  | .windowScheduleStart dt => dt
  | .windowBoundary dt .. => dt
  | .ctrlFwUpdate dt .. => dt
  | .fwUpdateSwap dt .. => dt
  | .ctrlCoreRetire dt .. => dt
  | .powerSetLimit dt .. => dt
  | .powerSetPolicy dt .. => dt
  | .powerSetMargin dt .. => dt
  | .powerReadPaceTable dt .. => dt
  | .powerLoadPaceTable dt .. => dt
  | .powerSetWarn dt .. => dt
  | .powerStatus dt .. => dt
  | .timebasePllLock dt => dt
  | .timeSetFormat dt .. => dt
  | .timeSetSource dt .. => dt
  | .timeSetIncrement dt .. => dt
  | .timeStep dt .. => dt
  | .timeStepUnlock dt .. => dt
  | .timeSetJumpThreshold dt .. => dt
  | .timeRead dt .. => dt
  | .timePpsConfig dt .. => dt
  | .timePtpConfig dt .. => dt
  | .timeSnapshot dt .. => dt
  | .timeLaunchAdd dt .. => dt
  | .timeLaunchCancel dt .. => dt
  | .timeLaunchStatus dt .. => dt
  | .tbIncWrite dt .. => dt
  | .tbStepWrite dt .. => dt
  | .tbUnlockWrite dt .. => dt
  | .tbUnlockExpiry dt .. => dt
  | .tbSecRead dt .. => dt
  | .timeBaseStepApply dt .. => dt
  | .xstampWrite dt .. => dt
  | .captureEdge dt .. => dt
  | .capStatRead dt .. => dt
  | .compareFire dt .. => dt
  | .timerefLost dt => dt
  | .timerefRestored dt => dt
  | .ppsInEdge dt .. => dt
  | .ppsOutPulse dt => dt
  | .ptpEventRx dt .. => dt
  | .geyserEntryWriteP0 dt .. => dt
  | .geyserFetch dt .. => dt
  | .geyserFetchDone dt .. => dt
  | .geyserLaunchTick dt .. => dt
  | .geyserHeldStart dt .. => dt
  | .geyserTransmitDone dt .. => dt
  | .snapshotEpoch dt => dt
  | .snapshotRecordWrite dt .. => dt
  | .intakePortConfig dt .. => dt
  | .intakeStreamConfig dt .. => dt
  | .intakeE2eConfig dt .. => dt
  | .intakeStreamEnable dt .. => dt
  | .intakeStreamDisable dt .. => dt
  | .intakeResync dt .. => dt
  | .intakeSetProfile dt .. => dt
  | .intakeStreamStatus dt .. => dt
  | .sensorPacketRx dt .. => dt
  | .encoderSampleTick dt .. => dt
  | .streamSilentTimeout dt .. => dt
  | .queueRead dt .. => dt
  | .qDropRestWrite dt .. => dt
  | .tapDelivery dt .. => dt
  | .churnOpenInstant dt .. => dt
  | .churnCloseSchedule dt .. => dt
  | .churnStreamRole dt .. => dt
  | .churnSetEgo dt .. => dt
  | .churnSetTransform dt .. => dt
  | .churnInstantStatus dt .. => dt
  | .egoExtTWrite dt .. => dt
  | .instantOpen dt .. => dt
  | .instantCloseWatermark dt .. => dt
  | .instantCloseLimit dt .. => dt
  | .instantRecordCommit dt .. => dt
  | .revisionRecordCommit dt .. => dt
  | .instantSeal dt .. => dt
  | .churnPointFormat dt .. => dt
  | .churnVoxelConfig dt .. => dt
  | .churnOctreeConfig dt .. => dt
  | .churnOctreeClear dt .. => dt
  | .churnTableSplit dt .. => dt
  | .tableSplitApply dt .. => dt
  | .churnVoxelStatus dt .. => dt
  | .pointFrameBuild dt => dt
  | .churnTrackConfig dt .. => dt
  | .churnAssociate dt .. => dt
  | .churnTrackDrop dt .. => dt
  | .churnTrackStatus dt .. => dt
  | .planGridConfig dt .. => dt
  | .planGridWrite dt .. => dt
  | .planModelSet dt .. => dt
  | .planCheck dt .. => dt
  | .planSearch dt .. => dt
  | .planStopConfig dt .. => dt
  | .planStatus dt .. => dt
  | .gridFill dt => dt
  | .checkJob dt => dt
  | .searchTimeout dt .. => dt
  | .stopRecordBuild dt => dt
  | .tensorMatmul dt .. => dt
  | .tensorVector dt .. => dt
  | .tensorSpconv dt .. => dt
  | .tensorChain dt .. => dt
  | .tensorRngSeed dt .. => dt
  | .tensorCoreStatus dt .. => dt
  | .attnFwd dt .. => dt
  | .attnBwd dt .. => dt
  | .rngSeedHiWrite dt .. => dt
  | .descriptorStart dt .. => dt
  | .tileComplete dt .. => dt
  | .checkerRerunStart dt .. => dt
  | .checkVerdict dt .. => dt
  | .starterWindowOpen dt .. => dt
  | .starterComplete dt .. => dt
  | .moveCopy dt .. => dt
  | .moveConcat dt .. => dt
  | .moveGather dt .. => dt
  | .moveScatter dt .. => dt
  | .moveQueueRead dt .. => dt
  | .moveFrameRing dt .. => dt
  | .movePushHost dt .. => dt
  | .moveLinkConfig dt .. => dt
  | .moveLinkRetrain dt .. => dt
  | .linkRetrainStart dt .. => dt
  | .moveLinkStatus dt .. => dt
  | .moveCollective dt .. => dt
  | .collMatchRecordRx dt .. => dt
  | .collTimeout dt .. => dt
  | .linkSignalDetect dt .. => dt
  | .linkEqualizeDone dt .. => dt
  | .linkIdentifyRx dt .. => dt
  | .linkAuthConfirm dt .. => dt
  | .linkLossOfLock dt .. => dt
  | .linkFlitRx dt .. => dt
  | .kvInit dt .. => dt
  | .kvPoolCreate dt .. => dt
  | .kvCellarConfig dt .. => dt
  | .kvSeqCreate dt .. => dt
  | .kvSeqFork dt .. => dt
  | .kvSeqTruncate dt .. => dt
  | .kvSeqRelease dt .. => dt
  | .kvAppend dt .. => dt
  | .kvPublish dt .. => dt
  | .kvPrefetch dt .. => dt
  | .kvSeqSend dt .. => dt
  | .kvSeqRecv dt .. => dt
  | .kvSetRole dt .. => dt
  | .kvSeqStatus dt .. => dt
  | .kvWalkEmit dt .. => dt
  | .kvReclaim dt .. => dt
  | .kvSpillDone dt .. => dt
  | .kvFetchDone dt .. => dt
  | .memArbConfig dt .. => dt
  | .memArbStatus dt .. => dt
  | .memErrStatus dt .. => dt
  | .arbiterDecision dt .. => dt
  | .arbiterSliceBoundary dt .. => dt
  | .arbFreezeWrite dt .. => dt
  | .safetyConfigLoad dt .. => dt
  | .safetyBandLoad dt .. => dt
  | .safetyFramesetConfig dt .. => dt
  | .safetySafeState dt .. => dt
  | .safetyStatus dt .. => dt
  | .safetyStandbyConfig dt .. => dt
  | .safetyTrajOffer dt .. => dt
  | .safetyReflexMode dt .. => dt
  | .safetyReflexStatus dt .. => dt
  | .heartbeatTx dt => dt
  | .heartbeatRx dt .. => dt
  | .heartbeatMissTimeout dt .. => dt
  | .reflexLoopRelease dt .. => dt
  | .reflexLoopComplete dt .. => dt
  | .trajSwap dt => dt
  | .trajStarved dt => dt
  | .stopStandstill dt => dt
  | .safeAliveToggle dt => dt
  | .secGetIdentity dt .. => dt
  | .secAttest dt .. => dt
  | .secRollbackCommit dt .. => dt
  | .secRootRevoke dt .. => dt
  | .secWeightLoad dt .. => dt
  | .secWeightRelease dt .. => dt
  | .secConfidentialEnter dt .. => dt
  | .secDebugUnlock dt .. => dt
  | .porstLow dt .. => dt
  | .coldStart dt => dt
  | .vcorePgTimeout dt => dt
  | .hbmInitDone dt => dt
  | .imageVerifyDone dt => dt
  | .bivexaReady dt => dt
  | .p0WarmResetRequest dt => dt
  | .mainResetEntry dt .. => dt
  | .mainDomainRelease dt => dt
  | .supplyWarning dt .. => dt
  | .supplyRestored dt .. => dt
  | .vcoreResetThreshold dt => dt
  | .supplyResetThreshold dt .. => dt
  | .vcoreRecovered dt => dt
  | .tjSample dt .. => dt
  | .refclkLost dt .. => dt
  | .refclkRestored dt .. => dt
  | .vcorePgSeen dt => dt
  | .vaonPowerOnRelease dt => dt
  | .canArbitrationLost dt .. => dt
  | .starterWindowClose dt .. => dt
  | .starterDigestCheck dt => dt
  | .checkerWaitTimeout dt .. => dt
  | .linkRekey dt .. => dt
  | .linkDetectRetry dt .. => dt
  | .ptpMessageInterval dt .. => dt
  | .kvSeqRecvTimeout dt .. => dt
  | .bridgeTransparentCorrect dt .. => dt
  | .ppsMissingTimeout dt .. => dt
  | .ptpAnnounceTimeout dt .. => dt
  | .shortTbEntryHandoff dt .. => dt
  | .shortTbWrapRead dt .. => dt
  | .islandMonitorFail dt => dt
  | .lockstepMismatch dt .. => dt
  | .patrolScrub dt .. => dt
  | .hostCompletionTimeout dt .. => dt
  | .avsRetry dt .. => dt
  | .queuePtrMismatch dt .. => dt
  | .egoInvalidTimeout dt => dt
  | .kvFetchTimeout dt .. => dt
  | .controlCoreWatchdogTimeout dt .. => dt
  | .warmBoundTimeout dt => dt
  | .vcoreRecoveryTimeout dt => dt
  | .stopMirrorCopy dt => dt

/-- The code of the host command that a row runs (R97, R112, R113 and each group's table), with the acceptance number it names; none for
the rows of events, of accesses and of the steps every command takes. -/
def Instr.hostCmd : Instr → Option (Nat × Nat)
  | .configRequest .. => none
  | .pciePerstRelease .. => none
  | .pcieLinkReset .. => none
  | .pcieLinkUp .. => none
  | .hostLinkRestored .. => none
  | .pcieD3hotEntry .. => none
  | .pcieD0Return .. => none
  | .pcieError .. => none
  | .mboxSlotWrite .. => none
  | .commandAccept .. => none
  | .commandDispatch .. => none
  | .commandCommit .. => none
  | .responseWrite .. => none
  | .eventSlotWrite .. => none
  | .msixModerationExpiry .. => none
  | .msixUnmask .. => none
  | .dportPtrWrite .. => none
  | .dportWrite .. => none
  | .dportRead .. => none
  | .warmResetRequestWrite .. => none
  | .registerWrite .. => none
  | .paceIntervalEnd .. => none
  | .avsSetPointStep .. => none
  | .powerLimitTick .. => none
  | .burstEnd .. => none
  | .thermalThrottleTick .. => none
  | .avsFault .. => none
  | .paceTableMerge .. => none
  | .ctrlAbort _ id => some (id, 0x0102)
  | .ctrlFuncDisable _ id => some (id, 0x0103)
  | .ctrlFuncEnable _ id => some (id, 0x0104)
  | .drainTimeout .. => none
  | .ctrlPartDefine _ id => some (id, 0x0110)
  | .ctrlPartStart _ id => some (id, 0x0111)
  | .ctrlPartStop _ id => some (id, 0x0112)
  | .ctrlPartRestart _ id => some (id, 0x0113)
  | .partitionRestartEnd .. => none
  | .partitionRestartTimeout .. => none
  | .ctrlSetHostRanges _ id => some (id, 0x0118)
  | .ctrlSetWindows _ id => some (id, 0x0119)
  | .windowScheduleStart .. => none
  | .windowBoundary .. => none
  | .ctrlFwUpdate _ id => some (id, 0x0120)
  | .fwUpdateSwap .. => none
  | .ctrlCoreRetire _ id => some (id, 0x0128)
  | .powerSetLimit _ id => some (id, 0x0A01)
  | .powerSetPolicy _ id => some (id, 0x0A02)
  | .powerSetMargin _ id => some (id, 0x0A03)
  | .powerReadPaceTable _ id => some (id, 0x0A04)
  | .powerLoadPaceTable _ id => some (id, 0x0A05)
  | .powerSetWarn _ id => some (id, 0x0A06)
  | .powerStatus _ id => some (id, 0x0A07)
  | .timebasePllLock .. => none
  | .timeSetFormat _ id => some (id, 0x0201)
  | .timeSetSource _ id => some (id, 0x0202)
  | .timeSetIncrement _ id => some (id, 0x0203)
  | .timeStep _ id => some (id, 0x0204)
  | .timeStepUnlock _ id => some (id, 0x0205)
  | .timeSetJumpThreshold _ id => some (id, 0x0206)
  | .timeRead _ id => some (id, 0x0207)
  | .timePpsConfig _ id => some (id, 0x0208)
  | .timePtpConfig _ id => some (id, 0x0209)
  | .timeSnapshot _ id => some (id, 0x0210)
  | .timeLaunchAdd _ id => some (id, 0x0220)
  | .timeLaunchCancel _ id => some (id, 0x0221)
  | .timeLaunchStatus _ id => some (id, 0x0222)
  | .tbIncWrite .. => none
  | .tbStepWrite .. => none
  | .tbUnlockWrite .. => none
  | .tbUnlockExpiry .. => none
  | .tbSecRead .. => none
  | .timeBaseStepApply .. => none
  | .xstampWrite .. => none
  | .captureEdge .. => none
  | .capStatRead .. => none
  | .compareFire .. => none
  | .timerefLost .. => none
  | .timerefRestored .. => none
  | .ppsInEdge .. => none
  | .ppsOutPulse .. => none
  | .ptpEventRx .. => none
  | .geyserEntryWriteP0 .. => none
  | .geyserFetch .. => none
  | .geyserFetchDone .. => none
  | .geyserLaunchTick .. => none
  | .geyserHeldStart .. => none
  | .geyserTransmitDone .. => none
  | .snapshotEpoch .. => none
  | .snapshotRecordWrite .. => none
  | .intakePortConfig _ id => some (id, 0x0301)
  | .intakeStreamConfig _ id => some (id, 0x0302)
  | .intakeE2eConfig _ id => some (id, 0x0303)
  | .intakeStreamEnable _ id => some (id, 0x0304)
  | .intakeStreamDisable _ id => some (id, 0x0305)
  | .intakeResync _ id => some (id, 0x0306)
  | .intakeSetProfile _ id => some (id, 0x0307)
  | .intakeStreamStatus _ id => some (id, 0x0308)
  | .sensorPacketRx .. => none
  | .encoderSampleTick .. => none
  | .streamSilentTimeout .. => none
  | .queueRead .. => none
  | .qDropRestWrite .. => none
  | .tapDelivery .. => none
  | .churnOpenInstant _ id => some (id, 0x0401)
  | .churnCloseSchedule _ id => some (id, 0x0402)
  | .churnStreamRole _ id => some (id, 0x0403)
  | .churnSetEgo _ id => some (id, 0x0404)
  | .churnSetTransform _ id => some (id, 0x0405)
  | .churnInstantStatus _ id => some (id, 0x0406)
  | .egoExtTWrite .. => none
  | .instantOpen .. => none
  | .instantCloseWatermark .. => none
  | .instantCloseLimit .. => none
  | .instantRecordCommit .. => none
  | .revisionRecordCommit .. => none
  | .instantSeal .. => none
  | .churnPointFormat _ id => some (id, 0x0410)
  | .churnVoxelConfig _ id => some (id, 0x0411)
  | .churnOctreeConfig _ id => some (id, 0x0412)
  | .churnOctreeClear _ id => some (id, 0x0413)
  | .churnTableSplit _ id => some (id, 0x0414)
  | .tableSplitApply .. => none
  | .churnVoxelStatus _ id => some (id, 0x0415)
  | .pointFrameBuild .. => none
  | .churnTrackConfig _ id => some (id, 0x0420)
  | .churnAssociate _ id => some (id, 0x0421)
  | .churnTrackDrop _ id => some (id, 0x0422)
  | .churnTrackStatus _ id => some (id, 0x0423)
  | .planGridConfig _ id => some (id, 0x0501)
  | .planGridWrite _ id => some (id, 0x0502)
  | .planModelSet _ id => some (id, 0x0503)
  | .planCheck _ id => some (id, 0x0504)
  | .planSearch _ id => some (id, 0x0505)
  | .planStopConfig _ id => some (id, 0x0506)
  | .planStatus _ id => some (id, 0x0507)
  | .gridFill .. => none
  | .checkJob .. => none
  | .searchTimeout .. => none
  | .stopRecordBuild .. => none
  | .tensorMatmul _ id => some (id, 0x0601)
  | .tensorVector _ id => some (id, 0x0602)
  | .tensorSpconv _ id => some (id, 0x0603)
  | .tensorChain _ id => some (id, 0x0604)
  | .tensorRngSeed _ id => some (id, 0x0605)
  | .tensorCoreStatus _ id => some (id, 0x0606)
  | .attnFwd _ id => some (id, 0x0610)
  | .attnBwd _ id => some (id, 0x0611)
  | .rngSeedHiWrite .. => none
  | .descriptorStart .. => none
  | .tileComplete .. => none
  | .checkerRerunStart .. => none
  | .checkVerdict .. => none
  | .starterWindowOpen .. => none
  | .starterComplete .. => none
  | .moveCopy _ id => some (id, 0x0701)
  | .moveConcat _ id => some (id, 0x0702)
  | .moveGather _ id => some (id, 0x0703)
  | .moveScatter _ id => some (id, 0x0704)
  | .moveQueueRead _ id => some (id, 0x0708)
  | .moveFrameRing _ id => some (id, 0x0710)
  | .movePushHost _ id => some (id, 0x0720)
  | .moveLinkConfig _ id => some (id, 0x0730)
  | .moveLinkRetrain _ id => some (id, 0x0731)
  | .linkRetrainStart .. => none
  | .moveLinkStatus _ id => some (id, 0x0732)
  | .moveCollective _ id => some (id, 0x0740)
  | .collMatchRecordRx .. => none
  | .collTimeout .. => none
  | .linkSignalDetect .. => none
  | .linkEqualizeDone .. => none
  | .linkIdentifyRx .. => none
  | .linkAuthConfirm .. => none
  | .linkLossOfLock .. => none
  | .linkFlitRx .. => none
  | .kvInit _ id => some (id, 0x0750)
  | .kvPoolCreate _ id => some (id, 0x0751)
  | .kvCellarConfig _ id => some (id, 0x0752)
  | .kvSeqCreate _ id => some (id, 0x0753)
  | .kvSeqFork _ id => some (id, 0x0754)
  | .kvSeqTruncate _ id => some (id, 0x0755)
  | .kvSeqRelease _ id => some (id, 0x0756)
  | .kvAppend _ id => some (id, 0x0757)
  | .kvPublish _ id => some (id, 0x0758)
  | .kvPrefetch _ id => some (id, 0x0759)
  | .kvSeqSend _ id => some (id, 0x075A)
  | .kvSeqRecv _ id => some (id, 0x075B)
  | .kvSetRole _ id => some (id, 0x075C)
  | .kvSeqStatus _ id => some (id, 0x075D)
  | .kvWalkEmit .. => none
  | .kvReclaim .. => none
  | .kvSpillDone .. => none
  | .kvFetchDone .. => none
  | .memArbConfig _ id => some (id, 0x0760)
  | .memArbStatus _ id => some (id, 0x0761)
  | .memErrStatus _ id => some (id, 0x0762)
  | .arbiterDecision .. => none
  | .arbiterSliceBoundary .. => none
  | .arbFreezeWrite .. => none
  | .safetyConfigLoad _ id => some (id, 0x0801)
  | .safetyBandLoad _ id => some (id, 0x0802)
  | .safetyFramesetConfig _ id => some (id, 0x0803)
  | .safetySafeState _ id => some (id, 0x0804)
  | .safetyStatus _ id => some (id, 0x0805)
  | .safetyStandbyConfig _ id => some (id, 0x0806)
  | .safetyTrajOffer _ id => some (id, 0x0840)
  | .safetyReflexMode _ id => some (id, 0x0841)
  | .safetyReflexStatus _ id => some (id, 0x0842)
  | .heartbeatTx .. => none
  | .heartbeatRx .. => none
  | .heartbeatMissTimeout .. => none
  | .reflexLoopRelease .. => none
  | .reflexLoopComplete .. => none
  | .trajSwap .. => none
  | .trajStarved .. => none
  | .stopStandstill .. => none
  | .safeAliveToggle .. => none
  | .secGetIdentity _ id => some (id, 0x0901)
  | .secAttest _ id => some (id, 0x0902)
  | .secRollbackCommit _ id => some (id, 0x0903)
  | .secRootRevoke _ id => some (id, 0x0904)
  | .secWeightLoad _ id => some (id, 0x0910)
  | .secWeightRelease _ id => some (id, 0x0911)
  | .secConfidentialEnter _ id => some (id, 0x0920)
  | .secDebugUnlock _ id => some (id, 0x0921)
  | .porstLow .. => none
  | .coldStart .. => none
  | .vcorePgTimeout .. => none
  | .hbmInitDone .. => none
  | .imageVerifyDone .. => none
  | .bivexaReady .. => none
  | .p0WarmResetRequest .. => none
  | .mainResetEntry .. => none
  | .mainDomainRelease .. => none
  | .supplyWarning .. => none
  | .supplyRestored .. => none
  | .vcoreResetThreshold .. => none
  | .supplyResetThreshold .. => none
  | .vcoreRecovered .. => none
  | .tjSample .. => none
  | .refclkLost .. => none
  | .refclkRestored .. => none
  | .vcorePgSeen .. => none
  | .vaonPowerOnRelease .. => none
  | .canArbitrationLost .. => none
  | .starterWindowClose .. => none
  | .starterDigestCheck .. => none
  | .checkerWaitTimeout .. => none
  | .linkRekey .. => none
  | .linkDetectRetry .. => none
  | .ptpMessageInterval .. => none
  | .kvSeqRecvTimeout .. => none
  | .bridgeTransparentCorrect .. => none
  | .ppsMissingTimeout .. => none
  | .ptpAnnounceTimeout .. => none
  | .shortTbEntryHandoff .. => none
  | .shortTbWrapRead .. => none
  | .islandMonitorFail .. => none
  | .lockstepMismatch .. => none
  | .patrolScrub .. => none
  | .hostCompletionTimeout .. => none
  | .avsRetry .. => none
  | .queuePtrMismatch .. => none
  | .egoInvalidTimeout .. => none
  | .kvFetchTimeout .. => none
  | .controlCoreWatchdogTimeout .. => none
  | .warmBoundTimeout .. => none
  | .vcoreRecoveryTimeout .. => none
  | .stopMirrorCopy .. => none

/-- Whether a command is well formed. Rows of host commands name one by its acceptance number, and any number is well formed. -/
def Instr.wf : Instr → Bool
  | .configRequest _ reg _ => reg.wf
  | .pciePerstRelease .. => true
  | .pcieLinkReset .. => true
  | .pcieLinkUp .. => true
  | .hostLinkRestored .. => true
  | .pcieD3hotEntry .. => true
  | .pcieD0Return .. => true
  | .pcieError .. => true
  | .mboxSlotWrite _ off bytes _ => decide (1 ≤ bytes.length ∧ off + bytes.length ≤ 0x6000)
  | .commandAccept .. => true
  | .commandDispatch .. => true
  | .commandCommit .. => true
  | .responseWrite .. => true
  | .eventSlotWrite .. => true
  | .msixModerationExpiry _ v => decide (v < 6)
  | .msixUnmask _ v => match v with | some n => decide (n < 6) | none => true
  | .dportPtrWrite .. => true
  | .dportWrite _ dws _ _ _ => decide (1 ≤ dws.length ∧ dws.length ≤ 1024)
  | .dportRead _ dws => decide (1 ≤ dws ∧ dws ≤ 1024)
  | .warmResetRequestWrite .. => true
  | .registerWrite _ _ addr size _ => (size == 4 || size == 8) && addr % size == 0
  | .paceIntervalEnd _ ss ops probes => decide (ss < 8 ∧ ops.length ≤ 16 ∧ probes.length ≤ 16)
  | .avsSetPointStep .. => true
  | .powerLimitTick _ _ busyPct => decide (busyPct ≤ 100)
  | .burstEnd .. => true
  | .thermalThrottleTick .. => true
  | .avsFault .. => true
  | .paceTableMerge .. => true
  | .ctrlAbort .. => true
  | .ctrlFuncDisable .. => true
  | .ctrlFuncEnable .. => true
  | .drainTimeout .. => true
  | .ctrlPartDefine .. => true
  | .ctrlPartStart .. => true
  | .ctrlPartStop .. => true
  | .ctrlPartRestart .. => true
  | .partitionRestartEnd _ p => decide (p < 8)
  | .partitionRestartTimeout _ p => decide (p < 8)
  | .ctrlSetHostRanges .. => true
  | .ctrlSetWindows .. => true
  | .windowScheduleStart .. => true
  | .windowBoundary _ core => decide (core < 14)
  | .ctrlFwUpdate .. => true
  | .fwUpdateSwap .. => true
  | .ctrlCoreRetire .. => true
  | .powerSetLimit .. => true
  | .powerSetPolicy .. => true
  | .powerSetMargin .. => true
  | .powerReadPaceTable .. => true
  | .powerLoadPaceTable .. => true
  | .powerSetWarn .. => true
  | .powerStatus .. => true
  | .timebasePllLock .. => true
  | .timeSetFormat .. => true
  | .timeSetSource .. => true
  | .timeSetIncrement .. => true
  | .timeStep .. => true
  | .timeStepUnlock .. => true
  | .timeSetJumpThreshold .. => true
  | .timeRead .. => true
  | .timePpsConfig .. => true
  | .timePtpConfig .. => true
  | .timeSnapshot .. => true
  | .timeLaunchAdd .. => true
  | .timeLaunchCancel .. => true
  | .timeLaunchStatus .. => true
  | .tbIncWrite _ _ tb _ => decide (tb < 8)
  | .tbStepWrite _ _ tb _ => decide (tb < 8)
  | .tbUnlockWrite _ tb _ => decide (tb < 8)
  | .tbUnlockExpiry _ tb => decide (tb < 8)
  | .tbSecRead _ tb => decide (tb < 8)
  | .timeBaseStepApply _ tb => decide (tb < 8)
  | .xstampWrite .. => true
  | .captureEdge _ src _ => decide (src < 256)
  | .capStatRead _ ch => decide (ch < 32)
  | .compareFire _ k => decide (k < 16)
  | .timerefLost .. => true
  | .timerefRestored .. => true
  | .ppsInEdge .. => true
  | .ppsOutPulse .. => true
  | .ptpEventRx _ port tb _ => decide (port < 8 ∧ tb < 8)
  | .geyserEntryWriteP0 _ i off bytes => decide (i < 256 ∧ off + bytes.length ≤ 64)
  | .geyserFetch _ i => decide (i < 256)
  | .geyserFetchDone _ i => decide (i < 256)
  | .geyserLaunchTick _ i => decide (i < 256)
  | .geyserHeldStart _ i => decide (i < 256)
  | .geyserTransmitDone _ i => decide (i < 256)
  | .snapshotEpoch .. => true
  | .snapshotRecordWrite _ banks => decide (banks.length ≤ 300) && banks.all fun b => decide (b.counters.length ≤ 256)
  | .intakePortConfig .. => true
  | .intakeStreamConfig .. => true
  | .intakeE2eConfig .. => true
  | .intakeStreamEnable .. => true
  | .intakeStreamDisable .. => true
  | .intakeResync .. => true
  | .intakeSetProfile .. => true
  | .intakeStreamStatus .. => true
  | .sensorPacketRx _ pkt => pkt.wf
  | .encoderSampleTick _ port _ _ _ _ => decide (port < 16)
  | .streamSilentTimeout _ st => decide (st < 64)
  | .queueRead _ st => decide (st < 64)
  | .qDropRestWrite _ st => decide (st < 64)
  | .tapDelivery _ tap => decide (tap < 16)
  | .churnOpenInstant .. => true
  | .churnCloseSchedule .. => true
  | .churnStreamRole .. => true
  | .churnSetEgo .. => true
  | .churnSetTransform .. => true
  | .churnInstantStatus .. => true
  | .egoExtTWrite .. => true
  | .instantOpen _ sched => decide (sched < 4)
  | .instantCloseWatermark _ sched => decide (sched < 4)
  | .instantCloseLimit _ sched => decide (sched < 4)
  | .instantRecordCommit _ sched _ => decide (sched < 4)
  | .revisionRecordCommit _ sched _ => decide (sched < 4)
  | .instantSeal _ sched _ => decide (sched < 4)
  | .churnPointFormat .. => true
  | .churnVoxelConfig .. => true
  | .churnOctreeConfig .. => true
  | .churnOctreeClear .. => true
  | .churnTableSplit .. => true
  | .tableSplitApply .. => true
  | .churnVoxelStatus .. => true
  | .pointFrameBuild .. => true
  | .churnTrackConfig .. => true
  | .churnAssociate .. => true
  | .churnTrackDrop .. => true
  | .churnTrackStatus .. => true
  | .planGridConfig .. => true
  | .planGridWrite .. => true
  | .planModelSet .. => true
  | .planCheck .. => true
  | .planSearch .. => true
  | .planStopConfig .. => true
  | .planStatus .. => true
  | .gridFill .. => true
  | .checkJob .. => true
  | .searchTimeout .. => true
  | .stopRecordBuild .. => true
  | .tensorMatmul .. => true
  | .tensorVector .. => true
  | .tensorSpconv .. => true
  | .tensorChain .. => true
  | .tensorRngSeed .. => true
  | .tensorCoreStatus .. => true
  | .attnFwd .. => true
  | .attnBwd .. => true
  | .rngSeedHiWrite _ core _ => decide (core < 14)
  | .descriptorStart _ core => decide (core < 14)
  | .tileComplete _ core _ => decide (core < 14)
  | .checkerRerunStart _ _ slot => decide (slot < 2)
  | .checkVerdict .. => true
  | .starterWindowOpen _ slot => decide (slot < 2)
  | .starterComplete _ slot _ => decide (slot < 2 ∨ (16 ≤ slot ∧ slot < 30))
  | .moveCopy .. => true
  | .moveConcat .. => true
  | .moveGather .. => true
  | .moveScatter .. => true
  | .moveQueueRead .. => true
  | .moveFrameRing .. => true
  | .movePushHost .. => true
  | .moveLinkConfig .. => true
  | .moveLinkRetrain .. => true
  | .linkRetrainStart .. => true
  | .moveLinkStatus .. => true
  | .moveCollective .. => true
  | .collMatchRecordRx _ collId rec => decide (collId < 2 ^ 32 ∧ rec.dev < 24 ∧ rec.exts.length ≤ 6)
  | .collTimeout .. => true
  | .linkSignalDetect _ port => decide (port < 8)
  | .linkEqualizeDone _ port width => decide (port < 8) && (match width with | some n => n == 1 || n == 2 || n == 4 | none => true)
  | .linkIdentifyRx _ port peer => decide (port < 8 ∧ peer.dev < 24 ∧ peer.port < 8 ∧ peer.nonce.length = 32)
  | .linkAuthConfirm _ port _ => decide (port < 8)
  | .linkLossOfLock _ port => decide (port < 8)
  | .linkFlitRx _ port _ _ => decide (port < 8)
  | .kvInit .. => true
  | .kvPoolCreate .. => true
  | .kvCellarConfig .. => true
  | .kvSeqCreate .. => true
  | .kvSeqFork .. => true
  | .kvSeqTruncate .. => true
  | .kvSeqRelease .. => true
  | .kvAppend .. => true
  | .kvPublish .. => true
  | .kvPrefetch .. => true
  | .kvSeqSend .. => true
  | .kvSeqRecv .. => true
  | .kvSetRole .. => true
  | .kvSeqStatus .. => true
  | .kvWalkEmit .. => true
  | .kvReclaim _ pool => decide (pool < 8)
  | .kvSpillDone _ pool page => decide (pool < 8 ∧ page < 0x1000000)
  | .kvFetchDone _ pool page _ => decide (pool < 8 ∧ page < 0x1000000)
  | .memArbConfig .. => true
  | .memArbStatus .. => true
  | .memErrStatus .. => true
  | .arbiterDecision _ arb arrivals => decide (arb < 58) && arrivals.all fun a => decide (a.input < 32 ∧ a.part < 8)
  | .arbiterSliceBoundary _ arb => decide (arb < 58)
  | .arbFreezeWrite _ _ arb _ => decide (arb < 58)
  | .safetyConfigLoad .. => true
  | .safetyBandLoad .. => true
  | .safetyFramesetConfig .. => true
  | .safetySafeState .. => true
  | .safetyStatus .. => true
  | .safetyStandbyConfig .. => true
  | .safetyTrajOffer .. => true
  | .safetyReflexMode .. => true
  | .safetyReflexStatus .. => true
  | .heartbeatTx .. => true
  | .heartbeatRx _ dev => decide (dev < 24)
  | .heartbeatMissTimeout _ dev => decide (dev < 24)
  | .reflexLoopRelease _ n => decide (n < 8)
  | .reflexLoopComplete _ n _ _ _ run => decide (n < 8) && run.ops.all fun m => decide (1 ≤ m.rows ∧ m.rows ≤ 64)
  | .trajSwap .. => true
  | .trajStarved .. => true
  | .stopStandstill .. => true
  | .safeAliveToggle .. => true
  | .secGetIdentity .. => true
  | .secAttest .. => true
  | .secRollbackCommit .. => true
  | .secRootRevoke .. => true
  | .secWeightLoad .. => true
  | .secWeightRelease .. => true
  | .secConfidentialEnter .. => true
  | .secDebugUnlock .. => true
  | .porstLow .. => true
  | .coldStart .. => true
  | .vcorePgTimeout .. => true
  | .hbmInitDone .. => true
  | .imageVerifyDone .. => true
  | .bivexaReady .. => true
  | .p0WarmResetRequest .. => true
  | .mainResetEntry .. => true
  | .mainDomainRelease .. => true
  | .supplyWarning .. => true
  | .supplyRestored .. => true
  | .vcoreResetThreshold .. => true
  | .supplyResetThreshold .. => true
  | .vcoreRecovered .. => true
  | .tjSample .. => true
  | .refclkLost .. => true
  | .refclkRestored .. => true
  | .vcorePgSeen .. => true
  | .vaonPowerOnRelease .. => true
  | .canArbitrationLost _ i => decide (i < 256)
  | .starterWindowClose _ slot => decide (slot < 2)
  | .starterDigestCheck .. => true
  | .checkerWaitTimeout .. => true
  | .linkRekey _ port _ => decide (port < 8)
  | .linkDetectRetry _ port => decide (port < 8)
  | .ptpMessageInterval _ tb _ => decide (tb < 8)
  | .kvSeqRecvTimeout .. => true
  | .bridgeTransparentCorrect _ inPort outPort tb frame .. =>
    decide (inPort < 8 ∧ outPort < 8 ∧ tb < 8 ∧ 64 ≤ frame.length ∧ frame.length ≤ 1522)
  | .ppsMissingTimeout _ tb => decide (tb < 8)
  | .ptpAnnounceTimeout _ tb => decide (tb < 8)
  | .shortTbEntryHandoff _ i => decide (i < 256)
  | .shortTbWrapRead _ tb => decide (tb < 8)
  | .islandMonitorFail .. => true
  | .lockstepMismatch .. => true
  | .patrolScrub .. => true
  | .hostCompletionTimeout .. => true
  | .avsRetry .. => true
  | .queuePtrMismatch _ st _ => decide (st < 64)
  | .egoInvalidTimeout .. => true
  | .kvFetchTimeout _ pool page => decide (pool < 8 ∧ page < 0x1000000)
  | .controlCoreWatchdogTimeout _ cc => decide (1 ≤ cc ∧ cc ≤ 7)
  | .warmBoundTimeout .. => true
  | .vcoreRecoveryTimeout .. => true
  | .stopMirrorCopy .. => true

end Sys2Proof
end

