-- ==== Sys2Proof/Safety.lean ====
section
/-! DEFINITION. The terms that claims use: what a command does, when the row of a host command runs, what a safe state is, and what a
safe run keeps. -/
namespace Sys2Proof.Machine

/-- A command answers the next state t, closed as every row is: the work of ended commands gone, the queue as it was, dt ticks
later. -/
def Completes (i : Instr) (s t : State) : Prop := exec i s = .next (s.close i.dt t)

/-- The row of host command `id` finds it RUNNING, with the row's code, for the first time, dt ticks after s. -/
def Runs (s : State) (dt id code : Nat) (c : Cmd) : Prop := (s.elapse dt).runs id code = some c

/-- The state in which the row of a host command acts. -/
def State.atRow (s : State) (dt id : Nat) : State := (s.elapse dt).start id

/-- The canonical form of a memory: strictly rising addresses, no entry equal to what an unlisted address reads as. -/
def Memory.wf (m : List Host.Cell) : Bool := swf 0 m

/-- Device memory, Island memory and the mailboxes are in their canonical form. -/
def State.memOk (s : State) : Bool := Memory.wf s.mem && Memory.wf s.island && Memory.wf s.hp.mbox

/-- No engine works for a command that has ended: every core descriptor, chain, movement, peer transfer, collective, page walk and held slot
belongs to a RUNNING command (R106, R121). -/
def State.WorkRuns (s : State) : Prop :=
  (∀ j ∈ s.tar.jobs, s.isRunning j.cmd = true) ∧ (∀ k ∈ s.tar.chains, s.isRunning k.cmd = true) ∧
  (∀ m ∈ s.mmv.moves, s.isRunning m.cmd = true) ∧ (∀ e ∈ s.mmv.peers, s.isRunning e.1 = true) ∧
  (∀ k ∈ s.mmv.colls, s.isRunning k.cmd = true) ∧ (∀ w ∈ s.kv.walks, s.isRunning w.cmd = true) ∧ (∀ e ∈ s.tar.slots, s.isRunning e.1 = true)

/-- A step that answers a next state. -/
def Steps (s t : State) : Prop := step s = .next t

/-- Command `id` is RUNNING with the row's code, and j is the one descriptor of it that is started and has not run: outside window
schedules, with no uncorrectable line in its tensors. -/
def Ready (s : State) (id code : Nat) (c : Cmd) (j : TJob) : Prop :=
  s.cmd? id = some c ∧ c.state = .running ∧ c.code = code ∧ s.readyJobs id = [j] ∧ s.inSchedule j.core = false ∧
  ∀ e ∈ j.ds, s.tensorUe e.2 = none

/-- What the kernel k of an unchecked descriptor leaves: its rows stored, results and counters updated, the descriptor ended with
verdict 0. -/
def State.afterKernel (s : State) (j : TJob) (k : Kernel) : State :=
  ((((({ s with freeCtr := s.freeCtr + 8 }).putRows k).kernelResults j k).kernelCounts j k).updJob j.seq
    fun x => { x with ran := true, ranAt := ((({ s with freeCtr := s.freeCtr + 8 }).putRows k).kernelResults j k |>.kernelCounts j k).ns }).endJob j 0

/-- Movement j of a RUNNING command whose row is due: all its tensors are here and nothing earlier in flight writes where it reads or
writes. -/
def Moves (s : State) (dt id code : Nat) (c : Cmd) (j : MoveJob) : Prop :=
  Runs s dt id code c ∧ (s.elapse dt).mmv.moves.find? (fun x => x.cmd == id) = some j ∧ (s.elapse dt).moveWaits id = false ∧
  ∀ e ∈ j.ds, (s.elapse dt).isLocal e.2 = true

/-- Two states hold the same bytes of device memory at every address that p allows. -/
def SameMem (s t : State) (p : Nat → Prop) : Prop := ∀ a, p a → t.rdByte a = s.rdByte a

/-- Two states hold the same value in every register that p allows. -/
def SameRegs (s t : State) (p : Reg → Prop) : Prop := ∀ r, p r → t.reg r = s.reg r

end Sys2Proof.Machine
end

