-- ==== Sys2Proof/Certificates/Slice0/Obligations.lean ====
section
/-! DEFINITION. The statements for the provers: where each command completes and with what effect, family by family; the frames, the
queue, reset and the invariant of steps. `Completes i s t` says that the row answers t closed as every row is (Safety.lean). -/

section
open Sys2Proof Sys2Proof.Machine

/-- CONFIG_REQUEST, PCIE_PERST_RELEASE, PCIE_LINK_UP, PCIE_D3HOT_ENTRY and PCIE_D0_RETURN (R59 to R63): a configuration request is
answered as soon as the link is up, at any stage, and a write that unmasks sends the messages that were pending (R85); the link comes up once PERST# is high, the PHYs are released and the reference clock is
there; D3hot stops the host port and D0 sends what waited. -/
def Obligations.LinkCommandsComplete : Prop := ∀ (dt : Nat) (s : State), let u := s.elapse dt
  (∀ r, u.hp.linkUp = true → Completes (.configRequest dt r none) s (u.emit (.cfgRead (u.cfgRead r).toNat))) ∧
  (∀ v, u.hp.linkUp = true →
    Completes (.configRequest dt .command (some v)) s ({ u with hp := { u.hp with cfgCommand := v &&& 0xFFFF#32 } }).sendPending ∧
    Completes (.configRequest dt .devControl (some v)) s { u with hp := { u.hp with cfgDevControl := v &&& 0xFFFF#32 } } ∧
    Completes (.configRequest dt .msixControl (some v)) s ({ u with hp := { u.hp with cfgMsix := v &&& 0xC0000000#32 } }).sendPending ∧
    ∀ r, Completes (.configRequest dt r (some v)) s (u.cfgWrite r v)) ∧
  Completes (.pciePerstRelease dt) s { u with hp := { u.hp with perstHigh := true } } ∧
  (u.hp.perstHigh = true → u.pwr.phyUp = true → u.pwr.refs.contains .pcie = true →
    Completes (.pcieLinkUp dt) s { u with hp := { u.hp with linkUp := true } }) ∧
  (u.hp.linkUp = true → Completes (.pcieD3hotEntry dt) s { u with hp := { u.hp with d3hot := true } }) ∧
  (u.hp.d3hot = true → Completes (.pcieD0Return dt) s ({ u with hp := { u.hp with d3hot := false } }).sendPending)

/-- PCIE_LINK_RESET, PCIE_ERROR, HOST_LINK_RESTORED and HOST_COMPLETION_TIMEOUT (R62, R63, R93): after a hot reset the link is down, the
mailboxes hold their reset contents, the host port registers read their reset values and a response that waited is counted as discarded;
every error is logged, and an Unsupported Request is answered; the first event of the restored link, after EV_RESET_REPORT where that
waits, carries its three counts; a push whose read-back timed out ends FAILED with ST_HOST_TIMEOUT. -/
def Obligations.LinkEventsComplete : Prop := ∀ (dt : Nat) (s : State), let u := s.elapse dt
  (∀ cause, (u.hp.linkUp = true ∨ cause = .perst) → u.ccx.funcs = [] → (∀ p < 8, (u.part p).stop = none) → (∀ c ∈ u.ccx.cmds, c.state ≠ .running) →
    ∃ t, exec (.pcieLinkReset dt cause) s = .next t ∧ t.hp.linkUp = false ∧ t.hp.mbox = mboxReset ∧
      t.hp.perstHigh = (u.hp.perstHigh && cause != .perst) ∧
      t.hp.rspQ = [] ∧ t.reg .ccxHpDportPtr = 0 ∧ t.hp.rspDiscarded = u.hp.rspDiscarded + u.hp.rspQ.length) ∧
  (∀ e, u.hp.linkUp = true → pcieFatal e = false → e ≠ .uncorrectableInternal → e ≠ .unsupportedRequest →
    Completes (.pcieError dt e) s ((({ u with hp := { u.hp with aer := u.hp.aer ++ [e] } }).countSat .ccxHpErrCnt
      (if pcieCorrectable e = true then 0 else 16) 16).cause 5)) ∧
  (u.hp.linkUp = true → Completes (.pcieError dt .uncorrectableInternal) s ((u.logAer .uncorrectableInternal).raise 0x0106 0)) ∧
  (∀ e, u.hp.linkUp = true → pcieFatal e = true → Completes (.pcieError dt e) s ((u.logAer e).linkReset false)) ∧
  (u.hp.restoreDue = true → u.hp.linkUp = true → u.ready = true → bit u.hp.cfgCommand 2 = true → bit u.hp.cfgMsix 31 = true →
    let n := (u.ccx.cmds.filter fun c => c.state == .running).length
    let e : Event := { code := 0x0102, inst := u.now, data := leBytes 4 u.hp.rspDiscarded ++ leBytes 4 u.hp.evtDiscarded ++ leBytes 4 n }
    ∃ t, exec (.hostLinkRestored dt) s = .next t ∧ t.hp.restoreDue = false ∧ t.hp.evtDiscarded = 0 ∧
      t.hp.evtQ = (match u.hp.evtQ with | [] => [e] | x :: rest => if x.code = 0x0A08 then x :: e :: rest else e :: x :: rest)) ∧
  (∀ id c, u.cmd? id = some c → c.state = .running → u.hp.reads.contains id = true →
    Completes (.hostCompletionTimeout dt id) s ((u.logAer .completionTimeout).failCmd id 0x42).settle) ∧
  (∀ cause, (u.hp.linkUp = true ∨ cause = .perst) → Completes (.pcieLinkReset dt cause) s (u.linkReset (cause == .perst))) ∧
  (u.hp.linkUp = true → Completes (.pcieError dt .unsupportedRequest) s ((u.logAer .unsupportedRequest).emit .unsupported))

/-- MBOX_SLOT_WRITE, COMMAND_ACCEPT, RESPONSE_WRITE and EVENT_SLOT_WRITE (R70 to R82): a write into a slot that the host owns stores its
bytes and hands the slot over when it sets the own bit; the oldest posted slot becomes a command, or ends FAILED with the first check that it
does not pass; the oldest response and the oldest event
go into the next slots of their rings, with sequence number and cause. -/
def Obligations.MailboxCommandsComplete : Prop := ∀ (dt : Nat) (s : State), let u := s.elapse dt
  (∀ off bytes, u.hostOpen = true → u.ready = true → off < 0x2000 → bytes ≠ [] → u.slotOwn (off / 256) = false →
    (u.wrMb off (bytes.take (256 * (off / 256 + 1) - off))).slotOwn (off / 256) = true →
    ∃ t, exec (.mboxSlotWrite dt off bytes false) s = .next t ∧ t.hp.posted = u.hp.posted ++ [off / 256] ∧
      t.hp.mbox = ssetAll 0 u.hp.mbox off (bytes.take (256 * (off / 256 + 1) - off))) ∧
  (∀ slot rest, let v := u.pruneCmds; let c := v.slotCmd slot
    u.hp.posted = slot :: rest → v.ready = true → (v.ccx.cmds.filter fun c => !c.responded).length < 1024 →
    v.acceptErr c (v.slotLen slot) = none →
    Completes (.commandAccept dt) s ((v.takeSlot slot c).admitted c).settle) ∧
  (∀ id rest c, u.hp.rspQ = id :: rest → u.ready = true → u.hp.linkUp = true → u.hp.d3hot = false → u.slotOwn (32 + u.hp.rspNext) = true →
    u.cmd? id = some c →
    ∃ t, exec (.responseWrite dt) s = .next t ∧ (c.irq = true → bit (t.reg .ccxHpIrqStat) 0 = true) ∧ t.hp.rspQ = rest ∧ t.hp.rspNext = (u.hp.rspNext + 1) % 32 ∧
      t.hp.rspSeq = (u.hp.rspSeq + 1) % 2 ^ 32 ∧ t.hp.mbox = ssetAll 0 u.hp.mbox (0x2000 + 256 * u.hp.rspNext) (u.response c)) ∧
  (∀ e rest, u.hp.evtQ = e :: rest → u.ready = true → u.hp.linkUp = true → u.hp.d3hot = false → u.hp.restoreDue = false →
    u.slotOwn (64 + u.hp.evtNext) = true →
    ∃ t, exec (.eventSlotWrite dt) s = .next t ∧ t.hp.evtQ = rest ∧ t.hp.evtNext = (u.hp.evtNext + 1) % 32 ∧ t.hp.evtLost = 0 ∧
      t.hp.mbox = ssetAll 0 u.hp.mbox (0x4000 + 256 * u.hp.evtNext) (u.eventBytes e) ∧
      bit (t.reg .ccxHpIrqStat) (if e.code / 256 = 8 ∨ e.code / 256 = 9 then 2 else 1) = true) ∧
  (∀ off bytes, let v := u.wrMb off (bytes.take (256 * (off / 256 + 1) - off))
    u.hostOpen = true → u.ready = true → off < 0x6000 → bytes ≠ [] → u.slotOwn (off / 256) = false →
    Completes (.mboxSlotWrite dt off bytes false) s (if v.slotOwn (off / 256) then v.handOver (off / 256) else v)) ∧
  (∀ slot rest st, let v := u.pruneCmds; let c := v.slotCmd slot
    u.hp.posted = slot :: rest → v.ready = true → (v.ccx.cmds.filter fun c => !c.responded).length < 1024 →
    v.acceptErr c (v.slotLen slot) = some st →
    Completes (.commandAccept dt) s ((v.takeSlot slot c).failCmd c.id st).settle)

/-- COMMAND_DISPATCH, COMMAND_COMMIT and CTRL_ABORT (R73, R98 to R107, R509): a command that nothing holds and whose unit has room becomes RUNNING
with the memory of now as what its row reads, and its unit takes it; a
command whose unit has finished ends with that unit's status, one that has finished well with the status of its deadline; an abort of a command that has ended
reports it, an abort of another one that may be aborted ends it ABORTED, and an abort that has acted at its acceptance commits. -/
def Obligations.LifecycleCommandsComplete : Prop := ∀ (dt id : Nat) (s : State) (c : Cmd), let u := s.elapse dt
  (let v := u.updCmd id fun x => { x with state := .running, ranAt := u.now, seen := if c.readsNow then none else some u.mem };
    u.cmd? id = some c → c.state = .accepted → u.ready = true → u.held c = false → u.funcRefuses c = false → c.aux.contains 0x11 = false →
    u.room c = true →
    Completes (.commandDispatch dt id) s (v.clearOuts c (v.begin_ { c with state := .running, ranAt := u.now })).settle) ∧
  (u.cmd? id = some c → c.state = .running → c.verdict = some 0 → c.code ≠ 0x0421 → c.code ≠ 0x0505 → c.code ≠ 0x075A →
    Completes (.commandCommit dt id) s (u.complete c.id (u.doneStatus c)).settle) ∧
  (∀ x, Runs s dt id 0x0102 c → c.aux = [] → c.p 0x20 1 ≤ 7 → (s.atRow dt id).abortTarget c = some x → x.code ≠ 0x0102 →
    x.state.final = true →
    Completes (.ctrlAbort dt id) s (((s.atRow dt id).setResult c.id 0x20 (abortResult x)).finish c.id 0x01).settle) ∧
  (∀ n, u.cmd? id = some c → c.state = .running → c.verdict = some n → n ≠ 0 →
    Completes (.commandCommit dt id) s (if n < 0x10 then u.complete c.id n else u.failCmd c.id n).settle) ∧
  (u.cmd? id = some c → c.state = .running → c.verdict = some 0 →
    (c.code = 0x0421 → Completes (.commandCommit dt id) s (commitAssoc c u).settle) ∧
    (c.code = 0x0505 → Completes (.commandCommit dt id) s (commitSearch c u).settle) ∧
    (c.code = 0x075A → Completes (.commandCommit dt id) s ((if c.discard then u else u.commitSend c).done c).settle)) ∧
  (∀ x, let w := s.atRow dt id
    Runs s dt id 0x0102 c → c.aux.contains 1 = false → c.p 0x20 1 ≤ 7 → w.abortTarget c = some x → w.notAbortable x = false → x.state.final = false →
    let t := w.abortNow x
    Completes (.ctrlAbort dt id) s (match t.cmd? x.id with
      | some y => (t.setResult c.id 0x20 (abortResult y)).done c
      | none => t.done c).settle) ∧
  (Runs s dt id 0x0102 c → c.aux.contains 1 = true → Completes (.ctrlAbort dt id) s ((s.atRow dt id).done c).settle)

/-- MSIX_MODERATION_EXPIRY and MSIX_UNMASK (R85): a merged cause is sent as one message once its gap is over, and a cleared mask lets the
pending messages go. -/
def Obligations.MsixCommandsComplete : Prop := ∀ (dt : Nat) (s : State), let u := s.elapse dt
  (∀ v, u.hp.modMerged.contains v = true → u.inGap v = false →
    Completes (.msixModerationExpiry dt v) s (({ u with hp := { u.hp with modMerged := u.hp.modMerged.filter fun x => x != v } }).msixSend v)) ∧
  (u.hostOpen = true → Completes (.msixUnmask dt none) s ({ u with hp := { u.hp with cfgMsix := setBit u.hp.cfgMsix 30 false } }).sendPending) ∧
  (∀ i, u.hostOpen = true → i < 8 →
    Completes (.msixUnmask dt (some i)) s (u.modReg (.msixEntry i 3) fun x => setBit x 0 false).sendPending)

/-- DPORT_PTR_WRITE, DPORT_WRITE and DPORT_READ at stage READY (R67, R86, R87): the pointer takes an aligned value, the enabled bytes of a
write TLP are stored at the pointer and a read returns the bytes there, and both move the pointer past the TLP; at stage LOAD a write inside the
load region is stored, and the boot ROM sees it arrive (R123). -/
def Obligations.DataPortCommandsComplete : Prop := ∀ (dt : Nat) (s : State), let u := s.elapse dt; let ptr := (u.reg .ccxHpDportPtr).toNat
  (∀ v, u.hostOpen = true → u.stage = 5 → ∃ t, exec (.dportPtrWrite dt (.full v)) s = .next t ∧
    t.reg .ccxHpDportPtr = v &&& ~~~(3#64) ∧ SameRegs u t (· ≠ .ccxHpDportPtr)) ∧
  (∀ v, u.hostOpen = true → Completes (.dportPtrWrite dt (.high v)) s { u with hp := { u.hp with dportHigh := some v } }) ∧
  (∀ v h, u.hostOpen = true → u.stage = 5 → u.hp.dportHigh = some h → ∃ t, exec (.dportPtrWrite dt (.low v)) s = .next t ∧
    t.reg .ccxHpDportPtr = (h ++ v) &&& ~~~(3#64) ∧ t.hp.dportHigh = none) ∧
  (∀ dws first last, u.hostOpen = true → u.stage = 5 → u.access .host .other true ptr (4 * dws.length) = none →
    Completes (.dportWrite dt dws first last false) s ((u.storeTlp ptr (tlpBytes dws first last)).advancePtr dws.length)) ∧
  (∀ n, u.hostOpen = true → u.stage = 5 → u.access .host .other false ptr (4 * n) = none → u.poisoned ptr (4 * n) = false →
    Completes (.dportRead dt n) s ((u.emit (.readData (u.rdSeen ptr (4 * n)) false)).advancePtr n)) ∧
  (∀ v, u.hostOpen = true → Completes (.dportPtrWrite dt (.full v)) s (u.setPtr v)) ∧
  (∀ dws first last, u.hostOpen = true → u.stage = 2 → inside ptr (4 * dws.length) loadBase loadSize = true →
    let b := tlpBytes dws first last
    Completes (.dportWrite dt dws first last false) s (((u.storeTlp ptr b).headerArrives ptr b).passTlp ptr dws.length))

/-- WARM_RESET_REQUEST_WRITE and REGISTER_WRITE (R69, R10, R31): the second write of the sequence within 1 ms asks the Island for a warm
reset; a write that reaches a register replaces its writable bits, where no rule turns the write away (R141) and a time base in use keeps
its format (R132); a write to the issue gate sets the duty; and a period that Bivexa writes changes no other register. -/
def Obligations.RegisterCommandsComplete : Prop := ∀ (dt : Nat) (s : State), let u := s.elapse dt
  (u.hostOpen = true → Completes (.warmResetRequestWrite dt 0xA5C3#32) s { u with hp := { u.hp with warmSeq := some u.ns } }) ∧
  (∀ at_, u.hostOpen = true → u.hp.warmSeq = some at_ → u.ns ≤ at_ + 1000000 →
    Completes (.warmResetRequestWrite dt 0x5752#32) s (({ u with hp := { u.hp with warmSeq := none } }).request 1)) ∧
  (∀ r who v, let x := r.written (u.reach who r) (u.reg r) (setFld 0 0 32 (fld v 0 32))
    Reg.ofAddr r.addr = some r → r.ownRow = false → r.wide = false → r ≠ .tarIssueGate → u.reach who r ≠ 0 →
    (who = .host → r.addr < csrBase) → u.turnsAway r x = false →
    (∀ n, r = .tnuTbCtl n → bit x 8 = bit (u.reg r) 8 ∨ u.tbReferred n = false) →
    ∃ t, exec (.registerWrite dt who r.addr 4 v) s = .next t ∧ t.reg r = x) ∧
  (∀ n v, n < 64 → u.stage = 5 →
    ∃ t, exec (.registerWrite dt .bivexa (Reg.addr (.siuStreamPeriod n)) 4 v) s = .next t ∧
      t.reg (.siuStreamPeriod n) = (u.reg (.siuStreamPeriod n) &&& 0xFFFFFFFF00000000) ||| (v &&& 0xFFFFFFFF) ∧
      SameRegs u t (· ≠ .siuStreamPeriod n)) ∧
  (∀ r who v, Reg.ofAddr r.addr = some r → r.ownRow = false → r.wide = true → u.reach who r ≠ 0 → (who = .host → r.addr < csrBase) →
    ∃ t, exec (.registerWrite dt who r.addr 8 v) s = .next t ∧ t.reg r = r.written (u.reach who r) (u.reg r) v) ∧
  (∀ v, u.stage = 5 → v.toNat < 65 → v ≠ 0 → Completes (.registerWrite dt .bivexa (Reg.addr .tarIssueGate) 4 v) s (u.setGate v.toNat))

/-- The Power group and POWER_STATUS (R48, R49, R53, R95, R475, R487): each command with its parameters in range stores them and commits, or
answers the table or the status that it reports. -/
def Obligations.PowerCommandsComplete : Prop := ∀ (dt id : Nat) (s : State) (c : Cmd), let u := s.atRow dt id
  (Runs s dt id 0x0A01 c → 60 ≤ c.p 0x20 2 → c.p 0x20 2 ≤ 260 → 10 ≤ c.p 0x22 2 → c.p 0x22 2 ≤ 1000 →
    Completes (.powerSetLimit dt id) s
      ((({ u with gov := { u.gov with windowMs := c.p 0x22 2 } }).setReg .ccxPwrPpl (BitVec.ofNat 64 (c.p 0x20 2))).done c).settle) ∧
  (Runs s dt id 0x0A02 c → c.p 0x20 1 ≤ 2 → 10 ≤ c.p 0x24 4 → c.p 0x24 4 ≤ 10000 →
    let t := if u.gov.avsBad then u.gov.target else if c.p 0x20 1 = 1 then 750 else Nat.min u.gov.target (ceilingMv (c.p 0x20 1))
    let g : Gov := { u.gov with ceiling := c.p 0x20 1, burstMs := c.p 0x24 4, target := t }
    Completes (.powerSetPolicy dt id) s (({ u with gov := g }).done c).settle) ∧
  (Runs s dt id 0x0A03 c → c.p 0x20 1 ≤ 50 →
    Completes (.powerSetMargin dt id) s (({ u with gov := { u.gov with margin := c.p 0x20 1 } }).done c).settle) ∧
  (Runs s dt id 0x0A04 c → 35088 ≤ c.p 0x28 4 → bit (u.reg .ssiSecStat) 31 = false → u.busMaster = true →
    Completes (.powerReadPaceTable dt id) s
      (((u.push c.id (c.p 0x20 8) (u.paceTable.flatMap fun e => leBytes 8 e.toNat) false).setResult c.id 0x20 (leBytes 4 4386)).setVerdict c.id 0).settle) ∧
  (let n := c.p 0x28 4 / 8; let b := u.tableAt c (c.p 0x20 8) (c.p 0x28 4)
    let r := (List.range n).foldl (fun (x : State × Nat × Nat) i =>
      let y := x.1.loadEntry (BitVec.ofNat 64 (numAt b (8 * i) 8))
      (y.1, if y.2 then (x.2.1 + 1, x.2.2) else (x.2.1, x.2.2 + 1))) (u, 0, 0)
    Runs s dt id 0x0A05 c → c.p 0x28 4 % 8 = 0 → c.p 0x28 4 ≤ 35088 → u.tableErr c.tableReq (c.p 0x20 8) (c.p 0x28 4) = none →
    Completes (.powerLoadPaceTable dt id) s (r.1.doneWith c (leBytes 4 r.2.1 ++ leBytes 4 r.2.2)).settle) ∧
  (Runs s dt id 0x0A06 c → 460 ≤ c.p 0x20 2 → c.p 0x20 2 ≤ 700 → c.p 0x20 2 + 20 ≤ ceilingMv u.gov.ceiling → c.p 0x20 2 + 20 ≤ u.vset →
    Completes (.powerSetWarn dt id) s ((u.setReg .ssiPwrVcoreWarn (BitVec.ofNat 64 (c.p 0x20 2))).done c).settle) ∧
  (Runs s dt id 0x0A06 c → 460 ≤ c.p 0x20 2 → c.p 0x20 2 ≤ 700 → c.p 0x20 2 + 20 ≤ ceilingMv u.gov.ceiling → u.gov.avsBad = false →
    ∃ t, exec (.powerSetWarn dt id) s = .next t ∧ t.reg .ssiPwrVcoreWarn = BitVec.ofNat 64 (c.p 0x20 2) ∧
      t.vset = Nat.max u.vset (c.p 0x20 2 + 20)) ∧
  (Runs s dt id 0x0A07 c →
    Completes (.powerStatus dt id) s (u.doneWith c (([.ssiPwrStat, .ssiPwrVcoreWarn, .ssiPwrColdSrc, .ssiPwrTj, .ssiPwrWarnCnt,
      .ssiPwrRstCnt] : List Reg).flatMap fun r => leBytes 4 (u.reg r).toNat)).settle)

/-- The governor's events (R38, R40, R44 to R47, R50, R54, R478): at a boundary of its interval a subsystem latches its counts; the set point
moves one step of at most 25 mV toward what the limits allow; the power average is recorded, and above the PPL the set point aimed at falls 25 mV;
a burst over its limit returns to 0.75 V and bars the next one for as long as it lasted; a hot part falls 25 mV, or 1/64 of the gate under an
AVSBus fault; the third bad AVSBus transfer is an AVSBus fault and a good retry ends it; a merge at a quiet interval keeps no statistics. -/
def Obligations.GovernorEventsComplete : Prop := ∀ (dt : Nat) (s : State), let u := s.elapse dt
  (∀ ss ops probes, u.pwr.mainUp = true → ss < 8 → ss ≠ 5 → u.ivEnds ss = true →
    Completes (.paceIntervalEnd dt ss ops probes) s ((u.setPaceIv ss (u.nextIv ss)).latchPace ss ops probes).watermarks) ∧
  (∀ ops probes, u.pwr.mainUp = true → u.ivEnds 5 = true →
    Completes (.paceIntervalEnd dt 5 ops probes) s ((u.setPaceIv 5 (u.nextIv 5)).latchPace 5 ops probes).updatePace.watermarks) ∧
  (∀ v, u.gov.avsBad = false → u.ready = true → u.stepReady true = true → u.vset ≤ 900 → (u.reg .ssiPwrVcoreWarn).toNat ≤ 880 →
    ∃ t, exec (.avsSetPointStep dt ⟨v, true⟩) s = .next t ∧ t.vset = stepToward u.vset u.clampTarget ∧
      t.vset ≤ u.vset + 25 ∧ u.vset ≤ t.vset + 25 ∧ t.reg .ccxPwrVmeas = BitVec.ofNat 64 v) ∧
  (∀ amps rest busy, u.ready = true → ∃ t, exec (.powerLimitTick dt ⟨amps, rest⟩ busy) s = .next t ∧
    t.gov.samples = (u.pkgPower ⟨amps, rest⟩ :: u.gov.samples).take 1000 ∧ t.gov.busyPct = Nat.min busy 100 ∧
    (t.overPpl = true → u.gov.avsBad = false → t.gov.target = t.floorMv ∨ t.gov.target + 25 ≤ u.vset)) ∧
  (∀ at_, u.ready = true → u.gov.burstAt = some at_ → u.burstAllowed = false → u.gov.avsBad = false → 750 < u.vset →
    ∃ t, exec (.burstEnd dt) s = .next t ∧ t.vset = 750 ∧ t.gov.burstAt = none ∧ t.gov.target ≤ 750 ∧ t.gov.holdUntil = u.ns + (u.ns - at_)) ∧
  (u.ready = true → u.hot = true → u.gov.avsBad = false → (∀ t0, u.gov.thermalAt = some t0 → t0 + 1000000 ≤ u.ns) →
    ∃ t, exec (.thermalThrottleTick dt) s = .next t ∧ t.gov.target = Nat.max u.floorMv (Nat.min u.gov.target (u.vset - 25)) ∧
      (t.gov.target < u.vset → u.vset < 2 ^ 64 → t.vset = stepToward u.vset t.gov.target)) ∧
  (u.ready = true → u.hot = true → u.gov.avsBad = true → (∀ t0, u.gov.thermalAt = some t0 → t0 + 1000000 ≤ u.ns) →
    Completes (.thermalThrottleTick dt) s
      (({ u with gov := { u.gov with thermalAt := some u.ns } }).setGate (Nat.max 1 (u.gate - 1)))) ∧
  (u.ready = true → u.gov.avsBad = false →
    Completes (.avsFault dt) s ((({ u with gov := { u.gov with avsBad := true, avsAt := u.ns } }).setFlag 2).raise 0x0A02 0)) ∧
  (u.gov.avsBad = true → u.gov.avsAt + 1000000000 ≤ u.ns →
    let v := u.emit (.avs 0 .statusRead)
    Completes (.avsRetry dt true) s
      { v with gov := { v.gov with avsBad := false, target := Nat.min v.gov.target (ceilingMv v.gov.ceiling) } } ∧
    Completes (.avsRetry dt false) s { v with gov := { v.gov with avsAt := u.ns } }) ∧
  (u.ready = true → u.quiet = true → ∃ t, exec (.paceTableMerge dt) s = .next t ∧ t.gov.stats = [] ∧ ∀ n < 64, (t.strm n).calMax = []) ∧
  (∀ v, u.gov.avsBad = false → u.ready = true → u.stepReady true = true → ∃ t, exec (.avsSetPointStep dt ⟨v, true⟩) s = .next t ∧
    t.reg .ccxPwrVmeas = BitVec.ofNat 64 v ∧
    t.reg .ccxPwrVset = (if u.vset = u.clampTarget then u.reg .ccxPwrVset else BitVec.ofNat 64 (stepToward u.vset u.clampTarget)) ∧
    (u.gov.target < u.floorMv → bit (t.reg .ccxPwrFlags) 3 = true)) ∧
  (u.ready = true → u.gov.burstAt ≠ none → u.burstAllowed = false → (u.gov.avsBad = true ∨ u.vset ≤ 750) →
    Completes (.burstEnd dt) s { u with gov := { u.gov with target := Nat.min u.gov.target 750 } })

/-- CTRL_FUNC_DISABLE and CTRL_FUNC_ENABLE (R108 to R111): a disable acts at its acceptance, else at its row: a first one records the function with
the commands it waits for, ends the queued ones FAILED with ST_FUNCTION_DISABLED and marks the RUNNING ones under DISCARD, and another one joins it; a disable
of a function whose disable has committed changes nothing; an enable of a function whose disable has committed takes it
back into use, and one that nothing disables only ends. -/
def Obligations.FunctionCommandsComplete : Prop := ∀ (dt id : Nat) (s : State) (c : Cmd), let u := s.atRow dt id
  let kind := c.p 0x20 1; let mode := c.p 0x21 1; let idx := c.p 0x22 2; let ms := c.p 0x24 4
  let queued := u.ccx.cmds.filter fun x => u.isFor x kind idx && x.state == .accepted
  let running := u.ccx.cmds.filter fun x => u.isFor x kind idx && x.state == .running
  let rec_ : FuncRec := { kind := kind, idx := idx, discard := mode == 1, due := c.acceptNs + (if ms = 0 then 100 else ms) * 1000000, waiting := running.map (·.id)
                          cmds := [c.id], ended := running.length, failed := queued.length, committed := false }
  let v := queued.foldl (fun (s : State) x => s.failCmd x.id 0x18) (u.setFuncs fun l => l ++ [rec_])
  let w := if mode = 1 then v.discardAll (running.map (·.id)) else v
  (Runs s dt id 0x0103 c → c.aux = [] → funcExists kind idx = true → mode ≤ 1 → ms ≤ 10000 → (∀ f ∈ u.ccx.funcs, f.kind ≠ kind ∨ f.idx ≠ idx) →
    Completes (.ctrlFuncDisable dt id) s
      (if kind = 2 then w.disableAlign (mode == 1) else if kind = 3 ∧ mode = 1 then w.discardFrame else w).settle) ∧
  (∀ f, Runs s dt id 0x0103 c → c.aux = [] → funcExists kind idx = true → mode ≤ 1 → ms ≤ 10000 →
    u.ccx.funcs.find? (fun f => f.kind == kind && f.idx == idx) = some f → f.committed = true →
    Completes (.ctrlFuncDisable dt id) s (u.doneWith c (leBytes 8 0)).settle) ∧
  (Runs s dt id 0x0104 c → funcExists kind idx = true → (∀ f ∈ u.ccx.funcs, f.kind ≠ kind ∨ f.idx ≠ idx) → u.funcOff kind idx = false →
    Completes (.ctrlFuncEnable dt id) s (u.done c).settle) ∧
  (Runs s dt id 0x0104 c → funcExists kind idx = true → (∀ f ∈ u.ccx.funcs, f.kind = kind → f.idx = idx → f.committed = true) →
    u.funcOff kind idx = true → kind ≠ 2 →
    Completes (.ctrlFuncEnable dt id) s ((u.setFuncs fun l => l.filter fun f => !(f.kind == kind && f.idx == idx)).done c).settle) ∧
  (∀ f, Runs s dt id 0x0103 c → c.aux = [] → funcExists kind idx = true → mode ≤ 1 → ms ≤ 10000 →
    u.ccx.funcs.find? (fun f => f.kind == kind && f.idx == idx) = some f → f.committed = false → u.disabledBefore c = false →
    let j := u.setFuncs (updFirst (fun f => f.kind == kind && f.idx == idx) fun f => { f with discard := f.discard || mode == 1, cmds := f.cmds ++ [c.id] })
    let k := j.discardAll (f.waiting.filter j.isRunning)
    Completes (.ctrlFuncDisable dt id) s
      (if mode = 1 ∧ f.discard = false then if kind = 2 then k.disableAlign true else if kind = 3 then k.discardFrame else k else j).settle) ∧
  (Runs s dt id 0x0103 c → c.aux.contains 2 = true → Completes (.ctrlFuncDisable dt id) s u.settle) ∧
  (Runs s dt id 0x0103 c → c.aux = [3] → c.disableOk = true → Completes (.ctrlFuncDisable dt id) s (u.doneWith c (leBytes 8 0)).settle) ∧
  (Runs s dt id 0x0104 c → funcExists kind idx = true → (∀ f ∈ u.ccx.funcs, f.kind = kind → f.idx = idx → f.committed = true) →
    u.funcOff kind idx = true → Completes (.ctrlFuncEnable dt id) s ((u.enableFunc kind idx).done c).settle)

/-- CTRL_PART_DEFINE, CTRL_PART_START, CTRL_PART_STOP and CTRL_PART_RESTART (R114 to R117): a definition whose ranges and quotas pass the
checks writes the partition's banks and makes it DEFINED, a start makes a DEFINED partition ACTIVE and applies its standing configuration, a
stop, at its acceptance or else at its row, fails what is queued, makes the partition STOPPING and waits for what is RUNNING, a restart begins. -/
def Obligations.PartitionCommandsComplete : Prop := ∀ (dt id : Nat) (s : State) (c : Cmd), let u := s.atRow dt id
  let p := c.p 0x20 1
  (let nr := c.p 0x21 1; let nq := c.p 0x22 1; let cc := c.p 0x23 1; let r := rangeEntries (u.tableAt c (c.p 0x28 8) (16 * nr)) nr
    let qa := if nq = 0 then 0 else c.p 0x30 8; let q := quotaEntries (u.tableAt c qa (4 * nq)) nq
    Runs s dt id 0x0110 c → 1 ≤ p → p ≤ 7 → 1 ≤ nr → nr ≤ 16 → nq ≤ 64 → 1 ≤ cc → cc ≤ 7 →
    (u.partState p = .undefined ∨ u.partState p = .defined) → u.tableErr c.tableReq (c.p 0x28 8) (16 * nr) = none →
    u.tableErr c.tableReq qa (4 * nq) = none → rangesOk r = true → quotasOk q = true → u.defineErr p r q = none →
    Completes (.ctrlPartDefine dt id) s
      (((((u.setRanges p r).setQuotas p q).setPart p { u.part p with core := cc }).toState p .defined).done c).settle) ∧
  (Runs s dt id 0x0111 c → 1 ≤ p → p ≤ 7 → u.partState p = .defined →
    Completes (.ctrlPartStart dt id) s ((((u.setFldOf .ssiSafeStat (8 + p) 1 0).toState p .active).applyStanding p).done c).settle) ∧
  (let queued := u.ccx.cmds.filter fun x => x.state == .accepted && !x.noPart && x.part == p
    let running := (u.runningOf p).map (·.id); let ms := c.p 0x24 4
    let stop : StopRec := { cmd := c.id, due := c.acceptNs + (if ms = 0 then 100 else ms) * 1000000, ended := running.length, failed := queued.length }
    let v := queued.foldl (fun (s : State) x => s.failCmd x.id stPartState) ((u.setPart p { u.part p with stop := some stop }).toState p .stopping)
    Runs s dt id 0x0112 c → c.aux = [] → 1 ≤ p → p ≤ 7 → ms ≤ 10000 → (u.partState p = .active ∨ u.partState p = .paused) →
    (c.p 0x21 1 = 0 → Completes (.ctrlPartStop dt id) s (v.cancelGey p).settle) ∧
    (c.p 0x21 1 = 1 → Completes (.ctrlPartStop dt id) s ((v.discardAll running).cancelGey p).settle)) ∧
  (Runs s dt id 0x0113 c → 1 ≤ p → p ≤ 7 → (u.partState p = .active ∨ u.partState p = .paused) →
    Completes (.ctrlPartRestart dt id) s (u.beginRestart p 0 (some c.id) false).settle) ∧
  (Runs s dt id 0x0112 c → c.aux.contains 2 = true → Completes (.ctrlPartStop dt id) s u.settle)

/-- CTRL_SET_HOST_RANGES, CTRL_SET_WINDOWS, CTRL_FW_UPDATE and CTRL_CORE_RETIRE (R118, R119, R124 to R126): the inline ranges become the host's
bank, or those of a table; a table of windows waits for its start at a period's boundary at least 1 ms ahead; a verified update pauses the partitions of its
control core and under DISCARD marks what they run, and one that does not verify fails with ST_IMAGE_REJECTED; a core retires where a
checker is left, or by force. -/
def Obligations.ControlTableCommandsComplete : Prop := ∀ (dt id : Nat) (s : State) (c : Cmd), let u := s.atRow dt id
  (let n := c.p 0x20 1; let r := (rangeEntries (c.params.drop 16) n).map fun e => (e.1, e.2.1, e.2.2 % 4)
    Runs s dt id 0x0118 c → c.p 0x28 8 = 0 → n ≤ 12 → rangesOk r = true → (∀ e ∈ r, reachesOwn e = false ∧ u.meetsProt e.1 (e.2.1 * 65536) = false) →
    Completes (.ctrlSetHostRanges dt id) s ((u.setRanges 8 r).done c).settle) ∧
  (let us := c.p 0x20 4; let from_ := roundUp (u.now + 1000000) (us * 1000)
    Runs s dt id 0x0119 c → 100 ≤ us → us ≤ 1000000 → c.p 0x24 1 = 0 → u.tableErr c.tableReq 0 0 = none →
    Completes (.ctrlSetWindows dt id) s
      (({ u with ccx := { u.ccx with winNext := some ⟨us * 1000, [], from_⟩ } }).doneWith c (leBytes 8 from_)).settle) ∧
  (let cc := c.p 0x23 1; let ms := c.p 0x24 4; let n := c.p 0x30 4; let b := u.tableAt c (c.p 0x28 8) n; let cid := c.p 0x20 2
    Runs s dt id 0x0120 c → c.p 0x22 1 ≤ 1 → 1 ≤ cc → cc ≤ 7 → ms ≤ 10000 → n ≤ 16777216 → u.ccx.fwUpd = none →
    u.tableErr c.tableReq (c.p 0x28 8) n = none → (u.ccx.comps.find? (fun y => y.id == cid)).map (·.scope) = some 1 →
    let l := u.boundTo cc .active
    let upd := fun (x : Nat × Nat × Nat × Nat × Nat) (digest : Bytes) =>
      FwUpd.mk c.id cc ⟨cid, 1, x.2.2.2.2⟩ (c.acceptNs + (if ms = 0 then 100 else ms) * 1000000) u.ns l digest false
    let paused := fun x digest => l.foldl (fun (s : State) p => s.toState p .paused) { u with ccx := { u.ccx with fwUpd := some (upd x digest) } }
    match u.checkPackage b 1 with
    | .error e => Completes (.ctrlFwUpdate dt id) s (u.failCmd c.id e).settle
    | .ok (k, _, digest) => match k.comps with
      | [x] => Completes (.ctrlFwUpdate dt id) s (if x.1 ≠ cid then u.failCmd c.id stBadParam else if x.2.1 ≠ 1 then u.failCmd c.id stNotPermitted
          else if c.p 0x22 1 = 1 then (paused x digest).discardAll ((l.flatMap u.runningOf).map (·.id)) else paused x digest).settle
      | _ => Completes (.ctrlFwUpdate dt id) s (u.failCmd c.id 0x80).settle) ∧
  (let p := c.p 0x20 1;
    Runs s dt id 0x0128 c → p ≤ 13 → u.coreRole p ≠ 2 → (∀ r ∈ u.tar.retires, r.phys ≠ p) →
    (2 ≤ u.checkers.length ∨ (c.p 0x21 1).testBit 0 = true) →
    Completes (.ctrlCoreRetire dt id) s (u.retire (some c.id) p).settle) ∧
  (let n := c.p 0x20 1; let r := (rangeEntries (u.tableAt c (c.p 0x28 8) (16 * n)) n).map fun e => (e.1, e.2.1, e.2.2 % 4)
    Runs s dt id 0x0118 c → c.p 0x28 8 ≠ 0 → n ≤ 16 → u.tableErr c.tableReq (c.p 0x28 8) (16 * n) = none → rangesOk r = true →
    (∀ e ∈ r, reachesOwn e = false ∧ u.meetsProt e.1 (e.2.1 * 65536) = false) →
    Completes (.ctrlSetHostRanges dt id) s ((u.setRanges 8 r).done c).settle) ∧
  (let us := c.p 0x20 4; let n := c.p 0x24 1; let a := if n = 0 then 0 else c.p 0x28 8; let l := winEntries (u.tableAt c a (16 * n)) n
    let from_ := roundUp (u.now + 1000000) (us * 1000)
    Runs s dt id 0x0119 c → 100 ≤ us → us ≤ 1000000 → n ≤ 64 → u.tableErr c.tableReq a (16 * n) = none →
    (∀ w ∈ l, 1 ≤ w.part ∧ w.part ≤ 7 ∧ 50 ≤ w.len ∧ w.mask < 2 ^ 14 ∧ ∀ k < 14, w.mask.testBit k = true → u.runsOn k = true) →
    winConflict us l = false →
    Completes (.ctrlSetWindows dt id) s
      (({ u with ccx := { u.ccx with winNext := some ⟨us * 1000, l, from_⟩ } }).doneWith c (leBytes 8 from_)).settle)

/-- DRAIN_TIMEOUT, PARTITION_RESTART_END, PARTITION_RESTART_TIMEOUT, WINDOW_SCHEDULE_START, WINDOW_BOUNDARY, FW_UPDATE_SWAP and
CONTROL_CORE_WATCHDOG_TIMEOUT (R110, R117, R119 to R121, R125, R243, R333, R508): a stop that timed out restarts its partition toward DEFINED, and the
drain of a function, of a live update, of a retrain or of a re-split that timed out restarts the partitions it waits for; a restarting
partition becomes ACTIVE or DEFINED; a restart that hangs resets the die; a waiting schedule takes effect at its start; a core's window
opens and closes at its bounds unless a descriptor still runs in it; the drained component is swapped on its control core and its partitions
resume; every partition of a hung control core enters the safe state. -/
def Obligations.ControlEventsComplete : Prop := ∀ (dt : Nat) (s : State), let u := s.elapse dt
  (∀ id p k, let mine := u.ccx.funcs.find? fun f => f.cmds.head? == some id && !f.committed && f.restarting.isEmpty
    mine = none →
    (List.range 8).find? (fun p => u.partState p == .stopping && (u.part p).stop.any fun k => k.cmd == id && decide (k.due ≤ u.ns)) = some p →
    (u.part p).stop = some k →
    Completes (.drainTimeout dt id) s (((u.setPart p { u.part p with stop := some { k with timedOut := true } }).beginRestart p 1 none true).raise
      0x0112 p (evData [0, p, partMask [p]]))) ∧
  (∀ p r, 1 ≤ p → p ≤ 7 → (u.part p).state = .restarting → (u.part p).restart = some r → (u.part p).stop = none → u.ccx.funcs = [] →
    (∀ q < 8, (u.part q).stop = none) → r.cmd = none → u.chn.scheds = [] →
    ∃ t, exec (.partitionRestartEnd dt p) s = .next t ∧ t.partState p = (if r.toDefined then .defined else .active) ∧ (t.part p).restart = none) ∧
  (∀ w, u.ccx.winNext = some w → w.from_ ≤ u.now → Completes (.windowScheduleStart dt) s
    { u with ccx := { u.ccx with win := if w.wins.isEmpty then none else some w, winNext := none, winCore := [] } }) ∧
  (∀ w l p a b, u.ccx.win = some w → w.at l u.now = some (p, a, b) → sget {} u.ccx.winCore l = {} →
    let x : WinCore := { open_ := some p, opens := a, closes := Nat.max u.now b, shorten := [] }
    Completes (.windowBoundary dt l) s { u with ccx := { u.ccx with winCore := sset {} u.ccx.winCore l x } }) ∧
  (∀ id f, u.ccx.fwUpd = some f → f.cmd = id → u.updWaits f = false →
    ∃ t, exec (.fwUpdateSwap dt id) s = .next t ∧ t.ccx.fwUpd = none ∧ t.ccx.fwChain = u.ccx.fwChain ++ [(f.comp, f.digest)] ∧
      t.ccx.comps = u.ccx.comps ∧ t.ccx.live = (u.ccx.live.filter fun y => !(y.1 == f.core && y.2.id == f.comp.id)) ++ [(f.core, f.comp)]) ∧
  (∀ p r, (u.part p).state = .restarting → p ≠ 0 → (u.part p).restart = some r → r.at_ + 40000000 ≤ u.ns →
    Completes (.partitionRestartTimeout dt p) s (u.request 2)) ∧
  (∀ p cc, u.ready = true → 1 ≤ p → p ≤ 7 → u.partState p ≠ .undefined → (∀ q < 8, q ≠ 0 → q ≠ p → u.partState q = .undefined) →
    1 ≤ cc → cc ≤ 7 → (u.part p).core = cc → Completes (.controlCoreWatchdogTimeout dt cc) s (u.enterSafe p 6)) ∧
  (∀ id, let mine := u.ccx.funcs.find? fun f => f.cmds.head? == some id && !f.committed && f.restarting.isEmpty
    let stops := (List.range 8).find? fun p => u.partState p == .stopping && (u.part p).stop.any fun k => k.cmd == id && decide (k.due ≤ u.ns)
    let retrains := u.mmv.retrains.find? fun r => r.cmd == id && !r.training && !r.timedOut
    (∀ f, mine = some f → f.due ≤ u.ns → Completes (.drainTimeout dt id) s (u.funcTimeout f)) ∧
    (∀ f, mine = none → stops = none → u.ccx.fwUpd = some f → f.cmd = id → f.timedOut = false → f.due ≤ u.ns →
      let l := f.mask.filter fun p => u.partState p == .paused && !(u.runningOf p).isEmpty
      Completes (.drainTimeout dt id) s ((({ u with ccx := { u.ccx with fwUpd := some { f with timedOut := true } } }).restartAll l).raise
        0x0112 0 (evData [0, f.core, partMask l]))) ∧
    (∀ r, mine = none → stops = none → (∀ f, u.ccx.fwUpd = some f → f.cmd ≠ id) → retrains = some r → r.due ≤ u.ns →
      Completes (.drainTimeout dt id) s (u.retrainTimeout r)) ∧
    (∀ k, mine = none → stops = none → (∀ f, u.ccx.fwUpd = some f → f.cmd ≠ id) → retrains = none → u.chn.split = some k → k.cmd = id →
      k.timedOut = false → k.due ≤ u.ns → u.frameBusy.isSome = true → Completes (.drainTimeout dt id) s (u.splitTimeout k))) ∧
  (∀ p r, 1 ≤ p → p ≤ 7 → u.partState p = .restarting → (u.part p).restart = some r →
    Completes (.partitionRestartEnd dt p) s (u.endRestart p)) ∧
  (∀ w l, let x := sget {} u.ccx.winCore l
    u.ccx.win = some w → (x.open_.isSome = true → ∀ j ∈ u.tar.jobs, j.core = l → j.started = true → j.ran = true) →
    (∀ p a b, w.at l u.now = some (p, a, b) → ¬(x.open_ = some p ∧ x.opens = a) →
      let cut_ := ((x.shorten.find? fun e => e.1 == p).map (·.2)).getD 0
      let y : WinCore := { open_ := some p, opens := a, closes := Nat.max u.now (b - cut_), shorten := x.shorten.filter fun e => e.1 != p }
      Completes (.windowBoundary dt l) s { u with ccx := { u.ccx with winCore := sset {} u.ccx.winCore l y } }) ∧
    (w.at l u.now = none → Completes (.windowBoundary dt l) s
      { u with ccx := { u.ccx with winCore := sset {} u.ccx.winCore l { x with open_ := none } } })) ∧
  (∀ cc, u.ready = true → 1 ≤ cc → cc ≤ 7 → Completes (.controlCoreWatchdogTimeout dt cc) s
    (((List.range 8).filter fun p => decide (p ≠ 0) && u.partState p != .undefined && (u.part p).core == cc).foldl
      (fun (s : State) p => s.enterSafe p 6) u))

/-- TIME_SET_FORMAT, TIME_SET_SOURCE, TIME_SET_INCREMENT, TIME_STEP, TIME_STEP_UNLOCK and TIME_SET_JUMP_THRESHOLD (R129 to R137): on a time base
that P0 does not hold, each command whose parameters lie in range writes the field it names and commits; an allowed step within the range of
instants joins the queue of its time base and uses every unlock of it up. -/
def Obligations.TimeBaseCommandsComplete : Prop := ∀ (dt id : Nat) (s : State) (c : Cmd), let u := s.atRow dt id
  let tb := c.p 0x20 1; let t := u.tbase tb
  (∀ f, Runs s dt id 0x0201 c → 1 ≤ tb → tb ≤ 7 → c.p 0x21 1 = f → f ≤ 1 → u.locked tb = false → u.tbReferred tb = false →
    u.tbShort tb = (f != 1) →
    let n := u.tbNow tb % 2 ^ 32
    Completes (.timeSetFormat dt id) s (((u.setTbase tb { t with
      acc := BitVec.ofNat 128 (n * 2 ^ 32 + t.acc.toNat % 2 ^ 32), wraps := 0, lastCount := n }).setFldOf (.tnuTbCtl tb) 8 1 f).done c).settle) ∧
  (Runs s dt id 0x0202 c → tb ≤ 7 → c.p 0x21 1 ≤ 5 → u.locked tb = false → (c.p 0x21 1 = 4 → u.tbShort tb = false) →
    Completes (.timeSetSource dt id) s
      (((((u.setFldOf (.tnuTbCtl tb) 12 4 (c.p 0x21 1)).setFldOf (.tnuTbCtl tb) 16 8 (c.p 0x22 1)).setTbase tb
        { t with ppsLocked := false, ppsLast := u.ns })).done c).settle) ∧
  (∀ v, Runs s dt id 0x0203 c → tb ≤ 7 → c.p 0x28 8 % 2 ^ 40 = v → 0x1FFBE76C9 ≤ v → v ≤ 0x200418937 → u.locked tb = false → u.disciplined tb = false →
    Completes (.timeSetIncrement dt id) s ((u.setReg (.tnuTbInc tb) (BitVec.ofNat 64 v)).done c).settle) ∧
  (let off := sgn 64 (c.p 0x28 8); let forced := (c.p 0x21 1).testBit 0
    Runs s dt id 0x0204 c → tb ≤ 7 → u.locked tb = false → u.stepRange tb off = false →
    ((forced = true ∧ u.unlockOpen c tb = true) ∨
      (forced = false ∧ u.disciplined tb = false ∧ off.natAbs ≤ (u.reg (.tnuTbJumpThr tb)).toNat)) →
    Completes (.timeStep dt id) s ((u.dropUnlock tb).queueStep tb { off := off, forced := forced, who := .host, cmd := some c.id }).settle) ∧
  (Runs s dt id 0x0205 c → tb ≤ 7 → u.locked tb = false → c.p 0x24 4 = 0xA55A →
    Completes (.timeStepUnlock dt id) s ((u.setTbase tb { t with unlock := some (c.part, u.ns) }).done c).settle) ∧
  (∀ v, Runs s dt id 0x0206 c → tb ≤ 7 → c.p 0x24 4 = v → 1000 ≤ v → v ≤ 1000000000 → u.locked tb = false →
    Completes (.timeSetJumpThreshold dt id) s ((u.setReg (.tnuTbJumpThr tb) (BitVec.ofNat 64 v)).done c).settle) ∧
  (∀ f, Runs s dt id 0x0201 c → 1 ≤ tb → tb ≤ 7 → c.p 0x21 1 = f → f ≤ 1 → u.locked tb = false → u.tbReferred tb = false →
    Completes (.timeSetFormat dt id) s ((u.setFormat tb f).done c).settle)

/-- TIME_READ, TIME_PPS_CONFIG, TIME_PTP_CONFIG and TIME_SNAPSHOT (R129, R142, R144 to R146, R160, R161): a read latches the eight time bases
and returns them; the PPS output and the PTP domain of a time base take their configuration; a snapshot at least 100 µs ahead, into a place
that its partition may write and the host may read, waits for its epoch where fewer than four wait and none lies within 5 ms of it. -/
def Obligations.TimeServiceCommandsComplete : Prop := ∀ (dt id : Nat) (s : State) (c : Cmd), let u := s.atRow dt id
  (Runs s dt id 0x0207 c → Completes (.timeRead dt id) s
    (u.crossStamp.doneWith c ((List.range 8).flatMap fun n => leBytes 8 (u.crossStamp.tbFull n))).settle) ∧
  (let tb := c.p 0x21 1; let off := sgn 32 (c.p 0x24 4); let w := c.p 0x28 4
    let n : Tnu := { u.tnu with ppsPolarity := c.p 0x20 1, ppsOutTb := tb, ppsOutOff := off, ppsOutWidth := w, ppsOutNext := u.nextSecond tb off }
    Runs s dt id 0x0208 c → c.p 0x20 1 ≤ 1 → (tb ≤ 7 ∧ u.tbShort tb = false ∨ tb = 255) → -1000000 ≤ off → off ≤ 1000000 → 1000 ≤ w → w ≤ 500000000 →
    Completes (.timePpsConfig dt id) s (({ u with tnu := n }).done c).settle) ∧
  (let tb := c.p 0x20 1; let ls := sgn 8 (c.p 0x28 1); let la := sgn 8 (c.p 0x29 1)
    let cfg : PtpCfg := ⟨c.p 0x21 1, c.p 0x22 1, c.p 0x23 1, c.p 0x24 1, c.p 0x25 1 == 1, c.p 0x26 1, c.p 0x27 1, ls, la⟩
    Runs s dt id 0x0209 c → 1 ≤ tb → tb ≤ 7 → c.p 0x21 1 ≤ 2 → c.p 0x23 1 ≤ 2 → c.p 0x24 1 ≤ 2 → c.p 0x25 1 ≤ 1 → -7 ≤ ls → ls ≤ 4 → -3 ≤ la → la ≤ 4 →
    u.locked tb = false →
    Completes (.timePtpConfig dt id) s ((u.setTbase tb { u.tbase tb with
      ptp := if c.p 0x22 1 = 0 then none else some cfg, gm := 0, lastAnnounce := u.ns }).done c).settle) ∧
  (let inst := c.p 0x20 8; let dst := c.p 0x28 8;
    Runs s dt id 0x0210 c → c.accept + 100000 ≤ inst → u.inRange (.part c.part) true dst 616864 = true → u.inRange .host false dst 616864 = true →
    u.inHole dst 616864 = false → u.noInstants 0 = false → u.liveEpochs.length < 4 →
    (∀ e ∈ u.liveEpochs, e.inst + 5000000 ≤ inst ∨ inst + 5000000 ≤ e.inst) →
    Completes (.timeSnapshot dt id) s
      (({ u with tnu := { u.tnu with epochs := u.liveEpochs ++ [{ inst := inst, dst := dst, cmd := c.id, part := c.part }] } } : State).settle))

/-- TIMEBASE_PLL_LOCK, TIMEREF_LOST, TIMEREF_RESTORED, TB_INC_WRITE, TB_STEP_WRITE, TB_UNLOCK_WRITE, TB_UNLOCK_EXPIRY, TB_SEC_READ and
SHORT_TB_WRAP_READ (R129, R131, R133 to R136, R143, R494): the first lock starts every time base from 0; a lost reference means holdover and
both its events; an increment in range is taken from Bivexa while P0 does not hold the time base, and from P0 always; a step above the
threshold is refused and counted; the two unlock writes open 100 µs, and any other write cancels them; an unlock that no step used in its time is gone; a read of
the seconds latches the nanoseconds. -/
def Obligations.TimeBaseEventsComplete : Prop := ∀ (dt : Nat) (s : State), let u := s.elapse dt
  (u.pwr.porstHigh = true → u.pwr.pllLocked = false → u.pwr.refs.contains .timeref = true →
    ∃ t, exec (.timebasePllLock dt) s = .next t ∧ t.pwr.pllLocked = true ∧ t.fldOf .tnuPllStat 0 2 = 1 ∧ ∀ n < 8, (t.tbase n).acc = 0) ∧
  (u.pwr.refs.contains .timeref = true → u.pwr.pllLocked = true →
    let v : State := { u with pwr := { u.pwr with refs := u.pwr.refs.filter fun r => r != RefClk.timeref } }
    Completes (.timerefLost dt) s (((v.setFldOf .tnuPllStat 0 2 2).raise 0x0203 0).raise 0x0A09 0 (evData [1]))) ∧
  (u.pwr.refs.contains .timeref = false → u.pwr.pllLocked = true →
    let v : State := { u with pwr := { u.pwr with refs := u.pwr.refs ++ [RefClk.timeref] } }
    Completes (.timerefRestored dt) s ((v.setFldOf .tnuPllStat 0 2 1).raise 0x0204 0)) ∧
  (∀ tb v, tb < 8 → 0x1FFBE76C9 ≤ v.toNat % 2 ^ 40 → v.toNat % 2 ^ 40 ≤ 0x200418937 →
    Completes (.tbIncWrite dt .p0 tb v) s (u.setReg (.tnuTbInc tb) (BitVec.ofNat 64 (v.toNat % 2 ^ 40))) ∧
    (u.locked tb = false → Completes (.tbIncWrite dt .bivexa tb v) s (u.setReg (.tnuTbInc tb) (BitVec.ofNat 64 (v.toNat % 2 ^ 40)))) ∧
    (u.locked tb = true → Completes (.tbIncWrite dt .bivexa tb v) s u) ∧ Completes (.tbIncWrite dt .host tb v) s u) ∧
  (∀ tb v, tb < 8 → u.locked tb = false → (u.tbShort tb = true ∨ u.stepRange tb v.toInt = false) →
    let w := u.dropUnlock tb; let r : StepReq := { off := v.toInt, forced := false, who := .bivexa }
    Completes (.tbStepWrite dt .bivexa tb v) s
      (if v.toInt.natAbs ≤ (u.reg (.tnuTbJumpThr tb)).toNat then w.queueStep tb r else w.refuseStep tb 0 r)) ∧
  (∀ tb, Completes (.tbUnlockWrite dt tb 0xA55A#32) s (u.setTbase tb { u.tbase tb with p0Key := true, p0Open := none }) ∧
    ((u.tbase tb).p0Key = true →
      Completes (.tbUnlockWrite dt tb 0x5AA5#32) s (u.setTbase tb { u.tbase tb with p0Key := false, p0Open := some u.ns }))) ∧
  (∀ tb p a b, (u.tbase tb).unlock = some (p, a) → a + 10000000 < u.ns → (u.tbase tb).p0Open = some b → b + 100000 < u.ns →
    Completes (.tbUnlockExpiry dt tb) s (u.setTbase tb { u.tbase tb with unlock := none, p0Open := none })) ∧
  (∀ tb, u.tbShort tb = false → Completes (.tbSecRead dt tb) s
    ((u.setReg (.tnuTbNs tb) (BitVec.ofNat 64 ((u.tbase tb).acc.toNat / 2 ^ 32 % 1000000000))).emit (.words (leBytes 8 (u.tbSec tb))))) ∧
  (∀ tb, u.tbShort tb = true → Completes (.shortTbWrapRead dt tb) s (u.setTbase tb { u.tbase tb with
      wraps := (u.tbase tb).wraps + (if u.tbNow tb < (u.tbase tb).lastCount then 1 else 0), lastCount := u.tbNow tb })) ∧
  (∀ tb v, tb < 8 → let w := u.dropUnlock tb
    let r : StepReq := { off := v.toInt, forced := (u.tbase tb).p0Open.any fun a => decide (u.ns ≤ a + 100000), who := .p0 }
    (u.tbShort tb = true ∨ u.stepRange tb v.toInt = false) →
    Completes (.tbStepWrite dt .p0 tb v) s (if w.stepAllowed tb r then w.queueStep tb r else w.refuseStep tb 0 r)) ∧
  (∀ tb v, v ≠ 0xA55A#32 → v ≠ 0x5AA5#32 → Completes (.tbUnlockWrite dt tb v) s (u.dropUnlock tb)) ∧
  (∀ tb p a, (u.tbase tb).unlock = some (p, a) → a + 10000000 < u.ns → ∃ t, exec (.tbUnlockExpiry dt tb) s = .next t ∧ (t.tbase tb).unlock = none) ∧
  (∀ tb a, (u.tbase tb).p0Open = some a → a + 100000 < u.ns → ∃ t, exec (.tbUnlockExpiry dt tb) s = .next t ∧ (t.tbase tb).p0Open = none) ∧
  (∀ tb, u.tbShort tb = true → Completes (.tbSecRead dt tb) s
    ((u.setReg (.tnuTbNs tb) (BitVec.ofNat 64 (u.tbNow tb))).emit (.words (leBytes 8 0)))) ∧
  (u.pwr.refs.contains .timeref = true → u.pwr.pllLocked = false → Completes (.timerefLost dt) s
    (({ u with pwr := { u.pwr with refs := u.pwr.refs.filter fun r => r != RefClk.timeref } } : State).raise 0x0A09 0 (evData [1]))) ∧
  (u.pwr.refs.contains .timeref = false → u.pwr.pllLocked = false → Completes (.timerefRestored dt) s
    { u with pwr := { u.pwr with refs := u.pwr.refs ++ [RefClk.timeref] } })

/-- TIME_BASE_STEP_APPLY, XSTAMP_WRITE, CAPTURE_EDGE, CAP_STAT_READ, COMPARE_FIRE and the snapshot events (R135, R138 to R143, R159 to R162):
the first step of a time base is added at its tick, and a TIME_STEP commits with it or, out of range by then, ends FAILED; a cross-stamp latches the
eight time bases; a capture channel takes its time base at an edge of its source that it is set for; a read of its status clears the overrun count;
a compare unit that is due acts, sets its flag, and disables itself or takes the next instant of its series; the epoch that is due first latches the
shadows of every bank, and its record is written as the command commits. -/
def Obligations.TimeEdgesComplete : Prop := ∀ (dt : Nat) (s : State), let u := s.elapse dt
  (∀ tb r rest, (u.tbase tb).steps = r :: rest → r.cmd = none → tb ≠ 0 → u.stepTime tb r = true → u.stepBad tb r = false →
    ∃ t, exec (.timeBaseStepApply dt tb) s = .next t ∧
      (t.tbase tb).acc = (u.tbase tb).acc + BitVec.ofInt 128 (r.off * (2 ^ 32 : Nat)) ∧ (t.tbase tb).steps = rest) ∧
  (∀ r rest, (u.tbase 0).steps = r :: rest → r.cmd = none → u.stepTime 0 r = true → u.stepBad 0 r = false → Completes (.timeBaseStepApply dt 0) s
    ((((u.stepClose.applyStep 0 r).shiftModels r.off).stepChurn r.off).stepTracks fun t => ((t : Int) + r.off).toNat)) ∧
  (∀ v, bit v 0 = true → Completes (.xstampWrite dt v) s u.crossStamp) ∧
  (∀ src rising k, src ≠ 0x11 → (∀ j < 32, u.fldOf (.tnuCapCtl j) 8 8 = src → u.fldOf (.tnuCapCtl j) 0 2 ≠ 0 → j = k) →
    u.fldOf (.tnuCapCtl k) 8 8 = src → u.fldOf (.tnuCapCtl k) 0 2 = 3 → k < 32 → u.tnu.capUnread.contains k = false →
    ∃ t, exec (.captureEdge dt src rising) s = .next t ∧
      t.reg (.tnuCapVal k) = BitVec.ofNat 64 (u.tbNow (u.fldOf (.tnuCapCtl k) 4 3)) ∧
      t.fldOf (.tnuCapStat k) 0 16 = (u.fldOf (.tnuCapStat k) 0 16 + 1) % 2 ^ 16) ∧
  (∀ ch, ch < 32 → ∃ t, exec (.capStatRead dt ch) s = .next t ∧ t.out = u.out ++ [.words (leBytes 4 (u.reg (.tnuCapStat ch)).toNat)] ∧
    t.fldOf (.tnuCapStat ch) 16 16 = 0 ∧ SameRegs u t (· ≠ .tnuCapStat ch)) ∧
  (∀ k, k < 16 → bit (u.reg (.tnuCmpCtl k)) 31 = true → u.reached (u.fldOf (.tnuCmpCtl k) 12 3) (u.reg (.tnuCmpAt k)).toNat = true →
    u.cmpFirst k = true → u.reg (.tnuCmpPer k) = 0 → u.fldOf (.tnuCmpCtl k) 4 3 = 0 →
    Completes (.compareFire dt k) s (((u.modReg (.tnuCmpCtl k) fun v => setBit v 0 true).emit (.cmpIrq k (sget .bivexa u.tnu.cmpOwner k))).modReg
      (.tnuCmpCtl k) fun v => setBit v 31 false)) ∧
  (∀ e c, u.tnu.epochs = [e] → u.cmd? e.cmd = some c → c.state = .running → e.latched = false → u.reached 0 e.inst = true →
    Completes (.snapshotEpoch dt) s { u with tnu := { u.tnu with epochs := [{ e with latched := true, shadow := u.shadows }] } }) ∧
  (∀ e c banks, u.tnu.epochs = [e] → e.latched = true → u.cmd? e.cmd = some c → c.state = .running →
    let r := snapRecord u.confidential u.skewLimit u.tnu.nextEpoch e banks
    let v : State := { u with tnu := { u.tnu with epochs := [], nextEpoch := (u.tnu.nextEpoch + 1) % 2 ^ 32 } }
    Completes (.snapshotRecordWrite dt banks) s
      ((v.wr e.dst r.1).doneWith c (leBytes 4 u.tnu.nextEpoch ++ leBytes 4 r.2 ++ leBytes 4 r.1.length)).settle) ∧
  (∀ tb r rest id c, (u.tbase tb).steps = r :: rest → r.cmd = some id → u.isRunning id = true → u.stepTime tb r = true →
    (u.stepBad tb r = false → (u.takeStep tb r).cmd? id = some c →
      Completes (.timeBaseStepApply dt tb) s ((u.takeStep tb r).doneWith c (leBytes 8 (u.takeStep tb r).now)).settle) ∧
    (u.stepBad tb r = true →
      Completes (.timeBaseStepApply dt tb) s ((u.setTbase tb { u.tbase tb with steps := rest }).failCmd id stBadParam).settle)) ∧
  (∀ src rising, src ≠ 0x11 → Completes (.captureEdge dt src rising) s (u.captureAll src rising)) ∧
  (∀ a, u.tnu.ppsFall = some a → a ≤ u.ns →
    Completes (.captureEdge dt 0x11 false) s (({ u with tnu := { u.tnu with ppsFall := none } } : State).captureAll 0x11 false)) ∧
  (∀ src rising k, src ≠ 0x11 → k < 32 → u.fldOf (.tnuCapCtl k) 8 8 = src →
    (u.fldOf (.tnuCapCtl k) 0 2 = 3 ∨ u.fldOf (.tnuCapCtl k) 0 2 = (if rising then 1 else 2)) →
    ∃ t, exec (.captureEdge dt src rising) s = .next t ∧ t.reg (.tnuCapVal k) = BitVec.ofNat 64 (u.tbNow (u.fldOf (.tnuCapCtl k) 4 3))) ∧
  (∀ k, let per := (u.reg (.tnuCmpPer k)).toNat; let inst := (u.reg (.tnuCmpAt k)).toNat
    let v := (u.modReg (.tnuCmpCtl k) fun v => setBit v 0 true).cmpAct k; let n := nextOf inst per (inst + (u.cmpPast k).toNat)
    k < 16 → u.cmpDue k = true → u.cmpFirst k = true →
    Completes (.compareFire dt k) s (if per = 0 then v.modReg (.tnuCmpCtl k) fun v => setBit v 31 false
      else (v.setReg (.tnuCmpAt k) (BitVec.ofNat 64 n.1)).addSat (.tnuCmpSkip k) 0 32 n.2)) ∧
  (∀ d, u.dueEpoch = some d → Completes (.snapshotEpoch dt) s
    { u with tnu := { u.tnu with epochs := u.liveEpochs.map fun e => if e.cmd = d.cmd then { e with latched := true, shadow := u.shadows } else e } }) ∧
  (∀ e c banks, u.liveEpochs.find? (fun e => e.latched) = some e → u.cmd? e.cmd = some c →
    let r := snapRecord u.confidential u.skewLimit u.tnu.nextEpoch e banks
    let v : State := { u with tnu := { u.tnu with epochs := u.liveEpochs.filter fun x => x.cmd != e.cmd, nextEpoch := (u.tnu.nextEpoch + 1) % 2 ^ 32 } }
    Completes (.snapshotRecordWrite dt banks) s
      ((v.wr e.dst r.1).doneWith c (leBytes 4 u.tnu.nextEpoch ++ leBytes 4 r.2 ++ leBytes 4 r.1.length)).settle)

/-- PPS and PTP (R144 to R150): an edge at or after 500 ms of the second steps the time base onto the next second; a missing edge and a lost
master mean holdover and their events; the output pulses at its second, which its channels capture; a better master is taken, a Sync steers the time
base, and the delay messages are answered and measured as the profile says; the bridge corrects a message by its residence, and in a peer-to-peer domain a
Sync by the delay of its link; a domain sends on each of its ports what its role sends. -/
def Obligations.PpsAndPtpComplete : Prop := ∀ (dt : Nat) (s : State), let u := s.elapse dt
  (∀ tb rising, tb < 8 → (∀ k < 8, k ≠ tb → u.source k ≠ 4) → u.source tb = 4 → u.tbShort tb = false → (u.tbase tb).ppsLocked = false →
    (∀ k < 32, u.fldOf (.tnuCapCtl k) 8 8 ≠ 0x10) → rising = (u.tnu.ppsPolarity == 0) → u.tbNow tb % 1000000000 = 0 →
    Completes (.ppsInEdge dt rising) s (u.setTbase tb { u.tbase tb with ppsLocked := true, ppsLast := u.ns })) ∧
  (∀ tb, u.source tb = 4 → (u.tbase tb).ppsLast + 1500000000 ≤ u.ns →
    (bit (u.reg (.tnuTbStat tb)) 4 = false ∨ (u.tbase tb).ppsLocked = true) →
    Completes (.ppsMissingTimeout dt tb) s
      ((((u.setTbase tb { u.tbase tb with ppsLocked := false }).setTbStat tb 4).setTbStat tb 5).raise 0x0207 0 (evData [tb]))) ∧
  (∀ tb, u.tnu.ppsOutTb = tb → tb ≤ 7 → (u.tnu.ppsOutNext : Int) * 1000000000 + u.tnu.ppsOutOff ≤ ((u.tbNow tb : Nat) : Int) →
    Completes (.ppsOutPulse dt) s ((({ u with tnu := { u.tnu with
      ppsOutNext := u.nextSecond tb u.tnu.ppsOutOff, ppsFall := some (u.ns + u.tnu.ppsOutWidth) } } : State).emit (.pps tb u.tnu.ppsOutWidth)).captureAll
        0x11 true)) ∧
  (∀ port tb g gm, (u.tbase tb).ptp = some g → g.ports.testBit port = true → g.role ≠ 1 → gm ≠ (u.tbase tb).gm →
    Completes (.ptpEventRx dt port tb (.announce gm true)) s
      (((u.setTbase tb { u.tbase tb with lastAnnounce := u.ns }).setTbase tb
        { (u.setTbase tb { u.tbase tb with lastAnnounce := u.ns }).tbase tb with gm := gm }).raise 0x0205 0 (evData [tb, (u.tbase tb).gm.toNat, gm.toNat]))) ∧
  (∀ tb g, (u.tbase tb).ptp = some g → g.role ≠ 1 → (u.tbase tb).gm ≠ 0 → (u.tbase tb).lastAnnounce + 3 * logIntervalNs g.logAnnounce ≤ u.ns →
    Completes (.ptpAnnounceTimeout dt tb) s (u.ptpLost tb)) ∧
  (∀ i o tb f rx tx, (u.tbase tb).ptp = none → u.mayEgress o f = true → ptpType f ≤ 3 →
    Completes (.bridgeTransparentCorrect dt i o tb f rx tx) s (u.egress o (corrected f (tx - rx) 0))) ∧
  (∀ tb g tx, (u.tbase tb).ptp = some g → g.sends tx = true →
    Completes (.ptpMessageInterval dt tb tx) s ((bitsOf 8 g.ports).foldl (fun s p => s.ptpSend tb g tx p) u)) ∧
  (∀ rising, let v := u.captureAll 0x10 rising
    Completes (.ppsInEdge dt rising) s (if rising = (u.tnu.ppsPolarity == 0) then (List.range 8).foldl (fun s tb => s.ppsEdge tb) v else v)) ∧
  (∀ tb rising, let frac := u.tbNow tb % 1000000000; let off : Int := if frac < 500000000 then -(frac : Int) else 1000000000 - (frac : Int)
    tb < 8 → (∀ k < 8, k ≠ tb → u.source k ≠ 4) → u.source tb = 4 → u.tbShort tb = false →
    (∀ k < 32, u.fldOf (.tnuCapCtl k) 8 8 ≠ 0x10) → rising = (u.tnu.ppsPolarity == 0) →
    ((u.tbase tb).ppsLocked = false ∨ off.natAbs ≤ 1000000) →
    Completes (.ppsInEdge dt rising) s ((u.setTbase tb { u.tbase tb with ppsLocked := true, ppsLast := u.ns }).servoStep tb off)) ∧
  (∀ port tb g, u.ptpOn port tb = some g → let at_ := u.igStamp port tb; let x := u.exch port tb
    (∀ gm wins, Completes (.ptpEventRx dt port tb (.announce gm wins)) s (u.ptpAnnounce tb g gm wins)) ∧
    (∀ origin corr inc, Completes (.ptpEventRx dt port tb (.sync origin corr inc)) s (u.ptpSync port tb g origin corr inc)) ∧
    (g.profile = 0 → g.role ≠ 2 → Completes (.ptpEventRx dt port tb .delayReq) s (u.sendPtp port tb g (.delayResp at_))) ∧
    (∀ rx corr, g.profile = 0 → Completes (.ptpEventRx dt port tb (.delayResp rx corr)) s
      (u.setDelay port tb ((x.syncAt - x.origin) + (rx - corr / 65536 - x.reqAt)))) ∧
    (g.profile ≠ 0 → Completes (.ptpEventRx dt port tb .pdelayReq) s
      (if g.oneStep then u.sendPtp port tb g (.pdelayResp at_ (some (u.egStamp port tb)))
        else (u.sendPtp port tb g (.pdelayResp at_ none)).sendPtp port tb g (.pdelayRespFollowUp (u.egStamp port tb)))) ∧
    (∀ rx tx corr, g.profile ≠ 0 → Completes (.ptpEventRx dt port tb (.pdelayResp rx tx corr)) s
      (u.setDelay port tb ((at_ - x.reqAt) - ((tx : Int) - rx) - corr / 65536)))) ∧
  (∀ i o tb f rx tx, (∀ g, (u.tbase tb).ptp = some g → g.profile ≠ 2) → u.mayEgress o f = true → 3 < ptpType f →
    Completes (.bridgeTransparentCorrect dt i o tb f rx tx) s (u.egress o f)) ∧
  (∀ i o tb f rx tx g, (u.tbase tb).ptp = some g → g.profile ≤ 1 → u.mayEgress o f = true → ptpType f ≤ 3 →
    Completes (.bridgeTransparentCorrect dt i o tb f rx tx) s
      (u.egress o (corrected f (tx - rx) (if g.profile = 1 ∧ ptpType f = 0 then u.delayOf i tb else 0))))

/-- TIME_LAUNCH_ADD, TIME_LAUNCH_CANCEL and TIME_LAUNCH_STATUS (R151, R152, R157, R163): an entry with good fields takes the entry that has been
free longest and is armed for its owner; a pending entry is cancelled with ST_LAUNCH_CANCELLED; one past HELD is answered ST_ALREADY_DONE; a status
returns the entry's 64 bytes. -/
def Obligations.LaunchCommandsComplete : Prop := ∀ (dt id : Nat) (s : State) (c : Cmd), let u := s.atRow dt id
  (let e := geyParse {} (cut c.params 0 64);
    Runs s dt id 0x0220 c → e.fieldsOk = true → bit e.flags 3 = false → u.noInstants e.tb = false → u.pinTaken e = false →
    (∀ i, u.freeEntry = some i →
      Completes (.timeLaunchAdd dt id) s ((u.armGey i { e with owner := c.part }).doneWith c (leBytes 2 i)).settle) ∧
    (u.freeEntry = none → Completes (.timeLaunchAdd dt id) s (u.failCmd c.id 0x37).settle)) ∧
  (∀ i, Runs s dt id 0x0221 c → c.p 0x20 2 = i → 32 ≤ i → i ≤ 255 → (u.gey i).owner = c.part → (u.gey i).state.cancellable = true →
    Completes (.timeLaunchCancel dt id) s (((u.setGey i { u.gey i with status := 0x1C }).freeGey i).doneWith c (leBytes 1 0x1C)).settle) ∧
  (∀ i, Runs s dt id 0x0221 c → c.p 0x20 2 = i → 32 ≤ i → i ≤ 255 → (u.gey i).owner = c.part → (u.gey i).state.cancellable = false →
    Completes (.timeLaunchCancel dt id) s ((u.setResult c.id 0x20 (leBytes 1 (u.gey i).status)).finish c.id 0x01).settle) ∧
  (∀ i, Runs s dt id 0x0222 c → c.p 0x20 2 = i → 32 ≤ i → i ≤ 255 → (u.gey i).owner = c.part →
    Completes (.timeLaunchStatus dt id) s (u.doneWith c (u.geyBytes i)).settle)

/-- The Geyser rows (R129, R151 to R157, R407): P0 writes an entry's bytes; an armed entry starts its fetch when its lead is reached and is READY
with what the fetch brought; a READY entry that is first at its port launches or is refused at its instant, which for an Ethernet port lies its egress latency
before; a held entry tries again when its port is free, and a fall-back that waited is sent; the end of a transmission frees the port and re-arms the entry; lost CAN arbitration holds it; an entry on a short time base is handed to
the hardware when it lies less than 2 s ahead. -/
def Obligations.GeyserRowsComplete : Prop := ∀ (dt i : Nat) (s : State), let u := s.elapse dt; let e := u.gey i
  (∀ off bytes, i < 32 → off + bytes.length ≤ 0x30 →
    Completes (.geyserEntryWriteP0 dt i off bytes) s (u.setGey i (geyParse e (putAt (u.geyBytes i) off bytes)))) ∧
  (i < 32 → e.state = .free → Completes (.geyserEntryWriteP0 dt i 0x31 [1#8]) s (u.armP0 i (geyParse e (putAt (u.geyBytes i) 0x31 [1#8])))) ∧
  (e.state = .armed → u.waiting i = false → u.geyDue i e e.leadNs = true →
    Completes (.geyserFetch dt i) s (u.setGey i { e with state := .fetching })) ∧
  (e.state = .fetching → Completes (.geyserFetchDone dt i) s ((u.geyTell i e).setGey i { u.geyLoad i e with state := .ready })) ∧
  (u.geyDue i e (u.egAdv e) = true → e.state = .ready → u.geyFirst i = true → (32 ≤ i ∨ bit e.flags 3 = false) →
    (∀ st a n, e.fetchErr = some (st, a, n) → Completes (.geyserLaunchTick dt i) s (u.refuseGey i st a n)) ∧
    (e.fetchErr = none → e.plMark = false → Completes (.geyserLaunchTick dt i) s (u.refuseGey i 0x30 e.plDesc 128)) ∧
    (∀ st, e.fetchErr = none → e.plMark = true → ageCheck e (u.reg (.tnuTbJumpThr 0)).toNat u.now = some st →
      Completes (.geyserLaunchTick dt i) s (u.refuseGey i st e.plDesc 128)) ∧
    (e.fetchErr = none → e.plMark = true → ageCheck e (u.reg (.tnuTbJumpThr 0)).toNat u.now = none → u.portBusy e = true →
      Completes (.geyserLaunchTick dt i) s (u.setGey i { e with state := .held })) ∧
    (e.fetchErr = none → e.plMark = true → ageCheck e (u.reg (.tnuTbJumpThr 0)).toNat u.now = none → u.portBusy e = false →
      Completes (.geyserLaunchTick dt i) s (u.beginGey i e.pl))) ∧
  (e.state = .held → u.portBusy e = false → u.geyFirst i = true → 32 ≤ i → e.fetchErr = none → e.plMark = true →
    ageCheck e (u.reg (.tnuTbJumpThr 0)).toNat u.now = none → Completes (.geyserHeldStart dt i) s (u.beginGey i e.pl)) ∧
  (e.state = .launching → Completes (.geyserTransmitDone dt i) s ((u.freePort i).rearm i e.startedAt)) ∧
  (e.state = .launching → e.kind = 2 → Completes (.canArbitrationLost dt i) s ((u.freePort i).setGey i { e with state := .held, held := true })) ∧
  (∃ t, exec (.shortTbEntryHandoff dt i) s = .next t ∧ t.tnu.gey = u.tnu.gey ∧
    ∀ h ∈ t.tnu.handoff, h.idx = i → u.tbFull e.tb + 2000000000 ≤ h.inst) ∧
  (∀ off bytes, let b := putAt (u.geyBytes i) off bytes; let e' := geyParse e b; let st := numAt b 0x31 1
    i < 32 → off ≤ 0x31 → 0x31 < off + bytes.length → off + bytes.length ≤ 64 →
    Completes (.geyserEntryWriteP0 dt i off bytes) s
      (if st = 1 ∧ e.state = .free then u.armP0 i e'
        else if st = 0 ∧ e.state.cancellable = true then (u.setGey i { e' with status := 0x1C }).freeGey i else u.setGey i e')) ∧
  (u.geyDue i e (u.egAdv e) = true → e.state = .ready → u.geyFirst i = true → i < 32 → bit e.flags 3 = true →
    Completes (.geyserLaunchTick dt i) s
      (if e.fbDesc = 0 ∨ e.pinKind = true then (u.setGey i { e with status := 0x13 }).freeGey i
        else if (e.fbHave && e.fbMark) = true then u.beginGey i e.fb
        else (u.setGey i { e with status := 0x30 }).rearm i (u.geyNow i e))) ∧
  (u.geyDue i e (u.egAdv e) = true → e.state = .cancelled → e.fbDue = true → e.fbHave = true →
    Completes (.geyserLaunchTick dt i) s (u.emitDue i e)) ∧
  (e.state = .held → u.portBusy e = false → u.geyFirst i = true → Completes (.geyserHeldStart dt i) s (u.launchGey i)) ∧
  (e.state = .refused → e.fbDue = true → u.portBusy e = false →
    Completes (.geyserHeldStart dt i) s ((u.sendFb i e).rearm i e.startedAt)) ∧
  (e.state ≠ .launching → Completes (.geyserTransmitDone dt i) s (u.freePort i))

/-- The Intake commands (R174, R177, R178, R185 to R187): a port without enabled streams, a stream that is off and its checks take their
configuration; an enable makes the stream ACQUIRING and answers its slot; a disable closes it, with flush empties its queue, and answers how many
packets it flushed; a resync waits for the next frame; the profile changes
while no stream is enabled; a status returns the stream's bank. -/
def Obligations.IntakeCommandsComplete : Prop := ∀ (dt id : Nat) (s : State) (c : Cmd), let u := s.atRow dt id; let n := c.p 0x20 1
  (let kind := c.p 0x20 1; let port := c.p 0x21 1;
    Runs s dt id 0x0301 c → port < portCount kind → portOk c = true → u.portStreams kind port = [] →
    Completes (.intakePortConfig dt id) s (({ u with siu := { u.siu with
      ports := (u.siu.ports.filter fun (e : (Nat × Nat) × Bytes) => e.1 != (kind, port)) ++ [((kind, port), cut c.params 2 14)] } }).done c).settle) ∧
  (Runs s dt id 0x0302 c → u.streamFieldsOk (cut c.params 0 48) = true → u.foreignStream n c.part = false → (c.p 0x39 1).testBit 1 = false →
    u.strmOn n = false → Completes (.intakeStreamConfig dt id) s (((u.configStream (cut c.params 0 48) c.part (u.tapOn n)).syncQ n).done c).settle) ∧
  (Runs s dt id 0x0303 c → e2eOk (cut c.params 0 16) (u.strmKind n) = true → u.foreignStream n c.part = false → u.strmOn n = false →
    Completes (.intakeE2eConfig dt id) s ((u.configE2e (cut c.params 0 16) c.part).done c).settle) ∧
  (Runs s dt id 0x0304 c → n ≤ 63 → u.strmKind n ≠ 0 → u.foreignStream n c.part = false → u.strmOn n = false → u.profileRefuses n = false →
    Completes (.intakeStreamEnable dt id) s
      ((u.enableStream n).doneWith c (leBytes 1 ((u.enableStream n).fldOf (.siuStreamState n) 24 8))).settle) ∧
  (let v := u.disableStream n; let flush := (c.p 0x21 1).testBit 0
    Runs s dt id 0x0305 c → n ≤ 63 → u.foreignStream n c.part = false →
    Completes (.intakeStreamDisable dt id) s
      (((if flush then v.emptyQ n else v).pumpQueues).doneWith c (leBytes 4 (if flush then (v.strm n).queue.length else 0))).settle) ∧
  (Runs s dt id 0x0306 c → n ≤ 63 → u.foreignStream n c.part = false → u.align n ≠ 0 →
    Completes (.intakeResync dt id) s ((u.modStrm n fun x => { x with resync := true }).done c).settle) ∧
  (Runs s dt id 0x0307 c → n ≤ 1 → (∀ m < 64, u.strmOn m = false) → Completes (.intakeSetProfile dt id) s ((u.setFldOf .siuCtl 0 1 n).done c).settle) ∧
  (Runs s dt id 0x0308 c → n ≤ 63 → u.foreignStream n c.part = false →
    Completes (.intakeStreamStatus dt id) s (u.doneWith c (u.streamBank n)).settle) ∧
  (Runs s dt id 0x0304 c → n ≤ 63 → u.strmKind n ≠ 0 → u.foreignStream n c.part = false → u.strmOn n = true →
    Completes (.intakeStreamEnable dt id) s (u.doneWith c (leBytes 1 (u.fldOf (.siuStreamState n) 24 8))).settle)

/-- The Intake rows (R166, R169, R175, R181, R182, R404): a packet enters every stream it is for with its payload and pin stamps; an encoder
sample is one whole frame; a stream without a frame start for 4 periods is silent; a read returns one word of the packet at the head; the rest of a
packet is dropped and counted; a tap's packet goes into its ring in Island memory, or is counted where it does not fit its slot; a tap pointer mismatch resets the
tap's queue only, another one the queue, its ring and the moves out of it, and too many of them put the partition into the safe state. -/
def Obligations.IntakeRowsComplete : Prop := ∀ (dt : Nat) (s : State), let u := s.elapse dt
  (∀ k : SensorPacket, k.kind ≠ 2 → k.phyErr = false → k.eccFixed = false →
    Completes (.sensorPacketRx dt k) s ((u.route k).foldl (fun s r => s.ingress r.1 r.2.1 r.2.2.1 r.2.2.2 (s.tbAgo 0 k.stampAge)
      (s.tbAgo (s.fldOf (.siuStreamCtl r.1) 5 3) k.stampAge) (2 * k.stampAge) false k.fifoFull) u).pumpQueues) ∧
  (∀ (k : SensorPacket) n b, k.kind = 2 → u.route k = [(n, 3, false, b)] →
    let lat := (u.reg (.tnuMacIgLat k.port)).toNat
    let v := u.modStrm n fun x => { x with ethN := if x.framePkts ≤ x.ethN + 1 then 0 else x.ethN + 1 }
    Completes (.sensorPacketRx dt k) s (v.ingress n 3 false b (v.tbAgo 0 k.stampAge - lat)
      (v.tbAgo (v.fldOf (.siuStreamCtl n) 5 3) k.stampAge - lat) (2 * k.stampAge + lat) false k.fifoFull).pumpQueues) ∧
  (∀ port pos idx st edge n, ((u.portStreams 5 port).filter u.strmLive).head? = some n →
    Completes (.encoderSampleTick dt port pos idx st edge) s
      (u.ingress n 3 false (encoderBytes pos idx st edge) u.now (u.tbNow (u.fldOf (.siuStreamCtl n) 5 3)) 0 false false).pumpQueues) ∧
  (∀ n, u.strmLive n = true → bit (u.reg (.siuStreamState n)) 6 = false → (u.strm n).lastStart + 4 * u.strmPeriod n ≤ u.ns →
    Completes (.streamSilentTimeout dt n) s
      ((u.modReg (.siuStreamState n) fun v => setBit v 6 true).raise 0x0308 (u.strmPart n) (evData [n]))) ∧
  (∀ n p rest, (u.strm n).queue = p :: rest → ∃ t, exec (.queueRead dt n) s = .next t ∧
    t.out = u.out ++ [.words (cut p.bytes (32 * (u.strm n).headOff) 32 ++ [if p.words ≤ (u.strm n).headOff + 1 then 1 else 0])] ∧
    (t.strm n).queue = if p.words ≤ (u.strm n).headOff + 1 then rest else p :: rest) ∧
  (∀ n p rest, n < 64 → (u.strm n).queue = p :: rest →
    Completes (.qDropRestWrite dt n) s ((u.takeHead n).countSat (.siuQCnt n) 0 16)) ∧
  (∀ n, n < 64 → (u.strm n).queue = [] →
    Completes (.qDropRestWrite dt n) s (u.modStrm n fun x => { x with dropNext := true })) ∧
  (∀ k t p rest, u.ssi.rfx.taps[k]? = some t → (u.strm t.stream).tapQ = p :: rest → 32 + p.payload.length ≤ t.slotBytes →
    ∃ v, exec (.tapDelivery dt k) s = .next v ∧ (v.strm t.stream).tapQ = rest ∧
      v.island = ssetAll 0 u.island (t.base + t.next % t.slots * t.slotBytes) (p.header ++ p.payload)) ∧
  (∀ n, n < 64 → ∃ t, exec (.queuePtrMismatch dt n .tap) s = .next t ∧ (t.strm n).tapQ = [] ∧ (t.strm n).tapResets = (u.strm n).tapResets + 1 ∧
    (t.strm n).queue = (u.strm n).queue) ∧
  (∀ n ptr, n < 64 → ptr ≠ .tap → u.ring? n = none → u.ccx.cmds = [] → u.ssi.policy.qResetMax = 0 →
    Completes (.queuePtrMismatch dt n ptr) s (u.queueReset n ptr).pumpQueues.settle) ∧
  (∀ k : SensorPacket, let lat := if k.kind = 2 then (u.reg (.tnuMacIgLat k.port)).toNat else 0
    Completes (.sensorPacketRx dt k) s ((u.route k).foldl (fun s r =>
      let v := if k.kind = 2 then s.modStrm r.1 fun x => { x with ethN := if x.framePkts ≤ x.ethN + 1 then 0 else x.ethN + 1 } else s
      v.ingress r.1 r.2.1 r.2.2.1 r.2.2.2 (v.tbAgo 0 k.stampAge - lat) (v.tbAgo (v.fldOf (.siuStreamCtl r.1) 5 3) k.stampAge - lat)
        (2 * k.stampAge + lat) (k.phyErr && k.kind == 1) k.fifoFull) (u.phyErrors k ((u.route k).map (·.1)))).pumpQueues) ∧
  (∀ k t p rest, u.ssi.rfx.taps[k]? = some t → (u.strm t.stream).tapQ = p :: rest → t.slotBytes < 32 + p.payload.length →
    Completes (.tapDelivery dt k) s ((u.modStrm t.stream fun x => { x with tapQ := rest }).countSat (.ssiTapDrop k) 0 32)) ∧
  (∀ n ptr, n < 64 → ptr ≠ .tap →
    let v := (u.ringCut n).queueReset n ptr
    let w := v.ccx.cmds.foldl (fun (s : State) c =>
      if c.code = 0x0708 ∧ c.p 0x20 1 = n ∧ c.state = .running ∧ c.verdict = none then s.failCmd c.id 0x52 else s) v
    let l := (w.strm n).resets.filter fun t => decide (w.now < t + 10000000000); let max := u.ssi.policy.qResetMax
    (u.configured = false ∨ max = 0 ∨ l.length ≤ max ∨ w.strmPart n = 0 → Completes (.queuePtrMismatch dt n ptr) s w.pumpQueues.settle) ∧
    (u.configured = true → max ≠ 0 → max < l.length → w.strmPart n ≠ 0 →
      Completes (.queuePtrMismatch dt n ptr) s (((w.modStrm n fun x => { x with resets := [] }).enterSafe (w.strmPart n) 3).pumpQueues.settle)))

/-- CHURN_OPEN_INSTANT, CHURN_CLOSE_SCHEDULE, CHURN_STREAM_ROLE, CHURN_SET_EGO, CHURN_SET_TRANSFORM and CHURN_INSTANT_STATUS (R190, R191, R195,
R196, R199, R206, R216): a schedule that is off takes its fields and starts; a close drops what is pending and waits for the rest; a role, the ego
configuration and a newer version of a transform are taken while nothing uses them; a status returns the schedule's bank. -/
def Obligations.AlignmentCommandsComplete : Prop := ∀ (dt id : Nat) (s : State) (c : Cmd), let u := s.atRow dt id; let j := c.p 0x20 1
  (let fl := c.p 0x21 1; let slots := c.p 0x22 2; let per := c.p 0x24 4; let first := c.p 0x28 8; let ring := c.p 0x40 8; let hor := c.p 0x48 4
    let lim := if c.p 0x34 4 = 0 then 4 * per else c.p 0x34 4; let win := c.p 0x4C 4
    let v := u.setSched j { first := first, count := c.p 0x30 4, limit := lim, mask := c.p 0x38 8, ring := ring, slots := slots, horizon := hor,
                            tagWin := win, opened := true, vox := (u.sched j).vox, voxNext := (u.sched j).voxNext }
    let w := (v.setReg (.chnSchedCtl j) (BitVec.ofNat 64 (2 ^ 31 + fl % 2 * 2 ^ 30 + fl / 2 % 2 * 2 ^ 29 + c.part * 2 ^ 26))).setReg
      (.chnSchedPeriod j) (BitVec.ofNat 64 per)
    Runs s dt id 0x0401 c → j ≤ 3 → fl ≤ 3 → 4 ≤ slots → slots ≤ 1024 → 5000000 ≤ per → per ≤ 100000000 → c.accept + 1000000 ≤ first →
    1000000 ≤ lim → lim ≤ 1000000000 → hor ≤ 2000000000 → 1000000 ≤ win → win ≤ 4000000000 → u.schedOn j = false → ring % 0x8000 = 0 →
    u.writeRange c.part ring (slots * 0x8000) = true → (∀ n ∈ bitsOf 64 (c.p 0x38 8), u.foreignStream n c.part = false ∨ u.strmPart n = 0) →
    (∀ n ∈ bitsOf 64 (c.p 0x38 8), ∃ r, u.role n = some r ∧ (r.sel = 1 ∨ u.chn.egoCfg.imu ≠ 255 ∨ fl.testBit 1 = true)) → hor + lim ≤ u.egoSpan →
    Completes (.churnOpenInstant dt id) s
      ((((((w.setReg (.chnSchedSeq j) 0).setReg (.chnSchedStat j) 0).setReg (.chnSchedLast j) 0).syncSched j).doneWith c (leBytes 8 first)).settle)) ∧
  (let d := u.dropPendingInsts j 4 false;
    Runs s dt id 0x0402 c → j ≤ 3 → c.p 0x21 1 = 0 → u.schedOn j = true → u.ownsSched j c.part = true → (u.sched j).closing = none →
    Completes (.churnCloseSchedule dt id) s ((d.2.modSched j fun x => { x with closing := some (CloseRec.mk c.id d.1) }).settleSched j).settle) ∧
  (let d := u.dropPendingInsts j 4 true;
    Runs s dt id 0x0402 c → j ≤ 3 → c.p 0x21 1 = 1 → u.schedOn j = true → u.ownsSched j c.part = true → (u.sched j).closing = none →
    Completes (.churnCloseSchedule dt id) s
      (((d.2.silenceInsts j).modSched j fun x => { x with closing := some (CloseRec.mk c.id d.1) }).settleSched j).settle) ∧
  (let n := c.p 0x20 1; let sel := c.p 0x21 1; let x := c.p 0x22 1; let w := c.p 0x24 4;
    Runs s dt id 0x0403 c → n ≤ 63 → sel ≤ 2 → (x ≤ 127 ∨ (x = 0xFF ∧ sel = 1)) → (sel = 2 → w = 0 ∨ (1000000 ≤ w ∧ w ≤ 1000000000)) →
    u.mmvQueue n = (sel == 0) → (u.foreignStream n c.part = false ∨ u.strmPart n = 0) → u.masking n = [] →
    Completes (.churnStreamRole dt id) s (({ u with chn := { u.chn with
      roles := (u.chn.roles.filter fun (e : Nat × Role) => e.1 != n) ++ [(n, Role.mk sel x (if sel = 2 then w else 0))] } }).done c).settle) ∧
  (let k := egoParse c;
    Runs s dt id 0x0404 c → egoFieldsOk c = true →
    (∀ n ∈ (if k.imu = 255 then [] else [k.imu]) ++ (if k.src = 0 then [k.wheelL, k.wheelR] else []), u.foreignStream n c.part = false ∨ u.strmPart n = 0) →
    (∀ i < 4, u.schedOn i = false) →
    Completes (.churnSetEgo dt id) s ((({ u with chn := { u.chn with
      egoCfg := k, ego := {}, egoIns := [], extAt := none, egoSet := true, imuAt := none } } : State).syncEgo.egoCheck).done c).settle) ∧
  (let i := c.p 0x20 1; let b := cut c.params 8 60; let e := sget {} u.chn.xforms i; let par := numAt b 0x3A 1
    let rot : M3 := ⟨V3.at b 0, V3.at b 12, V3.at b 24⟩; let eff := numAt b 0x30 8
    let v : XVer := { rot := rot, trans := V3.at b 0x24, effective := eff, version := e.next % 65536, parent := par, valid := (numAt b 0x3B 1).testBit 0 }
    let f : XEntry := { owner := some (e.owner.getD c.part), vers := (v :: e.vers).take 8, next := e.next + 1 }
    Runs s dt id 0x0405 c → i ≤ 127 → (par ≤ 127 ∨ par = 0xFF) → (e.owner = none ∨ e.owner = some c.part) → finiteAt b 0 12 = true →
    rot.orthonormal = true → u.afterClosed eff = true → (∀ w, e.vers.head? = some w → w.effective < eff) →
    Completes (.churnSetTransform dt id) s (({ u with chn := { u.chn with xforms := sset {} u.chn.xforms i f } }).doneWith c (leBytes 2 v.version)).settle) ∧
  (let r4 := fun (r : Reg) => leBytes 4 (u.reg r).toNat; let r8 := fun (r : Reg) => leBytes 8 (u.reg r).toNat
    Runs s dt id 0x0406 c → j ≤ 3 → u.ownsSched j c.part = true →
    Completes (.churnInstantStatus dt id) s (u.doneWith c (r4 (.chnSchedCtl j) ++ r4 (.chnSchedStat j) ++ r8 (.chnSchedNext j) ++ r8 (.chnSchedLast j) ++
      r8 (.chnSchedSeq j) ++ r4 (.chnSchedPub j) ++ r4 (.chnSchedDrop j) ++ r4 (.chnSchedLate j) ++ r4 (.chnSchedRev j) ++ r4 (.chnSchedPeriod j))).settle)

/-- EGO_EXT_T_WRITE, EGO_INVALID_TIMEOUT and the instant rows (R192 to R194, R200, R201, R208 to R213): the write of the stamp commits the external
vector; a filter without good input raises EV_EGO_INVALID; the next instant opens at its time, or is dropped when 8 of its schedule are in flight; the
earliest open instant closes when no stream holds it or at its limit, and is dropped where its owner runs nothing; its record is written with the next
sequence number, without magic under DISCARD; a record is sealed at its horizon; a revision is written as the selection made at the next close gives it, but not
for an instant with three revisions or one whose transforms are gone. -/
def Obligations.InstantRowsComplete : Prop := ∀ (dt j : Nat) (s : State), let u := s.elapse dt; let c := u.sched j
  (∀ v, u.chn.egoCfg.src ≠ 1 → Completes (.egoExtTWrite dt .bivexa v) s
    (({ u.setReg .chnEgoExtT v with chn := { u.chn with extAt := some u.ns } }).egoCheck)) ∧
  (u.chn.egoSet = true → u.egoValid = true → u.egoGood = false →
    ∃ t, exec (.egoInvalidTimeout dt) s = .next t ∧ bit (t.reg .chnEgoStat) 0 = false ∧
      t.fldOf .chnEgoCnt 0 16 = Nat.min 65535 (u.fldOf .chnEgoCnt 0 16 + 1)) ∧
  (j < 4 → u.schedOn j = true → u.schedRuns j = true → c.closing = none → c.halted = false → c.has c.kNext = true → u.instantAt j c.kNext ≤ u.now →
    let v := u.modSched j fun x => { x with kNext := c.kNext + 1 }
    let all := (List.range 4).foldl (fun n i => n + ((v.sched i).insts.filter Inst.inFlight).length) 0
    (u.funcOff 2 0 = false → (c.insts.filter Inst.inFlight).length < 8 → all < 32 →
      Completes (.instantOpen dt j) s (((v.modSched j fun x => { x with insts := x.insts ++ [{ k := c.kNext, t := u.instantAt j c.kNext }] }).setFldOf
        (.chnSchedStat j) 0 16 c.kNext).settleSched j)) ∧
    (u.funcOff 2 0 = false → (8 ≤ (c.insts.filter Inst.inFlight).length ∨ 32 ≤ all) →
      Completes (.instantOpen dt j) s ((v.dropInst j (u.instantAt j c.kNext) 0).settleSched j)) ∧
    (u.funcOff 2 0 = true → Completes (.instantOpen dt j) s ((v.dropInst j (u.instantAt j c.kNext) 2).settleSched j))) ∧
  (∀ i, u.schedRuns j = true → c.firstOpen = some i → u.undecided j i.t = [] → u.now < i.t + c.limit → Completes (.instantCloseWatermark dt j) s (u.closeInst j i 0 [])) ∧
  (∀ i, u.schedRuns j = true → c.firstOpen = some i → i.t + c.limit ≤ u.now → Completes (.instantCloseLimit dt j) s
    (((u.closeInst j i 1 (u.undecided j i.t)).countSat (.chnSchedDrop j) 0 16).raiseLim 0x0402 j (u.schedOwner j)
      (evData [j, i.t, maskOf (u.undecided j i.t)]))) ∧
  (∀ i k, u.inst? j k = some i → i.state = .building → u.voxelised j = false → i.noMagic = false → u.schedRuns j = true → bit (u.reg (.chnSchedCtl j)) 30 = false →
    let seq := (u.reg (.chnSchedSeq j)).toNat
    let v : State := { u with chn := { u.chn with order := u.chn.order.filter (· != (j, k)) } }
    let w := ((v.writeRecord j i 0 seq recMagic).published j i).queueFill j i
    Completes (.instantRecordCommit dt j k) s ((w.updInst j k fun x => { i with state := .sealed, seq := seq, late := x.late, revAfter := x.revAfter }).settleSched j)) ∧
  (∀ i k, u.inst? j k = some i → i.state = .published → i.t + c.horizon ≤ u.now → Completes (.instantSeal dt j k) s
    ((u.updInst j k fun i => { i with state := .sealed, late := false, revAfter := none }).settleSched j)) ∧
  (∀ i k m, u.inst? j k = some i → i.state = .published → i.revAfter = some m → u.inst? j m = none → u.schedRuns j = true → i.rev = 3 →
    Completes (.revisionRecordCommit dt j k) s (u.skipRevision j i)) ∧
  (∀ i k m, u.inst? j k = some i → i.state = .published → i.revAfter = some m →
    (∀ x, u.inst? j m = some x → x.state ≠ .building ∧ x.state ≠ .opened) → u.schedRuns j = true →
    (i.rev = 3 ∨ i.revSel = none → Completes (.revisionRecordCommit dt j k) s (u.skipRevision j i)) ∧
    (∀ y, i.rev ≠ 3 → i.revSel = some y → u.runWaits j = false →
      let r := u.buildRevision j i y; let seq := (r.2.reg (.chnSchedSeq j)).toNat
      let x : Inst := { r.1 with rev := i.rev + 1, seq := i.seq, late := false, revAfter := none, revSel := none, state := .published }
      let w := (r.2.writeRecord j x (i.rev + 1) seq recMagic).published j x
      Completes (.revisionRecordCommit dt j k) s (((w.countSat (.chnSchedRev j) 0 16).updInst j k fun _ => x).settleSched j))) ∧
  (∀ who v, extWriter who = true → let a := u.setReg .chnEgoExtT v
    let w : V3 := ⟨f32Rat ((a.reg .chnEgoExtVx).setWidth 32), f32Rat ((a.reg .chnEgoExtVy).setWidth 32), f32Rat ((a.reg .chnEgoExtVz).setWidth 32)⟩
    let b : State := { a with chn := { u.chn with extAt := some u.ns } }
    Completes (.egoExtTWrite dt who v) s (if u.chn.egoCfg.src = 1 then b.egoInput ⟨v.toNat, .ext w⟩ false else b).egoCheck) ∧
  (∀ i, u.schedRuns j = false → c.firstOpen = some i →
    (u.undecided j i.t = [] → u.now < i.t + c.limit → Completes (.instantCloseWatermark dt j) s (u.dropOpen j i 3)) ∧
    (i.t + c.limit ≤ u.now → Completes (.instantCloseLimit dt j) s (u.dropOpen j i 3))) ∧
  (∀ i k, u.inst? j k = some i → i.state = .building → u.waitsPoints j i = false →
    let x := if u.voxelised j = true ∧ i.built.isNone = true then i.noPoints else i; let seq := (u.reg (.chnSchedSeq j)).toNat
    let v : State := { u with chn := { u.chn with order := u.chn.order.filter (· != (j, k)) } }
    (x.noMagic = false → u.schedRuns j = true →
      let w := ((v.writeRecord j x 0 seq recMagic).published j x).queueFill j x
      let st := if bit (w.reg (.chnSchedCtl j)) 30 = true ∧ w.funcOff 2 0 = false then InstState.published else .sealed
      Completes (.instantRecordCommit dt j k) s
        ((w.updInst j k fun y => { x with state := st, seq := seq, late := y.late, revAfter := y.revAfter }).settleSched j)) ∧
    (x.noMagic = true ∨ u.schedRuns j = false → Completes (.instantRecordCommit dt j k) s
      (((v.writeRecord j x 0 seq 0).updInst j k fun _ => { x with state := .sealed }).settleSched j)))

/-- CHURN_POINT_FORMAT, CHURN_VOXEL_CONFIG, CHURN_OCTREE_CONFIG, CHURN_OCTREE_CLEAR, CHURN_TABLE_SPLIT, TABLE_SPLIT_APPLY, CHURN_VOXEL_STATUS and
POINT_FRAME_BUILD (R218 to R247): formats and voxel and octree configurations are taken while their schedule is off; a clear returns the nodes freed; a
split waits for the frame in progress and is applied with both registers; the next closed frame is built. -/
def Obligations.PointCommandsComplete : Prop := ∀ (dt id : Nat) (s : State) (c : Cmd), let u := s.atRow dt id; let j := c.p 0x20 1
  (let n := c.p 0x20 1
    let f : PointFmt := { coord := c.p 0x21 1, int_ := c.p 0x22 1, time := c.p 0x23 1, stride := c.p 0x24 2, skip := c.p 0x26 2, xo := c.p 0x28 1
                          yo := c.p 0x29 1, zo := c.p 0x2A 1, io := c.p 0x2B 1, tof := c.p 0x2C 1, scale := f32Rat (f32At c.params 0x10), unit := c.p 0x34 4
                          minRange := f32Rat (f32At c.params 0x18) }
    let w := if f.coord = 1 then 2 else 4
    Runs s dt id 0x0410 c → n ≤ 63 → f.coord ≤ 2 → f.int_ ≤ 2 → f.time ≤ 3 → 8 ≤ f.stride → f.stride ≤ 64 → f.skip ≤ 1024 →
    f.xo + w ≤ f.stride → f.yo + w ≤ f.stride → f.zo + w ≤ f.stride → (f.int_ ≠ 0 → f.io + f.int_ ≤ f.stride) →
    (f.time ≠ 0 → f.tof + (if f.time = 3 then 2 else 4) ≤ f.stride) → finiteAt c.params 0x18 1 = true →
    inF32 (f32At c.params 0x10) (1 / 1000000) 1 = true → 1 ≤ f.unit → f.unit ≤ 1000000 → 0 ≤ f.minRange → f.minRange ≤ 10 →
    u.foreignStream n c.part = false → u.masking n = [] →
    Completes (.churnPointFormat dt id) s (({ u with chn := { u.chn with fmts := sset {} u.chn.fmts n f } }).done c).settle) ∧
  (let n := c.p 0x21 1; let slots := c.p 0x22 1; let edge := f32Rat (f32At c.params 4); let lo := V3.at c.params 8; let hi := V3.at c.params 0x14
    let sites := c.p 0x40 4; let addr := c.p 0x48 8; let sb := c.p 0x50 4; let b := if n = 0 then [] else u.tableAt c (c.p 0x58 8) (32 * n)
    let specs := (List.range n).map fun i => RbSpec.mk (numAt b (32 * i) 1) (numAt b (32 * i + 1) 1) (numAt b (32 * i + 2) 1) (numAt b (32 * i + 3) 1)
    let v : VoxCfg := { edge := f32At c.params 4, lo := lo, hi := hi, maxSites := sites, halfNs := c.p 0x44 4, slots := slots, addr := addr
                        slotBytes := sb, hold := c.p 0x54 1, specs := specs, loBytes := cut c.params 8 12 }
    Runs s dt id 0x0411 c → j ≤ 3 → n ≤ 16 → slots ≤ 4 → finiteAt c.params 4 7 = true → inF32 (f32At c.params 4) (1 / 50) 2 = true →
    lo.x < hi.x → lo.y < hi.y → lo.z < hi.z → hi.x - lo.x ≤ 65535 * edge → hi.y - lo.y ≤ 65535 * edge → hi.z - lo.z ≤ 65535 * edge →
    4096 ≤ sites → sites ≤ 524288 → 1000000 ≤ c.p 0x44 4 → c.p 0x44 4 ≤ 1000000000 → sb % 65536 = 0 → 1024 + 72 * sites ≤ sb →
    1 ≤ c.p 0x54 1 → c.p 0x54 1 ≤ 8 → addr % 65536 = 0 → u.ownsSched j c.part = true → u.schedOn j = false →
    (slots ≠ 0 → inside addr (slots * sb) stagingBase stagingSize = true ∧ u.writeRange c.part addr (slots * sb) = true) →
    (n ≠ 0 → u.tableErr c.tableReq (c.p 0x58 8) (32 * n) = none) → specsOk specs = true →
    Completes (.churnVoxelConfig dt id) s ((u.modSched j fun x => { x with vox := v, voxNext := 0 }).done c).settle) ∧
  (let o : Oct := { sched := if j = 0xFF then none else some j, depth := c.p 0x21 1, persist := c.p 0x22 1, leaf := f32Rat (f32At c.params 4)
                    centre := V3.at c.params 8 };
    Runs s dt id 0x0412 c → (j = 0xFF ∨ j ≤ 3) → 4 ≤ c.p 0x21 1 → c.p 0x21 1 ≤ 16 → 1 ≤ c.p 0x22 1 → finiteAt c.params 4 4 = true →
    inF32 (f32At c.params 4) (1 / 20) 4 = true → u.ownsOct c.part = true → (j = 0xFF ∨ u.ownsSched j c.part = true) →
    Completes (.churnOctreeConfig dt id) s ((({ u with chn := { u.chn with oct := o } }).octClear).done c).settle) ∧
  (∀ k, Runs s dt id 0x0413 c → u.chn.oct.sched = some k → u.ownsOct c.part = true →
    Completes (.churnOctreeClear dt id) s (u.octClear.doneWith c (leBytes 4 (u.chn.oct.nodes.length - 1))).settle) ∧
  (let o := c.p 0x20 1; let ms := if c.p 0x24 4 = 0 then 100 else c.p 0x24 4; let v := if c.p 0x21 1 = 1 then u.discardFrame else u
    Runs s dt id 0x0414 c → 2 ≤ o → o ≤ 6 → c.p 0x21 1 ≤ 1 → ms ≤ 10000 →
    (∀ i < 4, u.schedOn i = true → u.voxelised i = true → u.schedOwner i = c.part) → u.ownsOct c.part = true → u.chn.split = none →
    Completes (.churnTableSplit dt id) s
      ({ v with chn := { v.chn with split := some { cmd := c.id, oct := o, due := c.acceptNs + ms * 1000000, started := v.ns } } } : State).settle) ∧
  (let r4 := fun (r : Reg) => leBytes 4 (u.reg r).toNat; let r8 := fun (r : Reg) => leBytes 8 (u.reg r).toNat
    Runs s dt id 0x0415 c →
    Completes (.churnVoxelStatus dt id) s (u.doneWith c (r4 .chnVoxStat ++ r4 .chnSplit ++ r4 .chnPtEntries ++ r4 .chnPtUsed ++ r8 .chnPtHead ++
      r8 .chnPtOldest ++ r4 .chnVhUsed ++ r4 .chnVhStash ++ r4 .chnVoxSkim ++ r4 .chnVoxDropTrunc ++ r4 .chnVoxDropRoi ++ r4 .chnRbStat ++
      r4 .chnVsetSkip ++ leBytes 4 0 ++ r4 .chnOctStat ++ r4 .chnOctRefused ++ r8 .chnOctGen)).settle) ∧
  (let e := s.elapse dt;
    (∀ p, e.chn.split = some p → p.cmd = id → e.splitWaits p = false →
      ∃ t, exec (.tableSplitApply dt id) s = .next t ∧ t.chn.split = none ∧ t.reg .chnSplit = BitVec.ofNat 64 p.oct ∧
        t.reg .chnPtEntries = BitVec.ofNat 64 (65536 * (18 - p.oct)) ∧ t.chn.runs = []) ∧
    (∀ i k l r, e.chn.order = (l, k) :: r → e.chn.split = none → e.funcOff 3 0 = false → e.pln.fills = [] → e.frameBusy = none → e.inst? l k = some i → i.state = .building →
      Completes (.pointFrameBuild dt) s (e.buildFrame l i)))

/-- CHURN_TRACK_CONFIG, CHURN_ASSOCIATE, CHURN_TRACK_DROP and CHURN_TRACK_STATUS (R249 to R260): a schedule's owner configures the tracker, with its
table cleared; an association chooses its pairs and waits for its commit, or ends with ST_ASSOC_OVERSIZE under CHN_TRK_CTL bit 29; a live track that its owner names is dropped; a status
returns the tracker's registers. -/
def Obligations.TrackCommandsComplete : Prop := ∀ (dt id : Nat) (s : State) (c : Cmd), let u := s.atRow dt id
  (Runs s dt id 0x0420 c → c.p 0x20 1 = 255 → u.assocBusy = false → (u.trkOn = true → u.trkOwner = c.part) →
    Completes (.churnTrackConfig dt id) s
      ((((({ u with trk := {} }).clearMem (churnBase + 0x1E00000) 0x100000).setReg .chnTrkCtl 0).setReg .chnTrkSeq 0).syncTrk.done c).settle) ∧
  (let j := c.p 0x20 1; let fl := c.p 0x21 1; let slots := c.p 0x25 1; let ring := c.p 0x38 8; let gate := f32At c.params 0x08; let sz := slots * trkSlotBytes
    let k : TrkCfg := { confirm := c.p 0x22 1, tent := c.p 0x23 1, coast := c.p 0x24 1, slots := slots
                        gate := if f32? gate = some 0 then 1134 / 100 else f32Rat gate, penalty := f32Rat (f32At c.params 0x0C)
                        noise := f32Rat (f32At c.params 0x10), velVar := f32Rat (f32At c.params 0x14), ring := ring, coastNs := c.p 0x40 4 }
    Runs s dt id 0x0420 c → j ≤ 3 → fl ≤ 3 → 1 ≤ c.p 0x22 1 → c.p 0x22 1 ≤ 15 → 1 ≤ c.p 0x23 1 → c.p 0x23 1 ≤ 15 → 1 ≤ c.p 0x24 1 → 2 ≤ slots → slots ≤ 64 →
    c.p 0x26 2 = 0 → (f32? gate = some 0 ∨ inF32 gate 1 100 = true) → inF32 (f32At c.params 0x0C) 0 100 = true →
    inF32 (f32At c.params 0x10) (1 / 100) 100 = true → inF32 (f32At c.params 0x14) (1 / 100) 1000 = true →
    (c.p 0x40 4 = 0 ∨ (1000000 ≤ c.p 0x40 4 ∧ c.p 0x40 4 ≤ 4000000000)) → u.assocBusy = false → u.schedOn j = true → u.schedOwner j = c.part →
    ring % 4096 = 0 → u.writeRange c.part ring sz = true →
    Completes (.churnTrackConfig dt id) s (((((({ ({ u with trk := {} }).clearMem (churnBase + 0x1E00000) 0x100000 with trk := { cfg := k } }).clearMem
      ring sz).setReg .chnTrkCtl (BitVec.ofNat 64 (2 ^ 31 + fl % 2 * 2 ^ 30 + fl / 2 * 2 ^ 29 + c.part * 2 ^ 26 + j * 2 ^ 24))).setReg .chnTrkSeq
      0).syncTrk).done c).settle) ∧
  (∀ seq tag dets, let t := c.p 0x20 8; let a := u.associate c t seq tag dets; let v : State := { u with freeCtr := u.freeCtr + 1 };
    Runs s dt id 0x0421 c → (∀ x ∈ (s.elapse dt).ccx.cmds, x.code = 0x0421 → x.state = .accepted ∨ x.state = .running → id ≤ x.id) → u.trkOn = true →
    u.trkOwner = c.part → c.p 0x30 4 ≤ 4096 → c.p 0x34 4 = 0 → u.firstRecord t = .ok seq → u.detections c = .ok (tag, dets) →
    Completes (.churnAssociate dt id) s (if a.excess = [] ∨ bit (u.reg .chnTrkCtl) 29 = false then
        (({ v with trk := { v.trk with pend := some a } }).setVerdict c.id 0).settle
      else (((a.excess.foldl (fun (x : State) o => x.raise 0x0421 x.trkOwner (evData [t, o.1.length, o.2.length]))
        v).countSat .chnTrkOversize 16 16).failCmd c.id 0x55).settle)) ∧
  (∀ e, Runs s dt id 0x0422 c → u.trkOn = true → u.trkOwner = c.part →
    u.trk.tracks.find? (fun e => e.2.id == c.p 0x20 4 && e.2.state != 4) = some e →
    Completes (.churnTrackDrop dt id) s ((((u.putTrack e.1 { e.2 with state := 4 }).syncTrk).setResult c.id 0x20 (leBytes 1 e.2.state)).done c).settle) ∧
  (let r4 := fun (r : Reg) => leBytes 4 (u.reg r).toNat; let r8 := fun (r : Reg) => leBytes 8 (u.reg r).toNat
    Runs s dt id 0x0423 c → Completes (.churnTrackStatus dt id) s (u.doneWith c (r4 .chnTrkCtl ++ leBytes 4 u.trkStat.toNat ++ r8 .chnTrkSeq ++
      r8 .chnTrkLast ++ r4 .chnTrkBornDel ++ r4 .chnTrkFull ++ r4 .chnTrkOversize ++ r4 .chnTrkVoid ++ r4 .chnTrkNextId)).settle)

/-- The Planner's commands and jobs (R263 to R285): the grid takes its configuration and a new generation; a write of a box fills its cells; a body
model is stored; a check or a search whose tables are readable queues its work; the stop service takes its ring; a fill that is due is made; the
checker takes the next job; a search that reaches its deadline ends; a stop record that is due is built. -/
def Obligations.PlannerCommandsComplete : Prop := ∀ (dt id : Nat) (s : State) (c : Cmd), let u := s.atRow dt id
  (let j := c.p 0x20 1; let e := f32Rat (f32At c.params 4); let o := V3.at c.params 8; let fl := c.p 0x21 1
    let snap := fun (q : Rat) => e * (((q / e).floor : Int) : Rat)
    let v : State := { u with pln := { u.pln with
      ox := snap o.x, oy := snap o.y, oz := o.z, maxRange := f32Rat (f32At c.params 0x14), tag := {}, ego := none, fills := [] } }
    let w := v.setReg .plnGridCtl (BitVec.ofNat 64 (2 ^ 31 + fl % 2 * 2 ^ 30 + fl / 2 * 2 ^ 29 + c.part * 2 ^ 26 +
      (if j = 255 then 0 else 2 ^ 25 + j * 2 ^ 23)))
    Runs s dt id 0x0501 c → (j = 255 ∨ (j ≤ 3 ∧ u.schedOn j = true ∧ u.schedOwner j = c.part)) → fl ≤ 3 → c.p 0x22 2 = 0 → inF32 (f32At c.params 4) (1 / 50) (1 / 2) = true → e ≠ 0 →
    finiteAt c.params 8 3 = true → inF32 (f32At c.params 0x14) 1 200 = true → u.jobs = [] → u.liveSearches = [] → u.foreignGrid c.part = false →
    Completes (.planGridConfig dt id) s ((((((w.setReg .plnGridEdge ((f32At c.params 4).setWidth 64)).setReg .plnGridScroll 0).clearMem gridBase
      gridSize).syncGrid.nextGen {}).done c).settle)) ∧
  (let st := c.p 0x2C 1; let e := s.elapse dt
    let x := match u.pln.writes.find? fun w => w.cmd == c.id with | some w => u.gridWaited w.since | none => u
    let v := (boxCells c).foldl (fun (s : State) b => s.setCell b.1 b.2.1 b.2.2 st)
      { x with pln := { x.pln with writes := x.pln.writes.filter fun w => w.cmd != c.id } }
    let w := v.setReg .plnGridGen (v.reg .plnGridGen + 1)
    Runs s dt id 0x0502 c → e.gridOn = true → e.foreignGrid c.part = false → (st = 0 ∨ st = 3) → c.p 0x26 2 ≤ 511 → c.p 0x28 2 ≤ 511 →
    c.p 0x2A 2 ≤ 63 → c.p 0x20 2 ≤ c.p 0x26 2 → c.p 0x22 2 ≤ c.p 0x28 2 → c.p 0x24 2 ≤ c.p 0x2A 2 → e.hold = false → e.pln.fills = [] →
    Completes (.planGridWrite dt id) s (w.doneWith c (leBytes 8 (w.reg .plnGridGen).toNat)).settle) ∧
  (let m := c.p 0x20 1; let links := c.p 0x21 1; let n := c.p 0x22 1
    let rows := (List.range n).map fun i => cut (u.tableAt c (c.p 0x28 8) (32 * n)) (32 * i) 32
    Runs s dt id 0x0503 c → m ≤ 15 → 1 ≤ links → links ≤ 32 → 1 ≤ n → n ≤ 64 → u.foreignGrid c.part = false → u.modelBusy m = false →
    u.tableErr c.tableReq (c.p 0x28 8) (32 * n) = none → (∀ r ∈ rows, primOk links r = true) →
    Completes (.planModelSet dt id) s
      (({ u with pln := { u.pln with models := sins (sdel u.pln.models m) m ⟨links, rows.map Prim.parse⟩ } }).done c).settle) ∧
  (∀ b paths, let n := c.p 0x22 2; let fl := c.p 0x21 1; let res := c.p 0x38 8
    let par : ChkPar := { model := c.p 0x20 1, unknownHit := fl.testBit 0, outHit := fl.testBit 1, margin := f32Rat (f32At c.params 4)
                          floorZ := f32Rat (f32At c.params 8), step := u.chkStep (f32At c.params 12) }
    let js := paths.zipIdx.map fun p => Job.mk (.check c.id p.2) c.deadline par p.1.2
    let k : ChkCmd := { cmd := c.id, results := res, firstClear := fl.testBit 2, left := n }
    Runs s dt id 0x0504 c → u.model? (c.p 0x20 1) = some b → u.foreignGrid c.part = false → fl ≤ 7 → 1 ≤ n → n ≤ 256 →
    inF32 (f32At c.params 4) 0 1 = true → finiteAt c.params 8 1 = true → u.stepOk (f32At c.params 12) = true → u.plnAccess c true res (32 * n) = none →
    u.tableErr c.tableReq (c.p 0x30 8) (16 * n) = none →
    u.readPaths c b.links 1024 (pathHeads (u.tableAt c (c.p 0x30 8) (16 * n)) n) = .ok paths →
    Completes (.planCheck dt id) s ({ u with pln := { u.pln with jobs := u.pln.jobs ++ js, checks := u.pln.checks ++ [k] } }).settle) ∧
  (let k : StopCfg := { on := true, ring := c.p 0x20 8, slots := c.p 0x28 1, model := c.p 0x29 1, unknownHit := (c.p 0x2A 1).testBit 0
                        decel := f32Rat (f32At c.params 0x0C), margin := f32Rat (f32At c.params 0x10), floorZ := f32Rat (f32At c.params 0x14) };
    Runs s dt id 0x0506 c → u.gridOn = true → u.foreignGrid c.part = false → 2 ≤ c.p 0x28 1 → c.p 0x28 1 ≤ 16 → c.p 0x2A 1 ≤ 1 →
    (u.model? (c.p 0x29 1)).isSome = true → inF32 (f32At c.params 0x0C) (1 / 10) 20 = true → inF32 (f32At c.params 0x10) 0 1 = true →
    finiteAt c.params 0x14 1 = true → c.p 0x20 8 % 4096 = 0 → u.writeRange c.part (c.p 0x20 8) (4096 * c.p 0x28 1) = true →
    Completes (.planStopConfig dt id) s ((({ u with pln := { u.pln with stop := k } }).setReg .plnStopSeq 0).done c).settle) ∧
  (let r4 := fun (r : Reg) => leBytes 4 (u.reg r).toNat; let r8 := fun (r : Reg) => leBytes 8 (u.reg r).toNat
    Runs s dt id 0x0507 c → Completes (.planStatus dt id) s (u.doneWith c (r4 .plnGridCtl ++ leBytes 4 u.plnGridStat.toNat ++ r4 .plnGridEdge ++
      leBytes 4 0 ++ r4 .plnGridOrgX ++ r4 .plnGridOrgY ++ r4 .plnGridOrgZ ++ leBytes 4 0 ++ r8 .plnGridGen ++ r8 .plnGridTagT ++ r4 .plnGridScroll ++
      r4 .plnGridSkip ++ r4 .plnGridWaitNs)).settle)

/-- PLAN_SEARCH, GRID_FILL, CHECK_JOB, SEARCH_TIMEOUT and STOP_RECORD_BUILD (R264, R273, R275 to R281): a search whose start, primitives or candidates and
place are readable clears its mark and its record's magic and queues; a fill that no hold stops is made and its wait noted; the job that is next is
checked and taken from the queue; a search at its deadline is late; a due stop record is built. -/
def Obligations.PlannerJobsComplete : Prop := ∀ (dt id : Nat) (s : State), let u := s.elapse dt
  (∀ f r, u.pln.fills = f :: r → u.hold = false →
    Completes (.gridFill dt) s ((({ u with pln := { u.pln with fills := r } }).fill f).gridWaited f.since)) ∧
  (∀ j m, u.pln.stopDue = 0 → u.pln.fills = [] → u.waitingWrites = [] → nextJob u.jobs = some j → u.model? j.par.model = some m →
    let v : State := { u with pln := { u.pln with jobs := dropJob j u.pln.jobs } }
    (v.skips j.use.cmd = false → let h := v.checkPath m j.par j.path
      Completes (.checkJob dt) s (((v.countJob h.isSome).jobDone j false h).pumpPln).settle) ∧
    (v.skips j.use.cmd = true → Completes (.checkJob dt) s ((v.jobDone j true none).pumpPln).settle)) ∧
  (∀ r, u.pln.searches.find? (fun r => r.cmd == id) = some r → r.state = .searching → u.isRunning id = true → r.deadline ≤ u.now + r.reserve →
    Completes (.searchTimeout dt id) s (u.searchLate r).pumpPln.settle) ∧
  (u.pln.stopDue ≠ 0 → Completes (.stopRecordBuild dt) s u.buildStop) ∧
  (∀ c m ds dout ps, let a := s.atRow dt id; let n := c.p 0x50 2; let w := wayBytes m.links; let sb := a.rdSeen ds.base w; let lat := c.p 0x21 1 == 0
    let tb := a.tableAt c (c.p 0x48 8) (if lat then 64 * n else 16 * n); let rows := (List.range n).map fun i => cut tb (64 * i) 64
    let par : ChkPar := { model := c.p 0x20 1, unknownHit := (c.p 0x22 1).testBit 0, outHit := (c.p 0x22 1).testBit 1
                          margin := f32Rat (f32At c.params 4), floorZ := f32Rat (f32At c.params 0x24), step := a.chkStep (f32At c.params 0x34) }
    let r : Search := { cmd := c.id, deadline := c.deadline, reserve := if c.p 0x5C 4 = 0 then 1000000 else c.p 0x5C 4, lattice := lat
                        retries := c.p 0x23 1, par := par, start := Way.parse m.links sb, startTag := ds.tag, goal := V3.at c.params 0x10
                        posTol := f32Rat (f32At c.params 0x1C), yawTol := f32Rat (f32At c.params 0x20), vNom := f32Rat (f32At c.params 0x38)
                        maxWp := c.p 0x52 2, out := dout.addr, outBase := dout.base, prims := if lat then rows.map LPrim.parse else []
                        cands := sortCands (ps.map fun p => Cand.mk p.1 p.2) };
    Runs s dt id 0x0505 c → a.model? (c.p 0x20 1) = some m → a.gridOn = true → a.foreignGrid c.part = false → a.searchOk c = true →
    a.readDesc c (c.p 0x28 8) = .ok ds → a.readDesc c (c.p 0x60 8) = .ok dout → w ≤ ds.dense → 0x40 + w * c.p 0x52 2 ≤ dout.dense →
    ds.dev = 255 → dout.dev = 255 → a.plnAccess c false ds.base w = none → a.plnAccess c true dout.base dout.dense = none → wayOk m.links sb = true →
    a.tableErr c.tableReq (c.p 0x48 8) (if lat then 64 * n else 16 * n) = none →
    (if lat then .ok [] else a.readPaths c m.links (c.p 0x52 2) (pathHeads tb n)) = .ok ps → (lat = true → ∀ x ∈ rows, lprimOk x = true) →
    let v := (a.setMark dout.addr false).wr dout.base (leBytes 4 0)
    Completes (.planSearch dt id) s (({ v with pln := { v.pln with searches := v.pln.searches ++ [r] } }).pumpPln).settle) ∧
  (u.pln.stopDue ≠ 0 → Completes (.checkJob dt) s u.buildStop)

/-- The rows of TENSOR_MATMUL, TENSOR_VECTOR, TENSOR_SPCONV, TENSOR_CHAIN, ATTN_FWD and ATTN_BWD (R296, R303, R305 to R308, R349 to R353): the
started descriptor of an unchecked command computes its kernel over its tensors; the kernel's rows are stored, results and counters updated,
and the descriptor ends with verdict 0; a paged walk that has pages left takes its started descriptors as run. Whatever a command's started descriptors
are (checked ones too, in windows too), its row runs each of them in queue order. -/
def Obligations.TensorRowsComplete : Prop := ∀ (dt id : Nat) (s : State) (c : Cmd) (j : TJob), let u := s.elapse dt; let v := s.atRow dt id
  (Ready u id 0x0601 c j → j.band = 0 → numAt j.raw 0 1 = 1 →
    Completes (.tensorMatmul dt id) s (v.afterKernel j (v.matmul (mmOf j.raw j.ds) v.freeCtr)).settle) ∧
  (Ready u id 0x0602 c j → j.band = 0 → numAt j.raw 0 1 = 2 →
    Completes (.tensorVector dt id) s (v.afterKernel j (v.vector (vecOf j.raw j.ds) v.freeCtr)).settle) ∧
  (Ready u id 0x0603 c j → j.band = 0 → numAt j.raw 0 1 = 3 →
    Completes (.tensorSpconv dt id) s (v.afterKernel j (v.spconv (v.spOf j.raw j.ds) v.freeCtr)).settle) ∧
  (Ready u id 0x0604 c j → j.band = 0 →
    Completes (.tensorChain dt id) s (v.afterKernel j (v.kernelOf j v.freeCtr)).settle) ∧
  (Ready u id 0x0610 c j → j.band = 0 → numAt j.raw 0 1 = 4 → (u.kv.walks.any fun w => w.cmd == id) = false →
    Completes (.attnFwd dt id) s
      (v.afterKernel j (v.attnFwd (v.attnOf j.raw j.ds v.freeCtr) (v.freeCtr + 1) j.units (tdescD j.ds 0x28) (tdesc j.ds 0x30))).settle) ∧
  (∀ w, u.cmd? id = some c → c.state = .running → c.code = 0x0610 → c.id = id → u.kv.walks.find? (fun w => w.cmd == id) = some w → w.todo ≠ [] →
    (∀ l, u.inSchedule l = false) →
    Completes (.attnFwd dt id) s (v.setTar fun t => { t with jobs := t.jobs.map fun (x : TJob) =>
      if x.cmd = id ∧ x.started = true then { x with ran := true } else x }).settle) ∧
  (Ready u id 0x0611 c j → j.band = 0 → numAt j.raw 0 1 = 5 →
    Completes (.attnBwd dt id) s (v.afterKernel j (v.attnBwd (bwdOf (v.attnOf j.raw j.ds v.freeCtr) j.ds) (v.freeCtr + 1) j.units)).settle) ∧
  (∀ row code, (row, code) ∈ [(Instr.tensorMatmul dt id, 0x0601), (.tensorVector dt id, 0x0602), (.tensorSpconv dt id, 0x0603), (.tensorChain dt id, 0x0604),
      (.attnFwd dt id, 0x0610), (.attnBwd dt id, 0x0611)] →
    u.cmd? id = some c → c.state = .running → c.code = code → (u.kv.walks.any fun w => w.cmd == id) = false →
    Completes row s ((u.readyJobs id).foldl State.runJob v).settle) ∧
  (u.cmd? id = some c → c.state = .running → c.code = 0x0610 → (u.kv.walks.any fun w => w.cmd == id) = true →
    Completes (.attnFwd dt id) s (v.pagedFwd c).settle)

/-- TENSOR_RNG_SEED, TENSOR_CORE_STATUS, SAFETY_BAND_LOAD and SAFETY_FRAMESET_CONFIG (R299, R303, R430, R433): a seed other than zero waits for
the next descriptor boundary of its core, or of all 14; a status returns the bank of a mapped core; bands in range and a frame set in writable
memory are taken. -/
def Obligations.TensorCommandsComplete : Prop := ∀ (dt id : Nat) (s : State) (c : Cmd), let u := s.atRow dt id
  (∀ p, Runs s dt id 0x0605 c → leVal (cut c.params 8 16) ≠ 0 → c.p 0x20 1 ≠ 0xFF → u.physOf (c.p 0x20 1) = some p →
    Completes (.tensorRngSeed dt id) s ((u.seedCore p (cut c.params 8 16)).done c).settle) ∧
  (Runs s dt id 0x0605 c → leVal (cut c.params 8 16) ≠ 0 → c.p 0x20 1 = 0xFF →
    Completes (.tensorRngSeed dt id) s (((List.range 14).foldl (fun s p => s.seedCore p (cut c.params 8 16)) u).done c).settle) ∧
  (∀ p, Runs s dt id 0x0606 c → u.physOf (c.p 0x20 1) = some p → Completes (.tensorCoreStatus dt id) s (u.doneWith c (u.coreBank p)).settle) ∧
  (let n := c.p 0x20 2; let b := u.tableAt c (c.p 0x28 8) (16 * n);
    Runs s dt id 0x0802 c → 1 ≤ n → n ≤ 4095 → (∀ j ∈ u.tar.jobs, j.part = c.part → j.band = 0) →
    (∀ x ∈ u.ccx.cmds, x.part = c.part → x.state = .accepted → x.group = 6 → x.code ≠ 0x0604 → x.p 0x24 2 % 4096 = 0) →
    u.tableErr c.tableReq (c.p 0x28 8) (16 * n) = none → (∀ i < n, numAt b (16 * i + 8) 4 ≤ 1000000) →
    Completes (.safetyBandLoad dt id) s ((u.setPart c.part { u.part c.part with bands := (List.range n).map fun (i : Nat) =>
      (f32At b (16 * i), f32At b (16 * i + 4), numAt b (16 * i + 8) 4, (numAt b (16 * i + 12) 4).testBit 0) }).done c).settle) ∧
  (let a := c.p 0x28 8;
    Runs s dt id 0x0803 c → 1 ≤ c.p 0x20 1 → c.p 0x20 1 ≤ 15 → c.p 0x21 1 ≠ 1 → c.p 0x21 1 ≤ 64 → a % 64 = 0 →
    (inside a 64 0 hbmSize = true ∨ inside a 64 stagingBase stagingSize = true) →
    u.access (.part c.part) .other true a 64 = none →
    Completes (.safetyFramesetConfig dt id) s
      ((u.putFrame { part := c.part, set := c.p 0x20 1, sampleN := c.p 0x21 1, recAddr := a }).done c).settle)

/-- RNG_SEED_HI_WRITE, DESCRIPTOR_START and TILE_COMPLETE (R120, R289, R290, R299, R309, R310, R431, R432): the high half commits the seed with the
low half held; the descriptor at the head of a core's queue starts, after a waiting seed; a residue mismatch is counted on its physical core, a
mismatch after recomputation fails the command with ST_RESIDUE, and of each 16 tiles of a primary output the picked one adds its elements out of
band; an uncorrectable line of a core's memory fails the command. -/
def Obligations.TensorEventsComplete : Prop := ∀ (dt : Nat) (s : State), let u := s.elapse dt
  (∀ p v, let seed := leBytes 8 (sget 0 u.tar.rngLo p).toNat ++ leBytes 8 v.toNat;
    p < 14 → leVal seed ≠ 0 → Completes (.rngSeedHiWrite dt p v) s (u.seedCore p seed)) ∧
  (∀ l j, (u.queued l).head? = some j → u.runsOn l = true → u.tar.starters = [] → u.inSchedule l = false → j.core = l → j.band = 0 →
    (u.tar.jobs.filter fun e => e.core == l && e.started) = [] → u.tar.rngPend = [] →
    Completes (.descriptorStart dt l) s (u.updJob j.seq fun x => { x with started := true, startedAt := u.ns, rerun := 0 })) ∧
  (∀ l j p b, (u.queued l).head? = some j → u.runsOn l = true → u.tar.starters = [] → u.inSchedule l = false → j.core = l → j.band = 0 →
    (u.tar.jobs.filter fun e => e.core == l && e.started) = [] → u.physOf l = some p → u.tar.rngPend = [(p, b)] →
    ∃ t, exec (.descriptorStart dt l) s = .next t ∧ (p, b) ∈ t.tar.rng ∧ t.tar.rngPend = []) ∧
  (∀ l j r p, u.tar.jobs.find? (fun j => (j.core == l && j.started && !j.ran)) = some j → u.physOf l = some p →
    (r.residueBad = false → r.recomputeBad = false → r.memBad = none → (j.band = 0 ∨ r.primary = false) → Completes (.tileComplete dt l r) s u) ∧
    (r.residueBad = true → r.recomputeBad = false → r.memBad = none → j.band = 0 → (u.tar.residAt.find? fun e => e.1 == p) = none →
      1 ≤ u.ssi.policy.residMax →
      Completes (.tileComplete dt l r) s ((u.setTar fun t => { t with residAt := setAt t.residAt p [u.ns] }).countSat (.tarCoreResid p) 0 32)) ∧
    (r.residueBad = true → r.recomputeBad = true → (u.tar.residAt.find? fun e => e.1 == p) = none → 1 ≤ u.ssi.policy.residMax → u.configured = false →
      Completes (.tileComplete dt l r) s
        (((u.setTar fun t => { t with residAt := setAt t.residAt p [u.ns] }).countSat (.tarCoreResid p) 0 32).failJob j 0x64)) ∧
    (r.residueBad = false → r.recomputeBad = false → r.memBad = none → j.band ≠ 0 → r.primary = true → j.tiles % 16 ≠ 0 →
      let b := u.tolBand j.part j.band
      Completes (.tileComplete dt l r) s (u.updJob j.seq fun x => if j.tiles % 16 = j.pick then
        { x with tiles := x.tiles + 1, pick := j.pick, shadowBad := x.shadowBad + b.outOf r.shadow
                 disagrees := x.disagrees || b.disagrees r.shadow.length (b.outOf r.shadow) }
        else { x with tiles := x.tiles + 1, pick := j.pick })) ∧
    (let v := if r.residueBad = true ∨ r.recomputeBad = true then u.residue p j.part else u;
      (r.recomputeBad = true → Completes (.tileComplete dt l r) s ((v.failJob j 0x64).startPair p none j.part false)) ∧
      (∀ a, r.recomputeBad = false → r.memBad = some a → Completes (.tileComplete dt l r) s (v.coreUe j a)) ∧
      (r.recomputeBad = false → r.memBad = none → (j.band = 0 ∨ r.primary = false) → Completes (.tileComplete dt l r) s v) ∧
      (r.recomputeBad = false → r.memBad = none → j.band ≠ 0 → r.primary = true → Completes (.tileComplete dt l r) s (v.shadowTile j r)))) ∧
  (∀ l j, let fl := u.tar.jobs.filter fun e => e.core == l && e.started
    (u.queued l).head? = some j → u.runsOn l = true → (u.tar.starters.any fun r => r.slot == 16 + (u.physOf l).getD 0) = false →
    (u.inSchedule l = true → u.timeOf j ≤ (((u.windowsOf j.part l).foldl Nat.max 0 : Nat) : Rat)) → fl.length < 8 → (∀ e ∈ fl, e.ran = true) →
    u.hazard j = false → u.windowTakes j = true →
    let p := (u.physOf l).getD 0
    let v := match u.tar.rngPend.find? fun e => e.1 == p with
      | some e => u.setTar fun t => { t with rngPend := t.rngPend.filter fun (x : Nat × Bytes) => x.1 != p
                                             rng := (t.rng.filter fun (x : Nat × Bytes) => x.1 != p) ++ [(p, e.2)] }
      | none => u
    Completes (.descriptorStart dt l) s ((v.sample j).1.updJob j.seq fun x => { x with started := true, startedAt := v.ns, rerun := (v.sample j).2 }))

/-- CHECKER_RERUN_START, CHECKER_WAIT_TIMEOUT, CHECK_VERDICT, the starter windows, STARTER_COMPLETE and STARTER_DIGEST_CHECK (R433 to R436): a sampled
command gets a free checker; without one in check_wait_ns the rerun is dropped, counted and told; a verdict ends the rerun, an agreeing one with the
frame set's record and one that disagrees as a disagreement; a window starts the next usable set and, when it closes first, the starter is late; a
starter that passes ends its run, one that fails retires its core, and one of a pair is judged with its other side; a set whose digest fails is not
used again. -/
def Obligations.CheckRowsComplete : Prop := ∀ (dt : Nat) (s : State), let u := s.elapse dt
  (∀ id k j, u.tar.jobs.find? (fun j => j.cmd == id && j.rerun == 1 && j.started) = some j → k < u.checkers.length → k < 2 →
    u.checkerBusy (u.fldOf (.ssiStarterCore k) 0 4) = false →
    Completes (.checkerRerunStart dt id k) s (u.updJob j.seq fun x => { x with rerun := 2, rerunSlot := k })) ∧
  (∀ id j, u.tar.jobs.find? (fun j => j.cmd == id && j.rerun == 1 && j.ran) = some j → j.ranAt + u.ssi.policy.checkWait ≤ u.ns →
    Completes (.checkerWaitTimeout dt id) s
      (((u.updJob j.seq fun x => { x with rerun := 3 }).countSat .ssiChkSkip 0 32).raiseLim 0x0808 0 j.part (evData [j.part, j.set]))) ∧
  (∀ id j rr x, u.tar.jobs.find? (fun j => j.cmd == id && j.ran && j.band != 0 && j.rerun != 1) = some j → j.rerun ≠ 2 → j.disagrees = false →
    u.tar.retires = [] → u.setOf j = some x → u.tar.chains = [] →
    let d := tdescD j.ds (j.outs.headD 0)
    ∃ t, exec (.checkVerdict dt id rr) s = .next t ∧
      ∃ y ∈ t.tar.sets, y.part = x.part ∧ y.set = x.set ∧ y.frame = x.frame + 1 ∧ y.goodFrame = x.frame + 1 ∧ y.suspect = false ∧
        y.goodDesc = d.addr ∧ y.goodTag = tagOut j.tags) ∧
  (∀ k n, let y := u.ssi.policy; let open_ := y.starterPhase + sget 0 u.ssi.slotNext k * y.starterPeriod + (if k = 1 then y.starterPeriod / 2 else 0)
    u.configured = true → k < u.checkers.length → k < 2 → u.tar.starters = [] → u.starterSet = some n → open_ ≤ u.now → u.now < open_ + y.starterPeriod →
    ∃ t, exec (.starterWindowOpen dt k) s = .next t ∧
      t.tar.starters = [{ slot := k, set := n, opened := u.now, closes := open_ + y.starterLen + u.fldOf (.mmvArbCtl 56) 0 13 * 1000 + 1000 }] ∧
      t.tar.starterNext = n + 1 ∧ sget 0 t.ssi.slotNext k = sget 0 u.ssi.slotNext k + 1) ∧
  (∀ k r, u.tar.starters = [r] → r.slot = k → k < 2 → r.pair = false → r.late = false → r.closes ≤ u.now →
    Completes (.starterWindowClose dt k) s ((u.setTar fun t => { t with starters := [{ r with late := true }] }).countSat (.ssiStarterStat k) 8 8)) ∧
  (∀ k r x out, u.tar.starters = [r] → r.slot = k → k < 16 → r.pair = false → r.late = false → u.ssi.starters[r.set]? = some x → u.tar.retires = [] →
    u.starterAgrees x out = true →
    Completes (.starterComplete dt k out) s (u.setTar fun t => { t with starters := [] }).settle) ∧
  (let v := u.setSsi fun x => { x with digestAt := u.ns };
    u.configured = true → u.ssi.digestAt + 3600000000000 ≤ u.ns →
    ((∀ x ∈ u.ssi.starters, x.bad = true) → Completes (.starterDigestCheck dt) s v) ∧
    (∀ x, u.ssi.starters = [x] → x.bad = false → Completes (.starterDigestCheck dt) s
      (if v.digestOk x then v else (v.setSsi fun y => { y with starters := [{ x with bad := true }] }).raise 0x0804 0 (evData [0xF, 2, 0])))) ∧
  (∀ id j rr, u.tar.jobs.find? (fun j => j.cmd == id && j.ran && j.band != 0 && j.rerun != 1) = some j →
    let b := u.tolBand j.part j.band; let re := j.rerun == 2; let bad := b.outOf rr; let dis := j.disagrees || (re && b.disagrees rr.length bad)
    let frame := match u.setOf j with | some x => x.frame + 1 | none => 0
    let v := ((u.noteVerdict j.part dis).frameVerdict j dis).endJob j (if dis then 4 else 0)
    Completes (.checkVerdict dt id rr) s (if dis then v.disagree j frame (j.shadowBad + (if re then bad else 0)) else v).pumpRetire.settle) ∧
  (∀ k, let y := u.ssi.policy; let n := sget 0 u.ssi.slotNext k
    let open_ := y.starterPhase + n * y.starterPeriod + (if k = 1 then y.starterPeriod / 2 else 0); let skip := (u.now - open_) / Nat.max 1 y.starterPeriod
    u.configured = true → k < u.checkers.length → k < 2 → open_ ≤ u.now →
    let v := u.setSsi fun x => { x with slotNext := sset 0 x.slotNext k (n + skip + 1) }
    Completes (.starterWindowOpen dt k) s (if v.tar.starters.any (fun r => r.slot == k) then v else
      v.beginStarter k (open_ + skip * y.starterPeriod + y.starterLen + v.fldOf (.mmvArbCtl 56) 0 13 * 1000 + 1000) false)) ∧
  (∀ k r, u.tar.starters.find? (fun r => r.slot == k && !r.pair && !r.late) = some r → r.closes ≤ u.now →
    Completes (.starterWindowClose dt k) s ((u.setTar fun t => { t with starters := t.starters.map fun (x : StarterRun) =>
      if x.slot = k then { x with late := true } else x }).countSat (.ssiStarterStat k) 8 8)) ∧
  (∀ k r x out, u.tar.starters.find? (fun r => r.slot == k) = some r → u.ssi.starters[r.set]? = some x →
    let ok := u.starterAgrees x out; let v := u.setTar fun t => { t with starters := t.starters.filter fun x => x.slot != k }
    let p := if k < 16 then v.fldOf (.ssiStarterCore k) 0 4 else k - 16
    let a := if r.late then v.raise 0x0805 0 (evData [k, v.now - r.closes]) else v
    let b := if ok then a else (if k < 2 then a.countSat (.ssiStarterStat k) 0 8 else a).raise 0x0804 0 (evData [p, if k < 16 then 1 else 0, r.set])
    (r.pair = false → Completes (.starterComplete dt k out) s (if ok then b else b.retire none p).pumpRetire.settle) ∧
    (r.pair = true →
      let q := b.setTar fun t => { t with pairs := t.pairs.map fun (x : StarterPair) =>
        if k = 16 + x.core then { x with active := some ok } else if x.checker = some k ∧ x.side = none then { x with side := some ok } else x }
      Completes (.starterComplete dt k out) s (q.tar.pairs.foldl State.judgePair q).pumpRetire.settle)) ∧
  (let v := u.setSsi fun x => { x with digestAt := u.ns };
    u.configured = true → u.ssi.digestAt + 3600000000000 ≤ u.ns →
    Completes (.starterDigestCheck dt) s (v.ssi.starters.zipIdx.foldl (fun (s : State) e =>
      if e.1.bad || s.digestOk e.1 then s
      else (s.setSsi fun x => { x with starters := x.starters.zipIdx.map fun (y : StarterSet × Nat) =>
        if y.2 = e.2 then { y.1 with bad := true } else y.1 }).raise 0x0804 0 (evData [0xF, 2, e.2])) v))

/-- The rows of MOVE_COPY, MOVE_CONCAT, MOVE_GATHER, MOVE_SCATTER and MOVE_QUEUE_READ on tensors of this device (R316, R318, R320 to R322, R325), and
on those of other devices: the rows that the rule gives each output are stored at their places, out-of-range indices are counted, and the command
awaits its commit with verdict 0. -/
def Obligations.MoveRowsComplete : Prop := ∀ (dt id : Nat) (s : State) (c : Cmd) (j : MoveJob), let v := s.atRow dt id
  let put := fun (d : Desc) (x : State) (r : Nat × List Nat) => x.store r.1 (packRow d.fmt r.2)
  (let y := tdescD j.ds 0x28;
    Moves s dt id 0x0701 c j → v.isLocal y = true → Completes (.moveCopy dt id) s
      (((v.copyRows c (tdescD j.ds 0x20) y v.freeCtr).foldl (put y) { v with freeCtr := v.freeCtr + 2 }).setVerdict c.id 0).settle) ∧
  (let y := tdescD j.ds 0x20; let axis := c.p 0x31 1; let src := (j.ds.filter fun e => e.1 != 0x20).map (·.2);
    Moves s dt id 0x0702 c j → v.isLocal y = true → Completes (.moveConcat dt id) s
      (((y.outerIdx.map fun o => (y.rowAt o, (List.range (y.ext 0)).map fun k =>
        match concatAt axis src ((k :: o).getD axis 0) with
        | some (d, i) => v.code d ((k :: o).set axis i)
        | none => 0)).foldl (put y) { v with freeCtr := v.freeCtr + 1 }).setVerdict c.id 0).settle) ∧
  (let x := tdescD j.ds 0x20; let y := tdescD j.ds 0x30; let idx := v.indices v.freeCtr (tdescD j.ds 0x28);
    let pad := padCode v.freeCtr y.fmt {} (f32Val (BitVec.ofNat 32 (c.p 0x3C 4)));
    Moves s dt id 0x0703 c j → v.isLocal x = true → v.isLocal y = true → Completes (.moveGather dt id) s
      ((((idx.zipIdx.map fun e => (y.rowAt [e.2], (List.range (y.ext 0)).map fun k => if e.1 < x.ext 1 then v.code x [k, e.1] else pad)).foldl
        (put y) { v with freeCtr := v.freeCtr + 2 }).oob c (idx.filter fun i => decide (x.ext 1 ≤ i)).length).setVerdict c.id 0).settle) ∧
  (let x := tdescD j.ds 0x20; let y := tdescD j.ds 0x30; let idx := v.indices v.freeCtr (tdescD j.ds 0x28);
    let step1 := fun (w : State) (e : Nat × Nat) =>
      if y.ext 1 ≤ e.1 then w
      else w.store (y.rowAt [e.1]) (packRow y.fmt (((List.range (y.ext 0)).map fun k => w.code x [k, e.2]).zipIdx.map fun r =>
        scatterCode (c.p 0x38 1) y.fmt (w.elem y.fmt (y.rowAt [e.1]) r.2) r.1));
    Moves s dt id 0x0704 c j → v.isLocal x = true → v.isLocal y = true → Completes (.moveScatter dt id) s
      ((((idx.zipIdx.foldr (insByKey fun i => Config.freeAt v.freeCtr i) []).foldl step1 { v with freeCtr := v.freeCtr + 2 }).oob c
        (idx.filter fun i => decide (y.ext 1 ≤ i)).length).setVerdict c.id 0).settle) ∧
  (let d := tdescD j.ds 0x28; let n := c.p 0x20 1; let l := fitPackets (d.rowBytes * d.count) (c.p 0x30 4) (v.strm n).queue;
    let w := v.fresh; let y := l.foldl (fun (x : State) _ => x.takeHead n) (w.2.putLinear c.part d (l.flatMap Pkt.bytes));
    let x := y.updCmd c.id (fun a => { a with ins := frameTags n (w.1.toNat % 2 ^ 32) l });
    Moves s dt id 0x0708 c j → Completes (.moveQueueRead dt id) s
      (((x.setResult c.id 0x20 (leBytes 4 l.length)).setResult c.id 0x28 (leBytes 8 (l.flatMap Pkt.bytes).length)).setVerdict c.id 0).settle) ∧
  (∀ row code f, (row, code, f) ∈ [(Instr.moveCopy dt id, 0x0701, moveCopy), (.moveConcat dt id, 0x0702, moveConcat),
      (.moveGather dt id, 0x0703, moveGather), (.moveScatter dt id, 0x0704, moveScatter), (.moveQueueRead dt id, 0x0708, moveQueueRead)] →
    Runs s dt id code c → (s.elapse dt).mmv.moves.find? (fun x => x.cmd == id) = some j → (s.elapse dt).moveWaits id = false →
    Completes row s (f c j (j.ds.foldl (fun (s : State) e => if j.outs.contains e.1 then s else s.peerReads c.part e.2) v)).settle)

/-- MOVE_PUSH_HOST, MOVE_FRAME_RING, MOVE_LINK_CONFIG, MOVE_LINK_RETRAIN and MOVE_LINK_STATUS (R90, R91, R323, R332, R333, R341): a readable
source is pushed to host memory; a ring is defined over writable memory, or taken away; the device number, the routes and one port are set; a
retrain freezes the port and waits for its traffic; a status returns the port's bank. -/
def Obligations.MoveCommandsComplete : Prop := ∀ (dt id : Nat) (s : State) (c : Cmd), let u := s.atRow dt id
  (let src := c.p 0x20 8; let n := c.p 0x30 8;
    Runs s dt id 0x0720 c → 1 ≤ n → n ≤ 0x100000000 → u.busMaster = true → u.access (.part c.part) .other false src n = none →
    u.poisoned src n = false →
    Completes (.movePushHost dt id) s
      (((u.push c.id (c.p 0x28 8) (u.rdSeen src n) ((c.p 0x38 4).testBit 0)).setResult c.id 0x20 (leBytes 8 n)).setVerdict c.id 0).settle) ∧
  (let n := c.p 0x20 1;
    Runs s dt id 0x0710 c → n ≤ 63 → c.p 0x21 1 = 0 → u.mmvQueue n = true → (u.strm n).owner = some c.part → u.strmOn n = false →
    Completes (.moveFrameRing dt id) s ((u.setMmv fun m => { m with rings := m.rings.filter fun e => e.1 != n }).done c).settle) ∧
  (let n := c.p 0x20 1; let k := c.p 0x21 1; let sb := c.p 0x24 4; let a := c.p 0x28 8; let lines := (c.p 0x22 1).testBit 0; let w := c.p 0x34 4;
    let g : Ring := { stream := n, slots := k, lines := lines, slotBytes := sb, addr := a, pitch := c.p 0x30 4, window := w, part := c.part };
    Runs s dt id 0x0710 c → n ≤ 63 → 2 ≤ k → k ≤ 64 → 65536 ≤ sb → sb ≤ 67108864 → sb % 65536 = 0 → 1000000 ≤ w → w ≤ 4000000000 →
    (lines = true → c.p 0x30 4 ≠ 0 ∧ c.p 0x30 4 % 64 = 0) → (lines = false → c.p 0x30 4 = 0) →
    u.mmvQueue n = true → (u.strm n).owner = some c.part → u.strmOn n = false → a % 65536 = 0 →
    u.access (.part c.part) .other true a (k * sb) = none →
    Completes (.moveFrameRing dt id) s ((u.setRing n g).done c).settle) ∧
  (let dev := c.p 0x22 1; let num := setFld (setBit (0 : W64) 7 true) 0 5 dev;
    Runs s dt id 0x0730 c → dev ≤ 23 → ((∀ q < 8, u.linkState q < 2) ∨ u.devNum = dev) →
    (c.p 0x20 1 = 0xFF → c.p 0x28 8 = 0 → Completes (.moveLinkConfig dt id) s ((u.setReg .mmvDevNum num).done c).settle) ∧
    (c.p 0x20 1 = 0xFF → c.p 0x28 8 ≠ 0 → u.tableErr c.tableReq (c.p 0x28 8) 24 = none →
      Completes (.moveLinkConfig dt id) s (((u.setRoutes (u.tableAt c (c.p 0x28 8) 24)).setReg .mmvDevNum num).done c).settle) ∧
    (c.p 0x20 1 ≤ 7 → c.p 0x23 1 = 4 → c.p 0x28 8 = 0 → (c.p 0x21 1).testBit 0 = true → u.linkState (c.p 0x20 1) = 0 →
      ∃ t, exec (.moveLinkConfig dt id) s = .next t ∧ t.linkState (c.p 0x20 1) = 1 ∧ t.linkEn (c.p 0x20 1) = true ∧ t.devNum = dev) ∧
    (let p := c.p 0x20 1; let w := c.p 0x23 1; let ra := c.p 0x28 8
      let v := (if ra = 0 then u else u.setRoutes (u.tableAt c ra 24)).setReg .mmvDevNum num
      p ≤ 7 → (w = 1 ∨ w = 2 ∨ w = 4) → (ra ≠ 0 → u.tableErr c.tableReq ra 24 = none) →
      Completes (.moveLinkConfig dt id) s ((v.setPort p ((c.p 0x21 1).testBit 0) ((c.p 0x21 1).testBit 1) w).done c).settle)) ∧
  (let p := c.p 0x20 1; let ms := c.p 0x24 4;
    let v := (u.freeze (48 + p) true).setFldOf (.mmvLinkStat p) 31 1 1
    let w := if c.p 0x21 1 = 1 then (v.onPort p).foldl (fun (x : State) id => x.updCmd id fun y => { y with discard := true }) v else v
    Runs s dt id 0x0731 c → p ≤ 7 → c.p 0x21 1 ≤ 1 → ms ≤ 10000 → (u.mmv.retrains.any fun r => r.port == p) = false → u.linkEn p = true →
    Completes (.moveLinkRetrain dt id) s (w.setMmv fun m =>
      { m with retrains := m.retrains ++ [{ cmd := c.id, port := p, due := c.acceptNs + (if ms = 0 then 100 else ms) * 1000000 }] }).settle) ∧
  (Runs s dt id 0x0732 c → c.p 0x20 1 ≤ 7 → Completes (.moveLinkStatus dt id) s (u.doneWith c (u.linkBank (c.p 0x20 1))).settle)

/-- The rows of a Chamerline port (R329 to R331, R333): training goes from DETECT through EQUALIZE, IDENTIFY and AUTH to UP, each on its own event and
only from the state before it, at the width that the other end and the least width of the port allow; a foreign set or an own device number ends in
AUTH_FAILED; a lost lock leaves UP; a flit that fails is counted, one whose check of integrity fails restarts the port's keys, a good one counts its
bytes; a rekey draws a nonce. -/
def Obligations.LinkRowsComplete : Prop := ∀ (dt p : Nat) (s : State), let u := s.elapse dt
  (p < 8 → u.linkState p = 1 → u.mmv.retrains = [] → Completes (.linkDetectRetry dt p) s (u.linkReason p 1)) ∧
  (u.linkState p = 1 → Completes (.linkSignalDetect dt p) s (u.linkTo p 2)) ∧
  (u.linkState p = 2 → u.fldOf (.mmvLinkCtl p) 28 2 = 3 → Completes (.linkEqualizeDone dt p (some 4)) s
    ((((u.draw 32).2.linkTo p 3).modPort p fun x => { x with width := 4, nonce := (u.draw 32).1 }).emit
      (.linkIdent p (identBytes Config.setId.toNat u.devNum p (u.draw 32).1)))) ∧
  (u.linkState p = 2 → u.mmv.retrains = [] → Completes (.linkEqualizeDone dt p none) s ((u.linkTo p 1).linkReason p 2)) ∧
  (∀ peer, u.linkState p = 3 → u.mmv.retrains = [] → Completes (.linkIdentifyRx dt p peer) s
    (if peer.setId ≠ Config.setId ∨ peer.setId = 0 ∨ Config.setId = 0 then ((u.linkTo p 7).linkReason p 3).raise 0x0703 0 (evData [p, 3])
     else if peer.dev = u.devNum then ((u.linkTo p 7).linkReason p 5).raise 0x0703 0 (evData [p, 5])
     else
      let x := { u.port p with peerDev := peer.dev, peerPort := peer.port, peerNonce := peer.nonce }
      let x := { x with keys := u.linkKeys p x }
      ((u.linkTo p 4).modPort p fun _ => x).emit (.linkIdent p (u.confirmTag p x true)))) ∧
  (∀ tag, p < 8 → u.linkState p = 4 → (u.port p).width ≤ 4 → u.mmv.retrains = [] → ∃ t, exec (.linkAuthConfirm dt p tag) s = .next t ∧
    t.linkState p = (if tag = u.confirmTag p (u.port p) false then 5 else 7)) ∧
  (p < 8 → u.linkState p = 5 → ∃ t, exec (.linkLossOfLock dt p) s = .next t ∧ t.linkState p = (if u.autoRetrain p then 1 else 6)) ∧
  (∀ body, u.linkState p = 5 → Completes (.linkFlitRx dt p .fecFail body) s
    ((u.countSat (.mmvLinkErr p) 0 16).countSat (.mmvLinkRetry p) 0 32).settle) ∧
  (∀ part a b, u.linkState p = 5 → let w := u.countWrap (.mmvLinkRxBytes p) 0 64 b.length
    w.access (.part part) .other true a b.length = none → Completes (.linkFlitRx dt p .good (.write part a b)) s (w.store a b).settle) ∧
  (∀ nonce, u.linkState p = 5 → let x := { u.port p with nonce := (u.draw 32).1, peerNonce := nonce }
    Completes (.linkRekey dt p nonce) s
      (((u.draw 32).2.modPort p fun _ => { x with keys := u.linkKeys p x }).countWrap (.mmvLinkTrain p) 16 16 1)) ∧
  (∀ id r, u.mmv.retrains = [r] → r.cmd = id → r.training = false → u.onPort r.port = [] →
    Completes (.linkRetrainStart dt id) s (u.beginTraining r)) ∧
  (u.linkState p = 1 → Completes (.linkDetectRetry dt p) s ((u.linkReason p 1).detectTimeout p)) ∧
  (∀ n, let least := match u.fldOf (.mmvLinkCtl p) 28 2 with | 2 => 2 | 3 => 4 | _ => 1
    u.linkState p = 2 → least ≤ n → (n = 1 ∨ n = 2 ∨ n = 4) → Completes (.linkEqualizeDone dt p (some n)) s
      ((((u.draw 32).2.linkTo p 3).modPort p fun x => { x with width := n, nonce := (u.draw 32).1 }).emit
        (.linkIdent p (identBytes Config.setId.toNat u.devNum p (u.draw 32).1)))) ∧
  (∀ w, let least := match u.fldOf (.mmvLinkCtl p) 28 2 with | 2 => 2 | 3 => 4 | _ => 1
    u.linkState p = 2 → (∀ n, w = some n → n < least) →
    Completes (.linkEqualizeDone dt p w) s (((u.linkTo p 1).linkReason p 2).detectTimeout p)) ∧
  (∀ peer, u.linkState p = 3 → let x := { u.port p with peerDev := peer.dev, peerPort := peer.port, peerNonce := peer.nonce }
    let y := { x with keys := u.linkKeys p x }
    Completes (.linkIdentifyRx dt p peer) s (if peer.setId ≠ Config.setId ∨ peer.setId = 0 ∨ Config.setId = 0 then u.authFailed p 3
      else if peer.dev = u.devNum then u.authFailed p 5
      else ((u.linkTo p 4).modPort p fun _ => y).emit (.linkIdent p (u.confirmTag p y true)))) ∧
  (∀ tag, u.linkState p = 4 → let x := u.port p
    let a := ((u.linkTo p 5).setFldOf (.mmvLinkStat p) 16 3 x.width).linkReason p 0
    let b := (a.setReg (.mmvLinkPeer p) (setFld (setFld (0 : W64) 0 5 x.peerDev) 8 3 x.peerPort)).countWrap (.mmvLinkTrain p) 0 16 1
    let d := (b.raise 0x0701 0 (evData [p, x.width, x.peerDev, x.peerPort])).modPort p fun x => { x with gcmAt := [] }
    Completes (.linkAuthConfirm dt p tag) s (if tag = u.confirmTag p x false
      then (if x.width < 4 then d.raise 0x0704 0 (evData [p]) else d).retrainDone p else u.authFailed p 4).settle) ∧
  (u.linkState p = 5 → let v := u.linkDown p 0 false
    Completes (.linkLossOfLock dt p) s (if v.autoRetrain p then v.linkRestart p 1 else v.linkRestart p 6).settle) ∧
  (u.linkState p = 5 →
    (∀ body, Completes (.linkFlitRx dt p .gcmFail body) s (u.gcmFail p).settle) ∧
    ∀ body, let w := u.countWrap (.mmvLinkRxBytes p) 0 64 (flitBytes body); Completes (.linkFlitRx dt p .good body) s ((match body with
      | .write part a b => (match w.access (.part part) .other true a b.length with
        | some st => w.reportAccess (.part part) .other true 3 a b.length st
        | none => w.store a b)
      | .kvSequence peer mid ptok layers heads d fmt len tag pages =>
        w.setKv fun k => { k with inbox := k.inbox ++ [{ peer := peer, matchId := mid, ptok := ptok, layers := layers, heads := heads, d := d, fmt := fmt
                                                         len := len, tag := Tag.ofBytes (leBytes 8 tag.1.toNat ++ leBytes 8 tag.2.toNat), pages := pages }] }
      | .kvReply peer mid st => w.kvReplied peer mid st
      | .forward dev hops n =>
        if 4 ≤ hops then w.raiseLim 0x070B p 0 (evData [dev])
        else (match w.linkRoute dev with | some q => w.linkTx q n | none => w)
      | .control => w) : State).settle) ∧
  (∀ id r, u.mmv.retrains.find? (fun r => r.cmd == id && !r.training) = some r →
    (u.onPort r.port = [] ∨ (r.timedOut = true ∧ ∀ q ∈ r.restarted, u.partState q ≠ .restarting)) →
    Completes (.linkRetrainStart dt id) s (u.beginTraining r))

/-- COLL_MATCH_RECORD_RX, MOVE_COLLECTIVE and COLL_TIMEOUT (R334 to R338): a record that comes early is kept, one that agrees joins its collective,
one that does not ends it; with every record there the result of the operation is written, or the command ends with what fails; a missing member ends
the command with ST_LINK_DOWN and is named. -/
def Obligations.CollectiveRowsComplete : Prop := ∀ (dt id : Nat) (s : State), let u := s.elapse dt; let v := s.atRow dt id
  (∀ r, u.mmv.colls.find? (fun k => k.id == id) = none → Completes (.collMatchRecordRx dt id r) s
    (u.setMmv fun m => { m with arrived := (m.arrived.filter fun e => !(e.1 == id && e.2.dev == r.dev)) ++ [(id, r)] })) ∧
  (∀ r k, u.mmv.colls = [k] → k.id = id → collAgree (u.ownRecord k) r = true → (k.recs.any fun x => x.dev == r.dev) = false →
    k.recs.length + 2 < k.n →
    Completes (.collMatchRecordRx dt id r) s (u.setMmv fun m => { m with colls := [{ k with recs := k.recs ++ [r] }] }).settle) ∧
  (∀ r k, u.mmv.colls = [k] → k.id = id → collAgree (u.ownRecord k) r = false →
    Completes (.collMatchRecordRx dt id r) s (u.collMismatch k r.dev).settle) ∧
  (∀ c k d, Runs s dt id 0x0740 c → u.mmv.colls.find? (fun k => k.cmd == id) = some k → k.recs.length + 1 = k.n → k.op = 4 → k.dst = some d →
    let all := v.collAll k
    let piece := (all.map fun r => r.src.length).foldl Nat.max 0
    let w := { (v.collTraffic k (v.collRing k (piece * k.n)) piece).updCmd c.id fun x => { x with ins := all.map recordTag } with freeCtr := v.freeCtr + 1 }
    (∀ r ∈ all, r.op = 4) →
    Completes (.moveCollective dt id) s (((w.putCodes d (all.map collCodes).flatten).setResult c.id 0x20
      (leBytes 1 (k.rank v.devNum) ++ leBytes 1 (if v.collRing k (piece * k.n) then 0 else 1))).setVerdict c.id 0).settle) ∧
  (∀ k m, u.mmv.colls.find? (fun k => k.cmd == id) = some k → u.isRunning id = true → ((u.cmd? id).any fun c => c.verdict.isNone) = true →
    k.since + k.timeoutMs * 1000000 ≤ u.ns →
    (k.devs.filter fun d => d != u.devNum && !(k.recs.any fun r => r.dev == d)) = [m] →
    Completes (.collTimeout dt id) s ((u.raise 0x0707 0 (evData [k.id, 2 ^ m])).failCmd k.cmd 0x70).settle) ∧
  (∀ r k, u.mmv.colls.find? (fun k => k.id == id) = some k →
    let rs := (k.recs.filter fun x => x.dev != r.dev) ++ [r]
    let g := { k with recs := rs, since := if rs.length + 1 = k.n then u.ns else k.since }
    (collAgree (u.ownRecord k) r = true → Completes (.collMatchRecordRx dt id r) s
      (u.setMmv fun m => { m with colls := updFirst (fun x => x.cmd == k.cmd) (fun _ => g) m.colls }).settle) ∧
    (collAgree (u.ownRecord k) r = false → Completes (.collMatchRecordRx dt id r) s (u.collMismatch k r.dev).settle)) ∧
  (∀ c k, Runs s dt id 0x0740 c → u.mmv.colls.find? (fun k => k.cmd == id) = some k → k.recs.length + 1 = k.n →
    let all := v.collAll k
    let piece := ((all.filter fun r => Coll.hasSrc r.op k.root r.dev || decide (6 ≤ r.op)).map fun r => r.src.length).foldl Nat.max 0
    let ring := v.collRing k (if k.op = 4 then piece * k.n else piece) && decide (k.op < 6)
    let tags := (all.filter fun r => if 6 ≤ k.op then r.dev == k.root else Coll.hasSrc k.op k.root r.dev).map recordTag
    let a := (v.collTraffic k ring piece).updCmd c.id fun x => { x with ins := tags }; let w : State := { a with freeCtr := a.freeCtr + 1 };
    let y := match k.dst with | some d => w.putCodes d (k.result v.freeCtr v.devNum (v.ownRecord k).fmt (all.map collCodes)) | none => w
    Completes (.moveCollective dt id) s ((y.setResult c.id 0x20
      (leBytes 1 (k.rank y.devNum) ++ leBytes 1 (if ring then 0 else 1))).setVerdict c.id 0).settle) ∧
  (∀ k, u.mmv.colls.find? (fun k => k.cmd == id) = some k → u.isRunning id = true → ((u.cmd? id).any fun c => c.verdict.isNone) = true →
    k.since + k.timeoutMs * 1000000 ≤ u.ns →
    let m := (k.devs.filter fun d => d != u.devNum && !(k.recs.any fun r => r.dev == d)).foldl (fun (m : Nat) d => m + 2 ^ d) 0
    let x := if m = 0 then u.fresh.2 else u
    Completes (.collTimeout dt id) s ((x.raise 0x0707 0 (evData [k.id, if m = 0 then u.fresh.1.toNat &&& k.members else m])).failCmd k.cmd 0x70).settle)

/-- KV_INIT, KV_POOL_CREATE, KV_CELLAR_CONFIG and KV_SET_ROLE (R355, R356, R367, R371): the machinery starts over a cleared region with a fresh
key; a pool takes the next page identifiers and answers page_bytes; a pool loses its Cellar or gets one in host memory; the role is set. -/
def Obligations.KvSetupCommandsComplete : Prop := ∀ (dt id : Nat) (s : State) (c : Cmd), let u := s.elapse dt
  (let a := c.p 0x20 8; let n := c.p 0x28 8; let r := u.draw 32;
    Runs s dt id 0x0750 c → (u.kvOn = false ∨ u.kvOwner = c.part) → c.p 0x30 4 ≤ 65536 → c.p 0x38 4 ≤ 4194304 → a % 65536 = 0 →
    4096 + 256 * c.p 0x30 4 + 1024 * c.p 0x34 4 + 64 * c.p 0x38 4 + 32 * c.p 0x3C 4 ≤ n → (∀ e ∈ u.kv.seqs, e.2.broken = true) →
    ({ u with kv := {} } : State).access (.part c.part) .other true a n = none →
    Completes (.kvInit dt id) s ((((((r.2.setReg .mmvKvCtl (setFld (setFld (0 : W64) 31 1 1) 28 3 c.part)).clearMem a n).setKv fun k =>
      { names := k.names, metaAddr := a, metaBytes := n, maxSeq := c.p 0x30 4, ptBlocks := c.p 0x34 4, maxNodes := c.p 0x38 4, maxIds := c.p 0x3C 4,
        key := r.1 }).doneWith c []).start id).settle)) ∧
  (let p := c.p 0x20 1; let frames := c.p 0x2C 4; let ids := c.p 0x38 4; let base := (u.kv.pools.map fun e => e.2.ids).sum;
    let g : KvPool := ⟨c.p 0x21 1, c.p 0x22 1, (c.p 0x23 1).testBit 0, c.p 0x24 2, c.p 0x26 2, c.p 0x28 2, frames, c.p 0x30 8, ids,
      if c.p 0x3C 4 = 0 then frames / 16 else c.p 0x3C 4, c.p 0x40 1, cut c.params 0x28 16, base, 0, {}⟩;
    let k : KvPool := { g with size := g.pageBytes };
    Runs s dt id 0x0751 c → u.kvOn = true → u.kvOwner = c.part → u.kvRole ≠ 3 → p ≤ 7 → 4 ≤ k.ptok → k.ptok ≤ 8 → 1 ≤ k.layers → k.layers ≤ 512 →
    1 ≤ k.heads → k.heads ≤ 64 → 16 ≤ k.d → k.d ≤ 256 → k.d % 16 = 0 → 1 ≤ frames → k.addr % 65536 = 0 → frames ≤ ids → ids ≤ 16777216 →
    base + ids ≤ u.kv.maxIds → k.prefetch ≤ 64 → 1 ≤ k.fmt → k.fmt ≤ 4 → u.kvPool? p = none →
    u.access (.part c.part) .other true k.addr (frames * k.size) = none →
    Completes (.kvPoolCreate dt id) s ((((u.setKvPool p k).setFldOf .mmvKvCtl p 1 1).doneWith c (leBytes 8 k.size)).start id).settle) ∧
  (let p := c.p 0x20 1;
    ∀ k, Runs s dt id 0x0752 c → u.kvOn = true → u.kvOwner = c.part → u.kvPool? p = some k →
    (∀ e ∈ u.kvPages p, e.2.state < 2 ∨ 4 < e.2.state) →
    (c.p 0x21 1 = 0 → Completes (.kvCellarConfig dt id) s (((u.setKvPool p { k with cellar := {} }).doneWith c []).start id).settle) ∧
    (let e : Cellar := ⟨c.p 0x21 1, c.p 0x22 1, c.p 0x24 4, c.p 0x28 8, c.p 0x30 4, c.p 0x38 8⟩; let len := e.slots * (k.size + 64);
      (e.target = 1 ∨ e.target = 2) → (e.target = 1 → e.dev ≤ 23) → 1 ≤ e.timeoutMs → e.timeoutMs ≤ 10000 → 1 ≤ e.slots → e.apOff % 0x40000000 = 0 →
      e.apOff + len ≤ cellarSize →
      (∀ o ∈ u.kv.pools, o.1 = p ∨ o.2.cellar.target = 0 ∨ meets e.apOff len o.2.cellar.apOff o.2.cellarSize = false) →
      Completes (.kvCellarConfig dt id) s (((u.setKvPool p { k with cellar := e }).doneWith c []).start id).settle)) ∧
  (Runs s dt id 0x075C c → u.kvOn = true → u.kvOwner = c.part → c.p 0x20 1 ≤ 3 →
    Completes (.kvSetRole dt id) s (((u.setFldOf .mmvKvCtl 24 2 (c.p 0x20 1)).doneWith c []).start id).settle)

/-- KV_SEQ_CREATE, KV_SEQ_FORK, KV_SEQ_TRUNCATE, KV_SEQ_RELEASE and KV_SEQ_STATUS (R357, R359, R365, R366): a sequence takes the lowest free
identifier, alone or with the pages of the longest prefix that its pool knows; a fork shares every page; truncation and release give references
back; a status counts the pages. -/
def Obligations.KvSequenceCommandsComplete : Prop := ∀ (dt id : Nat) (s : State) (c : Cmd), let u := s.elapse dt
  (∀ k q, Runs s dt id 0x0753 c → u.kvOn = true → u.kvOwner = c.part → u.kvPool? (c.p 0x20 1) = some k → u.freeSeq = some q →
    ((c.p 0x21 1).testBit 0 = false ∨ c.p 0x24 4 = 0) → u.ptRoom 0 0 = true →
    Completes (.kvSeqCreate dt id) s (((u.setKvSeq q { pool := c.p 0x20 1 }).doneWith c (leBytes 4 q ++ leBytes 4 0 ++ leBytes 4 0)).start id).settle) ∧
  (∀ k q d, let p := c.p 0x20 1; let n := c.p 0x24 4; let blocks := Nat.min 8192 (n / k.tokens);
    let m := if k.sharing then u.matchPrefix p (blockHashes k ((u.flatCodes d).take n) blocks 0) 0 else [];
    let w := (u.addSat (.mmvKvPrefix p) 0 16 m.length).addSat (.mmvKvPrefix p) 16 16 (blocks - m.length);
    Runs s dt id 0x0753 c → u.kvOn = true → u.kvOwner = c.part → u.kvPool? p = some k → u.freeSeq = some q →
    (c.p 0x21 1).testBit 0 = true → n ≠ 0 → u.readDesc c (c.p 0x28 8) = .ok d → d.dev = 255 → d.mark = true → d.fmt = 11 → n ≤ d.ext 0 * d.count →
    u.tensorErr (.part c.part) .other false d = none → u.tensorUe d = none → u.ptRoom 0 m.length = true →
    Completes (.kvSeqCreate dt id) s ((((m.foldl (fun (x : State) i => x.addRef p i) w).setKvSeq q { pool := p, len := m.length * k.tokens, table := m }).doneWith c
      (leBytes 4 q ++ leBytes 4 (m.length * k.tokens) ++ leBytes 4 m.length)).start id).settle) ∧
  (∀ x k, let q := c.p 0x20 4; u.kvOn = true → u.kvOwner = c.part → u.kvSeq? q = some x → x.broken = false → u.kvPool? x.pool = some k →
    (∀ n, Runs s dt id 0x0754 c → u.freeSeq = some n → u.ptRoom 0 x.table.length = true →
      Completes (.kvSeqFork dt id) s ((((x.table.foldl (fun (y : State) i => y.addRef x.pool i) u).setKvSeq n x).doneWith c (leBytes 4 n)).start id).settle) ∧
    (let keep := ceilDiv (c.p 0x24 4) k.tokens;
      Runs s dt id 0x0755 c → c.p 0x24 4 ≤ x.len → Completes (.kvSeqTruncate dt id) s
      (((((x.table.drop keep).foldl (fun (y : State) i => y.unref x.pool i)
        (u.setKvSeq q { x with len := c.p 0x24 4, table := x.table.take keep })).kvSync).doneWith c (leBytes 4 (x.table.drop keep).length)).start id).settle)) ∧
  (∀ x, let q := c.p 0x20 4; u.kvOn = true → u.kvOwner = c.part → u.kvSeq? q = some x →
    (Runs s dt id 0x0756 c →
      Completes (.kvSeqRelease dt id) s (((u.releaseSeq q x).doneWith c (leBytes 4 x.table.length)).start id).settle) ∧
    (let n := fun (st : Nat → Bool) => (x.table.filter fun i => st (u.kvPage x.pool i).state).length
      let waiting := (u.kv.names.filter fun e => e.1 != c.id && e.2.contains q).length
      Runs s dt id 0x075D c → Completes (.kvSeqStatus dt id) s ((u.doneWith c (leBytes 1 (if x.broken then 2 else 1) ++ leBytes 1 x.pool ++ leBytes 2 0 ++
        leBytes 4 x.len ++ leBytes 4 x.table.length ++ leBytes 4 (n fun t => t == 1 || t == 2) ++ leBytes 4 (n fun t => t == 3) ++ leBytes 4 waiting ++
        leBytes 8 0 ++ x.tag.bytes)).start id).settle))

/-- KV_APPEND, KV_PUBLISH, KV_PREFETCH, KV_SEQ_SEND and KV_SEQ_RECV (R358, R363 to R366, R372): with its pages there, an append copies a shared last
page, takes new pages, writes every token and grows the sequence; a publish enters the blocks in the prefix tree; a prefetch commits with its pages
resident and begins the fetches of those that are not; a send leaves over the route; a sequence that came is taken into new pages and the sender is
answered. -/
def Obligations.KvDataCommandsComplete : Prop := ∀ (dt id : Nat) (s : State) (c : Cmd) (x : KvSeq) (k : KvPool), let u := s.elapse dt; let q := c.p 0x20 4
  (u.kvOn = true → u.kvOwner = c.part → u.kvSeq? q = some x → x.broken = false → u.kvPool? x.pool = some k →
    (∀ ds, let n := c.p 0x24 4; let entries := ceilDiv (x.len + n) k.tokens; let first := x.len / k.tokens;
      let part := x.len % k.tokens ≠ 0 ∧ n ≠ 0; let page := u.kvPage x.pool (x.table.getD first 0);
      let cow := part ∧ 1 < page.refs; let need := entries - x.table.length + (if cow then 1 else 0);
      let w := (if cow then u.copyPage q x k first else u).growTable q k (entries - x.table.length); let y := (w.kvSeq? q).getD x;
      let mul := fun (o : Nat) => f32Val (BitVec.ofNat 32 (c.p o 4));
      let v := (List.range n).foldl (fun (z : State) i =>
        (z.appendToken k ds (mul 0x38) (mul 0x3C) (z.kvPage x.pool (y.table.getD ((x.len + i) / k.tokens) 0)).frame i (x.len + i)).touchPage x.pool
          (y.table.getD ((x.len + i) / k.tokens) 0)) w;
      let tag := if (c.p 0x40 1).testBit 0 then tagOut (x.tag :: ds.map (·.2.tag)) else x.tag;
      Runs s dt id 0x0757 c → u.readDescs c (fun o => c.p o 8) [(0x28, false), (0x30, false)] = .ok ds → appendErr c k ds = none →
      (∀ e ∈ ds, u.tensorErr (.part c.part) .other false e.2 = none) → (∀ e ∈ ds, u.tensorUe e.2 = none) → entries ≤ 8192 →
      u.ptRoom x.table.length entries = true → (part → page.state ≠ 3 ∧ page.state ≠ 4) →
      need ≤ (u.freeFrames x.pool k).length → need ≤ (u.freeIds x.pool k).length →
      Completes (.kvAppend dt id) s (((v.setKvSeq q { y with len := x.len + n, tag := tag }).kvSync.doneWith c
        (leBytes 4 (x.len + n) ++ leBytes 4 (if cow then 1 else 0))).start id).settle) ∧
    (∀ d, let hs := blockHashes k ((u.flatCodes d).take x.len) (x.len / k.tokens) 0;
      let r := hs.zipIdx.foldl (fun (r : State × Nat × Nat × Bool) h =>
        r.1.publishBlock q x.pool h.1 (if h.2 = 0 then 0 else hs.getD (h.2 - 1) 0) h.2 r.2) (u, 0, 0, false);
      Runs s dt id 0x0758 c → k.sharing = true → u.readDesc c (c.p 0x28 8) = .ok d → d.dev = 255 → d.mark = true → d.fmt = 11 →
      x.len ≤ d.ext 0 * d.count → u.tensorErr (.part c.part) .other false d = none → u.tensorUe d = none →
      Completes (.kvPublish dt id) s ((r.1.kvSync.doneWith c (leBytes 4 r.2.1 ++ leBytes 4 r.2.2.1)).start id).settle) ∧
    ((∀ i ∈ x.table, (u.kvPage x.pool i).state ≠ 3 ∧ (u.kvPage x.pool i).state ≠ 4) →
      (Runs s dt id 0x0759 c → Completes (.kvPrefetch dt id) s ((u.doneWith c (leBytes 4 (u.fetchedFor c.id))).start id).settle) ∧
      (let dev := c.p 0x24 1;
        let b := kvHeader c x k ++ x.table.flatMap fun i => u.rd (k.frameAt (u.kvPage x.pool i).frame) k.size;
        Runs s dt id 0x075A c → u.kvRole ≠ 2 → u.kvRole ≠ 3 → dev ≤ 23 → u.linkRoute dev ≠ none → c.aux = [] →
        Completes (.kvSeqSend dt id) s (((x.table.foldl (fun (z : State) i => z.touchPage x.pool i) (u.peerWrite dev c.part 0 b)).setResult c.id 0x20
          (leBytes 8 (x.table.length * k.size))).updCmd c.id fun y => { y with aux := y.aux ++ [1] }).settle))) ∧
  (let p := c.p 0x20 1; let peer := c.p 0x21 1;
    ∀ m g n, Runs s dt id 0x075B c → u.kvOn = true → u.kvOwner = c.part → u.kvRole ≠ 1 → u.kvRole ≠ 3 → u.kvPool? p = some g → peer ≤ 23 →
    1 ≤ c.p 0x24 4 → c.p 0x24 4 ≤ 60000 → u.kv.inbox = [m] → m.peer = peer → m.matchId = c.p 0x28 4 → m.ptok = g.ptok → m.layers = g.layers →
    m.heads = g.heads → m.d = g.d → m.fmt = g.fmt → u.freeSeq = some n → ceilDiv m.len g.tokens ≤ 8192 → u.ptRoom 0 (ceilDiv m.len g.tokens) = true →
    ceilDiv m.len g.tokens ≤ (u.freeFrames p g).length → ceilDiv m.len g.tokens ≤ (u.freeIds p g).length →
    let w := ((u.setKv fun v => { v with inbox := [] }).setKvSeq n { pool := p, len := m.len, tag := m.tag }).growTable n g (ceilDiv m.len g.tokens)
    let v := (((w.kvSeq? n).map (·.table)).getD []).zipIdx.foldl (fun (z : State) e =>
      z.wr (g.frameAt (z.kvPage p e.1).frame) (cut (m.pages.getD e.2 []) 0 g.size)) w
    Completes (.kvSeqRecv dt id) s (((v.kvAnswer c 0).doneWith c (leBytes 4 n)).start id).settle) ∧
  (u.kvOn = true → u.kvOwner = c.part → u.kvSeq? q = some x → x.broken = false → u.kvPool? x.pool = some k →
    (∀ ds, let n := c.p 0x24 4; let entries := ceilDiv (x.len + n) k.tokens; let first := x.len / k.tokens; let more := entries - x.table.length
      let part := x.len % k.tokens ≠ 0 ∧ n ≠ 0; let cow := part ∧ 1 < (u.kvPage x.pool (x.table.getD first 0)).refs
      let f := u.fetchAll x.pool k (if part then [x.table.getD first 0] else [])
      let need := f.1.kvNeed x.pool k (more + if cow then 1 else 0) (more + if cow then 1 else 0)
      let w := (if cow then need.1.copyPage q x k first else need.1).growTable q k more; let y := (w.kvSeq? q).getD x
      let mul := fun (o : Nat) => f32Val (BitVec.ofNat 32 (c.p o 4))
      let v := (List.range n).foldl (fun (z : State) i => let g := y.table.getD ((x.len + i) / k.tokens) 0;
        (z.appendToken k ds (mul 0x38) (mul 0x3C) (z.kvPage x.pool g).frame i (x.len + i)).touchPage x.pool g) w
      let tag := if (c.p 0x40 1).testBit 0 then tagOut (x.tag :: ds.map (·.2.tag)) else x.tag
      Runs s dt id 0x0757 c → u.readDescs c (fun o => c.p o 8) [(0x28, false), (0x30, false)] = .ok ds → appendErr c k ds = none →
      (∀ e ∈ ds, u.tensorErr (.part c.part) .other false e.2 = none) → (∀ e ∈ ds, u.tensorUe e.2 = none) → entries ≤ 8192 →
      u.ptRoom x.table.length entries = true → f.2 = 0 → need.2 = 0 →
      Completes (.kvAppend dt id) s (((v.setKvSeq q { y with len := x.len + n, tag := tag }).kvSync.doneWith c
        (leBytes 4 (x.len + n) ++ leBytes 4 (if cow then 1 else 0))).start id).settle) ∧
    (∀ d, let hs := if k.sharing then blockHashes k ((u.flatCodes d).take x.len) (x.len / k.tokens) 0 else []
      let r := hs.zipIdx.foldl (fun (r : State × Nat × Nat × Bool) h =>
        r.1.publishBlock q x.pool h.1 (if h.2 = 0 then 0 else hs.getD (h.2 - 1) 0) h.2 r.2) (u, 0, 0, false)
      Runs s dt id 0x0758 c → u.readDesc c (c.p 0x28 8) = .ok d → d.dev = 255 → d.mark = true → d.fmt = 11 →
      x.len ≤ d.ext 0 * d.count → u.tensorErr (.part c.part) .other false d = none → u.tensorUe d = none →
      Completes (.kvPublish dt id) s ((r.1.kvSync.doneWith c (leBytes 4 r.2.1 ++ leBytes 4 r.2.2.1)).start id).settle) ∧
    (let r := u.fetchAll x.pool k x.table;
      (Runs s dt id 0x0759 c → r.2 = 0 → Completes (.kvPrefetch dt id) s ((r.1.doneWith c (leBytes 4 (r.1.fetchedFor c.id))).start id).settle) ∧
      (Runs s dt id 0x0759 c → r.2 = 1 → Completes (.kvPrefetch dt id) s r.1.settle) ∧
      (let dev := c.p 0x24 1
        let b := kvHeader c x k ++ x.table.flatMap fun i => r.1.rd (k.frameAt (r.1.kvPage x.pool i).frame) k.size;
        Runs s dt id 0x075A c → u.kvRole ≠ 2 → u.kvRole ≠ 3 → dev ≤ 23 → u.linkRoute dev ≠ none → c.aux.contains 1 = false → r.2 = 0 →
        Completes (.kvSeqSend dt id) s (((x.table.foldl (fun (z : State) i => z.touchPage x.pool i) (r.1.peerWrite dev c.part 0 b)).setResult c.id 0x20
          (leBytes 8 (x.table.length * k.size))).updCmd c.id fun y => { y with aux := y.aux ++ [1] }).settle))) ∧
  (let p := c.p 0x20 1; let peer := c.p 0x21 1;
    ∀ m g n, let len := ceilDiv m.len g.tokens; let r := u.kvNeed p g len len
    Runs s dt id 0x075B c → u.kvOn = true → u.kvOwner = c.part → u.kvRole ≠ 1 → u.kvRole ≠ 3 → u.kvPool? p = some g → peer ≤ 23 →
    1 ≤ c.p 0x24 4 → c.p 0x24 4 ≤ 60000 → u.kv.inbox.find? (fun m => m.peer == peer && m.matchId == c.p 0x28 4) = some m → m.ptok = g.ptok →
    m.layers = g.layers → m.heads = g.heads → m.d = g.d → m.fmt = g.fmt → u.freeSeq = some n → len ≤ 8192 → u.ptRoom 0 len = true → r.2 = 0 →
    let w := ((r.1.setKv fun v => { v with inbox := v.inbox.filter fun x => !(x.peer == peer && x.matchId == c.p 0x28 4) }).setKvSeq n
      { pool := p, len := m.len, tag := m.tag }).growTable n g len
    let v := (((w.kvSeq? n).map (·.table)).getD []).zipIdx.foldl (fun (z : State) e =>
      z.wr (g.frameAt (z.kvPage p e.1).frame) (cut (m.pages.getD e.2 []) 0 g.size)) w
    Completes (.kvSeqRecv dt id) s (((v.kvAnswer c 0).doneWith c (leBytes 4 n)).start id).settle)

/-- KV_SPILL_DONE, KV_FETCH_DONE, KV_FETCH_TIMEOUT, KV_RECLAIM, KV_WALK_EMIT and KV_SEQ_RECV_TIMEOUT (R357, R358, R362, R368, R369, R372): a spill
leaves the page in the Cellar, encrypted, or where it was when the Cellar cannot be reached; a fetched slot that opens makes its page RESIDENT and one
that does not loses it; a late fetch puts the page back; reclaiming drops the oldest unused node, else spills a page or tells that the pool is low; a
walk emits the descriptor of a resident page, begins the fetch of one in the Cellar, waits for one on its way, and fails on one that is lost; a
receiver without a sender ends FAILED. -/
def Obligations.KvRowsComplete : Prop := ∀ (dt pool id : Nat) (s : State), let u := s.elapse dt; let p := u.kvPage pool id
  (∀ k, let b := u.slotBytes pool id k p;
    u.kvPool? pool = some k → p.state = 2 → k.cellar.target = 2 → u.busMaster = true → Completes (.kvSpillDone dt pool id) s
      ((((u.hostWrites (k.cellar.base + p.slot * (k.size + 64)) b false).setKvPage pool id { p with state := 3 }).countSat
        (.mmvKvSpill pool) 0 16).freeIfUnheld pool id)) ∧
  (∀ k b, u.kvPool? pool = some k → p.state = 4 → k.cellar.target = 2 → u.busMaster = true → u.kv.seqs = [] → u.kv.names = [] → 1 ≤ p.refs →
    k.size = k.pageBytes →
    let w := (u.setKv fun v => { v with fetches := v.fetches.filter fun f => !(f.pool == pool && f.page == id) }).countSat (.mmvKvFetch pool) 0 16
    Completes (.kvFetchDone dt pool id b) s (match u.openSlot pool id k p b with
      | none => w.losePage pool id
      | some page => (w.wr (k.frameAt p.frame) (cut page 0 k.size)).setKvPage pool id { p with state := 1 })) ∧
  (∀ k f, u.kvPool? pool = some k → u.kv.fetches.find? (fun f => f.pool == pool && f.page == id) = some f →
    f.since + k.cellar.timeoutMs * 1000000 ≤ u.ns → p.state = 4 → u.kv.seqs = [] →
    Completes (.kvFetchTimeout dt pool id) s
      (((((u.setKv fun v => { v with fetches := v.fetches.filter fun f => !(f.pool == pool && f.page == id) }).setKvPage pool id
        { p with state := 3 }).raiseLim 0x0723 pool u.kvOwner (evData [pool, k.cellar.target])).freeIfUnheld pool id).settle)) ∧
  (∀ k n, u.kvPool? pool = some k → (u.freeFrames pool k).length < k.reserve → u.nodeVictim (some pool) true = some n →
    Completes (.kvReclaim dt pool) s (u.dropNode n)) ∧
  (∀ k, u.kvPool? pool = some k → k.reserve ≤ (u.freeFrames pool k).length → Completes (.kvReclaim dt pool) s u) ∧
  (∀ w e rest, u.kv.walks = [w] → w.cmd = id → w.todo = e :: rest → (u.kvPool? w.pool).isSome = true → u.walkPage w e = none →
    (u.queued w.job.core).length < 64 →
    Completes (.kvWalkEmit dt id) s
      ((u.setKv fun v => { v with walks := [{ w with todo := rest, stalled := false }] }).pushJob { w.job with units := [e] } false)) ∧
  (∀ c, u.runs id 0x075B = some c → u.kv.inbox = [] → c.ranAt + c.p 0x24 4 * 1000000 ≤ u.now →
    Completes (.kvSeqRecvTimeout dt id) s (u.failCmd id 0x70).settle) ∧
  (∀ k, u.kvPool? pool = some k →
    (p.state = 2 → u.cellarUp k = false → Completes (.kvSpillDone dt pool id) s ((u.setKvPage pool id { p with state := 1 }).freeIfUnheld pool id)) ∧
    (p.state = 2 → u.cellarUp k = true →
      let at_ := k.cellar.base + p.slot * (k.size + 64); let b := u.slotBytes pool id k p
      let w := if k.cellar.target = 1 then u.peerWrite k.cellar.dev u.kvOwner at_ b else u.hostWrites at_ b false
      Completes (.kvSpillDone dt pool id) s
        (((w.setKvPage pool id { p with state := 3 }).countSat (.mmvKvSpill pool) 0 16).freeIfUnheld pool id)) ∧
    (∀ b, p.state = 4 → u.cellarUp k = true →
      let v := (u.setKv fun v => { v with fetches := v.fetches.filter fun f => !(f.pool == pool && f.page == id) }).countSat (.mmvKvFetch pool) 0 16
      let w := match v.linkRoute k.cellar.dev with
        | some q => if k.cellar.target = 1 then v.countWrap (.mmvLinkRxBytes q) 0 64 (k.size + 64) else v
        | none => v
      let ids := (w.kv.names.filter fun e => e.2.any (w.holders pool id).contains).map (·.1)
      let y := w.setKv fun v => { v with fetchedBy := (v.fetchedBy.filter fun e => !(ids.contains e.1)) ++ ids.map fun i => (i, w.fetchedFor i + 1) }
      Completes (.kvFetchDone dt pool id b) s (match w.openSlot pool id k p b with
        | none => w.losePage pool id
        | some page => ((y.wr (k.frameAt p.frame) (cut page 0 k.size)).setKvPage pool id { p with state := 1 }).freeIfUnheld pool id)) ∧
    (∀ f, u.kv.fetches.find? (fun f => f.pool == pool && f.page == id) = some f → f.since + k.cellar.timeoutMs * 1000000 ≤ u.ns → p.state = 4 →
      let v := u.setKv fun v => { v with fetches := v.fetches.filter fun f => !(f.pool == pool && f.page == id) }
      let w := (v.setKvPage pool id { v.kvPage pool id with state := 3 }).raiseLim 0x0723 pool v.kvOwner (evData [pool, k.cellar.target])
      Completes (.kvFetchTimeout dt pool id) s (((u.needers pool id).foldl (fun (x : State) c => x.failCmd c 0x28) w).freeIfUnheld pool id).settle) ∧
    ((u.freeFrames pool k).length < k.reserve → u.nodeVictim (some pool) true = none →
      Completes (.kvReclaim dt pool) s (match u.spillOne pool k with | some x => x | none => u.poolLow pool))) ∧
  (∀ w e rest k, u.kv.walks.find? (fun w => w.cmd == id) = some w → w.todo = e :: rest → u.kvPool? w.pool = some k →
    let put := fun (w : KvWalk) (s : State) => s.setKv fun v => { v with walks := updFirst (fun x => x.cmd == id) (fun _ => w) v.walks }
    let v := if 64 ≤ (u.queued w.job.core).length then u
      else (put { w with todo := rest, stalled := false } u).pushJob { w.job with units := [e] } false
    let row := (u.attnOf w.job.raw w.job.ds 0).rows.getD e.1 ⟨0, 0, 0, 0, 0, 0⟩
    let late := fun (x : State) => if w.stalled then x
      else ((put { w with stalled := true } x).countSat (.mmvKvFetch w.pool) 16 16).raiseLim 0x0724 w.pool x.kvOwner (evData [w.pool, row.seq])
    (u.walkPage w e = none → Completes (.kvWalkEmit dt id) s v) ∧
    (∀ g, u.walkPage w e = some g →
      ((u.kvPage w.pool g).state = 1 → let x := v.touchPage w.pool g
        Completes (.kvWalkEmit dt id) s (match x.walkPage w (e.1, e.2 + k.prefetch) with
          | some next => if (x.kvPage w.pool next).state = 3 then (x.beginFetch w.pool next k).1 else x
          | none => x)) ∧
      ((u.kvPage w.pool g).state = 4 → Completes (.kvWalkEmit dt id) s (late u)) ∧
      ((u.kvPage w.pool g).state = 3 → let r := u.beginFetch w.pool g k
        Completes (.kvWalkEmit dt id) s (if r.2 = 2 then (r.1.failCmd id 0x26).settle else late r.1)) ∧
      ((u.kvPage w.pool g).state = 5 → Completes (.kvWalkEmit dt id) s (u.failCmd id 0x25).settle))) ∧
  (∀ c, u.runs id 0x075B = some c → (u.kv.inbox.any fun m => m.peer == c.p 0x21 1 && m.matchId == c.p 0x28 4) = false →
    c.ranAt + c.p 0x24 4 * 1000000 ≤ u.now → Completes (.kvSeqRecvTimeout dt id) s (u.failCmd id 0x70).settle)

/-- MEM_ARB_CONFIG, MEM_ARB_STATUS and MEM_ERR_STATUS (R395, R396): with mask bits 0 to 2 the burst, the urgency and the window are set to the
values given; a status returns the bank of an arbiter, and the error counts of a channel or of the staging memory. -/
def Obligations.MemoryCommandsComplete : Prop := ∀ (dt id : Nat) (s : State) (c : Cmd), let u := s.atRow dt id
  (let n := c.p 0x20 2;
    Runs s dt id 0x0760 c → n ≤ 57 → n ≠ 56 → c.p 0x22 1 = 7 → 1 ≤ c.p 0x24 2 → c.p 0x24 2 ≤ 4096 → c.p 0x28 4 ≤ 100000000 → 1024 ≤ c.p 0x2C 4 →
    c.p 0x2C 4 ≤ 1048576 → c.p 0x2C 4 % 64 = 0 →
    Completes (.memArbConfig dt id) s ((((u.setFldOf (.mmvArbCtl n) 0 13 (c.p 0x24 2)).setReg (.mmvArbUrgency n) (BitVec.ofNat 64 (c.p 0x28 4))).setReg
      (.mmvArbWindow n) (BitVec.ofNat 64 (c.p 0x2C 4))).done c).settle) ∧
  (Runs s dt id 0x0761 c → c.p 0x20 2 ≤ 57 → Completes (.memArbStatus dt id) s (u.doneWith c (u.arbBank (c.p 0x20 2))).settle) ∧
  (Runs s dt id 0x0762 c → c.p 0x20 1 ≤ 31 → Completes (.memErrStatus dt id) s (u.doneWith c (leBytes 4 (u.reg (.mmvMcCe (c.p 0x20 1))).toNat ++
    leBytes 4 (u.reg (.mmvMcUe (c.p 0x20 1))).toNat ++ leBytes 8 (u.reg (.mmvMcLastUe (c.p 0x20 1))).toNat ++
    leBytes 8 (u.reg (.mmvMcRmw (c.p 0x20 1))).toNat)).settle) ∧
  (Runs s dt id 0x0762 c → c.p 0x20 1 = 0xFF → Completes (.memErrStatus dt id) s
    (u.doneWith c (leBytes 8 (u.reg .mmvStgEcc).toNat ++ leBytes 8 (u.reg .mmvStgLastUe).toNat)).settle) ∧
  (let n := c.p 0x20 2; let m := fun (i : Nat) => (c.p 0x22 1).testBit i; let rank := fun (i : Nat) => c.p (0x30 + i) 1
    let burst := if m 0 then c.p 0x24 2 else u.fldOf (.mmvArbCtl 56) 0 13; let urg := if m 1 then c.p 0x28 4 else u.fldOf (.mmvArbUrgency 56) 0 32
    let a := if m 0 then u.setFldOf (.mmvArbCtl n) 0 13 burst else u
    let b := if m 1 then a.setReg (.mmvArbUrgency n) (BitVec.ofNat 64 urg) else a
    let d := if m 2 then b.setReg (.mmvArbWindow n) (BitVec.ofNat 64 (c.p 0x2C 4)) else b
    let v := if m 3 then (List.range 32).foldl (fun (x : State) i => x.setFldOf (.mmvArbRank n (i / 4)) (8 * (i % 4)) 5 (rank i)) d else d
    Runs s dt id 0x0760 c → n ≤ 57 → (m 0 = true → 1 ≤ c.p 0x24 2 ∧ c.p 0x24 2 ≤ 4096) → (m 1 = true → c.p 0x28 4 ≤ 100000000) →
    (m 2 = true → 1024 ≤ c.p 0x2C 4 ∧ c.p 0x2C 4 ≤ 1048576 ∧ c.p 0x2C 4 % 64 = 0) → (m 3 = true → ∀ i < 32, rank i ≤ 31) →
    (m 3 = true → n < 48 → rank 26 = u.arbRank n 26 ∧ rank 27 = u.arbRank n 27) → (n = 56 → (burst + 1) * 1000 < urg) →
    Completes (.memArbConfig dt id) s (v.done c).settle)

/-- ARBITER_DECISION, ARBITER_SLICE_BOUNDARY, ARB_FREEZE_WRITE and PATROL_SCRUB (R377, R386 to R390, R392): a decision grants the chosen request and
parks the others; with nothing waiting nobody is granted; a frozen arbiter grants nothing; a slice's end moves the window; a freeze takes effect; a
line scrubbed moves the scrubber on, and after the last one it starts again. -/
def Obligations.ArbiterRowsComplete : Prop := ∀ (dt n : Nat) (s : State), let u := s.elapse dt; let x : Arb := { u.arb n with owner := none }
  (∀ l, let w := x.queue ++ l.map fun a => Parked.mk a.input a.part a.len (u.latestOf n a) u.now;
    n ≤ 57 → (∀ i dl r, (bit (u.reg (.mmvArbCtl n)) 31 && arbFreezes n) = false → u.arbChoice n x w = some (i, dl) → w[i]? = some r →
      Completes (.arbiterDecision dt n l) s (u.grant n x r dl (w.eraseIdx i))) ∧
    (bit (u.reg (.mmvArbCtl n)) 31 = true → arbFreezes n = true → Completes (.arbiterDecision dt n l) s ((u.park n x w).showFrozen n true))) ∧
  (n ≤ 57 → u.arbWindow n / 64 ≤ (u.arb n).total →
    let y : Arb := { u.arb n with cur := [], total := (u.arb n).total - u.arbWindow n / 64, slices := ((u.arb n).cur :: (u.arb n).slices).take 63
                                  quota := (List.range 8).map fun p => u.fldOf (.mmvArbQuota n) (8 * p) 8 }
    Completes (.arbiterSliceBoundary dt n) s ((u.setArb n y).showUse n y)) ∧
  (∀ v, arbFreezes n = true → (u.arb n).owner = none → Completes (.arbFreezeWrite dt .p0 n v) s
    ((u.setFldOf (.mmvArbCtl n) 31 1 (if v then 1 else 0)).showFrozen n v)) ∧
  (u.fldOf .mmvMemCtl 0 1 = 1 → u.fldOf .mmvMemStat 31 1 = 1 → u.fldOf .mmvMemStat 30 1 = 0 → u.pwr.scrubPos + 64 < hbmSize →
    u.poisoned u.pwr.scrubPos 64 = false →
    Completes (.patrolScrub dt .clean) s { u with pwr := { u.pwr with scrubPos := u.pwr.scrubPos + 64 } }) ∧
  (∀ l, let w := x.queue ++ l.map fun a => Parked.mk a.input a.part a.len (u.latestOf n a) u.now;
    n ≤ 57 → (bit (u.reg (.mmvArbCtl n)) 31 && arbFreezes n) = false → u.arbChoice n x w = none →
    Completes (.arbiterDecision dt n l) s (u.park n x w)) ∧
  (∀ who v, who = .p0 ∨ (who = .bivexa ∧ (n < 32 ∨ (u.mmv.retrains.any fun r => 48 + r.port == n) = true)) →
    Completes (.arbFreezeWrite dt who n v) s (u.freeze n v)) ∧
  (∀ f, u.fldOf .mmvMemCtl 0 1 = 1 → u.fldOf .mmvMemStat 31 1 = 1 → u.fldOf .mmvMemStat 30 1 = 0 →
    let v := u.scrubLine u.pwr.scrubPos f
    (v.pwr.scrubPos + 64 < hbmSize → Completes (.patrolScrub dt f) s { v with pwr := { v.pwr with scrubPos := v.pwr.scrubPos + 64 } }) ∧
    (hbmSize ≤ v.pwr.scrubPos + 64 →
      let w := if v.pwr.scrubFrom + v.fldOf .mmvMemCtl 8 8 * 3600000000000 < v.ns then v.countSat .mmvMemStat 0 16 else v
      Completes (.patrolScrub dt f) s { w with pwr := { w.pwr with scrubPos := 0, scrubFrom := w.ns } }))

/-- SAFETY_CONFIG_LOAD, SAFETY_SAFE_STATE, SAFETY_STATUS, SAFETY_STANDBY_CONFIG, SAFETY_TRAJ_OFFER, SAFETY_REFLEX_MODE and
SAFETY_REFLEX_STATUS (R411, R412, R416, R427, R438, R442, R446): a package is applied when its signature and every check pass, and ends FAILED
otherwise; a safe state begins; the standby group takes its parameters; an offer that passes waits for its swap; a mode request raises trigger
REQUEST; the statuses return their registers. -/
def Obligations.SafetyCommandsComplete : Prop := ∀ (dt id : Nat) (s : State) (c : Cmd), let u := s.atRow dt id
  (let a := c.p 0x20 8; let n := c.p 0x28 4; let b := u.tableAt c a n;
    Runs s dt id 0x0801 c → c.part = 0 → u.configured = false → u.tableErr .system a n = none →
    Completes (.safetyConfigLoad dt id) s (match u.checkPackage b 2 with
      | .error e => u.failCmd c.id e
      | .ok (p, _, _) => match u.acceptConfig p b (Config.shake256 b 64) with
        | none => u.failCmd c.id 0x85
        | some v => v.doneWith c (leBytes 8 p.version)).settle) ∧
  (let p := c.p 0x20 1;
    Runs s dt id 0x0804 c → 1 ≤ p → p ≤ 7 → (c.part = 0 ∨ c.part = p) → u.partState p = .active →
    Completes (.safetySafeState dt id) s
      ((u.doneWith c (leBytes 1 (if u.ssi.policy.safeMax < (u.entriesOf p).length + 1 then 1 else 0))).enterSafe p 5).settle) ∧
  (let r4 := fun (r : Reg) => leBytes 4 (u.reg r).toNat
    let slot := fun (k : Nat) => r4 (.ssiStarterStat k) ++ r4 (.ssiStarterDefer k) ++ r4 (.ssiStarterCore k) ++ leBytes 4 0
    Runs s dt id 0x0805 c → Completes (.safetyStatus dt id) s (u.doneWith c (r4 .ssiSafeStat ++ leBytes 4 0 ++ leBytes 8 (u.reg .ssiSafeCfgVer).toNat ++
      ((List.range 8).flatMap fun (p : Nat) => r4 (.ssiPartSafe p)) ++ r4 .ssiChkCnt ++ r4 .ssiChkSkip ++ leBytes 8 0 ++ slot 0 ++ slot 1)).settle) ∧
  (let g := c.p 0x24 4; let b : Standby := { role := 0, period := if c.p 0x22 2 = 0 then 10 else c.p 0x22 2, group := g,
                                              misses := if c.p 0x28 1 = 0 then 3 else c.p 0x28 1, joined := u.ns, sentAt := u.ns };
    Runs s dt id 0x0806 c → c.p 0x20 1 = 0 → c.p 0x22 2 ≤ 100 → g < 2 ^ 24 → c.p 0x28 1 ≤ 15 → c.p 0x28 1 ≠ 1 →
    Completes (.safetyStandbyConfig dt id) s
      ((({ (u.modStandby fun _ => b) with freeCtr := u.freeCtr + 1 } : State).setFldOf .ssiSafeStat 24 2 0).done c).settle) ∧
  (∀ d m k, let e := s.elapse dt; let start := c.p 0x28 8; let dtNs := c.p 0x30 4; let n := c.p 0x34 2; let ch := c.p 0x36 1;
    let pts := d.rows.map fun a => (e.rowCodes d a).map fun v => BitVec.ofNat 32 v;
    let t : Traj := { seq := 0, start := start, dtNs := dtNs, chans := ch, points := pts, tag := d.tag, buf := k, swap := (match e.motionLoop with | some l => l.nextRelease e.now | none => e.now) };
    Runs s dt id 0x0840 c → e.ssi.rfx.motion = some m → m.part = c.part → e.offerBlocked = false → 62500 ≤ dtNs → dtNs ≤ 100000000 → 2 ≤ n → n ≤ 4096 →
    n * ch ≤ 65536 → ch = m.chans.length → e.readDesc c (c.p 0x20 8) = .ok d → d.mark = true → d.dev = 255 → d.hasShape [ch, n] = true → d.fmt = 0 →
    d.tag.valid = true → e.now ≤ d.tag.inst + m.ageLimit → e.now ≤ d.tag.expiry → e.now < start + (n - 1) * dtNs →
    e.tensorErr (.part c.part) .other false d = none → e.tensorUe d = none → badPoint m dtNs pts = none →
    badStep m e.setpoint (t.at (t.swap : Rat)) = none → e.freeTraj = some k →
    Completes (.safetyTrajOffer dt id) s ((((e.wrIsl (0xC0000 + 0x40000 * k) (pts.flatMap fun p => p.flatMap fun w => leBytes 4 w.toNat)).setRfx fun r =>
      { r with offers := r.offers ++ [(c.id, t)] }).start id).settle)) ∧
  (∀ m, Runs s dt id 0x0841 c → c.p 0x20 1 = m → (m = 2 ∨ m = 3) → u.lane ≠ 4 →
    Completes (.safetyReflexMode dt id) s ((u.trigger 4 m).doneWith c (leBytes 1 u.lane)).settle) ∧
  (Runs s dt id 0x0842 c → Completes (.safetyReflexStatus dt id) s (u.doneWith c (leBytes 8 (u.reg .ssiRfxStat).toNat ++
    leBytes 8 (u.reg .ssiRfxTrajSeq).toNat ++ leBytes 8 (u.reg .ssiRfxTrajT).toNat ++ leBytes 8 (u.reg .ssiRfxRefused).toNat)).settle) ∧
  (let p := c.p 0x20 1
    let stop := if u.partState p = .restarting then (u.part p).safeStop else decide (u.ssi.policy.safeMax < (u.entriesOf p).length + 1)
    Runs s dt id 0x0804 c → 1 ≤ p → p ≤ 7 → (c.part = 0 ∨ c.part = p) → u.partState p ≠ .undefined → u.partState p ≠ .defined →
    Completes (.safetySafeState dt id) s ((u.doneWith c (leBytes 1 (if stop then 1 else 0))).enterSafe p 5).settle) ∧
  (let role := c.p 0x20 1; let g := c.p 0x24 4
    let b : Standby := { role := role, period := if c.p 0x22 2 = 0 then 10 else c.p 0x22 2, group := g
                         misses := if c.p 0x28 1 = 0 then 3 else c.p 0x28 1, joined := u.ns, sentAt := u.ns }
    let v := (u.modStandby fun _ => b).setFldOf .ssiSafeStat 24 2 role; let r := v.fresh
    let d := if role = 0 then 0 else v.standbyDeficit r.1.toNat
    Runs s dt id 0x0806 c → role ≤ 2 → c.p 0x22 2 ≤ 100 → g < 2 ^ 24 → c.p 0x28 1 ≤ 15 → c.p 0x28 1 ≠ 1 →
    Completes (.safetyStandbyConfig dt id) s ((if d = 0 then r.2 else r.2.raise 0x080A 0 (evData [d])).done c).settle)

/-- The reflex lane's rows (R398, R402, R403, R408, R412 to R414): a loop runs when it is due and skips while it runs, and too many skips in a row of
a critical loop are trigger OVERRUN; a run that commits writes its payload, its tag and its mark and switches the entry; an offer is swapped in at a
release; a trajectory that has run out raises STARVED; a stop that has run out holds; the newest stop record is mirrored; a lockstep mismatch is
FAULT. -/
def Obligations.ReflexRowsComplete : Prop := ∀ (dt n : Nat) (s : State), let u := s.elapse dt
  (∀ l nd, u.ssi.rfx.loops[n]? = some l → u.lane ≠ 4 → l.releases u.now = some nd →
    (l.running = false → Completes (.reflexLoopRelease dt n) s
      (let v := u.setLoop n { l with last := l.at u.now, skipRow := 0, arrived := false, running := true, started := u.ns, noInput := nd }
       if nd then v.countSat (.ssiRfxLoop n) 0 16 else v)) ∧
    (l.running = true → l.critical = false → Completes (.reflexLoopRelease dt n) s
      (let v := (u.setLoop n { l with last := l.at u.now, skipRow := l.skipRow + 1, arrived := false, cleanFrom := u.ns }).countSat (.ssiRfxLoop n) 16 16
       v.raiseLim 0x0841 n 0 (evData [n, v.fldOf (.ssiRfxLoop n) 16 16])))) ∧
  (∀ l entry off ns ops b, u.ssi.rfx.loops[n]? = some l → l.running = true → u.lane ≠ 4 →
    let tag := tagOut (u.runTags l u.fresh.1)
    let v := ops.foldl State.matrixOp ((u.fresh.2.setLoop n { l with running := false }).maxFld (.ssiRfxLoopMax n) 0 32 ns)
    (b = [] → Completes (.reflexLoopComplete dt n entry off ns ⟨ops, b⟩) s v) ∧
    (let base := leVal (v.isl off 8)
      let w := (if inside base b.length 0 0x200000 then v.wrIsl base b else v).wrIsl (off + 0x50) tag.bytes
      let x := w.wrIsl (off + 0x0A) [setBit ((w.isl (off + 0x0A) 1).headD 0) 0 true]
      b ≠ [] → entry < 32 → off + 128 ≤ 0x200000 →
      Completes (.reflexLoopComplete dt n entry off ns ⟨ops, b⟩) s (x.setGey entry { x.gey entry with plDesc := 2 ^ 63 + off }))) ∧
  (∀ id c t l, u.ssi.rfx.offers = [(id, t)] → u.motionLoop = some l → u.cmd? id = some c → c.state = .running → t.swap ≤ l.last → u.lane ≠ 4 →
    ∃ v x, exec (.trajSwap dt) s = .next v ∧ v.lane = 1 ∧ v.ssi.rfx.offers = [] ∧ v.ssi.rfx.traj = some x ∧ x.seq = u.ssi.rfx.nextSeq ∧
      x.swap = l.last ∧ x.points = t.points ∧ v.triggers.testBit 2 = false ∧ v.triggers.testBit 3 = false ∧ v.triggers.testBit 4 = false) ∧
  (∀ t, u.ssi.rfx.traj = some t → u.lane ≠ 0 → u.triggers.testBit 2 = false → t.tag.expiry < u.now →
    Completes (.trajStarved dt) s (u.trigger 2 u.fbMode).settle) ∧
  (u.lane = 3 → u.ssi.rfx.from_ + u.ssi.rfx.stopT ≤ u.now → Completes (.stopStandstill dt) s (u.toLane 2)) ∧
  (u.pln.stop.on = true → (u.reg .plnStopSeq).toNat ≠ 0 → u.pwr.mainUp = true → Completes (.stopMirrorCopy dt) s (u.setRfx fun r => { r with
    mirror := u.rd (u.pln.stop.ring + 4096 * (((u.reg .plnStopSeq).toNat - 1) % Nat.max 1 u.pln.stop.slots)) 4096 })) ∧
  (∀ a, u.lane ≠ 4 → ∃ t, exec (.lockstepMismatch dt a) s = .next t ∧ t.lane = 4 ∧ bit (t.reg .ssiRfxStat) 0 = true ∧ 2 ∈ t.ssi.causes ∧
    (∀ l ∈ t.ssi.rfx.loops, l.running = false) ∧ t.ssi.rfx.offers = []) ∧
  (∀ l nd, u.ssi.rfx.loops[n]? = some l → u.lane ≠ 4 → l.releases u.now = some nd → l.running = true → let row := l.skipRow + 1
    let v := (u.setLoop n { l with last := l.at u.now, skipRow := row, arrived := false, cleanFrom := u.ns }).countSat (.ssiRfxLoop n) 16 16
    let w := v.raiseLim 0x0841 n 0 (evData [n, v.fldOf (.ssiRfxLoop n) 16 16])
    Completes (.reflexLoopRelease dt n) s (if l.critical = true ∧ row = l.overrunMax then w.trigger 3 3 else w)) ∧
  (∀ id c t l rest, u.ssi.rfx.offers = (id, t) :: rest → u.motionLoop = some l → u.cmd? id = some c → c.state = .running → t.swap ≤ l.last → u.lane ≠ 4 →
    let x := { t with seq := u.ssi.rfx.nextSeq, swap := l.last }
    let v := (u.setRfx fun r => { r with offers := rest, traj := some x, nextSeq := r.nextSeq + 1 }).toLane 1
    let w := ((((v.clearTrigger 2).clearTrigger 3).clearTrigger 4).setReg .ssiRfxTrajSeq (BitVec.ofNat 64 x.seq)).setReg .ssiRfxTrajT
      (BitVec.ofNat 64 x.start)
    w.cmd? id = some c → Completes (.trajSwap dt) s
      (w.doneWith c (leBytes 8 x.seq ++ leBytes 8 x.swap ++ leBytes 4 0xFFFFFFFF ++ leBytes 1 0)).settle) ∧
  (∀ t, u.ssi.rfx.traj = some t → u.lane ≠ 0 → u.triggers.testBit 2 = false → t.start + (t.points.length - 1) * t.dtNs < u.now →
    Completes (.trajStarved dt) s (u.trigger 2 u.fbMode).settle) ∧
  (∀ a, u.lane ≠ 4 → let v := ((u.setFldOf .ssiRfxStat 16 3 4).setFldOf .ssiRfxStat 0 1 1).setRfx fun r => { r with
      loops := r.loops.map fun (l : Loop) => { l with running := false } }
    Completes (.lockstepMismatch dt a) s (((((v.fallbackOnly true).failOffers).raise 0x0844 0 (evData [a])).addCause 2).settle))

/-- The Island's pins and the standby group's heartbeats (R421, R440, R443): SAFE_ALIVE toggles every millisecond while the monitors pass and
stops with cause 6 when one fails; a heartbeat is sent each period, one that comes is noted, and a member that misses too many is lost. -/
def Obligations.IslandRowsComplete : Prop := ∀ (dt d : Nat) (s : State), let u := s.elapse dt
  (u.pwr.porstHigh = true → u.ssi.alive = true → u.ssi.aliveAt + 990000 ≤ u.ns → Completes (.safeAliveToggle dt) s
    (u.setSsi fun x => { x with aliveLevel := !x.aliveLevel, aliveAt := u.ns })) ∧
  (u.pwr.porstHigh = true → Completes (.islandMonitorFail dt) s ((u.setSsi fun x => { x with alive := false }).addCause 6)) ∧
  (u.ready = true → u.standby.role ≠ 0 → u.standby.sentAt + u.standby.period * 1000000 ≤ u.ns → Completes (.heartbeatTx dt) s
    ((u.modStandby fun x => { x with sentAt := u.ns }).emit (.heartbeat u.devNum))) ∧
  (u.ready = true → u.standby.role ≠ 0 → u.groupMembers.contains d = true → Completes (.heartbeatRx dt d) s
    ((u.modStandby fun x => { x with seen := (d, u.ns) :: x.seen.filter fun e => e.1 != d, lost := x.lost.filter fun e => e != d }).setFldOf
      .ssiSafeStat 26 1 0)) ∧
  (u.ready = true → u.standby.role = 1 → u.groupMembers.contains d = true → u.standby.lost.contains d = false →
    u.standby.heard d + u.standby.misses * u.standby.period * 1000000 ≤ u.ns → u.mmv.colls = [] → (u.groupMembers.any fun e => (u.linkRoute e).isSome) = true →
    Completes (.heartbeatMissTimeout dt d) s (((u.modStandby fun x => { x with lost := x.lost ++ [d] }).raise 0x080A 0 (evData [d])).settle)) ∧
  (u.ready = true → u.standby.role ≠ 0 → u.groupMembers.contains d = true → u.standby.lost.contains d = false →
    u.standby.heard d + u.standby.misses * u.standby.period * 1000000 ≤ u.ns →
    let v := ((u.modStandby fun x => { x with lost := x.lost ++ [d] }).raise 0x080A 0 (evData [d])).loseMember d; let r := v.fresh
    let lower := (v.groupMembers.filter fun e => e != d).filter fun e => decide (e < r.2.devNum) && !(r.2.standby.lost.contains e)
    Completes (.heartbeatMissTimeout dt d) s (if v.groupMembers.all (fun e => (v.linkRoute e).isNone) then (v.setFldOf .ssiSafeStat 26 1 1).raise 0x080C 0
      else if u.standby.role = 2 then (if lower.isEmpty ∨ r.1.getLsbD 0 then r.2.promote d else r.2) else v).settle)

/-- The Security group (R453 to R464): identity and attestation are pushed; a rollback commit raises the fuse to the running image's; a
statement whose signature holds revokes a root or unlocks debug for the nonce it names, or enters confidential mode; a weight package that passes
its checks is decrypted into a free protected region; a release zeroes the region. What the signature and the keys decide is left to them. -/
def Obligations.SecurityCommandsComplete : Prop := ∀ (dt id : Nat) (s : State) (c : Cmd), let u := s.atRow dt id
  let st := u.tableAt c (c.p 0x20 8) (c.p 0x28 4)
  (Runs s dt id 0x0901 c → u.busMaster = true →
    Completes (.secGetIdentity dt id) s ((u.push c.id (c.p 0x20 8) (cut Config.certificate 0 6272) false).setVerdict c.id 0).settle) ∧
  (let b := u.attestBody (cut c.params 0 32);
    Runs s dt id 0x0902 c → u.busMaster = true →
    Completes (.secAttest dt id) s ((u.push c.id (c.p 0x40 8) (b ++ cut (Config.falconSign b) 0 1280) false).setVerdict c.id 0).settle) ∧
  (let new := u.ccx.imageRollback;
    (Runs s dt id 0x0903 c → u.fuse < new → u.safeWarn = false → Completes (.secRollbackCommit dt id) s
      ((((u.setFldOf .ssiSecFuse 0 6 new).setFldOf .ssiSecStat 28 1 0).raise 0x0901 0 (evData [u.fuse, new])).doneWith c
        (leBytes 1 u.fuse ++ leBytes 1 new)).settle) ∧
    (Runs s dt id 0x0903 c → new ≤ u.fuse → Completes (.secRollbackCommit dt id) s
      ((u.setResult c.id 0x20 (leBytes 1 u.fuse ++ leBytes 1 u.fuse)).finish c.id 0x01).settle)) ∧
  (Runs s dt id 0x0904 c → u.tableErr c.tableReq (c.p 0x20 8) (c.p 0x28 4) = none → numAt st 0 4 = 0x52564B53 → numAt st 4 1 ≤ 3 →
    (numAt st 8 8 = 0 ∨ numAt st 8 8 = Config.serial.toNat) → (∃ k < 4, k ≠ numAt st 4 1 ∧ u.revoked k = false) →
    Completes (.secRootRevoke dt id) s (match u.checkStatement st 64 with
      | none => u.failCmd c.id 0x85
      | some slot => if slot = numAt st 4 1 then u.failCmd c.id 0x12
        else if u.revoked (numAt st 4 1) = true then u.finish c.id 0x01
        else ((u.setFldOf .ssiSecFuse (28 + numAt st 4 1) 1 1).raise 0x0902 0 (evData [numAt st 4 1])).done c).settle) ∧
  (let b := u.tableAt c (c.p 0x20 8) (c.p 0x28 8); let w := Weights.parse b; let n := u.freeRegion.getD 0; let dst := c.p 0x30 8;
    let key := ((w.entry b).bind fun e => Config.unwrapKey e (leBytes 8 w.packageId)).getD [];
    let tags := (List.range w.chunks).flatMap fun i => cut b ((w.chunkAt i).1 + (w.chunkAt i).2) 16;
    Runs s dt id 0x0910 c → u.tableErr c.tableReq (c.p 0x20 8) (c.p 0x28 8) = none →
    Completes (.secWeightLoad dt id) s (match u.weightErr c w b with
      | some e => if e = 0x83 then u.weightFail c w none 0x83 else u.failCmd c.id e
      | none => match w.open_ key b w.chunks 0 with
        | .error i => ((u.clearMem dst (i * w.chunk)).clearPoison dst (i * w.chunk)).weightFail c w (some i) 0x81
        | .ok p => if Config.shake256 tags 64 ≠ cut b 0x40 64 then ((u.clearMem dst w.plain).clearPoison dst w.plain).failCmd c.id 0x81
          else (((((u.store dst (cut p 0 w.plain)).setReg (.ssiSecProtBase n) (BitVec.ofNat 64 dst)).setReg (.ssiSecProtSize n)
            (BitVec.ofNat 64 (ceilDiv w.plain 65536))).setReg (.ssiSecProtPart n) (BitVec.ofNat 64 c.part)).showRegions).doneWith c
            (leBytes 1 n ++ List.replicate 7 0 ++ leBytes 8 w.plain)).settle) ∧
  (let e := s.elapse dt; let n := c.p 0x20 1; let base := (e.reg (.ssiSecProtBase n)).toNat; let size := (e.reg (.ssiSecProtSize n)).toNat * 65536;
    Runs s dt id 0x0911 c → n ≤ 15 → size ≠ 0 → e.fldOf (.ssiSecProtPart n) 0 3 = c.part → e.regionRead base size = false →
    Completes (.secWeightRelease dt id) s ((((((((e.clearMem base size).clearPoison base size).setReg (.ssiSecProtBase n) 0).setReg (.ssiSecProtSize n) 0).setReg
      (.ssiSecProtPart n) 0).showRegions).doneWith c []).start id).settle) ∧
  (let v := u.drawNonce;
    Runs s dt id 0x0921 c → v.confidential = false → v.tableErr c.tableReq (c.p 0x20 8) (c.p 0x28 4) = none →
    numAt st 0 4 = 0x44424755 → (numAt st 4 1 = 1 ∨ numAt st 4 1 = 2) → v.tableAt c (c.p 0x20 8) (c.p 0x28 4) = st →
    Completes (.secDebugUnlock dt id) s (match v.checkStatement st 128 with
      | none => v.failCmd c.id 0x85
      | some _ => if numAt (st.take 128) 8 8 ≠ Config.serial.toNat ∨ cut (st.take 128) 0x10 32 ≠ u.dbgNonce then v.failCmd c.id 0x85
        else (((v.setFldOf .ssiSecStat 29 2 3).emit (.jtag true)).raise 0x0904 0 (evData [numAt (st.take 128) 4 1])).done c).settle) ∧
  (let b := st.take 256; let d := Config.shake256 b 64;
    (Runs s dt id 0x0920 c → u.confidential = true → Completes (.secConfidentialEnter dt id) s (u.finish c.id 0x01).settle) ∧
    (let v := if bit (u.reg .ssiSecStat) 30 then u.emit (.jtag false) else u;
      Runs s dt id 0x0920 c → u.confidential = false → u.tableErr c.tableReq (c.p 0x20 8) (c.p 0x28 4) = none →
      Completes (.secConfidentialEnter dt id) s (match u.checkStatement st 256 with
        | none => u.failCmd c.id 0x85
        | some _ => if u.policyOk b then
            (((((v.setFldOf .ssiSecStat 31 1 1).setFldOf .ssiSecStat 30 1 0).setSec fun x => { x with policy := d }).raise 0x0905 0 (d.take 8)).done c)
          else u.failCmd c.id 0x85).settle))

/-- Cold start and warm reset (R69, R123, R471, R479 to R485, R494): power-on, the cold start, VCORE_PG, memory, the image and Bivexa bring the part
to READY; a latched cause takes the main domain down and its release brings it up again, with the image loaded or kept as the cause says, and an event
reports it. -/
def Obligations.ResetRowsComplete : Prop := ∀ (dt : Nat) (s : State), let u := s.elapse dt
  (u.pwr.vaon = false → Completes (.vaonPowerOnRelease dt) s ((u.modPwr fun p => { p with vaon := true }).setReg .ssiPwrColdSrc 0x00010001)) ∧
  (u.pwr.vaon = true → u.pwr.porstHigh = false → Completes (.coldStart dt) s
    (((((u.modPwr fun p => { p with porstHigh := true, riseAt := u.ns, coldAt := u.ns }).setPwrBit 31 true).setPwrBit 7 false).showCauses).drawNonce.setStage 1)) ∧
  (u.pwr.porstHigh = true → Completes (.porstLow dt false) s (u.coldReset 2)) ∧
  Completes (.porstLow dt true) s ((u.coldReset 1).modPwr fun p => { p with vaon := false }) ∧
  (u.pwr.enDue = none → u.pwr.porstHigh = true → u.pwrBit 31 = true → u.pwrBit 30 = false → u.stage = 1 → Completes (.vcorePgSeen dt) s
    (((u.setPwrBit 30 true).setReg .ccxPwrVset 750).modPwr fun p => { p with mainUp := true, phyUp := true })) ∧
  (u.pwr.enDue = none → u.stage = 1 → u.pwrBit 31 = true → u.pwrBit 30 = false → u.pwr.riseAt + 10000000 ≤ u.ns →
    Completes (.vcorePgTimeout dt) s (let v := u.modPwr fun p => { p with vcoreTries := u.pwr.vcoreTries + 1 }
      if u.pwr.vcoreTries < 2 then v.enOff (some (u.ns + 100000000)) else (v.enOff none).halt 0xFF)) ∧
  (u.stage = 1 → u.pwr.mainUp = true → u.fldOf .mmvMemStat 31 1 = 0 → Completes (.hbmInitDone dt) s
    ((((u.clearMem 0 hbmSize).modPwr fun p => { p with hbmPoison := [], scrubPos := 0, scrubFrom := u.ns }).setFldOf .mmvMemStat 31 1 1).setStage 2)) ∧
  (u.stage = 3 → Completes (.imageVerifyDone dt) s (match u.checkPackage (u.rd loadBase u.ccx.imageLen) 1 with
    | .error e => u.halt e
    | .ok (p, slot, digest) => (u.takeImage p slot digest).setStage 4)) ∧
  (u.stage = 4 → u.pwr.warm = none → ∃ t, exec (.bivexaReady dt) s = .next t ∧ t.ready = true ∧ t.stage = 5 ∧ t.tar.rng.length = u.tar.rng.length + 14) ∧
  (u.pwr.porstHigh = true → u.ready = true → (∀ e ∈ u.pwr.reqs, u.ns ≤ e.2 + 100) → Completes (.p0WarmResetRequest dt) s
    ((u.countReset 2).modPwr fun p => { p with reqs := p.reqs ++ [(2, u.ns)] })) ∧
  (∀ cause t0, u.pwr.reqs = [(resetCode cause, t0)] → u.pwr.warm = none → u.hp.posted = [] →
    ∃ t, exec (.mainResetEntry dt cause) s = .next t ∧ t.stage = 6 ∧ t.ready = false ∧ t.pwr.mainUp = false ∧ t.pwr.reqs = [] ∧ t.ccx.cmds = [] ∧
      t.tar.jobs = [] ∧ t.mmv.moves = [] ∧ t.kv.seqs = [] ∧ t.hp.mbox = mboxReset ∧ (∀ w, t.pwr.warm = some w → w.code = resetCode cause)) ∧
  (∀ w, u.pwr.warm = some w → w.held = true → w.load = false → u.pwrBit 4 = false → u.pwrBit 6 = false → u.pwrBit 30 = true →
    u.pwr.refs.contains .sref0 = true → u.pwr.srefAt = 0 →
    Completes (.mainDomainRelease dt) s ((((u.modPwr fun p => { p with mainUp := true, phyUp := true, scrubFrom := u.ns, warm := some { w with held := false } }).setFldOf
      .mmvMemStat 30 1 0).setReg .ccxPwrVset 750).setFldOf .ccxIdState 8 8 w.code)) ∧
  (∀ w, u.pwr.warm = some w → w.load = false → w.missed = false → u.pwrBit 6 = false → w.boundAt + 250000000 ≤ u.ns →
    Completes (.warmBoundTimeout dt) s ((u.modPwr fun p => { p with warm := some { w with missed := true } }).addCause 3)) ∧
  (let x := u.syncEn; u.pwr.porstHigh = true → x.pwrBit 31 = true → x.pwrBit 30 = false → let v := x.setPwrBit 30 true
    Completes (.vcorePgSeen dt) s (if v.stage = 1 then (v.setReg .ccxPwrVset 750).modPwr fun p => { p with mainUp := true, phyUp := true } else v)) ∧
  (let x := u.syncEn; let n := x.pwr.vcoreTries + 1; let v := x.modPwr fun p => { p with vcoreTries := n }
    x.stage = 1 → x.pwrBit 31 = true → x.pwrBit 30 = false → x.pwr.riseAt + 10000000 ≤ x.ns →
    Completes (.vcorePgTimeout dt) s (if n < 3 then v.enOff (some (v.ns + 100000000)) else (v.enOff none).halt 0xFF)) ∧
  (∀ w, u.stage = 6 → u.pwr.warm = some w → w.load = true → w.held = false → u.pwr.mainUp = true → u.fldOf .mmvMemStat 31 1 = 0 →
    Completes (.hbmInitDone dt) s
      ((((u.clearMem 0 hbmSize).modPwr fun p => { p with hbmPoison := [], scrubPos := 0, scrubFrom := u.ns }).setFldOf .mmvMemStat 31 1 1).setStage 2)) ∧
  (∀ w, u.stage = 6 → u.pwr.warm = some w → w.load = false → w.held = false →
    Completes (.imageVerifyDone dt) s (match u.checkPackage (u.rd loadBase u.ccx.imageLen) 1 with
      | .error e => (u.addCause 3).halt e
      | .ok (p, slot, digest) => (u.takeImage p slot digest).setStage 4)) ∧
  (u.stage = 4 → let rst := (u.reg .ssiPwrRstCnt).toNat
    let v := ({ u with gov := { u.gov with target := if u.gov.ceiling = 0 then 550 else 750 } } : State).seedCores
    (u.pwr.warm = none → Completes (.bivexaReady dt) s
      ((v.defaultSources.setStage 5).raise 0x0A08 0 (evData [v.fldOf .ssiPwrColdSrc 0 4, v.ns - v.pwr.coldAt, rst]))) ∧
    (∀ w, u.pwr.warm = some w →
      let x := ((((v.modPwr fun p => { p with warm := none }).countWrap .ccxIdGen 0 32 1).restorePace).setStage 5)
      Completes (.bivexaReady dt) s (((x.raise 0x0A08 0 (evData [w.code, x.ns - w.at_, rst])).clearTrigger 1).dropCause 3))) ∧
  (u.pwr.porstHigh = true → u.stage = 7 → (∀ e ∈ u.pwr.reqs, u.ns ≤ e.2 + 100) → Completes (.p0WarmResetRequest dt) s
    ((u.countReset 2).modPwr fun p => { p with reqs := p.reqs ++ [(2, u.ns)] })) ∧
  (∀ cause c0 t0 rest, u.pwr.reqs = (c0, t0) :: rest → (u.pwr.reqs.any fun e => e.1 == resetCode cause) = true → (u.pwr.warm = none ∨ u.stage = 7) →
    let code := rest.foldl (fun (c : Nat) e => if e.2 ≤ t0 + 100 then Nat.max c e.1 else if 3 ≤ e.1 then e.1 else c) c0
    let load := !(u.stage == 4 || u.stage == 5)
    let w : Warm := { code := code, at_ := t0, load := load, boundAt := t0, lowAt := u.ns }
    let v := (u.setStage 6).raise 0x0A80 0 (evData [code])
    Completes (.mainResetEntry dt cause) s ((((v.trigger 1 v.fbMode).setFldOf .mmvMemStat 30 1 1).mainLoss load).modPwr fun p =>
      { p with warm := some w, reqs := [], mainUp := false, scrubPos := 0 })) ∧
  (∀ w, u.pwr.warm = some w → w.held = true → u.pwrBit 4 = false → u.pwrBit 6 = false → u.pwrBit 30 = true → u.pwr.refs.contains .sref0 = true →
    (u.pwr.srefAt = 0 ∨ u.pwr.srefAt + 1000000 ≤ u.ns) →
    let v := (u.modPwr fun p => { p with mainUp := true, phyUp := true, scrubFrom := u.ns, warm := some { w with held := false } }).setFldOf .mmvMemStat 30 1 0
    let x := (v.setReg .ccxPwrVset 750).setFldOf .ccxIdState 8 8 w.code
    Completes (.mainDomainRelease dt) s (if w.load = true ∧ x.fldOf .mmvMemStat 31 1 = 1 then x.setStage 2 else x))

/-- Supplies, temperature and reference clocks (R472 to R474, R477, R483, R494): a supply below its warning level is flagged, counted and told, and
restored; below its reset level VSAFE and VIO reset the part and VCORE holds the main domain; a sample of Tj throttles, trips or resets; a VCORE that
does not recover is cycled once and then told; a lost clock is told and its user reacts. -/
def Obligations.SupplyRowsComplete : Prop := ∀ (dt : Nat) (s : State), let u := s.elapse dt
  (∀ mv, u.pwr.porstHigh = true → u.pwrBit 0 = false → mv < u.warnMv .vcore → Completes (.supplyWarning dt .vcore mv) s
    (let v := ((u.setPwrBit 0 true).countSat .ssiPwrWarnCnt 0 8)
     let w := v.raiseLim 0x0A05 0 0 (evData [0, mv, v.warnMv .vcore])
     w.setGate (Nat.min w.gate 32))) ∧
  (∀ mv, u.pwr.porstHigh = true → u.pwrBit 1 = false → mv < 720 → Completes (.supplyWarning dt .vsafe mv) s
    ((((u.setPwrBit 1 true).countSat .ssiPwrWarnCnt 8 8).raiseLim 0x0A05 1 0 (evData [1, mv, 720])).addCause 5)) ∧
  (∀ mv, u.pwr.porstHigh = true → u.pwrBit 2 = false → mv < 1660 → Completes (.supplyWarning dt .vio mv) s
    (((u.setPwrBit 2 true).countSat .ssiPwrWarnCnt 16 8).raiseLim 0x0A05 2 0 (evData [2, mv, 1660]))) ∧
  (∀ r, u.pwrBit (railNum r) = true → Completes (.supplyRestored dt r) s
    (let v := (u.setPwrBit (railNum r) false).raise 0x0A06 0 (evData [railNum r]); if r = .vsafe then v.dropCause 5 else v)) ∧
  (u.pwr.porstHigh = true → Completes (.supplyResetThreshold dt .vsafe) s (u.coldReset 3) ∧
    Completes (.supplyResetThreshold dt .vio) s (u.coldReset 4)) ∧
  (u.pwr.porstHigh = true → u.pwr.mainUp = true → u.pwrBit 4 = false → Completes (.vcoreResetThreshold dt) s ((u.setPwrBit 4 true).request 3)) ∧
  (u.pwr.enDue = none → Completes (.vcoreRecovered dt) s (u.setPwrBit 4 false)) ∧
  (∀ w, u.pwr.enDue = none → u.pwr.warm = some w → u.pwrBit 4 = true → w.lowAt + 100000000 ≤ u.ns → w.cycled = false →
    Completes (.vcoreRecoveryTimeout dt) s
      ((u.enOff (some (u.ns + 10000000))).modPwr fun p => { p with warm := some { w with cycled := true, lowAt := u.ns + 10000000 } })) ∧
  (∀ tj, u.pwr.porstHigh = true → tj < maxTj + 5 → u.pwrBit 6 = false → Completes (.tjSample dt tj) s ((u.showTj tj).throttleTj tj)) ∧
  (∀ tj, u.pwr.porstHigh = true → maxTj + 5 ≤ tj → tj < maxTj + 15 → u.pwrBit 6 = false → Completes (.tjSample dt tj) s
    (((((u.showTj tj).throttleTj tj).setPwrBit 6 true).enOff none).request 4)) ∧
  (∀ tj, u.pwr.porstHigh = true → maxTj + 15 ≤ tj → Completes (.tjSample dt tj) s (((u.showTj tj).throttleTj tj).coldReset 5)) ∧
  (u.pwr.refs.contains .pcie = true → u.hp.linkUp = false → Completes (.refclkLost dt .pcie) s ((u.noRef .pcie).raise 0x0A09 0 (evData [0]))) ∧
  (u.pwr.refs.contains .sref0 = true → Completes (.refclkLost dt .sref0) s (((u.noRef .sref0).raise 0x0A09 0 (evData [2])).sref0Lost)) ∧
  (u.pwr.refs.contains .sref1 = true → Completes (.refclkLost dt .sref1) s (((u.noRef .sref1).raise 0x0A09 0 (evData [3])).sref1Lost)) ∧
  (∀ r, u.pwr.refs.contains r = false → r ≠ .timeref → Completes (.refclkRestored dt r) s (u.modPwr fun p => { p with
    refs := p.refs ++ [r], srefAt := if r = .sref0 then u.ns else p.srefAt })) ∧
  (∀ w, u.pwr.porstHigh = true → u.pwr.warm = some w → u.pwrBit 4 = false → Completes (.vcoreResetThreshold dt) s ((u.setPwrBit 4 true).request 3)) ∧
  Completes (.vcoreRecovered dt) s (u.syncEn.setPwrBit 4 false) ∧
  (∀ w, let x := u.syncEn; x.pwr.warm = some w → x.pwrBit 4 = true → w.lowAt + 100000000 ≤ x.ns →
    (w.cycled = false → Completes (.vcoreRecoveryTimeout dt) s
      ((x.enOff (some (x.ns + 10000000))).modPwr fun p => { p with warm := some { w with cycled := true, lowAt := x.ns + 10000000 } })) ∧
    (w.cycled = true → w.missed = false → Completes (.vcoreRecoveryTimeout dt) s
      ((x.modPwr fun p => { p with warm := some { w with missed := true } }).addCause 3))) ∧
  (∀ tj, u.pwr.porstHigh = true → tj < maxTj + 15 → let v := (u.showTj tj).throttleTj tj
    v.pwrBit 6 = true → tj ≤ maxTj - 15 → Completes (.tjSample dt tj) s
      (((v.setPwrBit 6 false).setPwrBit 31 true).modPwr fun p => { p with
        riseAt := v.ns, enDue := none, warm := p.warm.map fun w => { w with boundAt := v.ns, lowAt := v.ns } })) ∧
  (u.pwr.refs.contains .pcie = true → u.hp.linkUp = true →
    Completes (.refclkLost dt .pcie) s (((u.noRef .pcie).raise 0x0A09 0 (evData [0])).linkReset false)) ∧
  (u.pwr.refs.contains .timeref = true → Completes (.refclkLost dt .timeref) s (timerefLost u)) ∧
  (u.pwr.refs.contains .timeref = false → Completes (.refclkRestored dt .timeref) s (timerefRestored u))

/-- A step takes the command at the front of the queue and runs it on the state with the queue's rest; with an empty queue the block idles (the
model's choice, log entry 1). -/
def Obligations.StepRunsFrontCommand : Prop := ∀ (s : State),
  (∀ c rest, s.pending = c :: rest → step s = exec c { s with pending := rest }) ∧ (s.pending = [] → step s = .next s)

/-- Every command answers a next state, none touches the queue of those behind it, and each takes its own time: dt ticks of 2 ns (log entries 1
and 2). -/
def Obligations.QueueAndTime : Prop := ∀ (i : Instr) (s : State),
  ∃ t, exec i s = .next t ∧ t.pending = s.pending ∧ t.ticks = s.ticks + i.dt

/-- Right after reset (R16, R65, R70, R379, R471): the part is held in cold reset, stage 0 and not ready; every register reads its reset
value; memory lists nothing; the request slots belong to the host and the response and event slots do too; no command waits; no engine works and
every memory has its canonical form. Values that no rule states are the model's choice (log entries 10, 12 and 78). -/
def Obligations.ResetState : Prop :=
  State.reset.stage = 0 ∧ State.reset.ready = false ∧ State.reset.pwr.porstHigh = false ∧ State.reset.pwr.mainUp = false ∧
  (∀ r : Reg, State.reset.reg r = r.resetVal) ∧ (∀ a, State.reset.rdByte a = 0) ∧ State.reset.pending = [] ∧
  (∀ n < 32, State.reset.slotOwn n = false ∧ State.reset.slotOwn (32 + n) = true ∧ State.reset.slotOwn (64 + n) = true) ∧
  State.reset.WorkRuns ∧ State.reset.memOk = true

/-- Every step keeps the invariant of R106 and R121: no engine works for a command that has ended. -/
def Obligations.WorkRunsKept : Prop := ∀ (s t : State), s.WorkRuns → Steps s t → t.WorkRuns

/-- The row of a host command that is not RUNNING with the row's code does nothing but take its time (the model's reading, log entry 8). -/
def Obligations.HostRowIdle : Prop := ∀ (i : Instr) (n code : Nat) (s : State), i.hostCmd = some (n, code) →
  (∀ c, s.cmd? n = some c → c.code ≠ code ∨ c.state ≠ .running) → Completes i s (s.elapse i.dt)

/-- Configuration commands store nothing in device memory (R99): with no page of the KV cache, no voxel set held and no descriptor in flight, whatever
their parameters, every byte of device memory and of Island memory reads as before, and every register but the one that the command names, the set
point that a new warning raises (R44, R475) and the mark of a response that was discarded keeps its value. -/
def Obligations.ConfigurationFrames : Prop := ∀ (dt id : Nat) (s t : State), let u := s.elapse dt
  u.tar.jobs = [] → u.tar.slots = [] → u.kv.pages = [] →
  let keeps := fun (i : Instr) (p : Reg → Prop) => exec i s = .next t →
    SameMem s t (fun _ => True) ∧ t.island = s.island ∧ SameRegs s t (fun r => r ≠ .ccxHpMboxErr ∧ ¬ p r)
  keeps (.timeSetFormat dt id) (fun r => ∃ n, r = .tnuTbCtl n) ∧ keeps (.timeSetSource dt id) (fun r => ∃ n, r = .tnuTbCtl n) ∧
  keeps (.timeSetIncrement dt id) (fun r => ∃ n, r = .tnuTbInc n) ∧ keeps (.timeSetJumpThreshold dt id) (fun r => ∃ n, r = .tnuTbJumpThr n) ∧
  keeps (.timeStepUnlock dt id) (fun _ => False) ∧ keeps (.timeRead dt id) (fun r => ∃ n, r = .tnuXstampTb n) ∧
  keeps (.powerSetLimit dt id) (fun r => r = .ccxPwrPpl) ∧ keeps (.powerSetMargin dt id) (fun _ => False) ∧
  keeps (.powerSetWarn dt id) (fun r => r = .ssiPwrVcoreWarn ∨ r = .ccxPwrVset) ∧ keeps (.powerStatus dt id) (fun _ => False) ∧
  keeps (.moveLinkStatus dt id) (fun _ => False) ∧ keeps (.memArbStatus dt id) (fun _ => False) ∧ keeps (.memErrStatus dt id) (fun _ => False) ∧
  keeps (.memArbConfig dt id) (fun r => ∃ n, r = .mmvArbCtl n ∨ r = .mmvArbUrgency n ∨ r = .mmvArbWindow n ∨ ∃ w, r = .mmvArbRank n w) ∧
  keeps (.safetyReflexStatus dt id) (fun _ => False) ∧ keeps (.safetyStatus dt id) (fun _ => False)

/-- What a store leaves alone (R86, R60, R331, R175): a data-port write at stage READY changes no byte outside its 4 × n bytes at the pointer; a
peer's write none outside its range; a read of the data port or of a stream's queue none at all; a mailbox write no byte of device memory and no
mailbox byte outside its slot's. -/
def Obligations.StoreFrames : Prop := ∀ (dt : Nat) (s t : State), let u := s.elapse dt; u.tar.jobs = [] → u.tar.slots = [] → u.kv.pages = [] →
  (∀ dws first last p, let ptr := (u.reg .ccxHpDportPtr).toNat;
    u.stage = 5 → exec (.dportWrite dt dws first last p) s = .next t → SameMem s t fun a => a < ptr ∨ ptr + 4 * dws.length ≤ a) ∧
  (∀ n, exec (.dportRead dt n) s = .next t → SameMem s t fun _ => True) ∧
  (∀ n, exec (.queueRead dt n) s = .next t → SameMem s t fun _ => True) ∧
  (∀ p part a b, exec (.linkFlitRx dt p .good (.write part a b)) s = .next t → SameMem s t fun x => x < a ∨ a + b.length ≤ x) ∧
  (∀ off b q, exec (.mboxSlotWrite dt off b q) s = .next t → (SameMem s t fun _ => True) ∧
    ∀ a, a < off ∨ off + b.length ≤ a → sget 0 t.hp.mbox a = sget 0 s.hp.mbox a)

/-- TB0 is always extended, and TIME_SET_FORMAT naming TB0 ends FAILED with ST_NOT_PERMITTED (R130), for either format. -/
def Obligations.TimeBaseZeroExtended : Prop := (∀ s : State, s.tbShort 0 = false) ∧
  ∀ (dt id : Nat) (s : State) (c : Cmd), Runs s dt id 0x0201 c → c.p 0x20 1 = 0 → c.p 0x21 1 ≤ 1 →
    Completes (.timeSetFormat dt id) s ((s.atRow dt id).failCmd c.id 0x12).settle

/-- A write of 1 to TNU_XSTAMP_CTL latches the eight time bases at one tick into TNU_XSTAMP_TB0 to TB7, and TIME_READ performs a cross-stamp and
returns the eight values, as 64-bit instants (R142). -/
def Obligations.CrossStampLatches : Prop := ∀ (dt id : Nat) (s : State), let u := s.elapse dt
  (∀ v : W32, bit v 0 = true → ∃ t, exec (.xstampWrite dt v) s = .next t ∧ ∀ n < 8, t.reg (.tnuXstampTb n) = BitVec.ofNat 64 (u.tbNow n)) ∧
  (∀ c, Runs s dt id 0x0207 c →
    Completes (.timeRead dt id) s (((s.atRow dt id).crossStamp.doneWith c ((List.range 8).flatMap fun n => leBytes 8 (u.tbFull n))).settle) ∧
    ∃ t, exec (.timeRead dt id) s = .next t ∧ ∀ n < 8, t.reg (.tnuXstampTb n) = BitVec.ofNat 64 (u.tbNow n))

/-- EV_REFCLK_LOST is event 0x0A09 of the Power group, and its data carries the reference code (R505): the loss of each of the four references raises
it to P0, with code 0 for PCIE_REFCLK, 1 for TIMEREF, 2 for SREF0 and 3 for SREF1 (R494). -/
def Obligations.RefclkLostEvent : Prop := ∀ (dt : Nat) (s : State) (r : RefClk), (s.elapse dt).pwr.refs.contains r = true →
  ∃ t e, exec (.refclkLost dt r) s = .next t ∧ e.code = 0x0A09 ∧ e.code / 256 = 10 ∧ OutItem.p0Event e ∈ t.out ∧
    leVal e.data = match r with | .pcie => 0 | .timeref => 1 | .sref0 => 2 | .sref1 => 3

/-- CTRL_FUNC_ENABLE on a function whose disable has not committed ends FAILED with ST_BUSY; on one that is enabled already it ends COMPLETED with
ST_OK; CTRL_FUNC_DISABLE on one whose earlier disable has committed changes nothing, starts no drain and no timeout, and ends COMPLETED with ST_OK and
zero counts (R111). The status of a COMPLETED command, `doneStatus`, is ST_OK unless its deadline has passed. -/
def Obligations.FunctionEnableDisable : Prop := ∀ (dt id : Nat) (s : State) (c : Cmd), let u := s.atRow dt id
  let kind := c.p 0x20 1; let idx := c.p 0x22 2
  funcExists kind idx = true →
  (∀ f ∈ u.ccx.funcs, Runs s dt id 0x0104 c → f.kind = kind → f.idx = idx → f.committed = false →
    Completes (.ctrlFuncEnable dt id) s (u.failCmd c.id 0x14).settle) ∧
  (Runs s dt id 0x0104 c → u.funcOff kind idx = false → (∀ f ∈ u.ccx.funcs, f.kind = kind → f.idx = idx → f.committed = true) →
    Completes (.ctrlFuncEnable dt id) s (u.finish c.id (u.doneStatus c)).settle) ∧
  (∀ f, Runs s dt id 0x0103 c → (c.aux = [] ∨ c.aux = [3]) → c.p 0x21 1 ≤ 1 → c.p 0x24 4 ≤ 10000 → u.ccx.funcs.find? (fun f => f.kind == kind && f.idx == idx) = some f →
    f.committed = true → Completes (.ctrlFuncDisable dt id) s ((u.setResult c.id 0x20 (leBytes 8 0)).finish c.id (u.doneStatus c)).settle) ∧
  (c.deadline = 0 → u.doneStatus c = 0)

/-- The fence of a command of groups 0x01 and 0x0A orders it after every earlier accepted command of those two groups; the fence of one of group
0x09 within its partition (R102): dispatch leaves it ACCEPTED while one of them has not ended. -/
def Obligations.FenceOrders : Prop := ∀ (dt id : Nat) (s : State) (c e : Cmd), let u := s.elapse dt
  u.cmd? id = some c → c.id = id → c.fence = true → c.code ≠ 0x0102 → e ∈ u.ccx.cmds → e.id < id → e.state.final = false →
  ((c.group = 1 ∨ c.group = 10) ∧ (e.group = 1 ∨ e.group = 10) ∨
    c.group = 9 ∧ e.group ≠ 1 ∧ e.group ≠ 10 ∧ e.part = c.part) →
  Completes (.commandDispatch dt id) s u

end
end

