-- ==== Sys2Proof/Laws/State.lean ====
section
/-! SUPPORT. The fields of the state after each named update: one lemma per update and field that it leaves as it was. -/
namespace Sys2Proof.Machine
variable (s : State)

/-! State.setReg -/
@[simp] theorem State.setReg_pending (r : Reg) (v : W64) : (s.setReg r v).pending = s.pending := rfl
@[simp] theorem State.setReg_ticks (r : Reg) (v : W64) : (s.setReg r v).ticks = s.ticks := rfl
@[simp] theorem State.setReg_freeCtr (r : Reg) (v : W64) : (s.setReg r v).freeCtr = s.freeCtr := rfl
@[simp] theorem State.setReg_mem (r : Reg) (v : W64) : (s.setReg r v).mem = s.mem := rfl
@[simp] theorem State.setReg_island (r : Reg) (v : W64) : (s.setReg r v).island = s.island := rfl
@[simp] theorem State.setReg_hp (r : Reg) (v : W64) : (s.setReg r v).hp = s.hp := rfl
@[simp] theorem State.setReg_ccx (r : Reg) (v : W64) : (s.setReg r v).ccx = s.ccx := rfl
@[simp] theorem State.setReg_gov (r : Reg) (v : W64) : (s.setReg r v).gov = s.gov := rfl
@[simp] theorem State.setReg_pwr (r : Reg) (v : W64) : (s.setReg r v).pwr = s.pwr := rfl
@[simp] theorem State.setReg_tnu (r : Reg) (v : W64) : (s.setReg r v).tnu = s.tnu := rfl
@[simp] theorem State.setReg_tar (r : Reg) (v : W64) : (s.setReg r v).tar = s.tar := rfl
@[simp] theorem State.setReg_siu (r : Reg) (v : W64) : (s.setReg r v).siu = s.siu := rfl
@[simp] theorem State.setReg_chn (r : Reg) (v : W64) : (s.setReg r v).chn = s.chn := rfl
@[simp] theorem State.setReg_trk (r : Reg) (v : W64) : (s.setReg r v).trk = s.trk := rfl
@[simp] theorem State.setReg_pln (r : Reg) (v : W64) : (s.setReg r v).pln = s.pln := rfl
@[simp] theorem State.setReg_mmv (r : Reg) (v : W64) : (s.setReg r v).mmv = s.mmv := rfl
@[simp] theorem State.setReg_kv (r : Reg) (v : W64) : (s.setReg r v).kv = s.kv := rfl
@[simp] theorem State.setReg_ssi (r : Reg) (v : W64) : (s.setReg r v).ssi = s.ssi := rfl
@[simp] theorem State.setReg_out (r : Reg) (v : W64) : (s.setReg r v).out = s.out := rfl
@[simp] theorem State.setReg_rdByte (r : Reg) (v : W64) (aa : Nat) : (s.setReg r v).rdByte aa = s.rdByte aa := rfl

/-! State.modReg -/
@[simp] theorem State.modReg_pending (r : Reg) (f : W64 → W64) : (s.modReg r f).pending = s.pending := rfl
@[simp] theorem State.modReg_ticks (r : Reg) (f : W64 → W64) : (s.modReg r f).ticks = s.ticks := rfl
@[simp] theorem State.modReg_freeCtr (r : Reg) (f : W64 → W64) : (s.modReg r f).freeCtr = s.freeCtr := rfl
@[simp] theorem State.modReg_mem (r : Reg) (f : W64 → W64) : (s.modReg r f).mem = s.mem := rfl
@[simp] theorem State.modReg_island (r : Reg) (f : W64 → W64) : (s.modReg r f).island = s.island := rfl
@[simp] theorem State.modReg_hp (r : Reg) (f : W64 → W64) : (s.modReg r f).hp = s.hp := rfl
@[simp] theorem State.modReg_ccx (r : Reg) (f : W64 → W64) : (s.modReg r f).ccx = s.ccx := rfl
@[simp] theorem State.modReg_gov (r : Reg) (f : W64 → W64) : (s.modReg r f).gov = s.gov := rfl
@[simp] theorem State.modReg_pwr (r : Reg) (f : W64 → W64) : (s.modReg r f).pwr = s.pwr := rfl
@[simp] theorem State.modReg_tnu (r : Reg) (f : W64 → W64) : (s.modReg r f).tnu = s.tnu := rfl
@[simp] theorem State.modReg_tar (r : Reg) (f : W64 → W64) : (s.modReg r f).tar = s.tar := rfl
@[simp] theorem State.modReg_siu (r : Reg) (f : W64 → W64) : (s.modReg r f).siu = s.siu := rfl
@[simp] theorem State.modReg_chn (r : Reg) (f : W64 → W64) : (s.modReg r f).chn = s.chn := rfl
@[simp] theorem State.modReg_trk (r : Reg) (f : W64 → W64) : (s.modReg r f).trk = s.trk := rfl
@[simp] theorem State.modReg_pln (r : Reg) (f : W64 → W64) : (s.modReg r f).pln = s.pln := rfl
@[simp] theorem State.modReg_mmv (r : Reg) (f : W64 → W64) : (s.modReg r f).mmv = s.mmv := rfl
@[simp] theorem State.modReg_kv (r : Reg) (f : W64 → W64) : (s.modReg r f).kv = s.kv := rfl
@[simp] theorem State.modReg_ssi (r : Reg) (f : W64 → W64) : (s.modReg r f).ssi = s.ssi := rfl
@[simp] theorem State.modReg_out (r : Reg) (f : W64 → W64) : (s.modReg r f).out = s.out := rfl
@[simp] theorem State.modReg_rdByte (r : Reg) (f : W64 → W64) (aa : Nat) : (s.modReg r f).rdByte aa = s.rdByte aa := rfl

/-! State.setFldOf -/
@[simp] theorem State.setFldOf_pending (r : Reg) (lo len x : Nat) : (s.setFldOf r lo len x).pending = s.pending := rfl
@[simp] theorem State.setFldOf_ticks (r : Reg) (lo len x : Nat) : (s.setFldOf r lo len x).ticks = s.ticks := rfl
@[simp] theorem State.setFldOf_freeCtr (r : Reg) (lo len x : Nat) : (s.setFldOf r lo len x).freeCtr = s.freeCtr := rfl
@[simp] theorem State.setFldOf_mem (r : Reg) (lo len x : Nat) : (s.setFldOf r lo len x).mem = s.mem := rfl
@[simp] theorem State.setFldOf_island (r : Reg) (lo len x : Nat) : (s.setFldOf r lo len x).island = s.island := rfl
@[simp] theorem State.setFldOf_hp (r : Reg) (lo len x : Nat) : (s.setFldOf r lo len x).hp = s.hp := rfl
@[simp] theorem State.setFldOf_ccx (r : Reg) (lo len x : Nat) : (s.setFldOf r lo len x).ccx = s.ccx := rfl
@[simp] theorem State.setFldOf_gov (r : Reg) (lo len x : Nat) : (s.setFldOf r lo len x).gov = s.gov := rfl
@[simp] theorem State.setFldOf_pwr (r : Reg) (lo len x : Nat) : (s.setFldOf r lo len x).pwr = s.pwr := rfl
@[simp] theorem State.setFldOf_tnu (r : Reg) (lo len x : Nat) : (s.setFldOf r lo len x).tnu = s.tnu := rfl
@[simp] theorem State.setFldOf_tar (r : Reg) (lo len x : Nat) : (s.setFldOf r lo len x).tar = s.tar := rfl
@[simp] theorem State.setFldOf_siu (r : Reg) (lo len x : Nat) : (s.setFldOf r lo len x).siu = s.siu := rfl
@[simp] theorem State.setFldOf_chn (r : Reg) (lo len x : Nat) : (s.setFldOf r lo len x).chn = s.chn := rfl
@[simp] theorem State.setFldOf_trk (r : Reg) (lo len x : Nat) : (s.setFldOf r lo len x).trk = s.trk := rfl
@[simp] theorem State.setFldOf_pln (r : Reg) (lo len x : Nat) : (s.setFldOf r lo len x).pln = s.pln := rfl
@[simp] theorem State.setFldOf_mmv (r : Reg) (lo len x : Nat) : (s.setFldOf r lo len x).mmv = s.mmv := rfl
@[simp] theorem State.setFldOf_kv (r : Reg) (lo len x : Nat) : (s.setFldOf r lo len x).kv = s.kv := rfl
@[simp] theorem State.setFldOf_ssi (r : Reg) (lo len x : Nat) : (s.setFldOf r lo len x).ssi = s.ssi := rfl
@[simp] theorem State.setFldOf_out (r : Reg) (lo len x : Nat) : (s.setFldOf r lo len x).out = s.out := rfl
@[simp] theorem State.setFldOf_rdByte (r : Reg) (lo len x : Nat) (aa : Nat) : (s.setFldOf r lo len x).rdByte aa = s.rdByte aa := rfl

/-! State.countSat -/
@[simp] theorem State.countSat_pending (r : Reg) (lo len : Nat) : (s.countSat r lo len).pending = s.pending := rfl
@[simp] theorem State.countSat_ticks (r : Reg) (lo len : Nat) : (s.countSat r lo len).ticks = s.ticks := rfl
@[simp] theorem State.countSat_freeCtr (r : Reg) (lo len : Nat) : (s.countSat r lo len).freeCtr = s.freeCtr := rfl
@[simp] theorem State.countSat_mem (r : Reg) (lo len : Nat) : (s.countSat r lo len).mem = s.mem := rfl
@[simp] theorem State.countSat_island (r : Reg) (lo len : Nat) : (s.countSat r lo len).island = s.island := rfl
@[simp] theorem State.countSat_hp (r : Reg) (lo len : Nat) : (s.countSat r lo len).hp = s.hp := rfl
@[simp] theorem State.countSat_ccx (r : Reg) (lo len : Nat) : (s.countSat r lo len).ccx = s.ccx := rfl
@[simp] theorem State.countSat_gov (r : Reg) (lo len : Nat) : (s.countSat r lo len).gov = s.gov := rfl
@[simp] theorem State.countSat_pwr (r : Reg) (lo len : Nat) : (s.countSat r lo len).pwr = s.pwr := rfl
@[simp] theorem State.countSat_tnu (r : Reg) (lo len : Nat) : (s.countSat r lo len).tnu = s.tnu := rfl
@[simp] theorem State.countSat_tar (r : Reg) (lo len : Nat) : (s.countSat r lo len).tar = s.tar := rfl
@[simp] theorem State.countSat_siu (r : Reg) (lo len : Nat) : (s.countSat r lo len).siu = s.siu := rfl
@[simp] theorem State.countSat_chn (r : Reg) (lo len : Nat) : (s.countSat r lo len).chn = s.chn := rfl
@[simp] theorem State.countSat_trk (r : Reg) (lo len : Nat) : (s.countSat r lo len).trk = s.trk := rfl
@[simp] theorem State.countSat_pln (r : Reg) (lo len : Nat) : (s.countSat r lo len).pln = s.pln := rfl
@[simp] theorem State.countSat_mmv (r : Reg) (lo len : Nat) : (s.countSat r lo len).mmv = s.mmv := rfl
@[simp] theorem State.countSat_kv (r : Reg) (lo len : Nat) : (s.countSat r lo len).kv = s.kv := rfl
@[simp] theorem State.countSat_ssi (r : Reg) (lo len : Nat) : (s.countSat r lo len).ssi = s.ssi := rfl
@[simp] theorem State.countSat_out (r : Reg) (lo len : Nat) : (s.countSat r lo len).out = s.out := rfl
@[simp] theorem State.countSat_rdByte (r : Reg) (lo len : Nat) (aa : Nat) : (s.countSat r lo len).rdByte aa = s.rdByte aa := rfl

/-! State.countWrap -/
@[simp] theorem State.countWrap_pending (r : Reg) (lo len k : Nat) : (s.countWrap r lo len k).pending = s.pending := rfl
@[simp] theorem State.countWrap_ticks (r : Reg) (lo len k : Nat) : (s.countWrap r lo len k).ticks = s.ticks := rfl
@[simp] theorem State.countWrap_freeCtr (r : Reg) (lo len k : Nat) : (s.countWrap r lo len k).freeCtr = s.freeCtr := rfl
@[simp] theorem State.countWrap_mem (r : Reg) (lo len k : Nat) : (s.countWrap r lo len k).mem = s.mem := rfl
@[simp] theorem State.countWrap_island (r : Reg) (lo len k : Nat) : (s.countWrap r lo len k).island = s.island := rfl
@[simp] theorem State.countWrap_hp (r : Reg) (lo len k : Nat) : (s.countWrap r lo len k).hp = s.hp := rfl
@[simp] theorem State.countWrap_ccx (r : Reg) (lo len k : Nat) : (s.countWrap r lo len k).ccx = s.ccx := rfl
@[simp] theorem State.countWrap_gov (r : Reg) (lo len k : Nat) : (s.countWrap r lo len k).gov = s.gov := rfl
@[simp] theorem State.countWrap_pwr (r : Reg) (lo len k : Nat) : (s.countWrap r lo len k).pwr = s.pwr := rfl
@[simp] theorem State.countWrap_tnu (r : Reg) (lo len k : Nat) : (s.countWrap r lo len k).tnu = s.tnu := rfl
@[simp] theorem State.countWrap_tar (r : Reg) (lo len k : Nat) : (s.countWrap r lo len k).tar = s.tar := rfl
@[simp] theorem State.countWrap_siu (r : Reg) (lo len k : Nat) : (s.countWrap r lo len k).siu = s.siu := rfl
@[simp] theorem State.countWrap_chn (r : Reg) (lo len k : Nat) : (s.countWrap r lo len k).chn = s.chn := rfl
@[simp] theorem State.countWrap_trk (r : Reg) (lo len k : Nat) : (s.countWrap r lo len k).trk = s.trk := rfl
@[simp] theorem State.countWrap_pln (r : Reg) (lo len k : Nat) : (s.countWrap r lo len k).pln = s.pln := rfl
@[simp] theorem State.countWrap_mmv (r : Reg) (lo len k : Nat) : (s.countWrap r lo len k).mmv = s.mmv := rfl
@[simp] theorem State.countWrap_kv (r : Reg) (lo len k : Nat) : (s.countWrap r lo len k).kv = s.kv := rfl
@[simp] theorem State.countWrap_ssi (r : Reg) (lo len k : Nat) : (s.countWrap r lo len k).ssi = s.ssi := rfl
@[simp] theorem State.countWrap_out (r : Reg) (lo len k : Nat) : (s.countWrap r lo len k).out = s.out := rfl
@[simp] theorem State.countWrap_rdByte (r : Reg) (lo len k : Nat) (aa : Nat) : (s.countWrap r lo len k).rdByte aa = s.rdByte aa := rfl

/-! State.addSat -/
@[simp] theorem State.addSat_pending (r : Reg) (lo len k : Nat) : (s.addSat r lo len k).pending = s.pending := rfl
@[simp] theorem State.addSat_ticks (r : Reg) (lo len k : Nat) : (s.addSat r lo len k).ticks = s.ticks := rfl
@[simp] theorem State.addSat_freeCtr (r : Reg) (lo len k : Nat) : (s.addSat r lo len k).freeCtr = s.freeCtr := rfl
@[simp] theorem State.addSat_mem (r : Reg) (lo len k : Nat) : (s.addSat r lo len k).mem = s.mem := rfl
@[simp] theorem State.addSat_island (r : Reg) (lo len k : Nat) : (s.addSat r lo len k).island = s.island := rfl
@[simp] theorem State.addSat_hp (r : Reg) (lo len k : Nat) : (s.addSat r lo len k).hp = s.hp := rfl
@[simp] theorem State.addSat_ccx (r : Reg) (lo len k : Nat) : (s.addSat r lo len k).ccx = s.ccx := rfl
@[simp] theorem State.addSat_gov (r : Reg) (lo len k : Nat) : (s.addSat r lo len k).gov = s.gov := rfl
@[simp] theorem State.addSat_pwr (r : Reg) (lo len k : Nat) : (s.addSat r lo len k).pwr = s.pwr := rfl
@[simp] theorem State.addSat_tnu (r : Reg) (lo len k : Nat) : (s.addSat r lo len k).tnu = s.tnu := rfl
@[simp] theorem State.addSat_tar (r : Reg) (lo len k : Nat) : (s.addSat r lo len k).tar = s.tar := rfl
@[simp] theorem State.addSat_siu (r : Reg) (lo len k : Nat) : (s.addSat r lo len k).siu = s.siu := rfl
@[simp] theorem State.addSat_chn (r : Reg) (lo len k : Nat) : (s.addSat r lo len k).chn = s.chn := rfl
@[simp] theorem State.addSat_trk (r : Reg) (lo len k : Nat) : (s.addSat r lo len k).trk = s.trk := rfl
@[simp] theorem State.addSat_pln (r : Reg) (lo len k : Nat) : (s.addSat r lo len k).pln = s.pln := rfl
@[simp] theorem State.addSat_mmv (r : Reg) (lo len k : Nat) : (s.addSat r lo len k).mmv = s.mmv := rfl
@[simp] theorem State.addSat_kv (r : Reg) (lo len k : Nat) : (s.addSat r lo len k).kv = s.kv := rfl
@[simp] theorem State.addSat_ssi (r : Reg) (lo len k : Nat) : (s.addSat r lo len k).ssi = s.ssi := rfl
@[simp] theorem State.addSat_out (r : Reg) (lo len k : Nat) : (s.addSat r lo len k).out = s.out := rfl
@[simp] theorem State.addSat_rdByte (r : Reg) (lo len k : Nat) (aa : Nat) : (s.addSat r lo len k).rdByte aa = s.rdByte aa := rfl

/-! State.maxFld -/
@[simp] theorem State.maxFld_pending (r : Reg) (lo len x : Nat) : (s.maxFld r lo len x).pending = s.pending := rfl
@[simp] theorem State.maxFld_ticks (r : Reg) (lo len x : Nat) : (s.maxFld r lo len x).ticks = s.ticks := rfl
@[simp] theorem State.maxFld_freeCtr (r : Reg) (lo len x : Nat) : (s.maxFld r lo len x).freeCtr = s.freeCtr := rfl
@[simp] theorem State.maxFld_mem (r : Reg) (lo len x : Nat) : (s.maxFld r lo len x).mem = s.mem := rfl
@[simp] theorem State.maxFld_island (r : Reg) (lo len x : Nat) : (s.maxFld r lo len x).island = s.island := rfl
@[simp] theorem State.maxFld_hp (r : Reg) (lo len x : Nat) : (s.maxFld r lo len x).hp = s.hp := rfl
@[simp] theorem State.maxFld_ccx (r : Reg) (lo len x : Nat) : (s.maxFld r lo len x).ccx = s.ccx := rfl
@[simp] theorem State.maxFld_gov (r : Reg) (lo len x : Nat) : (s.maxFld r lo len x).gov = s.gov := rfl
@[simp] theorem State.maxFld_pwr (r : Reg) (lo len x : Nat) : (s.maxFld r lo len x).pwr = s.pwr := rfl
@[simp] theorem State.maxFld_tnu (r : Reg) (lo len x : Nat) : (s.maxFld r lo len x).tnu = s.tnu := rfl
@[simp] theorem State.maxFld_tar (r : Reg) (lo len x : Nat) : (s.maxFld r lo len x).tar = s.tar := rfl
@[simp] theorem State.maxFld_siu (r : Reg) (lo len x : Nat) : (s.maxFld r lo len x).siu = s.siu := rfl
@[simp] theorem State.maxFld_chn (r : Reg) (lo len x : Nat) : (s.maxFld r lo len x).chn = s.chn := rfl
@[simp] theorem State.maxFld_trk (r : Reg) (lo len x : Nat) : (s.maxFld r lo len x).trk = s.trk := rfl
@[simp] theorem State.maxFld_pln (r : Reg) (lo len x : Nat) : (s.maxFld r lo len x).pln = s.pln := rfl
@[simp] theorem State.maxFld_mmv (r : Reg) (lo len x : Nat) : (s.maxFld r lo len x).mmv = s.mmv := rfl
@[simp] theorem State.maxFld_kv (r : Reg) (lo len x : Nat) : (s.maxFld r lo len x).kv = s.kv := rfl
@[simp] theorem State.maxFld_ssi (r : Reg) (lo len x : Nat) : (s.maxFld r lo len x).ssi = s.ssi := rfl
@[simp] theorem State.maxFld_out (r : Reg) (lo len x : Nat) : (s.maxFld r lo len x).out = s.out := rfl
@[simp] theorem State.maxFld_rdByte (r : Reg) (lo len x : Nat) (aa : Nat) : (s.maxFld r lo len x).rdByte aa = s.rdByte aa := rfl

/-! State.resetRegs -/
@[simp] theorem State.resetRegs_pending (p : Reg → Bool) : (s.resetRegs p).pending = s.pending := rfl
@[simp] theorem State.resetRegs_ticks (p : Reg → Bool) : (s.resetRegs p).ticks = s.ticks := rfl
@[simp] theorem State.resetRegs_freeCtr (p : Reg → Bool) : (s.resetRegs p).freeCtr = s.freeCtr := rfl
@[simp] theorem State.resetRegs_mem (p : Reg → Bool) : (s.resetRegs p).mem = s.mem := rfl
@[simp] theorem State.resetRegs_island (p : Reg → Bool) : (s.resetRegs p).island = s.island := rfl
@[simp] theorem State.resetRegs_hp (p : Reg → Bool) : (s.resetRegs p).hp = s.hp := rfl
@[simp] theorem State.resetRegs_ccx (p : Reg → Bool) : (s.resetRegs p).ccx = s.ccx := rfl
@[simp] theorem State.resetRegs_gov (p : Reg → Bool) : (s.resetRegs p).gov = s.gov := rfl
@[simp] theorem State.resetRegs_pwr (p : Reg → Bool) : (s.resetRegs p).pwr = s.pwr := rfl
@[simp] theorem State.resetRegs_tnu (p : Reg → Bool) : (s.resetRegs p).tnu = s.tnu := rfl
@[simp] theorem State.resetRegs_tar (p : Reg → Bool) : (s.resetRegs p).tar = s.tar := rfl
@[simp] theorem State.resetRegs_siu (p : Reg → Bool) : (s.resetRegs p).siu = s.siu := rfl
@[simp] theorem State.resetRegs_chn (p : Reg → Bool) : (s.resetRegs p).chn = s.chn := rfl
@[simp] theorem State.resetRegs_trk (p : Reg → Bool) : (s.resetRegs p).trk = s.trk := rfl
@[simp] theorem State.resetRegs_pln (p : Reg → Bool) : (s.resetRegs p).pln = s.pln := rfl
@[simp] theorem State.resetRegs_mmv (p : Reg → Bool) : (s.resetRegs p).mmv = s.mmv := rfl
@[simp] theorem State.resetRegs_kv (p : Reg → Bool) : (s.resetRegs p).kv = s.kv := rfl
@[simp] theorem State.resetRegs_ssi (p : Reg → Bool) : (s.resetRegs p).ssi = s.ssi := rfl
@[simp] theorem State.resetRegs_out (p : Reg → Bool) : (s.resetRegs p).out = s.out := rfl
@[simp] theorem State.resetRegs_rdByte (p : Reg → Bool) (aa : Nat) : (s.resetRegs p).rdByte aa = s.rdByte aa := rfl

/-! State.setTbase -/
@[simp] theorem State.setTbase_pending (n : Nat) (t : TimeBase) : (s.setTbase n t).pending = s.pending := rfl
@[simp] theorem State.setTbase_ticks (n : Nat) (t : TimeBase) : (s.setTbase n t).ticks = s.ticks := rfl
@[simp] theorem State.setTbase_freeCtr (n : Nat) (t : TimeBase) : (s.setTbase n t).freeCtr = s.freeCtr := rfl
@[simp] theorem State.setTbase_csr (n : Nat) (t : TimeBase) : (s.setTbase n t).csr = s.csr := rfl
@[simp] theorem State.setTbase_mem (n : Nat) (t : TimeBase) : (s.setTbase n t).mem = s.mem := rfl
@[simp] theorem State.setTbase_island (n : Nat) (t : TimeBase) : (s.setTbase n t).island = s.island := rfl
@[simp] theorem State.setTbase_hp (n : Nat) (t : TimeBase) : (s.setTbase n t).hp = s.hp := rfl
@[simp] theorem State.setTbase_ccx (n : Nat) (t : TimeBase) : (s.setTbase n t).ccx = s.ccx := rfl
@[simp] theorem State.setTbase_gov (n : Nat) (t : TimeBase) : (s.setTbase n t).gov = s.gov := rfl
@[simp] theorem State.setTbase_pwr (n : Nat) (t : TimeBase) : (s.setTbase n t).pwr = s.pwr := rfl
@[simp] theorem State.setTbase_tar (n : Nat) (t : TimeBase) : (s.setTbase n t).tar = s.tar := rfl
@[simp] theorem State.setTbase_siu (n : Nat) (t : TimeBase) : (s.setTbase n t).siu = s.siu := rfl
@[simp] theorem State.setTbase_chn (n : Nat) (t : TimeBase) : (s.setTbase n t).chn = s.chn := rfl
@[simp] theorem State.setTbase_trk (n : Nat) (t : TimeBase) : (s.setTbase n t).trk = s.trk := rfl
@[simp] theorem State.setTbase_pln (n : Nat) (t : TimeBase) : (s.setTbase n t).pln = s.pln := rfl
@[simp] theorem State.setTbase_mmv (n : Nat) (t : TimeBase) : (s.setTbase n t).mmv = s.mmv := rfl
@[simp] theorem State.setTbase_kv (n : Nat) (t : TimeBase) : (s.setTbase n t).kv = s.kv := rfl
@[simp] theorem State.setTbase_ssi (n : Nat) (t : TimeBase) : (s.setTbase n t).ssi = s.ssi := rfl
@[simp] theorem State.setTbase_out (n : Nat) (t : TimeBase) : (s.setTbase n t).out = s.out := rfl
@[simp] theorem State.setTbase_reg (n : Nat) (t : TimeBase) (rr : Reg) : (s.setTbase n t).reg rr = s.reg rr := rfl
@[simp] theorem State.setTbase_rdByte (n : Nat) (t : TimeBase) (aa : Nat) : (s.setTbase n t).rdByte aa = s.rdByte aa := rfl

/-! State.dropUnlock -/
@[simp] theorem State.dropUnlock_pending (tb : Nat) : (s.dropUnlock tb).pending = s.pending := rfl
@[simp] theorem State.dropUnlock_ticks (tb : Nat) : (s.dropUnlock tb).ticks = s.ticks := rfl
@[simp] theorem State.dropUnlock_freeCtr (tb : Nat) : (s.dropUnlock tb).freeCtr = s.freeCtr := rfl
@[simp] theorem State.dropUnlock_csr (tb : Nat) : (s.dropUnlock tb).csr = s.csr := rfl
@[simp] theorem State.dropUnlock_mem (tb : Nat) : (s.dropUnlock tb).mem = s.mem := rfl
@[simp] theorem State.dropUnlock_island (tb : Nat) : (s.dropUnlock tb).island = s.island := rfl
@[simp] theorem State.dropUnlock_hp (tb : Nat) : (s.dropUnlock tb).hp = s.hp := rfl
@[simp] theorem State.dropUnlock_ccx (tb : Nat) : (s.dropUnlock tb).ccx = s.ccx := rfl
@[simp] theorem State.dropUnlock_gov (tb : Nat) : (s.dropUnlock tb).gov = s.gov := rfl
@[simp] theorem State.dropUnlock_pwr (tb : Nat) : (s.dropUnlock tb).pwr = s.pwr := rfl
@[simp] theorem State.dropUnlock_tar (tb : Nat) : (s.dropUnlock tb).tar = s.tar := rfl
@[simp] theorem State.dropUnlock_siu (tb : Nat) : (s.dropUnlock tb).siu = s.siu := rfl
@[simp] theorem State.dropUnlock_chn (tb : Nat) : (s.dropUnlock tb).chn = s.chn := rfl
@[simp] theorem State.dropUnlock_trk (tb : Nat) : (s.dropUnlock tb).trk = s.trk := rfl
@[simp] theorem State.dropUnlock_pln (tb : Nat) : (s.dropUnlock tb).pln = s.pln := rfl
@[simp] theorem State.dropUnlock_mmv (tb : Nat) : (s.dropUnlock tb).mmv = s.mmv := rfl
@[simp] theorem State.dropUnlock_kv (tb : Nat) : (s.dropUnlock tb).kv = s.kv := rfl
@[simp] theorem State.dropUnlock_ssi (tb : Nat) : (s.dropUnlock tb).ssi = s.ssi := rfl
@[simp] theorem State.dropUnlock_out (tb : Nat) : (s.dropUnlock tb).out = s.out := rfl
@[simp] theorem State.dropUnlock_reg (tb : Nat) (rr : Reg) : (s.dropUnlock tb).reg rr = s.reg rr := rfl
@[simp] theorem State.dropUnlock_rdByte (tb : Nat) (aa : Nat) : (s.dropUnlock tb).rdByte aa = s.rdByte aa := rfl

/-! State.setExch -/
@[simp] theorem State.setExch_pending (port tb : Nat) (x : DelayExch) : (s.setExch port tb x).pending = s.pending := rfl
@[simp] theorem State.setExch_ticks (port tb : Nat) (x : DelayExch) : (s.setExch port tb x).ticks = s.ticks := rfl
@[simp] theorem State.setExch_freeCtr (port tb : Nat) (x : DelayExch) : (s.setExch port tb x).freeCtr = s.freeCtr := rfl
@[simp] theorem State.setExch_csr (port tb : Nat) (x : DelayExch) : (s.setExch port tb x).csr = s.csr := rfl
@[simp] theorem State.setExch_mem (port tb : Nat) (x : DelayExch) : (s.setExch port tb x).mem = s.mem := rfl
@[simp] theorem State.setExch_island (port tb : Nat) (x : DelayExch) : (s.setExch port tb x).island = s.island := rfl
@[simp] theorem State.setExch_hp (port tb : Nat) (x : DelayExch) : (s.setExch port tb x).hp = s.hp := rfl
@[simp] theorem State.setExch_ccx (port tb : Nat) (x : DelayExch) : (s.setExch port tb x).ccx = s.ccx := rfl
@[simp] theorem State.setExch_gov (port tb : Nat) (x : DelayExch) : (s.setExch port tb x).gov = s.gov := rfl
@[simp] theorem State.setExch_pwr (port tb : Nat) (x : DelayExch) : (s.setExch port tb x).pwr = s.pwr := rfl
@[simp] theorem State.setExch_tar (port tb : Nat) (x : DelayExch) : (s.setExch port tb x).tar = s.tar := rfl
@[simp] theorem State.setExch_siu (port tb : Nat) (x : DelayExch) : (s.setExch port tb x).siu = s.siu := rfl
@[simp] theorem State.setExch_chn (port tb : Nat) (x : DelayExch) : (s.setExch port tb x).chn = s.chn := rfl
@[simp] theorem State.setExch_trk (port tb : Nat) (x : DelayExch) : (s.setExch port tb x).trk = s.trk := rfl
@[simp] theorem State.setExch_pln (port tb : Nat) (x : DelayExch) : (s.setExch port tb x).pln = s.pln := rfl
@[simp] theorem State.setExch_mmv (port tb : Nat) (x : DelayExch) : (s.setExch port tb x).mmv = s.mmv := rfl
@[simp] theorem State.setExch_kv (port tb : Nat) (x : DelayExch) : (s.setExch port tb x).kv = s.kv := rfl
@[simp] theorem State.setExch_ssi (port tb : Nat) (x : DelayExch) : (s.setExch port tb x).ssi = s.ssi := rfl
@[simp] theorem State.setExch_out (port tb : Nat) (x : DelayExch) : (s.setExch port tb x).out = s.out := rfl
@[simp] theorem State.setExch_reg (port tb : Nat) (x : DelayExch) (rr : Reg) : (s.setExch port tb x).reg rr = s.reg rr := rfl
@[simp] theorem State.setExch_rdByte (port tb : Nat) (x : DelayExch) (aa : Nat) : (s.setExch port tb x).rdByte aa = s.rdByte aa := rfl

/-! State.setDelay -/
@[simp] theorem State.setDelay_pending (port tb : Nat) (twice : Int) : (s.setDelay port tb twice).pending = s.pending := rfl
@[simp] theorem State.setDelay_ticks (port tb : Nat) (twice : Int) : (s.setDelay port tb twice).ticks = s.ticks := rfl
@[simp] theorem State.setDelay_freeCtr (port tb : Nat) (twice : Int) : (s.setDelay port tb twice).freeCtr = s.freeCtr := rfl
@[simp] theorem State.setDelay_csr (port tb : Nat) (twice : Int) : (s.setDelay port tb twice).csr = s.csr := rfl
@[simp] theorem State.setDelay_mem (port tb : Nat) (twice : Int) : (s.setDelay port tb twice).mem = s.mem := rfl
@[simp] theorem State.setDelay_island (port tb : Nat) (twice : Int) : (s.setDelay port tb twice).island = s.island := rfl
@[simp] theorem State.setDelay_hp (port tb : Nat) (twice : Int) : (s.setDelay port tb twice).hp = s.hp := rfl
@[simp] theorem State.setDelay_ccx (port tb : Nat) (twice : Int) : (s.setDelay port tb twice).ccx = s.ccx := rfl
@[simp] theorem State.setDelay_gov (port tb : Nat) (twice : Int) : (s.setDelay port tb twice).gov = s.gov := rfl
@[simp] theorem State.setDelay_pwr (port tb : Nat) (twice : Int) : (s.setDelay port tb twice).pwr = s.pwr := rfl
@[simp] theorem State.setDelay_tar (port tb : Nat) (twice : Int) : (s.setDelay port tb twice).tar = s.tar := rfl
@[simp] theorem State.setDelay_siu (port tb : Nat) (twice : Int) : (s.setDelay port tb twice).siu = s.siu := rfl
@[simp] theorem State.setDelay_chn (port tb : Nat) (twice : Int) : (s.setDelay port tb twice).chn = s.chn := rfl
@[simp] theorem State.setDelay_trk (port tb : Nat) (twice : Int) : (s.setDelay port tb twice).trk = s.trk := rfl
@[simp] theorem State.setDelay_pln (port tb : Nat) (twice : Int) : (s.setDelay port tb twice).pln = s.pln := rfl
@[simp] theorem State.setDelay_mmv (port tb : Nat) (twice : Int) : (s.setDelay port tb twice).mmv = s.mmv := rfl
@[simp] theorem State.setDelay_kv (port tb : Nat) (twice : Int) : (s.setDelay port tb twice).kv = s.kv := rfl
@[simp] theorem State.setDelay_ssi (port tb : Nat) (twice : Int) : (s.setDelay port tb twice).ssi = s.ssi := rfl
@[simp] theorem State.setDelay_out (port tb : Nat) (twice : Int) : (s.setDelay port tb twice).out = s.out := rfl
@[simp] theorem State.setDelay_reg (port tb : Nat) (twice : Int) (rr : Reg) : (s.setDelay port tb twice).reg rr = s.reg rr := rfl
@[simp] theorem State.setDelay_rdByte (port tb : Nat) (twice : Int) (aa : Nat) : (s.setDelay port tb twice).rdByte aa = s.rdByte aa := rfl

/-! State.elapse -/
@[simp] theorem State.elapse_pending (dt : Nat) : (s.elapse dt).pending = s.pending := rfl
@[simp] theorem State.elapse_freeCtr (dt : Nat) : (s.elapse dt).freeCtr = s.freeCtr := rfl
@[simp] theorem State.elapse_csr (dt : Nat) : (s.elapse dt).csr = s.csr := rfl
@[simp] theorem State.elapse_mem (dt : Nat) : (s.elapse dt).mem = s.mem := rfl
@[simp] theorem State.elapse_island (dt : Nat) : (s.elapse dt).island = s.island := rfl
@[simp] theorem State.elapse_hp (dt : Nat) : (s.elapse dt).hp = s.hp := rfl
@[simp] theorem State.elapse_ccx (dt : Nat) : (s.elapse dt).ccx = s.ccx := rfl
@[simp] theorem State.elapse_gov (dt : Nat) : (s.elapse dt).gov = s.gov := rfl
@[simp] theorem State.elapse_pwr (dt : Nat) : (s.elapse dt).pwr = s.pwr := rfl
@[simp] theorem State.elapse_tar (dt : Nat) : (s.elapse dt).tar = s.tar := rfl
@[simp] theorem State.elapse_siu (dt : Nat) : (s.elapse dt).siu = s.siu := rfl
@[simp] theorem State.elapse_chn (dt : Nat) : (s.elapse dt).chn = s.chn := rfl
@[simp] theorem State.elapse_trk (dt : Nat) : (s.elapse dt).trk = s.trk := rfl
@[simp] theorem State.elapse_pln (dt : Nat) : (s.elapse dt).pln = s.pln := rfl
@[simp] theorem State.elapse_mmv (dt : Nat) : (s.elapse dt).mmv = s.mmv := rfl
@[simp] theorem State.elapse_kv (dt : Nat) : (s.elapse dt).kv = s.kv := rfl
@[simp] theorem State.elapse_ssi (dt : Nat) : (s.elapse dt).ssi = s.ssi := rfl
@[simp] theorem State.elapse_out (dt : Nat) : (s.elapse dt).out = s.out := rfl
@[simp] theorem State.elapse_reg (dt : Nat) (rr : Reg) : (s.elapse dt).reg rr = s.reg rr := rfl
@[simp] theorem State.elapse_rdByte (dt : Nat) (aa : Nat) : (s.elapse dt).rdByte aa = s.rdByte aa := rfl

/-! State.emit -/
@[simp] theorem State.emit_pending (o : OutItem) : (s.emit o).pending = s.pending := rfl
@[simp] theorem State.emit_ticks (o : OutItem) : (s.emit o).ticks = s.ticks := rfl
@[simp] theorem State.emit_freeCtr (o : OutItem) : (s.emit o).freeCtr = s.freeCtr := rfl
@[simp] theorem State.emit_csr (o : OutItem) : (s.emit o).csr = s.csr := rfl
@[simp] theorem State.emit_mem (o : OutItem) : (s.emit o).mem = s.mem := rfl
@[simp] theorem State.emit_island (o : OutItem) : (s.emit o).island = s.island := rfl
@[simp] theorem State.emit_hp (o : OutItem) : (s.emit o).hp = s.hp := rfl
@[simp] theorem State.emit_ccx (o : OutItem) : (s.emit o).ccx = s.ccx := rfl
@[simp] theorem State.emit_gov (o : OutItem) : (s.emit o).gov = s.gov := rfl
@[simp] theorem State.emit_pwr (o : OutItem) : (s.emit o).pwr = s.pwr := rfl
@[simp] theorem State.emit_tnu (o : OutItem) : (s.emit o).tnu = s.tnu := rfl
@[simp] theorem State.emit_tar (o : OutItem) : (s.emit o).tar = s.tar := rfl
@[simp] theorem State.emit_siu (o : OutItem) : (s.emit o).siu = s.siu := rfl
@[simp] theorem State.emit_chn (o : OutItem) : (s.emit o).chn = s.chn := rfl
@[simp] theorem State.emit_trk (o : OutItem) : (s.emit o).trk = s.trk := rfl
@[simp] theorem State.emit_pln (o : OutItem) : (s.emit o).pln = s.pln := rfl
@[simp] theorem State.emit_mmv (o : OutItem) : (s.emit o).mmv = s.mmv := rfl
@[simp] theorem State.emit_kv (o : OutItem) : (s.emit o).kv = s.kv := rfl
@[simp] theorem State.emit_ssi (o : OutItem) : (s.emit o).ssi = s.ssi := rfl
@[simp] theorem State.emit_reg (o : OutItem) (rr : Reg) : (s.emit o).reg rr = s.reg rr := rfl
@[simp] theorem State.emit_rdByte (o : OutItem) (aa : Nat) : (s.emit o).rdByte aa = s.rdByte aa := rfl

/-! State.wr -/
@[simp] theorem State.wr_pending (a : Nat) (b : Bytes) : (s.wr a b).pending = s.pending := rfl
@[simp] theorem State.wr_ticks (a : Nat) (b : Bytes) : (s.wr a b).ticks = s.ticks := rfl
@[simp] theorem State.wr_freeCtr (a : Nat) (b : Bytes) : (s.wr a b).freeCtr = s.freeCtr := rfl
@[simp] theorem State.wr_csr (a : Nat) (b : Bytes) : (s.wr a b).csr = s.csr := rfl
@[simp] theorem State.wr_island (a : Nat) (b : Bytes) : (s.wr a b).island = s.island := rfl
@[simp] theorem State.wr_hp (a : Nat) (b : Bytes) : (s.wr a b).hp = s.hp := rfl
@[simp] theorem State.wr_ccx (a : Nat) (b : Bytes) : (s.wr a b).ccx = s.ccx := rfl
@[simp] theorem State.wr_gov (a : Nat) (b : Bytes) : (s.wr a b).gov = s.gov := rfl
@[simp] theorem State.wr_pwr (a : Nat) (b : Bytes) : (s.wr a b).pwr = s.pwr := rfl
@[simp] theorem State.wr_tnu (a : Nat) (b : Bytes) : (s.wr a b).tnu = s.tnu := rfl
@[simp] theorem State.wr_tar (a : Nat) (b : Bytes) : (s.wr a b).tar = s.tar := rfl
@[simp] theorem State.wr_siu (a : Nat) (b : Bytes) : (s.wr a b).siu = s.siu := rfl
@[simp] theorem State.wr_chn (a : Nat) (b : Bytes) : (s.wr a b).chn = s.chn := rfl
@[simp] theorem State.wr_trk (a : Nat) (b : Bytes) : (s.wr a b).trk = s.trk := rfl
@[simp] theorem State.wr_pln (a : Nat) (b : Bytes) : (s.wr a b).pln = s.pln := rfl
@[simp] theorem State.wr_mmv (a : Nat) (b : Bytes) : (s.wr a b).mmv = s.mmv := rfl
@[simp] theorem State.wr_kv (a : Nat) (b : Bytes) : (s.wr a b).kv = s.kv := rfl
@[simp] theorem State.wr_ssi (a : Nat) (b : Bytes) : (s.wr a b).ssi = s.ssi := rfl
@[simp] theorem State.wr_out (a : Nat) (b : Bytes) : (s.wr a b).out = s.out := rfl
@[simp] theorem State.wr_reg (a : Nat) (b : Bytes) (rr : Reg) : (s.wr a b).reg rr = s.reg rr := rfl

/-! State.wrIsl -/
@[simp] theorem State.wrIsl_pending (o : Nat) (b : Bytes) : (s.wrIsl o b).pending = s.pending := rfl
@[simp] theorem State.wrIsl_ticks (o : Nat) (b : Bytes) : (s.wrIsl o b).ticks = s.ticks := rfl
@[simp] theorem State.wrIsl_freeCtr (o : Nat) (b : Bytes) : (s.wrIsl o b).freeCtr = s.freeCtr := rfl
@[simp] theorem State.wrIsl_csr (o : Nat) (b : Bytes) : (s.wrIsl o b).csr = s.csr := rfl
@[simp] theorem State.wrIsl_mem (o : Nat) (b : Bytes) : (s.wrIsl o b).mem = s.mem := rfl
@[simp] theorem State.wrIsl_hp (o : Nat) (b : Bytes) : (s.wrIsl o b).hp = s.hp := rfl
@[simp] theorem State.wrIsl_ccx (o : Nat) (b : Bytes) : (s.wrIsl o b).ccx = s.ccx := rfl
@[simp] theorem State.wrIsl_gov (o : Nat) (b : Bytes) : (s.wrIsl o b).gov = s.gov := rfl
@[simp] theorem State.wrIsl_pwr (o : Nat) (b : Bytes) : (s.wrIsl o b).pwr = s.pwr := rfl
@[simp] theorem State.wrIsl_tnu (o : Nat) (b : Bytes) : (s.wrIsl o b).tnu = s.tnu := rfl
@[simp] theorem State.wrIsl_tar (o : Nat) (b : Bytes) : (s.wrIsl o b).tar = s.tar := rfl
@[simp] theorem State.wrIsl_siu (o : Nat) (b : Bytes) : (s.wrIsl o b).siu = s.siu := rfl
@[simp] theorem State.wrIsl_chn (o : Nat) (b : Bytes) : (s.wrIsl o b).chn = s.chn := rfl
@[simp] theorem State.wrIsl_trk (o : Nat) (b : Bytes) : (s.wrIsl o b).trk = s.trk := rfl
@[simp] theorem State.wrIsl_pln (o : Nat) (b : Bytes) : (s.wrIsl o b).pln = s.pln := rfl
@[simp] theorem State.wrIsl_mmv (o : Nat) (b : Bytes) : (s.wrIsl o b).mmv = s.mmv := rfl
@[simp] theorem State.wrIsl_kv (o : Nat) (b : Bytes) : (s.wrIsl o b).kv = s.kv := rfl
@[simp] theorem State.wrIsl_ssi (o : Nat) (b : Bytes) : (s.wrIsl o b).ssi = s.ssi := rfl
@[simp] theorem State.wrIsl_out (o : Nat) (b : Bytes) : (s.wrIsl o b).out = s.out := rfl
@[simp] theorem State.wrIsl_reg (o : Nat) (b : Bytes) (rr : Reg) : (s.wrIsl o b).reg rr = s.reg rr := rfl
@[simp] theorem State.wrIsl_rdByte (o : Nat) (b : Bytes) (aa : Nat) : (s.wrIsl o b).rdByte aa = s.rdByte aa := rfl

/-! State.wrMb -/
@[simp] theorem State.wrMb_pending (o : Nat) (b : Bytes) : (s.wrMb o b).pending = s.pending := rfl
@[simp] theorem State.wrMb_ticks (o : Nat) (b : Bytes) : (s.wrMb o b).ticks = s.ticks := rfl
@[simp] theorem State.wrMb_freeCtr (o : Nat) (b : Bytes) : (s.wrMb o b).freeCtr = s.freeCtr := rfl
@[simp] theorem State.wrMb_csr (o : Nat) (b : Bytes) : (s.wrMb o b).csr = s.csr := rfl
@[simp] theorem State.wrMb_mem (o : Nat) (b : Bytes) : (s.wrMb o b).mem = s.mem := rfl
@[simp] theorem State.wrMb_island (o : Nat) (b : Bytes) : (s.wrMb o b).island = s.island := rfl
@[simp] theorem State.wrMb_ccx (o : Nat) (b : Bytes) : (s.wrMb o b).ccx = s.ccx := rfl
@[simp] theorem State.wrMb_gov (o : Nat) (b : Bytes) : (s.wrMb o b).gov = s.gov := rfl
@[simp] theorem State.wrMb_pwr (o : Nat) (b : Bytes) : (s.wrMb o b).pwr = s.pwr := rfl
@[simp] theorem State.wrMb_tnu (o : Nat) (b : Bytes) : (s.wrMb o b).tnu = s.tnu := rfl
@[simp] theorem State.wrMb_tar (o : Nat) (b : Bytes) : (s.wrMb o b).tar = s.tar := rfl
@[simp] theorem State.wrMb_siu (o : Nat) (b : Bytes) : (s.wrMb o b).siu = s.siu := rfl
@[simp] theorem State.wrMb_chn (o : Nat) (b : Bytes) : (s.wrMb o b).chn = s.chn := rfl
@[simp] theorem State.wrMb_trk (o : Nat) (b : Bytes) : (s.wrMb o b).trk = s.trk := rfl
@[simp] theorem State.wrMb_pln (o : Nat) (b : Bytes) : (s.wrMb o b).pln = s.pln := rfl
@[simp] theorem State.wrMb_mmv (o : Nat) (b : Bytes) : (s.wrMb o b).mmv = s.mmv := rfl
@[simp] theorem State.wrMb_kv (o : Nat) (b : Bytes) : (s.wrMb o b).kv = s.kv := rfl
@[simp] theorem State.wrMb_ssi (o : Nat) (b : Bytes) : (s.wrMb o b).ssi = s.ssi := rfl
@[simp] theorem State.wrMb_out (o : Nat) (b : Bytes) : (s.wrMb o b).out = s.out := rfl
@[simp] theorem State.wrMb_reg (o : Nat) (b : Bytes) (rr : Reg) : (s.wrMb o b).reg rr = s.reg rr := rfl
@[simp] theorem State.wrMb_rdByte (o : Nat) (b : Bytes) (aa : Nat) : (s.wrMb o b).rdByte aa = s.rdByte aa := rfl

/-! State.updLimit -/
@[simp] theorem State.updLimit_pending (code obj : Nat) (f : EvLimit → EvLimit) : (s.updLimit code obj f).pending = s.pending := rfl
@[simp] theorem State.updLimit_ticks (code obj : Nat) (f : EvLimit → EvLimit) : (s.updLimit code obj f).ticks = s.ticks := rfl
@[simp] theorem State.updLimit_freeCtr (code obj : Nat) (f : EvLimit → EvLimit) : (s.updLimit code obj f).freeCtr = s.freeCtr := rfl
@[simp] theorem State.updLimit_csr (code obj : Nat) (f : EvLimit → EvLimit) : (s.updLimit code obj f).csr = s.csr := rfl
@[simp] theorem State.updLimit_mem (code obj : Nat) (f : EvLimit → EvLimit) : (s.updLimit code obj f).mem = s.mem := rfl
@[simp] theorem State.updLimit_island (code obj : Nat) (f : EvLimit → EvLimit) : (s.updLimit code obj f).island = s.island := rfl
@[simp] theorem State.updLimit_hp (code obj : Nat) (f : EvLimit → EvLimit) : (s.updLimit code obj f).hp = s.hp := rfl
@[simp] theorem State.updLimit_gov (code obj : Nat) (f : EvLimit → EvLimit) : (s.updLimit code obj f).gov = s.gov := rfl
@[simp] theorem State.updLimit_pwr (code obj : Nat) (f : EvLimit → EvLimit) : (s.updLimit code obj f).pwr = s.pwr := rfl
@[simp] theorem State.updLimit_tnu (code obj : Nat) (f : EvLimit → EvLimit) : (s.updLimit code obj f).tnu = s.tnu := rfl
@[simp] theorem State.updLimit_tar (code obj : Nat) (f : EvLimit → EvLimit) : (s.updLimit code obj f).tar = s.tar := rfl
@[simp] theorem State.updLimit_siu (code obj : Nat) (f : EvLimit → EvLimit) : (s.updLimit code obj f).siu = s.siu := rfl
@[simp] theorem State.updLimit_chn (code obj : Nat) (f : EvLimit → EvLimit) : (s.updLimit code obj f).chn = s.chn := rfl
@[simp] theorem State.updLimit_trk (code obj : Nat) (f : EvLimit → EvLimit) : (s.updLimit code obj f).trk = s.trk := rfl
@[simp] theorem State.updLimit_pln (code obj : Nat) (f : EvLimit → EvLimit) : (s.updLimit code obj f).pln = s.pln := rfl
@[simp] theorem State.updLimit_mmv (code obj : Nat) (f : EvLimit → EvLimit) : (s.updLimit code obj f).mmv = s.mmv := rfl
@[simp] theorem State.updLimit_kv (code obj : Nat) (f : EvLimit → EvLimit) : (s.updLimit code obj f).kv = s.kv := rfl
@[simp] theorem State.updLimit_ssi (code obj : Nat) (f : EvLimit → EvLimit) : (s.updLimit code obj f).ssi = s.ssi := rfl
@[simp] theorem State.updLimit_out (code obj : Nat) (f : EvLimit → EvLimit) : (s.updLimit code obj f).out = s.out := rfl
@[simp] theorem State.updLimit_reg (code obj : Nat) (f : EvLimit → EvLimit) (rr : Reg) : (s.updLimit code obj f).reg rr = s.reg rr := rfl
@[simp] theorem State.updLimit_rdByte (code obj : Nat) (f : EvLimit → EvLimit) (aa : Nat) : (s.updLimit code obj f).rdByte aa = s.rdByte aa := rfl

/-! State.setKvPage -/
@[simp] theorem State.setKvPage_pending (pool id : Nat) (p : KvPage) : (s.setKvPage pool id p).pending = s.pending := rfl
@[simp] theorem State.setKvPage_ticks (pool id : Nat) (p : KvPage) : (s.setKvPage pool id p).ticks = s.ticks := rfl
@[simp] theorem State.setKvPage_freeCtr (pool id : Nat) (p : KvPage) : (s.setKvPage pool id p).freeCtr = s.freeCtr := rfl
@[simp] theorem State.setKvPage_csr (pool id : Nat) (p : KvPage) : (s.setKvPage pool id p).csr = s.csr := rfl
@[simp] theorem State.setKvPage_island (pool id : Nat) (p : KvPage) : (s.setKvPage pool id p).island = s.island := rfl
@[simp] theorem State.setKvPage_hp (pool id : Nat) (p : KvPage) : (s.setKvPage pool id p).hp = s.hp := rfl
@[simp] theorem State.setKvPage_ccx (pool id : Nat) (p : KvPage) : (s.setKvPage pool id p).ccx = s.ccx := rfl
@[simp] theorem State.setKvPage_gov (pool id : Nat) (p : KvPage) : (s.setKvPage pool id p).gov = s.gov := rfl
@[simp] theorem State.setKvPage_pwr (pool id : Nat) (p : KvPage) : (s.setKvPage pool id p).pwr = s.pwr := rfl
@[simp] theorem State.setKvPage_tnu (pool id : Nat) (p : KvPage) : (s.setKvPage pool id p).tnu = s.tnu := rfl
@[simp] theorem State.setKvPage_tar (pool id : Nat) (p : KvPage) : (s.setKvPage pool id p).tar = s.tar := rfl
@[simp] theorem State.setKvPage_siu (pool id : Nat) (p : KvPage) : (s.setKvPage pool id p).siu = s.siu := rfl
@[simp] theorem State.setKvPage_chn (pool id : Nat) (p : KvPage) : (s.setKvPage pool id p).chn = s.chn := rfl
@[simp] theorem State.setKvPage_trk (pool id : Nat) (p : KvPage) : (s.setKvPage pool id p).trk = s.trk := rfl
@[simp] theorem State.setKvPage_pln (pool id : Nat) (p : KvPage) : (s.setKvPage pool id p).pln = s.pln := rfl
@[simp] theorem State.setKvPage_mmv (pool id : Nat) (p : KvPage) : (s.setKvPage pool id p).mmv = s.mmv := rfl
@[simp] theorem State.setKvPage_ssi (pool id : Nat) (p : KvPage) : (s.setKvPage pool id p).ssi = s.ssi := rfl
@[simp] theorem State.setKvPage_out (pool id : Nat) (p : KvPage) : (s.setKvPage pool id p).out = s.out := rfl
@[simp] theorem State.setKvPage_reg (pool id : Nat) (p : KvPage) (rr : Reg) : (s.setKvPage pool id p).reg rr = s.reg rr := rfl

/-! State.updCmd -/
@[simp] theorem State.updCmd_pending (id : Nat) (f : Cmd → Cmd) : (s.updCmd id f).pending = s.pending := rfl
@[simp] theorem State.updCmd_ticks (id : Nat) (f : Cmd → Cmd) : (s.updCmd id f).ticks = s.ticks := rfl
@[simp] theorem State.updCmd_freeCtr (id : Nat) (f : Cmd → Cmd) : (s.updCmd id f).freeCtr = s.freeCtr := rfl
@[simp] theorem State.updCmd_csr (id : Nat) (f : Cmd → Cmd) : (s.updCmd id f).csr = s.csr := rfl
@[simp] theorem State.updCmd_mem (id : Nat) (f : Cmd → Cmd) : (s.updCmd id f).mem = s.mem := rfl
@[simp] theorem State.updCmd_island (id : Nat) (f : Cmd → Cmd) : (s.updCmd id f).island = s.island := rfl
@[simp] theorem State.updCmd_hp (id : Nat) (f : Cmd → Cmd) : (s.updCmd id f).hp = s.hp := rfl
@[simp] theorem State.updCmd_gov (id : Nat) (f : Cmd → Cmd) : (s.updCmd id f).gov = s.gov := rfl
@[simp] theorem State.updCmd_pwr (id : Nat) (f : Cmd → Cmd) : (s.updCmd id f).pwr = s.pwr := rfl
@[simp] theorem State.updCmd_tnu (id : Nat) (f : Cmd → Cmd) : (s.updCmd id f).tnu = s.tnu := rfl
@[simp] theorem State.updCmd_tar (id : Nat) (f : Cmd → Cmd) : (s.updCmd id f).tar = s.tar := rfl
@[simp] theorem State.updCmd_siu (id : Nat) (f : Cmd → Cmd) : (s.updCmd id f).siu = s.siu := rfl
@[simp] theorem State.updCmd_chn (id : Nat) (f : Cmd → Cmd) : (s.updCmd id f).chn = s.chn := rfl
@[simp] theorem State.updCmd_trk (id : Nat) (f : Cmd → Cmd) : (s.updCmd id f).trk = s.trk := rfl
@[simp] theorem State.updCmd_pln (id : Nat) (f : Cmd → Cmd) : (s.updCmd id f).pln = s.pln := rfl
@[simp] theorem State.updCmd_mmv (id : Nat) (f : Cmd → Cmd) : (s.updCmd id f).mmv = s.mmv := rfl
@[simp] theorem State.updCmd_kv (id : Nat) (f : Cmd → Cmd) : (s.updCmd id f).kv = s.kv := rfl
@[simp] theorem State.updCmd_ssi (id : Nat) (f : Cmd → Cmd) : (s.updCmd id f).ssi = s.ssi := rfl
@[simp] theorem State.updCmd_out (id : Nat) (f : Cmd → Cmd) : (s.updCmd id f).out = s.out := rfl
@[simp] theorem State.updCmd_reg (id : Nat) (f : Cmd → Cmd) (rr : Reg) : (s.updCmd id f).reg rr = s.reg rr := rfl
@[simp] theorem State.updCmd_rdByte (id : Nat) (f : Cmd → Cmd) (aa : Nat) : (s.updCmd id f).rdByte aa = s.rdByte aa := rfl

/-! State.setResult -/
@[simp] theorem State.setResult_pending (id o : Nat) (b : Bytes) : (s.setResult id o b).pending = s.pending := rfl
@[simp] theorem State.setResult_ticks (id o : Nat) (b : Bytes) : (s.setResult id o b).ticks = s.ticks := rfl
@[simp] theorem State.setResult_freeCtr (id o : Nat) (b : Bytes) : (s.setResult id o b).freeCtr = s.freeCtr := rfl
@[simp] theorem State.setResult_csr (id o : Nat) (b : Bytes) : (s.setResult id o b).csr = s.csr := rfl
@[simp] theorem State.setResult_mem (id o : Nat) (b : Bytes) : (s.setResult id o b).mem = s.mem := rfl
@[simp] theorem State.setResult_island (id o : Nat) (b : Bytes) : (s.setResult id o b).island = s.island := rfl
@[simp] theorem State.setResult_hp (id o : Nat) (b : Bytes) : (s.setResult id o b).hp = s.hp := rfl
@[simp] theorem State.setResult_gov (id o : Nat) (b : Bytes) : (s.setResult id o b).gov = s.gov := rfl
@[simp] theorem State.setResult_pwr (id o : Nat) (b : Bytes) : (s.setResult id o b).pwr = s.pwr := rfl
@[simp] theorem State.setResult_tnu (id o : Nat) (b : Bytes) : (s.setResult id o b).tnu = s.tnu := rfl
@[simp] theorem State.setResult_tar (id o : Nat) (b : Bytes) : (s.setResult id o b).tar = s.tar := rfl
@[simp] theorem State.setResult_siu (id o : Nat) (b : Bytes) : (s.setResult id o b).siu = s.siu := rfl
@[simp] theorem State.setResult_chn (id o : Nat) (b : Bytes) : (s.setResult id o b).chn = s.chn := rfl
@[simp] theorem State.setResult_trk (id o : Nat) (b : Bytes) : (s.setResult id o b).trk = s.trk := rfl
@[simp] theorem State.setResult_pln (id o : Nat) (b : Bytes) : (s.setResult id o b).pln = s.pln := rfl
@[simp] theorem State.setResult_mmv (id o : Nat) (b : Bytes) : (s.setResult id o b).mmv = s.mmv := rfl
@[simp] theorem State.setResult_kv (id o : Nat) (b : Bytes) : (s.setResult id o b).kv = s.kv := rfl
@[simp] theorem State.setResult_ssi (id o : Nat) (b : Bytes) : (s.setResult id o b).ssi = s.ssi := rfl
@[simp] theorem State.setResult_out (id o : Nat) (b : Bytes) : (s.setResult id o b).out = s.out := rfl
@[simp] theorem State.setResult_reg (id o : Nat) (b : Bytes) (rr : Reg) : (s.setResult id o b).reg rr = s.reg rr := rfl
@[simp] theorem State.setResult_rdByte (id o : Nat) (b : Bytes) (aa : Nat) : (s.setResult id o b).rdByte aa = s.rdByte aa := rfl

/-! State.setVerdict -/
@[simp] theorem State.setVerdict_pending (id st : Nat) : (s.setVerdict id st).pending = s.pending := rfl
@[simp] theorem State.setVerdict_ticks (id st : Nat) : (s.setVerdict id st).ticks = s.ticks := rfl
@[simp] theorem State.setVerdict_freeCtr (id st : Nat) : (s.setVerdict id st).freeCtr = s.freeCtr := rfl
@[simp] theorem State.setVerdict_csr (id st : Nat) : (s.setVerdict id st).csr = s.csr := rfl
@[simp] theorem State.setVerdict_mem (id st : Nat) : (s.setVerdict id st).mem = s.mem := rfl
@[simp] theorem State.setVerdict_island (id st : Nat) : (s.setVerdict id st).island = s.island := rfl
@[simp] theorem State.setVerdict_hp (id st : Nat) : (s.setVerdict id st).hp = s.hp := rfl
@[simp] theorem State.setVerdict_gov (id st : Nat) : (s.setVerdict id st).gov = s.gov := rfl
@[simp] theorem State.setVerdict_pwr (id st : Nat) : (s.setVerdict id st).pwr = s.pwr := rfl
@[simp] theorem State.setVerdict_tnu (id st : Nat) : (s.setVerdict id st).tnu = s.tnu := rfl
@[simp] theorem State.setVerdict_tar (id st : Nat) : (s.setVerdict id st).tar = s.tar := rfl
@[simp] theorem State.setVerdict_siu (id st : Nat) : (s.setVerdict id st).siu = s.siu := rfl
@[simp] theorem State.setVerdict_chn (id st : Nat) : (s.setVerdict id st).chn = s.chn := rfl
@[simp] theorem State.setVerdict_trk (id st : Nat) : (s.setVerdict id st).trk = s.trk := rfl
@[simp] theorem State.setVerdict_pln (id st : Nat) : (s.setVerdict id st).pln = s.pln := rfl
@[simp] theorem State.setVerdict_mmv (id st : Nat) : (s.setVerdict id st).mmv = s.mmv := rfl
@[simp] theorem State.setVerdict_kv (id st : Nat) : (s.setVerdict id st).kv = s.kv := rfl
@[simp] theorem State.setVerdict_ssi (id st : Nat) : (s.setVerdict id st).ssi = s.ssi := rfl
@[simp] theorem State.setVerdict_out (id st : Nat) : (s.setVerdict id st).out = s.out := rfl
@[simp] theorem State.setVerdict_reg (id st : Nat) (rr : Reg) : (s.setVerdict id st).reg rr = s.reg rr := rfl
@[simp] theorem State.setVerdict_rdByte (id st : Nat) (aa : Nat) : (s.setVerdict id st).rdByte aa = s.rdByte aa := rfl

/-! State.start -/
@[simp] theorem State.start_pending (id : Nat) : (s.start id).pending = s.pending := rfl
@[simp] theorem State.start_ticks (id : Nat) : (s.start id).ticks = s.ticks := rfl
@[simp] theorem State.start_freeCtr (id : Nat) : (s.start id).freeCtr = s.freeCtr := rfl
@[simp] theorem State.start_csr (id : Nat) : (s.start id).csr = s.csr := rfl
@[simp] theorem State.start_mem (id : Nat) : (s.start id).mem = s.mem := rfl
@[simp] theorem State.start_island (id : Nat) : (s.start id).island = s.island := rfl
@[simp] theorem State.start_hp (id : Nat) : (s.start id).hp = s.hp := rfl
@[simp] theorem State.start_gov (id : Nat) : (s.start id).gov = s.gov := rfl
@[simp] theorem State.start_pwr (id : Nat) : (s.start id).pwr = s.pwr := rfl
@[simp] theorem State.start_tnu (id : Nat) : (s.start id).tnu = s.tnu := rfl
@[simp] theorem State.start_tar (id : Nat) : (s.start id).tar = s.tar := rfl
@[simp] theorem State.start_siu (id : Nat) : (s.start id).siu = s.siu := rfl
@[simp] theorem State.start_chn (id : Nat) : (s.start id).chn = s.chn := rfl
@[simp] theorem State.start_trk (id : Nat) : (s.start id).trk = s.trk := rfl
@[simp] theorem State.start_pln (id : Nat) : (s.start id).pln = s.pln := rfl
@[simp] theorem State.start_mmv (id : Nat) : (s.start id).mmv = s.mmv := rfl
@[simp] theorem State.start_kv (id : Nat) : (s.start id).kv = s.kv := rfl
@[simp] theorem State.start_ssi (id : Nat) : (s.start id).ssi = s.ssi := rfl
@[simp] theorem State.start_out (id : Nat) : (s.start id).out = s.out := rfl
@[simp] theorem State.start_reg (id : Nat) (rr : Reg) : (s.start id).reg rr = s.reg rr := rfl
@[simp] theorem State.start_rdByte (id : Nat) (aa : Nat) : (s.start id).rdByte aa = s.rdByte aa := rfl

/-! State.setPart -/
@[simp] theorem State.setPart_pending (p : Nat) (x : Part) : (s.setPart p x).pending = s.pending := rfl
@[simp] theorem State.setPart_ticks (p : Nat) (x : Part) : (s.setPart p x).ticks = s.ticks := rfl
@[simp] theorem State.setPart_freeCtr (p : Nat) (x : Part) : (s.setPart p x).freeCtr = s.freeCtr := rfl
@[simp] theorem State.setPart_csr (p : Nat) (x : Part) : (s.setPart p x).csr = s.csr := rfl
@[simp] theorem State.setPart_mem (p : Nat) (x : Part) : (s.setPart p x).mem = s.mem := rfl
@[simp] theorem State.setPart_island (p : Nat) (x : Part) : (s.setPart p x).island = s.island := rfl
@[simp] theorem State.setPart_hp (p : Nat) (x : Part) : (s.setPart p x).hp = s.hp := rfl
@[simp] theorem State.setPart_gov (p : Nat) (x : Part) : (s.setPart p x).gov = s.gov := rfl
@[simp] theorem State.setPart_pwr (p : Nat) (x : Part) : (s.setPart p x).pwr = s.pwr := rfl
@[simp] theorem State.setPart_tnu (p : Nat) (x : Part) : (s.setPart p x).tnu = s.tnu := rfl
@[simp] theorem State.setPart_tar (p : Nat) (x : Part) : (s.setPart p x).tar = s.tar := rfl
@[simp] theorem State.setPart_siu (p : Nat) (x : Part) : (s.setPart p x).siu = s.siu := rfl
@[simp] theorem State.setPart_chn (p : Nat) (x : Part) : (s.setPart p x).chn = s.chn := rfl
@[simp] theorem State.setPart_trk (p : Nat) (x : Part) : (s.setPart p x).trk = s.trk := rfl
@[simp] theorem State.setPart_pln (p : Nat) (x : Part) : (s.setPart p x).pln = s.pln := rfl
@[simp] theorem State.setPart_mmv (p : Nat) (x : Part) : (s.setPart p x).mmv = s.mmv := rfl
@[simp] theorem State.setPart_kv (p : Nat) (x : Part) : (s.setPart p x).kv = s.kv := rfl
@[simp] theorem State.setPart_ssi (p : Nat) (x : Part) : (s.setPart p x).ssi = s.ssi := rfl
@[simp] theorem State.setPart_out (p : Nat) (x : Part) : (s.setPart p x).out = s.out := rfl
@[simp] theorem State.setPart_reg (p : Nat) (x : Part) (rr : Reg) : (s.setPart p x).reg rr = s.reg rr := rfl
@[simp] theorem State.setPart_rdByte (p : Nat) (x : Part) (aa : Nat) : (s.setPart p x).rdByte aa = s.rdByte aa := rfl

/-! State.setFuncs -/
@[simp] theorem State.setFuncs_pending (f : List FuncRec → List FuncRec) : (s.setFuncs f).pending = s.pending := rfl
@[simp] theorem State.setFuncs_ticks (f : List FuncRec → List FuncRec) : (s.setFuncs f).ticks = s.ticks := rfl
@[simp] theorem State.setFuncs_freeCtr (f : List FuncRec → List FuncRec) : (s.setFuncs f).freeCtr = s.freeCtr := rfl
@[simp] theorem State.setFuncs_csr (f : List FuncRec → List FuncRec) : (s.setFuncs f).csr = s.csr := rfl
@[simp] theorem State.setFuncs_mem (f : List FuncRec → List FuncRec) : (s.setFuncs f).mem = s.mem := rfl
@[simp] theorem State.setFuncs_island (f : List FuncRec → List FuncRec) : (s.setFuncs f).island = s.island := rfl
@[simp] theorem State.setFuncs_hp (f : List FuncRec → List FuncRec) : (s.setFuncs f).hp = s.hp := rfl
@[simp] theorem State.setFuncs_gov (f : List FuncRec → List FuncRec) : (s.setFuncs f).gov = s.gov := rfl
@[simp] theorem State.setFuncs_pwr (f : List FuncRec → List FuncRec) : (s.setFuncs f).pwr = s.pwr := rfl
@[simp] theorem State.setFuncs_tnu (f : List FuncRec → List FuncRec) : (s.setFuncs f).tnu = s.tnu := rfl
@[simp] theorem State.setFuncs_tar (f : List FuncRec → List FuncRec) : (s.setFuncs f).tar = s.tar := rfl
@[simp] theorem State.setFuncs_siu (f : List FuncRec → List FuncRec) : (s.setFuncs f).siu = s.siu := rfl
@[simp] theorem State.setFuncs_chn (f : List FuncRec → List FuncRec) : (s.setFuncs f).chn = s.chn := rfl
@[simp] theorem State.setFuncs_trk (f : List FuncRec → List FuncRec) : (s.setFuncs f).trk = s.trk := rfl
@[simp] theorem State.setFuncs_pln (f : List FuncRec → List FuncRec) : (s.setFuncs f).pln = s.pln := rfl
@[simp] theorem State.setFuncs_mmv (f : List FuncRec → List FuncRec) : (s.setFuncs f).mmv = s.mmv := rfl
@[simp] theorem State.setFuncs_kv (f : List FuncRec → List FuncRec) : (s.setFuncs f).kv = s.kv := rfl
@[simp] theorem State.setFuncs_ssi (f : List FuncRec → List FuncRec) : (s.setFuncs f).ssi = s.ssi := rfl
@[simp] theorem State.setFuncs_out (f : List FuncRec → List FuncRec) : (s.setFuncs f).out = s.out := rfl
@[simp] theorem State.setFuncs_reg (f : List FuncRec → List FuncRec) (rr : Reg) : (s.setFuncs f).reg rr = s.reg rr := rfl
@[simp] theorem State.setFuncs_rdByte (f : List FuncRec → List FuncRec) (aa : Nat) : (s.setFuncs f).rdByte aa = s.rdByte aa := rfl

/-! State.setTar -/
@[simp] theorem State.setTar_pending (f : Tar → Tar) : (s.setTar f).pending = s.pending := rfl
@[simp] theorem State.setTar_ticks (f : Tar → Tar) : (s.setTar f).ticks = s.ticks := rfl
@[simp] theorem State.setTar_freeCtr (f : Tar → Tar) : (s.setTar f).freeCtr = s.freeCtr := rfl
@[simp] theorem State.setTar_csr (f : Tar → Tar) : (s.setTar f).csr = s.csr := rfl
@[simp] theorem State.setTar_mem (f : Tar → Tar) : (s.setTar f).mem = s.mem := rfl
@[simp] theorem State.setTar_island (f : Tar → Tar) : (s.setTar f).island = s.island := rfl
@[simp] theorem State.setTar_hp (f : Tar → Tar) : (s.setTar f).hp = s.hp := rfl
@[simp] theorem State.setTar_ccx (f : Tar → Tar) : (s.setTar f).ccx = s.ccx := rfl
@[simp] theorem State.setTar_gov (f : Tar → Tar) : (s.setTar f).gov = s.gov := rfl
@[simp] theorem State.setTar_pwr (f : Tar → Tar) : (s.setTar f).pwr = s.pwr := rfl
@[simp] theorem State.setTar_tnu (f : Tar → Tar) : (s.setTar f).tnu = s.tnu := rfl
@[simp] theorem State.setTar_siu (f : Tar → Tar) : (s.setTar f).siu = s.siu := rfl
@[simp] theorem State.setTar_chn (f : Tar → Tar) : (s.setTar f).chn = s.chn := rfl
@[simp] theorem State.setTar_trk (f : Tar → Tar) : (s.setTar f).trk = s.trk := rfl
@[simp] theorem State.setTar_pln (f : Tar → Tar) : (s.setTar f).pln = s.pln := rfl
@[simp] theorem State.setTar_mmv (f : Tar → Tar) : (s.setTar f).mmv = s.mmv := rfl
@[simp] theorem State.setTar_kv (f : Tar → Tar) : (s.setTar f).kv = s.kv := rfl
@[simp] theorem State.setTar_ssi (f : Tar → Tar) : (s.setTar f).ssi = s.ssi := rfl
@[simp] theorem State.setTar_out (f : Tar → Tar) : (s.setTar f).out = s.out := rfl
@[simp] theorem State.setTar_reg (f : Tar → Tar) (rr : Reg) : (s.setTar f).reg rr = s.reg rr := rfl
@[simp] theorem State.setTar_rdByte (f : Tar → Tar) (aa : Nat) : (s.setTar f).rdByte aa = s.rdByte aa := rfl

/-! State.updJob -/
@[simp] theorem State.updJob_pending (n : Nat) (f : TJob → TJob) : (s.updJob n f).pending = s.pending := rfl
@[simp] theorem State.updJob_ticks (n : Nat) (f : TJob → TJob) : (s.updJob n f).ticks = s.ticks := rfl
@[simp] theorem State.updJob_freeCtr (n : Nat) (f : TJob → TJob) : (s.updJob n f).freeCtr = s.freeCtr := rfl
@[simp] theorem State.updJob_csr (n : Nat) (f : TJob → TJob) : (s.updJob n f).csr = s.csr := rfl
@[simp] theorem State.updJob_mem (n : Nat) (f : TJob → TJob) : (s.updJob n f).mem = s.mem := rfl
@[simp] theorem State.updJob_island (n : Nat) (f : TJob → TJob) : (s.updJob n f).island = s.island := rfl
@[simp] theorem State.updJob_hp (n : Nat) (f : TJob → TJob) : (s.updJob n f).hp = s.hp := rfl
@[simp] theorem State.updJob_ccx (n : Nat) (f : TJob → TJob) : (s.updJob n f).ccx = s.ccx := rfl
@[simp] theorem State.updJob_gov (n : Nat) (f : TJob → TJob) : (s.updJob n f).gov = s.gov := rfl
@[simp] theorem State.updJob_pwr (n : Nat) (f : TJob → TJob) : (s.updJob n f).pwr = s.pwr := rfl
@[simp] theorem State.updJob_tnu (n : Nat) (f : TJob → TJob) : (s.updJob n f).tnu = s.tnu := rfl
@[simp] theorem State.updJob_siu (n : Nat) (f : TJob → TJob) : (s.updJob n f).siu = s.siu := rfl
@[simp] theorem State.updJob_chn (n : Nat) (f : TJob → TJob) : (s.updJob n f).chn = s.chn := rfl
@[simp] theorem State.updJob_trk (n : Nat) (f : TJob → TJob) : (s.updJob n f).trk = s.trk := rfl
@[simp] theorem State.updJob_pln (n : Nat) (f : TJob → TJob) : (s.updJob n f).pln = s.pln := rfl
@[simp] theorem State.updJob_mmv (n : Nat) (f : TJob → TJob) : (s.updJob n f).mmv = s.mmv := rfl
@[simp] theorem State.updJob_kv (n : Nat) (f : TJob → TJob) : (s.updJob n f).kv = s.kv := rfl
@[simp] theorem State.updJob_ssi (n : Nat) (f : TJob → TJob) : (s.updJob n f).ssi = s.ssi := rfl
@[simp] theorem State.updJob_out (n : Nat) (f : TJob → TJob) : (s.updJob n f).out = s.out := rfl
@[simp] theorem State.updJob_reg (n : Nat) (f : TJob → TJob) (rr : Reg) : (s.updJob n f).reg rr = s.reg rr := rfl
@[simp] theorem State.updJob_rdByte (n : Nat) (f : TJob → TJob) (aa : Nat) : (s.updJob n f).rdByte aa = s.rdByte aa := rfl

/-! State.pushJob -/
@[simp] theorem State.pushJob_pending (j : TJob) (b : Bool) : (s.pushJob j b).pending = s.pending := rfl
@[simp] theorem State.pushJob_ticks (j : TJob) (b : Bool) : (s.pushJob j b).ticks = s.ticks := rfl
@[simp] theorem State.pushJob_freeCtr (j : TJob) (b : Bool) : (s.pushJob j b).freeCtr = s.freeCtr := rfl
@[simp] theorem State.pushJob_csr (j : TJob) (b : Bool) : (s.pushJob j b).csr = s.csr := rfl
@[simp] theorem State.pushJob_mem (j : TJob) (b : Bool) : (s.pushJob j b).mem = s.mem := rfl
@[simp] theorem State.pushJob_island (j : TJob) (b : Bool) : (s.pushJob j b).island = s.island := rfl
@[simp] theorem State.pushJob_hp (j : TJob) (b : Bool) : (s.pushJob j b).hp = s.hp := rfl
@[simp] theorem State.pushJob_ccx (j : TJob) (b : Bool) : (s.pushJob j b).ccx = s.ccx := rfl
@[simp] theorem State.pushJob_gov (j : TJob) (b : Bool) : (s.pushJob j b).gov = s.gov := rfl
@[simp] theorem State.pushJob_pwr (j : TJob) (b : Bool) : (s.pushJob j b).pwr = s.pwr := rfl
@[simp] theorem State.pushJob_tnu (j : TJob) (b : Bool) : (s.pushJob j b).tnu = s.tnu := rfl
@[simp] theorem State.pushJob_siu (j : TJob) (b : Bool) : (s.pushJob j b).siu = s.siu := rfl
@[simp] theorem State.pushJob_chn (j : TJob) (b : Bool) : (s.pushJob j b).chn = s.chn := rfl
@[simp] theorem State.pushJob_trk (j : TJob) (b : Bool) : (s.pushJob j b).trk = s.trk := rfl
@[simp] theorem State.pushJob_pln (j : TJob) (b : Bool) : (s.pushJob j b).pln = s.pln := rfl
@[simp] theorem State.pushJob_mmv (j : TJob) (b : Bool) : (s.pushJob j b).mmv = s.mmv := rfl
@[simp] theorem State.pushJob_kv (j : TJob) (b : Bool) : (s.pushJob j b).kv = s.kv := rfl
@[simp] theorem State.pushJob_ssi (j : TJob) (b : Bool) : (s.pushJob j b).ssi = s.ssi := rfl
@[simp] theorem State.pushJob_out (j : TJob) (b : Bool) : (s.pushJob j b).out = s.out := rfl
@[simp] theorem State.pushJob_reg (j : TJob) (b : Bool) (rr : Reg) : (s.pushJob j b).reg rr = s.reg rr := rfl
@[simp] theorem State.pushJob_rdByte (j : TJob) (b : Bool) (aa : Nat) : (s.pushJob j b).rdByte aa = s.rdByte aa := rfl

/-! State.seedCore -/
@[simp] theorem State.seedCore_pending (p : Nat) (b : Bytes) : (s.seedCore p b).pending = s.pending := rfl
@[simp] theorem State.seedCore_ticks (p : Nat) (b : Bytes) : (s.seedCore p b).ticks = s.ticks := rfl
@[simp] theorem State.seedCore_freeCtr (p : Nat) (b : Bytes) : (s.seedCore p b).freeCtr = s.freeCtr := rfl
@[simp] theorem State.seedCore_csr (p : Nat) (b : Bytes) : (s.seedCore p b).csr = s.csr := rfl
@[simp] theorem State.seedCore_mem (p : Nat) (b : Bytes) : (s.seedCore p b).mem = s.mem := rfl
@[simp] theorem State.seedCore_island (p : Nat) (b : Bytes) : (s.seedCore p b).island = s.island := rfl
@[simp] theorem State.seedCore_hp (p : Nat) (b : Bytes) : (s.seedCore p b).hp = s.hp := rfl
@[simp] theorem State.seedCore_ccx (p : Nat) (b : Bytes) : (s.seedCore p b).ccx = s.ccx := rfl
@[simp] theorem State.seedCore_gov (p : Nat) (b : Bytes) : (s.seedCore p b).gov = s.gov := rfl
@[simp] theorem State.seedCore_pwr (p : Nat) (b : Bytes) : (s.seedCore p b).pwr = s.pwr := rfl
@[simp] theorem State.seedCore_tnu (p : Nat) (b : Bytes) : (s.seedCore p b).tnu = s.tnu := rfl
@[simp] theorem State.seedCore_siu (p : Nat) (b : Bytes) : (s.seedCore p b).siu = s.siu := rfl
@[simp] theorem State.seedCore_chn (p : Nat) (b : Bytes) : (s.seedCore p b).chn = s.chn := rfl
@[simp] theorem State.seedCore_trk (p : Nat) (b : Bytes) : (s.seedCore p b).trk = s.trk := rfl
@[simp] theorem State.seedCore_pln (p : Nat) (b : Bytes) : (s.seedCore p b).pln = s.pln := rfl
@[simp] theorem State.seedCore_mmv (p : Nat) (b : Bytes) : (s.seedCore p b).mmv = s.mmv := rfl
@[simp] theorem State.seedCore_kv (p : Nat) (b : Bytes) : (s.seedCore p b).kv = s.kv := rfl
@[simp] theorem State.seedCore_ssi (p : Nat) (b : Bytes) : (s.seedCore p b).ssi = s.ssi := rfl
@[simp] theorem State.seedCore_out (p : Nat) (b : Bytes) : (s.seedCore p b).out = s.out := rfl
@[simp] theorem State.seedCore_reg (p : Nat) (b : Bytes) (rr : Reg) : (s.seedCore p b).reg rr = s.reg rr := rfl
@[simp] theorem State.seedCore_rdByte (p : Nat) (b : Bytes) (aa : Nat) : (s.seedCore p b).rdByte aa = s.rdByte aa := rfl

/-! State.setMmv -/
@[simp] theorem State.setMmv_pending (f : Mmv → Mmv) : (s.setMmv f).pending = s.pending := rfl
@[simp] theorem State.setMmv_ticks (f : Mmv → Mmv) : (s.setMmv f).ticks = s.ticks := rfl
@[simp] theorem State.setMmv_freeCtr (f : Mmv → Mmv) : (s.setMmv f).freeCtr = s.freeCtr := rfl
@[simp] theorem State.setMmv_csr (f : Mmv → Mmv) : (s.setMmv f).csr = s.csr := rfl
@[simp] theorem State.setMmv_mem (f : Mmv → Mmv) : (s.setMmv f).mem = s.mem := rfl
@[simp] theorem State.setMmv_island (f : Mmv → Mmv) : (s.setMmv f).island = s.island := rfl
@[simp] theorem State.setMmv_hp (f : Mmv → Mmv) : (s.setMmv f).hp = s.hp := rfl
@[simp] theorem State.setMmv_ccx (f : Mmv → Mmv) : (s.setMmv f).ccx = s.ccx := rfl
@[simp] theorem State.setMmv_gov (f : Mmv → Mmv) : (s.setMmv f).gov = s.gov := rfl
@[simp] theorem State.setMmv_pwr (f : Mmv → Mmv) : (s.setMmv f).pwr = s.pwr := rfl
@[simp] theorem State.setMmv_tnu (f : Mmv → Mmv) : (s.setMmv f).tnu = s.tnu := rfl
@[simp] theorem State.setMmv_tar (f : Mmv → Mmv) : (s.setMmv f).tar = s.tar := rfl
@[simp] theorem State.setMmv_siu (f : Mmv → Mmv) : (s.setMmv f).siu = s.siu := rfl
@[simp] theorem State.setMmv_chn (f : Mmv → Mmv) : (s.setMmv f).chn = s.chn := rfl
@[simp] theorem State.setMmv_trk (f : Mmv → Mmv) : (s.setMmv f).trk = s.trk := rfl
@[simp] theorem State.setMmv_pln (f : Mmv → Mmv) : (s.setMmv f).pln = s.pln := rfl
@[simp] theorem State.setMmv_kv (f : Mmv → Mmv) : (s.setMmv f).kv = s.kv := rfl
@[simp] theorem State.setMmv_ssi (f : Mmv → Mmv) : (s.setMmv f).ssi = s.ssi := rfl
@[simp] theorem State.setMmv_out (f : Mmv → Mmv) : (s.setMmv f).out = s.out := rfl
@[simp] theorem State.setMmv_reg (f : Mmv → Mmv) (rr : Reg) : (s.setMmv f).reg rr = s.reg rr := rfl
@[simp] theorem State.setMmv_rdByte (f : Mmv → Mmv) (aa : Nat) : (s.setMmv f).rdByte aa = s.rdByte aa := rfl

/-! State.modPort -/
@[simp] theorem State.modPort_pending (p : Nat) (f : Port → Port) : (s.modPort p f).pending = s.pending := rfl
@[simp] theorem State.modPort_ticks (p : Nat) (f : Port → Port) : (s.modPort p f).ticks = s.ticks := rfl
@[simp] theorem State.modPort_freeCtr (p : Nat) (f : Port → Port) : (s.modPort p f).freeCtr = s.freeCtr := rfl
@[simp] theorem State.modPort_csr (p : Nat) (f : Port → Port) : (s.modPort p f).csr = s.csr := rfl
@[simp] theorem State.modPort_mem (p : Nat) (f : Port → Port) : (s.modPort p f).mem = s.mem := rfl
@[simp] theorem State.modPort_island (p : Nat) (f : Port → Port) : (s.modPort p f).island = s.island := rfl
@[simp] theorem State.modPort_hp (p : Nat) (f : Port → Port) : (s.modPort p f).hp = s.hp := rfl
@[simp] theorem State.modPort_ccx (p : Nat) (f : Port → Port) : (s.modPort p f).ccx = s.ccx := rfl
@[simp] theorem State.modPort_gov (p : Nat) (f : Port → Port) : (s.modPort p f).gov = s.gov := rfl
@[simp] theorem State.modPort_pwr (p : Nat) (f : Port → Port) : (s.modPort p f).pwr = s.pwr := rfl
@[simp] theorem State.modPort_tnu (p : Nat) (f : Port → Port) : (s.modPort p f).tnu = s.tnu := rfl
@[simp] theorem State.modPort_tar (p : Nat) (f : Port → Port) : (s.modPort p f).tar = s.tar := rfl
@[simp] theorem State.modPort_siu (p : Nat) (f : Port → Port) : (s.modPort p f).siu = s.siu := rfl
@[simp] theorem State.modPort_chn (p : Nat) (f : Port → Port) : (s.modPort p f).chn = s.chn := rfl
@[simp] theorem State.modPort_trk (p : Nat) (f : Port → Port) : (s.modPort p f).trk = s.trk := rfl
@[simp] theorem State.modPort_pln (p : Nat) (f : Port → Port) : (s.modPort p f).pln = s.pln := rfl
@[simp] theorem State.modPort_kv (p : Nat) (f : Port → Port) : (s.modPort p f).kv = s.kv := rfl
@[simp] theorem State.modPort_ssi (p : Nat) (f : Port → Port) : (s.modPort p f).ssi = s.ssi := rfl
@[simp] theorem State.modPort_out (p : Nat) (f : Port → Port) : (s.modPort p f).out = s.out := rfl
@[simp] theorem State.modPort_reg (p : Nat) (f : Port → Port) (rr : Reg) : (s.modPort p f).reg rr = s.reg rr := rfl
@[simp] theorem State.modPort_rdByte (p : Nat) (f : Port → Port) (aa : Nat) : (s.modPort p f).rdByte aa = s.rdByte aa := rfl

/-! State.setRing -/
@[simp] theorem State.setRing_pending (n : Nat) (r : Ring) : (s.setRing n r).pending = s.pending := rfl
@[simp] theorem State.setRing_ticks (n : Nat) (r : Ring) : (s.setRing n r).ticks = s.ticks := rfl
@[simp] theorem State.setRing_freeCtr (n : Nat) (r : Ring) : (s.setRing n r).freeCtr = s.freeCtr := rfl
@[simp] theorem State.setRing_csr (n : Nat) (r : Ring) : (s.setRing n r).csr = s.csr := rfl
@[simp] theorem State.setRing_mem (n : Nat) (r : Ring) : (s.setRing n r).mem = s.mem := rfl
@[simp] theorem State.setRing_island (n : Nat) (r : Ring) : (s.setRing n r).island = s.island := rfl
@[simp] theorem State.setRing_hp (n : Nat) (r : Ring) : (s.setRing n r).hp = s.hp := rfl
@[simp] theorem State.setRing_ccx (n : Nat) (r : Ring) : (s.setRing n r).ccx = s.ccx := rfl
@[simp] theorem State.setRing_gov (n : Nat) (r : Ring) : (s.setRing n r).gov = s.gov := rfl
@[simp] theorem State.setRing_pwr (n : Nat) (r : Ring) : (s.setRing n r).pwr = s.pwr := rfl
@[simp] theorem State.setRing_tnu (n : Nat) (r : Ring) : (s.setRing n r).tnu = s.tnu := rfl
@[simp] theorem State.setRing_tar (n : Nat) (r : Ring) : (s.setRing n r).tar = s.tar := rfl
@[simp] theorem State.setRing_siu (n : Nat) (r : Ring) : (s.setRing n r).siu = s.siu := rfl
@[simp] theorem State.setRing_chn (n : Nat) (r : Ring) : (s.setRing n r).chn = s.chn := rfl
@[simp] theorem State.setRing_trk (n : Nat) (r : Ring) : (s.setRing n r).trk = s.trk := rfl
@[simp] theorem State.setRing_pln (n : Nat) (r : Ring) : (s.setRing n r).pln = s.pln := rfl
@[simp] theorem State.setRing_kv (n : Nat) (r : Ring) : (s.setRing n r).kv = s.kv := rfl
@[simp] theorem State.setRing_ssi (n : Nat) (r : Ring) : (s.setRing n r).ssi = s.ssi := rfl
@[simp] theorem State.setRing_out (n : Nat) (r : Ring) : (s.setRing n r).out = s.out := rfl
@[simp] theorem State.setRing_reg (n : Nat) (r : Ring) (rr : Reg) : (s.setRing n r).reg rr = s.reg rr := rfl
@[simp] theorem State.setRing_rdByte (n : Nat) (r : Ring) (aa : Nat) : (s.setRing n r).rdByte aa = s.rdByte aa := rfl

/-! State.setKv -/
@[simp] theorem State.setKv_pending (f : Kv → Kv) : (s.setKv f).pending = s.pending := rfl
@[simp] theorem State.setKv_ticks (f : Kv → Kv) : (s.setKv f).ticks = s.ticks := rfl
@[simp] theorem State.setKv_freeCtr (f : Kv → Kv) : (s.setKv f).freeCtr = s.freeCtr := rfl
@[simp] theorem State.setKv_csr (f : Kv → Kv) : (s.setKv f).csr = s.csr := rfl
@[simp] theorem State.setKv_mem (f : Kv → Kv) : (s.setKv f).mem = s.mem := rfl
@[simp] theorem State.setKv_island (f : Kv → Kv) : (s.setKv f).island = s.island := rfl
@[simp] theorem State.setKv_hp (f : Kv → Kv) : (s.setKv f).hp = s.hp := rfl
@[simp] theorem State.setKv_ccx (f : Kv → Kv) : (s.setKv f).ccx = s.ccx := rfl
@[simp] theorem State.setKv_gov (f : Kv → Kv) : (s.setKv f).gov = s.gov := rfl
@[simp] theorem State.setKv_pwr (f : Kv → Kv) : (s.setKv f).pwr = s.pwr := rfl
@[simp] theorem State.setKv_tnu (f : Kv → Kv) : (s.setKv f).tnu = s.tnu := rfl
@[simp] theorem State.setKv_tar (f : Kv → Kv) : (s.setKv f).tar = s.tar := rfl
@[simp] theorem State.setKv_siu (f : Kv → Kv) : (s.setKv f).siu = s.siu := rfl
@[simp] theorem State.setKv_chn (f : Kv → Kv) : (s.setKv f).chn = s.chn := rfl
@[simp] theorem State.setKv_trk (f : Kv → Kv) : (s.setKv f).trk = s.trk := rfl
@[simp] theorem State.setKv_pln (f : Kv → Kv) : (s.setKv f).pln = s.pln := rfl
@[simp] theorem State.setKv_mmv (f : Kv → Kv) : (s.setKv f).mmv = s.mmv := rfl
@[simp] theorem State.setKv_ssi (f : Kv → Kv) : (s.setKv f).ssi = s.ssi := rfl
@[simp] theorem State.setKv_out (f : Kv → Kv) : (s.setKv f).out = s.out := rfl
@[simp] theorem State.setKv_reg (f : Kv → Kv) (rr : Reg) : (s.setKv f).reg rr = s.reg rr := rfl
@[simp] theorem State.setKv_rdByte (f : Kv → Kv) (aa : Nat) : (s.setKv f).rdByte aa = s.rdByte aa := rfl

/-! State.setKvPool -/
@[simp] theorem State.setKvPool_pending (p : Nat) (x : KvPool) : (s.setKvPool p x).pending = s.pending := rfl
@[simp] theorem State.setKvPool_ticks (p : Nat) (x : KvPool) : (s.setKvPool p x).ticks = s.ticks := rfl
@[simp] theorem State.setKvPool_freeCtr (p : Nat) (x : KvPool) : (s.setKvPool p x).freeCtr = s.freeCtr := rfl
@[simp] theorem State.setKvPool_csr (p : Nat) (x : KvPool) : (s.setKvPool p x).csr = s.csr := rfl
@[simp] theorem State.setKvPool_mem (p : Nat) (x : KvPool) : (s.setKvPool p x).mem = s.mem := rfl
@[simp] theorem State.setKvPool_island (p : Nat) (x : KvPool) : (s.setKvPool p x).island = s.island := rfl
@[simp] theorem State.setKvPool_hp (p : Nat) (x : KvPool) : (s.setKvPool p x).hp = s.hp := rfl
@[simp] theorem State.setKvPool_ccx (p : Nat) (x : KvPool) : (s.setKvPool p x).ccx = s.ccx := rfl
@[simp] theorem State.setKvPool_gov (p : Nat) (x : KvPool) : (s.setKvPool p x).gov = s.gov := rfl
@[simp] theorem State.setKvPool_pwr (p : Nat) (x : KvPool) : (s.setKvPool p x).pwr = s.pwr := rfl
@[simp] theorem State.setKvPool_tnu (p : Nat) (x : KvPool) : (s.setKvPool p x).tnu = s.tnu := rfl
@[simp] theorem State.setKvPool_tar (p : Nat) (x : KvPool) : (s.setKvPool p x).tar = s.tar := rfl
@[simp] theorem State.setKvPool_siu (p : Nat) (x : KvPool) : (s.setKvPool p x).siu = s.siu := rfl
@[simp] theorem State.setKvPool_chn (p : Nat) (x : KvPool) : (s.setKvPool p x).chn = s.chn := rfl
@[simp] theorem State.setKvPool_trk (p : Nat) (x : KvPool) : (s.setKvPool p x).trk = s.trk := rfl
@[simp] theorem State.setKvPool_pln (p : Nat) (x : KvPool) : (s.setKvPool p x).pln = s.pln := rfl
@[simp] theorem State.setKvPool_mmv (p : Nat) (x : KvPool) : (s.setKvPool p x).mmv = s.mmv := rfl
@[simp] theorem State.setKvPool_ssi (p : Nat) (x : KvPool) : (s.setKvPool p x).ssi = s.ssi := rfl
@[simp] theorem State.setKvPool_out (p : Nat) (x : KvPool) : (s.setKvPool p x).out = s.out := rfl
@[simp] theorem State.setKvPool_reg (p : Nat) (x : KvPool) (rr : Reg) : (s.setKvPool p x).reg rr = s.reg rr := rfl
@[simp] theorem State.setKvPool_rdByte (p : Nat) (x : KvPool) (aa : Nat) : (s.setKvPool p x).rdByte aa = s.rdByte aa := rfl

/-! State.setKvSeq -/
@[simp] theorem State.setKvSeq_pending (q : Nat) (x : KvSeq) : (s.setKvSeq q x).pending = s.pending := rfl
@[simp] theorem State.setKvSeq_ticks (q : Nat) (x : KvSeq) : (s.setKvSeq q x).ticks = s.ticks := rfl
@[simp] theorem State.setKvSeq_freeCtr (q : Nat) (x : KvSeq) : (s.setKvSeq q x).freeCtr = s.freeCtr := rfl
@[simp] theorem State.setKvSeq_csr (q : Nat) (x : KvSeq) : (s.setKvSeq q x).csr = s.csr := rfl
@[simp] theorem State.setKvSeq_mem (q : Nat) (x : KvSeq) : (s.setKvSeq q x).mem = s.mem := rfl
@[simp] theorem State.setKvSeq_island (q : Nat) (x : KvSeq) : (s.setKvSeq q x).island = s.island := rfl
@[simp] theorem State.setKvSeq_hp (q : Nat) (x : KvSeq) : (s.setKvSeq q x).hp = s.hp := rfl
@[simp] theorem State.setKvSeq_ccx (q : Nat) (x : KvSeq) : (s.setKvSeq q x).ccx = s.ccx := rfl
@[simp] theorem State.setKvSeq_gov (q : Nat) (x : KvSeq) : (s.setKvSeq q x).gov = s.gov := rfl
@[simp] theorem State.setKvSeq_pwr (q : Nat) (x : KvSeq) : (s.setKvSeq q x).pwr = s.pwr := rfl
@[simp] theorem State.setKvSeq_tnu (q : Nat) (x : KvSeq) : (s.setKvSeq q x).tnu = s.tnu := rfl
@[simp] theorem State.setKvSeq_tar (q : Nat) (x : KvSeq) : (s.setKvSeq q x).tar = s.tar := rfl
@[simp] theorem State.setKvSeq_siu (q : Nat) (x : KvSeq) : (s.setKvSeq q x).siu = s.siu := rfl
@[simp] theorem State.setKvSeq_chn (q : Nat) (x : KvSeq) : (s.setKvSeq q x).chn = s.chn := rfl
@[simp] theorem State.setKvSeq_trk (q : Nat) (x : KvSeq) : (s.setKvSeq q x).trk = s.trk := rfl
@[simp] theorem State.setKvSeq_pln (q : Nat) (x : KvSeq) : (s.setKvSeq q x).pln = s.pln := rfl
@[simp] theorem State.setKvSeq_mmv (q : Nat) (x : KvSeq) : (s.setKvSeq q x).mmv = s.mmv := rfl
@[simp] theorem State.setKvSeq_ssi (q : Nat) (x : KvSeq) : (s.setKvSeq q x).ssi = s.ssi := rfl
@[simp] theorem State.setKvSeq_out (q : Nat) (x : KvSeq) : (s.setKvSeq q x).out = s.out := rfl
@[simp] theorem State.setKvSeq_reg (q : Nat) (x : KvSeq) (rr : Reg) : (s.setKvSeq q x).reg rr = s.reg rr := rfl
@[simp] theorem State.setKvSeq_rdByte (q : Nat) (x : KvSeq) (aa : Nat) : (s.setKvSeq q x).rdByte aa = s.rdByte aa := rfl

/-! State.setSsi -/
@[simp] theorem State.setSsi_pending (f : Ssi → Ssi) : (s.setSsi f).pending = s.pending := rfl
@[simp] theorem State.setSsi_ticks (f : Ssi → Ssi) : (s.setSsi f).ticks = s.ticks := rfl
@[simp] theorem State.setSsi_freeCtr (f : Ssi → Ssi) : (s.setSsi f).freeCtr = s.freeCtr := rfl
@[simp] theorem State.setSsi_csr (f : Ssi → Ssi) : (s.setSsi f).csr = s.csr := rfl
@[simp] theorem State.setSsi_mem (f : Ssi → Ssi) : (s.setSsi f).mem = s.mem := rfl
@[simp] theorem State.setSsi_island (f : Ssi → Ssi) : (s.setSsi f).island = s.island := rfl
@[simp] theorem State.setSsi_hp (f : Ssi → Ssi) : (s.setSsi f).hp = s.hp := rfl
@[simp] theorem State.setSsi_ccx (f : Ssi → Ssi) : (s.setSsi f).ccx = s.ccx := rfl
@[simp] theorem State.setSsi_gov (f : Ssi → Ssi) : (s.setSsi f).gov = s.gov := rfl
@[simp] theorem State.setSsi_pwr (f : Ssi → Ssi) : (s.setSsi f).pwr = s.pwr := rfl
@[simp] theorem State.setSsi_tnu (f : Ssi → Ssi) : (s.setSsi f).tnu = s.tnu := rfl
@[simp] theorem State.setSsi_tar (f : Ssi → Ssi) : (s.setSsi f).tar = s.tar := rfl
@[simp] theorem State.setSsi_siu (f : Ssi → Ssi) : (s.setSsi f).siu = s.siu := rfl
@[simp] theorem State.setSsi_chn (f : Ssi → Ssi) : (s.setSsi f).chn = s.chn := rfl
@[simp] theorem State.setSsi_trk (f : Ssi → Ssi) : (s.setSsi f).trk = s.trk := rfl
@[simp] theorem State.setSsi_pln (f : Ssi → Ssi) : (s.setSsi f).pln = s.pln := rfl
@[simp] theorem State.setSsi_mmv (f : Ssi → Ssi) : (s.setSsi f).mmv = s.mmv := rfl
@[simp] theorem State.setSsi_kv (f : Ssi → Ssi) : (s.setSsi f).kv = s.kv := rfl
@[simp] theorem State.setSsi_out (f : Ssi → Ssi) : (s.setSsi f).out = s.out := rfl
@[simp] theorem State.setSsi_reg (f : Ssi → Ssi) (rr : Reg) : (s.setSsi f).reg rr = s.reg rr := rfl
@[simp] theorem State.setSsi_rdByte (f : Ssi → Ssi) (aa : Nat) : (s.setSsi f).rdByte aa = s.rdByte aa := rfl

/-! State.setRfx -/
@[simp] theorem State.setRfx_pending (f : Rfx → Rfx) : (s.setRfx f).pending = s.pending := rfl
@[simp] theorem State.setRfx_ticks (f : Rfx → Rfx) : (s.setRfx f).ticks = s.ticks := rfl
@[simp] theorem State.setRfx_freeCtr (f : Rfx → Rfx) : (s.setRfx f).freeCtr = s.freeCtr := rfl
@[simp] theorem State.setRfx_csr (f : Rfx → Rfx) : (s.setRfx f).csr = s.csr := rfl
@[simp] theorem State.setRfx_mem (f : Rfx → Rfx) : (s.setRfx f).mem = s.mem := rfl
@[simp] theorem State.setRfx_island (f : Rfx → Rfx) : (s.setRfx f).island = s.island := rfl
@[simp] theorem State.setRfx_hp (f : Rfx → Rfx) : (s.setRfx f).hp = s.hp := rfl
@[simp] theorem State.setRfx_ccx (f : Rfx → Rfx) : (s.setRfx f).ccx = s.ccx := rfl
@[simp] theorem State.setRfx_gov (f : Rfx → Rfx) : (s.setRfx f).gov = s.gov := rfl
@[simp] theorem State.setRfx_pwr (f : Rfx → Rfx) : (s.setRfx f).pwr = s.pwr := rfl
@[simp] theorem State.setRfx_tnu (f : Rfx → Rfx) : (s.setRfx f).tnu = s.tnu := rfl
@[simp] theorem State.setRfx_tar (f : Rfx → Rfx) : (s.setRfx f).tar = s.tar := rfl
@[simp] theorem State.setRfx_siu (f : Rfx → Rfx) : (s.setRfx f).siu = s.siu := rfl
@[simp] theorem State.setRfx_chn (f : Rfx → Rfx) : (s.setRfx f).chn = s.chn := rfl
@[simp] theorem State.setRfx_trk (f : Rfx → Rfx) : (s.setRfx f).trk = s.trk := rfl
@[simp] theorem State.setRfx_pln (f : Rfx → Rfx) : (s.setRfx f).pln = s.pln := rfl
@[simp] theorem State.setRfx_mmv (f : Rfx → Rfx) : (s.setRfx f).mmv = s.mmv := rfl
@[simp] theorem State.setRfx_kv (f : Rfx → Rfx) : (s.setRfx f).kv = s.kv := rfl
@[simp] theorem State.setRfx_out (f : Rfx → Rfx) : (s.setRfx f).out = s.out := rfl
@[simp] theorem State.setRfx_reg (f : Rfx → Rfx) (rr : Reg) : (s.setRfx f).reg rr = s.reg rr := rfl
@[simp] theorem State.setRfx_rdByte (f : Rfx → Rfx) (aa : Nat) : (s.setRfx f).rdByte aa = s.rdByte aa := rfl

/-! State.setSec -/
@[simp] theorem State.setSec_pending (f : Sec → Sec) : (s.setSec f).pending = s.pending := rfl
@[simp] theorem State.setSec_ticks (f : Sec → Sec) : (s.setSec f).ticks = s.ticks := rfl
@[simp] theorem State.setSec_freeCtr (f : Sec → Sec) : (s.setSec f).freeCtr = s.freeCtr := rfl
@[simp] theorem State.setSec_csr (f : Sec → Sec) : (s.setSec f).csr = s.csr := rfl
@[simp] theorem State.setSec_mem (f : Sec → Sec) : (s.setSec f).mem = s.mem := rfl
@[simp] theorem State.setSec_island (f : Sec → Sec) : (s.setSec f).island = s.island := rfl
@[simp] theorem State.setSec_hp (f : Sec → Sec) : (s.setSec f).hp = s.hp := rfl
@[simp] theorem State.setSec_ccx (f : Sec → Sec) : (s.setSec f).ccx = s.ccx := rfl
@[simp] theorem State.setSec_gov (f : Sec → Sec) : (s.setSec f).gov = s.gov := rfl
@[simp] theorem State.setSec_pwr (f : Sec → Sec) : (s.setSec f).pwr = s.pwr := rfl
@[simp] theorem State.setSec_tnu (f : Sec → Sec) : (s.setSec f).tnu = s.tnu := rfl
@[simp] theorem State.setSec_tar (f : Sec → Sec) : (s.setSec f).tar = s.tar := rfl
@[simp] theorem State.setSec_siu (f : Sec → Sec) : (s.setSec f).siu = s.siu := rfl
@[simp] theorem State.setSec_chn (f : Sec → Sec) : (s.setSec f).chn = s.chn := rfl
@[simp] theorem State.setSec_trk (f : Sec → Sec) : (s.setSec f).trk = s.trk := rfl
@[simp] theorem State.setSec_pln (f : Sec → Sec) : (s.setSec f).pln = s.pln := rfl
@[simp] theorem State.setSec_mmv (f : Sec → Sec) : (s.setSec f).mmv = s.mmv := rfl
@[simp] theorem State.setSec_kv (f : Sec → Sec) : (s.setSec f).kv = s.kv := rfl
@[simp] theorem State.setSec_out (f : Sec → Sec) : (s.setSec f).out = s.out := rfl
@[simp] theorem State.setSec_reg (f : Sec → Sec) (rr : Reg) : (s.setSec f).reg rr = s.reg rr := rfl
@[simp] theorem State.setSec_rdByte (f : Sec → Sec) (aa : Nat) : (s.setSec f).rdByte aa = s.rdByte aa := rfl

/-! State.modStandby -/
@[simp] theorem State.modStandby_pending (f : Standby → Standby) : (s.modStandby f).pending = s.pending := rfl
@[simp] theorem State.modStandby_ticks (f : Standby → Standby) : (s.modStandby f).ticks = s.ticks := rfl
@[simp] theorem State.modStandby_freeCtr (f : Standby → Standby) : (s.modStandby f).freeCtr = s.freeCtr := rfl
@[simp] theorem State.modStandby_csr (f : Standby → Standby) : (s.modStandby f).csr = s.csr := rfl
@[simp] theorem State.modStandby_mem (f : Standby → Standby) : (s.modStandby f).mem = s.mem := rfl
@[simp] theorem State.modStandby_island (f : Standby → Standby) : (s.modStandby f).island = s.island := rfl
@[simp] theorem State.modStandby_hp (f : Standby → Standby) : (s.modStandby f).hp = s.hp := rfl
@[simp] theorem State.modStandby_ccx (f : Standby → Standby) : (s.modStandby f).ccx = s.ccx := rfl
@[simp] theorem State.modStandby_gov (f : Standby → Standby) : (s.modStandby f).gov = s.gov := rfl
@[simp] theorem State.modStandby_pwr (f : Standby → Standby) : (s.modStandby f).pwr = s.pwr := rfl
@[simp] theorem State.modStandby_tnu (f : Standby → Standby) : (s.modStandby f).tnu = s.tnu := rfl
@[simp] theorem State.modStandby_tar (f : Standby → Standby) : (s.modStandby f).tar = s.tar := rfl
@[simp] theorem State.modStandby_siu (f : Standby → Standby) : (s.modStandby f).siu = s.siu := rfl
@[simp] theorem State.modStandby_chn (f : Standby → Standby) : (s.modStandby f).chn = s.chn := rfl
@[simp] theorem State.modStandby_trk (f : Standby → Standby) : (s.modStandby f).trk = s.trk := rfl
@[simp] theorem State.modStandby_pln (f : Standby → Standby) : (s.modStandby f).pln = s.pln := rfl
@[simp] theorem State.modStandby_mmv (f : Standby → Standby) : (s.modStandby f).mmv = s.mmv := rfl
@[simp] theorem State.modStandby_kv (f : Standby → Standby) : (s.modStandby f).kv = s.kv := rfl
@[simp] theorem State.modStandby_out (f : Standby → Standby) : (s.modStandby f).out = s.out := rfl
@[simp] theorem State.modStandby_reg (f : Standby → Standby) (rr : Reg) : (s.modStandby f).reg rr = s.reg rr := rfl
@[simp] theorem State.modStandby_rdByte (f : Standby → Standby) (aa : Nat) : (s.modStandby f).rdByte aa = s.rdByte aa := rfl

/-! State.setLoop -/
@[simp] theorem State.setLoop_pending (n : Nat) (l : Loop) : (s.setLoop n l).pending = s.pending := rfl
@[simp] theorem State.setLoop_ticks (n : Nat) (l : Loop) : (s.setLoop n l).ticks = s.ticks := rfl
@[simp] theorem State.setLoop_freeCtr (n : Nat) (l : Loop) : (s.setLoop n l).freeCtr = s.freeCtr := rfl
@[simp] theorem State.setLoop_csr (n : Nat) (l : Loop) : (s.setLoop n l).csr = s.csr := rfl
@[simp] theorem State.setLoop_mem (n : Nat) (l : Loop) : (s.setLoop n l).mem = s.mem := rfl
@[simp] theorem State.setLoop_island (n : Nat) (l : Loop) : (s.setLoop n l).island = s.island := rfl
@[simp] theorem State.setLoop_hp (n : Nat) (l : Loop) : (s.setLoop n l).hp = s.hp := rfl
@[simp] theorem State.setLoop_ccx (n : Nat) (l : Loop) : (s.setLoop n l).ccx = s.ccx := rfl
@[simp] theorem State.setLoop_gov (n : Nat) (l : Loop) : (s.setLoop n l).gov = s.gov := rfl
@[simp] theorem State.setLoop_pwr (n : Nat) (l : Loop) : (s.setLoop n l).pwr = s.pwr := rfl
@[simp] theorem State.setLoop_tnu (n : Nat) (l : Loop) : (s.setLoop n l).tnu = s.tnu := rfl
@[simp] theorem State.setLoop_tar (n : Nat) (l : Loop) : (s.setLoop n l).tar = s.tar := rfl
@[simp] theorem State.setLoop_siu (n : Nat) (l : Loop) : (s.setLoop n l).siu = s.siu := rfl
@[simp] theorem State.setLoop_chn (n : Nat) (l : Loop) : (s.setLoop n l).chn = s.chn := rfl
@[simp] theorem State.setLoop_trk (n : Nat) (l : Loop) : (s.setLoop n l).trk = s.trk := rfl
@[simp] theorem State.setLoop_pln (n : Nat) (l : Loop) : (s.setLoop n l).pln = s.pln := rfl
@[simp] theorem State.setLoop_mmv (n : Nat) (l : Loop) : (s.setLoop n l).mmv = s.mmv := rfl
@[simp] theorem State.setLoop_kv (n : Nat) (l : Loop) : (s.setLoop n l).kv = s.kv := rfl
@[simp] theorem State.setLoop_out (n : Nat) (l : Loop) : (s.setLoop n l).out = s.out := rfl
@[simp] theorem State.setLoop_reg (n : Nat) (l : Loop) (rr : Reg) : (s.setLoop n l).reg rr = s.reg rr := rfl
@[simp] theorem State.setLoop_rdByte (n : Nat) (l : Loop) (aa : Nat) : (s.setLoop n l).rdByte aa = s.rdByte aa := rfl

/-! State.modPwr -/
@[simp] theorem State.modPwr_pending (f : Pwr → Pwr) : (s.modPwr f).pending = s.pending := rfl
@[simp] theorem State.modPwr_ticks (f : Pwr → Pwr) : (s.modPwr f).ticks = s.ticks := rfl
@[simp] theorem State.modPwr_freeCtr (f : Pwr → Pwr) : (s.modPwr f).freeCtr = s.freeCtr := rfl
@[simp] theorem State.modPwr_csr (f : Pwr → Pwr) : (s.modPwr f).csr = s.csr := rfl
@[simp] theorem State.modPwr_mem (f : Pwr → Pwr) : (s.modPwr f).mem = s.mem := rfl
@[simp] theorem State.modPwr_island (f : Pwr → Pwr) : (s.modPwr f).island = s.island := rfl
@[simp] theorem State.modPwr_hp (f : Pwr → Pwr) : (s.modPwr f).hp = s.hp := rfl
@[simp] theorem State.modPwr_ccx (f : Pwr → Pwr) : (s.modPwr f).ccx = s.ccx := rfl
@[simp] theorem State.modPwr_gov (f : Pwr → Pwr) : (s.modPwr f).gov = s.gov := rfl
@[simp] theorem State.modPwr_tnu (f : Pwr → Pwr) : (s.modPwr f).tnu = s.tnu := rfl
@[simp] theorem State.modPwr_tar (f : Pwr → Pwr) : (s.modPwr f).tar = s.tar := rfl
@[simp] theorem State.modPwr_siu (f : Pwr → Pwr) : (s.modPwr f).siu = s.siu := rfl
@[simp] theorem State.modPwr_chn (f : Pwr → Pwr) : (s.modPwr f).chn = s.chn := rfl
@[simp] theorem State.modPwr_trk (f : Pwr → Pwr) : (s.modPwr f).trk = s.trk := rfl
@[simp] theorem State.modPwr_pln (f : Pwr → Pwr) : (s.modPwr f).pln = s.pln := rfl
@[simp] theorem State.modPwr_mmv (f : Pwr → Pwr) : (s.modPwr f).mmv = s.mmv := rfl
@[simp] theorem State.modPwr_kv (f : Pwr → Pwr) : (s.modPwr f).kv = s.kv := rfl
@[simp] theorem State.modPwr_ssi (f : Pwr → Pwr) : (s.modPwr f).ssi = s.ssi := rfl
@[simp] theorem State.modPwr_out (f : Pwr → Pwr) : (s.modPwr f).out = s.out := rfl
@[simp] theorem State.modPwr_reg (f : Pwr → Pwr) (rr : Reg) : (s.modPwr f).reg rr = s.reg rr := rfl
@[simp] theorem State.modPwr_rdByte (f : Pwr → Pwr) (aa : Nat) : (s.modPwr f).rdByte aa = s.rdByte aa := rfl

/-! State.setPwrBit -/
@[simp] theorem State.setPwrBit_pending (i : Nat) (v : Bool) : (s.setPwrBit i v).pending = s.pending := rfl
@[simp] theorem State.setPwrBit_ticks (i : Nat) (v : Bool) : (s.setPwrBit i v).ticks = s.ticks := rfl
@[simp] theorem State.setPwrBit_freeCtr (i : Nat) (v : Bool) : (s.setPwrBit i v).freeCtr = s.freeCtr := rfl
@[simp] theorem State.setPwrBit_mem (i : Nat) (v : Bool) : (s.setPwrBit i v).mem = s.mem := rfl
@[simp] theorem State.setPwrBit_island (i : Nat) (v : Bool) : (s.setPwrBit i v).island = s.island := rfl
@[simp] theorem State.setPwrBit_hp (i : Nat) (v : Bool) : (s.setPwrBit i v).hp = s.hp := rfl
@[simp] theorem State.setPwrBit_ccx (i : Nat) (v : Bool) : (s.setPwrBit i v).ccx = s.ccx := rfl
@[simp] theorem State.setPwrBit_gov (i : Nat) (v : Bool) : (s.setPwrBit i v).gov = s.gov := rfl
@[simp] theorem State.setPwrBit_pwr (i : Nat) (v : Bool) : (s.setPwrBit i v).pwr = s.pwr := rfl
@[simp] theorem State.setPwrBit_tnu (i : Nat) (v : Bool) : (s.setPwrBit i v).tnu = s.tnu := rfl
@[simp] theorem State.setPwrBit_tar (i : Nat) (v : Bool) : (s.setPwrBit i v).tar = s.tar := rfl
@[simp] theorem State.setPwrBit_siu (i : Nat) (v : Bool) : (s.setPwrBit i v).siu = s.siu := rfl
@[simp] theorem State.setPwrBit_chn (i : Nat) (v : Bool) : (s.setPwrBit i v).chn = s.chn := rfl
@[simp] theorem State.setPwrBit_trk (i : Nat) (v : Bool) : (s.setPwrBit i v).trk = s.trk := rfl
@[simp] theorem State.setPwrBit_pln (i : Nat) (v : Bool) : (s.setPwrBit i v).pln = s.pln := rfl
@[simp] theorem State.setPwrBit_mmv (i : Nat) (v : Bool) : (s.setPwrBit i v).mmv = s.mmv := rfl
@[simp] theorem State.setPwrBit_kv (i : Nat) (v : Bool) : (s.setPwrBit i v).kv = s.kv := rfl
@[simp] theorem State.setPwrBit_ssi (i : Nat) (v : Bool) : (s.setPwrBit i v).ssi = s.ssi := rfl
@[simp] theorem State.setPwrBit_out (i : Nat) (v : Bool) : (s.setPwrBit i v).out = s.out := rfl
@[simp] theorem State.setPwrBit_rdByte (i : Nat) (v : Bool) (aa : Nat) : (s.setPwrBit i v).rdByte aa = s.rdByte aa := rfl

/-! State.linkTo -/
@[simp] theorem State.linkTo_pending (p st : Nat) : (s.linkTo p st).pending = s.pending := rfl
@[simp] theorem State.linkTo_ticks (p st : Nat) : (s.linkTo p st).ticks = s.ticks := rfl
@[simp] theorem State.linkTo_freeCtr (p st : Nat) : (s.linkTo p st).freeCtr = s.freeCtr := rfl
@[simp] theorem State.linkTo_mem (p st : Nat) : (s.linkTo p st).mem = s.mem := rfl
@[simp] theorem State.linkTo_island (p st : Nat) : (s.linkTo p st).island = s.island := rfl
@[simp] theorem State.linkTo_hp (p st : Nat) : (s.linkTo p st).hp = s.hp := rfl
@[simp] theorem State.linkTo_ccx (p st : Nat) : (s.linkTo p st).ccx = s.ccx := rfl
@[simp] theorem State.linkTo_gov (p st : Nat) : (s.linkTo p st).gov = s.gov := rfl
@[simp] theorem State.linkTo_pwr (p st : Nat) : (s.linkTo p st).pwr = s.pwr := rfl
@[simp] theorem State.linkTo_tnu (p st : Nat) : (s.linkTo p st).tnu = s.tnu := rfl
@[simp] theorem State.linkTo_tar (p st : Nat) : (s.linkTo p st).tar = s.tar := rfl
@[simp] theorem State.linkTo_siu (p st : Nat) : (s.linkTo p st).siu = s.siu := rfl
@[simp] theorem State.linkTo_chn (p st : Nat) : (s.linkTo p st).chn = s.chn := rfl
@[simp] theorem State.linkTo_trk (p st : Nat) : (s.linkTo p st).trk = s.trk := rfl
@[simp] theorem State.linkTo_pln (p st : Nat) : (s.linkTo p st).pln = s.pln := rfl
@[simp] theorem State.linkTo_mmv (p st : Nat) : (s.linkTo p st).mmv = s.mmv := rfl
@[simp] theorem State.linkTo_kv (p st : Nat) : (s.linkTo p st).kv = s.kv := rfl
@[simp] theorem State.linkTo_ssi (p st : Nat) : (s.linkTo p st).ssi = s.ssi := rfl
@[simp] theorem State.linkTo_out (p st : Nat) : (s.linkTo p st).out = s.out := rfl
@[simp] theorem State.linkTo_rdByte (p st : Nat) (aa : Nat) : (s.linkTo p st).rdByte aa = s.rdByte aa := rfl

/-! State.linkReason -/
@[simp] theorem State.linkReason_pending (p r : Nat) : (s.linkReason p r).pending = s.pending := rfl
@[simp] theorem State.linkReason_ticks (p r : Nat) : (s.linkReason p r).ticks = s.ticks := rfl
@[simp] theorem State.linkReason_freeCtr (p r : Nat) : (s.linkReason p r).freeCtr = s.freeCtr := rfl
@[simp] theorem State.linkReason_mem (p r : Nat) : (s.linkReason p r).mem = s.mem := rfl
@[simp] theorem State.linkReason_island (p r : Nat) : (s.linkReason p r).island = s.island := rfl
@[simp] theorem State.linkReason_hp (p r : Nat) : (s.linkReason p r).hp = s.hp := rfl
@[simp] theorem State.linkReason_ccx (p r : Nat) : (s.linkReason p r).ccx = s.ccx := rfl
@[simp] theorem State.linkReason_gov (p r : Nat) : (s.linkReason p r).gov = s.gov := rfl
@[simp] theorem State.linkReason_pwr (p r : Nat) : (s.linkReason p r).pwr = s.pwr := rfl
@[simp] theorem State.linkReason_tnu (p r : Nat) : (s.linkReason p r).tnu = s.tnu := rfl
@[simp] theorem State.linkReason_tar (p r : Nat) : (s.linkReason p r).tar = s.tar := rfl
@[simp] theorem State.linkReason_siu (p r : Nat) : (s.linkReason p r).siu = s.siu := rfl
@[simp] theorem State.linkReason_chn (p r : Nat) : (s.linkReason p r).chn = s.chn := rfl
@[simp] theorem State.linkReason_trk (p r : Nat) : (s.linkReason p r).trk = s.trk := rfl
@[simp] theorem State.linkReason_pln (p r : Nat) : (s.linkReason p r).pln = s.pln := rfl
@[simp] theorem State.linkReason_mmv (p r : Nat) : (s.linkReason p r).mmv = s.mmv := rfl
@[simp] theorem State.linkReason_kv (p r : Nat) : (s.linkReason p r).kv = s.kv := rfl
@[simp] theorem State.linkReason_ssi (p r : Nat) : (s.linkReason p r).ssi = s.ssi := rfl
@[simp] theorem State.linkReason_out (p r : Nat) : (s.linkReason p r).out = s.out := rfl
@[simp] theorem State.linkReason_rdByte (p r : Nat) (aa : Nat) : (s.linkReason p r).rdByte aa = s.rdByte aa := rfl

/-! State.setStrm -/
@[simp] theorem State.setStrm_pending (n : Nat) (x : Strm) : (s.setStrm n x).pending = s.pending := rfl
@[simp] theorem State.setStrm_ticks (n : Nat) (x : Strm) : (s.setStrm n x).ticks = s.ticks := rfl
@[simp] theorem State.setStrm_freeCtr (n : Nat) (x : Strm) : (s.setStrm n x).freeCtr = s.freeCtr := rfl
@[simp] theorem State.setStrm_csr (n : Nat) (x : Strm) : (s.setStrm n x).csr = s.csr := rfl
@[simp] theorem State.setStrm_mem (n : Nat) (x : Strm) : (s.setStrm n x).mem = s.mem := rfl
@[simp] theorem State.setStrm_island (n : Nat) (x : Strm) : (s.setStrm n x).island = s.island := rfl
@[simp] theorem State.setStrm_hp (n : Nat) (x : Strm) : (s.setStrm n x).hp = s.hp := rfl
@[simp] theorem State.setStrm_ccx (n : Nat) (x : Strm) : (s.setStrm n x).ccx = s.ccx := rfl
@[simp] theorem State.setStrm_gov (n : Nat) (x : Strm) : (s.setStrm n x).gov = s.gov := rfl
@[simp] theorem State.setStrm_pwr (n : Nat) (x : Strm) : (s.setStrm n x).pwr = s.pwr := rfl
@[simp] theorem State.setStrm_tnu (n : Nat) (x : Strm) : (s.setStrm n x).tnu = s.tnu := rfl
@[simp] theorem State.setStrm_tar (n : Nat) (x : Strm) : (s.setStrm n x).tar = s.tar := rfl
@[simp] theorem State.setStrm_chn (n : Nat) (x : Strm) : (s.setStrm n x).chn = s.chn := rfl
@[simp] theorem State.setStrm_trk (n : Nat) (x : Strm) : (s.setStrm n x).trk = s.trk := rfl
@[simp] theorem State.setStrm_pln (n : Nat) (x : Strm) : (s.setStrm n x).pln = s.pln := rfl
@[simp] theorem State.setStrm_mmv (n : Nat) (x : Strm) : (s.setStrm n x).mmv = s.mmv := rfl
@[simp] theorem State.setStrm_kv (n : Nat) (x : Strm) : (s.setStrm n x).kv = s.kv := rfl
@[simp] theorem State.setStrm_ssi (n : Nat) (x : Strm) : (s.setStrm n x).ssi = s.ssi := rfl
@[simp] theorem State.setStrm_out (n : Nat) (x : Strm) : (s.setStrm n x).out = s.out := rfl
@[simp] theorem State.setStrm_reg (n : Nat) (x : Strm) (rr : Reg) : (s.setStrm n x).reg rr = s.reg rr := rfl
@[simp] theorem State.setStrm_rdByte (n : Nat) (x : Strm) (aa : Nat) : (s.setStrm n x).rdByte aa = s.rdByte aa := rfl

/-! State.modStrm -/
@[simp] theorem State.modStrm_pending (n : Nat) (f : Strm → Strm) : (s.modStrm n f).pending = s.pending := rfl
@[simp] theorem State.modStrm_ticks (n : Nat) (f : Strm → Strm) : (s.modStrm n f).ticks = s.ticks := rfl
@[simp] theorem State.modStrm_freeCtr (n : Nat) (f : Strm → Strm) : (s.modStrm n f).freeCtr = s.freeCtr := rfl
@[simp] theorem State.modStrm_csr (n : Nat) (f : Strm → Strm) : (s.modStrm n f).csr = s.csr := rfl
@[simp] theorem State.modStrm_mem (n : Nat) (f : Strm → Strm) : (s.modStrm n f).mem = s.mem := rfl
@[simp] theorem State.modStrm_island (n : Nat) (f : Strm → Strm) : (s.modStrm n f).island = s.island := rfl
@[simp] theorem State.modStrm_hp (n : Nat) (f : Strm → Strm) : (s.modStrm n f).hp = s.hp := rfl
@[simp] theorem State.modStrm_ccx (n : Nat) (f : Strm → Strm) : (s.modStrm n f).ccx = s.ccx := rfl
@[simp] theorem State.modStrm_gov (n : Nat) (f : Strm → Strm) : (s.modStrm n f).gov = s.gov := rfl
@[simp] theorem State.modStrm_pwr (n : Nat) (f : Strm → Strm) : (s.modStrm n f).pwr = s.pwr := rfl
@[simp] theorem State.modStrm_tnu (n : Nat) (f : Strm → Strm) : (s.modStrm n f).tnu = s.tnu := rfl
@[simp] theorem State.modStrm_tar (n : Nat) (f : Strm → Strm) : (s.modStrm n f).tar = s.tar := rfl
@[simp] theorem State.modStrm_chn (n : Nat) (f : Strm → Strm) : (s.modStrm n f).chn = s.chn := rfl
@[simp] theorem State.modStrm_trk (n : Nat) (f : Strm → Strm) : (s.modStrm n f).trk = s.trk := rfl
@[simp] theorem State.modStrm_pln (n : Nat) (f : Strm → Strm) : (s.modStrm n f).pln = s.pln := rfl
@[simp] theorem State.modStrm_mmv (n : Nat) (f : Strm → Strm) : (s.modStrm n f).mmv = s.mmv := rfl
@[simp] theorem State.modStrm_kv (n : Nat) (f : Strm → Strm) : (s.modStrm n f).kv = s.kv := rfl
@[simp] theorem State.modStrm_ssi (n : Nat) (f : Strm → Strm) : (s.modStrm n f).ssi = s.ssi := rfl
@[simp] theorem State.modStrm_out (n : Nat) (f : Strm → Strm) : (s.modStrm n f).out = s.out := rfl
@[simp] theorem State.modStrm_reg (n : Nat) (f : Strm → Strm) (rr : Reg) : (s.modStrm n f).reg rr = s.reg rr := rfl
@[simp] theorem State.modStrm_rdByte (n : Nat) (f : Strm → Strm) (aa : Nat) : (s.modStrm n f).rdByte aa = s.rdByte aa := rfl

/-! State.setGey -/
@[simp] theorem State.setGey_pending (i : Nat) (e : Gey) : (s.setGey i e).pending = s.pending := rfl
@[simp] theorem State.setGey_ticks (i : Nat) (e : Gey) : (s.setGey i e).ticks = s.ticks := rfl
@[simp] theorem State.setGey_freeCtr (i : Nat) (e : Gey) : (s.setGey i e).freeCtr = s.freeCtr := rfl
@[simp] theorem State.setGey_mem (i : Nat) (e : Gey) : (s.setGey i e).mem = s.mem := rfl
@[simp] theorem State.setGey_island (i : Nat) (e : Gey) : (s.setGey i e).island = s.island := rfl
@[simp] theorem State.setGey_hp (i : Nat) (e : Gey) : (s.setGey i e).hp = s.hp := rfl
@[simp] theorem State.setGey_ccx (i : Nat) (e : Gey) : (s.setGey i e).ccx = s.ccx := rfl
@[simp] theorem State.setGey_gov (i : Nat) (e : Gey) : (s.setGey i e).gov = s.gov := rfl
@[simp] theorem State.setGey_pwr (i : Nat) (e : Gey) : (s.setGey i e).pwr = s.pwr := rfl
@[simp] theorem State.setGey_tar (i : Nat) (e : Gey) : (s.setGey i e).tar = s.tar := rfl
@[simp] theorem State.setGey_siu (i : Nat) (e : Gey) : (s.setGey i e).siu = s.siu := rfl
@[simp] theorem State.setGey_chn (i : Nat) (e : Gey) : (s.setGey i e).chn = s.chn := rfl
@[simp] theorem State.setGey_trk (i : Nat) (e : Gey) : (s.setGey i e).trk = s.trk := rfl
@[simp] theorem State.setGey_pln (i : Nat) (e : Gey) : (s.setGey i e).pln = s.pln := rfl
@[simp] theorem State.setGey_mmv (i : Nat) (e : Gey) : (s.setGey i e).mmv = s.mmv := rfl
@[simp] theorem State.setGey_kv (i : Nat) (e : Gey) : (s.setGey i e).kv = s.kv := rfl
@[simp] theorem State.setGey_ssi (i : Nat) (e : Gey) : (s.setGey i e).ssi = s.ssi := rfl
@[simp] theorem State.setGey_out (i : Nat) (e : Gey) : (s.setGey i e).out = s.out := rfl
@[simp] theorem State.setGey_rdByte (i : Nat) (e : Gey) (aa : Nat) : (s.setGey i e).rdByte aa = s.rdByte aa := rfl

/-! State.setSched -/
@[simp] theorem State.setSched_pending (i : Nat) (x : Sched) : (s.setSched i x).pending = s.pending := rfl
@[simp] theorem State.setSched_ticks (i : Nat) (x : Sched) : (s.setSched i x).ticks = s.ticks := rfl
@[simp] theorem State.setSched_freeCtr (i : Nat) (x : Sched) : (s.setSched i x).freeCtr = s.freeCtr := rfl
@[simp] theorem State.setSched_csr (i : Nat) (x : Sched) : (s.setSched i x).csr = s.csr := rfl
@[simp] theorem State.setSched_mem (i : Nat) (x : Sched) : (s.setSched i x).mem = s.mem := rfl
@[simp] theorem State.setSched_island (i : Nat) (x : Sched) : (s.setSched i x).island = s.island := rfl
@[simp] theorem State.setSched_hp (i : Nat) (x : Sched) : (s.setSched i x).hp = s.hp := rfl
@[simp] theorem State.setSched_ccx (i : Nat) (x : Sched) : (s.setSched i x).ccx = s.ccx := rfl
@[simp] theorem State.setSched_gov (i : Nat) (x : Sched) : (s.setSched i x).gov = s.gov := rfl
@[simp] theorem State.setSched_pwr (i : Nat) (x : Sched) : (s.setSched i x).pwr = s.pwr := rfl
@[simp] theorem State.setSched_tnu (i : Nat) (x : Sched) : (s.setSched i x).tnu = s.tnu := rfl
@[simp] theorem State.setSched_tar (i : Nat) (x : Sched) : (s.setSched i x).tar = s.tar := rfl
@[simp] theorem State.setSched_siu (i : Nat) (x : Sched) : (s.setSched i x).siu = s.siu := rfl
@[simp] theorem State.setSched_trk (i : Nat) (x : Sched) : (s.setSched i x).trk = s.trk := rfl
@[simp] theorem State.setSched_pln (i : Nat) (x : Sched) : (s.setSched i x).pln = s.pln := rfl
@[simp] theorem State.setSched_mmv (i : Nat) (x : Sched) : (s.setSched i x).mmv = s.mmv := rfl
@[simp] theorem State.setSched_kv (i : Nat) (x : Sched) : (s.setSched i x).kv = s.kv := rfl
@[simp] theorem State.setSched_ssi (i : Nat) (x : Sched) : (s.setSched i x).ssi = s.ssi := rfl
@[simp] theorem State.setSched_out (i : Nat) (x : Sched) : (s.setSched i x).out = s.out := rfl
@[simp] theorem State.setSched_reg (i : Nat) (x : Sched) (rr : Reg) : (s.setSched i x).reg rr = s.reg rr := rfl
@[simp] theorem State.setSched_rdByte (i : Nat) (x : Sched) (aa : Nat) : (s.setSched i x).rdByte aa = s.rdByte aa := rfl

/-! State.modSched -/
@[simp] theorem State.modSched_pending (i : Nat) (f : Sched → Sched) : (s.modSched i f).pending = s.pending := rfl
@[simp] theorem State.modSched_ticks (i : Nat) (f : Sched → Sched) : (s.modSched i f).ticks = s.ticks := rfl
@[simp] theorem State.modSched_freeCtr (i : Nat) (f : Sched → Sched) : (s.modSched i f).freeCtr = s.freeCtr := rfl
@[simp] theorem State.modSched_csr (i : Nat) (f : Sched → Sched) : (s.modSched i f).csr = s.csr := rfl
@[simp] theorem State.modSched_mem (i : Nat) (f : Sched → Sched) : (s.modSched i f).mem = s.mem := rfl
@[simp] theorem State.modSched_island (i : Nat) (f : Sched → Sched) : (s.modSched i f).island = s.island := rfl
@[simp] theorem State.modSched_hp (i : Nat) (f : Sched → Sched) : (s.modSched i f).hp = s.hp := rfl
@[simp] theorem State.modSched_ccx (i : Nat) (f : Sched → Sched) : (s.modSched i f).ccx = s.ccx := rfl
@[simp] theorem State.modSched_gov (i : Nat) (f : Sched → Sched) : (s.modSched i f).gov = s.gov := rfl
@[simp] theorem State.modSched_pwr (i : Nat) (f : Sched → Sched) : (s.modSched i f).pwr = s.pwr := rfl
@[simp] theorem State.modSched_tnu (i : Nat) (f : Sched → Sched) : (s.modSched i f).tnu = s.tnu := rfl
@[simp] theorem State.modSched_tar (i : Nat) (f : Sched → Sched) : (s.modSched i f).tar = s.tar := rfl
@[simp] theorem State.modSched_siu (i : Nat) (f : Sched → Sched) : (s.modSched i f).siu = s.siu := rfl
@[simp] theorem State.modSched_trk (i : Nat) (f : Sched → Sched) : (s.modSched i f).trk = s.trk := rfl
@[simp] theorem State.modSched_pln (i : Nat) (f : Sched → Sched) : (s.modSched i f).pln = s.pln := rfl
@[simp] theorem State.modSched_mmv (i : Nat) (f : Sched → Sched) : (s.modSched i f).mmv = s.mmv := rfl
@[simp] theorem State.modSched_kv (i : Nat) (f : Sched → Sched) : (s.modSched i f).kv = s.kv := rfl
@[simp] theorem State.modSched_ssi (i : Nat) (f : Sched → Sched) : (s.modSched i f).ssi = s.ssi := rfl
@[simp] theorem State.modSched_out (i : Nat) (f : Sched → Sched) : (s.modSched i f).out = s.out := rfl
@[simp] theorem State.modSched_reg (i : Nat) (f : Sched → Sched) (rr : Reg) : (s.modSched i f).reg rr = s.reg rr := rfl
@[simp] theorem State.modSched_rdByte (i : Nat) (f : Sched → Sched) (aa : Nat) : (s.modSched i f).rdByte aa = s.rdByte aa := rfl

/-! State.clearMem -/
@[simp] theorem State.clearMem_pending (lo size : Nat) : (s.clearMem lo size).pending = s.pending := rfl
@[simp] theorem State.clearMem_ticks (lo size : Nat) : (s.clearMem lo size).ticks = s.ticks := rfl
@[simp] theorem State.clearMem_freeCtr (lo size : Nat) : (s.clearMem lo size).freeCtr = s.freeCtr := rfl
@[simp] theorem State.clearMem_csr (lo size : Nat) : (s.clearMem lo size).csr = s.csr := rfl
@[simp] theorem State.clearMem_island (lo size : Nat) : (s.clearMem lo size).island = s.island := rfl
@[simp] theorem State.clearMem_hp (lo size : Nat) : (s.clearMem lo size).hp = s.hp := rfl
@[simp] theorem State.clearMem_ccx (lo size : Nat) : (s.clearMem lo size).ccx = s.ccx := rfl
@[simp] theorem State.clearMem_gov (lo size : Nat) : (s.clearMem lo size).gov = s.gov := rfl
@[simp] theorem State.clearMem_pwr (lo size : Nat) : (s.clearMem lo size).pwr = s.pwr := rfl
@[simp] theorem State.clearMem_tnu (lo size : Nat) : (s.clearMem lo size).tnu = s.tnu := rfl
@[simp] theorem State.clearMem_tar (lo size : Nat) : (s.clearMem lo size).tar = s.tar := rfl
@[simp] theorem State.clearMem_siu (lo size : Nat) : (s.clearMem lo size).siu = s.siu := rfl
@[simp] theorem State.clearMem_chn (lo size : Nat) : (s.clearMem lo size).chn = s.chn := rfl
@[simp] theorem State.clearMem_trk (lo size : Nat) : (s.clearMem lo size).trk = s.trk := rfl
@[simp] theorem State.clearMem_pln (lo size : Nat) : (s.clearMem lo size).pln = s.pln := rfl
@[simp] theorem State.clearMem_mmv (lo size : Nat) : (s.clearMem lo size).mmv = s.mmv := rfl
@[simp] theorem State.clearMem_kv (lo size : Nat) : (s.clearMem lo size).kv = s.kv := rfl
@[simp] theorem State.clearMem_ssi (lo size : Nat) : (s.clearMem lo size).ssi = s.ssi := rfl
@[simp] theorem State.clearMem_out (lo size : Nat) : (s.clearMem lo size).out = s.out := rfl
@[simp] theorem State.clearMem_reg (lo size : Nat) (rr : Reg) : (s.clearMem lo size).reg rr = s.reg rr := rfl

/-! State.clearPoison -/
@[simp] theorem State.clearPoison_pending (a n : Nat) : (s.clearPoison a n).pending = s.pending := rfl
@[simp] theorem State.clearPoison_ticks (a n : Nat) : (s.clearPoison a n).ticks = s.ticks := rfl
@[simp] theorem State.clearPoison_freeCtr (a n : Nat) : (s.clearPoison a n).freeCtr = s.freeCtr := rfl
@[simp] theorem State.clearPoison_csr (a n : Nat) : (s.clearPoison a n).csr = s.csr := rfl
@[simp] theorem State.clearPoison_mem (a n : Nat) : (s.clearPoison a n).mem = s.mem := rfl
@[simp] theorem State.clearPoison_island (a n : Nat) : (s.clearPoison a n).island = s.island := rfl
@[simp] theorem State.clearPoison_hp (a n : Nat) : (s.clearPoison a n).hp = s.hp := rfl
@[simp] theorem State.clearPoison_ccx (a n : Nat) : (s.clearPoison a n).ccx = s.ccx := rfl
@[simp] theorem State.clearPoison_gov (a n : Nat) : (s.clearPoison a n).gov = s.gov := rfl
@[simp] theorem State.clearPoison_tnu (a n : Nat) : (s.clearPoison a n).tnu = s.tnu := rfl
@[simp] theorem State.clearPoison_tar (a n : Nat) : (s.clearPoison a n).tar = s.tar := rfl
@[simp] theorem State.clearPoison_siu (a n : Nat) : (s.clearPoison a n).siu = s.siu := rfl
@[simp] theorem State.clearPoison_chn (a n : Nat) : (s.clearPoison a n).chn = s.chn := rfl
@[simp] theorem State.clearPoison_trk (a n : Nat) : (s.clearPoison a n).trk = s.trk := rfl
@[simp] theorem State.clearPoison_pln (a n : Nat) : (s.clearPoison a n).pln = s.pln := rfl
@[simp] theorem State.clearPoison_mmv (a n : Nat) : (s.clearPoison a n).mmv = s.mmv := rfl
@[simp] theorem State.clearPoison_kv (a n : Nat) : (s.clearPoison a n).kv = s.kv := rfl
@[simp] theorem State.clearPoison_ssi (a n : Nat) : (s.clearPoison a n).ssi = s.ssi := rfl
@[simp] theorem State.clearPoison_out (a n : Nat) : (s.clearPoison a n).out = s.out := rfl
@[simp] theorem State.clearPoison_reg (a n : Nat) (rr : Reg) : (s.clearPoison a n).reg rr = s.reg rr := rfl
@[simp] theorem State.clearPoison_rdByte (a n : Nat) (aa : Nat) : (s.clearPoison a n).rdByte aa = s.rdByte aa := rfl

end Sys2Proof.Machine
end

