-- ==== Sys2Proof/Laws/Memory.lean ====
section
/-! SUPPORT. Sparse tables and memories: a read after a write, and the canonical form that every write keeps. -/
namespace Sys2Proof.Machine

/-! One number -/

theorem sget_sdel_self {α : Type} (d : α) (m : List (Nat × α)) (k : Nat) : sget d (sdel m k) k = d := by
  induction m with
  | nil => rfl
  | cons e r ih =>
    obtain ⟨a, v⟩ := e
    by_cases h : a = k
    · simpa [sdel, h] using ih
    · simpa [sdel, sget, h] using ih

theorem sget_sdel_ne {α : Type} (d : α) (m : List (Nat × α)) {k j : Nat} (hj : j ≠ k) : sget d (sdel m k) j = sget d m j := by
  induction m with
  | nil => rfl
  | cons e r ih =>
    obtain ⟨a, v⟩ := e
    by_cases h : a = k
    · have : a ≠ j := fun q => hj (q ▸ h)
      simpa [sdel, sget, h, Ne.symm hj] using ih
    · by_cases q : a = j
      · simp [sdel, sget, q, hj]
      · simpa [sdel, sget, h, q] using ih

theorem sget_sins_self {α : Type} (d : α) (m : List (Nat × α)) (k : Nat) (v : α) (h : ∀ e ∈ m, e.1 ≠ k) : sget d (sins m k v) k = v := by
  induction m with
  | nil => simp [sins, sget]
  | cons e r ih =>
    obtain ⟨a, w⟩ := e
    have ha : a ≠ k := h (a, w) (by simp)
    by_cases q : k < a
    · simp [sins, sget, q]
    · simpa [sins, sget, q, ha] using ih fun e he => h e (by simp [he])

theorem sget_sins_ne {α : Type} (d : α) (m : List (Nat × α)) {k j : Nat} (v : α) (hj : j ≠ k) : sget d (sins m k v) j = sget d m j := by
  induction m with
  | nil => simp [sins, sget, Ne.symm hj]
  | cons e r ih =>
    obtain ⟨a, w⟩ := e
    by_cases q : k < a
    · simp [sins, sget, q, Ne.symm hj]
    · simp [sins, sget, q, ih]

theorem sdel_ne {α : Type} (m : List (Nat × α)) (k : Nat) : ∀ e ∈ sdel m k, e.1 ≠ k := by
  intro e he
  simpa [sdel] using (List.mem_filter.mp he).2

/-- A read of the number just written gives the value. -/
theorem sget_sset_self {α : Type} [DecidableEq α] (d : α) (m : List (Nat × α)) (k : Nat) (v : α) : sget d (sset d m k v) k = v := by
  unfold sset
  split
  · next h => simp [sget_sdel_self, h]
  · exact sget_sins_self d _ k v (sdel_ne m k)

/-- A write leaves every other number as it was. -/
theorem sget_sset_ne {α : Type} [DecidableEq α] (d : α) (m : List (Nat × α)) {k j : Nat} (v : α) (hj : j ≠ k) :
    sget d (sset d m k v) j = sget d m j := by
  unfold sset
  split
  · exact sget_sdel_ne d m hj
  · rw [sget_sins_ne d _ v hj, sget_sdel_ne d m hj]

/-! The canonical form -/

theorem risesFrom_mono {α : Type} {b c : Nat} (h : b ≤ c) : ∀ m : List (Nat × α), risesFrom (some c) m = true → risesFrom (some b) m = true
  | [], _ => rfl
  | (a, v) :: r, q => by simp only [risesFrom, Bool.and_eq_true, decide_eq_true_eq] at q ⊢; exact ⟨by omega, q.2⟩

theorem risesFrom_filter {α : Type} (p : Nat × α → Bool) : ∀ (o : Option Nat) (m : List (Nat × α)), risesFrom o m = true → risesFrom o (m.filter p) = true
  | _, [], _ => by cases ‹Option Nat› <;> rfl
  | none, (a, v) :: r, q => by
    have q : risesFrom (some a) r = true := q
    by_cases h : p (a, v) = true
    · simpa [List.filter, h, risesFrom] using risesFrom_filter p (some a) r q
    · have w := risesFrom_filter p (some a) r q
      simp only [List.filter, h]
      cases hr : r.filter p with
      | nil => rfl
      | cons e t => rw [hr] at w; obtain ⟨x, y⟩ := e; simp only [risesFrom, Bool.and_eq_true] at w ⊢; exact w.2
  | some b, (a, v) :: r, q => by
    simp only [risesFrom, Bool.and_eq_true, decide_eq_true_eq] at q
    have w := risesFrom_filter p (some a) r q.2
    by_cases h : p (a, v) = true
    · simp [List.filter, h, risesFrom, q.1, w]
    · simpa [List.filter, h] using risesFrom_mono (by omega) _ w

theorem risesFrom_sins {α : Type} (k : Nat) (v : α) :
    ∀ (o : Option Nat) (m : List (Nat × α)), (∀ b, o = some b → b < k) → (∀ e ∈ m, e.1 ≠ k) → risesFrom o m = true → risesFrom o (sins m k v) = true
  | none, [], _, _, _ => rfl
  | some b, [], hb, _, _ => by simp [sins, risesFrom, hb b rfl]
  | none, (a, w) :: r, _, hn, q => by
    have ha : a ≠ k := hn (a, w) (by simp)
    have q : risesFrom (some a) r = true := q
    by_cases h : k < a
    · simp [sins, h, risesFrom, q]
    · have := risesFrom_sins k v (some a) r (fun b hb => by cases hb; omega) (fun e he => hn e (by simp [he])) q
      simpa [sins, h, risesFrom] using this
  | some b, (a, w) :: r, hb, hn, q => by
    have ha : a ≠ k := hn (a, w) (by simp)
    simp only [risesFrom, Bool.and_eq_true, decide_eq_true_eq] at q
    have hk := hb b rfl
    by_cases h : k < a
    · simp [sins, h, risesFrom, q, hk]
    · have := risesFrom_sins k v (some a) r (fun b hb => by cases hb; omega) (fun e he => hn e (by simp [he])) q.2
      simp [sins, h, risesFrom, q.1, this]

theorem mem_sins {α : Type} (m : List (Nat × α)) (k : Nat) (v : α) (e : Nat × α) (h : e ∈ sins m k v) : e = (k, v) ∨ e ∈ m := by
  induction m with
  | nil => simpa [sins] using h
  | cons x r ih =>
    obtain ⟨a, w⟩ := x
    by_cases q : k < a
    · simpa [sins, q] using h
    · simp only [sins, q, if_false, List.mem_cons] at h
      rcases h with h | h
      · exact .inr (by simp [h])
      · rcases ih h with h | h
        · exact .inl h
        · exact .inr (by simp [h])

theorem swf_filter {α : Type} [DecidableEq α] (d : α) (m : List (Nat × α)) (p : Nat × α → Bool) (h : swf d m = true) : swf d (m.filter p) = true := by
  simp only [swf, Bool.and_eq_true, List.all_eq_true] at h ⊢
  exact ⟨risesFrom_filter p none m h.1, fun e he => h.2 e (List.mem_filter.mp he).1⟩

/-- A write keeps the canonical form. -/
theorem swf_sset {α : Type} [DecidableEq α] (d : α) (m : List (Nat × α)) (k : Nat) (v : α) (h : swf d m = true) : swf d (sset d m k v) = true := by
  unfold sset
  split
  · exact swf_filter d m _ h
  · next hv =>
    have w := swf_filter d m (fun e => !(e.1 == k)) h
    simp only [swf, Bool.and_eq_true, List.all_eq_true] at w ⊢
    refine ⟨risesFrom_sins k v none _ (fun _ hb => by cases hb) (sdel_ne m k) w.1, fun e he => ?_⟩
    rcases mem_sins _ k v e he with q | q
    · simp [q, hv]
    · exact w.2 e q

theorem swf_ssetAll {α : Type} [DecidableEq α] (d : α) (l : List α) : ∀ (m : List (Nat × α)) (k : Nat), swf d m = true → swf d (ssetAll d m k l) = true := by
  induction l with
  | nil => exact fun m k h => h
  | cons v r ih => exact fun m k h => ih (sset d m k v) (k + 1) (swf_sset d m k v h)

/-! Strings of values -/

/-- A string of writes leaves every number outside it as it was. -/
theorem sget_ssetAll_out {α : Type} [DecidableEq α] (d : α) (l : List α) :
    ∀ (m : List (Nat × α)) (k j : Nat), (j < k ∨ k + l.length ≤ j) → sget d (ssetAll d m k l) j = sget d m j := by
  induction l with
  | nil => exact fun m k j _ => rfl
  | cons v r ih =>
    intro m k j h
    simp only [List.length_cons] at h
    rw [ssetAll, ih _ _ _ (by omega), sget_sset_ne d m v (by omega)]

/-- A string of writes puts its values at its numbers. -/
theorem sget_ssetAll_in {α : Type} [DecidableEq α] (d : α) (l : List α) :
    ∀ (m : List (Nat × α)) (k i : Nat) (h : i < l.length), sget d (ssetAll d m k l) (k + i) = l[i] := by
  induction l with
  | nil => intro m k i h; simp at h
  | cons v r ih =>
    intro m k i h
    rw [ssetAll]
    cases i with
    | zero => rw [sget_ssetAll_out d r _ _ _ (by omega)]; simpa using sget_sset_self d m k v
    | succ i =>
      have := ih (sset d m k v) (k + 1) i (by simpa using h)
      rw [show k + (i + 1) = k + 1 + i by omega, this]; rfl

/-! Device memory and Island memory -/

theorem State.wr_rdByte_out (s : State) (a : Nat) (b : Bytes) (j : Nat) (h : j < a ∨ a + b.length ≤ j) : (s.wr a b).rdByte j = s.rdByte j :=
  sget_ssetAll_out 0 b s.mem a j h

theorem State.wr_rdByte_in (s : State) (a : Nat) (b : Bytes) (i : Nat) (h : i < b.length) : (s.wr a b).rdByte (a + i) = b[i] :=
  sget_ssetAll_in 0 b s.mem a i h

/-- Bytes just written read back. -/
theorem State.wr_rd (s : State) (a : Nat) (b : Bytes) : (s.wr a b).rd a b.length = b := by
  apply List.ext_getElem
  · simp [State.rd, sgetAll]
  · intro i h₁ h₂
    have := s.wr_rdByte_in a b i h₂
    simpa only [State.rd, sgetAll, List.getElem_map, List.getElem_range, State.rdByte] using this

theorem State.wr_wf (s : State) (a : Nat) (b : Bytes) (h : Memory.wf s.mem = true) : Memory.wf (s.wr a b).mem = true := swf_ssetAll 0 b s.mem a h
theorem State.wrIsl_wf (s : State) (o : Nat) (b : Bytes) (h : Memory.wf s.island = true) : Memory.wf (s.wrIsl o b).island = true :=
  swf_ssetAll 0 b s.island o h
theorem State.wrMb_wf (s : State) (o : Nat) (b : Bytes) (h : Memory.wf s.hp.mbox = true) : Memory.wf (s.wrMb o b).hp.mbox = true :=
  swf_ssetAll 0 b s.hp.mbox o h
theorem State.clearMem_wf (s : State) (lo size : Nat) (h : Memory.wf s.mem = true) : Memory.wf (s.clearMem lo size).mem = true :=
  swf_filter 0 s.mem _ h

/-- The memory right after reset has its canonical form. -/
theorem State.reset_mem_wf : Memory.wf State.reset.mem = true := rfl

/-- A cleared span reads 0, and the rest as before. -/
theorem State.clearMem_rdByte (s : State) (lo size a : Nat) : (s.clearMem lo size).rdByte a = if lo ≤ a ∧ a < lo + size then 0 else s.rdByte a := by
  unfold State.clearMem State.rdByte
  induction s.mem with
  | nil => simp [sget]
  | cons e r ih =>
    obtain ⟨x, v⟩ := e
    by_cases h : lo ≤ x ∧ x < lo + size
    · simp only [List.filter, h, and_self, decide_true, Bool.not_true, ih, sget]
      by_cases q : x = a
      · subst q; simp [h]
      · simp [q]
    · simp only [List.filter, h, decide_false, Bool.not_false, sget, ih]
      by_cases q : x = a
      · subst q; simp [h]
      · simp [q]

end Sys2Proof.Machine
end

