-- ==== Sys2Proof/Laws/Ops.lean ====
section
/-! SUPPORT. What the shared operations can do: registers, time, events, the ends of commands, the close of a row. -/
namespace Sys2Proof.Machine
variable (s : State)

/-! Registers -/

theorem csrGet_csrSet_self (c : List (Reg × W64)) (r : Reg) (v : W64) : csrGet (csrSet c r v) r = v := by
  induction c with
  | nil => simp [csrSet, csrGet]
  | cons e t ih => obtain ⟨q, w⟩ := e; by_cases h : q = r <;> simp [csrSet, csrGet, h, ih]

theorem csrGet_csrSet_ne (c : List (Reg × W64)) {r q : Reg} (v : W64) (h : q ≠ r) : csrGet (csrSet c r v) q = csrGet c q := by
  induction c with
  | nil => simp [csrSet, csrGet, Ne.symm h]
  | cons e t ih =>
    obtain ⟨x, w⟩ := e
    by_cases hx : x = r
    · subst hx; simp [csrSet, csrGet, Ne.symm h]
    · simp only [csrSet, hx, if_false, csrGet, ih]

/-- A register just written holds the value; every other holds what it held. -/
@[simp] theorem State.setReg_reg_self (r : Reg) (v : W64) : (s.setReg r v).reg r = v := csrGet_csrSet_self s.csr r v
theorem State.setReg_reg_ne {r q : Reg} (v : W64) (h : q ≠ r) : (s.setReg r v).reg q = s.reg q := csrGet_csrSet_ne s.csr v h
@[simp] theorem State.modReg_reg_self (r : Reg) (f : W64 → W64) : (s.modReg r f).reg r = f (s.reg r) := s.setReg_reg_self r _
theorem State.modReg_reg_ne {r q : Reg} (f : W64 → W64) (h : q ≠ r) : (s.modReg r f).reg q = s.reg q := s.setReg_reg_ne _ h
theorem State.setFldOf_reg_ne {r q : Reg} (lo len x : Nat) (h : q ≠ r) : (s.setFldOf r lo len x).reg q = s.reg q := s.modReg_reg_ne _ h
theorem State.countSat_reg_ne {r q : Reg} (lo len : Nat) (h : q ≠ r) : (s.countSat r lo len).reg q = s.reg q := s.modReg_reg_ne _ h
theorem State.countWrap_reg_ne {r q : Reg} (lo len k : Nat) (h : q ≠ r) : (s.countWrap r lo len k).reg q = s.reg q := s.modReg_reg_ne _ h
theorem State.addSat_reg_ne {r q : Reg} (lo len k : Nat) (h : q ≠ r) : (s.addSat r lo len k).reg q = s.reg q := s.modReg_reg_ne _ h
theorem State.maxFld_reg_ne {r q : Reg} (lo len x : Nat) (h : q ≠ r) : (s.maxFld r lo len x).reg q = s.reg q := s.modReg_reg_ne _ h

/-- Every register reads its reset value right after reset. -/
theorem State.reset_reg (r : Reg) : State.reset.reg r = r.resetVal := rfl

/-! Time -/

@[simp] theorem State.elapse_ns (dt : Nat) : (s.elapse dt).ns = s.ns + 2 * dt := by simp [State.ns, State.elapse]; omega

/-! Events: an event changes the host's backlog, the pins' record and the mark of a lost event, and nothing else -/

/-- What the delivery of an event may change. -/
theorem State.queueEvent_cases (e : Event) : s.queueEvent e = s ∨ (∃ h, s.queueEvent e = { s with hp := h }) ∨
    ∃ h, s.queueEvent e = ({ s with hp := h } : State).setFldOf .ccxHpMboxErr 2 1 1 := by
  unfold State.queueEvent
  split
  · exact .inl rfl
  · split
    · exact .inr (.inl ⟨_, rfl⟩)
    · dsimp only
      split
      · exact .inr (.inr ⟨_, rfl⟩)
      · exact .inr (.inl ⟨_, rfl⟩)

theorem State.deliver_cases (e : Event) : ∃ h, s.deliver e = { s with hp := h, out := s.out ++ [.p0Event e] } ∨
    s.deliver e = ({ s with hp := h, out := s.out ++ [.p0Event e] } : State).setFldOf .ccxHpMboxErr 2 1 1 := by
  unfold State.deliver
  dsimp only
  split
  · rcases (s.emit (.p0Event e)).queueEvent_cases e with h | ⟨h, q⟩ | ⟨h, q⟩
    · exact ⟨s.hp, .inl h⟩
    · exact ⟨h, .inl q⟩
    · exact ⟨h, .inr q⟩
  · exact ⟨s.hp, .inl rfl⟩

@[simp] theorem State.deliver_pending (e : Event) : (s.deliver e).pending = s.pending := by
  obtain ⟨h, q | q⟩ := s.deliver_cases e <;> rw [q] <;> rfl
@[simp] theorem State.deliver_ticks (e : Event) : (s.deliver e).ticks = s.ticks := by
  obtain ⟨h, q | q⟩ := s.deliver_cases e <;> rw [q] <;> rfl
@[simp] theorem State.deliver_freeCtr (e : Event) : (s.deliver e).freeCtr = s.freeCtr := by
  obtain ⟨h, q | q⟩ := s.deliver_cases e <;> rw [q] <;> rfl
@[simp] theorem State.deliver_mem (e : Event) : (s.deliver e).mem = s.mem := by
  obtain ⟨h, q | q⟩ := s.deliver_cases e <;> rw [q] <;> rfl
@[simp] theorem State.deliver_island (e : Event) : (s.deliver e).island = s.island := by
  obtain ⟨h, q | q⟩ := s.deliver_cases e <;> rw [q] <;> rfl
@[simp] theorem State.deliver_ccx (e : Event) : (s.deliver e).ccx = s.ccx := by
  obtain ⟨h, q | q⟩ := s.deliver_cases e <;> rw [q] <;> rfl
@[simp] theorem State.deliver_gov (e : Event) : (s.deliver e).gov = s.gov := by
  obtain ⟨h, q | q⟩ := s.deliver_cases e <;> rw [q] <;> rfl
@[simp] theorem State.deliver_pwr (e : Event) : (s.deliver e).pwr = s.pwr := by
  obtain ⟨h, q | q⟩ := s.deliver_cases e <;> rw [q] <;> rfl
@[simp] theorem State.deliver_tnu (e : Event) : (s.deliver e).tnu = s.tnu := by
  obtain ⟨h, q | q⟩ := s.deliver_cases e <;> rw [q] <;> rfl
@[simp] theorem State.deliver_tar (e : Event) : (s.deliver e).tar = s.tar := by
  obtain ⟨h, q | q⟩ := s.deliver_cases e <;> rw [q] <;> rfl
@[simp] theorem State.deliver_siu (e : Event) : (s.deliver e).siu = s.siu := by
  obtain ⟨h, q | q⟩ := s.deliver_cases e <;> rw [q] <;> rfl
@[simp] theorem State.deliver_chn (e : Event) : (s.deliver e).chn = s.chn := by
  obtain ⟨h, q | q⟩ := s.deliver_cases e <;> rw [q] <;> rfl
@[simp] theorem State.deliver_trk (e : Event) : (s.deliver e).trk = s.trk := by
  obtain ⟨h, q | q⟩ := s.deliver_cases e <;> rw [q] <;> rfl
@[simp] theorem State.deliver_pln (e : Event) : (s.deliver e).pln = s.pln := by
  obtain ⟨h, q | q⟩ := s.deliver_cases e <;> rw [q] <;> rfl
@[simp] theorem State.deliver_mmv (e : Event) : (s.deliver e).mmv = s.mmv := by
  obtain ⟨h, q | q⟩ := s.deliver_cases e <;> rw [q] <;> rfl
@[simp] theorem State.deliver_kv (e : Event) : (s.deliver e).kv = s.kv := by
  obtain ⟨h, q | q⟩ := s.deliver_cases e <;> rw [q] <;> rfl
@[simp] theorem State.deliver_ssi (e : Event) : (s.deliver e).ssi = s.ssi := by
  obtain ⟨h, q | q⟩ := s.deliver_cases e <;> rw [q] <;> rfl
theorem State.deliver_reg_ne (e : Event) {r : Reg} (h : r ≠ .ccxHpMboxErr) : (s.deliver e).reg r = s.reg r := by
  obtain ⟨_, q | q⟩ := s.deliver_cases e
  · rw [q]; rfl
  · rw [q, State.setFldOf_reg_ne _ _ _ _ h]; rfl
@[simp] theorem State.raise_pending (c p : Nat) (b : Bytes) : (s.raise c p b).pending = s.pending := s.deliver_pending _
@[simp] theorem State.raise_ticks (c p : Nat) (b : Bytes) : (s.raise c p b).ticks = s.ticks := s.deliver_ticks _
@[simp] theorem State.raise_freeCtr (c p : Nat) (b : Bytes) : (s.raise c p b).freeCtr = s.freeCtr := s.deliver_freeCtr _
@[simp] theorem State.raise_mem (c p : Nat) (b : Bytes) : (s.raise c p b).mem = s.mem := s.deliver_mem _
@[simp] theorem State.raise_island (c p : Nat) (b : Bytes) : (s.raise c p b).island = s.island := s.deliver_island _
@[simp] theorem State.raise_ccx (c p : Nat) (b : Bytes) : (s.raise c p b).ccx = s.ccx := s.deliver_ccx _
@[simp] theorem State.raise_gov (c p : Nat) (b : Bytes) : (s.raise c p b).gov = s.gov := s.deliver_gov _
@[simp] theorem State.raise_pwr (c p : Nat) (b : Bytes) : (s.raise c p b).pwr = s.pwr := s.deliver_pwr _
@[simp] theorem State.raise_tnu (c p : Nat) (b : Bytes) : (s.raise c p b).tnu = s.tnu := s.deliver_tnu _
@[simp] theorem State.raise_tar (c p : Nat) (b : Bytes) : (s.raise c p b).tar = s.tar := s.deliver_tar _
@[simp] theorem State.raise_siu (c p : Nat) (b : Bytes) : (s.raise c p b).siu = s.siu := s.deliver_siu _
@[simp] theorem State.raise_chn (c p : Nat) (b : Bytes) : (s.raise c p b).chn = s.chn := s.deliver_chn _
@[simp] theorem State.raise_trk (c p : Nat) (b : Bytes) : (s.raise c p b).trk = s.trk := s.deliver_trk _
@[simp] theorem State.raise_pln (c p : Nat) (b : Bytes) : (s.raise c p b).pln = s.pln := s.deliver_pln _
@[simp] theorem State.raise_mmv (c p : Nat) (b : Bytes) : (s.raise c p b).mmv = s.mmv := s.deliver_mmv _
@[simp] theorem State.raise_kv (c p : Nat) (b : Bytes) : (s.raise c p b).kv = s.kv := s.deliver_kv _
@[simp] theorem State.raise_ssi (c p : Nat) (b : Bytes) : (s.raise c p b).ssi = s.ssi := s.deliver_ssi _
theorem State.raise_reg_ne (c p : Nat) (b : Bytes) {r : Reg} (h : r ≠ .ccxHpMboxErr) : (s.raise c p b).reg r = s.reg r := s.deliver_reg_ne _ h
@[simp] theorem State.raise_rdByte (c p : Nat) (b : Bytes) (a : Nat) : (s.raise c p b).rdByte a = s.rdByte a := by simp [State.rdByte]
/-- A limited event is counted or delivered, with its record replaced. -/
theorem State.raiseLim_cases (c k p : Nat) (b : Bytes) : ∃ x, s.raiseLim c k p b = { s with ccx := x } ∨
    ∃ e, s.raiseLim c k p b = ({ s with ccx := x } : State).deliver e := by
  unfold State.raiseLim
  split
  · split
    · exact ⟨_, .inl rfl⟩
    · exact ⟨_, .inr ⟨_, rfl⟩⟩
  · exact ⟨_, .inr ⟨_, rfl⟩⟩

@[simp] theorem State.raiseLim_pending (c k p : Nat) (b : Bytes) : (s.raiseLim c k p b).pending = s.pending := by
  obtain ⟨x, q | ⟨e, q⟩⟩ := s.raiseLim_cases c k p b <;> simp [q]
@[simp] theorem State.raiseLim_ticks (c k p : Nat) (b : Bytes) : (s.raiseLim c k p b).ticks = s.ticks := by
  obtain ⟨x, q | ⟨e, q⟩⟩ := s.raiseLim_cases c k p b <;> simp [q]
@[simp] theorem State.raiseLim_freeCtr (c k p : Nat) (b : Bytes) : (s.raiseLim c k p b).freeCtr = s.freeCtr := by
  obtain ⟨x, q | ⟨e, q⟩⟩ := s.raiseLim_cases c k p b <;> simp [q]
@[simp] theorem State.raiseLim_mem (c k p : Nat) (b : Bytes) : (s.raiseLim c k p b).mem = s.mem := by
  obtain ⟨x, q | ⟨e, q⟩⟩ := s.raiseLim_cases c k p b <;> simp [q]
@[simp] theorem State.raiseLim_island (c k p : Nat) (b : Bytes) : (s.raiseLim c k p b).island = s.island := by
  obtain ⟨x, q | ⟨e, q⟩⟩ := s.raiseLim_cases c k p b <;> simp [q]
@[simp] theorem State.raiseLim_gov (c k p : Nat) (b : Bytes) : (s.raiseLim c k p b).gov = s.gov := by
  obtain ⟨x, q | ⟨e, q⟩⟩ := s.raiseLim_cases c k p b <;> simp [q]
@[simp] theorem State.raiseLim_pwr (c k p : Nat) (b : Bytes) : (s.raiseLim c k p b).pwr = s.pwr := by
  obtain ⟨x, q | ⟨e, q⟩⟩ := s.raiseLim_cases c k p b <;> simp [q]
@[simp] theorem State.raiseLim_tnu (c k p : Nat) (b : Bytes) : (s.raiseLim c k p b).tnu = s.tnu := by
  obtain ⟨x, q | ⟨e, q⟩⟩ := s.raiseLim_cases c k p b <;> simp [q]
@[simp] theorem State.raiseLim_tar (c k p : Nat) (b : Bytes) : (s.raiseLim c k p b).tar = s.tar := by
  obtain ⟨x, q | ⟨e, q⟩⟩ := s.raiseLim_cases c k p b <;> simp [q]
@[simp] theorem State.raiseLim_siu (c k p : Nat) (b : Bytes) : (s.raiseLim c k p b).siu = s.siu := by
  obtain ⟨x, q | ⟨e, q⟩⟩ := s.raiseLim_cases c k p b <;> simp [q]
@[simp] theorem State.raiseLim_chn (c k p : Nat) (b : Bytes) : (s.raiseLim c k p b).chn = s.chn := by
  obtain ⟨x, q | ⟨e, q⟩⟩ := s.raiseLim_cases c k p b <;> simp [q]
@[simp] theorem State.raiseLim_trk (c k p : Nat) (b : Bytes) : (s.raiseLim c k p b).trk = s.trk := by
  obtain ⟨x, q | ⟨e, q⟩⟩ := s.raiseLim_cases c k p b <;> simp [q]
@[simp] theorem State.raiseLim_pln (c k p : Nat) (b : Bytes) : (s.raiseLim c k p b).pln = s.pln := by
  obtain ⟨x, q | ⟨e, q⟩⟩ := s.raiseLim_cases c k p b <;> simp [q]
@[simp] theorem State.raiseLim_mmv (c k p : Nat) (b : Bytes) : (s.raiseLim c k p b).mmv = s.mmv := by
  obtain ⟨x, q | ⟨e, q⟩⟩ := s.raiseLim_cases c k p b <;> simp [q]
@[simp] theorem State.raiseLim_kv (c k p : Nat) (b : Bytes) : (s.raiseLim c k p b).kv = s.kv := by
  obtain ⟨x, q | ⟨e, q⟩⟩ := s.raiseLim_cases c k p b <;> simp [q]
@[simp] theorem State.raiseLim_ssi (c k p : Nat) (b : Bytes) : (s.raiseLim c k p b).ssi = s.ssi := by
  obtain ⟨x, q | ⟨e, q⟩⟩ := s.raiseLim_cases c k p b <;> simp [q]
theorem State.raiseLim_reg_ne (c k p : Nat) (b : Bytes) {r : Reg} (h : r ≠ .ccxHpMboxErr) : (s.raiseLim c k p b).reg r = s.reg r := by
  obtain ⟨x, q | ⟨e, q⟩⟩ := s.raiseLim_cases c k p b
  · rw [q]; rfl
  · rw [q, State.deliver_reg_ne _ _ h]; rfl

/-! The ends of commands -/

/-- A fold whose every step keeps a part of the state keeps it. -/
theorem foldl_keeps {α β : Type} (g : State → β) (step : State → α → State) (h : ∀ s x, g (step s x) = g s) :
    ∀ (l : List α) (s : State), g (l.foldl step s) = g s
  | [], _ => rfl
  | x :: r, s => by rw [List.foldl_cons, foldl_keeps g step h r, h]


@[simp] theorem State.kvSync_pending : s.kvSync.pending = s.pending := foldl_keeps (·.pending) _ (fun s x => by dsimp only; split <;> rfl) _ s
@[simp] theorem State.kvSync_ticks : s.kvSync.ticks = s.ticks := foldl_keeps (·.ticks) _ (fun s x => by dsimp only; split <;> rfl) _ s
@[simp] theorem State.kvSync_freeCtr : s.kvSync.freeCtr = s.freeCtr := foldl_keeps (·.freeCtr) _ (fun s x => by dsimp only; split <;> rfl) _ s
@[simp] theorem State.kvSync_csr : s.kvSync.csr = s.csr := foldl_keeps (·.csr) _ (fun s x => by dsimp only; split <;> rfl) _ s
@[simp] theorem State.kvSync_island : s.kvSync.island = s.island := foldl_keeps (·.island) _ (fun s x => by dsimp only; split <;> rfl) _ s
@[simp] theorem State.kvSync_hp : s.kvSync.hp = s.hp := foldl_keeps (·.hp) _ (fun s x => by dsimp only; split <;> rfl) _ s
@[simp] theorem State.kvSync_ccx : s.kvSync.ccx = s.ccx := foldl_keeps (·.ccx) _ (fun s x => by dsimp only; split <;> rfl) _ s
@[simp] theorem State.kvSync_gov : s.kvSync.gov = s.gov := foldl_keeps (·.gov) _ (fun s x => by dsimp only; split <;> rfl) _ s
@[simp] theorem State.kvSync_pwr : s.kvSync.pwr = s.pwr := foldl_keeps (·.pwr) _ (fun s x => by dsimp only; split <;> rfl) _ s
@[simp] theorem State.kvSync_tnu : s.kvSync.tnu = s.tnu := foldl_keeps (·.tnu) _ (fun s x => by dsimp only; split <;> rfl) _ s
@[simp] theorem State.kvSync_tar : s.kvSync.tar = s.tar := foldl_keeps (·.tar) _ (fun s x => by dsimp only; split <;> rfl) _ s
@[simp] theorem State.kvSync_siu : s.kvSync.siu = s.siu := foldl_keeps (·.siu) _ (fun s x => by dsimp only; split <;> rfl) _ s
@[simp] theorem State.kvSync_chn : s.kvSync.chn = s.chn := foldl_keeps (·.chn) _ (fun s x => by dsimp only; split <;> rfl) _ s
@[simp] theorem State.kvSync_trk : s.kvSync.trk = s.trk := foldl_keeps (·.trk) _ (fun s x => by dsimp only; split <;> rfl) _ s
@[simp] theorem State.kvSync_pln : s.kvSync.pln = s.pln := foldl_keeps (·.pln) _ (fun s x => by dsimp only; split <;> rfl) _ s
@[simp] theorem State.kvSync_mmv : s.kvSync.mmv = s.mmv := foldl_keeps (·.mmv) _ (fun s x => by dsimp only; split <;> rfl) _ s
@[simp] theorem State.kvSync_ssi : s.kvSync.ssi = s.ssi := foldl_keeps (·.ssi) _ (fun s x => by dsimp only; split <;> rfl) _ s
@[simp] theorem State.kvSync_out : s.kvSync.out = s.out := foldl_keeps (·.out) _ (fun s x => by dsimp only; split <;> rfl) _ s
@[simp] theorem State.unname_pending (id : Nat) : (s.unname id).pending = s.pending := by unfold State.unname; split <;> simp
@[simp] theorem State.unname_ticks (id : Nat) : (s.unname id).ticks = s.ticks := by unfold State.unname; split <;> simp
@[simp] theorem State.unname_freeCtr (id : Nat) : (s.unname id).freeCtr = s.freeCtr := by unfold State.unname; split <;> simp
@[simp] theorem State.unname_csr (id : Nat) : (s.unname id).csr = s.csr := by unfold State.unname; split <;> simp
@[simp] theorem State.unname_island (id : Nat) : (s.unname id).island = s.island := by unfold State.unname; split <;> simp
@[simp] theorem State.unname_hp (id : Nat) : (s.unname id).hp = s.hp := by unfold State.unname; split <;> simp
@[simp] theorem State.unname_ccx (id : Nat) : (s.unname id).ccx = s.ccx := by unfold State.unname; split <;> simp
@[simp] theorem State.unname_gov (id : Nat) : (s.unname id).gov = s.gov := by unfold State.unname; split <;> simp
@[simp] theorem State.unname_pwr (id : Nat) : (s.unname id).pwr = s.pwr := by unfold State.unname; split <;> simp
@[simp] theorem State.unname_tnu (id : Nat) : (s.unname id).tnu = s.tnu := by unfold State.unname; split <;> simp
@[simp] theorem State.unname_tar (id : Nat) : (s.unname id).tar = s.tar := by unfold State.unname; split <;> simp
@[simp] theorem State.unname_siu (id : Nat) : (s.unname id).siu = s.siu := by unfold State.unname; split <;> simp
@[simp] theorem State.unname_chn (id : Nat) : (s.unname id).chn = s.chn := by unfold State.unname; split <;> simp
@[simp] theorem State.unname_trk (id : Nat) : (s.unname id).trk = s.trk := by unfold State.unname; split <;> simp
@[simp] theorem State.unname_pln (id : Nat) : (s.unname id).pln = s.pln := by unfold State.unname; split <;> simp
@[simp] theorem State.unname_mmv (id : Nat) : (s.unname id).mmv = s.mmv := by unfold State.unname; split <;> simp
@[simp] theorem State.unname_ssi (id : Nat) : (s.unname id).ssi = s.ssi := by unfold State.unname; split <;> simp
@[simp] theorem State.unname_out (id : Nat) : (s.unname id).out = s.out := by unfold State.unname; split <;> simp
/-- A command that ends changes its record, gives up the pages it pins, and its response waits or is discarded. -/
theorem State.endCmd_cases (id : Nat) (st : CmdState) (v : Nat) : s.endCmd id st v = s ∨ ∃ f h,
    s.endCmd id st v = { (s.updCmd id f).unname id with hp := h } ∨
    ∃ g, s.endCmd id st v = { (((s.updCmd id f).unname id).updCmd id g).setFldOf .ccxHpMboxErr 1 1 1 with hp := h } := by
  unfold State.endCmd
  cases s.cmd? id with
  | none => exact .inl rfl
  | some c =>
    dsimp only
    by_cases hf : c.state.final = true
    · rw [if_pos hf]; exact .inl rfl
    · rw [if_neg hf]
      refine .inr ?_
      by_cases hl : s.hp.linkUp = true
      · rw [if_pos (show (State.unname (s.updCmd id _) id).hp.linkUp = true by simpa using hl)]
        exact ⟨_, _, .inl rfl⟩
      · rw [if_neg (show ¬ (State.unname (s.updCmd id _) id).hp.linkUp = true by simpa using hl)]
        exact ⟨_, _, .inr ⟨_, rfl⟩⟩

@[simp] theorem State.endCmd_pending (id : Nat) (st : CmdState) (v : Nat) : (s.endCmd id st v).pending = s.pending := by
  rcases s.endCmd_cases id st v with q | ⟨f, h, q | ⟨g, q⟩⟩ <;> rw [q] <;> simp
@[simp] theorem State.endCmd_ticks (id : Nat) (st : CmdState) (v : Nat) : (s.endCmd id st v).ticks = s.ticks := by
  rcases s.endCmd_cases id st v with q | ⟨f, h, q | ⟨g, q⟩⟩ <;> rw [q] <;> simp
@[simp] theorem State.endCmd_freeCtr (id : Nat) (st : CmdState) (v : Nat) : (s.endCmd id st v).freeCtr = s.freeCtr := by
  rcases s.endCmd_cases id st v with q | ⟨f, h, q | ⟨g, q⟩⟩ <;> rw [q] <;> simp
@[simp] theorem State.endCmd_island (id : Nat) (st : CmdState) (v : Nat) : (s.endCmd id st v).island = s.island := by
  rcases s.endCmd_cases id st v with q | ⟨f, h, q | ⟨g, q⟩⟩ <;> rw [q] <;> simp
@[simp] theorem State.endCmd_gov (id : Nat) (st : CmdState) (v : Nat) : (s.endCmd id st v).gov = s.gov := by
  rcases s.endCmd_cases id st v with q | ⟨f, h, q | ⟨g, q⟩⟩ <;> rw [q] <;> simp
@[simp] theorem State.endCmd_pwr (id : Nat) (st : CmdState) (v : Nat) : (s.endCmd id st v).pwr = s.pwr := by
  rcases s.endCmd_cases id st v with q | ⟨f, h, q | ⟨g, q⟩⟩ <;> rw [q] <;> simp
@[simp] theorem State.endCmd_tnu (id : Nat) (st : CmdState) (v : Nat) : (s.endCmd id st v).tnu = s.tnu := by
  rcases s.endCmd_cases id st v with q | ⟨f, h, q | ⟨g, q⟩⟩ <;> rw [q] <;> simp
@[simp] theorem State.endCmd_tar (id : Nat) (st : CmdState) (v : Nat) : (s.endCmd id st v).tar = s.tar := by
  rcases s.endCmd_cases id st v with q | ⟨f, h, q | ⟨g, q⟩⟩ <;> rw [q] <;> simp
@[simp] theorem State.endCmd_siu (id : Nat) (st : CmdState) (v : Nat) : (s.endCmd id st v).siu = s.siu := by
  rcases s.endCmd_cases id st v with q | ⟨f, h, q | ⟨g, q⟩⟩ <;> rw [q] <;> simp
@[simp] theorem State.endCmd_chn (id : Nat) (st : CmdState) (v : Nat) : (s.endCmd id st v).chn = s.chn := by
  rcases s.endCmd_cases id st v with q | ⟨f, h, q | ⟨g, q⟩⟩ <;> rw [q] <;> simp
@[simp] theorem State.endCmd_trk (id : Nat) (st : CmdState) (v : Nat) : (s.endCmd id st v).trk = s.trk := by
  rcases s.endCmd_cases id st v with q | ⟨f, h, q | ⟨g, q⟩⟩ <;> rw [q] <;> simp
@[simp] theorem State.endCmd_pln (id : Nat) (st : CmdState) (v : Nat) : (s.endCmd id st v).pln = s.pln := by
  rcases s.endCmd_cases id st v with q | ⟨f, h, q | ⟨g, q⟩⟩ <;> rw [q] <;> simp
@[simp] theorem State.endCmd_mmv (id : Nat) (st : CmdState) (v : Nat) : (s.endCmd id st v).mmv = s.mmv := by
  rcases s.endCmd_cases id st v with q | ⟨f, h, q | ⟨g, q⟩⟩ <;> rw [q] <;> simp
@[simp] theorem State.endCmd_ssi (id : Nat) (st : CmdState) (v : Nat) : (s.endCmd id st v).ssi = s.ssi := by
  rcases s.endCmd_cases id st v with q | ⟨f, h, q | ⟨g, q⟩⟩ <;> rw [q] <;> simp
@[simp] theorem State.endCmd_out (id : Nat) (st : CmdState) (v : Nat) : (s.endCmd id st v).out = s.out := by
  rcases s.endCmd_cases id st v with q | ⟨f, h, q | ⟨g, q⟩⟩ <;> rw [q] <;> simp
theorem State.endCmd_reg_ne (id : Nat) (st : CmdState) (v : Nat) {r : Reg} (h : r ≠ .ccxHpMboxErr) : (s.endCmd id st v).reg r = s.reg r := by
  rcases s.endCmd_cases id st v with q | ⟨f, x, q | ⟨g, q⟩⟩ <;> rw [q]
  · exact congrArg (csrGet · r) (by simp)
  · refine Eq.trans (State.setFldOf_reg_ne _ 1 1 1 h) (congrArg (csrGet · r) (by simp))

@[simp] theorem State.finish_pending (id v : Nat) : (s.finish id v).pending = s.pending := by
  unfold State.finish; split
  · rfl
  · split <;> simp
@[simp] theorem State.finish_ticks (id v : Nat) : (s.finish id v).ticks = s.ticks := by
  unfold State.finish; split
  · rfl
  · split <;> simp
@[simp] theorem State.finish_freeCtr (id v : Nat) : (s.finish id v).freeCtr = s.freeCtr := by
  unfold State.finish; split
  · rfl
  · split <;> simp
@[simp] theorem State.finish_island (id v : Nat) : (s.finish id v).island = s.island := by
  unfold State.finish; split
  · rfl
  · split <;> simp
@[simp] theorem State.finish_gov (id v : Nat) : (s.finish id v).gov = s.gov := by
  unfold State.finish; split
  · rfl
  · split <;> simp
@[simp] theorem State.finish_pwr (id v : Nat) : (s.finish id v).pwr = s.pwr := by
  unfold State.finish; split
  · rfl
  · split <;> simp
@[simp] theorem State.finish_tnu (id v : Nat) : (s.finish id v).tnu = s.tnu := by
  unfold State.finish; split
  · rfl
  · split <;> simp
@[simp] theorem State.finish_tar (id v : Nat) : (s.finish id v).tar = s.tar := by
  unfold State.finish; split
  · rfl
  · split <;> simp
@[simp] theorem State.finish_siu (id v : Nat) : (s.finish id v).siu = s.siu := by
  unfold State.finish; split
  · rfl
  · split <;> simp
@[simp] theorem State.finish_chn (id v : Nat) : (s.finish id v).chn = s.chn := by
  unfold State.finish; split
  · rfl
  · split <;> simp
@[simp] theorem State.finish_trk (id v : Nat) : (s.finish id v).trk = s.trk := by
  unfold State.finish; split
  · rfl
  · split <;> simp
@[simp] theorem State.finish_pln (id v : Nat) : (s.finish id v).pln = s.pln := by
  unfold State.finish; split
  · rfl
  · split <;> simp
@[simp] theorem State.finish_mmv (id v : Nat) : (s.finish id v).mmv = s.mmv := by
  unfold State.finish; split
  · rfl
  · split <;> simp
@[simp] theorem State.finish_ssi (id v : Nat) : (s.finish id v).ssi = s.ssi := by
  unfold State.finish; split
  · rfl
  · split <;> simp
@[simp] theorem State.finish_out (id v : Nat) : (s.finish id v).out = s.out := by
  unfold State.finish; split
  · rfl
  · split <;> simp
theorem State.finish_reg_ne (id v : Nat) {r : Reg} (h : r ≠ .ccxHpMboxErr) : (s.finish id v).reg r = s.reg r := by
  unfold State.finish; split
  · rfl
  · split <;> exact s.endCmd_reg_ne _ _ _ h

theorem State.kvSync_of_no_pages (h : s.kv.pages = []) : s.kvSync = s := by unfold State.kvSync; rw [h]; rfl

/-- With no page of the KV cache, the end of a command stores nothing. -/
theorem State.unname_mem (id : Nat) (h : s.kv.pages = []) : (s.unname id).mem = s.mem ∧ (s.unname id).kv.pages = [] := by
  unfold State.unname
  dsimp only
  split
  · rw [State.kvSync_of_no_pages]
    · exact ⟨rfl, h⟩
    · exact h
  · exact ⟨rfl, h⟩

theorem State.endCmd_mem (id : Nat) (st : CmdState) (v : Nat) (h : s.kv.pages = []) :
    (s.endCmd id st v).mem = s.mem ∧ (s.endCmd id st v).kv.pages = [] := by
  rcases s.endCmd_cases id st v with q | ⟨f, x, q | ⟨g, q⟩⟩ <;> rw [q]
  · exact ⟨rfl, h⟩
  · exact State.unname_mem (s.updCmd id f) id h
  · exact State.unname_mem (s.updCmd id f) id h

theorem State.finish_mem (id v : Nat) (h : s.kv.pages = []) : (s.finish id v).mem = s.mem ∧ (s.finish id v).kv.pages = [] := by
  unfold State.finish
  split
  · exact ⟨rfl, h⟩
  · split <;> exact s.endCmd_mem _ _ _ h

/-! The close of a row -/

/-! Drains and stops -/

/-- What no change of the control core's tables, no event and no end of a command breaks. -/
structure Kept (P : State → Prop) : Prop where
  ccx : ∀ (s : State) (x : Ccx), P s → P { s with ccx := x }
  raise : ∀ (s : State) (c p : Nat) (b : Bytes), P s → P (s.raise c p b)
  endCmd : ∀ (s : State) (id : Nat) (st : CmdState) (v : Nat), P s → P (s.endCmd id st v)

/-- A fold whose every step keeps a property keeps it. -/
theorem foldl_holds {α : Type} (P : State → Prop) (step : State → α → State) (h : ∀ s x, P s → P (step s x)) :
    ∀ (l : List α) (s : State), P s → P (l.foldl step s)
  | [], _, p => p
  | x :: r, s, p => foldl_holds P step h r _ (h s x p)

theorem Kept.finish {P : State → Prop} (k : Kept P) (s : State) (id v : Nat) (h : P s) : P (s.finish id v) := by
  unfold State.finish
  split
  · exact h
  · split <;> exact k.endCmd _ _ _ _ h

theorem Kept.settleFunc {P : State → Prop} (k : Kept P) (s : State) (f : FuncRec) (h : P s) : P (Machine.settleFunc s f) := by
  unfold Machine.settleFunc
  dsimp only
  split
  · exact h
  · split
    · split
      · exact h
      · exact foldl_holds P _ (fun s x q => k.endCmd _ _ _ _ (k.ccx s _ q)) _ _ (k.raise _ _ _ _ (k.ccx s _ h))
    · split
      · exact h
      · exact foldl_holds P _ (fun s x q => k.finish _ _ _ (k.ccx s _ q)) _ _ (k.ccx s _ h)

theorem Kept.settleStop {P : State → Prop} (k : Kept P) (s : State) (p : Nat) (h : P s) : P (Machine.settleStop s p) := by
  unfold Machine.settleStop
  split
  · split
    · refine k.finish _ _ _ (k.ccx _ _ ?_)
      unfold State.toState
      split
      · exact k.ccx s _ h
      · exact k.raise _ _ _ _ (k.ccx _ _ (k.ccx s _ h))
    · exact h
  · exact h

/-- Settling keeps what the removal of ended work leaves. -/
theorem Kept.settle {P : State → Prop} (k : Kept P) (s : State) (h : P s.pruneTar) : P s.settle :=
  foldl_holds P _ (fun s x q => k.settleStop s x q) _ _ (foldl_holds P _ (fun s x q => k.settleFunc s x q) _ _ h)

theorem State.releaseSlots_cases (l : List (Nat × Nat)) : ∃ m, l.foldl State.releaseSlot s = { s with mem := m } := by
  induction l generalizing s with
  | nil => exact ⟨s.mem, rfl⟩
  | cons e r ih =>
    obtain ⟨m', h'⟩ := ih { s with mem := (s.releaseSlot e).mem }
    exact ⟨m', h'⟩

/-- Work whose command has ended is gone: only the engines' lists and the slots that they read change. -/
theorem State.pruneTar_cases : ∃ m, s.pruneTar = { s with
    mem := m
    tar := { s.tar with jobs := s.tar.jobs.filter fun j => s.isRunning j.cmd, chains := s.tar.chains.filter fun k => s.isRunning k.cmd
                        slots := s.tar.slots.filter fun e => s.isRunning e.1 }
    mmv := { s.mmv with moves := s.mmv.moves.filter fun j => s.isRunning j.cmd, peers := s.mmv.peers.filter fun e => s.isRunning e.1
                        colls := s.mmv.colls.filter fun j => s.isRunning j.cmd }
    kv := { s.kv with walks := s.kv.walks.filter fun w => s.isRunning w.cmd } } := by
  unfold State.pruneTar
  dsimp only
  obtain ⟨m, h⟩ := s.releaseSlots_cases (s.tar.slots.filter fun e => !(s.isRunning e.1))
  rw [h]
  exact ⟨m, rfl⟩

theorem State.pruneTar_mem (h : s.tar.slots = []) : s.pruneTar.mem = s.mem := by
  unfold State.pruneTar; rw [h]; rfl

/-- After a row, no engine works for a command that has ended. -/
theorem State.pruneTar_workRuns : s.pruneTar.WorkRuns := by
  obtain ⟨m, h⟩ := s.pruneTar_cases
  rw [h]
  refine ⟨?_, ?_, ?_, ?_, ?_, ?_, ?_⟩ <;> intro x hx <;> exact (List.mem_filter.mp hx).2

@[simp] theorem State.pruneTar_pending : s.pruneTar.pending = s.pending := by obtain ⟨m, h⟩ := s.pruneTar_cases; rw [h]
@[simp] theorem State.pruneTar_ticks : s.pruneTar.ticks = s.ticks := by obtain ⟨m, h⟩ := s.pruneTar_cases; rw [h]
@[simp] theorem State.pruneTar_freeCtr : s.pruneTar.freeCtr = s.freeCtr := by obtain ⟨m, h⟩ := s.pruneTar_cases; rw [h]
@[simp] theorem State.pruneTar_island : s.pruneTar.island = s.island := by obtain ⟨m, h⟩ := s.pruneTar_cases; rw [h]
@[simp] theorem State.pruneTar_gov : s.pruneTar.gov = s.gov := by obtain ⟨m, h⟩ := s.pruneTar_cases; rw [h]
@[simp] theorem State.pruneTar_pwr : s.pruneTar.pwr = s.pwr := by obtain ⟨m, h⟩ := s.pruneTar_cases; rw [h]
@[simp] theorem State.pruneTar_tnu : s.pruneTar.tnu = s.tnu := by obtain ⟨m, h⟩ := s.pruneTar_cases; rw [h]
@[simp] theorem State.pruneTar_siu : s.pruneTar.siu = s.siu := by obtain ⟨m, h⟩ := s.pruneTar_cases; rw [h]
@[simp] theorem State.pruneTar_chn : s.pruneTar.chn = s.chn := by obtain ⟨m, h⟩ := s.pruneTar_cases; rw [h]
@[simp] theorem State.pruneTar_trk : s.pruneTar.trk = s.trk := by obtain ⟨m, h⟩ := s.pruneTar_cases; rw [h]
@[simp] theorem State.pruneTar_pln : s.pruneTar.pln = s.pln := by obtain ⟨m, h⟩ := s.pruneTar_cases; rw [h]
@[simp] theorem State.pruneTar_ssi : s.pruneTar.ssi = s.ssi := by obtain ⟨m, h⟩ := s.pruneTar_cases; rw [h]
@[simp] theorem State.pruneTar_csr : s.pruneTar.csr = s.csr := by obtain ⟨m, h⟩ := s.pruneTar_cases; rw [h]
@[simp] theorem State.pruneTar_hp : s.pruneTar.hp = s.hp := by obtain ⟨m, h⟩ := s.pruneTar_cases; rw [h]
@[simp] theorem State.pruneTar_ccx : s.pruneTar.ccx = s.ccx := by obtain ⟨m, h⟩ := s.pruneTar_cases; rw [h]
@[simp] theorem State.pruneTar_out : s.pruneTar.out = s.out := by obtain ⟨m, h⟩ := s.pruneTar_cases; rw [h]
@[simp] theorem State.settle_pending : s.settle.pending = s.pending := Kept.settle (P := (·.pending = s.pending)) ⟨fun _ _ h => h, by simp, by simp⟩ s (by simp)
@[simp] theorem State.settle_ticks : s.settle.ticks = s.ticks := Kept.settle (P := (·.ticks = s.ticks)) ⟨fun _ _ h => h, by simp, by simp⟩ s (by simp)
@[simp] theorem State.settle_freeCtr : s.settle.freeCtr = s.freeCtr := Kept.settle (P := (·.freeCtr = s.freeCtr)) ⟨fun _ _ h => h, by simp, by simp⟩ s (by simp)
@[simp] theorem State.settle_island : s.settle.island = s.island := Kept.settle (P := (·.island = s.island)) ⟨fun _ _ h => h, by simp, by simp⟩ s (by simp)
@[simp] theorem State.settle_gov : s.settle.gov = s.gov := Kept.settle (P := (·.gov = s.gov)) ⟨fun _ _ h => h, by simp, by simp⟩ s (by simp)
@[simp] theorem State.settle_pwr : s.settle.pwr = s.pwr := Kept.settle (P := (·.pwr = s.pwr)) ⟨fun _ _ h => h, by simp, by simp⟩ s (by simp)
@[simp] theorem State.settle_tnu : s.settle.tnu = s.tnu := Kept.settle (P := (·.tnu = s.tnu)) ⟨fun _ _ h => h, by simp, by simp⟩ s (by simp)
@[simp] theorem State.settle_siu : s.settle.siu = s.siu := Kept.settle (P := (·.siu = s.siu)) ⟨fun _ _ h => h, by simp, by simp⟩ s (by simp)
@[simp] theorem State.settle_chn : s.settle.chn = s.chn := Kept.settle (P := (·.chn = s.chn)) ⟨fun _ _ h => h, by simp, by simp⟩ s (by simp)
@[simp] theorem State.settle_trk : s.settle.trk = s.trk := Kept.settle (P := (·.trk = s.trk)) ⟨fun _ _ h => h, by simp, by simp⟩ s (by simp)
@[simp] theorem State.settle_pln : s.settle.pln = s.pln := Kept.settle (P := (·.pln = s.pln)) ⟨fun _ _ h => h, by simp, by simp⟩ s (by simp)
@[simp] theorem State.settle_ssi : s.settle.ssi = s.ssi := Kept.settle (P := (·.ssi = s.ssi)) ⟨fun _ _ h => h, by simp, by simp⟩ s (by simp)

/-- Settling writes no register but the mark of a lost event and of a discarded response. -/
theorem State.settle_reg_ne {r : Reg} (h : r ≠ .ccxHpMboxErr) : s.settle.reg r = s.reg r :=
  Kept.settle (P := (·.reg r = s.reg r)) ⟨fun _ _ q => q, fun s _ _ _ q => (s.raise_reg_ne _ _ _ h).trans q, fun s _ _ _ q => (s.endCmd_reg_ne _ _ _ h).trans q⟩ s
    (congrArg (csrGet · r) s.pruneTar_csr)

@[simp] theorem State.close_reg (dt : Nat) (t : State) (r : Reg) : (s.close dt t).reg r = t.reg r := congrArg (csrGet · r) t.pruneTar_csr

/-- With no page of the KV cache and no descriptor in flight, settling stores nothing. -/
theorem State.settle_mem (hk : s.kv.pages = []) (hj : s.tar.slots = []) :
    s.settle.mem = s.mem ∧ s.settle.kv.pages = [] ∧ s.settle.tar = s.pruneTar.tar := by
  refine Kept.settle (P := fun t => t.mem = s.mem ∧ t.kv.pages = [] ∧ t.tar = s.pruneTar.tar) ⟨fun _ _ q => q, by simp, ?_⟩ s ?_
  · intro t id st v q
    have e := t.endCmd_mem id st v q.2.1
    exact ⟨e.1.trans q.1, e.2, (t.endCmd_tar id st v).trans q.2.2⟩
  · refine ⟨s.pruneTar_mem hj, ?_, rfl⟩
    obtain ⟨m, h⟩ := s.pruneTar_cases
    rw [h]; exact hk


/-- Where no drain and no stop waits, settling only removes the work of ended commands. -/
theorem State.settle_quiet (hf : s.ccx.funcs = []) (hp : ∀ p < 8, (s.part p).stop = none) : s.settle = s.pruneTar := by
  have hq : ∀ p < 8, (s.pruneTar.part p).stop = none := fun p h => by simpa [State.part] using hp p h
  have h : ∀ l : List Nat, (∀ p ∈ l, p < 8) → l.foldl settleStop s.pruneTar = s.pruneTar := by
    intro l
    induction l with
    | nil => intro _; rfl
    | cons p r ih =>
      intro hl
      rw [List.foldl_cons]
      have e : settleStop s.pruneTar p = s.pruneTar := by simp [settleStop, hq p (hl p (by simp))]
      rw [e, ih fun q hm => hl q (by simp [hm])]
  rw [State.settle, hf]
  exact h _ (by simp)

@[simp] theorem State.close_pending (dt : Nat) (t : State) : (s.close dt t).pending = s.pending := rfl
@[simp] theorem State.close_ticks (dt : Nat) (t : State) : (s.close dt t).ticks = s.ticks + dt := rfl
@[simp] theorem State.close_freeCtr (dt : Nat) (t : State) : (s.close dt t).freeCtr = t.freeCtr := t.pruneTar_freeCtr
@[simp] theorem State.close_csr (dt : Nat) (t : State) : (s.close dt t).csr = t.csr := t.pruneTar_csr
@[simp] theorem State.close_island (dt : Nat) (t : State) : (s.close dt t).island = t.island := t.pruneTar_island
@[simp] theorem State.close_hp (dt : Nat) (t : State) : (s.close dt t).hp = t.hp := t.pruneTar_hp
@[simp] theorem State.close_ccx (dt : Nat) (t : State) : (s.close dt t).ccx = t.ccx := t.pruneTar_ccx
@[simp] theorem State.close_gov (dt : Nat) (t : State) : (s.close dt t).gov = t.gov := t.pruneTar_gov
@[simp] theorem State.close_pwr (dt : Nat) (t : State) : (s.close dt t).pwr = t.pwr := t.pruneTar_pwr
@[simp] theorem State.close_tnu (dt : Nat) (t : State) : (s.close dt t).tnu = t.tnu := t.pruneTar_tnu
@[simp] theorem State.close_siu (dt : Nat) (t : State) : (s.close dt t).siu = t.siu := t.pruneTar_siu
@[simp] theorem State.close_chn (dt : Nat) (t : State) : (s.close dt t).chn = t.chn := t.pruneTar_chn
@[simp] theorem State.close_trk (dt : Nat) (t : State) : (s.close dt t).trk = t.trk := t.pruneTar_trk
@[simp] theorem State.close_pln (dt : Nat) (t : State) : (s.close dt t).pln = t.pln := t.pruneTar_pln
@[simp] theorem State.close_ssi (dt : Nat) (t : State) : (s.close dt t).ssi = t.ssi := t.pruneTar_ssi
@[simp] theorem State.close_out (dt : Nat) (t : State) : (s.close dt t).out = t.out := t.pruneTar_out

/-- Every command answers a next state, closed by its own row. -/
theorem exec_closes (i : Instr) (s : State) : ∃ t, exec i s = .next (s.close i.dt t) := by
  cases i <;> exact ⟨_, rfl⟩

/-- The row of an event answers its meaning's state. -/
theorem completes_event {s t : State} {i : Instr} {dt : Nat} {f : State → State} (h : exec i s = runEvent dt f s) (hd : i.dt = dt)
    (hf : f (s.elapse dt) = t) : Completes i s t := by
  subst hd; unfold Completes; rw [h, ← hf]; rfl

/-- The row of a host command answers its meaning's state once what waited for it has ended. -/
theorem completes_cmd {s t : State} {i : Instr} {dt id code : Nat} {c : Cmd} {f : Cmd → State → State}
    (h : exec i s = runCmd dt id code f s) (hd : i.dt = dt) (hr : Runs s dt id code c) (hf : f c (s.atRow dt id) = t) :
    Completes i s t.settle := by
  subst hd; unfold Completes; rw [h]; unfold runCmd; rw [show (s.elapse i.dt).runs id code = some c from hr, ← hf]; rfl

/-- The row of a KV command that does not wait. -/
theorem completes_kv {s t : State} {i : Instr} {dt id code : Nat} {c : Cmd} {f : Cmd → State → State × Bool}
    (h : exec i s = runKv dt id code f s) (hd : i.dt = dt) (hr : Runs s dt id code c) (hf : f c (s.elapse dt) = (t, false)) :
    Completes i s (t.start id).settle := by
  subst hd; unfold Completes; rw [h]; unfold runKv runEvent
  simp only [show (s.elapse i.dt).runs id code = some c from hr, hf]; rfl

end Sys2Proof.Machine
end

