-- ==== Sys2Proof/Laws/PerInstr.lean ====
section
/-! SUPPORT. Laws of commands as syntax, one lemma per constructor: the code of a host command lies in one of the ten groups of R13, and the row of a host command is well formed whatever number it names. -/
namespace Sys2Proof.Laws.HostCode

/-- Codes that a host may send: groups 1 to 10 of R13, and below the codes of P0. -/
def hostCode (c : Nat) : Bool := decide (1 ≤ c / 256) && decide (c / 256 ≤ 10) && decide (c % 256 < 128)

/-- A row of a host command: its code is one the host may send, and the row is well formed. -/
def Statement (i : Instr) : Prop := ∀ n c, i.hostCmd = some (n, c) → hostCode c = true ∧ i.wf = true

theorem configRequest (dt : Nat) (reg : CfgReg) (wr : Option W32) : Statement (.configRequest dt reg wr) := fun _ _ h => by cases h
theorem pciePerstRelease (dt : Nat) : Statement (.pciePerstRelease dt) := fun _ _ h => by cases h
theorem pcieLinkReset (dt : Nat) (cause : LinkResetCause) : Statement (.pcieLinkReset dt cause) := fun _ _ h => by cases h
theorem pcieLinkUp (dt : Nat) : Statement (.pcieLinkUp dt) := fun _ _ h => by cases h
theorem hostLinkRestored (dt : Nat) : Statement (.hostLinkRestored dt) := fun _ _ h => by cases h
theorem pcieD3hotEntry (dt : Nat) : Statement (.pcieD3hotEntry dt) := fun _ _ h => by cases h
theorem pcieD0Return (dt : Nat) : Statement (.pcieD0Return dt) := fun _ _ h => by cases h
theorem pcieError (dt : Nat) (err : PcieErr) : Statement (.pcieError dt err) := fun _ _ h => by cases h
theorem mboxSlotWrite (dt : Nat) (off : Nat) (bytes : Bytes) (poisoned : Bool) : Statement (.mboxSlotWrite dt off bytes poisoned) := fun _ _ h => by cases h
theorem commandAccept (dt : Nat) : Statement (.commandAccept dt) := fun _ _ h => by cases h
theorem commandDispatch (dt : Nat) (id : Nat) : Statement (.commandDispatch dt id) := fun _ _ h => by cases h
theorem commandCommit (dt : Nat) (id : Nat) : Statement (.commandCommit dt id) := fun _ _ h => by cases h
theorem responseWrite (dt : Nat) : Statement (.responseWrite dt) := fun _ _ h => by cases h
theorem eventSlotWrite (dt : Nat) : Statement (.eventSlotWrite dt) := fun _ _ h => by cases h
theorem msixModerationExpiry (dt : Nat) (v : Nat) : Statement (.msixModerationExpiry dt v) := fun _ _ h => by cases h
theorem msixUnmask (dt : Nat) (v : Option Nat) : Statement (.msixUnmask dt v) := fun _ _ h => by cases h
theorem dportPtrWrite (dt : Nat) (w : PtrWrite) : Statement (.dportPtrWrite dt w) := fun _ _ h => by cases h
theorem dportWrite (dt : Nat) (dws : List W32) (firstBe : BitVec 4) (lastBe : BitVec 4) (poisoned : Bool) : Statement (.dportWrite dt dws firstBe lastBe poisoned) := fun _ _ h => by cases h
theorem dportRead (dt : Nat) (dws : Nat) : Statement (.dportRead dt dws) := fun _ _ h => by cases h
theorem warmResetRequestWrite (dt : Nat) (v : W32) : Statement (.warmResetRequestWrite dt v) := fun _ _ h => by cases h
theorem registerWrite (dt : Nat) (who : Writer) (addr : Nat) (size : Nat) (v : W64) : Statement (.registerWrite dt who addr size v) := fun _ _ h => by cases h
theorem paceIntervalEnd (dt : Nat) (ss : Nat) (ops : List Nat) (probes : List Nat) : Statement (.paceIntervalEnd dt ss ops probes) := fun _ _ h => by cases h
theorem avsSetPointStep (dt : Nat) (v : VcoreRead) : Statement (.avsSetPointStep dt v) := fun _ _ h => by cases h
theorem powerLimitTick (dt : Nat) (p : PowerRead) (busyPct : Nat) : Statement (.powerLimitTick dt p busyPct) := fun _ _ h => by cases h
theorem burstEnd (dt : Nat) : Statement (.burstEnd dt) := fun _ _ h => by cases h
theorem thermalThrottleTick (dt : Nat) : Statement (.thermalThrottleTick dt) := fun _ _ h => by cases h
theorem avsFault (dt : Nat) : Statement (.avsFault dt) := fun _ _ h => by cases h
theorem paceTableMerge (dt : Nat) : Statement (.paceTableMerge dt) := fun _ _ h => by cases h
theorem ctrlAbort (dt : Nat) (id : Nat) : Statement (.ctrlAbort dt id) := fun _ _ h => by cases h; exact ⟨rfl, rfl⟩
theorem ctrlFuncDisable (dt : Nat) (id : Nat) : Statement (.ctrlFuncDisable dt id) := fun _ _ h => by cases h; exact ⟨rfl, rfl⟩
theorem ctrlFuncEnable (dt : Nat) (id : Nat) : Statement (.ctrlFuncEnable dt id) := fun _ _ h => by cases h; exact ⟨rfl, rfl⟩
theorem drainTimeout (dt : Nat) (id : Nat) : Statement (.drainTimeout dt id) := fun _ _ h => by cases h
theorem ctrlPartDefine (dt : Nat) (id : Nat) : Statement (.ctrlPartDefine dt id) := fun _ _ h => by cases h; exact ⟨rfl, rfl⟩
theorem ctrlPartStart (dt : Nat) (id : Nat) : Statement (.ctrlPartStart dt id) := fun _ _ h => by cases h; exact ⟨rfl, rfl⟩
theorem ctrlPartStop (dt : Nat) (id : Nat) : Statement (.ctrlPartStop dt id) := fun _ _ h => by cases h; exact ⟨rfl, rfl⟩
theorem ctrlPartRestart (dt : Nat) (id : Nat) : Statement (.ctrlPartRestart dt id) := fun _ _ h => by cases h; exact ⟨rfl, rfl⟩
theorem partitionRestartEnd (dt : Nat) (p : Nat) : Statement (.partitionRestartEnd dt p) := fun _ _ h => by cases h
theorem partitionRestartTimeout (dt : Nat) (p : Nat) : Statement (.partitionRestartTimeout dt p) := fun _ _ h => by cases h
theorem ctrlSetHostRanges (dt : Nat) (id : Nat) : Statement (.ctrlSetHostRanges dt id) := fun _ _ h => by cases h; exact ⟨rfl, rfl⟩
theorem ctrlSetWindows (dt : Nat) (id : Nat) : Statement (.ctrlSetWindows dt id) := fun _ _ h => by cases h; exact ⟨rfl, rfl⟩
theorem windowScheduleStart (dt : Nat) : Statement (.windowScheduleStart dt) := fun _ _ h => by cases h
theorem windowBoundary (dt : Nat) (core : Nat) : Statement (.windowBoundary dt core) := fun _ _ h => by cases h
theorem ctrlFwUpdate (dt : Nat) (id : Nat) : Statement (.ctrlFwUpdate dt id) := fun _ _ h => by cases h; exact ⟨rfl, rfl⟩
theorem fwUpdateSwap (dt : Nat) (id : Nat) : Statement (.fwUpdateSwap dt id) := fun _ _ h => by cases h
theorem ctrlCoreRetire (dt : Nat) (id : Nat) : Statement (.ctrlCoreRetire dt id) := fun _ _ h => by cases h; exact ⟨rfl, rfl⟩
theorem powerSetLimit (dt : Nat) (id : Nat) : Statement (.powerSetLimit dt id) := fun _ _ h => by cases h; exact ⟨rfl, rfl⟩
theorem powerSetPolicy (dt : Nat) (id : Nat) : Statement (.powerSetPolicy dt id) := fun _ _ h => by cases h; exact ⟨rfl, rfl⟩
theorem powerSetMargin (dt : Nat) (id : Nat) : Statement (.powerSetMargin dt id) := fun _ _ h => by cases h; exact ⟨rfl, rfl⟩
theorem powerReadPaceTable (dt : Nat) (id : Nat) : Statement (.powerReadPaceTable dt id) := fun _ _ h => by cases h; exact ⟨rfl, rfl⟩
theorem powerLoadPaceTable (dt : Nat) (id : Nat) : Statement (.powerLoadPaceTable dt id) := fun _ _ h => by cases h; exact ⟨rfl, rfl⟩
theorem powerSetWarn (dt : Nat) (id : Nat) : Statement (.powerSetWarn dt id) := fun _ _ h => by cases h; exact ⟨rfl, rfl⟩
theorem powerStatus (dt : Nat) (id : Nat) : Statement (.powerStatus dt id) := fun _ _ h => by cases h; exact ⟨rfl, rfl⟩
theorem timebasePllLock (dt : Nat) : Statement (.timebasePllLock dt) := fun _ _ h => by cases h
theorem timeSetFormat (dt : Nat) (id : Nat) : Statement (.timeSetFormat dt id) := fun _ _ h => by cases h; exact ⟨rfl, rfl⟩
theorem timeSetSource (dt : Nat) (id : Nat) : Statement (.timeSetSource dt id) := fun _ _ h => by cases h; exact ⟨rfl, rfl⟩
theorem timeSetIncrement (dt : Nat) (id : Nat) : Statement (.timeSetIncrement dt id) := fun _ _ h => by cases h; exact ⟨rfl, rfl⟩
theorem timeStep (dt : Nat) (id : Nat) : Statement (.timeStep dt id) := fun _ _ h => by cases h; exact ⟨rfl, rfl⟩
theorem timeStepUnlock (dt : Nat) (id : Nat) : Statement (.timeStepUnlock dt id) := fun _ _ h => by cases h; exact ⟨rfl, rfl⟩
theorem timeSetJumpThreshold (dt : Nat) (id : Nat) : Statement (.timeSetJumpThreshold dt id) := fun _ _ h => by cases h; exact ⟨rfl, rfl⟩
theorem timeRead (dt : Nat) (id : Nat) : Statement (.timeRead dt id) := fun _ _ h => by cases h; exact ⟨rfl, rfl⟩
theorem timePpsConfig (dt : Nat) (id : Nat) : Statement (.timePpsConfig dt id) := fun _ _ h => by cases h; exact ⟨rfl, rfl⟩
theorem timePtpConfig (dt : Nat) (id : Nat) : Statement (.timePtpConfig dt id) := fun _ _ h => by cases h; exact ⟨rfl, rfl⟩
theorem timeSnapshot (dt : Nat) (id : Nat) : Statement (.timeSnapshot dt id) := fun _ _ h => by cases h; exact ⟨rfl, rfl⟩
theorem timeLaunchAdd (dt : Nat) (id : Nat) : Statement (.timeLaunchAdd dt id) := fun _ _ h => by cases h; exact ⟨rfl, rfl⟩
theorem timeLaunchCancel (dt : Nat) (id : Nat) : Statement (.timeLaunchCancel dt id) := fun _ _ h => by cases h; exact ⟨rfl, rfl⟩
theorem timeLaunchStatus (dt : Nat) (id : Nat) : Statement (.timeLaunchStatus dt id) := fun _ _ h => by cases h; exact ⟨rfl, rfl⟩
theorem tbIncWrite (dt : Nat) (who : Writer) (tb : Nat) (v : W64) : Statement (.tbIncWrite dt who tb v) := fun _ _ h => by cases h
theorem tbStepWrite (dt : Nat) (who : Writer) (tb : Nat) (v : W64) : Statement (.tbStepWrite dt who tb v) := fun _ _ h => by cases h
theorem tbUnlockWrite (dt : Nat) (tb : Nat) (v : W32) : Statement (.tbUnlockWrite dt tb v) := fun _ _ h => by cases h
theorem tbUnlockExpiry (dt : Nat) (tb : Nat) : Statement (.tbUnlockExpiry dt tb) := fun _ _ h => by cases h
theorem tbSecRead (dt : Nat) (tb : Nat) : Statement (.tbSecRead dt tb) := fun _ _ h => by cases h
theorem timeBaseStepApply (dt : Nat) (tb : Nat) : Statement (.timeBaseStepApply dt tb) := fun _ _ h => by cases h
theorem xstampWrite (dt : Nat) (v : W32) : Statement (.xstampWrite dt v) := fun _ _ h => by cases h
theorem captureEdge (dt : Nat) (src : Nat) (rising : Bool) : Statement (.captureEdge dt src rising) := fun _ _ h => by cases h
theorem capStatRead (dt : Nat) (ch : Nat) : Statement (.capStatRead dt ch) := fun _ _ h => by cases h
theorem compareFire (dt : Nat) (k : Nat) : Statement (.compareFire dt k) := fun _ _ h => by cases h
theorem timerefLost (dt : Nat) : Statement (.timerefLost dt) := fun _ _ h => by cases h
theorem timerefRestored (dt : Nat) : Statement (.timerefRestored dt) := fun _ _ h => by cases h
theorem ppsInEdge (dt : Nat) (rising : Bool) : Statement (.ppsInEdge dt rising) := fun _ _ h => by cases h
theorem ppsOutPulse (dt : Nat) : Statement (.ppsOutPulse dt) := fun _ _ h => by cases h
theorem ptpEventRx (dt : Nat) (port : Nat) (tb : Nat) (msg : PtpMsg) : Statement (.ptpEventRx dt port tb msg) := fun _ _ h => by cases h
theorem geyserEntryWriteP0 (dt : Nat) (i : Nat) (off : Nat) (bytes : Bytes) : Statement (.geyserEntryWriteP0 dt i off bytes) := fun _ _ h => by cases h
theorem geyserFetch (dt : Nat) (i : Nat) : Statement (.geyserFetch dt i) := fun _ _ h => by cases h
theorem geyserFetchDone (dt : Nat) (i : Nat) : Statement (.geyserFetchDone dt i) := fun _ _ h => by cases h
theorem geyserLaunchTick (dt : Nat) (i : Nat) : Statement (.geyserLaunchTick dt i) := fun _ _ h => by cases h
theorem geyserHeldStart (dt : Nat) (i : Nat) : Statement (.geyserHeldStart dt i) := fun _ _ h => by cases h
theorem geyserTransmitDone (dt : Nat) (i : Nat) : Statement (.geyserTransmitDone dt i) := fun _ _ h => by cases h
theorem snapshotEpoch (dt : Nat) : Statement (.snapshotEpoch dt) := fun _ _ h => by cases h
theorem snapshotRecordWrite (dt : Nat) (banks : List BankReport) : Statement (.snapshotRecordWrite dt banks) := fun _ _ h => by cases h
theorem intakePortConfig (dt : Nat) (id : Nat) : Statement (.intakePortConfig dt id) := fun _ _ h => by cases h; exact ⟨rfl, rfl⟩
theorem intakeStreamConfig (dt : Nat) (id : Nat) : Statement (.intakeStreamConfig dt id) := fun _ _ h => by cases h; exact ⟨rfl, rfl⟩
theorem intakeE2eConfig (dt : Nat) (id : Nat) : Statement (.intakeE2eConfig dt id) := fun _ _ h => by cases h; exact ⟨rfl, rfl⟩
theorem intakeStreamEnable (dt : Nat) (id : Nat) : Statement (.intakeStreamEnable dt id) := fun _ _ h => by cases h; exact ⟨rfl, rfl⟩
theorem intakeStreamDisable (dt : Nat) (id : Nat) : Statement (.intakeStreamDisable dt id) := fun _ _ h => by cases h; exact ⟨rfl, rfl⟩
theorem intakeResync (dt : Nat) (id : Nat) : Statement (.intakeResync dt id) := fun _ _ h => by cases h; exact ⟨rfl, rfl⟩
theorem intakeSetProfile (dt : Nat) (id : Nat) : Statement (.intakeSetProfile dt id) := fun _ _ h => by cases h; exact ⟨rfl, rfl⟩
theorem intakeStreamStatus (dt : Nat) (id : Nat) : Statement (.intakeStreamStatus dt id) := fun _ _ h => by cases h; exact ⟨rfl, rfl⟩
theorem sensorPacketRx (dt : Nat) (pkt : SensorPacket) : Statement (.sensorPacketRx dt pkt) := fun _ _ h => by cases h
theorem encoderSampleTick (dt : Nat) (port : Nat) (pos : W32) (idx : BitVec 16) (status : BitVec 16) (edgeNs : W32) : Statement (.encoderSampleTick dt port pos idx status edgeNs) := fun _ _ h => by cases h
theorem streamSilentTimeout (dt : Nat) (st : Nat) : Statement (.streamSilentTimeout dt st) := fun _ _ h => by cases h
theorem queueRead (dt : Nat) (st : Nat) : Statement (.queueRead dt st) := fun _ _ h => by cases h
theorem qDropRestWrite (dt : Nat) (st : Nat) : Statement (.qDropRestWrite dt st) := fun _ _ h => by cases h
theorem tapDelivery (dt : Nat) (tap : Nat) : Statement (.tapDelivery dt tap) := fun _ _ h => by cases h
theorem churnOpenInstant (dt : Nat) (id : Nat) : Statement (.churnOpenInstant dt id) := fun _ _ h => by cases h; exact ⟨rfl, rfl⟩
theorem churnCloseSchedule (dt : Nat) (id : Nat) : Statement (.churnCloseSchedule dt id) := fun _ _ h => by cases h; exact ⟨rfl, rfl⟩
theorem churnStreamRole (dt : Nat) (id : Nat) : Statement (.churnStreamRole dt id) := fun _ _ h => by cases h; exact ⟨rfl, rfl⟩
theorem churnSetEgo (dt : Nat) (id : Nat) : Statement (.churnSetEgo dt id) := fun _ _ h => by cases h; exact ⟨rfl, rfl⟩
theorem churnSetTransform (dt : Nat) (id : Nat) : Statement (.churnSetTransform dt id) := fun _ _ h => by cases h; exact ⟨rfl, rfl⟩
theorem churnInstantStatus (dt : Nat) (id : Nat) : Statement (.churnInstantStatus dt id) := fun _ _ h => by cases h; exact ⟨rfl, rfl⟩
theorem egoExtTWrite (dt : Nat) (who : Writer) (v : W64) : Statement (.egoExtTWrite dt who v) := fun _ _ h => by cases h
theorem instantOpen (dt : Nat) (sched : Nat) : Statement (.instantOpen dt sched) := fun _ _ h => by cases h
theorem instantCloseWatermark (dt : Nat) (sched : Nat) : Statement (.instantCloseWatermark dt sched) := fun _ _ h => by cases h
theorem instantCloseLimit (dt : Nat) (sched : Nat) : Statement (.instantCloseLimit dt sched) := fun _ _ h => by cases h
theorem instantRecordCommit (dt : Nat) (sched : Nat) (k : Nat) : Statement (.instantRecordCommit dt sched k) := fun _ _ h => by cases h
theorem revisionRecordCommit (dt : Nat) (sched : Nat) (k : Nat) : Statement (.revisionRecordCommit dt sched k) := fun _ _ h => by cases h
theorem instantSeal (dt : Nat) (sched : Nat) (k : Nat) : Statement (.instantSeal dt sched k) := fun _ _ h => by cases h
theorem churnPointFormat (dt : Nat) (id : Nat) : Statement (.churnPointFormat dt id) := fun _ _ h => by cases h; exact ⟨rfl, rfl⟩
theorem churnVoxelConfig (dt : Nat) (id : Nat) : Statement (.churnVoxelConfig dt id) := fun _ _ h => by cases h; exact ⟨rfl, rfl⟩
theorem churnOctreeConfig (dt : Nat) (id : Nat) : Statement (.churnOctreeConfig dt id) := fun _ _ h => by cases h; exact ⟨rfl, rfl⟩
theorem churnOctreeClear (dt : Nat) (id : Nat) : Statement (.churnOctreeClear dt id) := fun _ _ h => by cases h; exact ⟨rfl, rfl⟩
theorem churnTableSplit (dt : Nat) (id : Nat) : Statement (.churnTableSplit dt id) := fun _ _ h => by cases h; exact ⟨rfl, rfl⟩
theorem tableSplitApply (dt : Nat) (id : Nat) : Statement (.tableSplitApply dt id) := fun _ _ h => by cases h
theorem churnVoxelStatus (dt : Nat) (id : Nat) : Statement (.churnVoxelStatus dt id) := fun _ _ h => by cases h; exact ⟨rfl, rfl⟩
theorem pointFrameBuild (dt : Nat) : Statement (.pointFrameBuild dt) := fun _ _ h => by cases h
theorem churnTrackConfig (dt : Nat) (id : Nat) : Statement (.churnTrackConfig dt id) := fun _ _ h => by cases h; exact ⟨rfl, rfl⟩
theorem churnAssociate (dt : Nat) (id : Nat) : Statement (.churnAssociate dt id) := fun _ _ h => by cases h; exact ⟨rfl, rfl⟩
theorem churnTrackDrop (dt : Nat) (id : Nat) : Statement (.churnTrackDrop dt id) := fun _ _ h => by cases h; exact ⟨rfl, rfl⟩
theorem churnTrackStatus (dt : Nat) (id : Nat) : Statement (.churnTrackStatus dt id) := fun _ _ h => by cases h; exact ⟨rfl, rfl⟩
theorem planGridConfig (dt : Nat) (id : Nat) : Statement (.planGridConfig dt id) := fun _ _ h => by cases h; exact ⟨rfl, rfl⟩
theorem planGridWrite (dt : Nat) (id : Nat) : Statement (.planGridWrite dt id) := fun _ _ h => by cases h; exact ⟨rfl, rfl⟩
theorem planModelSet (dt : Nat) (id : Nat) : Statement (.planModelSet dt id) := fun _ _ h => by cases h; exact ⟨rfl, rfl⟩
theorem planCheck (dt : Nat) (id : Nat) : Statement (.planCheck dt id) := fun _ _ h => by cases h; exact ⟨rfl, rfl⟩
theorem planSearch (dt : Nat) (id : Nat) : Statement (.planSearch dt id) := fun _ _ h => by cases h; exact ⟨rfl, rfl⟩
theorem planStopConfig (dt : Nat) (id : Nat) : Statement (.planStopConfig dt id) := fun _ _ h => by cases h; exact ⟨rfl, rfl⟩
theorem planStatus (dt : Nat) (id : Nat) : Statement (.planStatus dt id) := fun _ _ h => by cases h; exact ⟨rfl, rfl⟩
theorem gridFill (dt : Nat) : Statement (.gridFill dt) := fun _ _ h => by cases h
theorem checkJob (dt : Nat) : Statement (.checkJob dt) := fun _ _ h => by cases h
theorem searchTimeout (dt : Nat) (id : Nat) : Statement (.searchTimeout dt id) := fun _ _ h => by cases h
theorem stopRecordBuild (dt : Nat) : Statement (.stopRecordBuild dt) := fun _ _ h => by cases h
theorem tensorMatmul (dt : Nat) (id : Nat) : Statement (.tensorMatmul dt id) := fun _ _ h => by cases h; exact ⟨rfl, rfl⟩
theorem tensorVector (dt : Nat) (id : Nat) : Statement (.tensorVector dt id) := fun _ _ h => by cases h; exact ⟨rfl, rfl⟩
theorem tensorSpconv (dt : Nat) (id : Nat) : Statement (.tensorSpconv dt id) := fun _ _ h => by cases h; exact ⟨rfl, rfl⟩
theorem tensorChain (dt : Nat) (id : Nat) : Statement (.tensorChain dt id) := fun _ _ h => by cases h; exact ⟨rfl, rfl⟩
theorem tensorRngSeed (dt : Nat) (id : Nat) : Statement (.tensorRngSeed dt id) := fun _ _ h => by cases h; exact ⟨rfl, rfl⟩
theorem tensorCoreStatus (dt : Nat) (id : Nat) : Statement (.tensorCoreStatus dt id) := fun _ _ h => by cases h; exact ⟨rfl, rfl⟩
theorem attnFwd (dt : Nat) (id : Nat) : Statement (.attnFwd dt id) := fun _ _ h => by cases h; exact ⟨rfl, rfl⟩
theorem attnBwd (dt : Nat) (id : Nat) : Statement (.attnBwd dt id) := fun _ _ h => by cases h; exact ⟨rfl, rfl⟩
theorem rngSeedHiWrite (dt : Nat) (core : Nat) (v : W64) : Statement (.rngSeedHiWrite dt core v) := fun _ _ h => by cases h
theorem descriptorStart (dt : Nat) (core : Nat) : Statement (.descriptorStart dt core) := fun _ _ h => by cases h
theorem tileComplete (dt : Nat) (core : Nat) (rep : TileReport) : Statement (.tileComplete dt core rep) := fun _ _ h => by cases h
theorem checkerRerunStart (dt : Nat) (id : Nat) (slot : Nat) : Statement (.checkerRerunStart dt id slot) := fun _ _ h => by cases h
theorem checkVerdict (dt : Nat) (id : Nat) (rerun : List (W32 × W32)) : Statement (.checkVerdict dt id rerun) := fun _ _ h => by cases h
theorem starterWindowOpen (dt : Nat) (slot : Nat) : Statement (.starterWindowOpen dt slot) := fun _ _ h => by cases h
theorem starterComplete (dt : Nat) (slot : Nat) (out : Bytes) : Statement (.starterComplete dt slot out) := fun _ _ h => by cases h
theorem moveCopy (dt : Nat) (id : Nat) : Statement (.moveCopy dt id) := fun _ _ h => by cases h; exact ⟨rfl, rfl⟩
theorem moveConcat (dt : Nat) (id : Nat) : Statement (.moveConcat dt id) := fun _ _ h => by cases h; exact ⟨rfl, rfl⟩
theorem moveGather (dt : Nat) (id : Nat) : Statement (.moveGather dt id) := fun _ _ h => by cases h; exact ⟨rfl, rfl⟩
theorem moveScatter (dt : Nat) (id : Nat) : Statement (.moveScatter dt id) := fun _ _ h => by cases h; exact ⟨rfl, rfl⟩
theorem moveQueueRead (dt : Nat) (id : Nat) : Statement (.moveQueueRead dt id) := fun _ _ h => by cases h; exact ⟨rfl, rfl⟩
theorem moveFrameRing (dt : Nat) (id : Nat) : Statement (.moveFrameRing dt id) := fun _ _ h => by cases h; exact ⟨rfl, rfl⟩
theorem movePushHost (dt : Nat) (id : Nat) : Statement (.movePushHost dt id) := fun _ _ h => by cases h; exact ⟨rfl, rfl⟩
theorem moveLinkConfig (dt : Nat) (id : Nat) : Statement (.moveLinkConfig dt id) := fun _ _ h => by cases h; exact ⟨rfl, rfl⟩
theorem moveLinkRetrain (dt : Nat) (id : Nat) : Statement (.moveLinkRetrain dt id) := fun _ _ h => by cases h; exact ⟨rfl, rfl⟩
theorem linkRetrainStart (dt : Nat) (id : Nat) : Statement (.linkRetrainStart dt id) := fun _ _ h => by cases h
theorem moveLinkStatus (dt : Nat) (id : Nat) : Statement (.moveLinkStatus dt id) := fun _ _ h => by cases h; exact ⟨rfl, rfl⟩
theorem moveCollective (dt : Nat) (id : Nat) : Statement (.moveCollective dt id) := fun _ _ h => by cases h; exact ⟨rfl, rfl⟩
theorem collMatchRecordRx (dt : Nat) (collId : Nat) (rec : CollRecord) : Statement (.collMatchRecordRx dt collId rec) := fun _ _ h => by cases h
theorem collTimeout (dt : Nat) (id : Nat) : Statement (.collTimeout dt id) := fun _ _ h => by cases h
theorem linkSignalDetect (dt : Nat) (port : Nat) : Statement (.linkSignalDetect dt port) := fun _ _ h => by cases h
theorem linkEqualizeDone (dt : Nat) (port : Nat) (width : Option Nat) : Statement (.linkEqualizeDone dt port width) := fun _ _ h => by cases h
theorem linkIdentifyRx (dt : Nat) (port : Nat) (peer : LinkPeer) : Statement (.linkIdentifyRx dt port peer) := fun _ _ h => by cases h
theorem linkAuthConfirm (dt : Nat) (port : Nat) (tag : Bytes) : Statement (.linkAuthConfirm dt port tag) := fun _ _ h => by cases h
theorem linkLossOfLock (dt : Nat) (port : Nat) : Statement (.linkLossOfLock dt port) := fun _ _ h => by cases h
theorem linkFlitRx (dt : Nat) (port : Nat) (chk : FlitCheck) (body : FlitBody) : Statement (.linkFlitRx dt port chk body) := fun _ _ h => by cases h
theorem kvInit (dt : Nat) (id : Nat) : Statement (.kvInit dt id) := fun _ _ h => by cases h; exact ⟨rfl, rfl⟩
theorem kvPoolCreate (dt : Nat) (id : Nat) : Statement (.kvPoolCreate dt id) := fun _ _ h => by cases h; exact ⟨rfl, rfl⟩
theorem kvCellarConfig (dt : Nat) (id : Nat) : Statement (.kvCellarConfig dt id) := fun _ _ h => by cases h; exact ⟨rfl, rfl⟩
theorem kvSeqCreate (dt : Nat) (id : Nat) : Statement (.kvSeqCreate dt id) := fun _ _ h => by cases h; exact ⟨rfl, rfl⟩
theorem kvSeqFork (dt : Nat) (id : Nat) : Statement (.kvSeqFork dt id) := fun _ _ h => by cases h; exact ⟨rfl, rfl⟩
theorem kvSeqTruncate (dt : Nat) (id : Nat) : Statement (.kvSeqTruncate dt id) := fun _ _ h => by cases h; exact ⟨rfl, rfl⟩
theorem kvSeqRelease (dt : Nat) (id : Nat) : Statement (.kvSeqRelease dt id) := fun _ _ h => by cases h; exact ⟨rfl, rfl⟩
theorem kvAppend (dt : Nat) (id : Nat) : Statement (.kvAppend dt id) := fun _ _ h => by cases h; exact ⟨rfl, rfl⟩
theorem kvPublish (dt : Nat) (id : Nat) : Statement (.kvPublish dt id) := fun _ _ h => by cases h; exact ⟨rfl, rfl⟩
theorem kvPrefetch (dt : Nat) (id : Nat) : Statement (.kvPrefetch dt id) := fun _ _ h => by cases h; exact ⟨rfl, rfl⟩
theorem kvSeqSend (dt : Nat) (id : Nat) : Statement (.kvSeqSend dt id) := fun _ _ h => by cases h; exact ⟨rfl, rfl⟩
theorem kvSeqRecv (dt : Nat) (id : Nat) : Statement (.kvSeqRecv dt id) := fun _ _ h => by cases h; exact ⟨rfl, rfl⟩
theorem kvSetRole (dt : Nat) (id : Nat) : Statement (.kvSetRole dt id) := fun _ _ h => by cases h; exact ⟨rfl, rfl⟩
theorem kvSeqStatus (dt : Nat) (id : Nat) : Statement (.kvSeqStatus dt id) := fun _ _ h => by cases h; exact ⟨rfl, rfl⟩
theorem kvWalkEmit (dt : Nat) (id : Nat) : Statement (.kvWalkEmit dt id) := fun _ _ h => by cases h
theorem kvReclaim (dt : Nat) (pool : Nat) : Statement (.kvReclaim dt pool) := fun _ _ h => by cases h
theorem kvSpillDone (dt : Nat) (pool : Nat) (page : Nat) : Statement (.kvSpillDone dt pool page) := fun _ _ h => by cases h
theorem kvFetchDone (dt : Nat) (pool : Nat) (page : Nat) (slot : Bytes) : Statement (.kvFetchDone dt pool page slot) := fun _ _ h => by cases h
theorem memArbConfig (dt : Nat) (id : Nat) : Statement (.memArbConfig dt id) := fun _ _ h => by cases h; exact ⟨rfl, rfl⟩
theorem memArbStatus (dt : Nat) (id : Nat) : Statement (.memArbStatus dt id) := fun _ _ h => by cases h; exact ⟨rfl, rfl⟩
theorem memErrStatus (dt : Nat) (id : Nat) : Statement (.memErrStatus dt id) := fun _ _ h => by cases h; exact ⟨rfl, rfl⟩
theorem arbiterDecision (dt : Nat) (arb : Nat) (arrivals : List ArbReq) : Statement (.arbiterDecision dt arb arrivals) := fun _ _ h => by cases h
theorem arbiterSliceBoundary (dt : Nat) (arb : Nat) : Statement (.arbiterSliceBoundary dt arb) := fun _ _ h => by cases h
theorem arbFreezeWrite (dt : Nat) (who : Writer) (arb : Nat) (v : Bool) : Statement (.arbFreezeWrite dt who arb v) := fun _ _ h => by cases h
theorem safetyConfigLoad (dt : Nat) (id : Nat) : Statement (.safetyConfigLoad dt id) := fun _ _ h => by cases h; exact ⟨rfl, rfl⟩
theorem safetyBandLoad (dt : Nat) (id : Nat) : Statement (.safetyBandLoad dt id) := fun _ _ h => by cases h; exact ⟨rfl, rfl⟩
theorem safetyFramesetConfig (dt : Nat) (id : Nat) : Statement (.safetyFramesetConfig dt id) := fun _ _ h => by cases h; exact ⟨rfl, rfl⟩
theorem safetySafeState (dt : Nat) (id : Nat) : Statement (.safetySafeState dt id) := fun _ _ h => by cases h; exact ⟨rfl, rfl⟩
theorem safetyStatus (dt : Nat) (id : Nat) : Statement (.safetyStatus dt id) := fun _ _ h => by cases h; exact ⟨rfl, rfl⟩
theorem safetyStandbyConfig (dt : Nat) (id : Nat) : Statement (.safetyStandbyConfig dt id) := fun _ _ h => by cases h; exact ⟨rfl, rfl⟩
theorem safetyTrajOffer (dt : Nat) (id : Nat) : Statement (.safetyTrajOffer dt id) := fun _ _ h => by cases h; exact ⟨rfl, rfl⟩
theorem safetyReflexMode (dt : Nat) (id : Nat) : Statement (.safetyReflexMode dt id) := fun _ _ h => by cases h; exact ⟨rfl, rfl⟩
theorem safetyReflexStatus (dt : Nat) (id : Nat) : Statement (.safetyReflexStatus dt id) := fun _ _ h => by cases h; exact ⟨rfl, rfl⟩
theorem heartbeatTx (dt : Nat) : Statement (.heartbeatTx dt) := fun _ _ h => by cases h
theorem heartbeatRx (dt : Nat) (dev : Nat) : Statement (.heartbeatRx dt dev) := fun _ _ h => by cases h
theorem heartbeatMissTimeout (dt : Nat) (dev : Nat) : Statement (.heartbeatMissTimeout dt dev) := fun _ _ h => by cases h
theorem reflexLoopRelease (dt : Nat) (n : Nat) : Statement (.reflexLoopRelease dt n) := fun _ _ h => by cases h
theorem reflexLoopComplete (dt : Nat) (n : Nat) (entry : Nat) (descOff : Nat) (runNs : Nat) (run : LoopRun) : Statement (.reflexLoopComplete dt n entry descOff runNs run) := fun _ _ h => by cases h
theorem trajSwap (dt : Nat) : Statement (.trajSwap dt) := fun _ _ h => by cases h
theorem trajStarved (dt : Nat) : Statement (.trajStarved dt) := fun _ _ h => by cases h
theorem stopStandstill (dt : Nat) : Statement (.stopStandstill dt) := fun _ _ h => by cases h
theorem safeAliveToggle (dt : Nat) : Statement (.safeAliveToggle dt) := fun _ _ h => by cases h
theorem secGetIdentity (dt : Nat) (id : Nat) : Statement (.secGetIdentity dt id) := fun _ _ h => by cases h; exact ⟨rfl, rfl⟩
theorem secAttest (dt : Nat) (id : Nat) : Statement (.secAttest dt id) := fun _ _ h => by cases h; exact ⟨rfl, rfl⟩
theorem secRollbackCommit (dt : Nat) (id : Nat) : Statement (.secRollbackCommit dt id) := fun _ _ h => by cases h; exact ⟨rfl, rfl⟩
theorem secRootRevoke (dt : Nat) (id : Nat) : Statement (.secRootRevoke dt id) := fun _ _ h => by cases h; exact ⟨rfl, rfl⟩
theorem secWeightLoad (dt : Nat) (id : Nat) : Statement (.secWeightLoad dt id) := fun _ _ h => by cases h; exact ⟨rfl, rfl⟩
theorem secWeightRelease (dt : Nat) (id : Nat) : Statement (.secWeightRelease dt id) := fun _ _ h => by cases h; exact ⟨rfl, rfl⟩
theorem secConfidentialEnter (dt : Nat) (id : Nat) : Statement (.secConfidentialEnter dt id) := fun _ _ h => by cases h; exact ⟨rfl, rfl⟩
theorem secDebugUnlock (dt : Nat) (id : Nat) : Statement (.secDebugUnlock dt id) := fun _ _ h => by cases h; exact ⟨rfl, rfl⟩
theorem porstLow (dt : Nat) (vaon : Bool) : Statement (.porstLow dt vaon) := fun _ _ h => by cases h
theorem coldStart (dt : Nat) : Statement (.coldStart dt) := fun _ _ h => by cases h
theorem vcorePgTimeout (dt : Nat) : Statement (.vcorePgTimeout dt) := fun _ _ h => by cases h
theorem hbmInitDone (dt : Nat) : Statement (.hbmInitDone dt) := fun _ _ h => by cases h
theorem imageVerifyDone (dt : Nat) : Statement (.imageVerifyDone dt) := fun _ _ h => by cases h
theorem bivexaReady (dt : Nat) : Statement (.bivexaReady dt) := fun _ _ h => by cases h
theorem p0WarmResetRequest (dt : Nat) : Statement (.p0WarmResetRequest dt) := fun _ _ h => by cases h
theorem mainResetEntry (dt : Nat) (cause : ResetCause) : Statement (.mainResetEntry dt cause) := fun _ _ h => by cases h
theorem mainDomainRelease (dt : Nat) : Statement (.mainDomainRelease dt) := fun _ _ h => by cases h
theorem supplyWarning (dt : Nat) (rail : Rail) (mv : Nat) : Statement (.supplyWarning dt rail mv) := fun _ _ h => by cases h
theorem supplyRestored (dt : Nat) (rail : Rail) : Statement (.supplyRestored dt rail) := fun _ _ h => by cases h
theorem vcoreResetThreshold (dt : Nat) : Statement (.vcoreResetThreshold dt) := fun _ _ h => by cases h
theorem supplyResetThreshold (dt : Nat) (rail : Rail) : Statement (.supplyResetThreshold dt rail) := fun _ _ h => by cases h
theorem vcoreRecovered (dt : Nat) : Statement (.vcoreRecovered dt) := fun _ _ h => by cases h
theorem tjSample (dt : Nat) (tj : Int) : Statement (.tjSample dt tj) := fun _ _ h => by cases h
theorem refclkLost (dt : Nat) (ref : RefClk) : Statement (.refclkLost dt ref) := fun _ _ h => by cases h
theorem refclkRestored (dt : Nat) (ref : RefClk) : Statement (.refclkRestored dt ref) := fun _ _ h => by cases h
theorem vcorePgSeen (dt : Nat) : Statement (.vcorePgSeen dt) := fun _ _ h => by cases h
theorem vaonPowerOnRelease (dt : Nat) : Statement (.vaonPowerOnRelease dt) := fun _ _ h => by cases h
theorem canArbitrationLost (dt : Nat) (i : Nat) : Statement (.canArbitrationLost dt i) := fun _ _ h => by cases h
theorem starterWindowClose (dt : Nat) (slot : Nat) : Statement (.starterWindowClose dt slot) := fun _ _ h => by cases h
theorem starterDigestCheck (dt : Nat) : Statement (.starterDigestCheck dt) := fun _ _ h => by cases h
theorem checkerWaitTimeout (dt : Nat) (id : Nat) : Statement (.checkerWaitTimeout dt id) := fun _ _ h => by cases h
theorem linkRekey (dt : Nat) (port : Nat) (peerNonce : Bytes) : Statement (.linkRekey dt port peerNonce) := fun _ _ h => by cases h
theorem linkDetectRetry (dt : Nat) (port : Nat) : Statement (.linkDetectRetry dt port) := fun _ _ h => by cases h
theorem ptpMessageInterval (dt : Nat) (tb : Nat) (tx : PtpTx) : Statement (.ptpMessageInterval dt tb tx) := fun _ _ h => by cases h
theorem kvSeqRecvTimeout (dt : Nat) (id : Nat) : Statement (.kvSeqRecvTimeout dt id) := fun _ _ h => by cases h
theorem bridgeTransparentCorrect (dt : Nat) (inPort : Nat) (outPort : Nat) (tb : Nat) (frame : Bytes) (rx : Nat) (tx : Nat) : Statement (.bridgeTransparentCorrect dt inPort outPort tb frame rx tx) := fun _ _ h => by cases h
theorem ppsMissingTimeout (dt : Nat) (tb : Nat) : Statement (.ppsMissingTimeout dt tb) := fun _ _ h => by cases h
theorem ptpAnnounceTimeout (dt : Nat) (tb : Nat) : Statement (.ptpAnnounceTimeout dt tb) := fun _ _ h => by cases h
theorem shortTbEntryHandoff (dt : Nat) (i : Nat) : Statement (.shortTbEntryHandoff dt i) := fun _ _ h => by cases h
theorem shortTbWrapRead (dt : Nat) (tb : Nat) : Statement (.shortTbWrapRead dt tb) := fun _ _ h => by cases h
theorem islandMonitorFail (dt : Nat) : Statement (.islandMonitorFail dt) := fun _ _ h => by cases h
theorem lockstepMismatch (dt : Nat) (addr : Nat) : Statement (.lockstepMismatch dt addr) := fun _ _ h => by cases h
theorem patrolScrub (dt : Nat) (find : ScrubFind) : Statement (.patrolScrub dt find) := fun _ _ h => by cases h
theorem hostCompletionTimeout (dt : Nat) (id : Nat) : Statement (.hostCompletionTimeout dt id) := fun _ _ h => by cases h
theorem avsRetry (dt : Nat) (ok : Bool) : Statement (.avsRetry dt ok) := fun _ _ h => by cases h
theorem queuePtrMismatch (dt : Nat) (st : Nat) (ptr : QPtr) : Statement (.queuePtrMismatch dt st ptr) := fun _ _ h => by cases h
theorem egoInvalidTimeout (dt : Nat) : Statement (.egoInvalidTimeout dt) := fun _ _ h => by cases h
theorem kvFetchTimeout (dt : Nat) (pool : Nat) (page : Nat) : Statement (.kvFetchTimeout dt pool page) := fun _ _ h => by cases h
theorem controlCoreWatchdogTimeout (dt : Nat) (cc : Nat) : Statement (.controlCoreWatchdogTimeout dt cc) := fun _ _ h => by cases h
theorem warmBoundTimeout (dt : Nat) : Statement (.warmBoundTimeout dt) := fun _ _ h => by cases h
theorem vcoreRecoveryTimeout (dt : Nat) : Statement (.vcoreRecoveryTimeout dt) := fun _ _ h => by cases h
theorem stopMirrorCopy (dt : Nat) : Statement (.stopMirrorCopy dt) := fun _ _ h => by cases h

end Sys2Proof.Laws.HostCode
end

