-- ==== Sys2Proof/Tests/Slice0.lean ====
section
/-! SUPPORT. Tests: a command that is not well formed for each check, the worked examples of the spec, and for each statement with
hypotheses a state and operands that meet them (wit_<statement>_<clause>; clauses count from 0 in the order of the text). -/

set_option Elab.async false
set_option maxRecDepth 4000

namespace Sys2Proof.Tests
open Sys2Proof.Machine

/-! A term that each check of Instr.wf refuses. -/

theorem test_wf_configRequest : Instr.wf (.configRequest 0 (.other 1024) none) = false := by decide
theorem test_wf_mboxSlotWrite : Instr.wf (.mboxSlotWrite 0 0x5FFF [1, 2] false) = false := by decide
theorem test_wf_mboxSlotWrite_empty : Instr.wf (.mboxSlotWrite 0 0 [] false) = false := by decide
theorem test_wf_msixModerationExpiry : Instr.wf (.msixModerationExpiry 0 6) = false := by decide
theorem test_wf_msixUnmask : Instr.wf (.msixUnmask 0 (some 6)) = false := by decide
theorem test_wf_dportWrite : Instr.wf (.dportWrite 0 [] 15 15 false) = false := by decide
theorem test_wf_dportRead : Instr.wf (.dportRead 0 1025) = false := by decide
theorem test_wf_registerWrite_size : Instr.wf (.registerWrite 0 .host 0 2 0) = false := by decide
theorem test_wf_registerWrite_align : Instr.wf (.registerWrite 0 .host 6 4 0) = false := by decide
theorem test_wf_paceIntervalEnd : Instr.wf (.paceIntervalEnd 0 8 [] []) = false := by decide
theorem test_wf_paceIntervalEnd_ops : Instr.wf (.paceIntervalEnd 0 0 (List.replicate 17 0) []) = false := by decide
theorem test_wf_powerLimitTick : Instr.wf (.powerLimitTick 0 ⟨0, 0⟩ 101) = false := by decide
theorem test_wf_partitionRestartEnd : Instr.wf (.partitionRestartEnd 0 8) = false := by decide
theorem test_wf_partitionRestartTimeout : Instr.wf (.partitionRestartTimeout 0 8) = false := by decide
theorem test_wf_windowBoundary : Instr.wf (.windowBoundary 0 14) = false := by decide
theorem test_wf_tbIncWrite : Instr.wf (.tbIncWrite 0 .p0 8 0) = false := by decide
theorem test_wf_tbStepWrite : Instr.wf (.tbStepWrite 0 .p0 8 0) = false := by decide
theorem test_wf_tbUnlockWrite : Instr.wf (.tbUnlockWrite 0 8 0) = false := by decide
theorem test_wf_tbUnlockExpiry : Instr.wf (.tbUnlockExpiry 0 8) = false := by decide
theorem test_wf_tbSecRead : Instr.wf (.tbSecRead 0 8) = false := by decide
theorem test_wf_timeBaseStepApply : Instr.wf (.timeBaseStepApply 0 8) = false := by decide
theorem test_wf_captureEdge : Instr.wf (.captureEdge 0 256 true) = false := by decide
theorem test_wf_capStatRead : Instr.wf (.capStatRead 0 32) = false := by decide
theorem test_wf_compareFire : Instr.wf (.compareFire 0 16) = false := by decide
theorem test_wf_ptpEventRx : Instr.wf (.ptpEventRx 0 8 0 (.announce 0 true)) = false := by decide
theorem test_wf_geyserEntryWriteP0 : Instr.wf (.geyserEntryWriteP0 0 0 63 [1, 2]) = false := by decide
theorem test_wf_geyserEntryWriteP0_index : Instr.wf (.geyserEntryWriteP0 0 256 0 [1]) = false := by decide
theorem test_wf_geyserFetch : Instr.wf (.geyserFetch 0 256) = false := by decide
theorem test_wf_geyserFetchDone : Instr.wf (.geyserFetchDone 0 256) = false := by decide
theorem test_wf_geyserLaunchTick : Instr.wf (.geyserLaunchTick 0 256) = false := by decide
theorem test_wf_geyserHeldStart : Instr.wf (.geyserHeldStart 0 256) = false := by decide
theorem test_wf_geyserTransmitDone : Instr.wf (.geyserTransmitDone 0 256) = false := by decide
theorem test_wf_snapshotRecordWrite : Instr.wf (.snapshotRecordWrite 0 (List.replicate 301 ⟨0, []⟩)) = false := by decide
theorem test_wf_sensorPacketRx : Instr.wf (.sensorPacketRx 0 ⟨8, 0, 0, .data, [], none, [], 0, false, false, false⟩) = false := by decide
theorem test_wf_encoderSampleTick : Instr.wf (.encoderSampleTick 0 16 0 0 0 0) = false := by decide
theorem test_wf_streamSilentTimeout : Instr.wf (.streamSilentTimeout 0 64) = false := by decide
theorem test_wf_queueRead : Instr.wf (.queueRead 0 64) = false := by decide
theorem test_wf_qDropRestWrite : Instr.wf (.qDropRestWrite 0 64) = false := by decide
theorem test_wf_tapDelivery : Instr.wf (.tapDelivery 0 16) = false := by decide
theorem test_wf_instantOpen : Instr.wf (.instantOpen 0 4) = false := by decide
theorem test_wf_instantCloseWatermark : Instr.wf (.instantCloseWatermark 0 4) = false := by decide
theorem test_wf_instantCloseLimit : Instr.wf (.instantCloseLimit 0 4) = false := by decide
theorem test_wf_instantRecordCommit : Instr.wf (.instantRecordCommit 0 4 0) = false := by decide
theorem test_wf_revisionRecordCommit : Instr.wf (.revisionRecordCommit 0 4 0) = false := by decide
theorem test_wf_instantSeal : Instr.wf (.instantSeal 0 4 0) = false := by decide
theorem test_wf_rngSeedHiWrite : Instr.wf (.rngSeedHiWrite 0 14 0) = false := by decide
theorem test_wf_descriptorStart : Instr.wf (.descriptorStart 0 14) = false := by decide
theorem test_wf_tileComplete : Instr.wf (.tileComplete 0 14 {}) = false := by decide
theorem test_wf_checkerRerunStart : Instr.wf (.checkerRerunStart 0 0 2) = false := by decide
theorem test_wf_starterWindowOpen : Instr.wf (.starterWindowOpen 0 2) = false := by decide
theorem test_wf_starterComplete : Instr.wf (.starterComplete 0 15 []) = false := by decide
theorem test_wf_collMatchRecordRx : Instr.wf (.collMatchRecordRx 0 0 ⟨24, 0, 0, 0, 0, 0, [], [], (0, 0)⟩) = false := by decide
theorem test_wf_linkSignalDetect : Instr.wf (.linkSignalDetect 0 8) = false := by decide
theorem test_wf_linkEqualizeDone : Instr.wf (.linkEqualizeDone 0 0 (some 3)) = false := by decide
theorem test_wf_linkIdentifyRx : Instr.wf (.linkIdentifyRx 0 0 ⟨0, 0, 0, []⟩) = false := by decide
theorem test_wf_linkAuthConfirm : Instr.wf (.linkAuthConfirm 0 8 []) = false := by decide
theorem test_wf_linkLossOfLock : Instr.wf (.linkLossOfLock 0 8) = false := by decide
theorem test_wf_linkFlitRx : Instr.wf (.linkFlitRx 0 8 .good .control) = false := by decide
theorem test_wf_kvReclaim : Instr.wf (.kvReclaim 0 8) = false := by decide
theorem test_wf_kvSpillDone : Instr.wf (.kvSpillDone 0 0 0x1000000) = false := by decide
theorem test_wf_kvFetchDone : Instr.wf (.kvFetchDone 0 8 0 []) = false := by decide
theorem test_wf_arbiterDecision : Instr.wf (.arbiterDecision 0 58 []) = false := by decide
theorem test_wf_arbiterDecision_input : Instr.wf (.arbiterDecision 0 0 [⟨32, 0, 0, none⟩]) = false := by decide
theorem test_wf_arbiterSliceBoundary : Instr.wf (.arbiterSliceBoundary 0 58) = false := by decide
theorem test_wf_arbFreezeWrite : Instr.wf (.arbFreezeWrite 0 .p0 58 true) = false := by decide
theorem test_wf_heartbeatRx : Instr.wf (.heartbeatRx 0 24) = false := by decide
theorem test_wf_heartbeatMissTimeout : Instr.wf (.heartbeatMissTimeout 0 24) = false := by decide
theorem test_wf_reflexLoopRelease : Instr.wf (.reflexLoopRelease 0 8) = false := by decide
theorem test_wf_reflexLoopComplete : Instr.wf (.reflexLoopComplete 0 8 0 0 0 ⟨[], []⟩) = false := by decide
theorem test_wf_reflexLoopComplete_op : Instr.wf (.reflexLoopComplete 0 0 0 0 0 ⟨[⟨false, 65, 0, 0, 0⟩], []⟩) = false := by decide
theorem test_wf_canArbitrationLost : Instr.wf (.canArbitrationLost 0 256) = false := by decide
theorem test_wf_starterWindowClose : Instr.wf (.starterWindowClose 0 2) = false := by decide
theorem test_wf_linkRekey : Instr.wf (.linkRekey 0 8 []) = false := by decide
theorem test_wf_linkDetectRetry : Instr.wf (.linkDetectRetry 0 8) = false := by decide
theorem test_wf_ptpMessageInterval : Instr.wf (.ptpMessageInterval 0 8 .sync) = false := by decide
theorem test_wf_bridgeTransparentCorrect : Instr.wf (.bridgeTransparentCorrect 0 0 8 0 (List.replicate 64 0) 0 0) = false := by decide
theorem test_wf_ppsMissingTimeout : Instr.wf (.ppsMissingTimeout 0 8) = false := by decide
theorem test_wf_ptpAnnounceTimeout : Instr.wf (.ptpAnnounceTimeout 0 8) = false := by decide
theorem test_wf_shortTbEntryHandoff : Instr.wf (.shortTbEntryHandoff 0 256) = false := by decide
theorem test_wf_shortTbWrapRead : Instr.wf (.shortTbWrapRead 0 8) = false := by decide
theorem test_wf_queuePtrMismatch : Instr.wf (.queuePtrMismatch 0 64 .tap) = false := by decide
theorem test_wf_kvFetchTimeout : Instr.wf (.kvFetchTimeout 0 8 0) = false := by decide
theorem test_wf_controlCoreWatchdogTimeout : Instr.wf (.controlCoreWatchdogTimeout 0 0) = false := by decide

/-! The spec's own examples and tables; what is expected stands there. -/

/-- No row of the table gives bits, so no word spells a command. -/
theorem test_no_word_spells_a_command : decodeTableWord 32 0x84030A05 = none := rfl

/-- 01, the example of one instant: the output tag of the fused picture and the robot state. -/
theorem test_output_tag : tagOut [⟨400000000, 60000000, 0xFF, false, true⟩, ⟨418000000, 10000000, 0, false, true⟩] =
    ⟨400000000, 28000000, 0xFF, false, true⟩ := by decide

/-- 11, the example of a block quantised to FP4 with an E8M0 scale: 1.0, code 0x7F. -/
theorem test_quant_scale_e8m0 : quantScale 0 1 7 ([3 / 10, -6 / 5, 5, 13 / 5].map FVal.ofRat) = some (1, 0x7F) := by decide +kernel

/-- The same example: the four codes. -/
theorem test_quant_codes : ([3 / 10, -6 / 5, 5, 13 / 5].map fun q => (fmtEnc 7 false none (FVal.ofRat q)).code) = [1, 10, 6, 5] := by decide +kernel

/-- The same example: the bytes under R292. -/
theorem test_quant_bytes : packRow 7 [1, 10, 6, 5] = [0xA1, 0x56] := by decide

/-- The same example with an E4M3 scale: 0.875, code 0x36. -/
theorem test_quant_scale_e4m3 : quantScale 1 1 7 ([3 / 10, -6 / 5, 5, 13 / 5].map FVal.ofRat) = some (7 / 8, 0x36) := by decide +kernel

/-- The same example: 0.5, −1.5, 6.0 and 3.0. -/
theorem test_quant_values_e4m3 : ([3 / 10, -6 / 5, 5, 13 / 5].map fun q => fmtVal 7 (fmtEnc 7 false none (FVal.ofRat (q / (7 / 8)))).code) =
    [.fin false (1 / 2), .fin true (-3 / 2), .fin false 6, .fin false 3] := by decide +kernel

/-- 09, the example of exact assignment: A–D0 and B–D1, not the nearest first. -/
theorem test_exact_assignment : (solveAll 0 3 (567 / 50) [(0, 0, 13 / 5), (0, 1, 1), (1, 1, 13 / 5)] {}).pairs = [(0, 0, 13 / 5), (1, 1, 13 / 5)] := by
  decide +kernel

/-- 03, the example of a saved pace table: the pointer after 35,088 bytes. -/
theorem test_pointer_after_upload :
    (({ State.reset with csr := [] }.setReg .ccxHpDportPtr 0x200000000).advancePtr (35088 / 4)).reg .ccxHpDportPtr = 0x200008910 := by decide +kernel

/-! States and commands of the witnesses. -/

/-- A successful result, shown by evaluation. -/
theorem ok_of {ε α : Type} [DecidableEq α] {e : Except ε α} {d : α} (h : (match e with | .ok x => decide (x = d) | .error _ => false) = true) : e = .ok d := by
  cases e with
  | error _ => exact nomatch h
  | ok x => exact congrArg _ (of_decide_eq_true h)
/-- Parameters of a command: offset, width and value of each field. -/
def pp (l : List (Nat × Nat × Nat)) : Bytes := (List.range 224).map fun i =>
  match l.find? fun e => decide (e.1 ≤ i + 32 ∧ i + 32 < e.1 + e.2.1) with
  | some e => BitVec.ofNat 8 (e.2.2 >>> (8 * (i + 32 - e.1)))
  | none => 0
/-- A RUNNING command with id 1. -/
def cm (code part : Nat) (l : List (Nat × Nat × Nat)) : Cmd :=
  { id := 1, slot := 0, part := part, fence := false, irq := false, code := code, tag := 0, deadline := 0, cost := 0, params := pp l, state := .running }
/-- The part at stage READY with nothing to do. -/
def bare : State := { State.reset with
  csr := [(.ccxIdState, 0x50001), (.mmvRangeBase 8 0, 0), (.mmvRangeSize 8 0, 0x300010000), (.mmvRangeBase 0 0, 0), (.mmvRangeSize 0 0, 0x300010000), (.mmvRangeBase 1 0, 0), (.mmvRangeSize 1 0, 0x300010000)]
  hp := { mbox := mboxReset, perstHigh := true, linkUp := true, cfgCommand := 4, cfgMsix := 0x80000000 }
  pwr := { vaon := true, porstHigh := true, pllLocked := true, mainUp := true, phyUp := true } }
/-- The same with P0 and partition 1 ACTIVE and partition 2 DEFINED. -/
def rdy : State := { bare with ccx := { parts := [(0, { state := .active }), (1, { state := .active, core := 1 }), (2, { state := .defined, core := 2 })] } }
/-- A state in which a command stands. -/
def run (c : Cmd) (s : State) : State := { s with ccx := { s.ccx with cmds := [c] } }
def run2 (b c : Cmd) (s : State) : State := { s with ccx := { s.ccx with cmds := [b, c] } }
def acc : Cmd := { cm 0x0A07 0 [] with state := .accepted }
def old : Cmd := { cm 0x0A07 7 [] with id := 0, tag := 9, state := .completed }
/-- A POWER_STATUS stands posted in slot 31. -/
def posted1 : State := { rdy with hp := { rdy.hp with posted := [31], mbox := ssetAll 0 rdy.hp.mbox 0x1F00 [0x07, 0x0A, 0, 0x80] } }
/-- A range entry stands at 0x1000. -/
def tabled : State := rdy.wr 0x1000 (leBytes 8 0x100000000 ++ leBytes 4 1 ++ leBytes 4 3)
/-- TB7 is short. -/
def shortTb : State := rdy.setReg (.tnuTbCtl 7) 0x100
/-- Every launch entry of partitions is ARMED. -/
def fullGey : State := { rdy with tnu := { rdy.tnu with gey := (List.range 224).map fun i => (i + 32, { state := .armed }) } }
/-- The 128 bytes of a descriptor of this device with its mark set. -/
def dsc (base fmt : Nat) (exts strides : List Nat) : Bytes :=
  leBytes 8 base ++ [BitVec.ofNat 8 fmt, BitVec.ofNat 8 exts.length, 1, 0xFF] ++ leBytes 4 0 ++
  (List.range 6).flatMap (fun i => leBytes 4 (exts.getD i 0)) ++ (List.range 5).flatMap (fun i => leBytes 8 (strides.getD i 0)) ++
  leBytes 8 0x00000FFF00000001 ++ leBytes 8 0 ++ List.replicate 32 0
def trk9 : Track := ⟨9, 1, 0, 0, 0, 0, 0, 0, {}, {}, [], [], 0, 0, 0, 0, []⟩
def trkd : State := { rdy.setReg .chnTrkCtl 0x84000000 with trk := { tracks := [(0, trk9)] } }
def recd : State := { (rdy.setReg .chnTrkCtl 0x84000000).setReg (.chnSchedPeriod 0) 0x1000 with
  chn := { scheds := [(0, { insts := [{ k := 1, t := 0x1000, state := .published, seq := 7 }] })] } }
def mdl : State := { (rdy.setReg .plnGridCtl 0x80000000).setReg .plnGridEdge 0x3E000000 with pln := { models := [(0, { links := 1, prims := [] })] } }
def prm : State := rdy.wr 0x1000 (leBytes 4 0 ++ leBytes 4 0x3F800000)
def pth : State := mdl.wr 0x1000 (leBytes 8 0x4000 ++ leBytes 4 2)
def pthV : List (W32 × List Way) := [(0, (List.range 2).map fun _ => Way.parse 1 (List.replicate 64 0))]
def job1 : Job := ⟨.check 1 0, 0, ⟨0, false, false, 0, 0, 1⟩, []⟩
def jobd : State := run (cm 0x0504 1 []) { rdy with pln := { models := [(0, { links := 1, prims := [] })], jobs := [job1] } }
def srch : Search := { cmd := 1, state := .searching, deadline := 0, reserve := 0, lattice := true, retries := 0, par := ⟨0, false, false, 0, 0, 1⟩
                       start := {}, startTag := {}, goal := {}, posTol := 0, yawTol := 0, vNom := 1, maxWp := 2, out := 0, outBase := 0 }
def srcd : State := ((mdl.wr 0x1000 (dsc 0x4000 0 [16] [])).wr 0x2000 (dsc 0x8000 0 [48] [])).wr 0x3000 ([0, 0, 1, 0, 0, 0, 0, 0] ++ leBytes 4 0x3F800000)
def srcIn : Desc := Desc.parse 0x1000 (dsc 0x4000 0 [16] [])
def srcOut : Desc := Desc.parse 0x2000 (dsc 0x8000 0 [48] [])
def srcC : Cmd := { cm 0x0505 0 [(0x28, 8, 0x1000), (0x3C, 4, 0x3E000000), (0x40, 4, 0x3F800000), (0x48, 8, 0x3000), (0x50, 2, 1), (0x52, 2, 2), (0x58, 4, 0x3F800000), (0x60, 8, 0x2000)] with deadline := 1 }
/-- A core descriptor of kind k that is started and has not run. -/
def tj (k : Nat) : TJob := { cmd := 1, seq := 0, part := 1, core := 0, raw := [BitVec.ofNat 8 k], started := true }
/-- A state in which core descriptors stand. -/
def jobs (l : List TJob) (s : State) : State := { s with tar := { s.tar with jobs := l } }
/-- The Island is configured and core 12 is a checker. -/
def safe : State := { (rdy.setReg .ssiSafeStat 0x80000000).setReg .tarRoles 0x01000000 with
  ssi := { rdy.ssi with starters := [⟨0, 1, 0, {}, 0, [], false⟩], digestAt := 0 } }
def srun : StarterRun := ⟨0, 0, 0, 0, false, false⟩
def mvD : Desc := Desc.parse 0 (dsc 0x4000 0 [16] [])
def mvJ : MoveJob := ⟨1, [(0x20, mvD), (0x28, mvD), (0x30, mvD)], []⟩
def moving (s : State) : State := { s with mmv := { s.mmv with moves := [mvJ] } }
/-- Port 0 of the network is at a state. -/
def linked (n : Nat) : State := (rdy.setReg (.mmvLinkStat 0) (BitVec.ofNat 64 (n * 0x1000000))).setReg (.mmvLinkCtl 0) 0xB0000000
def coll1 (op : Nat) : Coll := ⟨1, 5, op, 0, 0, 3, 0, 0, some mvD, some mvD, []⟩
def rec1 (s : State) (op : Nat) : CollRecord := { s.ownRecord (coll1 op) with dev := 1 }
def kvp : KvPool := { ptok := 4, fmt := 1, sharing := true, layers := 1, heads := 1, d := 16, frames := 16, addr := 0x100000, ids := 16, reserve := 1, prefetch := 1, salt := [], idBase := 0, size := 2048 }
def kvon : State := { rdy.setReg .mmvKvCtl 0x90000000 with
  kv := { metaAddr := 0x200000, metaBytes := 0x100000, maxSeq := 8, ptBlocks := 8, maxNodes := 8, maxIds := 64, pools := [(2, kvp)] } }
def kvpage (n : Nat) : State := { kvon with kv := { kvon.kv with pages := [(kvKey 2 3, { state := n, refs := 1 })] } }
def kvcell (n : Nat) : State := { kvpage n with kv := { (kvpage n).kv with pools := [(2, { kvp with cellar := ⟨2, 0, 1, 0, 16, 0⟩ })] } }
def kvseq (x : KvSeq) : State := { kvon with kv := { kvon.kv with seqs := [(3, x)] } }
def tokD : State := (kvon.wr 0x1000 (dsc 0x4000 11 [16] []))

def walkJ : TJob := { tj 4 with raw := 4 :: List.replicate 71 0 ++ [1], ds := [(0x40, Desc.parse 0 (dsc 0x4000 11 [6, 1] [64]))] }
def walkW : KvWalk := ⟨1, walkJ, 2, [(0, 0)], false⟩
/-- A walk whose next page is at a state. -/
def walked (n : Nat) : State := { (kvpage n).wr 0x4000 (leBytes 4 3 ++ leBytes 4 0 ++ leBytes 4 0 ++ leBytes 4 5) with
  kv := { (kvpage n).kv with seqs := [(3, { pool := 2, len := 5, table := [3] })], walks := [walkW] } }
def motion1 : Motion := ⟨1, 0, 1000, 0, 0, [⟨0, 0, 0, 0⟩]⟩

/-! Witnesses. -/
theorem wit_LinkCommandsComplete_0 : ∃ (dt : Nat) (s : State), let u := s.elapse dt;
  u.hp.linkUp = true :=
  ⟨0, rdy, by
    (try dsimp only [Runs, Ready, Moves]); and_intros <;> first | decide +kernel | exact fun _ => rfl | exact ok_of (by decide +kernel) | rfl⟩

theorem wit_LinkCommandsComplete_1 : ∃ (dt : Nat) (s : State), let u := s.elapse dt;
  u.hp.linkUp = true :=
  ⟨0, rdy, by
    (try dsimp only [Runs, Ready, Moves]); and_intros <;> first | decide +kernel | exact fun _ => rfl | exact ok_of (by decide +kernel) | rfl⟩

theorem wit_LinkCommandsComplete_2 : ∃ (dt : Nat) (s : State), let u := s.elapse dt;
  u.hp.linkUp = true :=
  ⟨0, rdy, by
    (try dsimp only [Runs, Ready, Moves]); and_intros <;> first | decide +kernel | exact fun _ => rfl | exact ok_of (by decide +kernel) | rfl⟩

theorem wit_LinkCommandsComplete_3 : ∃ (dt : Nat) (s : State), let u := s.elapse dt;
  u.hp.linkUp = true :=
  ⟨0, rdy, by
    (try dsimp only [Runs, Ready, Moves]); and_intros <;> first | decide +kernel | exact fun _ => rfl | exact ok_of (by decide +kernel) | rfl⟩

theorem wit_LinkCommandsComplete_4 : ∃ (dt : Nat) (s : State), let u := s.elapse dt;
  u.hp.linkUp = true :=
  ⟨0, rdy, by
    (try dsimp only [Runs, Ready, Moves]); and_intros <;> first | decide +kernel | exact fun _ => rfl | exact ok_of (by decide +kernel) | rfl⟩

theorem wit_LinkCommandsComplete_6 : ∃ (dt : Nat) (s : State), let u := s.elapse dt;
  u.hp.perstHigh = true ∧ u.pwr.phyUp = true ∧ u.pwr.refs.contains .pcie = true :=
  ⟨0, rdy, by
    (try dsimp only [Runs, Ready, Moves]); and_intros <;> first | decide +kernel | exact fun _ => rfl | exact ok_of (by decide +kernel) | rfl⟩

theorem wit_LinkCommandsComplete_7 : ∃ (dt : Nat) (s : State), let u := s.elapse dt;
  u.hp.linkUp = true :=
  ⟨0, rdy, by
    (try dsimp only [Runs, Ready, Moves]); and_intros <;> first | decide +kernel | exact fun _ => rfl | exact ok_of (by decide +kernel) | rfl⟩

theorem wit_LinkCommandsComplete_8 : ∃ (dt : Nat) (s : State), let u := s.elapse dt;
  u.hp.d3hot = true :=
  ⟨0, { rdy with hp := { rdy.hp with d3hot := true } }, by
    (try dsimp only [Runs, Ready, Moves]); and_intros <;> first | decide +kernel | exact fun _ => rfl | exact ok_of (by decide +kernel) | rfl⟩

theorem wit_LinkEventsComplete_0 : ∃ (dt : Nat) (s : State), let u := s.elapse dt;
  ∃ cause : LinkResetCause, (u.hp.linkUp = true ∨ cause = .perst) ∧ u.ccx.funcs = [] ∧ (∀ p < 8, (u.part p).stop = none) ∧ (∀ c ∈ u.ccx.cmds, c.state ≠ .running) :=
  ⟨0, bare, .hotReset, by
    (try dsimp only [Runs, Ready, Moves]); and_intros <;> first | decide +kernel | exact fun _ => rfl | exact ok_of (by decide +kernel) | rfl⟩

theorem wit_LinkEventsComplete_1 : ∃ (dt : Nat) (s : State), let u := s.elapse dt;
  ∃ e, u.hp.linkUp = true ∧ pcieFatal e = false ∧ e ≠ .uncorrectableInternal ∧ e ≠ .unsupportedRequest :=
  ⟨0, rdy, .receiver, by
    (try dsimp only [Runs, Ready, Moves]); and_intros <;> first | decide +kernel | exact fun _ => rfl | exact ok_of (by decide +kernel) | rfl⟩

theorem wit_LinkEventsComplete_2 : ∃ (dt : Nat) (s : State), let u := s.elapse dt;
  u.hp.linkUp = true :=
  ⟨0, rdy, by
    (try dsimp only [Runs, Ready, Moves]); and_intros <;> first | decide +kernel | exact fun _ => rfl | exact ok_of (by decide +kernel) | rfl⟩

theorem wit_LinkEventsComplete_3 : ∃ (dt : Nat) (s : State), let u := s.elapse dt;
  ∃ e, u.hp.linkUp = true ∧ pcieFatal e = true :=
  ⟨0, rdy, .receiverOverflow, by
    (try dsimp only [Runs, Ready, Moves]); and_intros <;> first | decide +kernel | exact fun _ => rfl | exact ok_of (by decide +kernel) | rfl⟩

theorem wit_LinkEventsComplete_4 : ∃ (dt : Nat) (s : State), let u := s.elapse dt;
  u.hp.restoreDue = true ∧ u.hp.linkUp = true ∧ u.ready = true ∧ bit u.hp.cfgCommand 2 = true ∧ bit u.hp.cfgMsix 31 = true :=
  ⟨0, { rdy with hp := { rdy.hp with restoreDue := true, evtQ := [{ code := 0x0A08 }] } }, by
    (try dsimp only [Runs, Ready, Moves]); and_intros <;> first | decide +kernel | exact fun _ => rfl | exact ok_of (by decide +kernel) | rfl⟩

theorem wit_LinkEventsComplete_5 : ∃ (dt : Nat) (s : State), let u := s.elapse dt;
  ∃ id c, u.cmd? id = some c ∧ c.state = .running ∧ u.hp.reads.contains id = true :=
  ⟨0, { run (cm 0x0720 1 []) rdy with hp := { rdy.hp with reads := [1] } }, 1, (cm 0x0720 1 []), by
    (try dsimp only [Runs, Ready, Moves]); and_intros <;> first | decide +kernel | exact fun _ => rfl | exact ok_of (by decide +kernel) | rfl⟩

theorem wit_LinkEventsComplete_6 : ∃ (dt : Nat) (s : State), let u := s.elapse dt;
  ∃ cause : LinkResetCause, (u.hp.linkUp = true ∨ cause = .perst) :=
  ⟨0, run (cm 0x0720 1 []) rdy, .perst, by
    (try dsimp only [Runs, Ready, Moves]); and_intros <;> first | decide +kernel | exact fun _ => rfl | exact ok_of (by decide +kernel) | rfl⟩

theorem wit_LinkEventsComplete_7 : ∃ (dt : Nat) (s : State), let u := s.elapse dt;
  u.hp.linkUp = true :=
  ⟨0, rdy, by
    (try dsimp only [Runs, Ready, Moves]); and_intros <;> first | decide +kernel | exact fun _ => rfl | exact ok_of (by decide +kernel) | rfl⟩

theorem wit_MailboxCommandsComplete_0 : ∃ (dt : Nat) (s : State), let u := s.elapse dt;
  ∃ off bytes, u.hostOpen = true ∧ u.ready = true ∧ off < 0x2000 ∧ bytes ≠ [] ∧ u.slotOwn (off / 256) = false ∧ (u.wrMb off (bytes.take (256 * (off / 256 + 1) - off))).slotOwn (off / 256) = true :=
  ⟨0, rdy, 0x1F00, [0, 0, 0, 0x80], by
    (try dsimp only [Runs, Ready, Moves]); and_intros <;> first | decide +kernel | exact fun _ => rfl | exact ok_of (by decide +kernel) | rfl⟩

theorem wit_MailboxCommandsComplete_1 : ∃ (dt : Nat) (s : State), let u := s.elapse dt;
  ∃ slot rest, let v := u.pruneCmds;
  let c := v.slotCmd slot;
  u.hp.posted = slot :: rest ∧ v.ready = true ∧ (v.ccx.cmds.filter fun c => !c.responded).length < 1024 ∧ v.acceptErr c (v.slotLen slot) = none :=
  ⟨0, posted1, 31, [], by
    (try dsimp only [Runs, Ready, Moves]); and_intros <;> first | decide +kernel | exact fun _ => rfl | exact ok_of (by decide +kernel) | rfl⟩

theorem wit_MailboxCommandsComplete_2 : ∃ (dt : Nat) (s : State), let u := s.elapse dt;
  ∃ id rest c, u.hp.rspQ = id :: rest ∧ u.ready = true ∧ u.hp.linkUp = true ∧ u.hp.d3hot = false ∧ u.slotOwn (32 + u.hp.rspNext) = true ∧ u.cmd? id = some c :=
  ⟨0, { run (cm 0x0A07 0 []) rdy with hp := { rdy.hp with rspQ := [1] } }, 1, [], (cm 0x0A07 0 []), by
    (try dsimp only [Runs, Ready, Moves]); and_intros <;> first | decide +kernel | exact fun _ => rfl | exact ok_of (by decide +kernel) | rfl⟩

theorem wit_MailboxCommandsComplete_3 : ∃ (dt : Nat) (s : State), let u := s.elapse dt;
  ∃ e rest, u.hp.evtQ = e :: rest ∧ u.ready = true ∧ u.hp.linkUp = true ∧ u.hp.d3hot = false ∧ u.hp.restoreDue = false ∧ u.slotOwn (64 + u.hp.evtNext) = true :=
  ⟨0, { rdy with hp := { rdy.hp with evtQ := [{ code := 0x0801 }], evtNext := 31 } }, { code := 0x0801 }, [], by
    (try dsimp only [Runs, Ready, Moves]); and_intros <;> first | decide +kernel | exact fun _ => rfl | exact ok_of (by decide +kernel) | rfl⟩

theorem wit_MailboxCommandsComplete_4 : ∃ (dt : Nat) (s : State), let u := s.elapse dt;
  ∃ off, ∃ bytes : Bytes, u.hostOpen = true ∧ u.ready = true ∧ off < 0x6000 ∧ bytes ≠ [] ∧ u.slotOwn (off / 256) = false :=
  ⟨0, rdy, 0x1FFF, [0x80], by
    (try dsimp only [Runs, Ready, Moves]); and_intros <;> first | decide +kernel | exact fun _ => rfl | exact ok_of (by decide +kernel) | rfl⟩

theorem wit_MailboxCommandsComplete_5 : ∃ (dt : Nat) (s : State), let u := s.elapse dt;
  ∃ slot rest st, let v := u.pruneCmds;
  let c := v.slotCmd slot;
  u.hp.posted = slot :: rest ∧ v.ready = true ∧ (v.ccx.cmds.filter fun c => !c.responded).length < 1024 ∧ v.acceptErr c (v.slotLen slot) = some st :=
  ⟨0, { posted1 with hp := { posted1.hp with mbox := ssetAll 0 posted1.hp.mbox 0x1F00 [0xFF] } }, 31, [], 0x10, by
    (try dsimp only [Runs, Ready, Moves]); and_intros <;> first | decide +kernel | exact fun _ => rfl | exact ok_of (by decide +kernel) | rfl⟩

theorem wit_LifecycleCommandsComplete_0 : ∃ (dt id : Nat) (s : State) (c : Cmd), let u := s.elapse dt;
  u.cmd? id = some c ∧ c.state = .accepted ∧ u.ready = true ∧ u.held c = false ∧ u.funcRefuses c = false ∧ c.aux.contains 0x11 = false ∧ u.room c = true :=
  ⟨0, 1, (run acc rdy), acc, by
    (try dsimp only [Runs, Ready, Moves]); and_intros <;> first | decide +kernel | exact fun _ => rfl | exact ok_of (by decide +kernel) | rfl⟩

theorem wit_LifecycleCommandsComplete_1 : ∃ (dt id : Nat) (s : State) (c : Cmd), let u := s.elapse dt;
  u.cmd? id = some c ∧ c.state = .running ∧ c.verdict = some 0 ∧ c.code ≠ 0x0421 ∧ c.code ≠ 0x0505 ∧ c.code ≠ 0x075A :=
  ⟨0, 1, (run { cm 0x0720 1 [] with verdict := some 0 } rdy), { cm 0x0720 1 [] with verdict := some 0 }, by
    (try dsimp only [Runs, Ready, Moves]); and_intros <;> first | decide +kernel | exact fun _ => rfl | exact ok_of (by decide +kernel) | rfl⟩

theorem wit_LifecycleCommandsComplete_2 : ∃ (dt id : Nat) (s : State) (c : Cmd), ∃ x, Runs s dt id 0x0102 c ∧ c.aux = [] ∧ c.p 0x20 1 ≤ 7 ∧ (s.atRow dt id).abortTarget c = some x ∧ x.code ≠ 0x0102 ∧ x.state.final = true :=
  ⟨0, 1, (run2 old (cm 0x0102 0 [(0x20, 1, 7), (0x24, 4, 9)]) rdy), (cm 0x0102 0 [(0x20, 1, 7), (0x24, 4, 9)]), old, by
    (try dsimp only [Runs, Ready, Moves]); and_intros <;> first | decide +kernel | exact fun _ => rfl | exact ok_of (by decide +kernel) | rfl⟩

theorem wit_LifecycleCommandsComplete_3 : ∃ (dt id : Nat) (s : State) (c : Cmd), let u := s.elapse dt;
  ∃ n, u.cmd? id = some c ∧ c.state = .running ∧ c.verdict = some n ∧ n ≠ 0 :=
  ⟨0, 1, run { cm 0x0720 1 [] with verdict := some 0x25 } rdy, { cm 0x0720 1 [] with verdict := some 0x25 }, 0x25, by
    (try dsimp only [Runs, Ready, Moves]); and_intros <;> first | decide +kernel | exact fun _ => rfl | exact ok_of (by decide +kernel) | rfl⟩

theorem wit_LifecycleCommandsComplete_4 : ∃ (dt id : Nat) (s : State) (c : Cmd), let u := s.elapse dt;
  u.cmd? id = some c ∧ c.state = .running ∧ c.verdict = some 0 ∧ c.code = 0x0421 :=
  ⟨0, 1, run { cm 0x0421 1 [] with verdict := some 0 } rdy, { cm 0x0421 1 [] with verdict := some 0 }, by
    (try dsimp only [Runs, Ready, Moves]); and_intros <;> first | decide +kernel | exact fun _ => rfl | exact ok_of (by decide +kernel) | rfl⟩

theorem wit_LifecycleCommandsComplete_5 : ∃ (dt id : Nat) (s : State) (c : Cmd), let u := s.elapse dt;
  u.cmd? id = some c ∧ c.state = .running ∧ c.verdict = some 0 ∧ c.code = 0x0505 :=
  ⟨0, 1, run { cm 0x0505 1 [] with verdict := some 0 } rdy, { cm 0x0505 1 [] with verdict := some 0 }, by
    (try dsimp only [Runs, Ready, Moves]); and_intros <;> first | decide +kernel | exact fun _ => rfl | exact ok_of (by decide +kernel) | rfl⟩

theorem wit_LifecycleCommandsComplete_6 : ∃ (dt id : Nat) (s : State) (c : Cmd), let u := s.elapse dt;
  u.cmd? id = some c ∧ c.state = .running ∧ c.verdict = some 0 ∧ c.code = 0x075A :=
  ⟨0, 1, run { cm 0x075A 1 [] with verdict := some 0 } rdy, { cm 0x075A 1 [] with verdict := some 0 }, by
    (try dsimp only [Runs, Ready, Moves]); and_intros <;> first | decide +kernel | exact fun _ => rfl | exact ok_of (by decide +kernel) | rfl⟩

theorem wit_LifecycleCommandsComplete_7 : ∃ (dt id : Nat) (s : State) (c : Cmd), ∃ x, let w := s.atRow dt id;
  Runs s dt id 0x0102 c ∧ c.aux.contains 1 = false ∧ c.p 0x20 1 ≤ 7 ∧ w.abortTarget c = some x ∧ w.notAbortable x = false ∧ x.state.final = false :=
  ⟨0, 1, run2 { old with state := .accepted } (cm 0x0102 0 [(0x20, 1, 7), (0x24, 4, 9)]) rdy, (cm 0x0102 0 [(0x20, 1, 7), (0x24, 4, 9)]), { old with state := .accepted }, by
    (try dsimp only [Runs, Ready, Moves]); and_intros <;> first | decide +kernel | exact fun _ => rfl | exact ok_of (by decide +kernel) | rfl⟩

theorem wit_LifecycleCommandsComplete_8 : ∃ (dt id : Nat) (s : State) (c : Cmd), Runs s dt id 0x0102 c ∧ c.aux.contains 1 = true :=
  ⟨0, 1, run { (cm 0x0102 0 [(0x20, 1, 7), (0x24, 4, 9)]) with aux := [1] } rdy, { (cm 0x0102 0 [(0x20, 1, 7), (0x24, 4, 9)]) with aux := [1] }, by
    (try dsimp only [Runs, Ready, Moves]); and_intros <;> first | decide +kernel | exact fun _ => rfl | exact ok_of (by decide +kernel) | rfl⟩

theorem wit_MsixCommandsComplete_0 : ∃ (dt : Nat) (s : State), let u := s.elapse dt;
  ∃ v, u.hp.modMerged.contains v = true ∧ u.inGap v = false :=
  ⟨0, { rdy with hp := { rdy.hp with modMerged := [7] } }, 7, by
    (try dsimp only [Runs, Ready, Moves]); and_intros <;> first | decide +kernel | exact fun _ => rfl | exact ok_of (by decide +kernel) | rfl⟩

theorem wit_MsixCommandsComplete_1 : ∃ (dt : Nat) (s : State), let u := s.elapse dt;
  u.hostOpen = true :=
  ⟨0, rdy, by
    (try dsimp only [Runs, Ready, Moves]); and_intros <;> first | decide +kernel | exact fun _ => rfl | exact ok_of (by decide +kernel) | rfl⟩

theorem wit_MsixCommandsComplete_2 : ∃ (dt : Nat) (s : State), let u := s.elapse dt;
  ∃ i, u.hostOpen = true ∧ i < 8 :=
  ⟨0, rdy, 7, by
    (try dsimp only [Runs, Ready, Moves]); and_intros <;> first | decide +kernel | exact fun _ => rfl | exact ok_of (by decide +kernel) | rfl⟩

theorem wit_DataPortCommandsComplete_0 : ∃ (dt : Nat) (s : State), let u := s.elapse dt;
  u.hostOpen = true ∧ u.stage = 5 :=
  ⟨0, rdy, by
    (try dsimp only [Runs, Ready, Moves]); and_intros <;> first | decide +kernel | exact fun _ => rfl | exact ok_of (by decide +kernel) | rfl⟩

theorem wit_DataPortCommandsComplete_1 : ∃ (dt : Nat) (s : State), let u := s.elapse dt;
  u.hostOpen = true :=
  ⟨0, rdy, by
    (try dsimp only [Runs, Ready, Moves]); and_intros <;> first | decide +kernel | exact fun _ => rfl | exact ok_of (by decide +kernel) | rfl⟩

theorem wit_DataPortCommandsComplete_2 : ∃ (dt : Nat) (s : State), let u := s.elapse dt;
  ∃ h, u.hostOpen = true ∧ u.stage = 5 ∧ u.hp.dportHigh = some h :=
  ⟨0, { rdy with hp := { rdy.hp with dportHigh := some 0 } }, 0, by
    (try dsimp only [Runs, Ready, Moves]); and_intros <;> first | decide +kernel | exact fun _ => rfl | exact ok_of (by decide +kernel) | rfl⟩

theorem wit_DataPortCommandsComplete_3 : ∃ (dt : Nat) (s : State), let u := s.elapse dt;
  let ptr := (u.reg .ccxHpDportPtr).toNat;
  ∃ dws : List W32, u.hostOpen = true ∧ u.stage = 5 ∧ u.access .host .other true ptr (4 * dws.length) = none :=
  ⟨0, rdy, [1], by
    (try dsimp only [Runs, Ready, Moves]); and_intros <;> first | decide +kernel | exact fun _ => rfl | exact ok_of (by decide +kernel) | rfl⟩

theorem wit_DataPortCommandsComplete_4 : ∃ (dt : Nat) (s : State), let u := s.elapse dt;
  let ptr := (u.reg .ccxHpDportPtr).toNat;
  ∃ n, u.hostOpen = true ∧ u.stage = 5 ∧ u.access .host .other false ptr (4 * n) = none ∧ u.poisoned ptr (4 * n) = false :=
  ⟨0, rdy, 1, by
    (try dsimp only [Runs, Ready, Moves]); and_intros <;> first | decide +kernel | exact fun _ => rfl | exact ok_of (by decide +kernel) | rfl⟩

theorem wit_DataPortCommandsComplete_5 : ∃ (dt : Nat) (s : State), let u := s.elapse dt;
  u.hostOpen = true :=
  ⟨0, rdy, by
    (try dsimp only [Runs, Ready, Moves]); and_intros <;> first | decide +kernel | exact fun _ => rfl | exact ok_of (by decide +kernel) | rfl⟩

theorem wit_DataPortCommandsComplete_6 : ∃ (dt : Nat) (s : State), let u := s.elapse dt;
  let ptr := (u.reg .ccxHpDportPtr).toNat;
  ∃ dws : List W32, u.hostOpen = true ∧ u.stage = 2 ∧ inside ptr (4 * dws.length) loadBase loadSize = true :=
  ⟨0, (bare.setStage 2).setReg .ccxHpDportPtr (BitVec.ofNat 64 loadBase), [1], by
    (try dsimp only [Runs, Ready, Moves]); and_intros <;> first | decide +kernel | exact fun _ => rfl | exact ok_of (by decide +kernel) | rfl⟩

theorem wit_RegisterCommandsComplete_0 : ∃ (dt : Nat) (s : State), let u := s.elapse dt;
  u.hostOpen = true :=
  ⟨0, rdy, by
    (try dsimp only [Runs, Ready, Moves]); and_intros <;> first | decide +kernel | exact fun _ => rfl | exact ok_of (by decide +kernel) | rfl⟩

theorem wit_RegisterCommandsComplete_1 : ∃ (dt : Nat) (s : State), let u := s.elapse dt;
  ∃ at_, u.hostOpen = true ∧ u.hp.warmSeq = some at_ ∧ u.ns ≤ at_ + 1000000 :=
  ⟨500000, { rdy with hp := { rdy.hp with warmSeq := some 0 } }, 0, by
    (try dsimp only [Runs, Ready, Moves]); and_intros <;> first | decide +kernel | exact fun _ => rfl | exact ok_of (by decide +kernel) | rfl⟩

theorem wit_RegisterCommandsComplete_2 : ∃ (dt : Nat) (s : State), let u := s.elapse dt;
  ∃ r : Reg, ∃ who : Writer, ∃ v : W64, let x := r.written (u.reach who r) (u.reg r) (setFld 0 0 32 (fld v 0 32));
  Reg.ofAddr r.addr = some r ∧ r.ownRow = false ∧ r.wide = false ∧ r ≠ .tarIssueGate ∧ u.reach who r ≠ 0 ∧ (who = .host → r.addr < csrBase) ∧ u.turnsAway r x = false ∧ (∀ n, r = .tnuTbCtl n → bit x 8 = bit (u.reg r) 8 ∨ u.tbReferred n = false) :=
  ⟨0, rdy, .tnuTbCtl 7, .bivexa, 0x100, by
    (try dsimp only [Runs, Ready, Moves]); and_intros <;> first | decide +kernel | exact fun _ => rfl | exact ok_of (by decide +kernel) | rfl | (intro _ h; cases h <;> decide +kernel) | exact List.mem_cons_self⟩

theorem wit_RegisterCommandsComplete_3 : ∃ (dt : Nat) (s : State), let u := s.elapse dt;
  ∃ n, n < 64 ∧ u.stage = 5 :=
  ⟨0, rdy, 63, by
    (try dsimp only [Runs, Ready, Moves]); and_intros <;> first | decide +kernel | exact fun _ => rfl | exact ok_of (by decide +kernel) | rfl⟩

theorem wit_RegisterCommandsComplete_4 : ∃ (dt : Nat) (s : State), let u := s.elapse dt;
  ∃ r : Reg, ∃ who : Writer, Reg.ofAddr r.addr = some r ∧ r.ownRow = false ∧ r.wide = true ∧ u.reach who r ≠ 0 ∧ (who = .host → r.addr < csrBase) :=
  ⟨0, rdy, .tnuCmpAt 15, .bivexa, by
    (try dsimp only [Runs, Ready, Moves]); and_intros <;> first | decide +kernel | exact fun _ => rfl | exact ok_of (by decide +kernel) | rfl⟩

theorem wit_RegisterCommandsComplete_5 : ∃ (dt : Nat) (s : State), let u := s.elapse dt;
  ∃ v : W64, u.stage = 5 ∧ v.toNat < 65 ∧ v ≠ 0 :=
  ⟨0, rdy, 64, by
    (try dsimp only [Runs, Ready, Moves]); and_intros <;> first | decide +kernel | exact fun _ => rfl | exact ok_of (by decide +kernel) | rfl⟩

theorem wit_PowerCommandsComplete_0 : ∃ (dt id : Nat) (s : State) (c : Cmd), Runs s dt id 0x0A01 c ∧ 60 ≤ c.p 0x20 2 ∧ c.p 0x20 2 ≤ 260 ∧ 10 ≤ c.p 0x22 2 ∧ c.p 0x22 2 ≤ 1000 :=
  ⟨0, 1, (run (cm 0x0A01 0 [(0x20, 2, 60), (0x22, 2, 1000)]) rdy), (cm 0x0A01 0 [(0x20, 2, 60), (0x22, 2, 1000)]), by
    (try dsimp only [Runs, Ready, Moves]); and_intros <;> first | decide +kernel | exact fun _ => rfl | exact ok_of (by decide +kernel) | rfl⟩

theorem wit_PowerCommandsComplete_1 : ∃ (dt id : Nat) (s : State) (c : Cmd), Runs s dt id 0x0A02 c ∧ c.p 0x20 1 ≤ 2 ∧ 10 ≤ c.p 0x24 4 ∧ c.p 0x24 4 ≤ 10000 :=
  ⟨0, 1, (run (cm 0x0A02 0 [(0x20, 1, 2), (0x24, 4, 10)]) rdy), (cm 0x0A02 0 [(0x20, 1, 2), (0x24, 4, 10)]), by
    (try dsimp only [Runs, Ready, Moves]); and_intros <;> first | decide +kernel | exact fun _ => rfl | exact ok_of (by decide +kernel) | rfl⟩

theorem wit_PowerCommandsComplete_2 : ∃ (dt id : Nat) (s : State) (c : Cmd), Runs s dt id 0x0A03 c ∧ c.p 0x20 1 ≤ 50 :=
  ⟨0, 1, (run (cm 0x0A03 0 [(0x20, 1, 50)]) rdy), (cm 0x0A03 0 [(0x20, 1, 50)]), by
    (try dsimp only [Runs, Ready, Moves]); and_intros <;> first | decide +kernel | exact fun _ => rfl | exact ok_of (by decide +kernel) | rfl⟩

theorem wit_PowerCommandsComplete_3 : ∃ (dt id : Nat) (s : State) (c : Cmd), let u := s.atRow dt id;
  Runs s dt id 0x0A04 c ∧ 35088 ≤ c.p 0x28 4 ∧ bit (u.reg .ssiSecStat) 31 = false ∧ u.busMaster = true :=
  ⟨0, 1, (run (cm 0x0A04 0 [(0x28, 4, 35088)]) rdy), (cm 0x0A04 0 [(0x28, 4, 35088)]), by
    (try dsimp only [Runs, Ready, Moves]); and_intros <;> first | decide +kernel | exact fun _ => rfl | exact ok_of (by decide +kernel) | rfl⟩

theorem wit_PowerCommandsComplete_4 : ∃ (dt id : Nat) (s : State) (c : Cmd), let u := s.atRow dt id;
  Runs s dt id 0x0A05 c ∧ c.p 0x28 4 % 8 = 0 ∧ c.p 0x28 4 ≤ 35088 ∧ u.tableErr c.tableReq (c.p 0x20 8) (c.p 0x28 4) = none :=
  ⟨0, 1, (run (cm 0x0A05 0 [(0x20, 8, 4096), (0x28, 4, 8)]) rdy), (cm 0x0A05 0 [(0x20, 8, 4096), (0x28, 4, 8)]), by
    (try dsimp only [Runs, Ready, Moves]); and_intros <;> first | decide +kernel | exact fun _ => rfl | exact ok_of (by decide +kernel) | rfl⟩

theorem wit_PowerCommandsComplete_5 : ∃ (dt id : Nat) (s : State) (c : Cmd), let u := s.atRow dt id;
  Runs s dt id 0x0A06 c ∧ 460 ≤ c.p 0x20 2 ∧ c.p 0x20 2 ≤ 700 ∧ c.p 0x20 2 + 20 ≤ ceilingMv u.gov.ceiling ∧ c.p 0x20 2 + 20 ≤ u.vset :=
  ⟨0, 1, (run (cm 0x0A06 0 [(0x20, 2, 460)]) (rdy.setReg .ccxPwrVset 480)), (cm 0x0A06 0 [(0x20, 2, 460)]), by
    (try dsimp only [Runs, Ready, Moves]); and_intros <;> first | decide +kernel | exact fun _ => rfl | exact ok_of (by decide +kernel) | rfl⟩

theorem wit_PowerCommandsComplete_6 : ∃ (dt id : Nat) (s : State) (c : Cmd), let u := s.atRow dt id;
  Runs s dt id 0x0A06 c ∧ 460 ≤ c.p 0x20 2 ∧ c.p 0x20 2 ≤ 700 ∧ c.p 0x20 2 + 20 ≤ ceilingMv u.gov.ceiling ∧ u.gov.avsBad = false :=
  ⟨0, 1, (run (cm 0x0A06 0 [(0x20, 2, 700)]) rdy), (cm 0x0A06 0 [(0x20, 2, 700)]), by
    (try dsimp only [Runs, Ready, Moves]); and_intros <;> first | decide +kernel | exact fun _ => rfl | exact ok_of (by decide +kernel) | rfl⟩

theorem wit_PowerCommandsComplete_7 : ∃ (dt id : Nat) (s : State) (c : Cmd), Runs s dt id 0x0A07 c :=
  ⟨0, 1, (run (cm 0x0A07 0 []) rdy), (cm 0x0A07 0 []), by
    (try dsimp only [Runs, Ready, Moves]); and_intros <;> first | decide +kernel | exact fun _ => rfl | exact ok_of (by decide +kernel) | rfl⟩

theorem wit_GovernorEventsComplete_0 : ∃ (dt : Nat) (s : State), let u := s.elapse dt;
  ∃ ss, u.pwr.mainUp = true ∧ ss < 8 ∧ ss ≠ 5 ∧ u.ivEnds ss = true :=
  ⟨50000, { rdy with csr := (.tnuTbInc 0, 0x200000000) :: rdy.csr }, 7, by
    (try dsimp only [Runs, Ready, Moves]); and_intros <;> first | decide +kernel | exact fun _ => rfl | exact ok_of (by decide +kernel) | rfl⟩

theorem wit_GovernorEventsComplete_1 : ∃ (dt : Nat) (s : State), let u := s.elapse dt;
  u.pwr.mainUp = true ∧ u.ivEnds 5 = true :=
  ⟨50000, rdy, by
    (try dsimp only [Runs, Ready, Moves]); and_intros <;> first | decide +kernel | exact fun _ => rfl | exact ok_of (by decide +kernel) | rfl⟩

theorem wit_GovernorEventsComplete_2 : ∃ (dt : Nat) (s : State), let u := s.elapse dt;
  u.gov.avsBad = false ∧ u.ready = true ∧ u.stepReady true = true ∧ u.vset ≤ 900 ∧ (u.reg .ssiPwrVcoreWarn).toNat ≤ 880 :=
  ⟨0, (rdy.setReg .ccxPwrVset 900), by
    (try dsimp only [Runs, Ready, Moves]); and_intros <;> first | decide +kernel | exact fun _ => rfl | exact ok_of (by decide +kernel) | rfl⟩

theorem wit_GovernorEventsComplete_3 : ∃ (dt : Nat) (s : State), let u := s.elapse dt;
  u.ready = true :=
  ⟨0, rdy, by
    (try dsimp only [Runs, Ready, Moves]); and_intros <;> first | decide +kernel | exact fun _ => rfl | exact ok_of (by decide +kernel) | rfl⟩

theorem wit_GovernorEventsComplete_4 : ∃ (dt : Nat) (s : State), let u := s.elapse dt;
  ∃ at_, u.ready = true ∧ u.gov.burstAt = some at_ ∧ u.burstAllowed = false ∧ u.gov.avsBad = false ∧ 750 < u.vset :=
  ⟨2000000000, { rdy with gov := { rdy.gov with burstAt := some 0 }, csr := (.ccxPwrPpl, 0) :: (.ccxPwrVset, 850) :: rdy.csr }, 0, by
    (try dsimp only [Runs, Ready, Moves]); and_intros <;> first | decide +kernel | exact fun _ => rfl | exact ok_of (by decide +kernel) | rfl⟩

theorem wit_GovernorEventsComplete_5 : ∃ (dt : Nat) (s : State), let u := s.elapse dt;
  u.ready = true ∧ u.hot = true ∧ u.gov.avsBad = false ∧ (∀ t0, u.gov.thermalAt = some t0 → t0 + 1000000 ≤ u.ns) :=
  ⟨0, { rdy with pwr := { rdy.pwr with tj := 200 } }, by
    (try dsimp only []); and_intros <;> first
      | decide +kernel | (intro _ h; exact nomatch h)
      | (show decide (maxTj - 5 ≤ (200 : Int)) = true; unfold maxTj; split <;> decide)⟩

theorem wit_GovernorEventsComplete_6 : ∃ (dt : Nat) (s : State), let u := s.elapse dt;
  u.ready = true ∧ u.hot = true ∧ u.gov.avsBad = true ∧ (∀ t0, u.gov.thermalAt = some t0 → t0 + 1000000 ≤ u.ns) :=
  ⟨0, { rdy with pwr := { rdy.pwr with tj := 200 }, gov := { rdy.gov with avsBad := true } }, by
    (try dsimp only []); and_intros <;> first
      | decide +kernel | (intro _ h; exact nomatch h)
      | (show decide (maxTj - 5 ≤ (200 : Int)) = true; unfold maxTj; split <;> decide)⟩

theorem wit_GovernorEventsComplete_7 : ∃ (dt : Nat) (s : State), let u := s.elapse dt;
  u.ready = true ∧ u.gov.avsBad = false :=
  ⟨0, rdy, by
    (try dsimp only [Runs, Ready, Moves]); and_intros <;> first | decide +kernel | exact fun _ => rfl | exact ok_of (by decide +kernel) | rfl⟩

theorem wit_GovernorEventsComplete_8 : ∃ (dt : Nat) (s : State), let u := s.elapse dt;
  u.gov.avsBad = true ∧ u.gov.avsAt + 1000000000 ≤ u.ns :=
  ⟨500000000, { rdy with gov := { rdy.gov with avsBad := true } }, by
    (try dsimp only [Runs, Ready, Moves]); and_intros <;> first | decide +kernel | exact fun _ => rfl | exact ok_of (by decide +kernel) | rfl⟩

theorem wit_GovernorEventsComplete_9 : ∃ (dt : Nat) (s : State), let u := s.elapse dt;
  u.ready = true ∧ u.quiet = true :=
  ⟨0, rdy, by
    (try dsimp only [Runs, Ready, Moves]); and_intros <;> first | decide +kernel | exact fun _ => rfl | exact ok_of (by decide +kernel) | rfl⟩

theorem wit_GovernorEventsComplete_10 : ∃ (dt : Nat) (s : State), let u := s.elapse dt;
  u.gov.avsBad = false ∧ u.ready = true ∧ u.stepReady true = true :=
  ⟨50000, { rdy with csr := (.tnuTbInc 0, 0x200000000) :: rdy.csr }, by
    (try dsimp only [Runs, Ready, Moves]); and_intros <;> first | decide +kernel | exact fun _ => rfl | exact ok_of (by decide +kernel) | rfl⟩

theorem wit_GovernorEventsComplete_11 : ∃ (dt : Nat) (s : State), let u := s.elapse dt;
  u.ready = true ∧ u.gov.burstAt ≠ none ∧ u.burstAllowed = false ∧ (u.gov.avsBad = true ∨ u.vset ≤ 750) :=
  ⟨0, { rdy.setReg .ccxPwrPpl 0 with gov := { rdy.gov with burstAt := some 0, avsBad := true } }, by
    (try dsimp only [Runs, Ready, Moves]); and_intros <;> first | decide +kernel | exact fun _ => rfl | exact ok_of (by decide +kernel) | rfl⟩

theorem wit_FunctionCommandsComplete_0 : ∃ (dt id : Nat) (s : State) (c : Cmd), let u := s.atRow dt id;
  let kind := c.p 0x20 1;
  let mode := c.p 0x21 1;
  let idx := c.p 0x22 2;
  let ms := c.p 0x24 4;
  Runs s dt id 0x0103 c ∧ c.aux = [] ∧ funcExists kind idx = true ∧ mode ≤ 1 ∧ ms ≤ 10000 ∧ (∀ f ∈ u.ccx.funcs, f.kind ≠ kind ∨ f.idx ≠ idx) :=
  ⟨0, 1, (run (cm 0x0103 0 [(0x20, 1, 1), (0x21, 1, 1), (0x22, 2, 13), (0x24, 4, 10000)]) rdy), (cm 0x0103 0 [(0x20, 1, 1), (0x21, 1, 1), (0x22, 2, 13), (0x24, 4, 10000)]), by
    (try dsimp only [Runs, Ready, Moves]); and_intros <;> first | decide +kernel | exact fun _ => rfl | exact ok_of (by decide +kernel) | rfl⟩

theorem wit_FunctionCommandsComplete_1 : ∃ (dt id : Nat) (s : State) (c : Cmd), let u := s.atRow dt id;
  let kind := c.p 0x20 1;
  let mode := c.p 0x21 1;
  let idx := c.p 0x22 2;
  let ms := c.p 0x24 4;
  ∃ f, Runs s dt id 0x0103 c ∧ c.aux = [] ∧ funcExists kind idx = true ∧ mode ≤ 1 ∧ ms ≤ 10000 ∧ u.ccx.funcs.find? (fun f => f.kind == kind && f.idx == idx) = some f ∧ f.committed = true :=
  ⟨0, 1, (run (cm 0x0103 0 [(0x20, 1, 1), (0x21, 1, 1), (0x22, 2, 13), (0x24, 4, 10000)]) { rdy with ccx := { rdy.ccx with funcs := [(FuncRec.mk 1 13 false 0 [] [] 0 0 true [])] } }), (cm 0x0103 0 [(0x20, 1, 1), (0x21, 1, 1), (0x22, 2, 13), (0x24, 4, 10000)]), (FuncRec.mk 1 13 false 0 [] [] 0 0 true []), by
    (try dsimp only [Runs, Ready, Moves]); and_intros <;> first | decide +kernel | exact fun _ => rfl | exact ok_of (by decide +kernel) | rfl⟩

theorem wit_FunctionCommandsComplete_2 : ∃ (dt id : Nat) (s : State) (c : Cmd), let u := s.atRow dt id;
  let kind := c.p 0x20 1;
  let idx := c.p 0x22 2;
  Runs s dt id 0x0104 c ∧ funcExists kind idx = true ∧ (∀ f ∈ u.ccx.funcs, f.kind ≠ kind ∨ f.idx ≠ idx) ∧ u.funcOff kind idx = false :=
  ⟨0, 1, (run (cm 0x0104 0 [(0x20, 1, 1), (0x22, 2, 13)]) rdy), (cm 0x0104 0 [(0x20, 1, 1), (0x22, 2, 13)]), by
    (try dsimp only [Runs, Ready, Moves]); and_intros <;> first | decide +kernel | exact fun _ => rfl | exact ok_of (by decide +kernel) | rfl⟩

theorem wit_FunctionCommandsComplete_3 : ∃ (dt id : Nat) (s : State) (c : Cmd), let u := s.atRow dt id;
  let kind := c.p 0x20 1;
  let idx := c.p 0x22 2;
  Runs s dt id 0x0104 c ∧ funcExists kind idx = true ∧ (∀ f ∈ u.ccx.funcs, f.kind = kind → f.idx = idx → f.committed = true) ∧ u.funcOff kind idx = true ∧ kind ≠ 2 :=
  ⟨0, 1, (run (cm 0x0104 0 [(0x20, 1, 1), (0x22, 2, 13)]) { rdy with ccx := { rdy.ccx with funcs := [(FuncRec.mk 1 13 false 0 [] [] 0 0 true [])] } }), (cm 0x0104 0 [(0x20, 1, 1), (0x22, 2, 13)]), by
    (try dsimp only [Runs, Ready, Moves]); and_intros <;> first | decide +kernel | exact fun _ => rfl | exact ok_of (by decide +kernel) | rfl⟩

theorem wit_FunctionCommandsComplete_4 : ∃ (dt id : Nat) (s : State) (c : Cmd), let u := s.atRow dt id;
  let kind := c.p 0x20 1;
  let mode := c.p 0x21 1;
  let idx := c.p 0x22 2;
  let ms := c.p 0x24 4;
  ∃ f, Runs s dt id 0x0103 c ∧ c.aux = [] ∧ funcExists kind idx = true ∧ mode ≤ 1 ∧ ms ≤ 10000 ∧ u.ccx.funcs.find? (fun f => f.kind == kind && f.idx == idx) = some f ∧ f.committed = false ∧ u.disabledBefore c = false :=
  ⟨0, 1, run (cm 0x0103 0 [(0x20, 1, 1), (0x21, 1, 1), (0x22, 2, 13), (0x24, 4, 10000)]) { rdy with ccx := { rdy.ccx with funcs := [⟨1, 13, false, 0, [], [7], 0, 0, false, []⟩] } }, (cm 0x0103 0 [(0x20, 1, 1), (0x21, 1, 1), (0x22, 2, 13), (0x24, 4, 10000)]), ⟨1, 13, false, 0, [], [7], 0, 0, false, []⟩, by
    (try dsimp only [Runs, Ready, Moves]); and_intros <;> first | decide +kernel | exact fun _ => rfl | exact ok_of (by decide +kernel) | rfl⟩

theorem wit_FunctionCommandsComplete_5 : ∃ (dt id : Nat) (s : State) (c : Cmd), Runs s dt id 0x0103 c ∧ c.aux.contains 2 = true :=
  ⟨0, 1, run { (cm 0x0103 0 [(0x20, 1, 1), (0x21, 1, 1), (0x22, 2, 13), (0x24, 4, 10000)]) with aux := [2] } rdy, { (cm 0x0103 0 [(0x20, 1, 1), (0x21, 1, 1), (0x22, 2, 13), (0x24, 4, 10000)]) with aux := [2] }, by
    (try dsimp only [Runs, Ready, Moves]); and_intros <;> first | decide +kernel | exact fun _ => rfl | exact ok_of (by decide +kernel) | rfl⟩

theorem wit_FunctionCommandsComplete_6 : ∃ (dt id : Nat) (s : State) (c : Cmd), Runs s dt id 0x0103 c ∧ c.aux = [3] ∧ c.disableOk = true :=
  ⟨0, 1, run { (cm 0x0103 0 [(0x20, 1, 1), (0x21, 1, 1), (0x22, 2, 13), (0x24, 4, 10000)]) with aux := [3] } rdy, { (cm 0x0103 0 [(0x20, 1, 1), (0x21, 1, 1), (0x22, 2, 13), (0x24, 4, 10000)]) with aux := [3] }, by
    (try dsimp only [Runs, Ready, Moves]); and_intros <;> first | decide +kernel | exact fun _ => rfl | exact ok_of (by decide +kernel) | rfl⟩

theorem wit_FunctionCommandsComplete_7 : ∃ (dt id : Nat) (s : State) (c : Cmd), let u := s.atRow dt id;
  let kind := c.p 0x20 1;
  let idx := c.p 0x22 2;
  Runs s dt id 0x0104 c ∧ funcExists kind idx = true ∧ (∀ f ∈ u.ccx.funcs, f.kind = kind → f.idx = idx → f.committed = true) ∧ u.funcOff kind idx = true :=
  ⟨0, 1, (run (cm 0x0104 0 [(0x20, 1, 1), (0x22, 2, 13)]) { rdy with ccx := { rdy.ccx with funcs := [(FuncRec.mk 1 13 false 0 [] [] 0 0 true [])] } }), (cm 0x0104 0 [(0x20, 1, 1), (0x22, 2, 13)]), by
    (try dsimp only [Runs, Ready, Moves]); and_intros <;> first | decide +kernel | exact fun _ => rfl | exact ok_of (by decide +kernel) | rfl⟩

theorem wit_PartitionCommandsComplete_0 : ∃ (dt id : Nat) (s : State) (c : Cmd), let u := s.atRow dt id;
  let p := c.p 0x20 1;
  let nr := c.p 0x21 1;
  let nq := c.p 0x22 1;
  let cc := c.p 0x23 1;
  let r := rangeEntries (u.tableAt c (c.p 0x28 8) (16 * nr)) nr;
  let qa := if nq = 0 then 0 else c.p 0x30 8;
  let q := quotaEntries (u.tableAt c qa (4 * nq)) nq;
  Runs s dt id 0x0110 c ∧ 1 ≤ p ∧ p ≤ 7 ∧ 1 ≤ nr ∧ nr ≤ 16 ∧ nq ≤ 64 ∧ 1 ≤ cc ∧ cc ≤ 7 ∧ (u.partState p = .undefined ∨ u.partState p = .defined) ∧ u.tableErr c.tableReq (c.p 0x28 8) (16 * nr) = none ∧ u.tableErr c.tableReq qa (4 * nq) = none ∧ rangesOk r = true ∧ quotasOk q = true ∧ u.defineErr p r q = none :=
  ⟨0, 1, (run (cm 0x0110 0 [(0x20, 1, 7), (0x21, 1, 1), (0x23, 1, 7), (0x28, 8, 4096)]) tabled), (cm 0x0110 0 [(0x20, 1, 7), (0x21, 1, 1), (0x23, 1, 7), (0x28, 8, 4096)]), by
    (try dsimp only [Runs, Ready, Moves]); and_intros <;> first | decide +kernel | exact fun _ => rfl | exact ok_of (by decide +kernel) | rfl⟩

theorem wit_PartitionCommandsComplete_1 : ∃ (dt id : Nat) (s : State) (c : Cmd), let u := s.atRow dt id;
  let p := c.p 0x20 1;
  Runs s dt id 0x0111 c ∧ 1 ≤ p ∧ p ≤ 7 ∧ u.partState p = .defined :=
  ⟨0, 1, (run (cm 0x0111 0 [(0x20, 1, 2)]) rdy), (cm 0x0111 0 [(0x20, 1, 2)]), by
    (try dsimp only [Runs, Ready, Moves]); and_intros <;> first | decide +kernel | exact fun _ => rfl | exact ok_of (by decide +kernel) | rfl⟩

theorem wit_PartitionCommandsComplete_2 : ∃ (dt id : Nat) (s : State) (c : Cmd), let u := s.atRow dt id;
  let p := c.p 0x20 1;
  let ms := c.p 0x24 4;
  Runs s dt id 0x0112 c ∧ c.aux = [] ∧ 1 ≤ p ∧ p ≤ 7 ∧ ms ≤ 10000 ∧ (u.partState p = .active ∨ u.partState p = .paused) ∧ c.p 0x21 1 = 0 :=
  ⟨0, 1, (run (cm 0x0112 0 [(0x20, 1, 1), (0x24, 4, 10000)]) rdy), (cm 0x0112 0 [(0x20, 1, 1), (0x24, 4, 10000)]), by
    (try dsimp only [Runs, Ready, Moves]); and_intros <;> first | decide +kernel | exact fun _ => rfl | exact ok_of (by decide +kernel) | rfl⟩

theorem wit_PartitionCommandsComplete_3 : ∃ (dt id : Nat) (s : State) (c : Cmd), let u := s.atRow dt id;
  let p := c.p 0x20 1;
  let ms := c.p 0x24 4;
  Runs s dt id 0x0112 c ∧ c.aux = [] ∧ 1 ≤ p ∧ p ≤ 7 ∧ ms ≤ 10000 ∧ (u.partState p = .active ∨ u.partState p = .paused) ∧ c.p 0x21 1 = 1 :=
  ⟨0, 1, (run (cm 0x0112 0 [(0x20, 1, 1), (0x21, 1, 1)]) rdy), (cm 0x0112 0 [(0x20, 1, 1), (0x21, 1, 1)]), by
    (try dsimp only [Runs, Ready, Moves]); and_intros <;> first | decide +kernel | exact fun _ => rfl | exact ok_of (by decide +kernel) | rfl⟩

theorem wit_PartitionCommandsComplete_4 : ∃ (dt id : Nat) (s : State) (c : Cmd), let u := s.atRow dt id;
  let p := c.p 0x20 1;
  Runs s dt id 0x0113 c ∧ 1 ≤ p ∧ p ≤ 7 ∧ (u.partState p = .active ∨ u.partState p = .paused) :=
  ⟨0, 1, (run (cm 0x0113 0 [(0x20, 1, 1)]) rdy), (cm 0x0113 0 [(0x20, 1, 1)]), by
    (try dsimp only [Runs, Ready, Moves]); and_intros <;> first | decide +kernel | exact fun _ => rfl | exact ok_of (by decide +kernel) | rfl⟩

theorem wit_PartitionCommandsComplete_5 : ∃ (dt id : Nat) (s : State) (c : Cmd), Runs s dt id 0x0112 c ∧ c.aux.contains 2 = true :=
  ⟨0, 1, run { (cm 0x0112 0 [(0x20, 1, 1), (0x24, 4, 10000)]) with aux := [2] } rdy, { (cm 0x0112 0 [(0x20, 1, 1), (0x24, 4, 10000)]) with aux := [2] }, by
    (try dsimp only [Runs, Ready, Moves]); and_intros <;> first | decide +kernel | exact fun _ => rfl | exact ok_of (by decide +kernel) | rfl⟩

theorem wit_ControlTableCommandsComplete_0 : ∃ (dt id : Nat) (s : State) (c : Cmd), let u := s.atRow dt id;
  let n := c.p 0x20 1;
  let r := (rangeEntries (c.params.drop 16) n).map fun e => (e.1, e.2.1, e.2.2 % 4);
  Runs s dt id 0x0118 c ∧ c.p 0x28 8 = 0 ∧ n ≤ 12 ∧ rangesOk r = true ∧ (∀ e ∈ r, reachesOwn e = false ∧ u.meetsProt e.1 (e.2.1 * 65536) = false) :=
  ⟨0, 1, (run (cm 0x0118 0 [(0x20, 1, 12), (0x38, 4, 1), (0x48, 4, 1), (0x58, 4, 1), (0x68, 4, 1), (0x78, 4, 1), (0x88, 4, 1), (0x98, 4, 1), (0xa8, 4, 1), (0xb8, 4, 1), (0xc8, 4, 1), (0xd8, 4, 1), (0xe8, 4, 1)]) rdy), (cm 0x0118 0 [(0x20, 1, 12), (0x38, 4, 1), (0x48, 4, 1), (0x58, 4, 1), (0x68, 4, 1), (0x78, 4, 1), (0x88, 4, 1), (0x98, 4, 1), (0xa8, 4, 1), (0xb8, 4, 1), (0xc8, 4, 1), (0xd8, 4, 1), (0xe8, 4, 1)]), by
    (try dsimp only [Runs, Ready, Moves]); and_intros <;> first | decide +kernel | exact fun _ => rfl | exact ok_of (by decide +kernel) | rfl⟩

theorem wit_ControlTableCommandsComplete_1 : ∃ (dt id : Nat) (s : State) (c : Cmd), let u := s.atRow dt id;
  let us := c.p 0x20 4;
  Runs s dt id 0x0119 c ∧ 100 ≤ us ∧ us ≤ 1000000 ∧ c.p 0x24 1 = 0 ∧ u.tableErr c.tableReq 0 0 = none :=
  ⟨0, 1, (run (cm 0x0119 0 [(0x20, 4, 100)]) rdy), (cm 0x0119 0 [(0x20, 4, 100)]), by
    (try dsimp only [Runs, Ready, Moves]); and_intros <;> first | decide +kernel | exact fun _ => rfl | exact ok_of (by decide +kernel) | rfl⟩

theorem wit_ControlTableCommandsComplete_2 : ∃ (dt id : Nat) (s : State) (c : Cmd), let u := s.atRow dt id;
  let cc := c.p 0x23 1;
  let ms := c.p 0x24 4;
  let n := c.p 0x30 4;
  let cid := c.p 0x20 2;
  Runs s dt id 0x0120 c ∧ c.p 0x22 1 ≤ 1 ∧ 1 ≤ cc ∧ cc ≤ 7 ∧ ms ≤ 10000 ∧ n ≤ 16777216 ∧ u.ccx.fwUpd = none ∧ u.tableErr c.tableReq (c.p 0x28 8) n = none ∧ (u.ccx.comps.find? (fun y => y.id == cid)).map (·.scope) = some 1 :=
  ⟨0, 1, run (cm 0x0120 0 [(0x20, 2, 1), (0x23, 1, 7), (0x24, 4, 10000), (0x28, 8, 4096), (0x30, 4, 64)]) { rdy with ccx := { rdy.ccx with comps := [⟨1, 1, 1⟩] } }, (cm 0x0120 0 [(0x20, 2, 1), (0x23, 1, 7), (0x24, 4, 10000), (0x28, 8, 4096), (0x30, 4, 64)]), by
    (try dsimp only [Runs, Ready, Moves]); and_intros <;> first | decide +kernel | exact fun _ => rfl | exact ok_of (by decide +kernel) | rfl⟩

theorem wit_ControlTableCommandsComplete_3 : ∃ (dt id : Nat) (s : State) (c : Cmd), let u := s.atRow dt id;
  let p := c.p 0x20 1;
  Runs s dt id 0x0128 c ∧ p ≤ 13 ∧ u.coreRole p ≠ 2 ∧ (∀ r ∈ u.tar.retires, r.phys ≠ p) ∧ (2 ≤ u.checkers.length ∨ (c.p 0x21 1).testBit 0 = true) :=
  ⟨0, 1, (run (cm 0x0128 0 [(0x20, 1, 13)]) rdy), (cm 0x0128 0 [(0x20, 1, 13)]), by
    (try dsimp only [Runs, Ready, Moves]); and_intros <;> first | decide +kernel | exact fun _ => rfl | exact ok_of (by decide +kernel) | rfl⟩

theorem wit_ControlTableCommandsComplete_4 : ∃ (dt id : Nat) (s : State) (c : Cmd), let u := s.atRow dt id;
  let n := c.p 0x20 1;
  let r := (rangeEntries (u.tableAt c (c.p 0x28 8) (16 * n)) n).map fun e => (e.1, e.2.1, e.2.2 % 4);
  Runs s dt id 0x0118 c ∧ c.p 0x28 8 ≠ 0 ∧ n ≤ 16 ∧ u.tableErr c.tableReq (c.p 0x28 8) (16 * n) = none ∧ rangesOk r = true ∧ (∀ e ∈ r, reachesOwn e = false ∧ u.meetsProt e.1 (e.2.1 * 65536) = false) :=
  ⟨0, 1, run (cm 0x0118 0 [(0x20, 1, 1), (0x28, 8, 4096)]) tabled, (cm 0x0118 0 [(0x20, 1, 1), (0x28, 8, 4096)]), by
    (try dsimp only [Runs, Ready, Moves]); and_intros <;> first | decide +kernel | exact fun _ => rfl | exact ok_of (by decide +kernel) | rfl⟩

theorem wit_ControlTableCommandsComplete_5 : ∃ (dt id : Nat) (s : State) (c : Cmd), let u := s.atRow dt id;
  let us := c.p 0x20 4;
  let n := c.p 0x24 1;
  let a := if n = 0 then 0 else c.p 0x28 8;
  let l := winEntries (u.tableAt c a (16 * n)) n;
  Runs s dt id 0x0119 c ∧ 100 ≤ us ∧ us ≤ 1000000 ∧ n ≤ 64 ∧ u.tableErr c.tableReq a (16 * n) = none ∧ (∀ w ∈ l, 1 ≤ w.part ∧ w.part ≤ 7 ∧ 50 ≤ w.len ∧ w.mask < 2 ^ 14 ∧ ∀ k < 14, w.mask.testBit k = true → u.runsOn k = true) ∧ winConflict us l = false :=
  ⟨0, 1, (run (cm 0x0119 0 [(0x20, 4, 100)]) rdy), (cm 0x0119 0 [(0x20, 4, 100)]), by
    (try dsimp only [Runs, Ready, Moves]); and_intros <;> first | decide +kernel | exact fun _ => rfl | exact ok_of (by decide +kernel) | rfl⟩

theorem wit_ControlEventsComplete_0 : ∃ (dt : Nat) (s : State), let u := s.elapse dt;
  ∃ id p k, let mine := u.ccx.funcs.find? fun f => f.cmds.head? == some id && !f.committed && f.restarting.isEmpty;
  mine = none ∧ (List.range 8).find? (fun p => u.partState p == .stopping && (u.part p).stop.any fun k => k.cmd == id && decide (k.due ≤ u.ns)) = some p ∧ (u.part p).stop = some k :=
  ⟨0, { rdy with ccx := { rdy.ccx with parts := [(2, { state := .stopping, core := 2, stop := some (StopRec.mk 5 0 0 0 false) })] } }, 5, 2, (StopRec.mk 5 0 0 0 false), by
    (try dsimp only [Runs, Ready, Moves]); and_intros <;> first | decide +kernel | exact fun _ => rfl | exact ok_of (by decide +kernel) | rfl⟩

theorem wit_ControlEventsComplete_1 : ∃ (dt : Nat) (s : State), let u := s.elapse dt;
  ∃ p r, 1 ≤ p ∧ p ≤ 7 ∧ (u.part p).state = .restarting ∧ (u.part p).restart = some r ∧ (u.part p).stop = none ∧ u.ccx.funcs = [] ∧ (∀ q < 8, (u.part q).stop = none) ∧ r.cmd = none ∧ u.chn.scheds = [] :=
  ⟨0, { rdy with ccx := { rdy.ccx with parts := [(7, { state := .restarting, core := 7, restart := some ⟨0, 0, false, none⟩ })] } }, 7, ⟨0, 0, false, none⟩, by
    (try dsimp only [Runs, Ready, Moves]); and_intros <;> first | decide +kernel | exact fun _ => rfl | exact ok_of (by decide +kernel) | rfl⟩

theorem wit_ControlEventsComplete_2 : ∃ (dt : Nat) (s : State), let u := s.elapse dt;
  ∃ w, u.ccx.winNext = some w ∧ w.from_ ≤ u.now :=
  ⟨0, { rdy with ccx := { rdy.ccx with winNext := some ⟨100, [], 0⟩ } }, ⟨100, [], 0⟩, by
    (try dsimp only [Runs, Ready, Moves]); and_intros <;> first | decide +kernel | exact fun _ => rfl | exact ok_of (by decide +kernel) | rfl⟩

theorem wit_ControlEventsComplete_3 : ∃ (dt : Nat) (s : State), let u := s.elapse dt;
  ∃ w l p a b, u.ccx.win = some w ∧ w.at l u.now = some (p, a, b) ∧ sget {} u.ccx.winCore l = {} :=
  ⟨0, { rdy with ccx := { rdy.ccx with win := some ⟨100, [⟨1, 1, 0, 50⟩], 0⟩ } }, ⟨100, [⟨1, 1, 0, 50⟩], 0⟩, 0, 1, 0, 50000, by
    (try dsimp only [Runs, Ready, Moves]); and_intros <;> first | decide +kernel | exact fun _ => rfl | exact ok_of (by decide +kernel) | rfl⟩

theorem wit_ControlEventsComplete_4 : ∃ (dt : Nat) (s : State), let u := s.elapse dt;
  ∃ id f, u.ccx.fwUpd = some f ∧ f.cmd = id ∧ u.updWaits f = false :=
  ⟨0, (run (cm 0x0120 0 []) { rdy with ccx := { rdy.ccx with fwUpd := some ⟨1, 1, ⟨1, 1, 1⟩, 0, 0, [], [], false⟩ } }), 1, ⟨1, 1, ⟨1, 1, 1⟩, 0, 0, [], [], false⟩, by
    (try dsimp only [Runs, Ready, Moves]); and_intros <;> first | decide +kernel | exact fun _ => rfl | exact ok_of (by decide +kernel) | rfl⟩

theorem wit_ControlEventsComplete_5 : ∃ (dt : Nat) (s : State), let u := s.elapse dt;
  ∃ p r, (u.part p).state = .restarting ∧ p ≠ 0 ∧ (u.part p).restart = some r ∧ r.at_ + 40000000 ≤ u.ns :=
  ⟨20000000, { rdy with ccx := { rdy.ccx with parts := [(7, { state := .restarting, core := 7, restart := some ⟨0, 0, false, none⟩ })] } }, 7, ⟨0, 0, false, none⟩, by
    (try dsimp only [Runs, Ready, Moves]); and_intros <;> first | decide +kernel | exact fun _ => rfl | exact ok_of (by decide +kernel) | rfl⟩

theorem wit_ControlEventsComplete_6 : ∃ (dt : Nat) (s : State), let u := s.elapse dt;
  ∃ p cc, u.ready = true ∧ 1 ≤ p ∧ p ≤ 7 ∧ u.partState p ≠ .undefined ∧ (∀ q < 8, q ≠ 0 → q ≠ p → u.partState q = .undefined) ∧ 1 ≤ cc ∧ cc ≤ 7 ∧ (u.part p).core = cc :=
  ⟨0, { rdy with ccx := { rdy.ccx with parts := [(7, { state := .active, core := 7 })] } }, 7, 7, by
    (try dsimp only [Runs, Ready, Moves]); and_intros <;> first | decide +kernel | exact fun _ => rfl | exact ok_of (by decide +kernel) | rfl⟩

theorem wit_ControlEventsComplete_7 : ∃ (dt : Nat) (s : State), let u := s.elapse dt;
  ∃ id, let mine := u.ccx.funcs.find? fun f => f.cmds.head? == some id && !f.committed && f.restarting.isEmpty;
  ∃ f, mine = some f ∧ f.due ≤ u.ns :=
  ⟨0, { rdy with ccx := { rdy.ccx with funcs := [⟨1, 3, false, 0, [5], [1], 0, 0, false, []⟩] } }, 1, ⟨1, 3, false, 0, [5], [1], 0, 0, false, []⟩, by
    (try dsimp only [Runs, Ready, Moves]); and_intros <;> first | decide +kernel | exact fun _ => rfl | exact ok_of (by decide +kernel) | rfl⟩

theorem wit_ControlEventsComplete_8 : ∃ (dt : Nat) (s : State), let u := s.elapse dt;
  ∃ id, let mine := u.ccx.funcs.find? fun f => f.cmds.head? == some id && !f.committed && f.restarting.isEmpty;
  let stops := (List.range 8).find? fun p => u.partState p == .stopping && (u.part p).stop.any fun k => k.cmd == id && decide (k.due ≤ u.ns);
  ∃ f, mine = none ∧ stops = none ∧ u.ccx.fwUpd = some f ∧ f.cmd = id ∧ f.timedOut = false ∧ f.due ≤ u.ns :=
  ⟨0, (run (cm 0x0120 0 []) { rdy with ccx := { rdy.ccx with fwUpd := some ⟨1, 1, ⟨1, 1, 1⟩, 0, 0, [], [], false⟩ } }), 1, ⟨1, 1, ⟨1, 1, 1⟩, 0, 0, [], [], false⟩, by
    (try dsimp only [Runs, Ready, Moves]); and_intros <;> first | decide +kernel | exact fun _ => rfl | exact ok_of (by decide +kernel) | rfl⟩

theorem wit_ControlEventsComplete_9 : ∃ (dt : Nat) (s : State), let u := s.elapse dt;
  ∃ id, let mine := u.ccx.funcs.find? fun f => f.cmds.head? == some id && !f.committed && f.restarting.isEmpty;
  let stops := (List.range 8).find? fun p => u.partState p == .stopping && (u.part p).stop.any fun k => k.cmd == id && decide (k.due ≤ u.ns);
  let retrains := u.mmv.retrains.find? fun r => r.cmd == id && !r.training && !r.timedOut;
  ∃ r, mine = none ∧ stops = none ∧ (∀ f, u.ccx.fwUpd = some f → f.cmd ≠ id) ∧ retrains = some r ∧ r.due ≤ u.ns :=
  ⟨0, { rdy with mmv := { rdy.mmv with retrains := [{ cmd := 1, port := 7, due := 0 }] } }, 1, { cmd := 1, port := 7, due := 0 }, by
    (try dsimp only [Runs, Ready, Moves]); and_intros <;> first | decide +kernel | exact fun _ => rfl | exact ok_of (by decide +kernel) | rfl⟩

theorem wit_ControlEventsComplete_10 : ∃ (dt : Nat) (s : State), let u := s.elapse dt;
  ∃ id, let mine := u.ccx.funcs.find? fun f => f.cmds.head? == some id && !f.committed && f.restarting.isEmpty;
  let stops := (List.range 8).find? fun p => u.partState p == .stopping && (u.part p).stop.any fun k => k.cmd == id && decide (k.due ≤ u.ns);
  let retrains := u.mmv.retrains.find? fun r => r.cmd == id && !r.training && !r.timedOut;
  ∃ k, mine = none ∧ stops = none ∧ (∀ f, u.ccx.fwUpd = some f → f.cmd ≠ id) ∧ retrains = none ∧ u.chn.split = some k ∧ k.cmd = id ∧ k.timedOut = false ∧ k.due ≤ u.ns ∧ u.frameBusy.isSome = true :=
  ⟨0, { rdy with chn := { rdy.chn with split := some { cmd := 1, oct := 0, due := 0, started := 0 }, order := [(3, 1)], scheds := [(3, { insts := [{ k := 1, t := 0, state := .building, built := some {} }] })] } }, 1, { cmd := 1, oct := 0, due := 0, started := 0 }, by
    (try dsimp only [Runs, Ready, Moves]); and_intros <;> first | decide +kernel | exact fun _ => rfl | exact ok_of (by decide +kernel) | rfl⟩

theorem wit_ControlEventsComplete_11 : ∃ (dt : Nat) (s : State), let u := s.elapse dt;
  ∃ p r, 1 ≤ p ∧ p ≤ 7 ∧ u.partState p = .restarting ∧ (u.part p).restart = some r :=
  ⟨0, { rdy with ccx := { rdy.ccx with parts := [(7, { state := .restarting, core := 7, restart := some ⟨0, 0, false, none⟩ })] } }, 7, ⟨0, 0, false, none⟩, by
    (try dsimp only [Runs, Ready, Moves]); and_intros <;> first | decide +kernel | exact fun _ => rfl | exact ok_of (by decide +kernel) | rfl⟩

theorem wit_ControlEventsComplete_12 : ∃ (dt : Nat) (s : State), let u := s.elapse dt;
  ∃ w l, let x := sget {} u.ccx.winCore l;
  ∃ p a b, u.ccx.win = some w ∧ (x.open_.isSome = true → ∀ j ∈ u.tar.jobs, j.core = l → j.started = true → j.ran = true) ∧ w.at l u.now = some (p, a, b) ∧ ¬(x.open_ = some p ∧ x.opens = a) :=
  ⟨0, { rdy with ccx := { rdy.ccx with win := some ⟨100, [⟨1, 1, 0, 50⟩], 0⟩ } }, ⟨100, [⟨1, 1, 0, 50⟩], 0⟩, 0, 1, 0, 50000, by
    (try dsimp only [Runs, Ready, Moves]); and_intros <;> first | decide +kernel | exact fun _ => rfl | exact ok_of (by decide +kernel) | rfl⟩

theorem wit_ControlEventsComplete_13 : ∃ (dt : Nat) (s : State), let u := s.elapse dt;
  ∃ w l, let x := sget {} u.ccx.winCore l;
  u.ccx.win = some w ∧ (x.open_.isSome = true → ∀ j ∈ u.tar.jobs, j.core = l → j.started = true → j.ran = true) ∧ w.at l u.now = none :=
  ⟨0, { rdy with ccx := { rdy.ccx with win := some ⟨100, [⟨1, 1, 50, 50⟩], 0⟩ } }, ⟨100, [⟨1, 1, 50, 50⟩], 0⟩, 0, by
    (try dsimp only [Runs, Ready, Moves]); and_intros <;> first | decide +kernel | exact fun _ => rfl | exact ok_of (by decide +kernel) | rfl⟩

theorem wit_ControlEventsComplete_14 : ∃ (dt : Nat) (s : State), let u := s.elapse dt;
  ∃ cc, u.ready = true ∧ 1 ≤ cc ∧ cc ≤ 7 :=
  ⟨0, { rdy with ccx := { rdy.ccx with parts := [(7, { state := .active, core := 7 })] } }, 7, by
    (try dsimp only [Runs, Ready, Moves]); and_intros <;> first | decide +kernel | exact fun _ => rfl | exact ok_of (by decide +kernel) | rfl⟩

theorem wit_TimeBaseCommandsComplete_0 : ∃ (dt id : Nat) (s : State) (c : Cmd), let u := s.atRow dt id;
  let tb := c.p 0x20 1;
  ∃ f, Runs s dt id 0x0201 c ∧ 1 ≤ tb ∧ tb ≤ 7 ∧ c.p 0x21 1 = f ∧ f ≤ 1 ∧ u.locked tb = false ∧ u.tbReferred tb = false ∧ u.tbShort tb = (f != 1) :=
  ⟨0, 1, (run (cm 0x0201 0 [(0x20, 1, 7), (0x21, 1, 1)]) rdy), (cm 0x0201 0 [(0x20, 1, 7), (0x21, 1, 1)]), 1, by
    (try dsimp only [Runs, Ready, Moves]); and_intros <;> first | decide +kernel | exact fun _ => rfl | exact ok_of (by decide +kernel) | rfl⟩

theorem wit_TimeBaseCommandsComplete_1 : ∃ (dt id : Nat) (s : State) (c : Cmd), let u := s.atRow dt id;
  let tb := c.p 0x20 1;
  Runs s dt id 0x0202 c ∧ tb ≤ 7 ∧ c.p 0x21 1 ≤ 5 ∧ u.locked tb = false ∧ (c.p 0x21 1 = 4 → u.tbShort tb = false) :=
  ⟨0, 1, (run (cm 0x0202 0 [(0x20, 1, 7), (0x21, 1, 5)]) rdy), (cm 0x0202 0 [(0x20, 1, 7), (0x21, 1, 5)]), by
    (try dsimp only [Runs, Ready, Moves]); and_intros <;> first | decide +kernel | exact fun _ => rfl | exact ok_of (by decide +kernel) | rfl⟩

theorem wit_TimeBaseCommandsComplete_2 : ∃ (dt id : Nat) (s : State) (c : Cmd), let u := s.atRow dt id;
  let tb := c.p 0x20 1;
  ∃ v, Runs s dt id 0x0203 c ∧ tb ≤ 7 ∧ c.p 0x28 8 % 2 ^ 40 = v ∧ 0x1FFBE76C9 ≤ v ∧ v ≤ 0x200418937 ∧ u.locked tb = false ∧ u.disciplined tb = false :=
  ⟨0, 1, (run (cm 0x0203 0 [(0x20, 1, 7), (0x28, 8, 0x1FFBE76C9)]) rdy), (cm 0x0203 0 [(0x20, 1, 7), (0x28, 8, 0x1FFBE76C9)]), 0x1FFBE76C9, by
    (try dsimp only [Runs, Ready, Moves]); and_intros <;> first | decide +kernel | exact fun _ => rfl | exact ok_of (by decide +kernel) | rfl⟩

theorem wit_TimeBaseCommandsComplete_3 : ∃ (dt id : Nat) (s : State) (c : Cmd), let u := s.atRow dt id;
  let tb := c.p 0x20 1;
  let off := sgn 64 (c.p 0x28 8);
  let forced := (c.p 0x21 1).testBit 0;
  Runs s dt id 0x0204 c ∧ tb ≤ 7 ∧ u.locked tb = false ∧ u.stepRange tb off = false ∧ ((forced = true ∧ u.unlockOpen c tb = true) ∨
      (forced = false ∧ u.disciplined tb = false ∧ off.natAbs ≤ (u.reg (.tnuTbJumpThr tb)).toNat)) :=
  ⟨0, 1, (run (cm 0x0204 0 [(0x20, 1, 7), (0x28, 8, 1000)]) rdy), (cm 0x0204 0 [(0x20, 1, 7), (0x28, 8, 1000)]), by
    (try dsimp only [Runs, Ready, Moves]); and_intros <;> first | decide +kernel | exact fun _ => rfl | exact ok_of (by decide +kernel) | rfl⟩

theorem wit_TimeBaseCommandsComplete_4 : ∃ (dt id : Nat) (s : State) (c : Cmd), let u := s.atRow dt id;
  let tb := c.p 0x20 1;
  Runs s dt id 0x0205 c ∧ tb ≤ 7 ∧ u.locked tb = false ∧ c.p 0x24 4 = 0xA55A :=
  ⟨0, 1, (run (cm 0x0205 0 [(0x20, 1, 7), (0x24, 4, 0xA55A)]) rdy), (cm 0x0205 0 [(0x20, 1, 7), (0x24, 4, 0xA55A)]), by
    (try dsimp only [Runs, Ready, Moves]); and_intros <;> first | decide +kernel | exact fun _ => rfl | exact ok_of (by decide +kernel) | rfl⟩

theorem wit_TimeBaseCommandsComplete_5 : ∃ (dt id : Nat) (s : State) (c : Cmd), let u := s.atRow dt id;
  let tb := c.p 0x20 1;
  ∃ v, Runs s dt id 0x0206 c ∧ tb ≤ 7 ∧ c.p 0x24 4 = v ∧ 1000 ≤ v ∧ v ≤ 1000000000 ∧ u.locked tb = false :=
  ⟨0, 1, (run (cm 0x0206 0 [(0x20, 1, 7), (0x24, 4, 1000)]) rdy), (cm 0x0206 0 [(0x20, 1, 7), (0x24, 4, 1000)]), 1000, by
    (try dsimp only [Runs, Ready, Moves]); and_intros <;> first | decide +kernel | exact fun _ => rfl | exact ok_of (by decide +kernel) | rfl⟩

theorem wit_TimeBaseCommandsComplete_6 : ∃ (dt id : Nat) (s : State) (c : Cmd), let u := s.atRow dt id;
  let tb := c.p 0x20 1;
  ∃ f, Runs s dt id 0x0201 c ∧ 1 ≤ tb ∧ tb ≤ 7 ∧ c.p 0x21 1 = f ∧ f ≤ 1 ∧ u.locked tb = false ∧ u.tbReferred tb = false :=
  ⟨0, 1, (run (cm 0x0201 0 [(0x20, 1, 7), (0x21, 1, 1)]) rdy), (cm 0x0201 0 [(0x20, 1, 7), (0x21, 1, 1)]), 1, by
    (try dsimp only [Runs, Ready, Moves]); and_intros <;> first | decide +kernel | exact fun _ => rfl | exact ok_of (by decide +kernel) | rfl⟩

theorem wit_TimeServiceCommandsComplete_0 : ∃ (dt id : Nat) (s : State) (c : Cmd), Runs s dt id 0x0207 c :=
  ⟨0, 1, (run (cm 0x0207 0 []) rdy), (cm 0x0207 0 []), by
    (try dsimp only [Runs, Ready, Moves]); and_intros <;> first | decide +kernel | exact fun _ => rfl | exact ok_of (by decide +kernel) | rfl⟩

theorem wit_TimeServiceCommandsComplete_1 : ∃ (dt id : Nat) (s : State) (c : Cmd), let u := s.atRow dt id;
  let tb := c.p 0x21 1;
  let off := sgn 32 (c.p 0x24 4);
  let w := c.p 0x28 4;
  Runs s dt id 0x0208 c ∧ c.p 0x20 1 ≤ 1 ∧ (tb ≤ 7 ∧ u.tbShort tb = false ∨ tb = 255) ∧ -1000000 ≤ off ∧ off ≤ 1000000 ∧ 1000 ≤ w ∧ w ≤ 500000000 :=
  ⟨0, 1, (run (cm 0x0208 0 [(0x20, 1, 1), (0x21, 1, 255), (0x24, 4, 1000000), (0x28, 4, 1000)]) rdy), (cm 0x0208 0 [(0x20, 1, 1), (0x21, 1, 255), (0x24, 4, 1000000), (0x28, 4, 1000)]), by
    (try dsimp only [Runs, Ready, Moves]); and_intros <;> first | decide +kernel | exact fun _ => rfl | exact ok_of (by decide +kernel) | rfl⟩

theorem wit_TimeServiceCommandsComplete_2 : ∃ (dt id : Nat) (s : State) (c : Cmd), let u := s.atRow dt id;
  let tb := c.p 0x20 1;
  let ls := sgn 8 (c.p 0x28 1);
  let la := sgn 8 (c.p 0x29 1);
  Runs s dt id 0x0209 c ∧ 1 ≤ tb ∧ tb ≤ 7 ∧ c.p 0x21 1 ≤ 2 ∧ c.p 0x23 1 ≤ 2 ∧ c.p 0x24 1 ≤ 2 ∧ c.p 0x25 1 ≤ 1 ∧ -7 ≤ ls ∧ ls ≤ 4 ∧ -3 ≤ la ∧ la ≤ 4 ∧ u.locked tb = false :=
  ⟨0, 1, (run (cm 0x0209 0 [(0x20, 1, 7), (0x21, 1, 2), (0x23, 1, 2), (0x24, 1, 2), (0x25, 1, 1), (0x28, 1, 4), (0x29, 1, 0xFD)]) rdy), (cm 0x0209 0 [(0x20, 1, 7), (0x21, 1, 2), (0x23, 1, 2), (0x24, 1, 2), (0x25, 1, 1), (0x28, 1, 4), (0x29, 1, 0xFD)]), by
    (try dsimp only [Runs, Ready, Moves]); and_intros <;> first | decide +kernel | exact fun _ => rfl | exact ok_of (by decide +kernel) | rfl⟩

theorem wit_TimeServiceCommandsComplete_3 : ∃ (dt id : Nat) (s : State) (c : Cmd), let u := s.atRow dt id;
  let inst := c.p 0x20 8;
  let dst := c.p 0x28 8;
  Runs s dt id 0x0210 c ∧ c.accept + 100000 ≤ inst ∧ u.inRange (.part c.part) true dst 616864 = true ∧ u.inRange .host false dst 616864 = true ∧ u.inHole dst 616864 = false ∧ u.noInstants 0 = false ∧ u.liveEpochs.length < 4 ∧ (∀ e ∈ u.liveEpochs, e.inst + 5000000 ≤ inst ∨ inst + 5000000 ≤ e.inst) :=
  ⟨0, 1, (run (cm 0x0210 1 [(0x20, 8, 100000), (0x28, 8, 0)]) rdy), (cm 0x0210 1 [(0x20, 8, 100000), (0x28, 8, 0)]), by
    (try dsimp only [Runs, Ready, Moves]); and_intros <;> first | decide +kernel | exact fun _ => rfl | exact ok_of (by decide +kernel) | rfl⟩

theorem wit_TimeBaseEventsComplete_0 : ∃ (dt : Nat) (s : State), let u := s.elapse dt;
  u.pwr.porstHigh = true ∧ u.pwr.pllLocked = false ∧ u.pwr.refs.contains .timeref = true :=
  ⟨0, { rdy with pwr := { rdy.pwr with pllLocked := false } }, by
    (try dsimp only [Runs, Ready, Moves]); and_intros <;> first | decide +kernel | exact fun _ => rfl | exact ok_of (by decide +kernel) | rfl⟩

theorem wit_TimeBaseEventsComplete_1 : ∃ (dt : Nat) (s : State), let u := s.elapse dt;
  u.pwr.refs.contains .timeref = true ∧ u.pwr.pllLocked = true :=
  ⟨0, rdy, by
    (try dsimp only [Runs, Ready, Moves]); and_intros <;> first | decide +kernel | exact fun _ => rfl | exact ok_of (by decide +kernel) | rfl⟩

theorem wit_TimeBaseEventsComplete_2 : ∃ (dt : Nat) (s : State), let u := s.elapse dt;
  u.pwr.refs.contains .timeref = false ∧ u.pwr.pllLocked = true :=
  ⟨0, { rdy with pwr := { rdy.pwr with refs := [] } }, by
    (try dsimp only [Runs, Ready, Moves]); and_intros <;> first | decide +kernel | exact fun _ => rfl | exact ok_of (by decide +kernel) | rfl⟩

theorem wit_TimeBaseEventsComplete_3 : ∃ tb, ∃ v : W64, tb < 8 ∧ 0x1FFBE76C9 ≤ v.toNat % 2 ^ 40 ∧ v.toNat % 2 ^ 40 ≤ 0x200418937 :=
  ⟨7, 0x1FFBE76C9, by
    (try dsimp only [Runs, Ready, Moves]); and_intros <;> first | decide +kernel | exact fun _ => rfl | exact ok_of (by decide +kernel) | rfl⟩

theorem wit_TimeBaseEventsComplete_4 : ∃ (dt : Nat) (s : State), let u := s.elapse dt;
  ∃ tb, ∃ v : W64, tb < 8 ∧ 0x1FFBE76C9 ≤ v.toNat % 2 ^ 40 ∧ v.toNat % 2 ^ 40 ≤ 0x200418937 ∧ u.locked tb = false :=
  ⟨0, rdy, 7, 0x1FFBE76C9, by
    (try dsimp only [Runs, Ready, Moves]); and_intros <;> first | decide +kernel | exact fun _ => rfl | exact ok_of (by decide +kernel) | rfl⟩

theorem wit_TimeBaseEventsComplete_5 : ∃ (dt : Nat) (s : State), let u := s.elapse dt;
  ∃ tb, ∃ v : W64, tb < 8 ∧ 0x1FFBE76C9 ≤ v.toNat % 2 ^ 40 ∧ v.toNat % 2 ^ 40 ≤ 0x200418937 ∧ u.locked tb = true :=
  ⟨0, rdy.setReg (.tnuTbCtl 7) 0x80000000, 7, 0x200418937, by
    (try dsimp only [Runs, Ready, Moves]); and_intros <;> first | decide +kernel | exact fun _ => rfl | exact ok_of (by decide +kernel) | rfl⟩

theorem wit_TimeBaseEventsComplete_6 : ∃ tb, ∃ v : W64, tb < 8 ∧ 0x1FFBE76C9 ≤ v.toNat % 2 ^ 40 ∧ v.toNat % 2 ^ 40 ≤ 0x200418937 :=
  ⟨7, 0x1FFBE76C9, by
    (try dsimp only [Runs, Ready, Moves]); and_intros <;> first | decide +kernel | exact fun _ => rfl | exact ok_of (by decide +kernel) | rfl⟩

theorem wit_TimeBaseEventsComplete_7 : ∃ (dt : Nat) (s : State), let u := s.elapse dt;
  ∃ tb, ∃ v : W64, tb < 8 ∧ u.locked tb = false ∧ (u.tbShort tb = true ∨ u.stepRange tb v.toInt = false) :=
  ⟨0, rdy, 7, 1000, by
    (try dsimp only [Runs, Ready, Moves]); and_intros <;> first | decide +kernel | exact fun _ => rfl | exact ok_of (by decide +kernel) | rfl⟩

theorem wit_TimeBaseEventsComplete_9 : ∃ (dt : Nat) (s : State), let u := s.elapse dt;
  ∃ tb, (u.tbase tb).p0Key = true :=
  ⟨0, (rdy.setTbase 7 { p0Key := true }), 7, by
    (try dsimp only [Runs, Ready, Moves]); and_intros <;> first | decide +kernel | exact fun _ => rfl | exact ok_of (by decide +kernel) | rfl⟩

theorem wit_TimeBaseEventsComplete_10 : ∃ (dt : Nat) (s : State), let u := s.elapse dt;
  ∃ tb p a b, (u.tbase tb).unlock = some (p, a) ∧ a + 10000000 < u.ns ∧ (u.tbase tb).p0Open = some b ∧ b + 100000 < u.ns :=
  ⟨5000001, (rdy.setTbase 7 { unlock := some (1, 0), p0Open := some 0 }), 7, 1, 0, 0, by
    (try dsimp only [Runs, Ready, Moves]); and_intros <;> first | decide +kernel | exact fun _ => rfl | exact ok_of (by decide +kernel) | rfl⟩

theorem wit_TimeBaseEventsComplete_11 : ∃ (dt : Nat) (s : State), let u := s.elapse dt;
  ∃ tb, u.tbShort tb = false :=
  ⟨0, rdy, 7, by
    (try dsimp only [Runs, Ready, Moves]); and_intros <;> first | decide +kernel | exact fun _ => rfl | exact ok_of (by decide +kernel) | rfl⟩

theorem wit_TimeBaseEventsComplete_12 : ∃ (dt : Nat) (s : State), let u := s.elapse dt;
  ∃ tb, u.tbShort tb = true :=
  ⟨0, shortTb, 7, by
    (try dsimp only [Runs, Ready, Moves]); and_intros <;> first | decide +kernel | exact fun _ => rfl | exact ok_of (by decide +kernel) | rfl⟩

theorem wit_TimeBaseEventsComplete_13 : ∃ (dt : Nat) (s : State), let u := s.elapse dt;
  ∃ tb, ∃ v : W64, tb < 8 ∧ (u.tbShort tb = true ∨ u.stepRange tb v.toInt = false) :=
  ⟨0, rdy, 7, 1000, by
    (try dsimp only [Runs, Ready, Moves]); and_intros <;> first | decide +kernel | exact fun _ => rfl | exact ok_of (by decide +kernel) | rfl⟩

theorem wit_TimeBaseEventsComplete_14 : ∃ v, v ≠ 0xA55A#32 ∧ v ≠ 0x5AA5#32 :=
  ⟨0x1FFBE76C9, by
    (try dsimp only [Runs, Ready, Moves]); and_intros <;> first | decide +kernel | exact fun _ => rfl | exact ok_of (by decide +kernel) | rfl⟩

theorem wit_TimeBaseEventsComplete_15 : ∃ (dt : Nat) (s : State), let u := s.elapse dt;
  ∃ tb p a, (u.tbase tb).unlock = some (p, a) ∧ a + 10000000 < u.ns :=
  ⟨5000001, (rdy.setTbase 7 { unlock := some (1, 0), p0Open := some 0 }), 7, 1, 0, by
    (try dsimp only [Runs, Ready, Moves]); and_intros <;> first | decide +kernel | exact fun _ => rfl | exact ok_of (by decide +kernel) | rfl⟩

theorem wit_TimeBaseEventsComplete_16 : ∃ (dt : Nat) (s : State), let u := s.elapse dt;
  ∃ tb a, (u.tbase tb).p0Open = some a ∧ a + 100000 < u.ns :=
  ⟨5000001, (rdy.setTbase 7 { unlock := some (1, 0), p0Open := some 0 }), 7, 0, by
    (try dsimp only [Runs, Ready, Moves]); and_intros <;> first | decide +kernel | exact fun _ => rfl | exact ok_of (by decide +kernel) | rfl⟩

theorem wit_TimeBaseEventsComplete_17 : ∃ (dt : Nat) (s : State), let u := s.elapse dt;
  ∃ tb, u.tbShort tb = true :=
  ⟨0, shortTb, 7, by
    (try dsimp only [Runs, Ready, Moves]); and_intros <;> first | decide +kernel | exact fun _ => rfl | exact ok_of (by decide +kernel) | rfl⟩

theorem wit_TimeBaseEventsComplete_18 : ∃ (dt : Nat) (s : State), let u := s.elapse dt;
  u.pwr.refs.contains .timeref = true ∧ u.pwr.pllLocked = false :=
  ⟨0, { rdy with pwr := { rdy.pwr with pllLocked := false } }, by
    (try dsimp only [Runs, Ready, Moves]); and_intros <;> first | decide +kernel | exact fun _ => rfl | exact ok_of (by decide +kernel) | rfl⟩

theorem wit_TimeBaseEventsComplete_19 : ∃ (dt : Nat) (s : State), let u := s.elapse dt;
  u.pwr.refs.contains .timeref = false ∧ u.pwr.pllLocked = false :=
  ⟨0, { rdy with pwr := { rdy.pwr with refs := [], pllLocked := false } }, by
    (try dsimp only [Runs, Ready, Moves]); and_intros <;> first | decide +kernel | exact fun _ => rfl | exact ok_of (by decide +kernel) | rfl⟩

theorem wit_TimeEdgesComplete_0 : ∃ (dt : Nat) (s : State), let u := s.elapse dt;
  ∃ tb r rest, (u.tbase tb).steps = r :: rest ∧ r.cmd = none ∧ tb ≠ 0 ∧ u.stepTime tb r = true ∧ u.stepBad tb r = false :=
  ⟨1, rdy.setTbase 7 { steps := [{ off := 5, forced := false, who := .bivexa }] }, 7, { off := 5, forced := false, who := .bivexa }, [], by
    (try dsimp only [Runs, Ready, Moves]); and_intros <;> first | decide +kernel | exact fun _ => rfl | exact ok_of (by decide +kernel) | rfl⟩

theorem wit_TimeEdgesComplete_1 : ∃ (dt : Nat) (s : State), let u := s.elapse dt;
  ∃ r rest, (u.tbase 0).steps = r :: rest ∧ r.cmd = none ∧ u.stepTime 0 r = true ∧ u.stepBad 0 r = false :=
  ⟨1, rdy.setTbase 0 { steps := [{ off := 5, forced := false, who := .bivexa }] }, { off := 5, forced := false, who := .bivexa }, [], by
    (try dsimp only [Runs, Ready, Moves]); and_intros <;> first | decide +kernel | exact fun _ => rfl | exact ok_of (by decide +kernel) | rfl⟩

theorem wit_TimeEdgesComplete_2 : ∃ v : W32, bit v 0 = true :=
  ⟨1, by
    (try dsimp only [Runs, Ready, Moves]); and_intros <;> first | decide +kernel | exact fun _ => rfl | exact ok_of (by decide +kernel) | rfl⟩

theorem wit_TimeEdgesComplete_3 : ∃ (dt : Nat) (s : State), let u := s.elapse dt;
  ∃ src k, src ≠ 0x11 ∧ (∀ j < 32, u.fldOf (.tnuCapCtl j) 8 8 = src → u.fldOf (.tnuCapCtl j) 0 2 ≠ 0 → j = k) ∧ u.fldOf (.tnuCapCtl k) 8 8 = src ∧ u.fldOf (.tnuCapCtl k) 0 2 = 3 ∧ k < 32 ∧ u.tnu.capUnread.contains k = false :=
  ⟨0, (rdy.setReg (.tnuCapCtl 31) 0x2003), 0x20, 31, by
    (try dsimp only [Runs, Ready, Moves]); and_intros <;> first | decide +kernel | exact fun _ => rfl | exact ok_of (by decide +kernel) | rfl⟩

theorem wit_TimeEdgesComplete_4 : ∃ ch, ch < 32 :=
  ⟨31, by
    (try dsimp only [Runs, Ready, Moves]); and_intros <;> first | decide +kernel | exact fun _ => rfl | exact ok_of (by decide +kernel) | rfl⟩

theorem wit_TimeEdgesComplete_5 : ∃ (dt : Nat) (s : State), let u := s.elapse dt;
  ∃ k, k < 16 ∧ bit (u.reg (.tnuCmpCtl k)) 31 = true ∧ u.reached (u.fldOf (.tnuCmpCtl k) 12 3) (u.reg (.tnuCmpAt k)).toNat = true ∧ u.cmpFirst k = true ∧ u.reg (.tnuCmpPer k) = 0 ∧ u.fldOf (.tnuCmpCtl k) 4 3 = 0 :=
  ⟨0, (rdy.setReg (.tnuCmpCtl 15) 0x80000000), 15, by
    (try dsimp only [Runs, Ready, Moves]); and_intros <;> first | decide +kernel | exact fun _ => rfl | exact ok_of (by decide +kernel) | rfl⟩

theorem wit_TimeEdgesComplete_6 : ∃ (dt : Nat) (s : State), let u := s.elapse dt;
  ∃ e c, u.tnu.epochs = [e] ∧ u.cmd? e.cmd = some c ∧ c.state = .running ∧ e.latched = false ∧ u.reached 0 e.inst = true :=
  ⟨0, run (cm 0x0210 1 []) { rdy with tnu := { rdy.tnu with epochs := [⟨0, 0, 1, 1, false, false, []⟩] } }, ⟨0, 0, 1, 1, false, false, []⟩, cm 0x0210 1 [], by
    (try dsimp only [Runs, Ready, Moves]); and_intros <;> first | decide +kernel | exact fun _ => rfl | exact ok_of (by decide +kernel) | rfl⟩

theorem wit_TimeEdgesComplete_7 : ∃ (dt : Nat) (s : State), let u := s.elapse dt;
  ∃ e c, u.tnu.epochs = [e] ∧ e.latched = true ∧ u.cmd? e.cmd = some c ∧ c.state = .running :=
  ⟨0, run (cm 0x0210 1 []) { rdy with tnu := { rdy.tnu with epochs := [⟨0, 0, 1, 1, true, false, []⟩] } }, ⟨0, 0, 1, 1, true, false, []⟩, cm 0x0210 1 [], by
    (try dsimp only [Runs, Ready, Moves]); and_intros <;> first | decide +kernel | exact fun _ => rfl | exact ok_of (by decide +kernel) | rfl⟩

theorem wit_TimeEdgesComplete_8 : ∃ (dt : Nat) (s : State), let u := s.elapse dt;
  ∃ tb r rest id c, (u.tbase tb).steps = r :: rest ∧ r.cmd = some id ∧ u.isRunning id = true ∧ u.stepTime tb r = true ∧ u.stepBad tb r = false ∧ (u.takeStep tb r).cmd? id = some c :=
  ⟨1, run (cm 0x0204 1 []) (rdy.setTbase 7 { steps := [{ off := 5, forced := false, who := .p0, cmd := some 1 }] }), 7, { off := 5, forced := false, who := .p0, cmd := some 1 }, [], 1, cm 0x0204 1 [], by
    (try dsimp only [Runs, Ready, Moves]); and_intros <;> first | decide +kernel | exact fun _ => rfl | exact ok_of (by decide +kernel) | rfl⟩

theorem wit_TimeEdgesComplete_9 : ∃ (dt : Nat) (s : State), let u := s.elapse dt;
  ∃ tb r rest id, (u.tbase tb).steps = r :: rest ∧ r.cmd = some id ∧ u.isRunning id = true ∧ u.stepTime tb r = true ∧ u.stepBad tb r = true :=
  ⟨1, run (cm 0x0204 1 []) (rdy.setTbase 7 { steps := [{ off := -500, forced := false, who := .p0, cmd := some 1 }] }), 7, { off := -500, forced := false, who := .p0, cmd := some 1 }, [], 1, by
    (try dsimp only [Runs, Ready, Moves]); and_intros <;> first | decide +kernel | exact fun _ => rfl | exact ok_of (by decide +kernel) | rfl⟩

theorem wit_TimeEdgesComplete_10 : ∃ src, src ≠ 0x11 :=
  ⟨0x20, by
    (try dsimp only [Runs, Ready, Moves]); and_intros <;> first | decide +kernel | exact fun _ => rfl | exact ok_of (by decide +kernel) | rfl⟩

theorem wit_TimeEdgesComplete_11 : ∃ (dt : Nat) (s : State), let u := s.elapse dt;
  ∃ a, u.tnu.ppsFall = some a ∧ a ≤ u.ns :=
  ⟨0, { rdy with tnu := { rdy.tnu with ppsFall := some 0 } }, 0, by
    (try dsimp only [Runs, Ready, Moves]); and_intros <;> first | decide +kernel | exact fun _ => rfl | exact ok_of (by decide +kernel) | rfl⟩

theorem wit_TimeEdgesComplete_12 : ∃ (dt : Nat) (s : State), let u := s.elapse dt;
  ∃ src, ∃ rising : Bool, ∃ k, src ≠ 0x11 ∧ k < 32 ∧ u.fldOf (.tnuCapCtl k) 8 8 = src ∧ (u.fldOf (.tnuCapCtl k) 0 2 = 3 ∨ u.fldOf (.tnuCapCtl k) 0 2 = (if rising then 1 else 2)) :=
  ⟨0, rdy.setReg (.tnuCapCtl 31) 0x303, 3, true, 31, by
    (try dsimp only [Runs, Ready, Moves]); and_intros <;> first | decide +kernel | exact fun _ => rfl | exact ok_of (by decide +kernel) | rfl⟩

theorem wit_TimeEdgesComplete_13 : ∃ (dt : Nat) (s : State), let u := s.elapse dt;
  ∃ k, k < 16 ∧ u.cmpDue k = true ∧ u.cmpFirst k = true :=
  ⟨0, (rdy.setReg (.tnuCmpCtl 15) 0x80000000), 15, by
    (try dsimp only [Runs, Ready, Moves]); and_intros <;> first | decide +kernel | exact fun _ => rfl | exact ok_of (by decide +kernel) | rfl⟩

theorem wit_TimeEdgesComplete_14 : ∃ (dt : Nat) (s : State), let u := s.elapse dt;
  ∃ d, u.dueEpoch = some d :=
  ⟨0, run (cm 0x0210 1 []) { rdy with tnu := { rdy.tnu with epochs := [⟨0, 0, 1, 1, false, false, []⟩] } }, ⟨0, 0, 1, 1, false, false, []⟩, by
    (try dsimp only [Runs, Ready, Moves]); and_intros <;> first | decide +kernel | exact fun _ => rfl | exact ok_of (by decide +kernel) | rfl⟩

theorem wit_TimeEdgesComplete_15 : ∃ (dt : Nat) (s : State), let u := s.elapse dt;
  ∃ e c, u.liveEpochs.find? (fun e => e.latched) = some e ∧ u.cmd? e.cmd = some c :=
  ⟨0, run (cm 0x0210 1 []) { rdy with tnu := { rdy.tnu with epochs := [⟨0, 0, 1, 1, true, false, []⟩] } }, ⟨0, 0, 1, 1, true, false, []⟩, cm 0x0210 1 [], by
    (try dsimp only [Runs, Ready, Moves]); and_intros <;> first | decide +kernel | exact fun _ => rfl | exact ok_of (by decide +kernel) | rfl⟩

theorem wit_PpsAndPtpComplete_0 : ∃ (dt : Nat) (s : State), let u := s.elapse dt;
  ∃ tb rising, tb < 8 ∧ (∀ k < 8, k ≠ tb → u.source k ≠ 4) ∧ u.source tb = 4 ∧ u.tbShort tb = false ∧ (u.tbase tb).ppsLocked = false ∧ (∀ k < 32, u.fldOf (.tnuCapCtl k) 8 8 ≠ 0x10) ∧ rising = (u.tnu.ppsPolarity == 0) ∧ u.tbNow tb % 1000000000 = 0 :=
  ⟨0, (rdy.setReg (.tnuTbCtl 7) 0x4000), 7, true, by
    (try dsimp only [Runs, Ready, Moves]); and_intros <;> first | decide +kernel | exact fun _ => rfl | exact ok_of (by decide +kernel) | rfl⟩

theorem wit_PpsAndPtpComplete_1 : ∃ (dt : Nat) (s : State), let u := s.elapse dt;
  ∃ tb, u.source tb = 4 ∧ (u.tbase tb).ppsLast + 1500000000 ≤ u.ns ∧ (bit (u.reg (.tnuTbStat tb)) 4 = false ∨ (u.tbase tb).ppsLocked = true) :=
  ⟨750000000, ((rdy.setReg (.tnuTbCtl 7) 0x4000).setTbase 7 { ppsLocked := true }), 7, by
    (try dsimp only [Runs, Ready, Moves]); and_intros <;> first | decide +kernel | exact fun _ => rfl | exact ok_of (by decide +kernel) | rfl⟩

theorem wit_PpsAndPtpComplete_2 : ∃ (dt : Nat) (s : State), let u := s.elapse dt;
  ∃ tb, u.tnu.ppsOutTb = tb ∧ tb ≤ 7 ∧ (u.tnu.ppsOutNext : Int) * 1000000000 + u.tnu.ppsOutOff ≤ ((u.tbNow tb : Nat) : Int) :=
  ⟨0, { rdy with tnu := { rdy.tnu with ppsOutTb := 7 } }, 7, by
    (try dsimp only [Runs, Ready, Moves]); and_intros <;> first | decide +kernel | exact fun _ => rfl | exact ok_of (by decide +kernel) | rfl⟩

theorem wit_PpsAndPtpComplete_3 : ∃ (dt : Nat) (s : State), let u := s.elapse dt;
  ∃ port tb g gm, (u.tbase tb).ptp = some g ∧ g.ports.testBit port = true ∧ g.role ≠ 1 ∧ gm ≠ (u.tbase tb).gm :=
  ⟨0, (rdy.setTbase 7 { ptp := some ⟨0, 0x80, 0, 0, true, 0, 0, 0, 0⟩ }), 7, 7, ⟨0, 0x80, 0, 0, true, 0, 0, 0, 0⟩, 9, by
    (try dsimp only [Runs, Ready, Moves]); and_intros <;> first | decide +kernel | exact fun _ => rfl | exact ok_of (by decide +kernel) | rfl⟩

theorem wit_PpsAndPtpComplete_4 : ∃ (dt : Nat) (s : State), let u := s.elapse dt;
  ∃ tb g, (u.tbase tb).ptp = some g ∧ g.role ≠ 1 ∧ (u.tbase tb).gm ≠ 0 ∧ (u.tbase tb).lastAnnounce + 3 * logIntervalNs g.logAnnounce ≤ u.ns :=
  ⟨1500000000, (rdy.setTbase 7 { ptp := some ⟨0, 0x80, 0, 0, true, 0, 0, 0, 0⟩, gm := 9 }), 7, ⟨0, 0x80, 0, 0, true, 0, 0, 0, 0⟩, by
    (try dsimp only [Runs, Ready, Moves]); and_intros <;> first | decide +kernel | exact fun _ => rfl | exact ok_of (by decide +kernel) | rfl⟩

theorem wit_PpsAndPtpComplete_5 : ∃ (dt : Nat) (s : State), let u := s.elapse dt;
  ∃ o, ∃ tb, ∃ f : Bytes, (u.tbase tb).ptp = none ∧ u.mayEgress o f = true ∧ ptpType f ≤ 3 :=
  ⟨0, rdy, 0, 7, [], by
    (try dsimp only [Runs, Ready, Moves]); and_intros <;> first | decide +kernel | exact fun _ => rfl | exact ok_of (by decide +kernel) | rfl⟩

theorem wit_PpsAndPtpComplete_6 : ∃ (dt : Nat) (s : State), let u := s.elapse dt;
  ∃ tb, ∃ g, ∃ tx : PtpTx, (u.tbase tb).ptp = some g ∧ g.sends tx = true :=
  ⟨0, rdy.setTbase 7 { ptp := some ⟨0, 0x80, 0, 0, true, 0, 0, 0, 0⟩ }, 7, ⟨0, 0x80, 0, 0, true, 0, 0, 0, 0⟩, .sync, by
    (try dsimp only [Runs, Ready, Moves]); and_intros <;> first | decide +kernel | exact fun _ => rfl | exact ok_of (by decide +kernel) | rfl⟩

theorem wit_PpsAndPtpComplete_8 : ∃ (dt : Nat) (s : State), let u := s.elapse dt;
  ∃ tb rising, let frac := u.tbNow tb % 1000000000;
  let off : Int := if frac < 500000000 then -(frac : Int) else 1000000000 - (frac : Int);
  tb < 8 ∧ (∀ k < 8, k ≠ tb → u.source k ≠ 4) ∧ u.source tb = 4 ∧ u.tbShort tb = false ∧ (∀ k < 32, u.fldOf (.tnuCapCtl k) 8 8 ≠ 0x10) ∧ rising = (u.tnu.ppsPolarity == 0) ∧ ((u.tbase tb).ppsLocked = false ∨ off.natAbs ≤ 1000000) :=
  ⟨0, (rdy.setReg (.tnuTbCtl 7) 0x4000), 7, true, by
    (try dsimp only [Runs, Ready, Moves]); and_intros <;> first | decide +kernel | exact fun _ => rfl | exact ok_of (by decide +kernel) | rfl⟩

theorem wit_PpsAndPtpComplete_9 : ∃ (dt : Nat) (s : State), let u := s.elapse dt;
  ∃ port tb g, u.ptpOn port tb = some g :=
  ⟨0, (rdy.setTbase 7 { ptp := some ⟨0, 0x80, 0, 0, true, 0, 0, 0, 0⟩ }), 7, 7, ⟨0, 0x80, 0, 0, true, 0, 0, 0, 0⟩, by
    (try dsimp only [Runs, Ready, Moves]); and_intros <;> first | decide +kernel | exact fun _ => rfl | exact ok_of (by decide +kernel) | rfl⟩

theorem wit_PpsAndPtpComplete_10 : ∃ (dt : Nat) (s : State), let u := s.elapse dt;
  ∃ port tb g, u.ptpOn port tb = some g :=
  ⟨0, (rdy.setTbase 7 { ptp := some ⟨0, 0x80, 0, 0, true, 0, 0, 0, 0⟩ }), 7, 7, ⟨0, 0x80, 0, 0, true, 0, 0, 0, 0⟩, by
    (try dsimp only [Runs, Ready, Moves]); and_intros <;> first | decide +kernel | exact fun _ => rfl | exact ok_of (by decide +kernel) | rfl⟩

theorem wit_PpsAndPtpComplete_11 : ∃ (dt : Nat) (s : State), let u := s.elapse dt;
  ∃ port tb g, u.ptpOn port tb = some g ∧ g.profile = 0 ∧ g.role ≠ 2 :=
  ⟨0, (rdy.setTbase 7 { ptp := some ⟨0, 0x80, 0, 0, true, 0, 0, 0, 0⟩ }), 7, 7, ⟨0, 0x80, 0, 0, true, 0, 0, 0, 0⟩, by
    (try dsimp only [Runs, Ready, Moves]); and_intros <;> first | decide +kernel | exact fun _ => rfl | exact ok_of (by decide +kernel) | rfl⟩

theorem wit_PpsAndPtpComplete_12 : ∃ (dt : Nat) (s : State), let u := s.elapse dt;
  ∃ port tb g, u.ptpOn port tb = some g ∧ g.profile = 0 :=
  ⟨0, (rdy.setTbase 7 { ptp := some ⟨0, 0x80, 0, 0, true, 0, 0, 0, 0⟩ }), 7, 7, ⟨0, 0x80, 0, 0, true, 0, 0, 0, 0⟩, by
    (try dsimp only [Runs, Ready, Moves]); and_intros <;> first | decide +kernel | exact fun _ => rfl | exact ok_of (by decide +kernel) | rfl⟩

theorem wit_PpsAndPtpComplete_13 : ∃ (dt : Nat) (s : State), let u := s.elapse dt;
  ∃ port tb g, u.ptpOn port tb = some g ∧ g.profile ≠ 0 :=
  ⟨0, rdy.setTbase 7 { ptp := some ⟨1, 0x80, 0, 0, true, 0, 0, 0, 0⟩ }, 7, 7, ⟨1, 0x80, 0, 0, true, 0, 0, 0, 0⟩, by
    (try dsimp only [Runs, Ready, Moves]); and_intros <;> first | decide +kernel | exact fun _ => rfl | exact ok_of (by decide +kernel) | rfl⟩

theorem wit_PpsAndPtpComplete_14 : ∃ (dt : Nat) (s : State), let u := s.elapse dt;
  ∃ port tb g, u.ptpOn port tb = some g ∧ g.profile ≠ 0 :=
  ⟨0, rdy.setTbase 7 { ptp := some ⟨1, 0x80, 0, 0, true, 0, 0, 0, 0⟩ }, 7, 7, ⟨1, 0x80, 0, 0, true, 0, 0, 0, 0⟩, by
    (try dsimp only [Runs, Ready, Moves]); and_intros <;> first | decide +kernel | exact fun _ => rfl | exact ok_of (by decide +kernel) | rfl⟩

theorem wit_PpsAndPtpComplete_15 : ∃ (dt : Nat) (s : State), let u := s.elapse dt;
  ∃ o, ∃ tb, ∃ f : Bytes, (∀ g, (u.tbase tb).ptp = some g → g.profile ≠ 2) ∧ u.mayEgress o f = true ∧ 3 < ptpType f :=
  ⟨0, rdy, 0, 7, List.replicate 14 0 ++ [0x0B], by
    (try dsimp only [Runs, Ready, Moves]); and_intros <;> first | decide +kernel | exact fun _ => rfl | exact ok_of (by decide +kernel) | rfl | (intro _ h; cases h <;> decide +kernel) | exact List.mem_cons_self⟩

theorem wit_PpsAndPtpComplete_16 : ∃ (dt : Nat) (s : State), let u := s.elapse dt;
  ∃ o, ∃ tb, ∃ f : Bytes, ∃ g, (u.tbase tb).ptp = some g ∧ g.profile ≤ 1 ∧ u.mayEgress o f = true ∧ ptpType f ≤ 3 :=
  ⟨0, rdy.setTbase 7 { ptp := some ⟨1, 0x80, 0, 0, true, 0, 0, 0, 0⟩ }, 0, 7, [], ⟨1, 0x80, 0, 0, true, 0, 0, 0, 0⟩, by
    (try dsimp only [Runs, Ready, Moves]); and_intros <;> first | decide +kernel | exact fun _ => rfl | exact ok_of (by decide +kernel) | rfl⟩

theorem wit_LaunchCommandsComplete_0 : ∃ (dt id : Nat) (s : State) (c : Cmd), let u := s.atRow dt id;
  let e := geyParse {} (cut c.params 0 64);
  ∃ i, Runs s dt id 0x0220 c ∧ e.fieldsOk = true ∧ bit e.flags 3 = false ∧ u.noInstants e.tb = false ∧ u.pinTaken e = false ∧ u.freeEntry = some i :=
  ⟨0, 1, (run (cm 0x0220 1 [(0x40, 1, 5), (0x41, 1, 15), (0x42, 1, 7)]) rdy), (cm 0x0220 1 [(0x40, 1, 5), (0x41, 1, 15), (0x42, 1, 7)]), 32, by
    (try dsimp only [Runs, Ready, Moves]); and_intros <;> first | decide +kernel | exact fun _ => rfl | exact ok_of (by decide +kernel) | rfl⟩

theorem wit_LaunchCommandsComplete_1 : ∃ (dt id : Nat) (s : State) (c : Cmd), let u := s.atRow dt id;
  let e := geyParse {} (cut c.params 0 64);
  Runs s dt id 0x0220 c ∧ e.fieldsOk = true ∧ bit e.flags 3 = false ∧ u.noInstants e.tb = false ∧ u.pinTaken e = false ∧ u.freeEntry = none :=
  ⟨0, 1, (run (cm 0x0220 1 [(0x40, 1, 5), (0x41, 1, 15), (0x42, 1, 7)]) fullGey), (cm 0x0220 1 [(0x40, 1, 5), (0x41, 1, 15), (0x42, 1, 7)]), by
    (try dsimp only [Runs, Ready, Moves]); and_intros <;> first | decide +kernel | exact fun _ => rfl | exact ok_of (by decide +kernel) | rfl⟩

theorem wit_LaunchCommandsComplete_2 : ∃ (dt id : Nat) (s : State) (c : Cmd), let u := s.atRow dt id;
  ∃ i, Runs s dt id 0x0221 c ∧ c.p 0x20 2 = i ∧ 32 ≤ i ∧ i ≤ 255 ∧ (u.gey i).owner = c.part ∧ (u.gey i).state.cancellable = true :=
  ⟨0, 1, (run (cm 0x0221 1 [(0x20, 2, 255)]) { rdy with tnu := { rdy.tnu with gey := [(255, { owner := 1, state := .armed })] } }), (cm 0x0221 1 [(0x20, 2, 255)]), 255, by
    (try dsimp only [Runs, Ready, Moves]); and_intros <;> first | decide +kernel | exact fun _ => rfl | exact ok_of (by decide +kernel) | rfl⟩

theorem wit_LaunchCommandsComplete_3 : ∃ (dt id : Nat) (s : State) (c : Cmd), let u := s.atRow dt id;
  ∃ i, Runs s dt id 0x0221 c ∧ c.p 0x20 2 = i ∧ 32 ≤ i ∧ i ≤ 255 ∧ (u.gey i).owner = c.part ∧ (u.gey i).state.cancellable = false :=
  ⟨0, 1, (run (cm 0x0221 1 [(0x20, 2, 32)]) { rdy with tnu := { rdy.tnu with gey := [(32, { owner := 1, state := .launching })] } }), (cm 0x0221 1 [(0x20, 2, 32)]), 32, by
    (try dsimp only [Runs, Ready, Moves]); and_intros <;> first | decide +kernel | exact fun _ => rfl | exact ok_of (by decide +kernel) | rfl⟩

theorem wit_LaunchCommandsComplete_4 : ∃ (dt id : Nat) (s : State) (c : Cmd), let u := s.atRow dt id;
  ∃ i, Runs s dt id 0x0222 c ∧ c.p 0x20 2 = i ∧ 32 ≤ i ∧ i ≤ 255 ∧ (u.gey i).owner = c.part :=
  ⟨0, 1, (run (cm 0x0222 1 [(0x20, 2, 255)]) { rdy with tnu := { rdy.tnu with gey := [(255, { owner := 1 })] } }), (cm 0x0222 1 [(0x20, 2, 255)]), 255, by
    (try dsimp only [Runs, Ready, Moves]); and_intros <;> first | decide +kernel | exact fun _ => rfl | exact ok_of (by decide +kernel) | rfl⟩

theorem wit_GeyserRowsComplete_0 : ∃ (i : Nat), ∃ off, ∃ bytes : Bytes, i < 32 ∧ off + bytes.length ≤ 0x30 :=
  ⟨31, 0x2F, [1], by
    (try dsimp only [Runs, Ready, Moves]); and_intros <;> first | decide +kernel | exact fun _ => rfl | exact ok_of (by decide +kernel) | rfl⟩

theorem wit_GeyserRowsComplete_1 : ∃ (dt i : Nat) (s : State), let u := s.elapse dt;
  let e := u.gey i;
  i < 32 ∧ e.state = .free :=
  ⟨0, 31, rdy, by
    (try dsimp only [Runs, Ready, Moves]); and_intros <;> first | decide +kernel | exact fun _ => rfl | exact ok_of (by decide +kernel) | rfl⟩

theorem wit_GeyserRowsComplete_2 : ∃ (dt i : Nat) (s : State), let u := s.elapse dt;
  let e := u.gey i;
  e.state = .armed ∧ u.waiting i = false ∧ u.geyDue i e e.leadNs = true :=
  ⟨0, 255, { rdy with tnu := { rdy.tnu with gey := [(255, { state := .armed, inst := 50000 })] } }, by
    (try dsimp only [Runs, Ready, Moves]); and_intros <;> first | decide +kernel | exact fun _ => rfl | exact ok_of (by decide +kernel) | rfl⟩

theorem wit_GeyserRowsComplete_3 : ∃ (dt i : Nat) (s : State), let u := s.elapse dt;
  let e := u.gey i;
  e.state = .fetching :=
  ⟨0, 31, { rdy with tnu := { rdy.tnu with gey := [(31, { state := .fetching })] } }, by
    (try dsimp only [Runs, Ready, Moves]); and_intros <;> first | decide +kernel | exact fun _ => rfl | exact ok_of (by decide +kernel) | rfl⟩

theorem wit_GeyserRowsComplete_4 : ∃ (dt i : Nat) (s : State), let u := s.elapse dt;
  let e := u.gey i;
  ∃ st a n, u.geyDue i e (u.egAdv e) = true ∧ e.state = .ready ∧ u.geyFirst i = true ∧ (32 ≤ i ∨ bit e.flags 3 = false) ∧ e.fetchErr = some (st, a, n) :=
  ⟨0, 32, { rdy with tnu := { rdy.tnu with gey := [(32, { state := .ready, fetchErr := some (1, 0, 0) })] } }, 1, 0, 0, by
    (try dsimp only [Runs, Ready, Moves]); and_intros <;> first | decide +kernel | exact fun _ => rfl | exact ok_of (by decide +kernel) | rfl⟩

theorem wit_GeyserRowsComplete_5 : ∃ (dt i : Nat) (s : State), let u := s.elapse dt;
  let e := u.gey i;
  u.geyDue i e (u.egAdv e) = true ∧ e.state = .ready ∧ u.geyFirst i = true ∧ (32 ≤ i ∨ bit e.flags 3 = false) ∧ e.fetchErr = none ∧ e.plMark = false :=
  ⟨0, 32, { rdy with tnu := { rdy.tnu with gey := [(32, { state := .ready })] } }, by
    (try dsimp only [Runs, Ready, Moves]); and_intros <;> first | decide +kernel | exact fun _ => rfl | exact ok_of (by decide +kernel) | rfl⟩

theorem wit_GeyserRowsComplete_6 : ∃ (dt i : Nat) (s : State), let u := s.elapse dt;
  let e := u.gey i;
  ∃ st, u.geyDue i e (u.egAdv e) = true ∧ e.state = .ready ∧ u.geyFirst i = true ∧ (32 ≤ i ∨ bit e.flags 3 = false) ∧ e.fetchErr = none ∧ e.plMark = true ∧ ageCheck e (u.reg (.tnuTbJumpThr 0)).toNat u.now = some st :=
  ⟨0, 32, { rdy with tnu := { rdy.tnu with gey := [(32, { state := .ready, plMark := true, flags := 1 })] } }, 0x30, by
    (try dsimp only [Runs, Ready, Moves]); and_intros <;> first | decide +kernel | exact fun _ => rfl | exact ok_of (by decide +kernel) | rfl⟩

theorem wit_GeyserRowsComplete_7 : ∃ (dt i : Nat) (s : State), let u := s.elapse dt;
  let e := u.gey i;
  u.geyDue i e (u.egAdv e) = true ∧ e.state = .ready ∧ u.geyFirst i = true ∧ (32 ≤ i ∨ bit e.flags 3 = false) ∧ e.fetchErr = none ∧ e.plMark = true ∧ ageCheck e (u.reg (.tnuTbJumpThr 0)).toNat u.now = none ∧ u.portBusy e = true :=
  ⟨0, 32, { rdy with tnu := { rdy.tnu with gey := [(32, { state := .ready, plMark := true, kind := 1, index := 7 })], busy := [(1, 7, 0)] } }, by
    (try dsimp only [Runs, Ready, Moves]); and_intros <;> first | decide +kernel | exact fun _ => rfl | exact ok_of (by decide +kernel) | rfl⟩

theorem wit_GeyserRowsComplete_8 : ∃ (dt i : Nat) (s : State), let u := s.elapse dt;
  let e := u.gey i;
  u.geyDue i e (u.egAdv e) = true ∧ e.state = .ready ∧ u.geyFirst i = true ∧ (32 ≤ i ∨ bit e.flags 3 = false) ∧ e.fetchErr = none ∧ e.plMark = true ∧ ageCheck e (u.reg (.tnuTbJumpThr 0)).toNat u.now = none ∧ u.portBusy e = false :=
  ⟨0, 31, { rdy with tnu := { rdy.tnu with gey := [(31, { state := .ready, plMark := true, kind := 1, index := 7 })] } }, by
    (try dsimp only [Runs, Ready, Moves]); and_intros <;> first | decide +kernel | exact fun _ => rfl | exact ok_of (by decide +kernel) | rfl⟩

theorem wit_GeyserRowsComplete_9 : ∃ (dt i : Nat) (s : State), let u := s.elapse dt;
  let e := u.gey i;
  e.state = .held ∧ u.portBusy e = false ∧ u.geyFirst i = true ∧ 32 ≤ i ∧ e.fetchErr = none ∧ e.plMark = true ∧ ageCheck e (u.reg (.tnuTbJumpThr 0)).toNat u.now = none :=
  ⟨0, 32, { rdy with tnu := { rdy.tnu with gey := [(32, { state := .held, plMark := true, kind := 1, index := 7 })] } }, by
    (try dsimp only [Runs, Ready, Moves]); and_intros <;> first | decide +kernel | exact fun _ => rfl | exact ok_of (by decide +kernel) | rfl⟩

theorem wit_GeyserRowsComplete_10 : ∃ (dt i : Nat) (s : State), let u := s.elapse dt;
  let e := u.gey i;
  e.state = .launching :=
  ⟨0, 255, { rdy with tnu := { rdy.tnu with gey := [(255, { state := .launching })] } }, by
    (try dsimp only [Runs, Ready, Moves]); and_intros <;> first | decide +kernel | exact fun _ => rfl | exact ok_of (by decide +kernel) | rfl⟩

theorem wit_GeyserRowsComplete_11 : ∃ (dt i : Nat) (s : State), let u := s.elapse dt;
  let e := u.gey i;
  e.state = .launching ∧ e.kind = 2 :=
  ⟨0, 32, { rdy with tnu := { rdy.tnu with gey := [(32, { state := .launching, kind := 2 })] } }, by
    (try dsimp only [Runs, Ready, Moves]); and_intros <;> first | decide +kernel | exact fun _ => rfl | exact ok_of (by decide +kernel) | rfl⟩

theorem wit_GeyserRowsComplete_13 : ∃ (i : Nat), ∃ off, ∃ bytes : Bytes, i < 32 ∧ off ≤ 0x31 ∧ 0x31 < off + bytes.length ∧ off + bytes.length ≤ 64 :=
  ⟨31, 0x31, [1], by
    (try dsimp only [Runs, Ready, Moves]); and_intros <;> first | decide +kernel | exact fun _ => rfl | exact ok_of (by decide +kernel) | rfl⟩

theorem wit_GeyserRowsComplete_14 : ∃ (dt i : Nat) (s : State), let u := s.elapse dt;
  let e := u.gey i;
  u.geyDue i e (u.egAdv e) = true ∧ e.state = .ready ∧ u.geyFirst i = true ∧ i < 32 ∧ bit e.flags 3 = true :=
  ⟨0, 31, { rdy with tnu := { rdy.tnu with gey := [(31, { state := .ready, flags := 8 })] } }, by
    (try dsimp only [Runs, Ready, Moves]); and_intros <;> first | decide +kernel | exact fun _ => rfl | exact ok_of (by decide +kernel) | rfl⟩

theorem wit_GeyserRowsComplete_15 : ∃ (dt i : Nat) (s : State), let u := s.elapse dt;
  let e := u.gey i;
  u.geyDue i e (u.egAdv e) = true ∧ e.state = .cancelled ∧ e.fbDue = true ∧ e.fbHave = true :=
  ⟨0, 255, { rdy with tnu := { rdy.tnu with gey := [(255, { state := .cancelled, fbDue := true, fbHave := true })] } }, by
    (try dsimp only [Runs, Ready, Moves]); and_intros <;> first | decide +kernel | exact fun _ => rfl | exact ok_of (by decide +kernel) | rfl⟩

theorem wit_GeyserRowsComplete_16 : ∃ (dt i : Nat) (s : State), let u := s.elapse dt;
  let e := u.gey i;
  e.state = .held ∧ u.portBusy e = false ∧ u.geyFirst i = true :=
  ⟨0, 32, { rdy with tnu := { rdy.tnu with gey := [(32, { state := .held, plMark := true, kind := 1, index := 7 })] } }, by
    (try dsimp only [Runs, Ready, Moves]); and_intros <;> first | decide +kernel | exact fun _ => rfl | exact ok_of (by decide +kernel) | rfl⟩

theorem wit_GeyserRowsComplete_17 : ∃ (dt i : Nat) (s : State), let u := s.elapse dt;
  let e := u.gey i;
  e.state = .refused ∧ e.fbDue = true ∧ u.portBusy e = false :=
  ⟨0, 255, { rdy with tnu := { rdy.tnu with gey := [(255, { state := .refused, fbDue := true })] } }, by
    (try dsimp only [Runs, Ready, Moves]); and_intros <;> first | decide +kernel | exact fun _ => rfl | exact ok_of (by decide +kernel) | rfl⟩

theorem wit_GeyserRowsComplete_18 : ∃ (dt i : Nat) (s : State), let u := s.elapse dt;
  let e := u.gey i;
  e.state ≠ .launching :=
  ⟨0, 31, rdy, by
    (try dsimp only [Runs, Ready, Moves]); and_intros <;> first | decide +kernel | exact fun _ => rfl | exact ok_of (by decide +kernel) | rfl⟩

theorem wit_IntakeCommandsComplete_0 : ∃ (dt id : Nat) (s : State) (c : Cmd), let u := s.atRow dt id;
  let kind := c.p 0x20 1;
  let port := c.p 0x21 1;
  Runs s dt id 0x0301 c ∧ port < portCount kind ∧ portOk c = true ∧ u.portStreams kind port = [] :=
  ⟨0, 1, (run (cm 0x0301 0 [(0x20, 1, 1), (0x21, 1, 15), (0x23, 1, 4), (0x24, 2, 4500)]) rdy), (cm 0x0301 0 [(0x20, 1, 1), (0x21, 1, 15), (0x23, 1, 4), (0x24, 2, 4500)]), by
    (try dsimp only [Runs, Ready, Moves]); and_intros <;> first | decide +kernel | exact fun _ => rfl | exact ok_of (by decide +kernel) | rfl⟩

theorem wit_IntakeCommandsComplete_1 : ∃ (dt id : Nat) (s : State) (c : Cmd), let u := s.atRow dt id;
  let n := c.p 0x20 1;
  Runs s dt id 0x0302 c ∧ u.streamFieldsOk (cut c.params 0 48) = true ∧ u.foreignStream n c.part = false ∧ (c.p 0x39 1).testBit 1 = false ∧ u.strmOn n = false :=
  ⟨0, 1, (run (cm 0x0302 1 [(0x20, 1, 63), (0x21, 1, 3), (0x2c, 4, 20000), (0x37, 1, 2), (0x3a, 2, 1), (0x3d, 1, 1)]) rdy), (cm 0x0302 1 [(0x20, 1, 63), (0x21, 1, 3), (0x2c, 4, 20000), (0x37, 1, 2), (0x3a, 2, 1), (0x3d, 1, 1)]), by
    (try dsimp only [Runs, Ready, Moves]); and_intros <;> first | decide +kernel | exact fun _ => rfl | exact ok_of (by decide +kernel) | rfl⟩

theorem wit_IntakeCommandsComplete_2 : ∃ (dt id : Nat) (s : State) (c : Cmd), let u := s.atRow dt id;
  let n := c.p 0x20 1;
  Runs s dt id 0x0303 c ∧ e2eOk (cut c.params 0 16) (u.strmKind n) = true ∧ u.foreignStream n c.part = false ∧ u.strmOn n = false :=
  ⟨0, 1, (run (cm 0x0303 1 [(0x20, 1, 63)]) rdy), (cm 0x0303 1 [(0x20, 1, 63)]), by
    (try dsimp only [Runs, Ready, Moves]); and_intros <;> first | decide +kernel | exact fun _ => rfl | exact ok_of (by decide +kernel) | rfl⟩

theorem wit_IntakeCommandsComplete_3 : ∃ (dt id : Nat) (s : State) (c : Cmd), let u := s.atRow dt id;
  let n := c.p 0x20 1;
  Runs s dt id 0x0304 c ∧ n ≤ 63 ∧ u.strmKind n ≠ 0 ∧ u.foreignStream n c.part = false ∧ u.strmOn n = false ∧ u.profileRefuses n = false :=
  ⟨0, 1, (run (cm 0x0304 1 [(0x20, 1, 63)]) ((rdy.setReg (.siuStreamSrc 63) 0x03000000).setReg .siuCtl 1)), (cm 0x0304 1 [(0x20, 1, 63)]), by
    (try dsimp only [Runs, Ready, Moves]); and_intros <;> first | decide +kernel | exact fun _ => rfl | exact ok_of (by decide +kernel) | rfl⟩

theorem wit_IntakeCommandsComplete_4 : ∃ (dt id : Nat) (s : State) (c : Cmd), let u := s.atRow dt id;
  let n := c.p 0x20 1;
  Runs s dt id 0x0305 c ∧ n ≤ 63 ∧ u.foreignStream n c.part = false :=
  ⟨0, 1, (run (cm 0x0305 1 [(0x20, 1, 63)]) rdy), (cm 0x0305 1 [(0x20, 1, 63)]), by
    (try dsimp only [Runs, Ready, Moves]); and_intros <;> first | decide +kernel | exact fun _ => rfl | exact ok_of (by decide +kernel) | rfl⟩

theorem wit_IntakeCommandsComplete_5 : ∃ (dt id : Nat) (s : State) (c : Cmd), let u := s.atRow dt id;
  let n := c.p 0x20 1;
  Runs s dt id 0x0306 c ∧ n ≤ 63 ∧ u.foreignStream n c.part = false ∧ u.align n ≠ 0 :=
  ⟨0, 1, (run (cm 0x0306 1 [(0x20, 1, 63)]) (rdy.setReg (.siuStreamState 63) 1)), (cm 0x0306 1 [(0x20, 1, 63)]), by
    (try dsimp only [Runs, Ready, Moves]); and_intros <;> first | decide +kernel | exact fun _ => rfl | exact ok_of (by decide +kernel) | rfl⟩

theorem wit_IntakeCommandsComplete_6 : ∃ (dt id : Nat) (s : State) (c : Cmd), let u := s.atRow dt id;
  let n := c.p 0x20 1;
  Runs s dt id 0x0307 c ∧ n ≤ 1 ∧ (∀ m < 64, u.strmOn m = false) :=
  ⟨0, 1, (run (cm 0x0307 0 [(0x20, 1, 1)]) rdy), (cm 0x0307 0 [(0x20, 1, 1)]), by
    (try dsimp only [Runs, Ready, Moves]); and_intros <;> first | decide +kernel | exact fun _ => rfl | exact ok_of (by decide +kernel) | rfl⟩

theorem wit_IntakeCommandsComplete_7 : ∃ (dt id : Nat) (s : State) (c : Cmd), let u := s.atRow dt id;
  let n := c.p 0x20 1;
  Runs s dt id 0x0308 c ∧ n ≤ 63 ∧ u.foreignStream n c.part = false :=
  ⟨0, 1, (run (cm 0x0308 1 [(0x20, 1, 63)]) rdy), (cm 0x0308 1 [(0x20, 1, 63)]), by
    (try dsimp only [Runs, Ready, Moves]); and_intros <;> first | decide +kernel | exact fun _ => rfl | exact ok_of (by decide +kernel) | rfl⟩

theorem wit_IntakeCommandsComplete_8 : ∃ (dt id : Nat) (s : State) (c : Cmd), let u := s.atRow dt id;
  let n := c.p 0x20 1;
  Runs s dt id 0x0304 c ∧ n ≤ 63 ∧ u.strmKind n ≠ 0 ∧ u.foreignStream n c.part = false ∧ u.strmOn n = true :=
  ⟨0, 1, run (cm 0x0304 1 [(0x20, 1, 63)]) { (rdy.setReg (.siuStreamSrc 63) 0x02000000).setReg (.siuStreamCtl 63) 0x80000000 with siu := { rdy.siu with streams := [(63, { owner := some 1 })] } }, (cm 0x0304 1 [(0x20, 1, 63)]), by
    (try dsimp only [Runs, Ready, Moves]); and_intros <;> first | decide +kernel | exact fun _ => rfl | exact ok_of (by decide +kernel) | rfl⟩

theorem wit_IntakeRowsComplete_0 : ∃ k : SensorPacket, k.kind ≠ 2 ∧ k.phyErr = false ∧ k.eccFixed = false :=
  ⟨⟨1, 0, 0, .data, [], none, [], 0, false, false, false⟩, by
    (try dsimp only [Runs, Ready, Moves]); and_intros <;> first | decide +kernel | exact fun _ => rfl | exact ok_of (by decide +kernel) | rfl⟩

theorem wit_IntakeRowsComplete_1 : ∃ (dt : Nat) (s : State), let u := s.elapse dt;
  ∃ k : SensorPacket, ∃ n, ∃ b, k.kind = 2 ∧ u.route k = [(n, 3, false, b)] :=
  ⟨0, { ((rdy.setReg (.siuStreamSrc 63) 0x02000000).setReg (.siuStreamCtl 63) 0x80000000) with siu := { rdy.siu with streams := [(63, { owner := some 1 })] } }, ⟨2, 0, 0, .whole, [], some 0, [], 0, false, false, false⟩, 63, [], by
    (try dsimp only [Runs, Ready, Moves]); and_intros <;> first | decide +kernel | exact fun _ => rfl | exact ok_of (by decide +kernel) | rfl⟩

theorem wit_IntakeRowsComplete_2 : ∃ (dt : Nat) (s : State), let u := s.elapse dt;
  ∃ port n, ((u.portStreams 5 port).filter u.strmLive).head? = some n :=
  ⟨0, ((rdy.setReg (.siuStreamSrc 63) 0x05000000).setReg (.siuStreamCtl 63) 0x80000000), 0, 63, by
    (try dsimp only [Runs, Ready, Moves]); and_intros <;> first | decide +kernel | exact fun _ => rfl | exact ok_of (by decide +kernel) | rfl⟩

theorem wit_IntakeRowsComplete_3 : ∃ (dt : Nat) (s : State), let u := s.elapse dt;
  ∃ n, u.strmLive n = true ∧ bit (u.reg (.siuStreamState n)) 6 = false ∧ (u.strm n).lastStart + 4 * u.strmPeriod n ≤ u.ns :=
  ⟨0, ((rdy.setReg (.siuStreamSrc 63) 0x02000000).setReg (.siuStreamCtl 63) 0x80000000), 63, by
    (try dsimp only [Runs, Ready, Moves]); and_intros <;> first | decide +kernel | exact fun _ => rfl | exact ok_of (by decide +kernel) | rfl⟩

theorem wit_IntakeRowsComplete_4 : ∃ (dt : Nat) (s : State), let u := s.elapse dt;
  ∃ n p rest, (u.strm n).queue = p :: rest :=
  ⟨0, { rdy with siu := { rdy.siu with streams := [(63, { queue := [⟨0, 0, 0, 0, 0, 0, 0, [], false⟩] })] } }, 63, ⟨0, 0, 0, 0, 0, 0, 0, [], false⟩, [], by
    (try dsimp only [Runs, Ready, Moves]); and_intros <;> first | decide +kernel | exact fun _ => rfl | exact ok_of (by decide +kernel) | rfl⟩

theorem wit_IntakeRowsComplete_5 : ∃ (dt : Nat) (s : State), let u := s.elapse dt;
  ∃ n p rest, n < 64 ∧ (u.strm n).queue = p :: rest :=
  ⟨0, { rdy with siu := { rdy.siu with streams := [(63, { queue := [⟨0, 0, 0, 0, 0, 0, 0, [], false⟩] })] } }, 63, ⟨0, 0, 0, 0, 0, 0, 0, [], false⟩, [], by
    (try dsimp only [Runs, Ready, Moves]); and_intros <;> first | decide +kernel | exact fun _ => rfl | exact ok_of (by decide +kernel) | rfl⟩

theorem wit_IntakeRowsComplete_6 : ∃ (dt : Nat) (s : State), let u := s.elapse dt;
  ∃ n, n < 64 ∧ (u.strm n).queue = [] :=
  ⟨0, rdy, 63, by
    (try dsimp only [Runs, Ready, Moves]); and_intros <;> first | decide +kernel | exact fun _ => rfl | exact ok_of (by decide +kernel) | rfl⟩

theorem wit_IntakeRowsComplete_7 : ∃ (dt : Nat) (s : State), let u := s.elapse dt;
  ∃ k : Nat, ∃ t : Tap, ∃ p : Pkt, ∃ rest, u.ssi.rfx.taps[k]? = some t ∧ (u.strm t.stream).tapQ = p :: rest ∧ 32 + p.payload.length ≤ t.slotBytes :=
  ⟨0, { rdy with siu := { rdy.siu with streams := [(63, { tapQ := [⟨0, 0, 0, 0, 0, 0, 0, [], false⟩] })] }, ssi := { rdy.ssi with rfx := { taps := [⟨63, 2, 32, 0, 0, 0⟩] } } }, 0, ⟨63, 2, 32, 0, 0, 0⟩, ⟨0, 0, 0, 0, 0, 0, 0, [], false⟩, [], by
    (try dsimp only [Runs, Ready, Moves]); and_intros <;> first | decide +kernel | exact fun _ => rfl | exact ok_of (by decide +kernel) | rfl⟩

theorem wit_IntakeRowsComplete_8 : ∃ n, n < 64 :=
  ⟨63, by
    (try dsimp only [Runs, Ready, Moves]); and_intros <;> first | decide +kernel | exact fun _ => rfl | exact ok_of (by decide +kernel) | rfl⟩

theorem wit_IntakeRowsComplete_9 : ∃ (dt : Nat) (s : State), let u := s.elapse dt;
  ∃ n, ∃ ptr : QPtr, n < 64 ∧ ptr ≠ .tap ∧ u.ring? n = none ∧ u.ccx.cmds = [] ∧ u.ssi.policy.qResetMax = 0 :=
  ⟨0, { rdy with ssi := { rdy.ssi with policy := { rdy.ssi.policy with qResetMax := 0 } } }, 63, .write, by
    (try dsimp only [Runs, Ready, Moves]); and_intros <;> first | decide +kernel | exact fun _ => rfl | exact ok_of (by decide +kernel) | rfl⟩

theorem wit_IntakeRowsComplete_11 : ∃ (dt : Nat) (s : State), let u := s.elapse dt;
  ∃ k : Nat, ∃ t : Tap, ∃ p : Pkt, ∃ rest, u.ssi.rfx.taps[k]? = some t ∧ (u.strm t.stream).tapQ = p :: rest ∧ t.slotBytes < 32 + p.payload.length :=
  ⟨0, { rdy with siu := { rdy.siu with streams := [(63, { tapQ := [⟨0, 0, 0, 0, 0, 0, 0, [1], false⟩] })] }, ssi := { rdy.ssi with rfx := { taps := [⟨63, 2, 32, 0, 0, 0⟩] } } }, 0, ⟨63, 2, 32, 0, 0, 0⟩, ⟨0, 0, 0, 0, 0, 0, 0, [1], false⟩, [], by
    (try dsimp only [Runs, Ready, Moves]); and_intros <;> first | decide +kernel | exact fun _ => rfl | exact ok_of (by decide +kernel) | rfl⟩

theorem wit_IntakeRowsComplete_12 : ∃ (dt : Nat) (s : State), let u := s.elapse dt;
  ∃ n ptr, let v := (u.ringCut n).queueReset n ptr;
  let w := v.ccx.cmds.foldl (fun (s : State) c =>
      if c.code = 0x0708 ∧ c.p 0x20 1 = n ∧ c.state = .running ∧ c.verdict = none then s.failCmd c.id 0x52 else s) v;
  let l := (w.strm n).resets.filter fun t => decide (w.now < t + 10000000000);
  let max := u.ssi.policy.qResetMax;
  n < 64 ∧ ptr ≠ .tap ∧ (u.configured = false ∨ max = 0 ∨ l.length ≤ max ∨ w.strmPart n = 0) :=
  ⟨0, { rdy with ssi := { rdy.ssi with policy := { rdy.ssi.policy with qResetMax := 0 } } }, 63, .write, by
    (try dsimp only [Runs, Ready, Moves]); and_intros <;> first | decide +kernel | exact fun _ => rfl | exact ok_of (by decide +kernel) | rfl⟩

theorem wit_IntakeRowsComplete_13 : ∃ (dt : Nat) (s : State), let u := s.elapse dt;
  ∃ n, ∃ ptr : QPtr, let v := (u.ringCut n).queueReset n ptr;
  let w := v.ccx.cmds.foldl (fun (s : State) c =>
      if c.code = 0x0708 ∧ c.p 0x20 1 = n ∧ c.state = .running ∧ c.verdict = none then s.failCmd c.id 0x52 else s) v;
  let l := (w.strm n).resets.filter fun t => decide (w.now < t + 10000000000);
  let max := u.ssi.policy.qResetMax;
  n < 64 ∧ ptr ≠ .tap ∧ u.configured = true ∧ max ≠ 0 ∧ max < l.length ∧ w.strmPart n ≠ 0 :=
  ⟨0, { safe with siu := { safe.siu with streams := [(63, { owner := some 1, resets := [0] })] }, ssi := { safe.ssi with policy := { safe.ssi.policy with qResetMax := 1 } } }, 63, .write, by
    (try dsimp only [Runs, Ready, Moves]); and_intros <;> first | decide +kernel | exact fun _ => rfl | exact ok_of (by decide +kernel) | rfl⟩

theorem wit_AlignmentCommandsComplete_0 : ∃ (dt id : Nat) (s : State) (c : Cmd), let u := s.atRow dt id;
  let j := c.p 0x20 1;
  let fl := c.p 0x21 1;
  let slots := c.p 0x22 2;
  let per := c.p 0x24 4;
  let first := c.p 0x28 8;
  let ring := c.p 0x40 8;
  let hor := c.p 0x48 4;
  let lim := if c.p 0x34 4 = 0 then 4 * per else c.p 0x34 4;
  let win := c.p 0x4C 4;
  Runs s dt id 0x0401 c ∧ j ≤ 3 ∧ fl ≤ 3 ∧ 4 ≤ slots ∧ slots ≤ 1024 ∧ 5000000 ≤ per ∧ per ≤ 100000000 ∧ c.accept + 1000000 ≤ first ∧ 1000000 ≤ lim ∧ lim ≤ 1000000000 ∧ hor ≤ 2000000000 ∧ 1000000 ≤ win ∧ win ≤ 4000000000 ∧ u.schedOn j = false ∧ ring % 0x8000 = 0 ∧ u.writeRange c.part ring (slots * 0x8000) = true ∧ (∀ n ∈ bitsOf 64 (c.p 0x38 8), u.foreignStream n c.part = false ∨ u.strmPart n = 0) ∧ (∀ n ∈ bitsOf 64 (c.p 0x38 8), ∃ r, u.role n = some r ∧ (r.sel = 1 ∨ u.chn.egoCfg.imu ≠ 255 ∨ fl.testBit 1 = true)) ∧ hor + lim ≤ u.egoSpan :=
  ⟨0, 1, (run (cm 0x0401 1 [(0x20, 1, 3), (0x21, 1, 3), (0x22, 2, 4), (0x24, 4, 5000000), (0x28, 8, 1000000), (0x34, 4, 1000000), (0x4c, 4, 1000000)]) rdy), (cm 0x0401 1 [(0x20, 1, 3), (0x21, 1, 3), (0x22, 2, 4), (0x24, 4, 5000000), (0x28, 8, 1000000), (0x34, 4, 1000000), (0x4c, 4, 1000000)]), by
    (try dsimp only [Runs, Ready, Moves]); and_intros <;> first | decide +kernel | exact fun _ => rfl | exact ok_of (by decide +kernel) | rfl⟩

theorem wit_AlignmentCommandsComplete_1 : ∃ (dt id : Nat) (s : State) (c : Cmd), let u := s.atRow dt id;
  let j := c.p 0x20 1;
  Runs s dt id 0x0402 c ∧ j ≤ 3 ∧ c.p 0x21 1 = 0 ∧ u.schedOn j = true ∧ u.ownsSched j c.part = true ∧ (u.sched j).closing = none :=
  ⟨0, 1, (run (cm 0x0402 1 [(0x20, 1, 3)]) (rdy.setReg (.chnSchedCtl 3) 0x84000000)), (cm 0x0402 1 [(0x20, 1, 3)]), by
    (try dsimp only [Runs, Ready, Moves]); and_intros <;> first | decide +kernel | exact fun _ => rfl | exact ok_of (by decide +kernel) | rfl⟩

theorem wit_AlignmentCommandsComplete_2 : ∃ (dt id : Nat) (s : State) (c : Cmd), let u := s.atRow dt id;
  let j := c.p 0x20 1;
  Runs s dt id 0x0402 c ∧ j ≤ 3 ∧ c.p 0x21 1 = 1 ∧ u.schedOn j = true ∧ u.ownsSched j c.part = true ∧ (u.sched j).closing = none :=
  ⟨0, 1, (run (cm 0x0402 1 [(0x20, 1, 3), (0x21, 1, 1)]) (rdy.setReg (.chnSchedCtl 3) 0x84000000)), (cm 0x0402 1 [(0x20, 1, 3), (0x21, 1, 1)]), by
    (try dsimp only [Runs, Ready, Moves]); and_intros <;> first | decide +kernel | exact fun _ => rfl | exact ok_of (by decide +kernel) | rfl⟩

theorem wit_AlignmentCommandsComplete_3 : ∃ (dt id : Nat) (s : State) (c : Cmd), let u := s.atRow dt id;
  let n := c.p 0x20 1;
  let sel := c.p 0x21 1;
  let x := c.p 0x22 1;
  let w := c.p 0x24 4;
  Runs s dt id 0x0403 c ∧ n ≤ 63 ∧ sel ≤ 2 ∧ (x ≤ 127 ∨ (x = 0xFF ∧ sel = 1)) ∧ (sel = 2 → w = 0 ∨ (1000000 ≤ w ∧ w ≤ 1000000000)) ∧ u.mmvQueue n = (sel == 0) ∧ (u.foreignStream n c.part = false ∨ u.strmPart n = 0) ∧ u.masking n = [] :=
  ⟨0, 1, (run (cm 0x0403 1 [(0x20, 1, 63), (0x21, 1, 1), (0x22, 1, 255)]) rdy), (cm 0x0403 1 [(0x20, 1, 63), (0x21, 1, 1), (0x22, 1, 255)]), by
    (try dsimp only [Runs, Ready, Moves]); and_intros <;> first | decide +kernel | exact fun _ => rfl | exact ok_of (by decide +kernel) | rfl⟩

theorem wit_AlignmentCommandsComplete_4 : ∃ (dt id : Nat) (s : State) (c : Cmd), let u := s.atRow dt id;
  let k := egoParse c;
  Runs s dt id 0x0404 c ∧ egoFieldsOk c = true ∧ (∀ n ∈ (if k.imu = 255 then [] else [k.imu]) ++ (if k.src = 0 then [k.wheelL, k.wheelR] else []), u.foreignStream n c.part = false ∨ u.strmPart n = 0) ∧ (∀ i < 4, u.schedOn i = false) :=
  ⟨0, 1, (run (cm 0x0404 1 [(0x20, 1, 255), (0x23, 1, 2), (0x34, 2, 100)]) rdy), (cm 0x0404 1 [(0x20, 1, 255), (0x23, 1, 2), (0x34, 2, 100)]), by
    (try dsimp only [Runs, Ready, Moves]); and_intros <;> first | decide +kernel | exact fun _ => rfl | exact ok_of (by decide +kernel) | rfl⟩

theorem wit_AlignmentCommandsComplete_5 : ∃ (dt id : Nat) (s : State) (c : Cmd), let u := s.atRow dt id;
  let i := c.p 0x20 1;
  let b := cut c.params 8 60;
  let e := sget {} u.chn.xforms i;
  let par := numAt b 0x3A 1;
  let rot : M3 := ⟨V3.at b 0, V3.at b 12, V3.at b 24⟩;
  let eff := numAt b 0x30 8;
  Runs s dt id 0x0405 c ∧ i ≤ 127 ∧ (par ≤ 127 ∨ par = 0xFF) ∧ (e.owner = none ∨ e.owner = some c.part) ∧ finiteAt b 0 12 = true ∧ rot.orthonormal = true ∧ u.afterClosed eff = true ∧ (∀ w, e.vers.head? = some w → w.effective < eff) :=
  ⟨0, 1, (run (cm 0x0405 1 [(0x20, 1, 127), (0x28, 4, 0x3F800000), (0x38, 4, 0x3F800000), (0x48, 4, 0x3F800000), (0x62, 1, 255)]) rdy), (cm 0x0405 1 [(0x20, 1, 127), (0x28, 4, 0x3F800000), (0x38, 4, 0x3F800000), (0x48, 4, 0x3F800000), (0x62, 1, 255)]), by
    (try dsimp only [Runs, Ready, Moves]); and_intros <;> first | decide +kernel | exact fun _ => rfl | exact ok_of (by decide +kernel) | rfl⟩

theorem wit_AlignmentCommandsComplete_6 : ∃ (dt id : Nat) (s : State) (c : Cmd), let u := s.atRow dt id;
  let j := c.p 0x20 1;
  Runs s dt id 0x0406 c ∧ j ≤ 3 ∧ u.ownsSched j c.part = true :=
  ⟨0, 1, (run (cm 0x0406 1 [(0x20, 1, 3)]) (rdy.setReg (.chnSchedCtl 3) 0x84000000)), (cm 0x0406 1 [(0x20, 1, 3)]), by
    (try dsimp only [Runs, Ready, Moves]); and_intros <;> first | decide +kernel | exact fun _ => rfl | exact ok_of (by decide +kernel) | rfl⟩

theorem wit_InstantRowsComplete_0 : ∃ (dt : Nat) (s : State), let u := s.elapse dt;
  u.chn.egoCfg.src ≠ 1 :=
  ⟨0, rdy, by
    (try dsimp only [Runs, Ready, Moves]); and_intros <;> first | decide +kernel | exact fun _ => rfl | exact ok_of (by decide +kernel) | rfl⟩

theorem wit_InstantRowsComplete_1 : ∃ (dt : Nat) (s : State), let u := s.elapse dt;
  u.chn.egoSet = true ∧ u.egoValid = true ∧ u.egoGood = false :=
  ⟨0, { (rdy.setReg .chnEgoStat 1) with chn := { rdy.chn with egoSet := true, egoCfg := { imu := 0 } } }, by
    (try dsimp only [Runs, Ready, Moves]); and_intros <;> first | decide +kernel | exact fun _ => rfl | exact ok_of (by decide +kernel) | rfl⟩

theorem wit_InstantRowsComplete_2 : ∃ (dt j : Nat) (s : State), let u := s.elapse dt;
  let c := u.sched j;
  let v := u.modSched j fun x => { x with kNext := c.kNext + 1 };
  let all := (List.range 4).foldl (fun n i => n + ((v.sched i).insts.filter Inst.inFlight).length) 0;
  j < 4 ∧ u.schedOn j = true ∧ u.schedRuns j = true ∧ c.closing = none ∧ c.halted = false ∧ c.has c.kNext = true ∧ u.instantAt j c.kNext ≤ u.now ∧ u.funcOff 2 0 = false ∧ (c.insts.filter Inst.inFlight).length < 8 ∧ all < 32 :=
  ⟨0, 3, { (rdy.setReg (.chnSchedCtl 3) 0x84000000) with chn := { rdy.chn with scheds := [(3, {})] } }, by
    (try dsimp only [Runs, Ready, Moves]); and_intros <;> first | decide +kernel | exact fun _ => rfl | exact ok_of (by decide +kernel) | rfl⟩

theorem wit_InstantRowsComplete_3 : ∃ (dt j : Nat) (s : State), let u := s.elapse dt;
  let c := u.sched j;
  let v := u.modSched j fun x => { x with kNext := c.kNext + 1 };
  let all := (List.range 4).foldl (fun n i => n + ((v.sched i).insts.filter Inst.inFlight).length) 0;
  j < 4 ∧ u.schedOn j = true ∧ u.schedRuns j = true ∧ c.closing = none ∧ c.halted = false ∧ c.has c.kNext = true ∧ u.instantAt j c.kNext ≤ u.now ∧ u.funcOff 2 0 = false ∧ (8 ≤ (c.insts.filter Inst.inFlight).length ∨ 32 ≤ all) :=
  ⟨0, 3, { (rdy.setReg (.chnSchedCtl 3) 0x84000000) with chn := { rdy.chn with scheds := [(3, { insts := List.replicate 8 { k := 0, t := 0 } })] } }, by
    (try dsimp only [Runs, Ready, Moves]); and_intros <;> first | decide +kernel | exact fun _ => rfl | exact ok_of (by decide +kernel) | rfl⟩

theorem wit_InstantRowsComplete_4 : ∃ (dt j : Nat) (s : State), let u := s.elapse dt;
  let c := u.sched j;
  j < 4 ∧ u.schedOn j = true ∧ u.schedRuns j = true ∧ c.closing = none ∧ c.halted = false ∧ c.has c.kNext = true ∧ u.instantAt j c.kNext ≤ u.now ∧ u.funcOff 2 0 = true :=
  ⟨0, 3, { (rdy.setReg (.chnSchedCtl 3) 0x84000000) with chn := { rdy.chn with scheds := [(3, {})] }, ccx := { rdy.ccx with funcs := [⟨2, 0, true, 0, [], [], 0, 0, true, []⟩] } }, by
    (try dsimp only [Runs, Ready, Moves]); and_intros <;> first | decide +kernel | exact fun _ => rfl | exact ok_of (by decide +kernel) | rfl⟩

theorem wit_InstantRowsComplete_5 : ∃ (dt j : Nat) (s : State), let u := s.elapse dt;
  let c := u.sched j;
  ∃ i, u.schedRuns j = true ∧ c.firstOpen = some i ∧ u.undecided j i.t = [] ∧ u.now < i.t + c.limit :=
  ⟨0, 3, { rdy with chn := { rdy.chn with scheds := [(3, { insts := [{ k := 0, t := 0 }], limit := 1 })] } }, { k := 0, t := 0 }, by
    (try dsimp only [Runs, Ready, Moves]); and_intros <;> first | decide +kernel | exact fun _ => rfl | exact ok_of (by decide +kernel) | rfl⟩

theorem wit_InstantRowsComplete_6 : ∃ (dt j : Nat) (s : State), let u := s.elapse dt;
  let c := u.sched j;
  ∃ i, u.schedRuns j = true ∧ c.firstOpen = some i ∧ i.t + c.limit ≤ u.now :=
  ⟨0, 3, { rdy with chn := { rdy.chn with scheds := [(3, { insts := [{ k := 0, t := 0 }] })] } }, { k := 0, t := 0 }, by
    (try dsimp only [Runs, Ready, Moves]); and_intros <;> first | decide +kernel | exact fun _ => rfl | exact ok_of (by decide +kernel) | rfl⟩

theorem wit_InstantRowsComplete_7 : ∃ (dt j : Nat) (s : State), let u := s.elapse dt;
  ∃ i k, u.inst? j k = some i ∧ i.state = .building ∧ u.voxelised j = false ∧ i.noMagic = false ∧ u.schedRuns j = true ∧ bit (u.reg (.chnSchedCtl j)) 30 = false :=
  ⟨0, 3, { rdy with chn := { rdy.chn with scheds := [(3, { insts := [{ k := 0, t := 0, state := .building }] })] } }, { k := 0, t := 0, state := .building }, 0, by
    (try dsimp only [Runs, Ready, Moves]); and_intros <;> first | decide +kernel | exact fun _ => rfl | exact ok_of (by decide +kernel) | rfl⟩

theorem wit_InstantRowsComplete_8 : ∃ (dt j : Nat) (s : State), let u := s.elapse dt;
  let c := u.sched j;
  ∃ i k, u.inst? j k = some i ∧ i.state = .published ∧ i.t + c.horizon ≤ u.now :=
  ⟨0, 3, { rdy with chn := { rdy.chn with scheds := [(3, { insts := [{ k := 0, t := 0, state := .published }] })] } }, { k := 0, t := 0, state := .published }, 0, by
    (try dsimp only [Runs, Ready, Moves]); and_intros <;> first | decide +kernel | exact fun _ => rfl | exact ok_of (by decide +kernel) | rfl⟩

theorem wit_InstantRowsComplete_9 : ∃ (dt j : Nat) (s : State), let u := s.elapse dt;
  ∃ i k m, u.inst? j k = some i ∧ i.state = .published ∧ i.revAfter = some m ∧ u.inst? j m = none ∧ u.schedRuns j = true ∧ i.rev = 3 :=
  ⟨0, 3, { rdy with chn := { rdy.chn with scheds := [(3, { insts := [{ k := 0, t := 0, state := .published, revAfter := some 1, rev := 3 }] })] } }, { k := 0, t := 0, state := .published, revAfter := some 1, rev := 3 }, 0, 1, by
    (try dsimp only [Runs, Ready, Moves]); and_intros <;> first | decide +kernel | exact fun _ => rfl | exact ok_of (by decide +kernel) | rfl⟩

theorem wit_InstantRowsComplete_10 : ∃ (dt j : Nat) (s : State), let u := s.elapse dt;
  ∃ i k m, u.inst? j k = some i ∧ i.state = .published ∧ i.revAfter = some m ∧ (∀ x, u.inst? j m = some x → x.state ≠ .building ∧ x.state ≠ .opened) ∧ u.schedRuns j = true ∧ (i.rev = 3 ∨ i.revSel = none) :=
  ⟨0, 3, { rdy with chn := { rdy.chn with scheds := [(3, { insts := [{ k := 0, t := 0, state := .published, revAfter := some 1, rev := 3 }] })] } }, { k := 0, t := 0, state := .published, revAfter := some 1, rev := 3 }, 0, 1, by
    (try dsimp only [Runs, Ready, Moves]); and_intros <;> first | decide +kernel | exact fun _ => rfl | exact ok_of (by decide +kernel) | rfl⟩

theorem wit_InstantRowsComplete_11 : ∃ (dt j : Nat) (s : State), let u := s.elapse dt;
  ∃ i k m, ∃ y, let r := u.buildRevision j i y;
  let seq := (r.2.reg (.chnSchedSeq j)).toNat;
  let x : Inst := { r.1 with rev := i.rev + 1, seq := i.seq, late := false, revAfter := none, revSel := none, state := .published };
  u.inst? j k = some i ∧ i.state = .published ∧ i.revAfter = some m ∧ (∀ x, u.inst? j m = some x → x.state ≠ .building ∧ x.state ≠ .opened) ∧ u.schedRuns j = true ∧ i.rev ≠ 3 ∧ i.revSel = some y ∧ u.runWaits j = false :=
  ⟨0, 3, { (rdy.setReg (.chnSchedCtl 3) 0x84000000) with chn := { rdy.chn with scheds := [(3, { insts := [{ k := 1, t := 0, state := .published, revAfter := some 2, revSel := some {} }] })] } }, { k := 1, t := 0, state := .published, revAfter := some 2, revSel := some {} }, 1, 2, {}, by
    (try dsimp only [Runs, Ready, Moves]); and_intros <;> first | decide +kernel | exact fun _ => rfl | exact ok_of (by decide +kernel) | rfl⟩

theorem wit_InstantRowsComplete_12 : ∃ who : Writer, extWriter who = true :=
  ⟨.p0, by
    (try dsimp only [Runs, Ready, Moves]); and_intros <;> first | decide +kernel | exact fun _ => rfl | exact ok_of (by decide +kernel) | rfl⟩

theorem wit_InstantRowsComplete_13 : ∃ (dt j : Nat) (s : State), let u := s.elapse dt;
  let c := u.sched j;
  ∃ i, u.schedRuns j = false ∧ c.firstOpen = some i ∧ u.undecided j i.t = [] ∧ u.now < i.t + c.limit :=
  ⟨0, 3, { (rdy.setReg (.chnSchedCtl 3) 0x88000000) with chn := { rdy.chn with scheds := [(3, { insts := [{ k := 0, t := 0 }], limit := 1 })] } }, { k := 0, t := 0 }, by
    (try dsimp only [Runs, Ready, Moves]); and_intros <;> first | decide +kernel | exact fun _ => rfl | exact ok_of (by decide +kernel) | rfl⟩

theorem wit_InstantRowsComplete_14 : ∃ (dt j : Nat) (s : State), let u := s.elapse dt;
  let c := u.sched j;
  ∃ i, u.schedRuns j = false ∧ c.firstOpen = some i ∧ i.t + c.limit ≤ u.now :=
  ⟨0, 3, { (rdy.setReg (.chnSchedCtl 3) 0x88000000) with chn := { rdy.chn with scheds := [(3, { insts := [{ k := 0, t := 0 }] })] } }, { k := 0, t := 0 }, by
    (try dsimp only [Runs, Ready, Moves]); and_intros <;> first | decide +kernel | exact fun _ => rfl | exact ok_of (by decide +kernel) | rfl⟩

theorem wit_InstantRowsComplete_15 : ∃ (dt j : Nat) (s : State), let u := s.elapse dt;
  ∃ i k, let x := if u.voxelised j = true ∧ i.built.isNone = true then i.noPoints else i;
  u.inst? j k = some i ∧ i.state = .building ∧ u.waitsPoints j i = false ∧ x.noMagic = false ∧ u.schedRuns j = true :=
  ⟨0, 3, { rdy with chn := { rdy.chn with scheds := [(3, { insts := [{ k := 0, t := 0, state := .building }] })] } }, { k := 0, t := 0, state := .building }, 0, by
    (try dsimp only [Runs, Ready, Moves]); and_intros <;> first | decide +kernel | exact fun _ => rfl | exact ok_of (by decide +kernel) | rfl⟩

theorem wit_InstantRowsComplete_16 : ∃ (dt j : Nat) (s : State), let u := s.elapse dt;
  ∃ i k, let x := if u.voxelised j = true ∧ i.built.isNone = true then i.noPoints else i;
  u.inst? j k = some i ∧ i.state = .building ∧ u.waitsPoints j i = false ∧ (x.noMagic = true ∨ u.schedRuns j = false) :=
  ⟨0, 3, { rdy with chn := { rdy.chn with scheds := [(3, { insts := [{ k := 0, t := 0, state := .building, noMagic := true }] })] } }, { k := 0, t := 0, state := .building, noMagic := true }, 0, by
    (try dsimp only [Runs, Ready, Moves]); and_intros <;> first | decide +kernel | exact fun _ => rfl | exact ok_of (by decide +kernel) | rfl⟩

theorem wit_PointCommandsComplete_0 : ∃ (dt id : Nat) (s : State) (c : Cmd), let u := s.atRow dt id;
  let n := c.p 0x20 1;
  let f : PointFmt := { coord := c.p 0x21 1, int_ := c.p 0x22 1, time := c.p 0x23 1, stride := c.p 0x24 2, skip := c.p 0x26 2, xo := c.p 0x28 1, yo := c.p 0x29 1, zo := c.p 0x2A 1, io := c.p 0x2B 1, tof := c.p 0x2C 1, scale := f32Rat (f32At c.params 0x10), unit := c.p 0x34 4, minRange := f32Rat (f32At c.params 0x18) };
  let w := if f.coord = 1 then 2 else 4;
  Runs s dt id 0x0410 c ∧ n ≤ 63 ∧ f.coord ≤ 2 ∧ f.int_ ≤ 2 ∧ f.time ≤ 3 ∧ 8 ≤ f.stride ∧ f.stride ≤ 64 ∧ f.skip ≤ 1024 ∧ f.xo + w ≤ f.stride ∧ f.yo + w ≤ f.stride ∧ f.zo + w ≤ f.stride ∧ (f.int_ ≠ 0 → f.io + f.int_ ≤ f.stride) ∧ (f.time ≠ 0 → f.tof + (if f.time = 3 then 2 else 4) ≤ f.stride) ∧ finiteAt c.params 0x18 1 = true ∧ inF32 (f32At c.params 0x10) (1 / 1000000) 1 = true ∧ 1 ≤ f.unit ∧ f.unit ≤ 1000000 ∧ 0 ≤ f.minRange ∧ f.minRange ≤ 10 ∧ u.foreignStream n c.part = false ∧ u.masking n = [] :=
  ⟨0, 1, run (cm 0x0410 1 [(0x20, 1, 63), (0x24, 2, 12), (0x26, 2, 1024), (0x29, 1, 4), (0x2a, 1, 8), (0x30, 4, 0x3F800000), (0x34, 4, 1), (0x38, 4, 0x41200000)]) rdy, (cm 0x0410 1 [(0x20, 1, 63), (0x24, 2, 12), (0x26, 2, 1024), (0x29, 1, 4), (0x2a, 1, 8), (0x30, 4, 0x3F800000), (0x34, 4, 1), (0x38, 4, 0x41200000)]), by
    (try dsimp only [Runs, Ready, Moves]); and_intros <;> first | decide +kernel | exact fun _ => rfl | exact ok_of (by decide +kernel) | rfl⟩

theorem wit_PointCommandsComplete_1 : ∃ (dt id : Nat) (s : State) (c : Cmd), let u := s.atRow dt id;
  let j := c.p 0x20 1;
  let n := c.p 0x21 1;
  let slots := c.p 0x22 1;
  let edge := f32Rat (f32At c.params 4);
  let lo := V3.at c.params 8;
  let hi := V3.at c.params 0x14;
  let sites := c.p 0x40 4;
  let addr := c.p 0x48 8;
  let sb := c.p 0x50 4;
  let b := if n = 0 then [] else u.tableAt c (c.p 0x58 8) (32 * n);
  let specs := (List.range n).map fun i => RbSpec.mk (numAt b (32 * i) 1) (numAt b (32 * i + 1) 1) (numAt b (32 * i + 2) 1) (numAt b (32 * i + 3) 1);
  Runs s dt id 0x0411 c ∧ j ≤ 3 ∧ n ≤ 16 ∧ slots ≤ 4 ∧ finiteAt c.params 4 7 = true ∧ inF32 (f32At c.params 4) (1 / 50) 2 = true ∧ lo.x < hi.x ∧ lo.y < hi.y ∧ lo.z < hi.z ∧ hi.x - lo.x ≤ 65535 * edge ∧ hi.y - lo.y ≤ 65535 * edge ∧ hi.z - lo.z ≤ 65535 * edge ∧ 4096 ≤ sites ∧ sites ≤ 524288 ∧ 1000000 ≤ c.p 0x44 4 ∧ c.p 0x44 4 ≤ 1000000000 ∧ sb % 65536 = 0 ∧ 1024 + 72 * sites ≤ sb ∧ 1 ≤ c.p 0x54 1 ∧ c.p 0x54 1 ≤ 8 ∧ addr % 65536 = 0 ∧ u.ownsSched j c.part = true ∧ u.schedOn j = false ∧ (slots ≠ 0 → inside addr (slots * sb) stagingBase stagingSize = true ∧ u.writeRange c.part addr (slots * sb) = true) ∧ (n ≠ 0 → u.tableErr c.tableReq (c.p 0x58 8) (32 * n) = none) ∧ specsOk specs = true :=
  ⟨0, 1, run (cm 0x0411 1 [(0x20, 1, 3), (0x24, 4, 0x40000000), (0x34, 4, 0x3F800000), (0x38, 4, 0x3F800000), (0x3c, 4, 0x3F800000), (0x40, 4, 4096), (0x44, 4, 1000000), (0x50, 4, 327680), (0x54, 1, 8)]) rdy, (cm 0x0411 1 [(0x20, 1, 3), (0x24, 4, 0x40000000), (0x34, 4, 0x3F800000), (0x38, 4, 0x3F800000), (0x3c, 4, 0x3F800000), (0x40, 4, 4096), (0x44, 4, 1000000), (0x50, 4, 327680), (0x54, 1, 8)]), by
    (try dsimp only [Runs, Ready, Moves]); and_intros <;> first | decide +kernel | exact fun _ => rfl | exact ok_of (by decide +kernel) | rfl⟩

theorem wit_PointCommandsComplete_2 : ∃ (dt id : Nat) (s : State) (c : Cmd), let u := s.atRow dt id;
  let j := c.p 0x20 1;
  Runs s dt id 0x0412 c ∧ (j = 0xFF ∨ j ≤ 3) ∧ 4 ≤ c.p 0x21 1 ∧ c.p 0x21 1 ≤ 16 ∧ 1 ≤ c.p 0x22 1 ∧ finiteAt c.params 4 4 = true ∧ inF32 (f32At c.params 4) (1 / 20) 4 = true ∧ u.ownsOct c.part = true ∧ (j = 0xFF ∨ u.ownsSched j c.part = true) :=
  ⟨0, 1, (run (cm 0x0412 1 [(0x20, 1, 3), (0x21, 1, 16), (0x22, 1, 1), (0x24, 4, 0x40800000)]) (rdy.setReg (.chnSchedCtl 3) 0x84000000)), (cm 0x0412 1 [(0x20, 1, 3), (0x21, 1, 16), (0x22, 1, 1), (0x24, 4, 0x40800000)]), by
    (try dsimp only [Runs, Ready, Moves]); and_intros <;> first | decide +kernel | exact fun _ => rfl | exact ok_of (by decide +kernel) | rfl⟩

theorem wit_PointCommandsComplete_3 : ∃ (dt id : Nat) (s : State) (c : Cmd), let u := s.atRow dt id;
  ∃ k, Runs s dt id 0x0413 c ∧ u.chn.oct.sched = some k ∧ u.ownsOct c.part = true :=
  ⟨0, 1, run (cm 0x0413 1 []) { rdy with chn := { rdy.chn with oct := { sched := some 3 } } }, cm 0x0413 1 [], 3, by
    (try dsimp only [Runs, Ready, Moves]); and_intros <;> first | decide +kernel | exact fun _ => rfl | exact ok_of (by decide +kernel) | rfl⟩

theorem wit_PointCommandsComplete_4 : ∃ (dt id : Nat) (s : State) (c : Cmd), let u := s.atRow dt id;
  let o := c.p 0x20 1;
  let ms := if c.p 0x24 4 = 0 then 100 else c.p 0x24 4;
  Runs s dt id 0x0414 c ∧ 2 ≤ o ∧ o ≤ 6 ∧ c.p 0x21 1 ≤ 1 ∧ ms ≤ 10000 ∧ (∀ i < 4, u.schedOn i = true → u.voxelised i = true → u.schedOwner i = c.part) ∧ u.ownsOct c.part = true ∧ u.chn.split = none :=
  ⟨0, 1, (run (cm 0x0414 1 [(0x20, 1, 6), (0x21, 1, 1), (0x24, 4, 10000)]) rdy), (cm 0x0414 1 [(0x20, 1, 6), (0x21, 1, 1), (0x24, 4, 10000)]), by
    (try dsimp only [Runs, Ready, Moves]); and_intros <;> first | decide +kernel | exact fun _ => rfl | exact ok_of (by decide +kernel) | rfl⟩

theorem wit_PointCommandsComplete_5 : ∃ (dt id : Nat) (s : State) (c : Cmd), Runs s dt id 0x0415 c :=
  ⟨0, 1, (run (cm 0x0415 1 []) rdy), (cm 0x0415 1 []), by
    (try dsimp only [Runs, Ready, Moves]); and_intros <;> first | decide +kernel | exact fun _ => rfl | exact ok_of (by decide +kernel) | rfl⟩

theorem wit_PointCommandsComplete_6 : ∃ (dt id : Nat) (s : State), let e := s.elapse dt;
  ∃ p, e.chn.split = some p ∧ p.cmd = id ∧ e.splitWaits p = false :=
  ⟨0, 1, run (cm 0x0414 1 []) { bare with chn := { bare.chn with split := some { cmd := 1, oct := 6, due := 0, started := 0 } } }, { cmd := 1, oct := 6, due := 0, started := 0 }, by
    (try dsimp only [Runs, Ready, Moves]); and_intros <;> first | decide +kernel | exact fun _ => rfl | exact ok_of (by decide +kernel) | rfl⟩

theorem wit_PointCommandsComplete_7 : ∃ (dt : Nat) (s : State), let e := s.elapse dt;
  ∃ i k l r, e.chn.order = (l, k) :: r ∧ e.chn.split = none ∧ e.funcOff 3 0 = false ∧ e.pln.fills = [] ∧ e.frameBusy = none ∧ e.inst? l k = some i ∧ i.state = .building :=
  ⟨0, { rdy with chn := { rdy.chn with order := [(3, 0)], scheds := [(3, { insts := [{ k := 0, t := 0, state := .building }] })] } }, { k := 0, t := 0, state := .building }, 0, 3, [], by
    (try dsimp only [Runs, Ready, Moves]); and_intros <;> first | decide +kernel | exact fun _ => rfl | exact ok_of (by decide +kernel) | rfl⟩

theorem wit_TrackCommandsComplete_0 : ∃ (dt id : Nat) (s : State) (c : Cmd), let u := s.atRow dt id;
  Runs s dt id 0x0420 c ∧ c.p 0x20 1 = 255 ∧ u.assocBusy = false ∧ (u.trkOn = true → u.trkOwner = c.part) :=
  ⟨0, 1, (run (cm 0x0420 1 [(0x20, 1, 255)]) rdy), (cm 0x0420 1 [(0x20, 1, 255)]), by
    (try dsimp only [Runs, Ready, Moves]); and_intros <;> first | decide +kernel | exact fun _ => rfl | exact ok_of (by decide +kernel) | rfl⟩

theorem wit_TrackCommandsComplete_1 : ∃ (dt id : Nat) (s : State) (c : Cmd), let u := s.atRow dt id;
  let j := c.p 0x20 1;
  let fl := c.p 0x21 1;
  let slots := c.p 0x25 1;
  let ring := c.p 0x38 8;
  let gate := f32At c.params 0x08;
  let sz := slots * trkSlotBytes;
  Runs s dt id 0x0420 c ∧ j ≤ 3 ∧ fl ≤ 3 ∧ 1 ≤ c.p 0x22 1 ∧ c.p 0x22 1 ≤ 15 ∧ 1 ≤ c.p 0x23 1 ∧ c.p 0x23 1 ≤ 15 ∧ 1 ≤ c.p 0x24 1 ∧ 2 ≤ slots ∧ slots ≤ 64 ∧ c.p 0x26 2 = 0 ∧ (f32? gate = some 0 ∨ inF32 gate 1 100 = true) ∧ inF32 (f32At c.params 0x0C) 0 100 = true ∧ inF32 (f32At c.params 0x10) (1 / 100) 100 = true ∧ inF32 (f32At c.params 0x14) (1 / 100) 1000 = true ∧ (c.p 0x40 4 = 0 ∨ (1000000 ≤ c.p 0x40 4 ∧ c.p 0x40 4 ≤ 4000000000)) ∧ u.assocBusy = false ∧ u.schedOn j = true ∧ u.schedOwner j = c.part ∧ ring % 4096 = 0 ∧ u.writeRange c.part ring sz = true :=
  ⟨0, 1, (run (cm 0x0420 1 [(0x20, 1, 3), (0x22, 1, 15), (0x23, 1, 15), (0x24, 1, 1), (0x25, 1, 2), (0x30, 4, 0x3F800000), (0x34, 4, 0x3F800000)]) (rdy.setReg (.chnSchedCtl 3) 0x84000000)), (cm 0x0420 1 [(0x20, 1, 3), (0x22, 1, 15), (0x23, 1, 15), (0x24, 1, 1), (0x25, 1, 2), (0x30, 4, 0x3F800000), (0x34, 4, 0x3F800000)]), by
    (try dsimp only [Runs, Ready, Moves]); and_intros <;> first | decide +kernel | exact fun _ => rfl | exact ok_of (by decide +kernel) | rfl⟩

theorem wit_TrackCommandsComplete_2 : ∃ (dt id : Nat) (s : State) (c : Cmd), let u := s.atRow dt id;
  ∃ seq tag dets, let t := c.p 0x20 8;
  Runs s dt id 0x0421 c ∧ (∀ x ∈ (s.elapse dt).ccx.cmds, x.code = 0x0421 → x.state = .accepted ∨ x.state = .running → id ≤ x.id) ∧ u.trkOn = true ∧ u.trkOwner = c.part ∧ c.p 0x30 4 ≤ 4096 ∧ c.p 0x34 4 = 0 ∧ u.firstRecord t = .ok seq ∧ u.detections c = .ok (tag, dets) :=
  ⟨0, 1, run (cm 0x0421 1 [(0x20, 8, 4096)]) recd, cm 0x0421 1 [(0x20, 8, 4096)], 7, {}, [], by
    (try dsimp only [Runs, Ready, Moves]); and_intros <;> first | decide +kernel | exact fun _ => rfl | exact ok_of (by decide +kernel) | rfl⟩

theorem wit_TrackCommandsComplete_3 : ∃ (dt id : Nat) (s : State) (c : Cmd), let u := s.atRow dt id;
  ∃ e, Runs s dt id 0x0422 c ∧ u.trkOn = true ∧ u.trkOwner = c.part ∧ u.trk.tracks.find? (fun e => e.2.id == c.p 0x20 4 && e.2.state != 4) = some e :=
  ⟨0, 1, (run (cm 0x0422 1 [(0x20, 4, 9)]) trkd), (cm 0x0422 1 [(0x20, 4, 9)]), (0, trk9), by
    (try dsimp only [Runs, Ready, Moves]); and_intros <;> first | decide +kernel | exact fun _ => rfl | exact ok_of (by decide +kernel) | rfl⟩

theorem wit_TrackCommandsComplete_4 : ∃ (dt id : Nat) (s : State) (c : Cmd), Runs s dt id 0x0423 c :=
  ⟨0, 1, (run (cm 0x0423 1 []) rdy), (cm 0x0423 1 []), by
    (try dsimp only [Runs, Ready, Moves]); and_intros <;> first | decide +kernel | exact fun _ => rfl | exact ok_of (by decide +kernel) | rfl⟩

theorem wit_PlannerCommandsComplete_0 : ∃ (dt id : Nat) (s : State) (c : Cmd), let u := s.atRow dt id;
  let j := c.p 0x20 1;
  let e := f32Rat (f32At c.params 4);
  let fl := c.p 0x21 1;
  Runs s dt id 0x0501 c ∧ (j = 255 ∨ (j ≤ 3 ∧ u.schedOn j = true ∧ u.schedOwner j = c.part)) ∧ fl ≤ 3 ∧ c.p 0x22 2 = 0 ∧ inF32 (f32At c.params 4) (1 / 50) (1 / 2) = true ∧ e ≠ 0 ∧ finiteAt c.params 8 3 = true ∧ inF32 (f32At c.params 0x14) 1 200 = true ∧ u.jobs = [] ∧ u.liveSearches = [] ∧ u.foreignGrid c.part = false :=
  ⟨0, 1, (run (cm 0x0501 1 [(0x20, 1, 255), (0x21, 1, 3), (0x24, 4, 0x3F000000), (0x34, 4, 0x3F800000)]) rdy), (cm 0x0501 1 [(0x20, 1, 255), (0x21, 1, 3), (0x24, 4, 0x3F000000), (0x34, 4, 0x3F800000)]), by
    (try dsimp only [Runs, Ready, Moves]); and_intros <;> first | decide +kernel | exact fun _ => rfl | exact ok_of (by decide +kernel) | rfl⟩

theorem wit_PlannerCommandsComplete_1 : ∃ (dt id : Nat) (s : State) (c : Cmd), let st := c.p 0x2C 1;
  let e := s.elapse dt;
  Runs s dt id 0x0502 c ∧ e.gridOn = true ∧ e.foreignGrid c.part = false ∧ (st = 0 ∨ st = 3) ∧ c.p 0x26 2 ≤ 511 ∧ c.p 0x28 2 ≤ 511 ∧ c.p 0x2A 2 ≤ 63 ∧ c.p 0x20 2 ≤ c.p 0x26 2 ∧ c.p 0x22 2 ≤ c.p 0x28 2 ∧ c.p 0x24 2 ≤ c.p 0x2A 2 ∧ e.hold = false ∧ e.pln.fills = [] :=
  ⟨0, 1, (run (cm 0x0502 0 [(0x26, 2, 511), (0x28, 2, 511), (0x2a, 2, 63), (0x20, 2, 511), (0x22, 2, 511), (0x24, 2, 63), (0x2c, 1, 3)]) mdl), (cm 0x0502 0 [(0x26, 2, 511), (0x28, 2, 511), (0x2a, 2, 63), (0x20, 2, 511), (0x22, 2, 511), (0x24, 2, 63), (0x2c, 1, 3)]), by
    (try dsimp only [Runs, Ready, Moves]); and_intros <;> first | decide +kernel | exact fun _ => rfl | exact ok_of (by decide +kernel) | rfl⟩

theorem wit_PlannerCommandsComplete_2 : ∃ (dt id : Nat) (s : State) (c : Cmd), let u := s.atRow dt id;
  let m := c.p 0x20 1;
  let links := c.p 0x21 1;
  let n := c.p 0x22 1;
  let rows := (List.range n).map fun i => cut (u.tableAt c (c.p 0x28 8) (32 * n)) (32 * i) 32;
  Runs s dt id 0x0503 c ∧ m ≤ 15 ∧ 1 ≤ links ∧ links ≤ 32 ∧ 1 ≤ n ∧ n ≤ 64 ∧ u.foreignGrid c.part = false ∧ u.modelBusy m = false ∧ u.tableErr c.tableReq (c.p 0x28 8) (32 * n) = none ∧ (∀ r ∈ rows, primOk links r = true) :=
  ⟨0, 1, (run (cm 0x0503 1 [(0x20, 1, 15), (0x21, 1, 1), (0x22, 1, 1), (0x28, 8, 4096)]) prm), (cm 0x0503 1 [(0x20, 1, 15), (0x21, 1, 1), (0x22, 1, 1), (0x28, 8, 4096)]), by
    (try dsimp only [Runs, Ready, Moves]); and_intros <;> first | decide +kernel | exact fun _ => rfl | exact ok_of (by decide +kernel) | rfl⟩

theorem wit_PlannerCommandsComplete_3 : ∃ (dt id : Nat) (s : State) (c : Cmd), let u := s.atRow dt id;
  ∃ b paths, let n := c.p 0x22 2;
  let fl := c.p 0x21 1;
  let res := c.p 0x38 8;
  Runs s dt id 0x0504 c ∧ u.model? (c.p 0x20 1) = some b ∧ u.foreignGrid c.part = false ∧ fl ≤ 7 ∧ 1 ≤ n ∧ n ≤ 256 ∧ inF32 (f32At c.params 4) 0 1 = true ∧ finiteAt c.params 8 1 = true ∧ u.stepOk (f32At c.params 12) = true ∧ u.plnAccess c true res (32 * n) = none ∧ u.tableErr c.tableReq (c.p 0x30 8) (16 * n) = none ∧ u.readPaths c b.links 1024 (pathHeads (u.tableAt c (c.p 0x30 8) (16 * n)) n) = .ok paths :=
  ⟨0, 1, (run (cm 0x0504 0 [(0x22, 2, 1), (0x24, 4, 0), (0x2c, 4, 0), (0x30, 8, 4096), (0x38, 8, 8192)]) pth), (cm 0x0504 0 [(0x22, 2, 1), (0x24, 4, 0), (0x2c, 4, 0), (0x30, 8, 4096), (0x38, 8, 8192)]), { links := 1, prims := [] }, pthV, by
    (try dsimp only [Runs, Ready, Moves]); and_intros <;> first | decide +kernel | exact fun _ => rfl | exact ok_of (by decide +kernel) | rfl⟩

theorem wit_PlannerCommandsComplete_4 : ∃ (dt id : Nat) (s : State) (c : Cmd), let u := s.atRow dt id;
  Runs s dt id 0x0506 c ∧ u.gridOn = true ∧ u.foreignGrid c.part = false ∧ 2 ≤ c.p 0x28 1 ∧ c.p 0x28 1 ≤ 16 ∧ c.p 0x2A 1 ≤ 1 ∧ (u.model? (c.p 0x29 1)).isSome = true ∧ inF32 (f32At c.params 0x0C) (1 / 10) 20 = true ∧ inF32 (f32At c.params 0x10) 0 1 = true ∧ finiteAt c.params 0x14 1 = true ∧ c.p 0x20 8 % 4096 = 0 ∧ u.writeRange c.part (c.p 0x20 8) (4096 * c.p 0x28 1) = true :=
  ⟨0, 1, (run (cm 0x0506 0 [(0x28, 1, 16), (0x2a, 1, 1), (0x2c, 4, 0x3F800000)]) mdl), (cm 0x0506 0 [(0x28, 1, 16), (0x2a, 1, 1), (0x2c, 4, 0x3F800000)]), by
    (try dsimp only [Runs, Ready, Moves]); and_intros <;> first | decide +kernel | exact fun _ => rfl | exact ok_of (by decide +kernel) | rfl⟩

theorem wit_PlannerCommandsComplete_5 : ∃ (dt id : Nat) (s : State) (c : Cmd), Runs s dt id 0x0507 c :=
  ⟨0, 1, (run (cm 0x0507 1 []) rdy), (cm 0x0507 1 []), by
    (try dsimp only [Runs, Ready, Moves]); and_intros <;> first | decide +kernel | exact fun _ => rfl | exact ok_of (by decide +kernel) | rfl⟩

theorem wit_PlannerJobsComplete_0 : ∃ (dt : Nat) (s : State), let u := s.elapse dt;
  ∃ f r, u.pln.fills = f :: r ∧ u.hold = false :=
  ⟨0, { rdy with pln := { rdy.pln with fills := [⟨0, {}, none, false, [], [], 0⟩] } }, ⟨0, {}, none, false, [], [], 0⟩, [], by
    (try dsimp only [Runs, Ready, Moves]); and_intros <;> first | decide +kernel | exact fun _ => rfl | exact ok_of (by decide +kernel) | rfl⟩

theorem wit_PlannerJobsComplete_1 : ∃ (dt : Nat) (s : State), let u := s.elapse dt;
  ∃ j m, let v : State := { u with pln := { u.pln with jobs := dropJob j u.pln.jobs } };
  u.pln.stopDue = 0 ∧ u.pln.fills = [] ∧ u.waitingWrites = [] ∧ nextJob u.jobs = some j ∧ u.model? j.par.model = some m ∧ v.skips j.use.cmd = false :=
  ⟨0, jobd, job1, { links := 1, prims := [] }, by
    (try dsimp only [Runs, Ready, Moves]); and_intros <;> first | decide +kernel | exact fun _ => rfl | exact ok_of (by decide +kernel) | rfl⟩

theorem wit_PlannerJobsComplete_2 : ∃ (dt : Nat) (s : State), let u := s.elapse dt;
  ∃ j m, let v : State := { u with pln := { u.pln with jobs := dropJob j u.pln.jobs } };
  u.pln.stopDue = 0 ∧ u.pln.fills = [] ∧ u.waitingWrites = [] ∧ nextJob u.jobs = some j ∧ u.model? j.par.model = some m ∧ v.skips j.use.cmd = true :=
  ⟨0, { jobd with pln := { jobd.pln with checks := [{ cmd := 1, results := 0, firstClear := true, left := 1, clear := 1 }] } }, job1, { links := 1, prims := [] }, by
    (try dsimp only [Runs, Ready, Moves]); and_intros <;> first | decide +kernel | exact fun _ => rfl | exact ok_of (by decide +kernel) | rfl⟩

theorem wit_PlannerJobsComplete_3 : ∃ (dt id : Nat) (s : State), let u := s.elapse dt;
  ∃ r, u.pln.searches.find? (fun r => r.cmd == id) = some r ∧ r.state = .searching ∧ u.isRunning id = true ∧ r.deadline ≤ u.now + r.reserve :=
  ⟨0, 1, (run (cm 0x0505 1 []) { rdy with pln := { rdy.pln with searches := [srch] } }), srch, by
    (try dsimp only [Runs, Ready, Moves]); and_intros <;> first | decide +kernel | exact fun _ => rfl | exact ok_of (by decide +kernel) | rfl⟩

theorem wit_PlannerJobsComplete_4 : ∃ (dt : Nat) (s : State), let u := s.elapse dt;
  u.pln.stopDue ≠ 0 :=
  ⟨0, { rdy with pln := { rdy.pln with stopDue := 1 } }, by
    (try dsimp only [Runs, Ready, Moves]); and_intros <;> first | decide +kernel | exact fun _ => rfl | exact ok_of (by decide +kernel) | rfl⟩

theorem wit_PlannerJobsComplete_5 : ∃ (dt id : Nat) (s : State), ∃ c m ds dout ps, let a := s.atRow dt id;
  let n := c.p 0x50 2;
  let w := wayBytes m.links;
  let sb := a.rdSeen ds.base w;
  let lat := c.p 0x21 1 == 0;
  let tb := a.tableAt c (c.p 0x48 8) (if lat then 64 * n else 16 * n);
  let rows := (List.range n).map fun i => cut tb (64 * i) 64;
  Runs s dt id 0x0505 c ∧ a.model? (c.p 0x20 1) = some m ∧ a.gridOn = true ∧ a.foreignGrid c.part = false ∧ a.searchOk c = true ∧ a.readDesc c (c.p 0x28 8) = .ok ds ∧ a.readDesc c (c.p 0x60 8) = .ok dout ∧ w ≤ ds.dense ∧ 0x40 + w * c.p 0x52 2 ≤ dout.dense ∧ ds.dev = 255 ∧ dout.dev = 255 ∧ a.plnAccess c false ds.base w = none ∧ a.plnAccess c true dout.base dout.dense = none ∧ wayOk m.links sb = true ∧ a.tableErr c.tableReq (c.p 0x48 8) (if lat then 64 * n else 16 * n) = none ∧ (if lat then .ok [] else a.readPaths c m.links (c.p 0x52 2) (pathHeads tb n)) = .ok ps ∧ (lat = true → ∀ x ∈ rows, lprimOk x = true) :=
  ⟨0, 1, run srcC srcd, srcC, { links := 1, prims := [] }, srcIn, srcOut, [], by
    (try dsimp only [Runs, Ready, Moves]); and_intros <;> first | decide +kernel | exact fun _ => rfl | exact ok_of (by decide +kernel) | rfl⟩

theorem wit_PlannerJobsComplete_6 : ∃ (dt : Nat) (s : State), let u := s.elapse dt;
  u.pln.stopDue ≠ 0 :=
  ⟨0, { rdy with pln := { rdy.pln with stopDue := 1 } }, by
    (try dsimp only [Runs, Ready, Moves]); and_intros <;> first | decide +kernel | exact fun _ => rfl | exact ok_of (by decide +kernel) | rfl⟩

theorem wit_TensorRowsComplete_0 : ∃ (dt id : Nat) (s : State) (c : Cmd) (j : TJob), let u := s.elapse dt;
  Ready u id 0x0601 c j ∧ j.band = 0 ∧ numAt j.raw 0 1 = 1 :=
  ⟨0, 1, (run (cm 0x0601 1 []) (jobs [tj 1] rdy)), (cm 0x0601 1 []), (tj 1), by
    (try dsimp only [Runs, Ready, Moves]); and_intros <;> first | decide +kernel | exact fun _ => rfl | exact ok_of (by decide +kernel) | rfl⟩

theorem wit_TensorRowsComplete_1 : ∃ (dt id : Nat) (s : State) (c : Cmd) (j : TJob), let u := s.elapse dt;
  Ready u id 0x0602 c j ∧ j.band = 0 ∧ numAt j.raw 0 1 = 2 :=
  ⟨0, 1, (run (cm 0x0602 1 []) (jobs [tj 2] rdy)), (cm 0x0602 1 []), (tj 2), by
    (try dsimp only [Runs, Ready, Moves]); and_intros <;> first | decide +kernel | exact fun _ => rfl | exact ok_of (by decide +kernel) | rfl⟩

theorem wit_TensorRowsComplete_2 : ∃ (dt id : Nat) (s : State) (c : Cmd) (j : TJob), let u := s.elapse dt;
  Ready u id 0x0603 c j ∧ j.band = 0 ∧ numAt j.raw 0 1 = 3 :=
  ⟨0, 1, (run (cm 0x0603 1 []) (jobs [tj 3] rdy)), (cm 0x0603 1 []), (tj 3), by
    (try dsimp only [Runs, Ready, Moves]); and_intros <;> first | decide +kernel | exact fun _ => rfl | exact ok_of (by decide +kernel) | rfl⟩

theorem wit_TensorRowsComplete_3 : ∃ (dt id : Nat) (s : State) (c : Cmd) (j : TJob), let u := s.elapse dt;
  Ready u id 0x0604 c j ∧ j.band = 0 :=
  ⟨0, 1, (run (cm 0x0604 1 []) (jobs [tj 1] rdy)), (cm 0x0604 1 []), (tj 1), by
    (try dsimp only [Runs, Ready, Moves]); and_intros <;> first | decide +kernel | exact fun _ => rfl | exact ok_of (by decide +kernel) | rfl⟩

theorem wit_TensorRowsComplete_4 : ∃ (dt id : Nat) (s : State) (c : Cmd) (j : TJob), let u := s.elapse dt;
  Ready u id 0x0610 c j ∧ j.band = 0 ∧ numAt j.raw 0 1 = 4 ∧ (u.kv.walks.any fun w => w.cmd == id) = false :=
  ⟨0, 1, (run (cm 0x0610 1 []) (jobs [tj 4] rdy)), (cm 0x0610 1 []), (tj 4), by
    (try dsimp only [Runs, Ready, Moves]); and_intros <;> first | decide +kernel | exact fun _ => rfl | exact ok_of (by decide +kernel) | rfl⟩

theorem wit_TensorRowsComplete_5 : ∃ (dt id : Nat) (s : State) (c : Cmd), let u := s.elapse dt;
  ∃ w, u.cmd? id = some c ∧ c.state = .running ∧ c.code = 0x0610 ∧ c.id = id ∧ u.kv.walks.find? (fun w => w.cmd == id) = some w ∧ w.todo ≠ [] ∧ (∀ l, u.inSchedule l = false) :=
  ⟨0, 1, (run (cm 0x0610 1 []) { rdy with kv := { rdy.kv with walks := [⟨1, tj 4, 0, [(0, 0)], false⟩] } }), (cm 0x0610 1 []), ⟨1, tj 4, 0, [(0, 0)], false⟩, by
    (try dsimp only [Runs, Ready, Moves]); and_intros <;> first | decide +kernel | exact fun _ => rfl | exact ok_of (by decide +kernel) | rfl⟩

theorem wit_TensorRowsComplete_6 : ∃ (dt id : Nat) (s : State) (c : Cmd) (j : TJob), let u := s.elapse dt;
  Ready u id 0x0611 c j ∧ j.band = 0 ∧ numAt j.raw 0 1 = 5 :=
  ⟨0, 1, (run (cm 0x0611 1 []) (jobs [tj 5] rdy)), (cm 0x0611 1 []), (tj 5), by
    (try dsimp only [Runs, Ready, Moves]); and_intros <;> first | decide +kernel | exact fun _ => rfl | exact ok_of (by decide +kernel) | rfl⟩

theorem wit_TensorRowsComplete_7 : ∃ (dt id : Nat) (s : State) (c : Cmd), let u := s.elapse dt;
  ∃ row : Instr, ∃ code, (row, code) ∈ [(Instr.tensorMatmul dt id, 0x0601), (.tensorVector dt id, 0x0602), (.tensorSpconv dt id, 0x0603), (.tensorChain dt id, 0x0604),
      (.attnFwd dt id, 0x0610), (.attnBwd dt id, 0x0611)] ∧ u.cmd? id = some c ∧ c.state = .running ∧ c.code = code ∧ (u.kv.walks.any fun w => w.cmd == id) = false :=
  ⟨0, 1, run (cm 0x0601 1 []) rdy, cm 0x0601 1 [], .tensorMatmul 0 1, 0x0601, by
    (try dsimp only [Runs, Ready, Moves]); and_intros <;> first | decide +kernel | exact fun _ => rfl | exact ok_of (by decide +kernel) | rfl⟩

theorem wit_TensorRowsComplete_8 : ∃ (dt id : Nat) (s : State) (c : Cmd), let u := s.elapse dt;
  u.cmd? id = some c ∧ c.state = .running ∧ c.code = 0x0610 ∧ (u.kv.walks.any fun w => w.cmd == id) = true :=
  ⟨0, 1, (run (cm 0x0610 1 []) { rdy with kv := { rdy.kv with walks := [⟨1, tj 4, 0, [(0, 0)], false⟩] } }), (cm 0x0610 1 []), by
    (try dsimp only [Runs, Ready, Moves]); and_intros <;> first | decide +kernel | exact fun _ => rfl | exact ok_of (by decide +kernel) | rfl⟩

theorem wit_TensorCommandsComplete_0 : ∃ (dt id : Nat) (s : State) (c : Cmd), let u := s.atRow dt id;
  ∃ p, Runs s dt id 0x0605 c ∧ leVal (cut c.params 8 16) ≠ 0 ∧ c.p 0x20 1 ≠ 0xFF ∧ u.physOf (c.p 0x20 1) = some p :=
  ⟨0, 1, (run (cm 0x0605 1 [(0x20, 1, 11), (0x28, 16, 5)]) rdy), (cm 0x0605 1 [(0x20, 1, 11), (0x28, 16, 5)]), 11, by
    (try dsimp only [Runs, Ready, Moves]); and_intros <;> first | decide +kernel | exact fun _ => rfl | exact ok_of (by decide +kernel) | rfl⟩

theorem wit_TensorCommandsComplete_1 : ∃ (dt id : Nat) (s : State) (c : Cmd), Runs s dt id 0x0605 c ∧ leVal (cut c.params 8 16) ≠ 0 ∧ c.p 0x20 1 = 0xFF :=
  ⟨0, 1, (run (cm 0x0605 1 [(0x20, 1, 255), (0x28, 16, 5)]) rdy), (cm 0x0605 1 [(0x20, 1, 255), (0x28, 16, 5)]), by
    (try dsimp only [Runs, Ready, Moves]); and_intros <;> first | decide +kernel | exact fun _ => rfl | exact ok_of (by decide +kernel) | rfl⟩

theorem wit_TensorCommandsComplete_2 : ∃ (dt id : Nat) (s : State) (c : Cmd), let u := s.atRow dt id;
  ∃ p, Runs s dt id 0x0606 c ∧ u.physOf (c.p 0x20 1) = some p :=
  ⟨0, 1, (run (cm 0x0606 1 [(0x20, 1, 11)]) rdy), (cm 0x0606 1 [(0x20, 1, 11)]), 11, by
    (try dsimp only [Runs, Ready, Moves]); and_intros <;> first | decide +kernel | exact fun _ => rfl | exact ok_of (by decide +kernel) | rfl⟩

theorem wit_TensorCommandsComplete_3 : ∃ (dt id : Nat) (s : State) (c : Cmd), let u := s.atRow dt id;
  let n := c.p 0x20 2;
  let b := u.tableAt c (c.p 0x28 8) (16 * n);
  Runs s dt id 0x0802 c ∧ 1 ≤ n ∧ n ≤ 4095 ∧ (∀ j ∈ u.tar.jobs, j.part = c.part → j.band = 0) ∧ (∀ x ∈ u.ccx.cmds, x.part = c.part → x.state = .accepted → x.group = 6 → x.code ≠ 0x0604 → x.p 0x24 2 % 4096 = 0) ∧ u.tableErr c.tableReq (c.p 0x28 8) (16 * n) = none ∧ (∀ i < n, numAt b (16 * i + 8) 4 ≤ 1000000) :=
  ⟨0, 1, (run (cm 0x0802 1 [(0x20, 2, 1), (0x28, 8, 4096)]) tabled), (cm 0x0802 1 [(0x20, 2, 1), (0x28, 8, 4096)]), by
    (try dsimp only [Runs, Ready, Moves]); and_intros <;> first | decide +kernel | exact fun _ => rfl | exact ok_of (by decide +kernel) | rfl⟩

theorem wit_TensorCommandsComplete_4 : ∃ (dt id : Nat) (s : State) (c : Cmd), let u := s.atRow dt id;
  let a := c.p 0x28 8;
  Runs s dt id 0x0803 c ∧ 1 ≤ c.p 0x20 1 ∧ c.p 0x20 1 ≤ 15 ∧ c.p 0x21 1 ≠ 1 ∧ c.p 0x21 1 ≤ 64 ∧ a % 64 = 0 ∧ (inside a 64 0 hbmSize = true ∨ inside a 64 stagingBase stagingSize = true) ∧ u.access (.part c.part) .other true a 64 = none :=
  ⟨0, 1, run (cm 0x0803 1 [(0x20, 1, 15), (0x21, 1, 64), (0x28, 8, 0x2000)]) rdy, (cm 0x0803 1 [(0x20, 1, 15), (0x21, 1, 64), (0x28, 8, 0x2000)]), by
    (try dsimp only [Runs, Ready, Moves]); and_intros <;> first | decide +kernel | exact fun _ => rfl | exact ok_of (by decide +kernel) | rfl⟩

theorem wit_TensorEventsComplete_0 : ∃ (dt : Nat) (s : State), let u := s.elapse dt;
  ∃ p, ∃ v : W64, let seed := leBytes 8 (sget 0 u.tar.rngLo p).toNat ++ leBytes 8 v.toNat;
  p < 14 ∧ leVal seed ≠ 0 :=
  ⟨0, rdy, 13, 1, by
    (try dsimp only [Runs, Ready, Moves]); and_intros <;> first | decide +kernel | exact fun _ => rfl | exact ok_of (by decide +kernel) | rfl⟩

theorem wit_TensorEventsComplete_1 : ∃ (dt : Nat) (s : State), let u := s.elapse dt;
  ∃ l j, (u.queued l).head? = some j ∧ u.runsOn l = true ∧ u.tar.starters = [] ∧ u.inSchedule l = false ∧ j.core = l ∧ j.band = 0 ∧ (u.tar.jobs.filter fun e => e.core == l && e.started) = [] ∧ u.tar.rngPend = [] :=
  ⟨0, (run (cm 0x0601 1 []) ((jobs [{ tj 1 with started := false }] rdy))), 0, { tj 1 with started := false }, by
    (try dsimp only [Runs, Ready, Moves]); and_intros <;> first | decide +kernel | exact fun _ => rfl | exact ok_of (by decide +kernel) | rfl⟩

theorem wit_TensorEventsComplete_2 : ∃ (dt : Nat) (s : State), let u := s.elapse dt;
  ∃ l j p b, (u.queued l).head? = some j ∧ u.runsOn l = true ∧ u.tar.starters = [] ∧ u.inSchedule l = false ∧ j.core = l ∧ j.band = 0 ∧ (u.tar.jobs.filter fun e => e.core == l && e.started) = [] ∧ u.physOf l = some p ∧ u.tar.rngPend = [(p, b)] :=
  ⟨0, { (run (cm 0x0601 1 []) ((jobs [{ tj 1 with started := false }] rdy))) with tar := { ((run (cm 0x0601 1 []) ((jobs [{ tj 1 with started := false }] rdy)))).tar with rngPend := [(0, [1])] } }, 0, { tj 1 with started := false }, 0, [1], by
    (try dsimp only [Runs, Ready, Moves]); and_intros <;> first | decide +kernel | exact fun _ => rfl | exact ok_of (by decide +kernel) | rfl⟩

theorem wit_TensorEventsComplete_3 : ∃ (dt : Nat) (s : State), let u := s.elapse dt;
  ∃ l, ∃ j, ∃ r : TileReport, ∃ p, u.tar.jobs.find? (fun j => (j.core == l && j.started && !j.ran)) = some j ∧ u.physOf l = some p ∧ r.residueBad = false ∧ r.recomputeBad = false ∧ r.memBad = none ∧ (j.band = 0 ∨ r.primary = false) :=
  ⟨0, run (cm 0x0601 1 []) (jobs [tj 1] rdy), 0, tj 1, {}, 0, by
    (try dsimp only [Runs, Ready, Moves]); and_intros <;> first | decide +kernel | exact fun _ => rfl | exact ok_of (by decide +kernel) | rfl⟩

theorem wit_TensorEventsComplete_4 : ∃ (dt : Nat) (s : State), let u := s.elapse dt;
  ∃ l, ∃ j, ∃ r : TileReport, ∃ p, u.tar.jobs.find? (fun j => (j.core == l && j.started && !j.ran)) = some j ∧ u.physOf l = some p ∧ r.residueBad = true ∧ r.recomputeBad = false ∧ r.memBad = none ∧ j.band = 0 ∧ (u.tar.residAt.find? fun e => e.1 == p) = none ∧ 1 ≤ u.ssi.policy.residMax :=
  ⟨0, run (cm 0x0601 1 []) (jobs [tj 1] rdy), 0, tj 1, { residueBad := true }, 0, by
    (try dsimp only [Runs, Ready, Moves]); and_intros <;> first | decide +kernel | exact fun _ => rfl | exact ok_of (by decide +kernel) | rfl⟩

theorem wit_TensorEventsComplete_5 : ∃ (dt : Nat) (s : State), let u := s.elapse dt;
  ∃ l, ∃ j, ∃ r : TileReport, ∃ p, u.tar.jobs.find? (fun j => (j.core == l && j.started && !j.ran)) = some j ∧ u.physOf l = some p ∧ r.residueBad = true ∧ r.recomputeBad = true ∧ (u.tar.residAt.find? fun e => e.1 == p) = none ∧ 1 ≤ u.ssi.policy.residMax ∧ u.configured = false :=
  ⟨0, run (cm 0x0601 1 []) (jobs [tj 1] rdy), 0, tj 1, { residueBad := true, recomputeBad := true }, 0, by
    (try dsimp only [Runs, Ready, Moves]); and_intros <;> first | decide +kernel | exact fun _ => rfl | exact ok_of (by decide +kernel) | rfl⟩

theorem wit_TensorEventsComplete_6 : ∃ (dt : Nat) (s : State), let u := s.elapse dt;
  ∃ l, ∃ j, ∃ r : TileReport, ∃ p, u.tar.jobs.find? (fun j => (j.core == l && j.started && !j.ran)) = some j ∧ u.physOf l = some p ∧ r.residueBad = false ∧ r.recomputeBad = false ∧ r.memBad = none ∧ j.band ≠ 0 ∧ r.primary = true ∧ j.tiles % 16 ≠ 0 :=
  ⟨0, run (cm 0x0601 1 []) (jobs [{ tj 1 with band := 1, tiles := 1 }] rdy), 0, { tj 1 with band := 1, tiles := 1 }, {}, 0, by
    (try dsimp only [Runs, Ready, Moves]); and_intros <;> first | decide +kernel | exact fun _ => rfl | exact ok_of (by decide +kernel) | rfl⟩

theorem wit_TensorEventsComplete_7 : ∃ (dt : Nat) (s : State), let u := s.elapse dt;
  ∃ l, ∃ j, ∃ r : TileReport, ∃ p, u.tar.jobs.find? (fun j => (j.core == l && j.started && !j.ran)) = some j ∧ u.physOf l = some p ∧ r.recomputeBad = true :=
  ⟨0, run (cm 0x0601 1 []) (jobs [tj 1] rdy), 0, tj 1, { recomputeBad := true }, 0, by
    (try dsimp only [Runs, Ready, Moves]); and_intros <;> first | decide +kernel | exact fun _ => rfl | exact ok_of (by decide +kernel) | rfl⟩

theorem wit_TensorEventsComplete_8 : ∃ (dt : Nat) (s : State), let u := s.elapse dt;
  ∃ l, ∃ j, ∃ r : TileReport, ∃ p, ∃ a, u.tar.jobs.find? (fun j => (j.core == l && j.started && !j.ran)) = some j ∧ u.physOf l = some p ∧ r.recomputeBad = false ∧ r.memBad = some a :=
  ⟨0, run (cm 0x0601 1 []) (jobs [tj 1] rdy), 0, tj 1, { memBad := some 64 }, 0, 64, by
    (try dsimp only [Runs, Ready, Moves]); and_intros <;> first | decide +kernel | exact fun _ => rfl | exact ok_of (by decide +kernel) | rfl⟩

theorem wit_TensorEventsComplete_9 : ∃ (dt : Nat) (s : State), let u := s.elapse dt;
  ∃ l, ∃ j, ∃ r : TileReport, ∃ p, u.tar.jobs.find? (fun j => (j.core == l && j.started && !j.ran)) = some j ∧ u.physOf l = some p ∧ r.recomputeBad = false ∧ r.memBad = none ∧ (j.band = 0 ∨ r.primary = false) :=
  ⟨0, run (cm 0x0601 1 []) (jobs [tj 1] rdy), 0, tj 1, { primary := false, residueBad := true }, 0, by
    (try dsimp only [Runs, Ready, Moves]); and_intros <;> first | decide +kernel | exact fun _ => rfl | exact ok_of (by decide +kernel) | rfl⟩

theorem wit_TensorEventsComplete_10 : ∃ (dt : Nat) (s : State), let u := s.elapse dt;
  ∃ l, ∃ j, ∃ r : TileReport, ∃ p, u.tar.jobs.find? (fun j => (j.core == l && j.started && !j.ran)) = some j ∧ u.physOf l = some p ∧ r.recomputeBad = false ∧ r.memBad = none ∧ j.band ≠ 0 ∧ r.primary = true :=
  ⟨0, run (cm 0x0601 1 []) (jobs [{ tj 1 with band := 1, tiles := 1 }] rdy), 0, { tj 1 with band := 1, tiles := 1 }, {}, 0, by
    (try dsimp only [Runs, Ready, Moves]); and_intros <;> first | decide +kernel | exact fun _ => rfl | exact ok_of (by decide +kernel) | rfl⟩

theorem wit_TensorEventsComplete_11 : ∃ (dt : Nat) (s : State), let u := s.elapse dt;
  ∃ l j, let fl := u.tar.jobs.filter fun e => e.core == l && e.started;
  (u.queued l).head? = some j ∧ u.runsOn l = true ∧ (u.tar.starters.any fun r => r.slot == 16 + (u.physOf l).getD 0) = false ∧ (u.inSchedule l = true → u.timeOf j ≤ (((u.windowsOf j.part l).foldl Nat.max 0 : Nat) : Rat)) ∧ fl.length < 8 ∧ (∀ e ∈ fl, e.ran = true) ∧ u.hazard j = false ∧ u.windowTakes j = true :=
  ⟨0, (run (cm 0x0601 1 []) ((jobs [{ tj 1 with started := false }] rdy))), 0, { tj 1 with started := false }, by
    (try dsimp only [Runs, Ready, Moves]); and_intros <;> first | decide +kernel | exact fun _ => rfl | exact ok_of (by decide +kernel) | rfl⟩

theorem wit_CheckRowsComplete_0 : ∃ (dt : Nat) (s : State), let u := s.elapse dt;
  ∃ id k j, u.tar.jobs.find? (fun j => j.cmd == id && j.rerun == 1 && j.started) = some j ∧ k < u.checkers.length ∧ k < 2 ∧ u.checkerBusy (u.fldOf (.ssiStarterCore k) 0 4) = false :=
  ⟨0, (run (cm 0x0601 1 []) ((jobs [{ tj 1 with rerun := 1 }] safe))), 1, 0, { tj 1 with rerun := 1 }, by
    (try dsimp only [Runs, Ready, Moves]); and_intros <;> first | decide +kernel | exact fun _ => rfl | exact ok_of (by decide +kernel) | rfl⟩

theorem wit_CheckRowsComplete_1 : ∃ (dt : Nat) (s : State), let u := s.elapse dt;
  ∃ id j, u.tar.jobs.find? (fun j => j.cmd == id && j.rerun == 1 && j.ran) = some j ∧ j.ranAt + u.ssi.policy.checkWait ≤ u.ns :=
  ⟨1000000, (run (cm 0x0601 1 []) ((jobs [{ tj 1 with rerun := 1, ran := true }] safe))), 1, { tj 1 with rerun := 1, ran := true }, by
    (try dsimp only [Runs, Ready, Moves]); and_intros <;> first | decide +kernel | exact fun _ => rfl | exact ok_of (by decide +kernel) | rfl⟩

theorem wit_CheckRowsComplete_2 : ∃ (dt : Nat) (s : State), let u := s.elapse dt;
  ∃ id j x, u.tar.jobs.find? (fun j => j.cmd == id && j.ran && j.band != 0 && j.rerun != 1) = some j ∧ j.rerun ≠ 2 ∧ j.disagrees = false ∧ u.tar.retires = [] ∧ u.setOf j = some x ∧ u.tar.chains = [] :=
  ⟨0, { (run (cm 0x0601 1 []) ((jobs [{ tj 1 with ran := true, band := 1, set := 1 }] safe))) with tar := { ((run (cm 0x0601 1 []) ((jobs [{ tj 1 with ran := true, band := 1, set := 1 }] safe)))).tar with sets := [{ part := 1, set := 1, sampleN := 0, recAddr := 0x1000 }] } }, 1, { tj 1 with ran := true, band := 1, set := 1 }, { part := 1, set := 1, sampleN := 0, recAddr := 0x1000 }, by
    (try dsimp only [Runs, Ready, Moves]); and_intros <;> first | decide +kernel | exact fun _ => rfl | exact ok_of (by decide +kernel) | rfl⟩

theorem wit_CheckRowsComplete_3 : ∃ (dt : Nat) (s : State), let u := s.elapse dt;
  ∃ k n, let y := u.ssi.policy;
  let open_ := y.starterPhase + sget 0 u.ssi.slotNext k * y.starterPeriod + (if k = 1 then y.starterPeriod / 2 else 0);
  u.configured = true ∧ k < u.checkers.length ∧ k < 2 ∧ u.tar.starters = [] ∧ u.starterSet = some n ∧ open_ ≤ u.now ∧ u.now < open_ + y.starterPeriod :=
  ⟨0, safe, 0, 0, by
    (try dsimp only [Runs, Ready, Moves]); and_intros <;> first | decide +kernel | exact fun _ => rfl | exact ok_of (by decide +kernel) | rfl⟩

theorem wit_CheckRowsComplete_4 : ∃ (dt : Nat) (s : State), let u := s.elapse dt;
  ∃ k r, u.tar.starters = [r] ∧ r.slot = k ∧ k < 2 ∧ r.pair = false ∧ r.late = false ∧ r.closes ≤ u.now :=
  ⟨0, { safe with tar := { safe.tar with starters := [srun] } }, 0, srun, by
    (try dsimp only [Runs, Ready, Moves]); and_intros <;> first | decide +kernel | exact fun _ => rfl | exact ok_of (by decide +kernel) | rfl⟩

theorem wit_CheckRowsComplete_5 : ∃ (dt : Nat) (s : State), let u := s.elapse dt;
  ∃ k r x out, u.tar.starters = [r] ∧ r.slot = k ∧ k < 16 ∧ r.pair = false ∧ r.late = false ∧ u.ssi.starters[r.set]? = some x ∧ u.tar.retires = [] ∧ u.starterAgrees x out = true :=
  ⟨0, { safe with tar := { safe.tar with starters := [srun] } }, 0, srun, ⟨0, 1, 0, {}, 0, [], false⟩, [], by
    (try dsimp only [Runs, Ready, Moves]); and_intros <;> first | decide +kernel | exact fun _ => rfl | exact ok_of (by decide +kernel) | rfl⟩

theorem wit_CheckRowsComplete_6 : ∃ (dt : Nat) (s : State), let u := s.elapse dt;
  u.configured = true ∧ u.ssi.digestAt + 3600000000000 ≤ u.ns ∧ (∀ x ∈ u.ssi.starters, x.bad = true) :=
  ⟨2000000000000, { safe with ssi := { safe.ssi with starters := [] } }, by
    (try dsimp only [Runs, Ready, Moves]); and_intros <;> first | decide +kernel | exact fun _ => rfl | exact ok_of (by decide +kernel) | rfl⟩

theorem wit_CheckRowsComplete_7 : ∃ (dt : Nat) (s : State), let u := s.elapse dt;
  ∃ x, u.configured = true ∧ u.ssi.digestAt + 3600000000000 ≤ u.ns ∧ u.ssi.starters = [x] ∧ x.bad = false :=
  ⟨2000000000000, safe, ⟨0, 1, 0, {}, 0, [], false⟩, by
    (try dsimp only [Runs, Ready, Moves]); and_intros <;> first | decide +kernel | exact fun _ => rfl | exact ok_of (by decide +kernel) | rfl⟩

theorem wit_CheckRowsComplete_8 : ∃ (dt : Nat) (s : State), let u := s.elapse dt;
  ∃ id j, u.tar.jobs.find? (fun j => j.cmd == id && j.ran && j.band != 0 && j.rerun != 1) = some j :=
  ⟨0, { (run (cm 0x0601 1 []) ((jobs [{ tj 1 with ran := true, band := 1, set := 1 }] safe))) with tar := { ((run (cm 0x0601 1 []) ((jobs [{ tj 1 with ran := true, band := 1, set := 1 }] safe)))).tar with sets := [{ part := 1, set := 1, sampleN := 0, recAddr := 0x1000 }] } }, 1, { tj 1 with ran := true, band := 1, set := 1 }, by
    (try dsimp only [Runs, Ready, Moves]); and_intros <;> first | decide +kernel | exact fun _ => rfl | exact ok_of (by decide +kernel) | rfl⟩

theorem wit_CheckRowsComplete_9 : ∃ (dt : Nat) (s : State), let u := s.elapse dt;
  ∃ k, let y := u.ssi.policy;
  let n := sget 0 u.ssi.slotNext k;
  let open_ := y.starterPhase + n * y.starterPeriod + (if k = 1 then y.starterPeriod / 2 else 0);
  u.configured = true ∧ k < u.checkers.length ∧ k < 2 ∧ open_ ≤ u.now :=
  ⟨0, (run (cm 0x0601 1 []) ((jobs [{ tj 1 with rerun := 1 }] safe))), 0, by
    (try dsimp only [Runs, Ready, Moves]); and_intros <;> first | decide +kernel | exact fun _ => rfl | exact ok_of (by decide +kernel) | rfl⟩

theorem wit_CheckRowsComplete_10 : ∃ (dt : Nat) (s : State), let u := s.elapse dt;
  ∃ k r, u.tar.starters.find? (fun r => r.slot == k && !r.pair && !r.late) = some r ∧ r.closes ≤ u.now :=
  ⟨0, { safe with tar := { safe.tar with starters := [srun] } }, 0, srun, by
    (try dsimp only [Runs, Ready, Moves]); and_intros <;> first | decide +kernel | exact fun _ => rfl | exact ok_of (by decide +kernel) | rfl⟩

theorem wit_CheckRowsComplete_11 : ∃ (dt : Nat) (s : State), let u := s.elapse dt;
  ∃ k r x, u.tar.starters.find? (fun r => r.slot == k) = some r ∧ u.ssi.starters[r.set]? = some x ∧ r.pair = false :=
  ⟨0, { safe with tar := { safe.tar with starters := [srun] } }, 0, srun, ⟨0, 1, 0, {}, 0, [], false⟩, by
    (try dsimp only [Runs, Ready, Moves]); and_intros <;> first | decide +kernel | exact fun _ => rfl | exact ok_of (by decide +kernel) | rfl⟩

theorem wit_CheckRowsComplete_12 : ∃ (dt : Nat) (s : State), let u := s.elapse dt;
  ∃ k r x, u.tar.starters.find? (fun r => r.slot == k) = some r ∧ u.ssi.starters[r.set]? = some x ∧ r.pair = true :=
  ⟨0, { safe with tar := { safe.tar with starters := [{ srun with pair := true }] } }, 0, { srun with pair := true }, ⟨0, 1, 0, {}, 0, [], false⟩, by
    (try dsimp only [Runs, Ready, Moves]); and_intros <;> first | decide +kernel | exact fun _ => rfl | exact ok_of (by decide +kernel) | rfl⟩

theorem wit_CheckRowsComplete_13 : ∃ (dt : Nat) (s : State), let u := s.elapse dt;
  u.configured = true ∧ u.ssi.digestAt + 3600000000000 ≤ u.ns :=
  ⟨2000000000000, { safe with ssi := { safe.ssi with starters := [] } }, by
    (try dsimp only [Runs, Ready, Moves]); and_intros <;> first | decide +kernel | exact fun _ => rfl | exact ok_of (by decide +kernel) | rfl⟩

theorem wit_MoveRowsComplete_0 : ∃ (dt id : Nat) (s : State) (c : Cmd) (j : MoveJob), let v := s.atRow dt id;
  let y := tdescD j.ds 0x28;
  Moves s dt id 0x0701 c j ∧ v.isLocal y = true :=
  ⟨0, 1, (run (cm 0x0701 1 []) (moving rdy)), (cm 0x0701 1 []), mvJ, by
    (try dsimp only [Runs, Ready, Moves]); and_intros <;> first | decide +kernel | exact fun _ => rfl | exact ok_of (by decide +kernel) | rfl⟩

theorem wit_MoveRowsComplete_1 : ∃ (dt id : Nat) (s : State) (c : Cmd) (j : MoveJob), let v := s.atRow dt id;
  let y := tdescD j.ds 0x20;
  Moves s dt id 0x0702 c j ∧ v.isLocal y = true :=
  ⟨0, 1, (run (cm 0x0702 1 []) (moving rdy)), (cm 0x0702 1 []), mvJ, by
    (try dsimp only [Runs, Ready, Moves]); and_intros <;> first | decide +kernel | exact fun _ => rfl | exact ok_of (by decide +kernel) | rfl⟩

theorem wit_MoveRowsComplete_2 : ∃ (dt id : Nat) (s : State) (c : Cmd) (j : MoveJob), let v := s.atRow dt id;
  let x := tdescD j.ds 0x20;
  let y := tdescD j.ds 0x30;
  Moves s dt id 0x0703 c j ∧ v.isLocal x = true ∧ v.isLocal y = true :=
  ⟨0, 1, (run (cm 0x0703 1 []) (moving rdy)), (cm 0x0703 1 []), mvJ, by
    (try dsimp only [Runs, Ready, Moves]); and_intros <;> first | decide +kernel | exact fun _ => rfl | exact ok_of (by decide +kernel) | rfl⟩

theorem wit_MoveRowsComplete_3 : ∃ (dt id : Nat) (s : State) (c : Cmd) (j : MoveJob), let v := s.atRow dt id;
  let x := tdescD j.ds 0x20;
  let y := tdescD j.ds 0x30;
  Moves s dt id 0x0704 c j ∧ v.isLocal x = true ∧ v.isLocal y = true :=
  ⟨0, 1, (run (cm 0x0704 1 []) (moving rdy)), (cm 0x0704 1 []), mvJ, by
    (try dsimp only [Runs, Ready, Moves]); and_intros <;> first | decide +kernel | exact fun _ => rfl | exact ok_of (by decide +kernel) | rfl⟩

theorem wit_MoveRowsComplete_4 : ∃ (dt id : Nat) (s : State) (c : Cmd) (j : MoveJob), Moves s dt id 0x0708 c j :=
  ⟨0, 1, (run (cm 0x0708 1 [(0x20, 1, 63)]) (moving rdy)), (cm 0x0708 1 [(0x20, 1, 63)]), mvJ, by
    (try dsimp only [Runs, Ready, Moves]); and_intros <;> first | decide +kernel | exact fun _ => rfl | exact ok_of (by decide +kernel) | rfl⟩

theorem wit_MoveRowsComplete_5 : ∃ (dt id : Nat) (s : State) (c : Cmd) (j : MoveJob), ∃ row : Instr, ∃ code, ∃ f, (row, code, f) ∈ [(Instr.moveCopy dt id, 0x0701, moveCopy), (.moveConcat dt id, 0x0702, moveConcat),
      (.moveGather dt id, 0x0703, moveGather), (.moveScatter dt id, 0x0704, moveScatter), (.moveQueueRead dt id, 0x0708, moveQueueRead)] ∧ Runs s dt id code c ∧ (s.elapse dt).mmv.moves.find? (fun x => x.cmd == id) = some j ∧ (s.elapse dt).moveWaits id = false :=
  ⟨0, 1, moving (run (cm 0x0701 1 []) rdy), cm 0x0701 1 [], mvJ, .moveCopy 0 1, 0x0701, moveCopy, by
    (try dsimp only [Runs, Ready, Moves]); and_intros <;> first | decide +kernel | exact fun _ => rfl | exact ok_of (by decide +kernel) | rfl | (intro _ h; cases h <;> decide +kernel) | exact List.mem_cons_self⟩

theorem wit_MoveCommandsComplete_0 : ∃ (dt id : Nat) (s : State) (c : Cmd), let u := s.atRow dt id;
  let src := c.p 0x20 8;
  let n := c.p 0x30 8;
  Runs s dt id 0x0720 c ∧ 1 ≤ n ∧ n ≤ 0x100000000 ∧ u.busMaster = true ∧ u.access (.part c.part) .other false src n = none ∧ u.poisoned src n = false :=
  ⟨0, 1, (run (cm 0x0720 1 [(0x20, 8, 4096), (0x30, 8, 4096)]) rdy), (cm 0x0720 1 [(0x20, 8, 4096), (0x30, 8, 4096)]), by
    (try dsimp only [Runs, Ready, Moves]); and_intros <;> first | decide +kernel | exact fun _ => rfl | exact ok_of (by decide +kernel) | rfl⟩

theorem wit_MoveCommandsComplete_1 : ∃ (dt id : Nat) (s : State) (c : Cmd), let u := s.atRow dt id;
  let n := c.p 0x20 1;
  Runs s dt id 0x0710 c ∧ n ≤ 63 ∧ c.p 0x21 1 = 0 ∧ u.mmvQueue n = true ∧ (u.strm n).owner = some c.part ∧ u.strmOn n = false :=
  ⟨0, 1, (run (cm 0x0710 1 [(0x20, 1, 63)]) { ((rdy.setReg (.siuQCfg 63) 0x80000000)) with siu := { rdy.siu with streams := [(63, { owner := some 1 })] } }), (cm 0x0710 1 [(0x20, 1, 63)]), by
    (try dsimp only [Runs, Ready, Moves]); and_intros <;> first | decide +kernel | exact fun _ => rfl | exact ok_of (by decide +kernel) | rfl⟩

theorem wit_MoveCommandsComplete_2 : ∃ (dt id : Nat) (s : State) (c : Cmd), let u := s.atRow dt id;
  let n := c.p 0x20 1;
  let k := c.p 0x21 1;
  let sb := c.p 0x24 4;
  let a := c.p 0x28 8;
  let lines := (c.p 0x22 1).testBit 0;
  let w := c.p 0x34 4;
  Runs s dt id 0x0710 c ∧ n ≤ 63 ∧ 2 ≤ k ∧ k ≤ 64 ∧ 65536 ≤ sb ∧ sb ≤ 67108864 ∧ sb % 65536 = 0 ∧ 1000000 ≤ w ∧ w ≤ 4000000000 ∧ (lines = true → c.p 0x30 4 ≠ 0 ∧ c.p 0x30 4 % 64 = 0) ∧ (lines = false → c.p 0x30 4 = 0) ∧ u.mmvQueue n = true ∧ (u.strm n).owner = some c.part ∧ u.strmOn n = false ∧ a % 65536 = 0 ∧ u.access (.part c.part) .other true a (k * sb) = none :=
  ⟨0, 1, (run (cm 0x0710 1 [(0x20, 1, 63), (0x21, 1, 64), (0x22, 1, 1), (0x24, 4, 65536), (0x28, 8, 65536), (0x30, 4, 64), (0x34, 4, 4000000000)]) { ((rdy.setReg (.siuQCfg 63) 0x80000000)) with siu := { rdy.siu with streams := [(63, { owner := some 1 })] } }), (cm 0x0710 1 [(0x20, 1, 63), (0x21, 1, 64), (0x22, 1, 1), (0x24, 4, 65536), (0x28, 8, 65536), (0x30, 4, 64), (0x34, 4, 4000000000)]), by
    (try dsimp only [Runs, Ready, Moves]); and_intros <;> first | decide +kernel | exact fun _ => rfl | exact ok_of (by decide +kernel) | rfl⟩

theorem wit_MoveCommandsComplete_3 : ∃ (dt id : Nat) (s : State) (c : Cmd), let u := s.atRow dt id;
  let dev := c.p 0x22 1;
  Runs s dt id 0x0730 c ∧ dev ≤ 23 ∧ ((∀ q < 8, u.linkState q < 2) ∨ u.devNum = dev) ∧ c.p 0x20 1 = 0xFF ∧ c.p 0x28 8 = 0 :=
  ⟨0, 1, (run (cm 0x0730 0 [(0x20, 1, 255), (0x22, 1, 23)]) rdy), (cm 0x0730 0 [(0x20, 1, 255), (0x22, 1, 23)]), by
    (try dsimp only [Runs, Ready, Moves]); and_intros <;> first | decide +kernel | exact fun _ => rfl | exact ok_of (by decide +kernel) | rfl⟩

theorem wit_MoveCommandsComplete_4 : ∃ (dt id : Nat) (s : State) (c : Cmd), let u := s.atRow dt id;
  let dev := c.p 0x22 1;
  Runs s dt id 0x0730 c ∧ dev ≤ 23 ∧ ((∀ q < 8, u.linkState q < 2) ∨ u.devNum = dev) ∧ c.p 0x20 1 = 0xFF ∧ c.p 0x28 8 ≠ 0 ∧ u.tableErr c.tableReq (c.p 0x28 8) 24 = none :=
  ⟨0, 1, (run (cm 0x0730 0 [(0x20, 1, 255), (0x22, 1, 23), (0x28, 8, 4096)]) rdy), (cm 0x0730 0 [(0x20, 1, 255), (0x22, 1, 23), (0x28, 8, 4096)]), by
    (try dsimp only [Runs, Ready, Moves]); and_intros <;> first | decide +kernel | exact fun _ => rfl | exact ok_of (by decide +kernel) | rfl⟩

theorem wit_MoveCommandsComplete_5 : ∃ (dt id : Nat) (s : State) (c : Cmd), let u := s.atRow dt id;
  let dev := c.p 0x22 1;
  Runs s dt id 0x0730 c ∧ dev ≤ 23 ∧ ((∀ q < 8, u.linkState q < 2) ∨ u.devNum = dev) ∧ c.p 0x20 1 ≤ 7 ∧ c.p 0x23 1 = 4 ∧ c.p 0x28 8 = 0 ∧ (c.p 0x21 1).testBit 0 = true ∧ u.linkState (c.p 0x20 1) = 0 :=
  ⟨0, 1, (run (cm 0x0730 0 [(0x20, 1, 7), (0x21, 1, 1), (0x22, 1, 23), (0x23, 1, 4)]) rdy), (cm 0x0730 0 [(0x20, 1, 7), (0x21, 1, 1), (0x22, 1, 23), (0x23, 1, 4)]), by
    (try dsimp only [Runs, Ready, Moves]); and_intros <;> first | decide +kernel | exact fun _ => rfl | exact ok_of (by decide +kernel) | rfl⟩

theorem wit_MoveCommandsComplete_6 : ∃ (dt id : Nat) (s : State) (c : Cmd), let u := s.atRow dt id;
  let dev := c.p 0x22 1;
  let p := c.p 0x20 1;
  let w := c.p 0x23 1;
  let ra := c.p 0x28 8;
  Runs s dt id 0x0730 c ∧ dev ≤ 23 ∧ ((∀ q < 8, u.linkState q < 2) ∨ u.devNum = dev) ∧ p ≤ 7 ∧ (w = 1 ∨ w = 2 ∨ w = 4) ∧ (ra ≠ 0 → u.tableErr c.tableReq ra 24 = none) :=
  ⟨0, 1, (run (cm 0x0730 0 [(0x20, 1, 7), (0x21, 1, 1), (0x22, 1, 23), (0x23, 1, 4)]) rdy), (cm 0x0730 0 [(0x20, 1, 7), (0x21, 1, 1), (0x22, 1, 23), (0x23, 1, 4)]), by
    (try dsimp only [Runs, Ready, Moves]); and_intros <;> first | decide +kernel | exact fun _ => rfl | exact ok_of (by decide +kernel) | rfl⟩

theorem wit_MoveCommandsComplete_7 : ∃ (dt id : Nat) (s : State) (c : Cmd), let u := s.atRow dt id;
  let p := c.p 0x20 1;
  let ms := c.p 0x24 4;
  Runs s dt id 0x0731 c ∧ p ≤ 7 ∧ c.p 0x21 1 ≤ 1 ∧ ms ≤ 10000 ∧ (u.mmv.retrains.any fun r => r.port == p) = false ∧ u.linkEn p = true :=
  ⟨0, 1, (run (cm 0x0731 0 [(0x20, 1, 0), (0x24, 4, 10000)]) (linked 5)), (cm 0x0731 0 [(0x20, 1, 0), (0x24, 4, 10000)]), by
    (try dsimp only [Runs, Ready, Moves]); and_intros <;> first | decide +kernel | exact fun _ => rfl | exact ok_of (by decide +kernel) | rfl⟩

theorem wit_MoveCommandsComplete_8 : ∃ (dt id : Nat) (s : State) (c : Cmd), Runs s dt id 0x0732 c ∧ c.p 0x20 1 ≤ 7 :=
  ⟨0, 1, (run (cm 0x0732 1 [(0x20, 1, 7)]) rdy), (cm 0x0732 1 [(0x20, 1, 7)]), by
    (try dsimp only [Runs, Ready, Moves]); and_intros <;> first | decide +kernel | exact fun _ => rfl | exact ok_of (by decide +kernel) | rfl⟩

theorem wit_LinkRowsComplete_0 : ∃ (dt p : Nat) (s : State), let u := s.elapse dt;
  p < 8 ∧ u.linkState p = 1 ∧ u.mmv.retrains = [] :=
  ⟨0, 0, (linked 1), by
    (try dsimp only [Runs, Ready, Moves]); and_intros <;> first | decide +kernel | exact fun _ => rfl | exact ok_of (by decide +kernel) | rfl⟩

theorem wit_LinkRowsComplete_1 : ∃ (dt p : Nat) (s : State), let u := s.elapse dt;
  u.linkState p = 1 :=
  ⟨0, 0, (linked 1), by
    (try dsimp only [Runs, Ready, Moves]); and_intros <;> first | decide +kernel | exact fun _ => rfl | exact ok_of (by decide +kernel) | rfl⟩

theorem wit_LinkRowsComplete_2 : ∃ (dt p : Nat) (s : State), let u := s.elapse dt;
  u.linkState p = 2 ∧ u.fldOf (.mmvLinkCtl p) 28 2 = 3 :=
  ⟨0, 0, (linked 2), by
    (try dsimp only [Runs, Ready, Moves]); and_intros <;> first | decide +kernel | exact fun _ => rfl | exact ok_of (by decide +kernel) | rfl⟩

theorem wit_LinkRowsComplete_3 : ∃ (dt p : Nat) (s : State), let u := s.elapse dt;
  u.linkState p = 2 ∧ u.mmv.retrains = [] :=
  ⟨0, 0, ((linked 2).setReg (.mmvLinkCtl 0) 0x80000000), by
    (try dsimp only [Runs, Ready, Moves]); and_intros <;> first | decide +kernel | exact fun _ => rfl | exact ok_of (by decide +kernel) | rfl⟩

theorem wit_LinkRowsComplete_4 : ∃ (dt p : Nat) (s : State), let u := s.elapse dt;
  u.linkState p = 3 ∧ u.mmv.retrains = [] :=
  ⟨0, 0, (linked 3), by
    (try dsimp only [Runs, Ready, Moves]); and_intros <;> first | decide +kernel | exact fun _ => rfl | exact ok_of (by decide +kernel) | rfl⟩

theorem wit_LinkRowsComplete_5 : ∃ (dt p : Nat) (s : State), let u := s.elapse dt;
  p < 8 ∧ u.linkState p = 4 ∧ (u.port p).width ≤ 4 ∧ u.mmv.retrains = [] :=
  ⟨0, 0, (linked 4), by
    (try dsimp only [Runs, Ready, Moves]); and_intros <;> first | decide +kernel | exact fun _ => rfl | exact ok_of (by decide +kernel) | rfl⟩

theorem wit_LinkRowsComplete_6 : ∃ (dt p : Nat) (s : State), let u := s.elapse dt;
  p < 8 ∧ u.linkState p = 5 :=
  ⟨0, 0, (linked 5), by
    (try dsimp only [Runs, Ready, Moves]); and_intros <;> first | decide +kernel | exact fun _ => rfl | exact ok_of (by decide +kernel) | rfl⟩

theorem wit_LinkRowsComplete_7 : ∃ (dt p : Nat) (s : State), let u := s.elapse dt;
  u.linkState p = 5 :=
  ⟨0, 0, (linked 5), by
    (try dsimp only [Runs, Ready, Moves]); and_intros <;> first | decide +kernel | exact fun _ => rfl | exact ok_of (by decide +kernel) | rfl⟩

theorem wit_LinkRowsComplete_8 : ∃ (dt p : Nat) (s : State), let u := s.elapse dt;
  ∃ part, ∃ a, ∃ b : Bytes, let w := u.countWrap (.mmvLinkRxBytes p) 0 64 b.length;
  u.linkState p = 5 ∧ w.access (.part part) .other true a b.length = none :=
  ⟨0, 0, linked 5, 1, 0x1000, [1], by
    (try dsimp only [Runs, Ready, Moves]); and_intros <;> first | decide +kernel | exact fun _ => rfl | exact ok_of (by decide +kernel) | rfl⟩

theorem wit_LinkRowsComplete_9 : ∃ (dt p : Nat) (s : State), let u := s.elapse dt;
  u.linkState p = 5 :=
  ⟨0, 0, (linked 5), by
    (try dsimp only [Runs, Ready, Moves]); and_intros <;> first | decide +kernel | exact fun _ => rfl | exact ok_of (by decide +kernel) | rfl⟩

theorem wit_LinkRowsComplete_10 : ∃ (dt : Nat) (s : State), let u := s.elapse dt;
  ∃ id r, u.mmv.retrains = [r] ∧ r.cmd = id ∧ r.training = false ∧ u.onPort r.port = [] :=
  ⟨0, { linked 5 with mmv := { (linked 5).mmv with retrains := [⟨1, 0, 0, false, 0, false, []⟩] } }, 1, ⟨1, 0, 0, false, 0, false, []⟩, by
    (try dsimp only [Runs, Ready, Moves]); and_intros <;> first | decide +kernel | exact fun _ => rfl | exact ok_of (by decide +kernel) | rfl⟩

theorem wit_LinkRowsComplete_11 : ∃ (dt p : Nat) (s : State), let u := s.elapse dt;
  u.linkState p = 1 :=
  ⟨0, 0, (linked 1), by
    (try dsimp only [Runs, Ready, Moves]); and_intros <;> first | decide +kernel | exact fun _ => rfl | exact ok_of (by decide +kernel) | rfl⟩

theorem wit_LinkRowsComplete_12 : ∃ (dt p : Nat) (s : State), let u := s.elapse dt;
  ∃ n, let least := match u.fldOf (.mmvLinkCtl p) 28 2 with | 2 => 2 | 3 => 4 | _ => 1;
  u.linkState p = 2 ∧ least ≤ n ∧ (n = 1 ∨ n = 2 ∨ n = 4) :=
  ⟨0, 0, linked 2, 4, by
    (try dsimp only [Runs, Ready, Moves]); and_intros <;> first | decide +kernel | exact fun _ => rfl | exact ok_of (by decide +kernel) | rfl⟩

theorem wit_LinkRowsComplete_13 : ∃ (dt p : Nat) (s : State), let u := s.elapse dt;
  ∃ w, let least := match u.fldOf (.mmvLinkCtl p) 28 2 with | 2 => 2 | 3 => 4 | _ => 1;
  u.linkState p = 2 ∧ (∀ n, w = some n → n < least) :=
  ⟨0, 0, linked 2, some 2, by
    (try dsimp only [Runs, Ready, Moves]); and_intros <;> first | decide +kernel | exact fun _ => rfl | exact ok_of (by decide +kernel) | rfl | (intro _ h; cases h <;> decide +kernel) | exact List.mem_cons_self⟩

theorem wit_LinkRowsComplete_14 : ∃ (dt p : Nat) (s : State), let u := s.elapse dt;
  u.linkState p = 3 :=
  ⟨0, 0, (linked 3), by
    (try dsimp only [Runs, Ready, Moves]); and_intros <;> first | decide +kernel | exact fun _ => rfl | exact ok_of (by decide +kernel) | rfl⟩

theorem wit_LinkRowsComplete_15 : ∃ (dt p : Nat) (s : State), let u := s.elapse dt;
  u.linkState p = 4 :=
  ⟨0, 0, (linked 4), by
    (try dsimp only [Runs, Ready, Moves]); and_intros <;> first | decide +kernel | exact fun _ => rfl | exact ok_of (by decide +kernel) | rfl⟩

theorem wit_LinkRowsComplete_16 : ∃ (dt p : Nat) (s : State), let u := s.elapse dt;
  u.linkState p = 5 :=
  ⟨0, 0, (linked 5), by
    (try dsimp only [Runs, Ready, Moves]); and_intros <;> first | decide +kernel | exact fun _ => rfl | exact ok_of (by decide +kernel) | rfl⟩

theorem wit_LinkRowsComplete_17 : ∃ (dt p : Nat) (s : State), let u := s.elapse dt;
  u.linkState p = 5 :=
  ⟨0, 0, (linked 5), by
    (try dsimp only [Runs, Ready, Moves]); and_intros <;> first | decide +kernel | exact fun _ => rfl | exact ok_of (by decide +kernel) | rfl⟩

theorem wit_LinkRowsComplete_18 : ∃ (dt p : Nat) (s : State), let u := s.elapse dt;
  u.linkState p = 5 :=
  ⟨0, 0, (linked 5), by
    (try dsimp only [Runs, Ready, Moves]); and_intros <;> first | decide +kernel | exact fun _ => rfl | exact ok_of (by decide +kernel) | rfl⟩

theorem wit_LinkRowsComplete_19 : ∃ (dt : Nat) (s : State), let u := s.elapse dt;
  ∃ id r, u.mmv.retrains.find? (fun r => r.cmd == id && !r.training) = some r ∧ (u.onPort r.port = [] ∨ (r.timedOut = true ∧ ∀ q ∈ r.restarted, u.partState q ≠ .restarting)) :=
  ⟨0, { linked 5 with mmv := { (linked 5).mmv with retrains := [⟨1, 0, 0, false, 0, false, []⟩] } }, 1, ⟨1, 0, 0, false, 0, false, []⟩, by
    (try dsimp only [Runs, Ready, Moves]); and_intros <;> first | decide +kernel | exact fun _ => rfl | exact ok_of (by decide +kernel) | rfl⟩

theorem wit_CollectiveRowsComplete_0 : ∃ (dt id : Nat) (s : State), let u := s.elapse dt;
  u.mmv.colls.find? (fun k => k.id == id) = none :=
  ⟨0, 1, rdy, by
    (try dsimp only [Runs, Ready, Moves]); and_intros <;> first | decide +kernel | exact fun _ => rfl | exact ok_of (by decide +kernel) | rfl⟩

theorem wit_CollectiveRowsComplete_1 : ∃ (dt id : Nat) (s : State), let u := s.elapse dt;
  ∃ r k, u.mmv.colls = [k] ∧ k.id = id ∧ collAgree (u.ownRecord k) r = true ∧ (k.recs.any fun x => x.dev == r.dev) = false ∧ k.recs.length + 2 < k.n :=
  ⟨0, 5, (run (cm 0x0601 1 []) ({ rdy with mmv := { rdy.mmv with colls := [{ coll1 0 with recs := [], members := 7 }] } })), { rec1 rdy 0 with members := 7 }, { coll1 0 with members := 7 }, by
    (try dsimp only [Runs, Ready, Moves]); and_intros <;> first | decide +kernel | exact fun _ => rfl | exact ok_of (by decide +kernel) | rfl⟩

theorem wit_CollectiveRowsComplete_2 : ∃ (dt id : Nat) (s : State), let u := s.elapse dt;
  ∃ r k, u.mmv.colls = [k] ∧ k.id = id ∧ collAgree (u.ownRecord k) r = false :=
  ⟨0, 5, (run (cm 0x0601 1 []) ({ rdy with mmv := { rdy.mmv with colls := [{ coll1 4 with recs := [], members := 3 }] } })), { rec1 rdy 4 with op := 5 }, (coll1 4), by
    (try dsimp only [Runs, Ready, Moves]); and_intros <;> first | decide +kernel | exact fun _ => rfl | exact ok_of (by decide +kernel) | rfl⟩

theorem wit_CollectiveRowsComplete_3 : ∃ (dt id : Nat) (s : State), let u := s.elapse dt;
  let v := s.atRow dt id;
  ∃ c k d, let all := v.collAll k;
  Runs s dt id 0x0740 c ∧ u.mmv.colls.find? (fun k => k.cmd == id) = some k ∧ k.recs.length + 1 = k.n ∧ k.op = 4 ∧ k.dst = some d ∧ (∀ r ∈ all, r.op = 4) :=
  ⟨0, 1, (run (cm 0x740 1 []) { rdy with mmv := { rdy.mmv with colls := [{ coll1 4 with recs := [rec1 rdy 4], members := 3 }] } }), (cm 0x740 1 []), { coll1 4 with recs := [rec1 rdy 4] }, mvD, by
    (try dsimp only [Runs, Ready, Moves]); and_intros <;> first | decide +kernel | exact fun _ => rfl | exact ok_of (by decide +kernel) | rfl⟩

theorem wit_CollectiveRowsComplete_4 : ∃ (dt id : Nat) (s : State), let u := s.elapse dt;
  ∃ k m, u.mmv.colls.find? (fun k => k.cmd == id) = some k ∧ u.isRunning id = true ∧ ((u.cmd? id).any fun c => c.verdict.isNone) = true ∧ k.since + k.timeoutMs * 1000000 ≤ u.ns ∧ (k.devs.filter fun d => d != u.devNum && !(k.recs.any fun r => r.dev == d)) = [m] :=
  ⟨0, 1, (run (cm 0x740 1 []) { rdy with mmv := { rdy.mmv with colls := [{ coll1 4 with recs := [], members := 3 }] } }), (coll1 4), 1, by
    (try dsimp only [Runs, Ready, Moves]); and_intros <;> first | decide +kernel | exact fun _ => rfl | exact ok_of (by decide +kernel) | rfl⟩

theorem wit_CollectiveRowsComplete_5 : ∃ (dt id : Nat) (s : State), let u := s.elapse dt;
  ∃ r k, u.mmv.colls.find? (fun k => k.id == id) = some k ∧ collAgree (u.ownRecord k) r = true :=
  ⟨0, 5, (run (cm 0x0601 1 []) ({ rdy with mmv := { rdy.mmv with colls := [{ coll1 0 with recs := [], members := 7 }] } })), { rec1 rdy 0 with members := 7 }, { coll1 0 with members := 7 }, by
    (try dsimp only [Runs, Ready, Moves]); and_intros <;> first | decide +kernel | exact fun _ => rfl | exact ok_of (by decide +kernel) | rfl⟩

theorem wit_CollectiveRowsComplete_6 : ∃ (dt id : Nat) (s : State), let u := s.elapse dt;
  ∃ r k, u.mmv.colls.find? (fun k => k.id == id) = some k ∧ collAgree (u.ownRecord k) r = false :=
  ⟨0, 5, (run (cm 0x0601 1 []) ({ rdy with mmv := { rdy.mmv with colls := [{ coll1 4 with recs := [], members := 3 }] } })), { rec1 rdy 4 with op := 5 }, (coll1 4), by
    (try dsimp only [Runs, Ready, Moves]); and_intros <;> first | decide +kernel | exact fun _ => rfl | exact ok_of (by decide +kernel) | rfl⟩

theorem wit_CollectiveRowsComplete_7 : ∃ (dt id : Nat) (s : State), let u := s.elapse dt;
  ∃ c k, Runs s dt id 0x0740 c ∧ u.mmv.colls.find? (fun k => k.cmd == id) = some k ∧ k.recs.length + 1 = k.n :=
  ⟨0, 1, (run (cm 0x740 1 []) { rdy with mmv := { rdy.mmv with colls := [{ coll1 4 with recs := [rec1 rdy 4], members := 3 }] } }), (cm 0x740 1 []), { coll1 4 with recs := [rec1 rdy 4] }, by
    (try dsimp only [Runs, Ready, Moves]); and_intros <;> first | decide +kernel | exact fun _ => rfl | exact ok_of (by decide +kernel) | rfl⟩

theorem wit_CollectiveRowsComplete_8 : ∃ (dt id : Nat) (s : State), let u := s.elapse dt;
  ∃ k, u.mmv.colls.find? (fun k => k.cmd == id) = some k ∧ u.isRunning id = true ∧ ((u.cmd? id).any fun c => c.verdict.isNone) = true ∧ k.since + k.timeoutMs * 1000000 ≤ u.ns :=
  ⟨0, 1, (run (cm 0x740 1 []) { rdy with mmv := { rdy.mmv with colls := [{ coll1 4 with recs := [rec1 rdy 4], members := 3 }] } }), { coll1 4 with recs := [rec1 rdy 4] }, by
    (try dsimp only [Runs, Ready, Moves]); and_intros <;> first | decide +kernel | exact fun _ => rfl | exact ok_of (by decide +kernel) | rfl⟩

theorem wit_KvSetupCommandsComplete_0 : ∃ (dt id : Nat) (s : State) (c : Cmd), let u := s.elapse dt;
  let a := c.p 0x20 8;
  let n := c.p 0x28 8;
  Runs s dt id 0x0750 c ∧ (u.kvOn = false ∨ u.kvOwner = c.part) ∧ c.p 0x30 4 ≤ 65536 ∧ c.p 0x38 4 ≤ 4194304 ∧ a % 65536 = 0 ∧ 4096 + 256 * c.p 0x30 4 + 1024 * c.p 0x34 4 + 64 * c.p 0x38 4 + 32 * c.p 0x3C 4 ≤ n ∧ (∀ e ∈ u.kv.seqs, e.2.broken = true) ∧ ({ u with kv := {} } : State).access (.part c.part) .other true a n = none :=
  ⟨0, 1, (run (cm 0x0750 1 [(0x20, 8, 65536), (0x28, 8, 536870912), (0x30, 4, 65536), (0x34, 4, 1), (0x38, 4, 4194304), (0x3c, 4, 1)]) rdy), (cm 0x0750 1 [(0x20, 8, 65536), (0x28, 8, 536870912), (0x30, 4, 65536), (0x34, 4, 1), (0x38, 4, 4194304), (0x3c, 4, 1)]), by
    (try dsimp only [Runs, Ready, Moves]); and_intros <;> first | decide +kernel | exact fun _ => rfl | exact ok_of (by decide +kernel) | rfl⟩

theorem wit_KvSetupCommandsComplete_1 : ∃ (dt id : Nat) (s : State) (c : Cmd), let u := s.elapse dt;
  let p := c.p 0x20 1;
  let frames := c.p 0x2C 4;
  let ids := c.p 0x38 4;
  let base := (u.kv.pools.map fun e => e.2.ids).sum;
  let g : KvPool := ⟨c.p 0x21 1, c.p 0x22 1, (c.p 0x23 1).testBit 0, c.p 0x24 2, c.p 0x26 2, c.p 0x28 2, frames, c.p 0x30 8, ids,
      if c.p 0x3C 4 = 0 then frames / 16 else c.p 0x3C 4, c.p 0x40 1, cut c.params 0x28 16, base, 0, {}⟩;
  let k : KvPool := { g with size := g.pageBytes };
  Runs s dt id 0x0751 c ∧ u.kvOn = true ∧ u.kvOwner = c.part ∧ u.kvRole ≠ 3 ∧ p ≤ 7 ∧ 4 ≤ k.ptok ∧ k.ptok ≤ 8 ∧ 1 ≤ k.layers ∧ k.layers ≤ 512 ∧ 1 ≤ k.heads ∧ k.heads ≤ 64 ∧ 16 ≤ k.d ∧ k.d ≤ 256 ∧ k.d % 16 = 0 ∧ 1 ≤ frames ∧ k.addr % 65536 = 0 ∧ frames ≤ ids ∧ ids ≤ 16777216 ∧ base + ids ≤ u.kv.maxIds ∧ k.prefetch ≤ 64 ∧ 1 ≤ k.fmt ∧ k.fmt ≤ 4 ∧ u.kvPool? p = none ∧ u.access (.part c.part) .other true k.addr (frames * k.size) = none :=
  ⟨0, 1, (run (cm 0x0751 1 [(0x20, 1, 7), (0x21, 1, 8), (0x22, 1, 4), (0x23, 1, 1), (0x24, 2, 1), (0x26, 2, 1), (0x28, 2, 16), (0x2c, 4, 2), (0x30, 8, 3145728), (0x38, 4, 4), (0x40, 1, 64)]) kvon), (cm 0x0751 1 [(0x20, 1, 7), (0x21, 1, 8), (0x22, 1, 4), (0x23, 1, 1), (0x24, 2, 1), (0x26, 2, 1), (0x28, 2, 16), (0x2c, 4, 2), (0x30, 8, 3145728), (0x38, 4, 4), (0x40, 1, 64)]), by
    (try dsimp only [Runs, Ready, Moves]); and_intros <;> first | decide +kernel | exact fun _ => rfl | exact ok_of (by decide +kernel) | rfl⟩

theorem wit_KvSetupCommandsComplete_2 : ∃ (dt id : Nat) (s : State) (c : Cmd), let u := s.elapse dt;
  let p := c.p 0x20 1;
  ∃ k, Runs s dt id 0x0752 c ∧ u.kvOn = true ∧ u.kvOwner = c.part ∧ u.kvPool? p = some k ∧ (∀ e ∈ u.kvPages p, e.2.state < 2 ∨ 4 < e.2.state) ∧ c.p 0x21 1 = 0 :=
  ⟨0, 1, (run (cm 0x0752 1 [(0x20, 1, 2)]) kvon), (cm 0x0752 1 [(0x20, 1, 2)]), kvp, by
    (try dsimp only [Runs, Ready, Moves]); and_intros <;> first | decide +kernel | exact fun _ => rfl | exact ok_of (by decide +kernel) | rfl⟩

theorem wit_KvSetupCommandsComplete_3 : ∃ (dt id : Nat) (s : State) (c : Cmd), let u := s.elapse dt;
  let p := c.p 0x20 1;
  ∃ k, let e : Cellar := ⟨c.p 0x21 1, c.p 0x22 1, c.p 0x24 4, c.p 0x28 8, c.p 0x30 4, c.p 0x38 8⟩;
  let len := e.slots * (k.size + 64);
  Runs s dt id 0x0752 c ∧ u.kvOn = true ∧ u.kvOwner = c.part ∧ u.kvPool? p = some k ∧ (∀ e ∈ u.kvPages p, e.2.state < 2 ∨ 4 < e.2.state) ∧ (e.target = 1 ∨ e.target = 2) ∧ (e.target = 1 → e.dev ≤ 23) ∧ 1 ≤ e.timeoutMs ∧ e.timeoutMs ≤ 10000 ∧ 1 ≤ e.slots ∧ e.apOff % 0x40000000 = 0 ∧ e.apOff + len ≤ cellarSize ∧ (∀ o ∈ u.kv.pools, o.1 = p ∨ o.2.cellar.target = 0 ∨ meets e.apOff len o.2.cellar.apOff o.2.cellarSize = false) :=
  ⟨0, 1, (run (cm 0x0752 1 [(0x20, 1, 2), (0x21, 1, 2), (0x24, 4, 10000), (0x30, 4, 1), (0x38, 8, 1073741824)]) kvon), (cm 0x0752 1 [(0x20, 1, 2), (0x21, 1, 2), (0x24, 4, 10000), (0x30, 4, 1), (0x38, 8, 1073741824)]), kvp, by
    (try dsimp only [Runs, Ready, Moves]); and_intros <;> first | decide +kernel | exact fun _ => rfl | exact ok_of (by decide +kernel) | rfl⟩

theorem wit_KvSetupCommandsComplete_4 : ∃ (dt id : Nat) (s : State) (c : Cmd), let u := s.elapse dt;
  Runs s dt id 0x075C c ∧ u.kvOn = true ∧ u.kvOwner = c.part ∧ c.p 0x20 1 ≤ 3 :=
  ⟨0, 1, (run (cm 0x075C 1 [(0x20, 1, 3)]) kvon), (cm 0x075C 1 [(0x20, 1, 3)]), by
    (try dsimp only [Runs, Ready, Moves]); and_intros <;> first | decide +kernel | exact fun _ => rfl | exact ok_of (by decide +kernel) | rfl⟩

theorem wit_KvSequenceCommandsComplete_0 : ∃ (dt id : Nat) (s : State) (c : Cmd), let u := s.elapse dt;
  ∃ k q, Runs s dt id 0x0753 c ∧ u.kvOn = true ∧ u.kvOwner = c.part ∧ u.kvPool? (c.p 0x20 1) = some k ∧ u.freeSeq = some q ∧ ((c.p 0x21 1).testBit 0 = false ∨ c.p 0x24 4 = 0) ∧ u.ptRoom 0 0 = true :=
  ⟨0, 1, (run (cm 0x0753 1 [(0x20, 1, 2)]) kvon), (cm 0x0753 1 [(0x20, 1, 2)]), kvp, 0, by
    (try dsimp only [Runs, Ready, Moves]); and_intros <;> first | decide +kernel | exact fun _ => rfl | exact ok_of (by decide +kernel) | rfl⟩

theorem wit_KvSequenceCommandsComplete_1 : ∃ (dt id : Nat) (s : State) (c : Cmd), let u := s.elapse dt;
  ∃ k q d, let p := c.p 0x20 1;
  let n := c.p 0x24 4;
  let blocks := Nat.min 8192 (n / k.tokens);
  let m := if k.sharing then u.matchPrefix p (blockHashes k ((u.flatCodes d).take n) blocks 0) 0 else [];
  Runs s dt id 0x0753 c ∧ u.kvOn = true ∧ u.kvOwner = c.part ∧ u.kvPool? p = some k ∧ u.freeSeq = some q ∧ (c.p 0x21 1).testBit 0 = true ∧ n ≠ 0 ∧ u.readDesc c (c.p 0x28 8) = .ok d ∧ d.dev = 255 ∧ d.mark = true ∧ d.fmt = 11 ∧ n ≤ d.ext 0 * d.count ∧ u.tensorErr (.part c.part) .other false d = none ∧ u.tensorUe d = none ∧ u.ptRoom 0 m.length = true :=
  ⟨0, 1, (run (cm 0x0753 1 [(0x20, 1, 2), (0x21, 1, 1), (0x24, 4, 16), (0x28, 8, 4096)]) tokD), (cm 0x0753 1 [(0x20, 1, 2), (0x21, 1, 1), (0x24, 4, 16), (0x28, 8, 4096)]), kvp, 0, (Desc.parse 0x1000 (dsc 0x4000 11 [16] [])), by
    (try dsimp only [Runs, Ready, Moves]); and_intros <;> first | decide +kernel | exact fun _ => rfl | exact ok_of (by decide +kernel) | rfl⟩

theorem wit_KvSequenceCommandsComplete_2 : ∃ (dt id : Nat) (s : State) (c : Cmd), let u := s.elapse dt;
  ∃ x k, let q := c.p 0x20 4;
  ∃ n, u.kvOn = true ∧ u.kvOwner = c.part ∧ u.kvSeq? q = some x ∧ x.broken = false ∧ u.kvPool? x.pool = some k ∧ Runs s dt id 0x0754 c ∧ u.freeSeq = some n ∧ u.ptRoom 0 x.table.length = true :=
  ⟨0, 1, (run (cm 0x0754 1 [(0x20, 4, 3)]) (kvseq { pool := 2, len := 5, table := [3] })), (cm 0x0754 1 [(0x20, 4, 3)]), { pool := 2, len := 5, table := [3] }, kvp, 0, by
    (try dsimp only [Runs, Ready, Moves]); and_intros <;> first | decide +kernel | exact fun _ => rfl | exact ok_of (by decide +kernel) | rfl⟩

theorem wit_KvSequenceCommandsComplete_3 : ∃ (dt id : Nat) (s : State) (c : Cmd), let u := s.elapse dt;
  ∃ x k, let q := c.p 0x20 4;
  u.kvOn = true ∧ u.kvOwner = c.part ∧ u.kvSeq? q = some x ∧ x.broken = false ∧ u.kvPool? x.pool = some k ∧ Runs s dt id 0x0755 c ∧ c.p 0x24 4 ≤ x.len :=
  ⟨0, 1, (run (cm 0x0755 1 [(0x20, 4, 3), (0x24, 4, 5)]) (kvseq { pool := 2, len := 5, table := [3] })), (cm 0x0755 1 [(0x20, 4, 3), (0x24, 4, 5)]), { pool := 2, len := 5, table := [3] }, kvp, by
    (try dsimp only [Runs, Ready, Moves]); and_intros <;> first | decide +kernel | exact fun _ => rfl | exact ok_of (by decide +kernel) | rfl⟩

theorem wit_KvSequenceCommandsComplete_4 : ∃ (dt id : Nat) (s : State) (c : Cmd), let u := s.elapse dt;
  ∃ x, let q := c.p 0x20 4;
  u.kvOn = true ∧ u.kvOwner = c.part ∧ u.kvSeq? q = some x ∧ Runs s dt id 0x0756 c :=
  ⟨0, 1, (run (cm 0x0756 1 [(0x20, 4, 3)]) (kvseq { pool := 2, len := 5, table := [3] })), (cm 0x0756 1 [(0x20, 4, 3)]), { pool := 2, len := 5, table := [3] }, by
    (try dsimp only [Runs, Ready, Moves]); and_intros <;> first | decide +kernel | exact fun _ => rfl | exact ok_of (by decide +kernel) | rfl⟩

theorem wit_KvSequenceCommandsComplete_5 : ∃ (dt id : Nat) (s : State) (c : Cmd), let u := s.elapse dt;
  ∃ x, let q := c.p 0x20 4;
  u.kvOn = true ∧ u.kvOwner = c.part ∧ u.kvSeq? q = some x ∧ Runs s dt id 0x075D c :=
  ⟨0, 1, (run (cm 0x075D 1 [(0x20, 4, 3)]) (kvseq { pool := 2, len := 5, table := [3] })), (cm 0x075D 1 [(0x20, 4, 3)]), { pool := 2, len := 5, table := [3] }, by
    (try dsimp only [Runs, Ready, Moves]); and_intros <;> first | decide +kernel | exact fun _ => rfl | exact ok_of (by decide +kernel) | rfl⟩

theorem wit_KvDataCommandsComplete_0 : ∃ (dt id : Nat) (s : State) (c : Cmd) (x : KvSeq) (k : KvPool), let u := s.elapse dt;
  let q := c.p 0x20 4;
  ∃ ds, let n := c.p 0x24 4;
  let entries := ceilDiv (x.len + n) k.tokens;
  let first := x.len / k.tokens;
  let part := x.len % k.tokens ≠ 0 ∧ n ≠ 0;
  let page := u.kvPage x.pool (x.table.getD first 0);
  let cow := part ∧ 1 < page.refs;
  let need := entries - x.table.length + (if cow then 1 else 0);
  u.kvOn = true ∧ u.kvOwner = c.part ∧ u.kvSeq? q = some x ∧ x.broken = false ∧ u.kvPool? x.pool = some k ∧ Runs s dt id 0x0757 c ∧ u.readDescs c (fun o => c.p o 8) [(0x28, false), (0x30, false)] = .ok ds ∧ appendErr c k ds = none ∧ (∀ e ∈ ds, u.tensorErr (.part c.part) .other false e.2 = none) ∧ (∀ e ∈ ds, u.tensorUe e.2 = none) ∧ entries ≤ 8192 ∧ u.ptRoom x.table.length entries = true ∧ (part → page.state ≠ 3 ∧ page.state ≠ 4) ∧ need ≤ (u.freeFrames x.pool k).length ∧ need ≤ (u.freeIds x.pool k).length :=
  ⟨0, 1, (run (cm 0x0757 1 [(0x20, 4, 3), (0x24, 4, 2), (0x28, 8, 4096), (0x30, 8, 8192)]) (((kvseq { pool := 2, len := 5, table := [3] }).wr 0x1000 (dsc 0x4000 1 [16, 2, 1, 1] [64, 128, 128])).wr 0x2000 (dsc 0x8000 1 [16, 2, 1, 1] [64, 128, 128]))), (cm 0x0757 1 [(0x20, 4, 3), (0x24, 4, 2), (0x28, 8, 4096), (0x30, 8, 8192)]), { pool := 2, len := 5, table := [3] }, kvp, [(0x28, (Desc.parse 0x1000 (dsc 0x4000 1 [16, 2, 1, 1] [64, 128, 128]))), (0x30, (Desc.parse 0x2000 (dsc 0x8000 1 [16, 2, 1, 1] [64, 128, 128])))], by
    (try dsimp only [Runs, Ready, Moves]); and_intros <;> first | decide +kernel | exact fun _ => rfl | exact ok_of (by decide +kernel) | rfl⟩

theorem wit_KvDataCommandsComplete_1 : ∃ (dt id : Nat) (s : State) (c : Cmd) (x : KvSeq) (k : KvPool), let u := s.elapse dt;
  let q := c.p 0x20 4;
  ∃ d, u.kvOn = true ∧ u.kvOwner = c.part ∧ u.kvSeq? q = some x ∧ x.broken = false ∧ u.kvPool? x.pool = some k ∧ Runs s dt id 0x0758 c ∧ k.sharing = true ∧ u.readDesc c (c.p 0x28 8) = .ok d ∧ d.dev = 255 ∧ d.mark = true ∧ d.fmt = 11 ∧ x.len ≤ d.ext 0 * d.count ∧ u.tensorErr (.part c.part) .other false d = none ∧ u.tensorUe d = none :=
  ⟨0, 1, (run (cm 0x0758 1 [(0x20, 4, 3), (0x28, 8, 4096)]) ((kvseq { pool := 2, len := 5, table := [3] }).wr 0x1000 (dsc 0x4000 11 [16] []))), (cm 0x0758 1 [(0x20, 4, 3), (0x28, 8, 4096)]), { pool := 2, len := 5, table := [3] }, kvp, (Desc.parse 0x1000 (dsc 0x4000 11 [16] [])), by
    (try dsimp only [Runs, Ready, Moves]); and_intros <;> first | decide +kernel | exact fun _ => rfl | exact ok_of (by decide +kernel) | rfl⟩

theorem wit_KvDataCommandsComplete_2 : ∃ (dt id : Nat) (s : State) (c : Cmd) (x : KvSeq) (k : KvPool), let u := s.elapse dt;
  let q := c.p 0x20 4;
  u.kvOn = true ∧ u.kvOwner = c.part ∧ u.kvSeq? q = some x ∧ x.broken = false ∧ u.kvPool? x.pool = some k ∧ (∀ i ∈ x.table, (u.kvPage x.pool i).state ≠ 3 ∧ (u.kvPage x.pool i).state ≠ 4) ∧ Runs s dt id 0x0759 c :=
  ⟨0, 1, (run (cm 0x0759 1 [(0x20, 4, 3)]) (kvseq { pool := 2, len := 5, table := [3] })), (cm 0x0759 1 [(0x20, 4, 3)]), { pool := 2, len := 5, table := [3] }, kvp, by
    (try dsimp only [Runs, Ready, Moves]); and_intros <;> first | decide +kernel | exact fun _ => rfl | exact ok_of (by decide +kernel) | rfl⟩

theorem wit_KvDataCommandsComplete_3 : ∃ (dt id : Nat) (s : State) (c : Cmd) (x : KvSeq) (k : KvPool), let u := s.elapse dt;
  let q := c.p 0x20 4;
  let dev := c.p 0x24 1;
  u.kvOn = true ∧ u.kvOwner = c.part ∧ u.kvSeq? q = some x ∧ x.broken = false ∧ u.kvPool? x.pool = some k ∧ (∀ i ∈ x.table, (u.kvPage x.pool i).state ≠ 3 ∧ (u.kvPage x.pool i).state ≠ 4) ∧ Runs s dt id 0x075A c ∧ u.kvRole ≠ 2 ∧ u.kvRole ≠ 3 ∧ dev ≤ 23 ∧ u.linkRoute dev ≠ none ∧ c.aux = [] :=
  ⟨0, 1, (run (cm 0x075A 1 [(0x20, 4, 3), (0x24, 1, 1)]) (((kvseq { pool := 2, len := 5, table := [3] }).setReg (.mmvLinkStat 0) 0x5000000).setReg (.mmvRoute 1) 0)), (cm 0x075A 1 [(0x20, 4, 3), (0x24, 1, 1)]), { pool := 2, len := 5, table := [3] }, kvp, by
    (try dsimp only [Runs, Ready, Moves]); and_intros <;> first | decide +kernel | exact fun _ => rfl | exact ok_of (by decide +kernel) | rfl⟩

theorem wit_KvDataCommandsComplete_4 : ∃ (dt id : Nat) (s : State) (c : Cmd), let u := s.elapse dt;
  let p := c.p 0x20 1;
  let peer := c.p 0x21 1;
  ∃ m g n, Runs s dt id 0x075B c ∧ u.kvOn = true ∧ u.kvOwner = c.part ∧ u.kvRole ≠ 1 ∧ u.kvRole ≠ 3 ∧ u.kvPool? p = some g ∧ peer ≤ 23 ∧ 1 ≤ c.p 0x24 4 ∧ c.p 0x24 4 ≤ 60000 ∧ u.kv.inbox = [m] ∧ m.peer = peer ∧ m.matchId = c.p 0x28 4 ∧ m.ptok = g.ptok ∧ m.layers = g.layers ∧ m.heads = g.heads ∧ m.d = g.d ∧ m.fmt = g.fmt ∧ u.freeSeq = some n ∧ ceilDiv m.len g.tokens ≤ 8192 ∧ u.ptRoom 0 (ceilDiv m.len g.tokens) = true ∧ ceilDiv m.len g.tokens ≤ (u.freeFrames p g).length ∧ ceilDiv m.len g.tokens ≤ (u.freeIds p g).length :=
  ⟨0, 1, (run (cm 0x075B 1 [(0x20, 1, 2), (0x21, 1, 1), (0x24, 4, 60000), (0x28, 4, 9)]) { kvon with kv := { kvon.kv with inbox := [⟨1, 9, 4, 1, 1, 16, 1, 5, {}, []⟩] } }), (cm 0x075B 1 [(0x20, 1, 2), (0x21, 1, 1), (0x24, 4, 60000), (0x28, 4, 9)]), ⟨1, 9, 4, 1, 1, 16, 1, 5, {}, []⟩, kvp, 0, by
    (try dsimp only [Runs, Ready, Moves]); and_intros <;> first | decide +kernel | exact fun _ => rfl | exact ok_of (by decide +kernel) | rfl⟩

theorem wit_KvDataCommandsComplete_5 : ∃ (dt id : Nat) (s : State) (c : Cmd) (x : KvSeq) (k : KvPool), let u := s.elapse dt;
  let q := c.p 0x20 4;
  ∃ ds, let n := c.p 0x24 4;
  let entries := ceilDiv (x.len + n) k.tokens;
  let first := x.len / k.tokens;
  let more := entries - x.table.length;
  let part := x.len % k.tokens ≠ 0 ∧ n ≠ 0;
  let cow := part ∧ 1 < (u.kvPage x.pool (x.table.getD first 0)).refs;
  let f := u.fetchAll x.pool k (if part then [x.table.getD first 0] else []);
  let need := f.1.kvNeed x.pool k (more + if cow then 1 else 0) (more + if cow then 1 else 0);
  u.kvOn = true ∧ u.kvOwner = c.part ∧ u.kvSeq? q = some x ∧ x.broken = false ∧ u.kvPool? x.pool = some k ∧ Runs s dt id 0x0757 c ∧ u.readDescs c (fun o => c.p o 8) [(0x28, false), (0x30, false)] = .ok ds ∧ appendErr c k ds = none ∧ (∀ e ∈ ds, u.tensorErr (.part c.part) .other false e.2 = none) ∧ (∀ e ∈ ds, u.tensorUe e.2 = none) ∧ entries ≤ 8192 ∧ u.ptRoom x.table.length entries = true ∧ f.2 = 0 ∧ need.2 = 0 :=
  ⟨0, 1, (run (cm 0x0757 1 [(0x20, 4, 3), (0x24, 4, 2), (0x28, 8, 4096), (0x30, 8, 8192)]) (((kvseq { pool := 2, len := 5, table := [3] }).wr 0x1000 (dsc 0x4000 1 [16, 2, 1, 1] [64, 128, 128])).wr 0x2000 (dsc 0x8000 1 [16, 2, 1, 1] [64, 128, 128]))), (cm 0x0757 1 [(0x20, 4, 3), (0x24, 4, 2), (0x28, 8, 4096), (0x30, 8, 8192)]), { pool := 2, len := 5, table := [3] }, kvp, [(0x28, (Desc.parse 0x1000 (dsc 0x4000 1 [16, 2, 1, 1] [64, 128, 128]))), (0x30, (Desc.parse 0x2000 (dsc 0x8000 1 [16, 2, 1, 1] [64, 128, 128])))], by
    (try dsimp only [Runs, Ready, Moves]); and_intros <;> first | decide +kernel | exact fun _ => rfl | exact ok_of (by decide +kernel) | rfl⟩

theorem wit_KvDataCommandsComplete_6 : ∃ (dt id : Nat) (s : State) (c : Cmd) (x : KvSeq) (k : KvPool), let u := s.elapse dt;
  let q := c.p 0x20 4;
  ∃ d, u.kvOn = true ∧ u.kvOwner = c.part ∧ u.kvSeq? q = some x ∧ x.broken = false ∧ u.kvPool? x.pool = some k ∧ Runs s dt id 0x0758 c ∧ u.readDesc c (c.p 0x28 8) = .ok d ∧ d.dev = 255 ∧ d.mark = true ∧ d.fmt = 11 ∧ x.len ≤ d.ext 0 * d.count ∧ u.tensorErr (.part c.part) .other false d = none ∧ u.tensorUe d = none :=
  ⟨0, 1, (run (cm 0x0758 1 [(0x20, 4, 3), (0x28, 8, 4096)]) ((kvseq { pool := 2, len := 5, table := [3] }).wr 0x1000 (dsc 0x4000 11 [16] []))), (cm 0x0758 1 [(0x20, 4, 3), (0x28, 8, 4096)]), { pool := 2, len := 5, table := [3] }, kvp, (Desc.parse 0x1000 (dsc 0x4000 11 [16] [])), by
    (try dsimp only [Runs, Ready, Moves]); and_intros <;> first | decide +kernel | exact fun _ => rfl | exact ok_of (by decide +kernel) | rfl⟩

theorem wit_KvDataCommandsComplete_7 : ∃ (dt id : Nat) (s : State) (c : Cmd) (x : KvSeq) (k : KvPool), let u := s.elapse dt;
  let q := c.p 0x20 4;
  let r := u.fetchAll x.pool k x.table;
  u.kvOn = true ∧ u.kvOwner = c.part ∧ u.kvSeq? q = some x ∧ x.broken = false ∧ u.kvPool? x.pool = some k ∧ Runs s dt id 0x0759 c ∧ r.2 = 0 :=
  ⟨0, 1, (run (cm 0x0759 1 [(0x20, 4, 3)]) (kvseq { pool := 2, len := 5, table := [3] })), (cm 0x0759 1 [(0x20, 4, 3)]), { pool := 2, len := 5, table := [3] }, kvp, by
    (try dsimp only [Runs, Ready, Moves]); and_intros <;> first | decide +kernel | exact fun _ => rfl | exact ok_of (by decide +kernel) | rfl⟩

theorem wit_KvDataCommandsComplete_8 : ∃ (dt id : Nat) (s : State) (c : Cmd) (x : KvSeq) (k : KvPool), let u := s.elapse dt;
  let q := c.p 0x20 4;
  let r := u.fetchAll x.pool k x.table;
  u.kvOn = true ∧ u.kvOwner = c.part ∧ u.kvSeq? q = some x ∧ x.broken = false ∧ u.kvPool? x.pool = some k ∧ Runs s dt id 0x0759 c ∧ r.2 = 1 :=
  ⟨0, 1, run (cm 0x0759 1 [(0x20, 4, 3)]) { kvcell 3 with kv := { (kvcell 3).kv with seqs := [(3, { pool := 2, len := 5, table := [3] })] } }, (cm 0x0759 1 [(0x20, 4, 3)]), { pool := 2, len := 5, table := [3] }, { kvp with cellar := ⟨2, 0, 1, 0, 16, 0⟩ }, by
    (try dsimp only [Runs, Ready, Moves]); and_intros <;> first | decide +kernel | exact fun _ => rfl | exact ok_of (by decide +kernel) | rfl⟩

theorem wit_KvDataCommandsComplete_9 : ∃ (dt id : Nat) (s : State) (c : Cmd) (x : KvSeq) (k : KvPool), let u := s.elapse dt;
  let q := c.p 0x20 4;
  let r := u.fetchAll x.pool k x.table;
  let dev := c.p 0x24 1;
  u.kvOn = true ∧ u.kvOwner = c.part ∧ u.kvSeq? q = some x ∧ x.broken = false ∧ u.kvPool? x.pool = some k ∧ Runs s dt id 0x075A c ∧ u.kvRole ≠ 2 ∧ u.kvRole ≠ 3 ∧ dev ≤ 23 ∧ u.linkRoute dev ≠ none ∧ c.aux.contains 1 = false ∧ r.2 = 0 :=
  ⟨0, 1, (run (cm 0x075A 1 [(0x20, 4, 3), (0x24, 1, 1)]) (((kvseq { pool := 2, len := 5, table := [3] }).setReg (.mmvLinkStat 0) 0x5000000).setReg (.mmvRoute 1) 0)), (cm 0x075A 1 [(0x20, 4, 3), (0x24, 1, 1)]), { pool := 2, len := 5, table := [3] }, kvp, by
    (try dsimp only [Runs, Ready, Moves]); and_intros <;> first | decide +kernel | exact fun _ => rfl | exact ok_of (by decide +kernel) | rfl⟩

theorem wit_KvDataCommandsComplete_10 : ∃ (dt id : Nat) (s : State) (c : Cmd), let u := s.elapse dt;
  let p := c.p 0x20 1;
  let peer := c.p 0x21 1;
  ∃ m g n, let len := ceilDiv m.len g.tokens;
  let r := u.kvNeed p g len len;
  Runs s dt id 0x075B c ∧ u.kvOn = true ∧ u.kvOwner = c.part ∧ u.kvRole ≠ 1 ∧ u.kvRole ≠ 3 ∧ u.kvPool? p = some g ∧ peer ≤ 23 ∧ 1 ≤ c.p 0x24 4 ∧ c.p 0x24 4 ≤ 60000 ∧ u.kv.inbox.find? (fun m => m.peer == peer && m.matchId == c.p 0x28 4) = some m ∧ m.ptok = g.ptok ∧ m.layers = g.layers ∧ m.heads = g.heads ∧ m.d = g.d ∧ m.fmt = g.fmt ∧ u.freeSeq = some n ∧ len ≤ 8192 ∧ u.ptRoom 0 len = true ∧ r.2 = 0 :=
  ⟨0, 1, (run (cm 0x075B 1 [(0x20, 1, 2), (0x21, 1, 1), (0x24, 4, 60000), (0x28, 4, 9)]) { kvon with kv := { kvon.kv with inbox := [⟨1, 9, 4, 1, 1, 16, 1, 5, {}, []⟩] } }), (cm 0x075B 1 [(0x20, 1, 2), (0x21, 1, 1), (0x24, 4, 60000), (0x28, 4, 9)]), ⟨1, 9, 4, 1, 1, 16, 1, 5, {}, []⟩, kvp, 0, by
    (try dsimp only [Runs, Ready, Moves]); and_intros <;> first | decide +kernel | exact fun _ => rfl | exact ok_of (by decide +kernel) | rfl⟩

theorem wit_KvRowsComplete_0 : ∃ (dt pool id : Nat) (s : State), let u := s.elapse dt;
  let p := u.kvPage pool id;
  ∃ k, u.kvPool? pool = some k ∧ p.state = 2 ∧ k.cellar.target = 2 ∧ u.busMaster = true :=
  ⟨0, 2, 3, (kvcell 2), { kvp with cellar := ⟨2, 0, 1, 0, 16, 0⟩ }, by
    (try dsimp only [Runs, Ready, Moves]); and_intros <;> first | decide +kernel | exact fun _ => rfl | exact ok_of (by decide +kernel) | rfl⟩

theorem wit_KvRowsComplete_1 : ∃ (dt pool id : Nat) (s : State), let u := s.elapse dt;
  let p := u.kvPage pool id;
  ∃ k, u.kvPool? pool = some k ∧ p.state = 4 ∧ k.cellar.target = 2 ∧ u.busMaster = true ∧ u.kv.seqs = [] ∧ u.kv.names = [] ∧ 1 ≤ p.refs ∧ k.size = k.pageBytes :=
  ⟨0, 2, 3, (kvcell 4), { kvp with cellar := ⟨2, 0, 1, 0, 16, 0⟩ }, by
    (try dsimp only [Runs, Ready, Moves]); and_intros <;> first | decide +kernel | exact fun _ => rfl | exact ok_of (by decide +kernel) | rfl⟩

theorem wit_KvRowsComplete_2 : ∃ (dt pool id : Nat) (s : State), let u := s.elapse dt;
  let p := u.kvPage pool id;
  ∃ k f, u.kvPool? pool = some k ∧ u.kv.fetches.find? (fun f => f.pool == pool && f.page == id) = some f ∧ f.since + k.cellar.timeoutMs * 1000000 ≤ u.ns ∧ p.state = 4 ∧ u.kv.seqs = [] :=
  ⟨500000, 2, 3, { kvcell 4 with kv := { (kvcell 4).kv with fetches := [⟨2, 3, 0⟩] } }, { kvp with cellar := ⟨2, 0, 1, 0, 16, 0⟩ }, ⟨2, 3, 0⟩, by
    (try dsimp only [Runs, Ready, Moves]); and_intros <;> first | decide +kernel | exact fun _ => rfl | exact ok_of (by decide +kernel) | rfl⟩

theorem wit_KvRowsComplete_3 : ∃ (dt pool : Nat) (s : State), let u := s.elapse dt;
  ∃ k n, u.kvPool? pool = some k ∧ (u.freeFrames pool k).length < k.reserve ∧ u.nodeVictim (some pool) true = some n :=
  ⟨0, 2, { kvpage 1 with kv := { (kvpage 1).kv with pools := [(2, { kvp with reserve := 16 })], nodes := [⟨2, 7, 0, 0, 3⟩] } }, { kvp with reserve := 16 }, ⟨2, 7, 0, 0, 3⟩, by
    (try dsimp only [Runs, Ready, Moves]); and_intros <;> first | decide +kernel | exact fun _ => rfl | exact ok_of (by decide +kernel) | rfl⟩

theorem wit_KvRowsComplete_4 : ∃ (dt pool : Nat) (s : State), let u := s.elapse dt;
  ∃ k, u.kvPool? pool = some k ∧ k.reserve ≤ (u.freeFrames pool k).length :=
  ⟨0, 2, (kvpage 1), kvp, by
    (try dsimp only [Runs, Ready, Moves]); and_intros <;> first | decide +kernel | exact fun _ => rfl | exact ok_of (by decide +kernel) | rfl⟩

theorem wit_KvRowsComplete_5 : ∃ (dt id : Nat) (s : State), let u := s.elapse dt;
  ∃ w e rest, u.kv.walks = [w] ∧ w.cmd = id ∧ w.todo = e :: rest ∧ (u.kvPool? w.pool).isSome = true ∧ u.walkPage w e = none ∧ (u.queued w.job.core).length < 64 :=
  ⟨0, 1, (run (cm 0x0601 1 []) ({ kvon with kv := { kvon.kv with walks := [⟨1, tj 4, 2, [(0, 0)], false⟩] } })), ⟨1, tj 4, 2, [(0, 0)], false⟩, (0, 0), [], by
    (try dsimp only [Runs, Ready, Moves]); and_intros <;> first | decide +kernel | exact fun _ => rfl | exact ok_of (by decide +kernel) | rfl⟩

theorem wit_KvRowsComplete_6 : ∃ (dt id : Nat) (s : State), let u := s.elapse dt;
  ∃ c, u.runs id 0x075B = some c ∧ u.kv.inbox = [] ∧ c.ranAt + c.p 0x24 4 * 1000000 ≤ u.now :=
  ⟨0, 1, (run (cm 0x075B 1 []) rdy), (cm 0x075B 1 []), by
    (try dsimp only [Runs, Ready, Moves]); and_intros <;> first | decide +kernel | exact fun _ => rfl | exact ok_of (by decide +kernel) | rfl⟩

theorem wit_KvRowsComplete_7 : ∃ (dt pool id : Nat) (s : State), let u := s.elapse dt;
  let p := u.kvPage pool id;
  ∃ k, u.kvPool? pool = some k ∧ p.state = 2 ∧ u.cellarUp k = false :=
  ⟨0, 2, 3, kvpage 2, kvp, by
    (try dsimp only [Runs, Ready, Moves]); and_intros <;> first | decide +kernel | exact fun _ => rfl | exact ok_of (by decide +kernel) | rfl⟩

theorem wit_KvRowsComplete_8 : ∃ (dt pool id : Nat) (s : State), let u := s.elapse dt;
  let p := u.kvPage pool id;
  ∃ k, u.kvPool? pool = some k ∧ p.state = 2 ∧ u.cellarUp k = true :=
  ⟨0, 2, 3, (kvcell 2), { kvp with cellar := ⟨2, 0, 1, 0, 16, 0⟩ }, by
    (try dsimp only [Runs, Ready, Moves]); and_intros <;> first | decide +kernel | exact fun _ => rfl | exact ok_of (by decide +kernel) | rfl⟩

theorem wit_KvRowsComplete_9 : ∃ (dt pool id : Nat) (s : State), let u := s.elapse dt;
  let p := u.kvPage pool id;
  ∃ k, u.kvPool? pool = some k ∧ p.state = 4 ∧ u.cellarUp k = true :=
  ⟨0, 2, 3, kvcell 4, { kvp with cellar := ⟨2, 0, 1, 0, 16, 0⟩ }, by
    (try dsimp only [Runs, Ready, Moves]); and_intros <;> first | decide +kernel | exact fun _ => rfl | exact ok_of (by decide +kernel) | rfl⟩

theorem wit_KvRowsComplete_10 : ∃ (dt pool id : Nat) (s : State), let u := s.elapse dt;
  let p := u.kvPage pool id;
  ∃ k, ∃ f, u.kvPool? pool = some k ∧ u.kv.fetches.find? (fun f => f.pool == pool && f.page == id) = some f ∧ f.since + k.cellar.timeoutMs * 1000000 ≤ u.ns ∧ p.state = 4 :=
  ⟨500000, 2, 3, { kvcell 4 with kv := { (kvcell 4).kv with fetches := [⟨2, 3, 0⟩] } }, { kvp with cellar := ⟨2, 0, 1, 0, 16, 0⟩ }, ⟨2, 3, 0⟩, by
    (try dsimp only [Runs, Ready, Moves]); and_intros <;> first | decide +kernel | exact fun _ => rfl | exact ok_of (by decide +kernel) | rfl⟩

theorem wit_KvRowsComplete_11 : ∃ (dt pool : Nat) (s : State), let u := s.elapse dt;
  ∃ k, u.kvPool? pool = some k ∧ (u.freeFrames pool k).length < k.reserve ∧ u.nodeVictim (some pool) true = none :=
  ⟨0, 2, { kvon with kv := { kvon.kv with pools := [(2, { kvp with reserve := 17 })] } }, { kvp with reserve := 17 }, by
    (try dsimp only [Runs, Ready, Moves]); and_intros <;> first | decide +kernel | exact fun _ => rfl | exact ok_of (by decide +kernel) | rfl⟩

theorem wit_KvRowsComplete_12 : ∃ (dt id : Nat) (s : State), let u := s.elapse dt;
  ∃ w e rest k, u.kv.walks.find? (fun w => w.cmd == id) = some w ∧ w.todo = e :: rest ∧ u.kvPool? w.pool = some k ∧ u.walkPage w e = none :=
  ⟨0, 1, { kvon with kv := { kvon.kv with walks := [⟨1, tj 4, 2, [(0, 0)], false⟩] } }, ⟨1, tj 4, 2, [(0, 0)], false⟩, (0, 0), [], kvp, by
    (try dsimp only [Runs, Ready, Moves]); and_intros <;> first | decide +kernel | exact fun _ => rfl | exact ok_of (by decide +kernel) | rfl⟩

theorem wit_KvRowsComplete_13 : ∃ (dt id : Nat) (s : State), let u := s.elapse dt;
  ∃ w e rest k, ∃ g, u.kv.walks.find? (fun w => w.cmd == id) = some w ∧ w.todo = e :: rest ∧ u.kvPool? w.pool = some k ∧ u.walkPage w e = some g ∧ (u.kvPage w.pool g).state = 1 :=
  ⟨0, 1, walked 1, walkW, (0, 0), [], kvp, 3, by
    (try dsimp only [Runs, Ready, Moves]); and_intros <;> first | decide +kernel | exact fun _ => rfl | exact ok_of (by decide +kernel) | rfl⟩

theorem wit_KvRowsComplete_14 : ∃ (dt id : Nat) (s : State), let u := s.elapse dt;
  ∃ w e rest k, ∃ g, u.kv.walks.find? (fun w => w.cmd == id) = some w ∧ w.todo = e :: rest ∧ u.kvPool? w.pool = some k ∧ u.walkPage w e = some g ∧ (u.kvPage w.pool g).state = 4 :=
  ⟨0, 1, walked 4, walkW, (0, 0), [], kvp, 3, by
    (try dsimp only [Runs, Ready, Moves]); and_intros <;> first | decide +kernel | exact fun _ => rfl | exact ok_of (by decide +kernel) | rfl⟩

theorem wit_KvRowsComplete_15 : ∃ (dt id : Nat) (s : State), let u := s.elapse dt;
  ∃ w e rest k, ∃ g, u.kv.walks.find? (fun w => w.cmd == id) = some w ∧ w.todo = e :: rest ∧ u.kvPool? w.pool = some k ∧ u.walkPage w e = some g ∧ (u.kvPage w.pool g).state = 3 :=
  ⟨0, 1, walked 3, walkW, (0, 0), [], kvp, 3, by
    (try dsimp only [Runs, Ready, Moves]); and_intros <;> first | decide +kernel | exact fun _ => rfl | exact ok_of (by decide +kernel) | rfl⟩

theorem wit_KvRowsComplete_16 : ∃ (dt id : Nat) (s : State), let u := s.elapse dt;
  ∃ w e rest k, ∃ g, u.kv.walks.find? (fun w => w.cmd == id) = some w ∧ w.todo = e :: rest ∧ u.kvPool? w.pool = some k ∧ u.walkPage w e = some g ∧ (u.kvPage w.pool g).state = 5 :=
  ⟨0, 1, walked 5, walkW, (0, 0), [], kvp, 3, by
    (try dsimp only [Runs, Ready, Moves]); and_intros <;> first | decide +kernel | exact fun _ => rfl | exact ok_of (by decide +kernel) | rfl⟩

theorem wit_KvRowsComplete_17 : ∃ (dt id : Nat) (s : State), let u := s.elapse dt;
  ∃ c, u.runs id 0x075B = some c ∧ (u.kv.inbox.any fun m => m.peer == c.p 0x21 1 && m.matchId == c.p 0x28 4) = false ∧ c.ranAt + c.p 0x24 4 * 1000000 ≤ u.now :=
  ⟨0, 1, (run (cm 0x075B 1 []) rdy), (cm 0x075B 1 []), by
    (try dsimp only [Runs, Ready, Moves]); and_intros <;> first | decide +kernel | exact fun _ => rfl | exact ok_of (by decide +kernel) | rfl⟩

theorem wit_MemoryCommandsComplete_0 : ∃ (dt id : Nat) (s : State) (c : Cmd), let n := c.p 0x20 2;
  Runs s dt id 0x0760 c ∧ n ≤ 57 ∧ n ≠ 56 ∧ c.p 0x22 1 = 7 ∧ 1 ≤ c.p 0x24 2 ∧ c.p 0x24 2 ≤ 4096 ∧ c.p 0x28 4 ≤ 100000000 ∧ 1024 ≤ c.p 0x2C 4 ∧ c.p 0x2C 4 ≤ 1048576 ∧ c.p 0x2C 4 % 64 = 0 :=
  ⟨0, 1, (run (cm 0x0760 0 [(0x20, 2, 57), (0x22, 1, 7), (0x24, 2, 4096), (0x28, 4, 100000000), (0x2c, 4, 1048576)]) rdy), (cm 0x0760 0 [(0x20, 2, 57), (0x22, 1, 7), (0x24, 2, 4096), (0x28, 4, 100000000), (0x2c, 4, 1048576)]), by
    (try dsimp only [Runs, Ready, Moves]); and_intros <;> first | decide +kernel | exact fun _ => rfl | exact ok_of (by decide +kernel) | rfl⟩

theorem wit_MemoryCommandsComplete_1 : ∃ (dt id : Nat) (s : State) (c : Cmd), Runs s dt id 0x0761 c ∧ c.p 0x20 2 ≤ 57 :=
  ⟨0, 1, (run (cm 0x0761 0 [(0x20, 2, 57)]) rdy), (cm 0x0761 0 [(0x20, 2, 57)]), by
    (try dsimp only [Runs, Ready, Moves]); and_intros <;> first | decide +kernel | exact fun _ => rfl | exact ok_of (by decide +kernel) | rfl⟩

theorem wit_MemoryCommandsComplete_2 : ∃ (dt id : Nat) (s : State) (c : Cmd), Runs s dt id 0x0762 c ∧ c.p 0x20 1 ≤ 31 :=
  ⟨0, 1, (run (cm 0x0762 0 [(0x20, 1, 31)]) rdy), (cm 0x0762 0 [(0x20, 1, 31)]), by
    (try dsimp only [Runs, Ready, Moves]); and_intros <;> first | decide +kernel | exact fun _ => rfl | exact ok_of (by decide +kernel) | rfl⟩

theorem wit_MemoryCommandsComplete_3 : ∃ (dt id : Nat) (s : State) (c : Cmd), Runs s dt id 0x0762 c ∧ c.p 0x20 1 = 0xFF :=
  ⟨0, 1, (run (cm 0x0762 0 [(0x20, 1, 255)]) rdy), (cm 0x0762 0 [(0x20, 1, 255)]), by
    (try dsimp only [Runs, Ready, Moves]); and_intros <;> first | decide +kernel | exact fun _ => rfl | exact ok_of (by decide +kernel) | rfl⟩

theorem wit_MemoryCommandsComplete_4 : ∃ (dt id : Nat) (s : State) (c : Cmd), let u := s.atRow dt id;
  let n := c.p 0x20 2;
  let m := fun (i : Nat) => (c.p 0x22 1).testBit i;
  let rank := fun (i : Nat) => c.p (0x30 + i) 1;
  let burst := if m 0 then c.p 0x24 2 else u.fldOf (.mmvArbCtl 56) 0 13;
  let urg := if m 1 then c.p 0x28 4 else u.fldOf (.mmvArbUrgency 56) 0 32;
  Runs s dt id 0x0760 c ∧ n ≤ 57 ∧ (m 0 = true → 1 ≤ c.p 0x24 2 ∧ c.p 0x24 2 ≤ 4096) ∧ (m 1 = true → c.p 0x28 4 ≤ 100000000) ∧ (m 2 = true → 1024 ≤ c.p 0x2C 4 ∧ c.p 0x2C 4 ≤ 1048576 ∧ c.p 0x2C 4 % 64 = 0) ∧ (m 3 = true → ∀ i < 32, rank i ≤ 31) ∧ (m 3 = true → n < 48 → rank 26 = u.arbRank n 26 ∧ rank 27 = u.arbRank n 27) ∧ (n = 56 → (burst + 1) * 1000 < urg) :=
  ⟨0, 1, (run (cm 0x0760 0 [(0x20, 2, 57), (0x22, 1, 7), (0x24, 2, 4096), (0x28, 4, 100000000), (0x2c, 4, 1048576)]) rdy), (cm 0x0760 0 [(0x20, 2, 57), (0x22, 1, 7), (0x24, 2, 4096), (0x28, 4, 100000000), (0x2c, 4, 1048576)]), by
    (try dsimp only [Runs, Ready, Moves]); and_intros <;> first | decide +kernel | exact fun _ => rfl | exact ok_of (by decide +kernel) | rfl⟩

theorem wit_ArbiterRowsComplete_0 : ∃ (dt n : Nat) (s : State), let u := s.elapse dt;
  let x : Arb := { u.arb n with owner := none };
  ∃ l : List ArbReq, let w := x.queue ++ l.map fun a => Parked.mk a.input a.part a.len (u.latestOf n a) u.now;
  ∃ i dl r, n ≤ 57 ∧ (bit (u.reg (.mmvArbCtl n)) 31 && arbFreezes n) = false ∧ u.arbChoice n x w = some (i, dl) ∧ w[i]? = some r :=
  ⟨0, 57, rdy, [⟨0, 1, 64, none⟩], 0, false, ⟨0, 1, 64, none, 0⟩, by
    (try dsimp only [Runs, Ready, Moves]); and_intros <;> first | decide +kernel | exact fun _ => rfl | exact ok_of (by decide +kernel) | rfl⟩

theorem wit_ArbiterRowsComplete_1 : ∃ (dt n : Nat) (s : State), let u := s.elapse dt;
  n ≤ 57 ∧ bit (u.reg (.mmvArbCtl n)) 31 = true ∧ arbFreezes n = true :=
  ⟨0, 55, (rdy.setReg (.mmvArbCtl 55) 0x80000000), by
    (try dsimp only [Runs, Ready, Moves]); and_intros <;> first | decide +kernel | exact fun _ => rfl | exact ok_of (by decide +kernel) | rfl⟩

theorem wit_ArbiterRowsComplete_2 : ∃ (dt n : Nat) (s : State), let u := s.elapse dt;
  n ≤ 57 ∧ u.arbWindow n / 64 ≤ (u.arb n).total :=
  ⟨0, 57, { rdy with mmv := { rdy.mmv with arbs := [(57, { total := 0x40000 })] } }, by
    (try dsimp only [Runs, Ready, Moves]); and_intros <;> first | decide +kernel | exact fun _ => rfl | exact ok_of (by decide +kernel) | rfl⟩

theorem wit_ArbiterRowsComplete_3 : ∃ (dt n : Nat) (s : State), let u := s.elapse dt;
  arbFreezes n = true ∧ (u.arb n).owner = none :=
  ⟨0, 55, rdy, by
    (try dsimp only [Runs, Ready, Moves]); and_intros <;> first | decide +kernel | exact fun _ => rfl | exact ok_of (by decide +kernel) | rfl⟩

theorem wit_ArbiterRowsComplete_4 : ∃ (dt : Nat) (s : State), let u := s.elapse dt;
  u.fldOf .mmvMemCtl 0 1 = 1 ∧ u.fldOf .mmvMemStat 31 1 = 1 ∧ u.fldOf .mmvMemStat 30 1 = 0 ∧ u.pwr.scrubPos + 64 < hbmSize ∧ u.poisoned u.pwr.scrubPos 64 = false :=
  ⟨0, ((rdy.setReg .mmvMemCtl 1).setReg .mmvMemStat 0x80000000), by
    (try dsimp only [Runs, Ready, Moves]); and_intros <;> first | decide +kernel | exact fun _ => rfl | exact ok_of (by decide +kernel) | rfl⟩

theorem wit_ArbiterRowsComplete_5 : ∃ (dt n : Nat) (s : State), let u := s.elapse dt;
  let x : Arb := { u.arb n with owner := none };
  ∃ l : List ArbReq, let w := x.queue ++ l.map fun a => Parked.mk a.input a.part a.len (u.latestOf n a) u.now;
  n ≤ 57 ∧ (bit (u.reg (.mmvArbCtl n)) 31 && arbFreezes n) = false ∧ u.arbChoice n x w = none :=
  ⟨0, 57, rdy, [], by
    (try dsimp only [Runs, Ready, Moves]); and_intros <;> first | decide +kernel | exact fun _ => rfl | exact ok_of (by decide +kernel) | rfl⟩

theorem wit_ArbiterRowsComplete_6 : ∃ (dt n : Nat) (s : State), let u := s.elapse dt;
  ∃ who : Writer, (who = .p0 ∨ (who = .bivexa ∧ (n < 32 ∨ (u.mmv.retrains.any fun r => 48 + r.port == n) = true))) :=
  ⟨0, 57, rdy, .p0, by
    (try dsimp only [Runs, Ready, Moves]); and_intros <;> first | decide +kernel | exact fun _ => rfl | exact ok_of (by decide +kernel) | rfl⟩

theorem wit_ArbiterRowsComplete_7 : ∃ (dt : Nat) (s : State), let u := s.elapse dt;
  ∃ f : ScrubFind, let v := u.scrubLine u.pwr.scrubPos f;
  u.fldOf .mmvMemCtl 0 1 = 1 ∧ u.fldOf .mmvMemStat 31 1 = 1 ∧ u.fldOf .mmvMemStat 30 1 = 0 ∧ v.pwr.scrubPos + 64 < hbmSize :=
  ⟨0, (rdy.setReg .mmvMemCtl 1).setReg .mmvMemStat 0x80000000, .clean, by
    (try dsimp only [Runs, Ready, Moves]); and_intros <;> first | decide +kernel | exact fun _ => rfl | exact ok_of (by decide +kernel) | rfl⟩

theorem wit_ArbiterRowsComplete_8 : ∃ (dt : Nat) (s : State), let u := s.elapse dt;
  ∃ f : ScrubFind, let v := u.scrubLine u.pwr.scrubPos f;
  u.fldOf .mmvMemCtl 0 1 = 1 ∧ u.fldOf .mmvMemStat 31 1 = 1 ∧ u.fldOf .mmvMemStat 30 1 = 0 ∧ hbmSize ≤ v.pwr.scrubPos + 64 :=
  ⟨0, { (rdy.setReg .mmvMemCtl 1).setReg .mmvMemStat 0x80000000 with pwr := { rdy.pwr with scrubPos := hbmSize - 64 } }, .clean, by
    (try dsimp only [Runs, Ready, Moves]); and_intros <;> first | decide +kernel | exact fun _ => rfl | exact ok_of (by decide +kernel) | rfl⟩

theorem wit_SafetyCommandsComplete_0 : ∃ (dt id : Nat) (s : State) (c : Cmd), let u := s.atRow dt id;
  let a := c.p 0x20 8;
  let n := c.p 0x28 4;
  Runs s dt id 0x0801 c ∧ c.part = 0 ∧ u.configured = false ∧ u.tableErr .system a n = none :=
  ⟨0, 1, (run (cm 0x0801 0 [(0x20, 8, 4096), (0x28, 4, 1)]) rdy), (cm 0x0801 0 [(0x20, 8, 4096), (0x28, 4, 1)]), by
    (try dsimp only [Runs, Ready, Moves]); and_intros <;> first | decide +kernel | exact fun _ => rfl | exact ok_of (by decide +kernel) | rfl⟩

theorem wit_SafetyCommandsComplete_1 : ∃ (dt id : Nat) (s : State) (c : Cmd), let u := s.atRow dt id;
  let p := c.p 0x20 1;
  Runs s dt id 0x0804 c ∧ 1 ≤ p ∧ p ≤ 7 ∧ (c.part = 0 ∨ c.part = p) ∧ u.partState p = .active :=
  ⟨0, 1, (run (cm 0x0804 1 [(0x20, 1, 1)]) rdy), (cm 0x0804 1 [(0x20, 1, 1)]), by
    (try dsimp only [Runs, Ready, Moves]); and_intros <;> first | decide +kernel | exact fun _ => rfl | exact ok_of (by decide +kernel) | rfl⟩

theorem wit_SafetyCommandsComplete_2 : ∃ (dt id : Nat) (s : State) (c : Cmd), Runs s dt id 0x0805 c :=
  ⟨0, 1, (run (cm 0x0805 1 []) rdy), (cm 0x0805 1 []), by
    (try dsimp only [Runs, Ready, Moves]); and_intros <;> first | decide +kernel | exact fun _ => rfl | exact ok_of (by decide +kernel) | rfl⟩

theorem wit_SafetyCommandsComplete_3 : ∃ (dt id : Nat) (s : State) (c : Cmd), let g := c.p 0x24 4;
  Runs s dt id 0x0806 c ∧ c.p 0x20 1 = 0 ∧ c.p 0x22 2 ≤ 100 ∧ g < 2 ^ 24 ∧ c.p 0x28 1 ≤ 15 ∧ c.p 0x28 1 ≠ 1 :=
  ⟨0, 1, (run (cm 0x0806 0 [(0x22, 2, 100), (0x24, 4, 16777215), (0x28, 1, 15)]) rdy), (cm 0x0806 0 [(0x22, 2, 100), (0x24, 4, 16777215), (0x28, 1, 15)]), by
    (try dsimp only [Runs, Ready, Moves]); and_intros <;> first | decide +kernel | exact fun _ => rfl | exact ok_of (by decide +kernel) | rfl⟩

theorem wit_SafetyCommandsComplete_4 : ∃ (dt id : Nat) (s : State) (c : Cmd), ∃ d : Desc, ∃ m : Motion, ∃ k, let e := s.elapse dt;
  let start := c.p 0x28 8;
  let dtNs := c.p 0x30 4;
  let n := c.p 0x34 2;
  let ch := c.p 0x36 1;
  let pts := d.rows.map fun a => (e.rowCodes d a).map fun v => BitVec.ofNat 32 v;
  let t : Traj := { seq := 0, start := start, dtNs := dtNs, chans := ch, points := pts, tag := d.tag, buf := k, swap := (match e.motionLoop with | some l => l.nextRelease e.now | none => e.now) };
  Runs s dt id 0x0840 c ∧ e.ssi.rfx.motion = some m ∧ m.part = c.part ∧ e.offerBlocked = false ∧ 62500 ≤ dtNs ∧ dtNs ≤ 100000000 ∧ 2 ≤ n ∧ n ≤ 4096 ∧ n * ch ≤ 65536 ∧ ch = m.chans.length ∧ e.readDesc c (c.p 0x20 8) = .ok d ∧ d.mark = true ∧ d.dev = 255 ∧ d.hasShape [ch, n] = true ∧ d.fmt = 0 ∧ d.tag.valid = true ∧ e.now ≤ d.tag.inst + m.ageLimit ∧ e.now ≤ d.tag.expiry ∧ e.now < start + (n - 1) * dtNs ∧ e.tensorErr (.part c.part) .other false d = none ∧ e.tensorUe d = none ∧ badPoint m dtNs pts = none ∧ badStep m e.setpoint (t.at (t.swap : Rat)) = none ∧ e.freeTraj = some k :=
  ⟨0, 1, run (cm 0x0840 1 [(0x20, 8, 0x1000), (0x30, 4, 62500), (0x34, 2, 2), (0x36, 1, 1)]) { rdy.wr 0x1000 (dsc 0x4000 0 [1, 2] [64]) with ssi := { rdy.ssi with rfx := { rdy.ssi.rfx with motion := some motion1 } } }, (cm 0x0840 1 [(0x20, 8, 0x1000), (0x30, 4, 62500), (0x34, 2, 2), (0x36, 1, 1)]), Desc.parse 0x1000 (dsc 0x4000 0 [1, 2] [64]), motion1, 0, by
    (try dsimp only [Runs, Ready, Moves]); and_intros <;> first | decide +kernel | exact fun _ => rfl | exact ok_of (by decide +kernel) | rfl⟩

theorem wit_SafetyCommandsComplete_5 : ∃ (dt id : Nat) (s : State) (c : Cmd), let u := s.atRow dt id;
  ∃ m, Runs s dt id 0x0841 c ∧ c.p 0x20 1 = m ∧ (m = 2 ∨ m = 3) ∧ u.lane ≠ 4 :=
  ⟨0, 1, (run (cm 0x0841 0 [(0x20, 1, 3)]) rdy), (cm 0x0841 0 [(0x20, 1, 3)]), 3, by
    (try dsimp only [Runs, Ready, Moves]); and_intros <;> first | decide +kernel | exact fun _ => rfl | exact ok_of (by decide +kernel) | rfl⟩

theorem wit_SafetyCommandsComplete_6 : ∃ (dt id : Nat) (s : State) (c : Cmd), Runs s dt id 0x0842 c :=
  ⟨0, 1, (run (cm 0x0842 1 []) rdy), (cm 0x0842 1 []), by
    (try dsimp only [Runs, Ready, Moves]); and_intros <;> first | decide +kernel | exact fun _ => rfl | exact ok_of (by decide +kernel) | rfl⟩

theorem wit_SafetyCommandsComplete_7 : ∃ (dt id : Nat) (s : State) (c : Cmd), let u := s.atRow dt id;
  let p := c.p 0x20 1;
  Runs s dt id 0x0804 c ∧ 1 ≤ p ∧ p ≤ 7 ∧ (c.part = 0 ∨ c.part = p) ∧ u.partState p ≠ .undefined ∧ u.partState p ≠ .defined :=
  ⟨0, 1, (run (cm 0x0804 1 [(0x20, 1, 1)]) rdy), (cm 0x0804 1 [(0x20, 1, 1)]), by
    (try dsimp only [Runs, Ready, Moves]); and_intros <;> first | decide +kernel | exact fun _ => rfl | exact ok_of (by decide +kernel) | rfl⟩

theorem wit_SafetyCommandsComplete_8 : ∃ (dt id : Nat) (s : State) (c : Cmd), let role := c.p 0x20 1;
  let g := c.p 0x24 4;
  Runs s dt id 0x0806 c ∧ role ≤ 2 ∧ c.p 0x22 2 ≤ 100 ∧ g < 2 ^ 24 ∧ c.p 0x28 1 ≤ 15 ∧ c.p 0x28 1 ≠ 1 :=
  ⟨0, 1, (run (cm 0x0806 0 [(0x22, 2, 100), (0x24, 4, 16777215), (0x28, 1, 15)]) rdy), (cm 0x0806 0 [(0x22, 2, 100), (0x24, 4, 16777215), (0x28, 1, 15)]), by
    (try dsimp only [Runs, Ready, Moves]); and_intros <;> first | decide +kernel | exact fun _ => rfl | exact ok_of (by decide +kernel) | rfl⟩

theorem wit_ReflexRowsComplete_0 : ∃ (dt n : Nat) (s : State), let u := s.elapse dt;
  ∃ l nd, u.ssi.rfx.loops[n]? = some l ∧ u.lane ≠ 4 ∧ l.releases u.now = some nd ∧ l.running = false :=
  ⟨500000, 0, { rdy with ssi := { rdy.ssi with rfx := { rdy.ssi.rfx with loops := [⟨1000000, 0, 0, 0xFF, true, true, 1, 0, false, 0, false, 0, 0, 0, false⟩] } } }, ⟨1000000, 0, 0, 0xFF, true, true, 1, 0, false, 0, false, 0, 0, 0, false⟩, false, by
    (try dsimp only [Runs, Ready, Moves]); and_intros <;> first | decide +kernel | exact fun _ => rfl | exact ok_of (by decide +kernel) | rfl⟩

theorem wit_ReflexRowsComplete_1 : ∃ (dt n : Nat) (s : State), let u := s.elapse dt;
  ∃ l nd, u.ssi.rfx.loops[n]? = some l ∧ u.lane ≠ 4 ∧ l.releases u.now = some nd ∧ l.running = true ∧ l.critical = false :=
  ⟨500000, 0, { rdy with ssi := { rdy.ssi with rfx := { rdy.ssi.rfx with loops := [⟨1000000, 0, 0, 0xFF, false, true, 1, 0, true, 0, false, 0, 0, 0, false⟩] } } }, ⟨1000000, 0, 0, 0xFF, false, true, 1, 0, true, 0, false, 0, 0, 0, false⟩, false, by
    (try dsimp only [Runs, Ready, Moves]); and_intros <;> first | decide +kernel | exact fun _ => rfl | exact ok_of (by decide +kernel) | rfl⟩

theorem wit_ReflexRowsComplete_2 : ∃ (dt n : Nat) (s : State), let u := s.elapse dt;
  ∃ l : Loop, ∃ b : Bytes, u.ssi.rfx.loops[n]? = some l ∧ l.running = true ∧ u.lane ≠ 4 ∧ b = [] :=
  ⟨0, 0, { rdy with ssi := { rdy.ssi with rfx := { rdy.ssi.rfx with loops := [⟨1000000, 0, 0, 0xFF, true, true, 1, 0, true, 0, false, 0, 0, 0, false⟩] } } }, ⟨1000000, 0, 0, 0xFF, true, true, 1, 0, true, 0, false, 0, 0, 0, false⟩, [], by
    (try dsimp only [Runs, Ready, Moves]); and_intros <;> first | decide +kernel | exact fun _ => rfl | exact ok_of (by decide +kernel) | rfl⟩

theorem wit_ReflexRowsComplete_3 : ∃ (dt n : Nat) (s : State), let u := s.elapse dt;
  ∃ l : Loop, ∃ entry, ∃ off, ∃ b : Bytes, u.ssi.rfx.loops[n]? = some l ∧ l.running = true ∧ u.lane ≠ 4 ∧ b ≠ [] ∧ entry < 32 ∧ off + 128 ≤ 0x200000 :=
  ⟨0, 0, { rdy with ssi := { rdy.ssi with rfx := { rdy.ssi.rfx with loops := [⟨1000000, 0, 0, 0xFF, true, true, 1, 0, true, 0, false, 0, 0, 0, false⟩] } } }, ⟨1000000, 0, 0, 0xFF, true, true, 1, 0, true, 0, false, 0, 0, 0, false⟩, 31, 0x200000 - 128, [1], by
    (try dsimp only [Runs, Ready, Moves]); and_intros <;> first | decide +kernel | exact fun _ => rfl | exact ok_of (by decide +kernel) | rfl⟩

theorem wit_ReflexRowsComplete_4 : ∃ (dt : Nat) (s : State), let u := s.elapse dt;
  ∃ id c t l, u.ssi.rfx.offers = [(id, t)] ∧ u.motionLoop = some l ∧ u.cmd? id = some c ∧ c.state = .running ∧ t.swap ≤ l.last ∧ u.lane ≠ 4 :=
  ⟨0, (run (cm 0x840 1 []) { rdy with ssi := { rdy.ssi with rfx := { rdy.ssi.rfx with offers := [(1, ⟨1, 0, 62500, 1, [[0], [0]], {}, 0, 0⟩)], loops := [⟨1000000, 0, 0, 0xFF, true, true, 1, 0, false, 0, false, 0, 0, 0, false⟩] } } }), 1, (cm 0x840 1 []), ⟨1, 0, 62500, 1, [[0], [0]], {}, 0, 0⟩, ⟨1000000, 0, 0, 0xFF, true, true, 1, 0, false, 0, false, 0, 0, 0, false⟩, by
    (try dsimp only [Runs, Ready, Moves]); and_intros <;> first | decide +kernel | exact fun _ => rfl | exact ok_of (by decide +kernel) | rfl⟩

theorem wit_ReflexRowsComplete_5 : ∃ (dt : Nat) (s : State), let u := s.elapse dt;
  ∃ t, u.ssi.rfx.traj = some t ∧ u.lane ≠ 0 ∧ u.triggers.testBit 2 = false ∧ t.tag.expiry < u.now :=
  ⟨1, { (rdy.setReg .ssiRfxStat 0x10000) with ssi := { rdy.ssi with rfx := { rdy.ssi.rfx with traj := some ⟨1, 0, 62500, 1, [[0], [0]], {}, 0, 0⟩ } } }, ⟨1, 0, 62500, 1, [[0], [0]], {}, 0, 0⟩, by
    (try dsimp only [Runs, Ready, Moves]); and_intros <;> first | decide +kernel | exact fun _ => rfl | exact ok_of (by decide +kernel) | rfl⟩

theorem wit_ReflexRowsComplete_6 : ∃ (dt : Nat) (s : State), let u := s.elapse dt;
  u.lane = 3 ∧ u.ssi.rfx.from_ + u.ssi.rfx.stopT ≤ u.now :=
  ⟨0, (rdy.setReg .ssiRfxStat 0x30000), by
    (try dsimp only [Runs, Ready, Moves]); and_intros <;> first | decide +kernel | exact fun _ => rfl | exact ok_of (by decide +kernel) | rfl⟩

theorem wit_ReflexRowsComplete_7 : ∃ (dt : Nat) (s : State), let u := s.elapse dt;
  u.pln.stop.on = true ∧ (u.reg .plnStopSeq).toNat ≠ 0 ∧ u.pwr.mainUp = true :=
  ⟨0, (({ rdy with pln := { rdy.pln with stop := { rdy.pln.stop with on := true } } }).setReg .plnStopSeq 1), by
    (try dsimp only [Runs, Ready, Moves]); and_intros <;> first | decide +kernel | exact fun _ => rfl | exact ok_of (by decide +kernel) | rfl⟩

theorem wit_ReflexRowsComplete_8 : ∃ (dt : Nat) (s : State), let u := s.elapse dt;
  u.lane ≠ 4 :=
  ⟨0, rdy, by
    (try dsimp only [Runs, Ready, Moves]); and_intros <;> first | decide +kernel | exact fun _ => rfl | exact ok_of (by decide +kernel) | rfl⟩

theorem wit_ReflexRowsComplete_9 : ∃ (dt n : Nat) (s : State), let u := s.elapse dt;
  ∃ l nd, u.ssi.rfx.loops[n]? = some l ∧ u.lane ≠ 4 ∧ l.releases u.now = some nd ∧ l.running = true :=
  ⟨500000, 0, { rdy with ssi := { rdy.ssi with rfx := { rdy.ssi.rfx with loops := [⟨1000000, 0, 0, 0xFF, false, true, 1, 0, true, 0, false, 0, 0, 0, false⟩] } } }, ⟨1000000, 0, 0, 0xFF, false, true, 1, 0, true, 0, false, 0, 0, 0, false⟩, false, by
    (try dsimp only [Runs, Ready, Moves]); and_intros <;> first | decide +kernel | exact fun _ => rfl | exact ok_of (by decide +kernel) | rfl⟩

theorem wit_ReflexRowsComplete_10 : ∃ (dt : Nat) (s : State), let u := s.elapse dt;
  ∃ id, ∃ c, ∃ t : Traj, ∃ l : Loop, ∃ rest, let x := { t with seq := u.ssi.rfx.nextSeq, swap := l.last };
  let v := (u.setRfx fun r => { r with offers := rest, traj := some x, nextSeq := r.nextSeq + 1 }).toLane 1;
  let w := ((((v.clearTrigger 2).clearTrigger 3).clearTrigger 4).setReg .ssiRfxTrajSeq (BitVec.ofNat 64 x.seq)).setReg .ssiRfxTrajT
      (BitVec.ofNat 64 x.start);
  u.ssi.rfx.offers = (id, t) :: rest ∧ u.motionLoop = some l ∧ u.cmd? id = some c ∧ c.state = .running ∧ t.swap ≤ l.last ∧ u.lane ≠ 4 ∧ w.cmd? id = some c :=
  ⟨0, run (cm 0x840 1 []) { rdy with ssi := { rdy.ssi with rfx := { rdy.ssi.rfx with offers := [(1, ⟨1, 0, 62500, 1, [[0], [0]], {}, 0, 0⟩)], loops := [⟨1000000, 0, 0, 0xFF, true, true, 1, 0, false, 0, false, 0, 0, 0, false⟩] } } }, 1, cm 0x840 1 [], ⟨1, 0, 62500, 1, [[0], [0]], {}, 0, 0⟩, ⟨1000000, 0, 0, 0xFF, true, true, 1, 0, false, 0, false, 0, 0, 0, false⟩, [], by
    (try dsimp only [Runs, Ready, Moves]); and_intros <;> first | decide +kernel | exact fun _ => rfl | exact ok_of (by decide +kernel) | rfl⟩

theorem wit_ReflexRowsComplete_11 : ∃ (dt : Nat) (s : State), let u := s.elapse dt;
  ∃ t : Traj, u.ssi.rfx.traj = some t ∧ u.lane ≠ 0 ∧ u.triggers.testBit 2 = false ∧ t.start + (t.points.length - 1) * t.dtNs < u.now :=
  ⟨31251, { (rdy.setReg .ssiRfxStat 0x10000) with ssi := { rdy.ssi with rfx := { rdy.ssi.rfx with traj := some ⟨1, 0, 62500, 1, [[0], [0]], {}, 0, 0⟩ } } }, ⟨1, 0, 62500, 1, [[0], [0]], {}, 0, 0⟩, by
    (try dsimp only [Runs, Ready, Moves]); and_intros <;> first | decide +kernel | exact fun _ => rfl | exact ok_of (by decide +kernel) | rfl⟩

theorem wit_ReflexRowsComplete_12 : ∃ (dt : Nat) (s : State), let u := s.elapse dt;
  u.lane ≠ 4 :=
  ⟨0, rdy, by
    (try dsimp only [Runs, Ready, Moves]); and_intros <;> first | decide +kernel | exact fun _ => rfl | exact ok_of (by decide +kernel) | rfl⟩

theorem wit_IslandRowsComplete_0 : ∃ (dt : Nat) (s : State), let u := s.elapse dt;
  u.pwr.porstHigh = true ∧ u.ssi.alive = true ∧ u.ssi.aliveAt + 990000 ≤ u.ns :=
  ⟨500000, rdy, by
    (try dsimp only [Runs, Ready, Moves]); and_intros <;> first | decide +kernel | exact fun _ => rfl | exact ok_of (by decide +kernel) | rfl⟩

theorem wit_IslandRowsComplete_1 : ∃ (dt : Nat) (s : State), let u := s.elapse dt;
  u.pwr.porstHigh = true :=
  ⟨0, rdy, by
    (try dsimp only [Runs, Ready, Moves]); and_intros <;> first | decide +kernel | exact fun _ => rfl | exact ok_of (by decide +kernel) | rfl⟩

theorem wit_IslandRowsComplete_2 : ∃ (dt : Nat) (s : State), let u := s.elapse dt;
  u.ready = true ∧ u.standby.role ≠ 0 ∧ u.standby.sentAt + u.standby.period * 1000000 ≤ u.ns :=
  ⟨5000000, { rdy with ssi := { rdy.ssi with standby := { role := 2 } } }, by
    (try dsimp only [Runs, Ready, Moves]); and_intros <;> first | decide +kernel | exact fun _ => rfl | exact ok_of (by decide +kernel) | rfl⟩

theorem wit_IslandRowsComplete_3 : ∃ (dt d : Nat) (s : State), let u := s.elapse dt;
  u.ready = true ∧ u.standby.role ≠ 0 ∧ u.groupMembers.contains d = true :=
  ⟨0, 1, { rdy with ssi := { rdy.ssi with standby := { role := 1, group := 3 } } }, by
    (try dsimp only [Runs, Ready, Moves]); and_intros <;> first | decide +kernel | exact fun _ => rfl | exact ok_of (by decide +kernel) | rfl⟩

theorem wit_IslandRowsComplete_4 : ∃ (dt d : Nat) (s : State), let u := s.elapse dt;
  u.ready = true ∧ u.standby.role = 1 ∧ u.groupMembers.contains d = true ∧ u.standby.lost.contains d = false ∧ u.standby.heard d + u.standby.misses * u.standby.period * 1000000 ≤ u.ns ∧ u.mmv.colls = [] ∧ (u.groupMembers.any fun e => (u.linkRoute e).isSome) = true :=
  ⟨100000000, 1, { ((rdy.setReg (.mmvLinkStat 0) 0x5000000).setReg (.mmvRoute 1) 0) with ssi := { rdy.ssi with standby := { role := 1, group := 3 } } }, by
    (try dsimp only [Runs, Ready, Moves]); and_intros <;> first | decide +kernel | exact fun _ => rfl | exact ok_of (by decide +kernel) | rfl⟩

theorem wit_IslandRowsComplete_5 : ∃ (dt d : Nat) (s : State), let u := s.elapse dt;
  u.ready = true ∧ u.standby.role ≠ 0 ∧ u.groupMembers.contains d = true ∧ u.standby.lost.contains d = false ∧ u.standby.heard d + u.standby.misses * u.standby.period * 1000000 ≤ u.ns :=
  ⟨100000000, 1, { ((rdy.setReg (.mmvLinkStat 0) 0x5000000).setReg (.mmvRoute 1) 0) with ssi := { rdy.ssi with standby := { role := 1, group := 3 } } }, by
    (try dsimp only [Runs, Ready, Moves]); and_intros <;> first | decide +kernel | exact fun _ => rfl | exact ok_of (by decide +kernel) | rfl⟩

theorem wit_SecurityCommandsComplete_0 : ∃ (dt id : Nat) (s : State) (c : Cmd), let u := s.atRow dt id;
  Runs s dt id 0x0901 c ∧ u.busMaster = true :=
  ⟨0, 1, (run (cm 0x0901 1 []) rdy), (cm 0x0901 1 []), by
    (try dsimp only [Runs, Ready, Moves]); and_intros <;> first | decide +kernel | exact fun _ => rfl | exact ok_of (by decide +kernel) | rfl⟩

theorem wit_SecurityCommandsComplete_1 : ∃ (dt id : Nat) (s : State) (c : Cmd), let u := s.atRow dt id;
  Runs s dt id 0x0902 c ∧ u.busMaster = true :=
  ⟨0, 1, (run (cm 0x0902 1 []) rdy), (cm 0x0902 1 []), by
    (try dsimp only [Runs, Ready, Moves]); and_intros <;> first | decide +kernel | exact fun _ => rfl | exact ok_of (by decide +kernel) | rfl⟩

theorem wit_SecurityCommandsComplete_2 : ∃ (dt id : Nat) (s : State) (c : Cmd), let u := s.atRow dt id;
  let new := u.ccx.imageRollback;
  Runs s dt id 0x0903 c ∧ u.fuse < new ∧ u.safeWarn = false :=
  ⟨0, 1, (run (cm 0x0903 0 []) { rdy.setReg .ssiSecFuse 0 with ccx := { rdy.ccx with imageRollback := 1 } }), (cm 0x0903 0 []), by
    (try dsimp only [Runs, Ready, Moves]); and_intros <;> first | decide +kernel | exact fun _ => rfl | exact ok_of (by decide +kernel) | rfl⟩

theorem wit_SecurityCommandsComplete_3 : ∃ (dt id : Nat) (s : State) (c : Cmd), let u := s.atRow dt id;
  let new := u.ccx.imageRollback;
  Runs s dt id 0x0903 c ∧ new ≤ u.fuse :=
  ⟨0, 1, (run (cm 0x0903 0 []) (rdy.setReg .ssiSecFuse 0)), (cm 0x0903 0 []), by
    (try dsimp only [Runs, Ready, Moves]); and_intros <;> first | decide +kernel | exact fun _ => rfl | exact ok_of (by decide +kernel) | rfl⟩

theorem wit_SecurityCommandsComplete_4 : ∃ (dt id : Nat) (s : State) (c : Cmd), let u := s.atRow dt id;
  let st := u.tableAt c (c.p 0x20 8) (c.p 0x28 4);
  Runs s dt id 0x0904 c ∧ u.tableErr c.tableReq (c.p 0x20 8) (c.p 0x28 4) = none ∧ numAt st 0 4 = 0x52564B53 ∧ numAt st 4 1 ≤ 3 ∧ (numAt st 8 8 = 0 ∨ numAt st 8 8 = Config.serial.toNat) ∧ (∃ k < 4, k ≠ numAt st 4 1 ∧ u.revoked k = false) :=
  ⟨0, 1, (run (cm 0x0904 0 [(0x20, 8, 4096), (0x28, 4, 2400)]) ((rdy.setReg .ssiSecFuse 0).wr 0x1000 (leBytes 4 0x52564B53 ++ [3]))), (cm 0x0904 0 [(0x20, 8, 4096), (0x28, 4, 2400)]), by
    (try dsimp only [Runs, Ready, Moves]); and_intros <;> first | decide +kernel | exact fun _ => rfl | exact ok_of (by decide +kernel) | rfl⟩

theorem wit_SecurityCommandsComplete_5 : ∃ (dt id : Nat) (s : State) (c : Cmd), let u := s.atRow dt id;
  Runs s dt id 0x0910 c ∧ u.tableErr c.tableReq (c.p 0x20 8) (c.p 0x28 8) = none :=
  ⟨0, 1, (run (cm 0x0910 1 [(0x20, 8, 4096), (0x28, 8, 64)]) rdy), (cm 0x0910 1 [(0x20, 8, 4096), (0x28, 8, 64)]), by
    (try dsimp only [Runs, Ready, Moves]); and_intros <;> first | decide +kernel | exact fun _ => rfl | exact ok_of (by decide +kernel) | rfl⟩

theorem wit_SecurityCommandsComplete_6 : ∃ (dt id : Nat) (s : State) (c : Cmd), let e := s.elapse dt;
  let n := c.p 0x20 1;
  let base := (e.reg (.ssiSecProtBase n)).toNat;
  let size := (e.reg (.ssiSecProtSize n)).toNat * 65536;
  Runs s dt id 0x0911 c ∧ n ≤ 15 ∧ size ≠ 0 ∧ e.fldOf (.ssiSecProtPart n) 0 3 = c.part ∧ e.regionRead base size = false :=
  ⟨0, 1, (run (cm 0x0911 1 [(0x20, 1, 15)]) ((rdy.setReg (.ssiSecProtPart 15) 1).setReg (.ssiSecProtSize 15) 1)), (cm 0x0911 1 [(0x20, 1, 15)]), by
    (try dsimp only [Runs, Ready, Moves]); and_intros <;> first | decide +kernel | exact fun _ => rfl | exact ok_of (by decide +kernel) | rfl⟩

theorem wit_SecurityCommandsComplete_7 : ∃ (dt id : Nat) (s : State) (c : Cmd), let u := s.atRow dt id;
  let st := u.tableAt c (c.p 0x20 8) (c.p 0x28 4);
  let v := u.drawNonce;
  Runs s dt id 0x0921 c ∧ v.confidential = false ∧ v.tableErr c.tableReq (c.p 0x20 8) (c.p 0x28 4) = none ∧ numAt st 0 4 = 0x44424755 ∧ (numAt st 4 1 = 1 ∨ numAt st 4 1 = 2) ∧ v.tableAt c (c.p 0x20 8) (c.p 0x28 4) = st :=
  ⟨0, 1, (run (cm 0x0921 0 [(0x20, 8, 4096), (0x28, 4, 2400)]) (rdy.wr 0x1000 (leBytes 4 0x44424755 ++ [2]))), (cm 0x0921 0 [(0x20, 8, 4096), (0x28, 4, 2400)]), by
    (try dsimp only [Runs, Ready, Moves]); and_intros <;> first | decide +kernel | exact fun _ => rfl | exact ok_of (by decide +kernel) | rfl⟩

theorem wit_SecurityCommandsComplete_8 : ∃ (dt id : Nat) (s : State) (c : Cmd), let u := s.atRow dt id;
  Runs s dt id 0x0920 c ∧ u.confidential = true :=
  ⟨0, 1, (run (cm 0x0920 0 []) (rdy.setReg .ssiSecStat 0x80000000)), (cm 0x0920 0 []), by
    (try dsimp only [Runs, Ready, Moves]); and_intros <;> first | decide +kernel | exact fun _ => rfl | exact ok_of (by decide +kernel) | rfl⟩

theorem wit_SecurityCommandsComplete_9 : ∃ (dt id : Nat) (s : State) (c : Cmd), let u := s.atRow dt id;
  Runs s dt id 0x0920 c ∧ u.confidential = false ∧ u.tableErr c.tableReq (c.p 0x20 8) (c.p 0x28 4) = none :=
  ⟨0, 1, (run (cm 0x0920 0 [(0x20, 8, 4096), (0x28, 4, 256)]) rdy), (cm 0x0920 0 [(0x20, 8, 4096), (0x28, 4, 256)]), by
    (try dsimp only [Runs, Ready, Moves]); and_intros <;> first | decide +kernel | exact fun _ => rfl | exact ok_of (by decide +kernel) | rfl⟩

theorem wit_ResetRowsComplete_0 : ∃ (dt : Nat) (s : State), let u := s.elapse dt;
  u.pwr.vaon = false :=
  ⟨0, State.reset, by
    (try dsimp only [Runs, Ready, Moves]); and_intros <;> first | decide +kernel | exact fun _ => rfl | exact ok_of (by decide +kernel) | rfl⟩

theorem wit_ResetRowsComplete_1 : ∃ (dt : Nat) (s : State), let u := s.elapse dt;
  u.pwr.vaon = true ∧ u.pwr.porstHigh = false :=
  ⟨0, { State.reset with pwr := { State.reset.pwr with vaon := true } }, by
    (try dsimp only [Runs, Ready, Moves]); and_intros <;> first | decide +kernel | exact fun _ => rfl | exact ok_of (by decide +kernel) | rfl⟩

theorem wit_ResetRowsComplete_2 : ∃ (dt : Nat) (s : State), let u := s.elapse dt;
  u.pwr.porstHigh = true :=
  ⟨0, rdy, by
    (try dsimp only [Runs, Ready, Moves]); and_intros <;> first | decide +kernel | exact fun _ => rfl | exact ok_of (by decide +kernel) | rfl⟩

theorem wit_ResetRowsComplete_4 : ∃ (dt : Nat) (s : State), let u := s.elapse dt;
  u.pwr.enDue = none ∧ u.pwr.porstHigh = true ∧ u.pwrBit 31 = true ∧ u.pwrBit 30 = false ∧ u.stage = 1 :=
  ⟨0, (((rdy.setReg .ccxIdState 0x10000)).setReg .ssiPwrStat 0x80000000), by
    (try dsimp only [Runs, Ready, Moves]); and_intros <;> first | decide +kernel | exact fun _ => rfl | exact ok_of (by decide +kernel) | rfl⟩

theorem wit_ResetRowsComplete_5 : ∃ (dt : Nat) (s : State), let u := s.elapse dt;
  u.pwr.enDue = none ∧ u.stage = 1 ∧ u.pwrBit 31 = true ∧ u.pwrBit 30 = false ∧ u.pwr.riseAt + 10000000 ≤ u.ns :=
  ⟨5000000, (((rdy.setReg .ccxIdState 0x10000)).setReg .ssiPwrStat 0x80000000), by
    (try dsimp only [Runs, Ready, Moves]); and_intros <;> first | decide +kernel | exact fun _ => rfl | exact ok_of (by decide +kernel) | rfl⟩

theorem wit_ResetRowsComplete_6 : ∃ (dt : Nat) (s : State), let u := s.elapse dt;
  u.stage = 1 ∧ u.pwr.mainUp = true ∧ u.fldOf .mmvMemStat 31 1 = 0 :=
  ⟨0, (rdy.setReg .ccxIdState 0x10000), by
    (try dsimp only [Runs, Ready, Moves]); and_intros <;> first | decide +kernel | exact fun _ => rfl | exact ok_of (by decide +kernel) | rfl⟩

theorem wit_ResetRowsComplete_7 : ∃ (dt : Nat) (s : State), let u := s.elapse dt;
  u.stage = 3 :=
  ⟨0, (rdy.setReg .ccxIdState 0x30000), by
    (try dsimp only [Runs, Ready, Moves]); and_intros <;> first | decide +kernel | exact fun _ => rfl | exact ok_of (by decide +kernel) | rfl⟩

theorem wit_ResetRowsComplete_8 : ∃ (dt : Nat) (s : State), let u := s.elapse dt;
  u.stage = 4 ∧ u.pwr.warm = none :=
  ⟨0, (rdy.setReg .ccxIdState 0x40000), by
    (try dsimp only [Runs, Ready, Moves]); and_intros <;> first | decide +kernel | exact fun _ => rfl | exact ok_of (by decide +kernel) | rfl⟩

theorem wit_ResetRowsComplete_9 : ∃ (dt : Nat) (s : State), let u := s.elapse dt;
  u.pwr.porstHigh = true ∧ u.ready = true ∧ (∀ e ∈ u.pwr.reqs, u.ns ≤ e.2 + 100) :=
  ⟨0, rdy, by
    (try dsimp only [Runs, Ready, Moves]); and_intros <;> first | decide +kernel | exact fun _ => rfl | exact ok_of (by decide +kernel) | rfl⟩

theorem wit_ResetRowsComplete_10 : ∃ (dt : Nat) (s : State), let u := s.elapse dt;
  ∃ cause t0, u.pwr.reqs = [(resetCode cause, t0)] ∧ u.pwr.warm = none ∧ u.hp.posted = [] :=
  ⟨0, { rdy with pwr := { rdy.pwr with reqs := [(1, 0)] } }, .warmHost, 0, by
    (try dsimp only [Runs, Ready, Moves]); and_intros <;> first | decide +kernel | exact fun _ => rfl | exact ok_of (by decide +kernel) | rfl⟩

theorem wit_ResetRowsComplete_11 : ∃ (dt : Nat) (s : State), let u := s.elapse dt;
  ∃ w, u.pwr.warm = some w ∧ w.held = true ∧ w.load = false ∧ u.pwrBit 4 = false ∧ u.pwrBit 6 = false ∧ u.pwrBit 30 = true ∧ u.pwr.refs.contains .sref0 = true ∧ u.pwr.srefAt = 0 :=
  ⟨0, { (rdy.setReg .ssiPwrStat 0x40000000) with pwr := { rdy.pwr with warm := some ⟨1, 0, false, true, 0, 0, false, false⟩ } }, ⟨1, 0, false, true, 0, 0, false, false⟩, by
    (try dsimp only [Runs, Ready, Moves]); and_intros <;> first | decide +kernel | exact fun _ => rfl | exact ok_of (by decide +kernel) | rfl⟩

theorem wit_ResetRowsComplete_12 : ∃ (dt : Nat) (s : State), let u := s.elapse dt;
  ∃ w, u.pwr.warm = some w ∧ w.load = false ∧ w.missed = false ∧ u.pwrBit 6 = false ∧ w.boundAt + 250000000 ≤ u.ns :=
  ⟨125000000, { rdy with pwr := { rdy.pwr with warm := some ⟨1, 0, false, true, 0, 0, false, false⟩ } }, ⟨1, 0, false, true, 0, 0, false, false⟩, by
    (try dsimp only [Runs, Ready, Moves]); and_intros <;> first | decide +kernel | exact fun _ => rfl | exact ok_of (by decide +kernel) | rfl⟩

theorem wit_ResetRowsComplete_13 : ∃ (dt : Nat) (s : State), let u := s.elapse dt;
  let x := u.syncEn;
  u.pwr.porstHigh = true ∧ x.pwrBit 31 = true ∧ x.pwrBit 30 = false :=
  ⟨0, (((rdy.setReg .ccxIdState 0x10000)).setReg .ssiPwrStat 0x80000000), by
    (try dsimp only [Runs, Ready, Moves]); and_intros <;> first | decide +kernel | exact fun _ => rfl | exact ok_of (by decide +kernel) | rfl⟩

theorem wit_ResetRowsComplete_14 : ∃ (dt : Nat) (s : State), let u := s.elapse dt;
  let x := u.syncEn;
  x.stage = 1 ∧ x.pwrBit 31 = true ∧ x.pwrBit 30 = false ∧ x.pwr.riseAt + 10000000 ≤ x.ns :=
  ⟨5000000, (((rdy.setReg .ccxIdState 0x10000)).setReg .ssiPwrStat 0x80000000), by
    (try dsimp only [Runs, Ready, Moves]); and_intros <;> first | decide +kernel | exact fun _ => rfl | exact ok_of (by decide +kernel) | rfl⟩

theorem wit_ResetRowsComplete_15 : ∃ (dt : Nat) (s : State), let u := s.elapse dt;
  ∃ w, u.stage = 6 ∧ u.pwr.warm = some w ∧ w.load = true ∧ w.held = false ∧ u.pwr.mainUp = true ∧ u.fldOf .mmvMemStat 31 1 = 0 :=
  ⟨0, { rdy.setStage 6 with pwr := { rdy.pwr with warm := some ⟨1, 0, true, false, 0, 0, false, false⟩ } }, ⟨1, 0, true, false, 0, 0, false, false⟩, by
    (try dsimp only [Runs, Ready, Moves]); and_intros <;> first | decide +kernel | exact fun _ => rfl | exact ok_of (by decide +kernel) | rfl⟩

theorem wit_ResetRowsComplete_16 : ∃ (dt : Nat) (s : State), let u := s.elapse dt;
  ∃ w, u.stage = 6 ∧ u.pwr.warm = some w ∧ w.load = false ∧ w.held = false :=
  ⟨0, { rdy.setStage 6 with pwr := { rdy.pwr with warm := some ⟨1, 0, false, false, 0, 0, false, false⟩ } }, ⟨1, 0, false, false, 0, 0, false, false⟩, by
    (try dsimp only [Runs, Ready, Moves]); and_intros <;> first | decide +kernel | exact fun _ => rfl | exact ok_of (by decide +kernel) | rfl⟩

theorem wit_ResetRowsComplete_17 : ∃ (dt : Nat) (s : State), let u := s.elapse dt;
  u.stage = 4 ∧ u.pwr.warm = none :=
  ⟨0, (rdy.setReg .ccxIdState 0x40000), by
    (try dsimp only [Runs, Ready, Moves]); and_intros <;> first | decide +kernel | exact fun _ => rfl | exact ok_of (by decide +kernel) | rfl⟩

theorem wit_ResetRowsComplete_18 : ∃ (dt : Nat) (s : State), let u := s.elapse dt;
  ∃ w, u.stage = 4 ∧ u.pwr.warm = some w :=
  ⟨0, { rdy.setStage 4 with pwr := { rdy.pwr with warm := some ⟨1, 0, false, false, 0, 0, false, false⟩ } }, ⟨1, 0, false, false, 0, 0, false, false⟩, by
    (try dsimp only [Runs, Ready, Moves]); and_intros <;> first | decide +kernel | exact fun _ => rfl | exact ok_of (by decide +kernel) | rfl⟩

theorem wit_ResetRowsComplete_19 : ∃ (dt : Nat) (s : State), let u := s.elapse dt;
  u.pwr.porstHigh = true ∧ u.stage = 7 ∧ (∀ e ∈ u.pwr.reqs, u.ns ≤ e.2 + 100) :=
  ⟨0, rdy.setStage 7, by
    (try dsimp only [Runs, Ready, Moves]); and_intros <;> first | decide +kernel | exact fun _ => rfl | exact ok_of (by decide +kernel) | rfl⟩

theorem wit_ResetRowsComplete_20 : ∃ (dt : Nat) (s : State), let u := s.elapse dt;
  ∃ cause : ResetCause, ∃ c0, ∃ t0, ∃ rest, u.pwr.reqs = (c0, t0) :: rest ∧ (u.pwr.reqs.any fun e => e.1 == resetCode cause) = true ∧ (u.pwr.warm = none ∨ u.stage = 7) :=
  ⟨0, { rdy with pwr := { rdy.pwr with reqs := [(1, 0)] } }, .warmHost, 1, 0, [], by
    (try dsimp only [Runs, Ready, Moves]); and_intros <;> first | decide +kernel | exact fun _ => rfl | exact ok_of (by decide +kernel) | rfl⟩

theorem wit_ResetRowsComplete_21 : ∃ (dt : Nat) (s : State), let u := s.elapse dt;
  ∃ w, u.pwr.warm = some w ∧ w.held = true ∧ u.pwrBit 4 = false ∧ u.pwrBit 6 = false ∧ u.pwrBit 30 = true ∧ u.pwr.refs.contains .sref0 = true ∧ (u.pwr.srefAt = 0 ∨ u.pwr.srefAt + 1000000 ≤ u.ns) :=
  ⟨0, { (rdy.setReg .ssiPwrStat 0x40000000) with pwr := { rdy.pwr with warm := some ⟨1, 0, false, true, 0, 0, false, false⟩ } }, ⟨1, 0, false, true, 0, 0, false, false⟩, by
    (try dsimp only [Runs, Ready, Moves]); and_intros <;> first | decide +kernel | exact fun _ => rfl | exact ok_of (by decide +kernel) | rfl⟩

theorem wit_SupplyRowsComplete_0 : ∃ (dt : Nat) (s : State), let u := s.elapse dt;
  ∃ mv, u.pwr.porstHigh = true ∧ u.pwrBit 0 = false ∧ mv < u.warnMv .vcore :=
  ⟨0, rdy, 0, by
    (try dsimp only [Runs, Ready, Moves]); and_intros <;> first | decide +kernel | exact fun _ => rfl | exact ok_of (by decide +kernel) | rfl⟩

theorem wit_SupplyRowsComplete_1 : ∃ (dt : Nat) (s : State), let u := s.elapse dt;
  ∃ mv, u.pwr.porstHigh = true ∧ u.pwrBit 1 = false ∧ mv < 720 :=
  ⟨0, rdy, 719, by
    (try dsimp only [Runs, Ready, Moves]); and_intros <;> first | decide +kernel | exact fun _ => rfl | exact ok_of (by decide +kernel) | rfl⟩

theorem wit_SupplyRowsComplete_2 : ∃ (dt : Nat) (s : State), let u := s.elapse dt;
  ∃ mv, u.pwr.porstHigh = true ∧ u.pwrBit 2 = false ∧ mv < 1660 :=
  ⟨0, rdy, 1659, by
    (try dsimp only [Runs, Ready, Moves]); and_intros <;> first | decide +kernel | exact fun _ => rfl | exact ok_of (by decide +kernel) | rfl⟩

theorem wit_SupplyRowsComplete_3 : ∃ (dt : Nat) (s : State), let u := s.elapse dt;
  ∃ r, u.pwrBit (railNum r) = true :=
  ⟨0, (rdy.setReg .ssiPwrStat 4), .vio, by
    (try dsimp only [Runs, Ready, Moves]); and_intros <;> first | decide +kernel | exact fun _ => rfl | exact ok_of (by decide +kernel) | rfl⟩

theorem wit_SupplyRowsComplete_4 : ∃ (dt : Nat) (s : State), let u := s.elapse dt;
  u.pwr.porstHigh = true :=
  ⟨0, rdy, by
    (try dsimp only [Runs, Ready, Moves]); and_intros <;> first | decide +kernel | exact fun _ => rfl | exact ok_of (by decide +kernel) | rfl⟩

theorem wit_SupplyRowsComplete_5 : ∃ (dt : Nat) (s : State), let u := s.elapse dt;
  u.pwr.porstHigh = true ∧ u.pwr.mainUp = true ∧ u.pwrBit 4 = false :=
  ⟨0, rdy, by
    (try dsimp only [Runs, Ready, Moves]); and_intros <;> first | decide +kernel | exact fun _ => rfl | exact ok_of (by decide +kernel) | rfl⟩

theorem wit_SupplyRowsComplete_6 : ∃ (dt : Nat) (s : State), let u := s.elapse dt;
  u.pwr.enDue = none :=
  ⟨0, rdy, by
    (try dsimp only [Runs, Ready, Moves]); and_intros <;> first | decide +kernel | exact fun _ => rfl | exact ok_of (by decide +kernel) | rfl⟩

theorem wit_SupplyRowsComplete_7 : ∃ (dt : Nat) (s : State), let u := s.elapse dt;
  ∃ w, u.pwr.enDue = none ∧ u.pwr.warm = some w ∧ u.pwrBit 4 = true ∧ w.lowAt + 100000000 ≤ u.ns ∧ w.cycled = false :=
  ⟨50000000, { (rdy.setReg .ssiPwrStat 0x10) with pwr := { rdy.pwr with warm := some { code := 1, at_ := 0, load := false, held := true, boundAt := 0, lowAt := 0, cycled := false, missed := false } } }, ⟨1, 0, false, true, 0, 0, false, false⟩, by
    (try dsimp only [Runs, Ready, Moves]); and_intros <;> first | decide +kernel | exact fun _ => rfl | exact ok_of (by decide +kernel) | rfl⟩

theorem wit_SupplyRowsComplete_8 : ∃ (dt : Nat) (s : State), let u := s.elapse dt;
  ∃ tj : Int, u.pwr.porstHigh = true ∧ tj < maxTj + 5 ∧ u.pwrBit 6 = false :=
  ⟨0, rdy, 0, by (try dsimp only []); and_intros <;> first | decide +kernel | (show (0 : Int) < maxTj + 5; unfold maxTj; split <;> decide)⟩

theorem wit_SupplyRowsComplete_9 : ∃ (dt : Nat) (s : State), let u := s.elapse dt;
  ∃ tj : Int, u.pwr.porstHigh = true ∧ maxTj + 5 ≤ tj ∧ tj < maxTj + 15 ∧ u.pwrBit 6 = false :=
  ⟨0, rdy, (maxTj + 5), by (try dsimp only []); and_intros <;> first | decide +kernel | exact Int.le_refl _ | (show maxTj + 5 < maxTj + 15; omega)⟩

theorem wit_SupplyRowsComplete_10 : ∃ (dt : Nat) (s : State), let u := s.elapse dt;
  ∃ tj : Int, u.pwr.porstHigh = true ∧ maxTj + 15 ≤ tj :=
  ⟨0, rdy, 200, by (try dsimp only []); and_intros <;> first | decide +kernel | (show maxTj + 15 ≤ (200 : Int); unfold maxTj; split <;> decide)⟩

theorem wit_SupplyRowsComplete_11 : ∃ (dt : Nat) (s : State), let u := s.elapse dt;
  u.pwr.refs.contains .pcie = true ∧ u.hp.linkUp = false :=
  ⟨0, { rdy with hp := { rdy.hp with linkUp := false } }, by
    (try dsimp only [Runs, Ready, Moves]); and_intros <;> first | decide +kernel | exact fun _ => rfl | exact ok_of (by decide +kernel) | rfl⟩

theorem wit_SupplyRowsComplete_12 : ∃ (dt : Nat) (s : State), let u := s.elapse dt;
  u.pwr.refs.contains .sref0 = true :=
  ⟨0, rdy, by
    (try dsimp only [Runs, Ready, Moves]); and_intros <;> first | decide +kernel | exact fun _ => rfl | exact ok_of (by decide +kernel) | rfl⟩

theorem wit_SupplyRowsComplete_13 : ∃ (dt : Nat) (s : State), let u := s.elapse dt;
  u.pwr.refs.contains .sref1 = true :=
  ⟨0, rdy, by
    (try dsimp only [Runs, Ready, Moves]); and_intros <;> first | decide +kernel | exact fun _ => rfl | exact ok_of (by decide +kernel) | rfl⟩

theorem wit_SupplyRowsComplete_14 : ∃ (dt : Nat) (s : State), let u := s.elapse dt;
  ∃ r, u.pwr.refs.contains r = false ∧ r ≠ .timeref :=
  ⟨0, { rdy with pwr := { rdy.pwr with refs := [] } }, .sref0, by
    (try dsimp only [Runs, Ready, Moves]); and_intros <;> first | decide +kernel | exact fun _ => rfl | exact ok_of (by decide +kernel) | rfl⟩

theorem wit_SupplyRowsComplete_15 : ∃ (dt : Nat) (s : State), let u := s.elapse dt;
  ∃ w, u.pwr.porstHigh = true ∧ u.pwr.warm = some w ∧ u.pwrBit 4 = false :=
  ⟨0, { rdy with pwr := { rdy.pwr with warm := some ⟨1, 0, false, true, 0, 0, false, false⟩ } }, ⟨1, 0, false, true, 0, 0, false, false⟩, by
    (try dsimp only [Runs, Ready, Moves]); and_intros <;> first | decide +kernel | exact fun _ => rfl | exact ok_of (by decide +kernel) | rfl⟩

theorem wit_SupplyRowsComplete_17 : ∃ (dt : Nat) (s : State), let u := s.elapse dt;
  ∃ w, let x := u.syncEn;
  x.pwr.warm = some w ∧ x.pwrBit 4 = true ∧ w.lowAt + 100000000 ≤ x.ns ∧ w.cycled = false :=
  ⟨50000000, { (rdy.setReg .ssiPwrStat 0x10) with pwr := { rdy.pwr with warm := some { code := 1, at_ := 0, load := false, held := true, boundAt := 0, lowAt := 0, cycled := false, missed := false } } }, ⟨1, 0, false, true, 0, 0, false, false⟩, by
    (try dsimp only [Runs, Ready, Moves]); and_intros <;> first | decide +kernel | exact fun _ => rfl | exact ok_of (by decide +kernel) | rfl⟩

theorem wit_SupplyRowsComplete_18 : ∃ (dt : Nat) (s : State), let u := s.elapse dt;
  ∃ w, let x := u.syncEn;
  x.pwr.warm = some w ∧ x.pwrBit 4 = true ∧ w.lowAt + 100000000 ≤ x.ns ∧ w.cycled = true ∧ w.missed = false :=
  ⟨50000000, { (rdy.setReg .ssiPwrStat 0x10) with pwr := { rdy.pwr with warm := some ⟨1, 0, false, true, 0, 0, true, false⟩ } }, ⟨1, 0, false, true, 0, 0, true, false⟩, by
    (try dsimp only [Runs, Ready, Moves]); and_intros <;> first | decide +kernel | exact fun _ => rfl | exact ok_of (by decide +kernel) | rfl⟩

theorem wit_SupplyRowsComplete_19 : ∃ (dt : Nat) (s : State), let u := s.elapse dt;
  ∃ tj : Int, let v := (u.showTj tj).throttleTj tj;
  u.pwr.porstHigh = true ∧ tj < maxTj + 15 ∧ v.pwrBit 6 = true ∧ tj ≤ maxTj - 15 :=
  ⟨0, rdy.setReg .ssiPwrStat 0x40, 0, by
    have h : maxTj = 125 ∨ maxTj = 105 := by unfold maxTj; split <;> decide
    (try dsimp only [State.throttleTj]); and_intros <;> rcases h with h | h <;> (try simp only [h]) <;> first | decide +kernel | omega⟩

theorem wit_SupplyRowsComplete_20 : ∃ (dt : Nat) (s : State), let u := s.elapse dt;
  u.pwr.refs.contains .pcie = true ∧ u.hp.linkUp = true :=
  ⟨0, rdy, by
    (try dsimp only [Runs, Ready, Moves]); and_intros <;> first | decide +kernel | exact fun _ => rfl | exact ok_of (by decide +kernel) | rfl⟩

theorem wit_SupplyRowsComplete_21 : ∃ (dt : Nat) (s : State), let u := s.elapse dt;
  u.pwr.refs.contains .timeref = true :=
  ⟨0, rdy, by
    (try dsimp only [Runs, Ready, Moves]); and_intros <;> first | decide +kernel | exact fun _ => rfl | exact ok_of (by decide +kernel) | rfl⟩

theorem wit_SupplyRowsComplete_22 : ∃ (dt : Nat) (s : State), let u := s.elapse dt;
  u.pwr.refs.contains .timeref = false :=
  ⟨0, { rdy with pwr := { rdy.pwr with refs := [] } }, by
    (try dsimp only [Runs, Ready, Moves]); and_intros <;> first | decide +kernel | exact fun _ => rfl | exact ok_of (by decide +kernel) | rfl⟩

theorem wit_StepRunsFrontCommand_0 : ∃ (s : State), ∃ c : Instr, ∃ rest, s.pending = c :: rest :=
  ⟨{ rdy with pending := [.timeRead 0 1] }, .timeRead 0 1, [], rfl⟩

theorem wit_StepRunsFrontCommand_1 : ∃ (s : State), s.pending = [] :=
  ⟨rdy, by
    (try dsimp only [Runs, Ready, Moves]); and_intros <;> first | decide +kernel | exact fun _ => rfl | exact ok_of (by decide +kernel) | rfl⟩

theorem wit_ResetState_7 : ∃ n, n < 32 :=
  ⟨31, by decide⟩

theorem wit_WorkRunsKept_0 : ∃ (s t : State), s.WorkRuns ∧ Steps s t :=
  ⟨{ run (cm 0x601 1 []) (jobs [tj 1] rdy) with pending := [.safeAliveToggle 0] }, _, by
    (try dsimp only [Runs, Ready, Moves]); and_intros <;> first | decide +kernel | exact fun _ => rfl | exact ok_of (by decide +kernel) | rfl⟩

theorem wit_HostRowIdle_0 : ∃ (i : Instr) (n code : Nat) (s : State), i.hostCmd = some (n, code) ∧ (∀ c, s.cmd? n = some c → c.code ≠ code ∨ c.state ≠ .running) :=
  ⟨.timeRead 0 1, 1, 0x207, rdy, by
    (try dsimp only [Runs, Ready, Moves]); and_intros <;> first | decide +kernel | exact fun _ => rfl | exact ok_of (by decide +kernel) | rfl⟩

theorem wit_ConfigurationFrames_0 : ∃ (s t : State) (c : Cmd), let u := s.elapse 0; u.tar.jobs = [] ∧ u.tar.slots = [] ∧ u.kv.pages = [] ∧ u.runs 1 0x0201 = some c ∧ exec (.timeSetFormat 0 1) s = .next t :=
  ⟨run (cm 0x0201 1 []) rdy, _, cm 0x0201 1 [], by dsimp only []; and_intros <;> first | decide +kernel | rfl⟩

theorem wit_ConfigurationFrames_1 : ∃ (s t : State) (c : Cmd), let u := s.elapse 0; u.tar.jobs = [] ∧ u.tar.slots = [] ∧ u.kv.pages = [] ∧ u.runs 1 0x0202 = some c ∧ exec (.timeSetSource 0 1) s = .next t :=
  ⟨run (cm 0x0202 1 []) rdy, _, cm 0x0202 1 [], by dsimp only []; and_intros <;> first | decide +kernel | rfl⟩

theorem wit_ConfigurationFrames_2 : ∃ (s t : State) (c : Cmd), let u := s.elapse 0; u.tar.jobs = [] ∧ u.tar.slots = [] ∧ u.kv.pages = [] ∧ u.runs 1 0x0203 = some c ∧ exec (.timeSetIncrement 0 1) s = .next t :=
  ⟨run (cm 0x0203 1 []) rdy, _, cm 0x0203 1 [], by dsimp only []; and_intros <;> first | decide +kernel | rfl⟩

theorem wit_ConfigurationFrames_3 : ∃ (s t : State) (c : Cmd), let u := s.elapse 0; u.tar.jobs = [] ∧ u.tar.slots = [] ∧ u.kv.pages = [] ∧ u.runs 1 0x0206 = some c ∧ exec (.timeSetJumpThreshold 0 1) s = .next t :=
  ⟨run (cm 0x0206 1 []) rdy, _, cm 0x0206 1 [], by dsimp only []; and_intros <;> first | decide +kernel | rfl⟩

theorem wit_ConfigurationFrames_4 : ∃ (s t : State) (c : Cmd), let u := s.elapse 0; u.tar.jobs = [] ∧ u.tar.slots = [] ∧ u.kv.pages = [] ∧ u.runs 1 0x0205 = some c ∧ exec (.timeStepUnlock 0 1) s = .next t :=
  ⟨run (cm 0x0205 1 []) rdy, _, cm 0x0205 1 [], by dsimp only []; and_intros <;> first | decide +kernel | rfl⟩

theorem wit_ConfigurationFrames_5 : ∃ (s t : State) (c : Cmd), let u := s.elapse 0; u.tar.jobs = [] ∧ u.tar.slots = [] ∧ u.kv.pages = [] ∧ u.runs 1 0x0207 = some c ∧ exec (.timeRead 0 1) s = .next t :=
  ⟨run (cm 0x0207 1 []) rdy, _, cm 0x0207 1 [], by dsimp only []; and_intros <;> first | decide +kernel | rfl⟩

theorem wit_ConfigurationFrames_6 : ∃ (s t : State) (c : Cmd), let u := s.elapse 0; u.tar.jobs = [] ∧ u.tar.slots = [] ∧ u.kv.pages = [] ∧ u.runs 1 0x0A01 = some c ∧ exec (.powerSetLimit 0 1) s = .next t :=
  ⟨run (cm 0x0A01 0 []) rdy, _, cm 0x0A01 0 [], by dsimp only []; and_intros <;> first | decide +kernel | rfl⟩

theorem wit_ConfigurationFrames_7 : ∃ (s t : State) (c : Cmd), let u := s.elapse 0; u.tar.jobs = [] ∧ u.tar.slots = [] ∧ u.kv.pages = [] ∧ u.runs 1 0x0A03 = some c ∧ exec (.powerSetMargin 0 1) s = .next t :=
  ⟨run (cm 0x0A03 0 []) rdy, _, cm 0x0A03 0 [], by dsimp only []; and_intros <;> first | decide +kernel | rfl⟩

theorem wit_ConfigurationFrames_8 : ∃ (s t : State) (c : Cmd), let u := s.elapse 0; u.tar.jobs = [] ∧ u.tar.slots = [] ∧ u.kv.pages = [] ∧ u.runs 1 0x0A06 = some c ∧ exec (.powerSetWarn 0 1) s = .next t :=
  ⟨run (cm 0x0A06 0 []) rdy, _, cm 0x0A06 0 [], by dsimp only []; and_intros <;> first | decide +kernel | rfl⟩

theorem wit_ConfigurationFrames_9 : ∃ (s t : State) (c : Cmd), let u := s.elapse 0; u.tar.jobs = [] ∧ u.tar.slots = [] ∧ u.kv.pages = [] ∧ u.runs 1 0x0A07 = some c ∧ exec (.powerStatus 0 1) s = .next t :=
  ⟨run (cm 0x0A07 0 []) rdy, _, cm 0x0A07 0 [], by dsimp only []; and_intros <;> first | decide +kernel | rfl⟩

theorem wit_ConfigurationFrames_10 : ∃ (s t : State) (c : Cmd), let u := s.elapse 0; u.tar.jobs = [] ∧ u.tar.slots = [] ∧ u.kv.pages = [] ∧ u.runs 1 0x0732 = some c ∧ exec (.moveLinkStatus 0 1) s = .next t :=
  ⟨run (cm 0x0732 1 []) rdy, _, cm 0x0732 1 [], by dsimp only []; and_intros <;> first | decide +kernel | rfl⟩

theorem wit_ConfigurationFrames_11 : ∃ (s t : State) (c : Cmd), let u := s.elapse 0; u.tar.jobs = [] ∧ u.tar.slots = [] ∧ u.kv.pages = [] ∧ u.runs 1 0x0761 = some c ∧ exec (.memArbStatus 0 1) s = .next t :=
  ⟨run (cm 0x0761 0 []) rdy, _, cm 0x0761 0 [], by dsimp only []; and_intros <;> first | decide +kernel | rfl⟩

theorem wit_ConfigurationFrames_12 : ∃ (s t : State) (c : Cmd), let u := s.elapse 0; u.tar.jobs = [] ∧ u.tar.slots = [] ∧ u.kv.pages = [] ∧ u.runs 1 0x0762 = some c ∧ exec (.memErrStatus 0 1) s = .next t :=
  ⟨run (cm 0x0762 0 []) rdy, _, cm 0x0762 0 [], by dsimp only []; and_intros <;> first | decide +kernel | rfl⟩

theorem wit_ConfigurationFrames_13 : ∃ (s t : State) (c : Cmd), let u := s.elapse 0; u.tar.jobs = [] ∧ u.tar.slots = [] ∧ u.kv.pages = [] ∧ u.runs 1 0x0760 = some c ∧ exec (.memArbConfig 0 1) s = .next t :=
  ⟨run (cm 0x0760 0 []) rdy, _, cm 0x0760 0 [], by dsimp only []; and_intros <;> first | decide +kernel | rfl⟩

theorem wit_ConfigurationFrames_14 : ∃ (s t : State) (c : Cmd), let u := s.elapse 0; u.tar.jobs = [] ∧ u.tar.slots = [] ∧ u.kv.pages = [] ∧ u.runs 1 0x0842 = some c ∧ exec (.safetyReflexStatus 0 1) s = .next t :=
  ⟨run (cm 0x0842 1 []) rdy, _, cm 0x0842 1 [], by dsimp only []; and_intros <;> first | decide +kernel | rfl⟩

theorem wit_ConfigurationFrames_15 : ∃ (s t : State) (c : Cmd), let u := s.elapse 0; u.tar.jobs = [] ∧ u.tar.slots = [] ∧ u.kv.pages = [] ∧ u.runs 1 0x0805 = some c ∧ exec (.safetyStatus 0 1) s = .next t :=
  ⟨run (cm 0x0805 1 []) rdy, _, cm 0x0805 1 [], by dsimp only []; and_intros <;> first | decide +kernel | rfl⟩

theorem wit_StoreFrames_0 : ∃ (s t : State) (dws : List W32) (first last : BitVec 4) (p : Bool), let u := s.elapse 0; u.tar.jobs = [] ∧ u.tar.slots = [] ∧ u.kv.pages = [] ∧ u.stage = 5 ∧ exec (.dportWrite 0 dws first last p) s = .next t :=
  ⟨rdy, _, [1], 15, 0, false, by dsimp only []; and_intros <;> first | decide +kernel | rfl⟩

theorem wit_StoreFrames_1 : ∃ (s t : State), let u := s.elapse 0; u.tar.jobs = [] ∧ u.tar.slots = [] ∧ u.kv.pages = [] ∧ exec (.dportRead 0 1) s = .next t :=
  ⟨rdy, _, by dsimp only []; and_intros <;> first | decide +kernel | rfl⟩

theorem wit_StoreFrames_2 : ∃ (s t : State), let u := s.elapse 0; u.tar.jobs = [] ∧ u.tar.slots = [] ∧ u.kv.pages = [] ∧ exec (.queueRead 0 63) s = .next t :=
  ⟨rdy, _, by dsimp only []; and_intros <;> first | decide +kernel | rfl⟩

theorem wit_StoreFrames_3 : ∃ (s t : State), let u := s.elapse 0; u.tar.jobs = [] ∧ u.tar.slots = [] ∧ u.kv.pages = [] ∧ exec (.linkFlitRx 0 0 .good (.write 1 0x1000 [1])) s = .next t :=
  ⟨linked 5, _, by dsimp only []; and_intros <;> first | decide +kernel | rfl⟩

theorem wit_StoreFrames_4 : ∃ (s t : State), let u := s.elapse 0; u.tar.jobs = [] ∧ u.tar.slots = [] ∧ u.kv.pages = [] ∧ exec (.mboxSlotWrite 0 0x20 [1] false) s = .next t :=
  ⟨rdy, _, by dsimp only []; and_intros <;> first | decide +kernel | rfl⟩

theorem wit_TimeBaseZeroExtended_1 : ∃ (dt id : Nat) (s : State) (c : Cmd), Runs s dt id 0x0201 c ∧ c.p 0x20 1 = 0 ∧ c.p 0x21 1 ≤ 1 :=
  ⟨0, 1, run (cm 0x201 1 [(0x21, 1, 1)]) rdy, cm 0x201 1 [(0x21, 1, 1)], by
    (try dsimp only [Runs, Ready, Moves]); and_intros <;> first | decide +kernel | exact fun _ => rfl | exact ok_of (by decide +kernel) | rfl⟩

theorem wit_CrossStampLatches_0 : ∃ v : W32, bit v 0 = true :=
  ⟨1, by
    (try dsimp only [Runs, Ready, Moves]); and_intros <;> first | decide +kernel | exact fun _ => rfl | exact ok_of (by decide +kernel) | rfl⟩

theorem wit_CrossStampLatches_1 : ∃ (dt id : Nat) (s : State), ∃ c, Runs s dt id 0x0207 c :=
  ⟨0, 1, run (cm 0x207 1 []) rdy, cm 0x207 1 [], by
    (try dsimp only [Runs, Ready, Moves]); and_intros <;> first | decide +kernel | exact fun _ => rfl | exact ok_of (by decide +kernel) | rfl⟩

theorem wit_RefclkLostEvent_0 : ∃ (dt : Nat) (s : State) (r : RefClk), (s.elapse dt).pwr.refs.contains r = true :=
  ⟨0, rdy, .timeref, by
    (try dsimp only [Runs, Ready, Moves]); and_intros <;> first | decide +kernel | exact fun _ => rfl | exact ok_of (by decide +kernel) | rfl⟩

theorem wit_FunctionEnableDisable_0 : ∃ (dt id : Nat) (s : State) (c : Cmd), let u := s.atRow dt id;
  let kind := c.p 0x20 1;
  let idx := c.p 0x22 2;
  ∃ f, funcExists kind idx = true ∧ f ∈ u.ccx.funcs ∧ Runs s dt id 0x0104 c ∧ f.kind = kind ∧ f.idx = idx ∧ f.committed = false :=
  ⟨0, 1, run (cm 0x104 0 [(0x20, 1, 1), (0x22, 2, 3)]) { rdy with ccx := { rdy.ccx with funcs := [{ kind := 1, idx := 3, discard := false, due := 0, waiting := [], cmds := [], ended := 0, failed := 0, committed := false }] } }, cm 0x104 0 [(0x20, 1, 1), (0x22, 2, 3)], { kind := 1, idx := 3, discard := false, due := 0, waiting := [], cmds := [], ended := 0, failed := 0, committed := false }, by
    (try dsimp only [Runs, Ready, Moves]); and_intros <;> first | decide +kernel | exact fun _ => rfl | exact ok_of (by decide +kernel) | rfl⟩

theorem wit_FunctionEnableDisable_1 : ∃ (dt id : Nat) (s : State) (c : Cmd), let u := s.atRow dt id;
  let kind := c.p 0x20 1;
  let idx := c.p 0x22 2;
  funcExists kind idx = true ∧ Runs s dt id 0x0104 c ∧ u.funcOff kind idx = false ∧ (∀ f ∈ u.ccx.funcs, f.kind = kind → f.idx = idx → f.committed = true) :=
  ⟨0, 1, run (cm 0x104 0 [(0x20, 1, 1), (0x22, 2, 3)]) rdy, cm 0x104 0 [(0x20, 1, 1), (0x22, 2, 3)], by
    (try dsimp only [Runs, Ready, Moves]); and_intros <;> first | decide +kernel | exact fun _ => rfl | exact ok_of (by decide +kernel) | rfl⟩

theorem wit_FunctionEnableDisable_2 : ∃ (dt id : Nat) (s : State) (c : Cmd), let u := s.atRow dt id;
  let kind := c.p 0x20 1;
  let idx := c.p 0x22 2;
  ∃ f, funcExists kind idx = true ∧ Runs s dt id 0x0103 c ∧ (c.aux = [] ∨ c.aux = [3]) ∧ c.p 0x21 1 ≤ 1 ∧ c.p 0x24 4 ≤ 10000 ∧ u.ccx.funcs.find? (fun f => f.kind == kind && f.idx == idx) = some f ∧ f.committed = true :=
  ⟨0, 1, run (cm 0x103 0 [(0x20, 1, 1), (0x22, 2, 3)]) { rdy with ccx := { rdy.ccx with funcs := [{ kind := 1, idx := 3, discard := false, due := 0, waiting := [], cmds := [], ended := 0, failed := 0, committed := true }] } }, cm 0x103 0 [(0x20, 1, 1), (0x22, 2, 3)], { kind := 1, idx := 3, discard := false, due := 0, waiting := [], cmds := [], ended := 0, failed := 0, committed := true }, by
    (try dsimp only [Runs, Ready, Moves]); and_intros <;> first | decide +kernel | exact fun _ => rfl | exact ok_of (by decide +kernel) | rfl⟩

theorem wit_FunctionEnableDisable_3 : ∃ (c : Cmd), let kind := c.p 0x20 1;
  let idx := c.p 0x22 2;
  funcExists kind idx = true ∧ c.deadline = 0 :=
  ⟨cm 0x104 0 [(0x20, 1, 1), (0x22, 2, 3)], by
    (try dsimp only [Runs, Ready, Moves]); and_intros <;> first | decide +kernel | exact fun _ => rfl | exact ok_of (by decide +kernel) | rfl⟩

theorem wit_FenceOrders_0 : ∃ (dt id : Nat) (s : State) (c e : Cmd), let u := s.elapse dt;
  u.cmd? id = some c ∧ c.id = id ∧ c.fence = true ∧ c.code ≠ 0x0102 ∧ e ∈ u.ccx.cmds ∧ e.id < id ∧ e.state.final = false ∧ ((c.group = 1 ∨ c.group = 10) ∧ (e.group = 1 ∨ e.group = 10) ∨
    c.group = 9 ∧ e.group ≠ 1 ∧ e.group ≠ 10 ∧ e.part = c.part) :=
  ⟨0, 1, run2 { cm 0x0A04 1 [] with id := 0 } { cm 0x0104 1 [] with fence := true, state := .accepted } rdy, { cm 0x0104 1 [] with fence := true, state := .accepted }, { cm 0x0A04 1 [] with id := 0 }, by
    (try dsimp only [Runs, Ready, Moves]); and_intros <;> first | decide +kernel | exact fun _ => rfl | exact ok_of (by decide +kernel) | rfl⟩

theorem wit_FenceOrders_1 : ∃ (s : State) (c e : Cmd), let u := s.elapse 0; u.cmd? 1 = some c ∧ c.id = 1 ∧ c.fence = true ∧ c.code ≠ 0x0102 ∧ e ∈ u.ccx.cmds ∧ e.id < 1 ∧ e.state.final = false ∧ c.group = 9 ∧ e.group ≠ 1 ∧ e.group ≠ 10 ∧ e.part = c.part :=
  ⟨run2 { cm 0x0205 1 [] with id := 0 } { cm 0x0906 1 [] with fence := true, state := .accepted } rdy, { cm 0x0906 1 [] with fence := true, state := .accepted }, { cm 0x0205 1 [] with id := 0 }, by dsimp only [Runs]; and_intros <;> first | decide +kernel | rfl⟩

end Sys2Proof.Tests
end

section
/-! The state right after reset: what the reset mailboxes hold, and the obligation about reset. -/
namespace Sys2Proof.Machine

/-! Tables that list one value -/

/-- A table that lists the numbers `l`, all with value v. -/
theorem sget_map_const {α : Type} (d v : α) (l : List Nat) (k : Nat) :
    sget d (l.map fun a => (a, v)) k = if k ∈ l then v else d := by
  induction l with
  | nil => simp [sget]
  | cons a l ih =>
    by_cases h : a = k
    · simp [sget, h]
    · simp [sget, h, Ne.symm h, ih]

theorem risesFrom_of_pairwise {α : Type} : ∀ (o : Option Nat) (m : List (Nat × α)),
    (∀ b, o = some b → ∀ e ∈ m, b < e.1) → m.Pairwise (fun x y => x.1 < y.1) → risesFrom o m = true
  | o, [], _, _ => by cases o <;> rfl
  | none, (a, v) :: r, _, hp => by
    obtain ⟨ha, hr⟩ := List.pairwise_cons.mp hp
    exact risesFrom_of_pairwise (some a) r (by rintro b ⟨⟩; exact ha) hr
  | some b, (a, v) :: r, hb, hp => by
    obtain ⟨ha, hr⟩ := List.pairwise_cons.mp hp
    have hrec := risesFrom_of_pairwise (some a) r (by rintro c ⟨⟩; exact ha) hr
    simpa [risesFrom, hrec] using hb b rfl (a, v) (by simp)

/-! The mailboxes at reset (R70) -/

/-- Byte 3 of every response and event slot holds own = 1; every other byte of the mailboxes reads 0. -/
theorem sget_mboxReset (k : Nat) : sget 0 mboxReset k = if 0x2000 ≤ k ∧ k < 0x6000 ∧ k % 0x100 = 3 then 0x80#8 else 0 := by
  have hget := sget_map_const 0 0x80#8 ((List.range 64).map (0x2003 + 0x100 * ·)) k
  have hlisted : k ∈ (List.range 64).map (0x2003 + 0x100 * ·) ↔ 0x2000 ≤ k ∧ k < 0x6000 ∧ k % 0x100 = 3 := by
    simp only [List.mem_map, List.mem_range]
    exact ⟨by rintro ⟨i, hi, rfl⟩; omega, fun ⟨hlo, hhi, hmod⟩ => ⟨(k - 0x2003) / 0x100, by omega, by omega⟩⟩
  simpa only [mboxReset, List.map_map, Function.comp_def, hlisted] using hget

/-- With the mailboxes as reset leaves them, own is 0 in the request slots and 1 in the response and event slots. -/
theorem State.slotOwn_of_mboxReset {s : State} (h : s.hp.mbox = mboxReset) (n : Nat) : s.slotOwn n = decide (32 ≤ n ∧ n < 96) := by
  rw [State.slotOwn, h, sget_mboxReset]
  by_cases hn : 32 ≤ n ∧ n < 96
  · rw [if_pos (by omega), decide_eq_true hn]; rfl
  · rw [if_neg (by omega), decide_eq_false hn]; rfl

theorem mboxReset_wf : Memory.wf mboxReset = true := by
  have hrises : risesFrom none mboxReset = true := by
    refine risesFrom_of_pairwise none _ (fun _ h => nomatch h) (List.pairwise_map.mpr ?_)
    exact List.pairwise_lt_range.imp fun h => by simp only; omega
  have hvalues : ∀ e ∈ mboxReset, e.2 = 0x80#8 := by
    intro e he
    obtain ⟨i, -, rfl⟩ := List.mem_map.mp he
    rfl
  simp only [Memory.wf, swf, hrises, Bool.true_and, List.all_eq_true]
  intro e he
  rw [hvalues e he]; rfl

/-! The state right after reset -/

@[simp] theorem Reg.resetVal_ccxIdState : Reg.resetVal .ccxIdState = 0 := rfl

/-- Stage 0 is the reset value of CCX_ID_STATE. -/
theorem State.reset_stage : State.reset.stage = 0 := by
  rw [State.stage, State.fldOf, State.reset_reg, Reg.resetVal_ccxIdState]; rfl

theorem State.reset_ready : State.reset.ready = false := by
  rw [State.ready, State.reset_reg, Reg.resetVal_ccxIdState]; rfl

/-- Device memory lists nothing, so every byte reads as one that nothing has written. -/
theorem State.reset_rdByte (a : Nat) : State.reset.rdByte a = 0 := rfl

/-- Nothing is in flight, so there is no work whose command could have ended. -/
theorem State.reset_workRuns : State.reset.WorkRuns :=
  ⟨nofun, nofun, nofun, nofun, nofun, nofun, nofun⟩

theorem State.reset_memOk : State.reset.memOk = true := by
  have hmem : Memory.wf State.reset.mem = true := State.reset_mem_wf
  have hisland : Memory.wf State.reset.island = true := rfl
  have hmbox : Memory.wf State.reset.hp.mbox = true := mboxReset_wf
  rw [State.memOk, hmem, hisland, hmbox]; rfl

/-- Settles O51: the registers and the mailboxes decide what reset shows, and the rest of the state is empty. -/
theorem resetState : Obligations.ResetState := by
  unfold Obligations.ResetState
  have hslots : ∀ n, State.reset.slotOwn n = decide (32 ≤ n ∧ n < 96) := State.slotOwn_of_mboxReset rfl
  refine ⟨State.reset_stage, State.reset_ready, rfl, rfl, State.reset_reg, State.reset_rdByte, rfl, fun n hn => ?_,
    State.reset_workRuns, State.reset_memOk⟩
  simp only [hslots, decide_eq_true_eq, decide_eq_false_iff_not]
  omega

end Sys2Proof.Machine
end

section
/-! The voltage governor: the set points on the way to another (R44), and what sending them changes (R43, R46, R49). -/
namespace Sys2Proof.Machine
variable {s t : State}

/-! One step of the set point, R44 -/

theorem stepToward_self (t : Nat) : stepToward t t = t := by
  simp [stepToward]

/-- A step that goes up ends at most 25 mV higher, and not above the aim. -/
theorem stepToward_of_lt {cur t : Nat} (h : cur < t) : stepToward cur t = min (cur + 25) t := if_pos h

/-- A step that goes down ends at most 25 mV lower, and not below the aim. -/
theorem stepToward_of_ge {cur t : Nat} (h : t ≤ cur) : stepToward cur t = max (cur - 25) t := if_neg (Nat.not_lt.mpr h)

theorem stepToward_le (cur t : Nat) : stepToward cur t ≤ cur + 25 := by
  rcases Nat.lt_or_ge cur t with h | h
  · rw [stepToward_of_lt h]; omega
  · rw [stepToward_of_ge h]; omega

theorem le_stepToward (cur t : Nat) : cur ≤ stepToward cur t + 25 := by
  rcases Nat.lt_or_ge cur t with h | h
  · rw [stepToward_of_lt h]; omega
  · rw [stepToward_of_ge h]; omega

theorem stepToward_lt {cur t b : Nat} (hc : cur < b) (ht : t < b) : stepToward cur t < b := by
  rcases Nat.lt_or_ge cur t with h | h
  · rw [stepToward_of_lt h]; omega
  · rw [stepToward_of_ge h]; omega

/-- What is left of the way, up or down, shrinks with every step. -/
theorem stepToward_closer {cur t : Nat} (h : cur ≠ t) : (t - stepToward cur t) + (stepToward cur t - t) < (t - cur) + (cur - t) := by
  rcases Nat.lt_or_ge cur t with hlt | hge
  · rw [stepToward_of_lt hlt]; omega
  · rw [stepToward_of_ge hge]; omega

/-! All the steps of one row, R44 -/

theorem stepsTo_self (t : Nat) : stepsTo t t = [] := by simp [stepsTo]

/-- The way to another set point begins with one step, and goes on from where that step ends. -/
theorem stepsTo_of_ne {cur t : Nat} (h : cur ≠ t) : stepsTo cur t = stepToward cur t :: stepsTo (stepToward cur t) t := by
  have hlen : ((t - cur) + (cur - t) + 24) / 25 = ((t - stepToward cur t) + (stepToward cur t - t) + 24) / 25 + 1 := by
    rcases Nat.lt_or_gt_of_ne h with hlt | hgt
    · rw [stepToward_of_lt hlt]; omega
    · rw [stepToward_of_ge (Nat.le_of_lt hgt)]; omega
  rw [stepsTo, hlen, List.range_succ_eq_map, List.map_cons, List.map_map, stepsTo]
  refine List.cons_eq_cons.mpr ⟨by simp [stepToward], List.map_congr_left fun i hi => ?_⟩
  have hi := List.mem_range.mp hi
  simp only [Function.comp, Nat.succ_eq_add_one, Nat.min_eq_min, Nat.max_eq_max]
  rcases Nat.lt_or_gt_of_ne h with hlt | hgt
  · rw [stepToward_of_lt hlt] at hi ⊢; rw [if_pos hlt, if_pos (by omega)]; omega
  · rw [stepToward_of_ge (Nat.le_of_lt hgt)] at hi ⊢; rw [if_neg (Nat.lt_asymm hgt), if_neg (by omega)]; omega

/-! A set point is sent, R43, R49 -/

@[simp] theorem State.withGov_vset (s : State) (g : Gov) : ({ s with gov := g } : State).vset = s.vset := rfl

@[simp] theorem State.sendVset_gov (mv : Nat) : (s.sendVset mv).gov = s.gov.sent s.ns mv := rfl
@[simp] theorem State.sendVset_reg_vset (mv : Nat) : (s.sendVset mv).reg .ccxPwrVset = BitVec.ofNat 64 mv := State.setReg_reg_self _ _ _
theorem State.sendVset_reg_ne (mv : Nat) {r : Reg} (h : r ≠ .ccxPwrVset) : (s.sendVset mv).reg r = s.reg r :=
  State.setReg_reg_ne _ _ h

theorem State.vset_congr (h : t.reg .ccxPwrVset = s.reg .ccxPwrVset) : t.vset = s.vset := congrArg BitVec.toNat h

theorem State.vset_lt (s : State) : s.vset < 2 ^ 64 := (s.reg .ccxPwrVset).isLt

theorem State.sendVset_vset {mv : Nat} (h : mv < 2 ^ 64) : (s.sendVset mv).vset = mv := by
  rw [State.vset, State.sendVset_reg_vset, BitVec.toNat_ofNat, Nat.mod_eq_of_lt h]

theorem State.sendVset_step_vset (s : State) {mv : Nat} (h : mv < 2 ^ 64) :
    (s.sendVset (stepToward s.vset mv)).vset = stepToward s.vset mv :=
  State.sendVset_vset (stepToward_lt s.vset_lt h)

@[simp] theorem Gov.sent_target (g : Gov) (a mv : Nat) : (g.sent a mv).target = g.target := by
  unfold Gov.sent; split
  · rfl
  · split <;> rfl

/-- A set point above 0.75 V lets a burst that has begun go on, R46. -/
theorem Gov.sent_above {g : Gov} {a mv b : Nat} (h : 750 < mv) (hb : g.burstAt = some b) :
    g.sent a mv = { g with stepAt := some a, burstAt := some b } := by
  simp [Gov.sent, h, hb]

/-- A set point at or below 0.75 V ends a burst, and bars another for as long as it lasted, R46. -/
theorem Gov.sent_below {g : Gov} {a mv b : Nat} (h : mv ≤ 750) (hb : g.burstAt = some b) :
    g.sent a mv = { g with stepAt := some a, burstAt := none, holdUntil := a + (a - b) } := by
  simp [Gov.sent, Nat.not_lt.mpr h, hb]

/-! All the steps of a whole change are sent, R44 (log entry 38) -/

theorem State.stepTo_self {mv : Nat} (h : s.vset = mv) : s.stepTo mv = s := by rw [State.stepTo, h, stepsTo_self]; rfl

/-- The row of a whole change sends the first step, and goes on from it. -/
theorem State.stepTo_of_ne {mv : Nat} (h : s.vset ≠ mv) (hmv : mv < 2 ^ 64) :
    s.stepTo mv = (s.sendVset (stepToward s.vset mv)).stepTo mv := by
  rw [State.stepTo, stepsTo_of_ne h, List.foldl_cons, State.stepTo, s.sendVset_step_vset hmv]

/-- A whole change arrives at its set point, and keeps what each of its steps keeps. -/
theorem State.stepTo_holds {P : State → Prop} {mv : Nat} (hmv : mv < 2 ^ 64)
    (hstep : ∀ s : State, s.vset ≠ mv → P s → P (s.sendVset (stepToward s.vset mv))) (s : State) (h : P s) :
    (s.stepTo mv).vset = mv ∧ P (s.stepTo mv) := by
  by_cases hs : s.vset = mv
  · rw [State.stepTo_self hs]; exact ⟨hs, h⟩
  · rw [State.stepTo_of_ne hs hmv]
    exact State.stepTo_holds hmv hstep _ (hstep s hs h)
termination_by (mv - s.vset) + (s.vset - mv)
decreasing_by
  rw [s.sendVset_step_vset hmv]
  exact stepToward_closer hs

theorem State.stepTo_vset {mv : Nat} (hmv : mv < 2 ^ 64) : (s.stepTo mv).vset = mv :=
  (State.stepTo_holds (P := fun _ => True) hmv (fun _ _ h => h) s trivial).1

/-! The return from a burst, R46 -/

/-- On the way down from a burst that began at b, to 0.75 V, R46: the burst goes on, or it has ended and bars the next one. -/
def State.LeavesBurst (t : State) (b ns target : Nat) : Prop := t.ns = ns ∧ t.gov.target = target ∧
  (750 < t.vset ∧ t.gov.burstAt = some b ∨ t.vset = 750 ∧ t.gov.burstAt = none ∧ t.gov.holdUntil = ns + (ns - b))

theorem State.sendVset_leavesBurst {b ns target : Nat} (hne : s.vset ≠ 750) (h : s.LeavesBurst b ns target) :
    (s.sendVset (stepToward s.vset 750)).LeavesBurst b ns target := by
  obtain ⟨hns, htgt, ⟨habove, hburst⟩ | ⟨hat, -⟩⟩ := h
  · refine ⟨hns, by simp [htgt], ?_⟩
    rw [s.sendVset_step_vset (by decide), State.sendVset_gov]
    rcases Nat.lt_or_ge 750 (stepToward s.vset 750) with hgo | hend
    · exact .inl ⟨hgo, by rw [Gov.sent_above hgo hburst]⟩
    · have heq : stepToward s.vset 750 = 750 := by rw [stepToward_of_ge (Nat.le_of_lt habove)] at hend ⊢; omega
      exact .inr ⟨heq, by simp [Gov.sent_below hend hburst, hns]⟩
  · exact absurd hat hne

/-- The way down from a burst to 0.75 V ends it, and bars the next one for as long as it lasted, R46. -/
theorem State.stepTo_ends_burst {b : Nat} (hb : s.gov.burstAt = some b) (hv : 750 < s.vset) :
    (s.stepTo 750).gov.burstAt = none ∧ (s.stepTo 750).gov.holdUntil = s.ns + (s.ns - b) ∧
      (s.stepTo 750).gov.target = s.gov.target := by
  have hway : s.LeavesBurst b s.ns s.gov.target := ⟨rfl, rfl, .inl ⟨hv, hb⟩⟩
  obtain ⟨hat, -, htgt, ⟨habove, -⟩ | ⟨-, hnone, hhold⟩⟩ := State.stepTo_holds (by decide) (fun _ => State.sendVset_leavesBurst) s hway
  · omega
  · exact ⟨hnone, hhold, htgt⟩

/-! The close of a row -/

@[simp] theorem State.close_vset (dt : Nat) : (s.close dt t).vset = t.vset := State.vset_congr (s.close_reg dt t _)

end Sys2Proof.Machine
end

section
/-! The commands of the Power group (R48, R94, R95, R475, R487), and their obligation. -/
namespace Sys2Proof.Machine

/-- A command with nothing to refuse goes on. -/
theorem State.firstFail_of_all_false (s : State) (c : Cmd) {l : List (Bool × Nat)} (ok : State → State) (h : ∀ e ∈ l, e.1 = false) :
    s.firstFail c l ok = ok s := by
  have hnone : l.find? (fun e => e.1) = none := List.find?_eq_none.mpr fun e he => by simp [h e he]
  rw [State.firstFail, hnone]

/-- A table that can be read is handed on as it was when the command became RUNNING. -/
theorem State.withTable_of_readable {s : State} {c : Cmd} {a n : Nat} (k : Bytes → State → State) (h : s.tableErr c.tableReq a n = none) :
    s.withTable c a n k = k (s.tableAt c a n) s := by
  rw [State.withTable, State.withTableAs, h]

theorem State.done_reg_ne (s : State) (c : Cmd) {r : Reg} (h : r ≠ .ccxHpMboxErr) : (s.done c).reg r = s.reg r := s.finish_reg_ne _ _ h

variable {s : State} {c : Cmd}

theorem powerSetLimit_in_range (hlo : 60 ≤ c.p 0x20 2) (hhi : c.p 0x20 2 ≤ 260) (hshort : 10 ≤ c.p 0x22 2) (hlong : c.p 0x22 2 ≤ 1000) :
    powerSetLimit c s =
      (({ s with gov := { s.gov with windowMs := c.p 0x22 2 } }).setReg .ccxPwrPpl (BitVec.ofNat 64 (c.p 0x20 2))).done c := by
  rw [powerSetLimit, s.firstFail_of_all_false c _ (by simp [hlo, hhi, hshort, hlong])]

theorem powerSetPolicy_in_range (hk : c.p 0x20 1 ≤ 2) (hshort : 10 ≤ c.p 0x24 4) (hlong : c.p 0x24 4 ≤ 10000) :
    powerSetPolicy c s =
      (let t := if s.gov.avsBad then s.gov.target else if c.p 0x20 1 = 1 then 750 else Nat.min s.gov.target (ceilingMv (c.p 0x20 1))
       ({ s with gov := { s.gov with ceiling := c.p 0x20 1, burstMs := c.p 0x24 4, target := t } }).done c) := by
  rw [powerSetPolicy, s.firstFail_of_all_false c _ (by simp [hk, hshort, hlong])]

theorem powerSetMargin_in_range (hm : c.p 0x20 1 ≤ 50) :
    powerSetMargin c s = ({ s with gov := { s.gov with margin := c.p 0x20 1 } }).done c := by
  rw [powerSetMargin, s.firstFail_of_all_false c _ (by simp [hm])]

theorem powerReadPaceTable_allowed (hroom : 35088 ≤ c.p 0x28 4) (hopen : bit (s.reg .ssiSecStat) 31 = false) (hbus : s.busMaster = true) :
    powerReadPaceTable c s =
      ((s.push c.id (c.p 0x20 8) (s.paceTable.flatMap fun e => leBytes 8 e.toNat) false).setResult c.id 0x20 (leBytes 4 4386)).setVerdict
        c.id 0 := by
  rw [powerReadPaceTable, s.firstFail_of_all_false c _ (by simp [hroom, hopen, hbus])]

/-- A table of whole entries that fits and can be read is loaded entry by entry, R95. -/
theorem powerLoadPaceTable_readable (hwhole : c.p 0x28 4 % 8 = 0) (hfits : c.p 0x28 4 ≤ 35088)
    (hread : s.tableErr c.tableReq (c.p 0x20 8) (c.p 0x28 4) = none) :
    powerLoadPaceTable c s =
      (let b := s.tableAt c (c.p 0x20 8) (c.p 0x28 4)
       let r := (List.range (c.p 0x28 4 / 8)).foldl (fun (x : State × Nat × Nat) i =>
         let y := x.1.loadEntry (BitVec.ofNat 64 (numAt b (8 * i) 8))
         (y.1, if y.2 then (x.2.1 + 1, x.2.2) else (x.2.1, x.2.2 + 1))) (s, 0, 0)
       r.1.doneWith c (leBytes 4 r.2.1 ++ leBytes 4 r.2.2)) := by
  rw [powerLoadPaceTable, s.firstFail_of_all_false c _ (by simp [hwhole, hfits]), State.withTable_of_readable _ hread]

section
variable (hlo : 460 ≤ c.p 0x20 2) (hhi : c.p 0x20 2 ≤ 700) (hceil : c.p 0x20 2 + 20 ≤ ceilingMv s.gov.ceiling)
include hlo hhi hceil

/-- A threshold that the set point already clears is written at once, R475. -/
theorem powerSetWarn_of_clear (hclear : c.p 0x20 2 + 20 ≤ s.vset) :
    powerSetWarn c s = (s.setReg .ssiPwrVcoreWarn (BitVec.ofNat 64 (c.p 0x20 2))).done c := by
  rw [powerSetWarn, s.firstFail_of_all_false c _ (by simp [hlo, hhi, hceil])]
  simp [Nat.not_lt.mpr hclear]

/-- Before a threshold that the set point does not clear, the set point rises to 20 mV above it, R475. -/
theorem powerSetWarn_of_low (hlow : s.vset < c.p 0x20 2 + 20) (havs : s.gov.avsBad = false) :
    powerSetWarn c s =
      ((({ s with gov := { s.gov with target := Nat.max s.gov.target (c.p 0x20 2 + 20) } }).stepTo (c.p 0x20 2 + 20)).setReg
        .ssiPwrVcoreWarn (BitVec.ofNat 64 (c.p 0x20 2))).done c := by
  rw [powerSetWarn, s.firstFail_of_all_false c _ (by simp [hlo, hhi, hceil])]
  simp [hlow, havs]

/-- The threshold holds what the command names, and the set point the higher of what it was and 20 mV above the threshold. -/
theorem powerSetWarn_regs (havs : s.gov.avsBad = false) :
    (powerSetWarn c s).reg .ssiPwrVcoreWarn = BitVec.ofNat 64 (c.p 0x20 2) ∧
      (powerSetWarn c s).vset = Nat.max s.vset (c.p 0x20 2 + 20) := by
  rw [Nat.max_eq_max]
  rcases Nat.lt_or_ge s.vset (c.p 0x20 2 + 20) with hlow | hclear
  · rw [powerSetWarn_of_low hlo hhi hceil hlow havs, Nat.max_eq_right (Nat.le_of_lt hlow), State.vset]
    have hraised := State.stepTo_vset (s := { s with gov := { s.gov with target := Nat.max s.gov.target (c.p 0x20 2 + 20) } })
      (mv := c.p 0x20 2 + 20) (by omega)
    simp only [ne_eq, reduceCtorEq, not_false_eq_true, State.done_reg_ne, State.setReg_reg_self, State.setReg_reg_ne, true_and]
    exact hraised
  · rw [powerSetWarn_of_clear hlo hhi hceil hclear, Nat.max_eq_left hclear]
    simp [State.vset, State.done_reg_ne, State.setReg_reg_ne]
end

/-- Settles O8: with parameters in range no command of the group is refused, and each then does its work. That a policy sets the target, and
that POWER_SET_WARN makes its whole rise in one row, are the model's choices (log entry 38). -/
theorem powerCommandsComplete : Obligations.PowerCommandsComplete := by
  unfold Obligations.PowerCommandsComplete
  intro dt id s c
  refine ⟨?limit, ?policy, ?margin, ?read, ?load, ?warnClear, ?warn, ?status⟩
  case limit => exact fun hr hlo hhi hshort hlong => completes_cmd rfl rfl hr (powerSetLimit_in_range hlo hhi hshort hlong)
  case policy => exact fun hr hk hshort hlong => completes_cmd rfl rfl hr (powerSetPolicy_in_range hk hshort hlong)
  case margin => exact fun hr hm => completes_cmd rfl rfl hr (powerSetMargin_in_range hm)
  case read => exact fun hr hroom hopen hbus => completes_cmd rfl rfl hr (powerReadPaceTable_allowed hroom hopen hbus)
  case load => exact fun hr hwhole hfits hread => completes_cmd rfl rfl hr (powerLoadPaceTable_readable hwhole hfits hread)
  case warnClear => exact fun hr hlo hhi hceil hclear => completes_cmd rfl rfl hr (powerSetWarn_of_clear hlo hhi hceil hclear)
  case warn =>
    intro hr hlo hhi hceil havs
    obtain ⟨hwarn, hvset⟩ := powerSetWarn_regs hlo hhi hceil havs
    have hrow : Completes (.powerSetWarn dt id) s (powerSetWarn c (s.atRow dt id)).settle := completes_cmd rfl rfl hr rfl
    refine ⟨_, hrow, ?_, ?_⟩
    · rw [State.close_reg, State.settle_reg_ne _ (by decide), hwarn]
    · rw [State.close_vset, State.vset, State.settle_reg_ne _ (by decide)]; exact hvset
  case status => exact fun hr => completes_cmd rfl rfl hr rfl

end Sys2Proof.Machine
end

section
/-! The governor's events (R38, R40, R44 to R47, R50, R54, R478), and their obligation. -/
namespace Sys2Proof.Machine
variable {s t : State}

/-! The floor is a function of the pace table, the margin, the band, Tj and the warning threshold (R44, R51, R52, R510) -/

/-- Two states agree on everything that the lowest set point rests on. -/
structure State.SameFloor (s t : State) : Prop where
  table : t.gov.table = s.gov.table
  margin : t.gov.margin = s.gov.margin
  busyPct : t.gov.busyPct = s.gov.busyPct
  tj : t.pwr.tj = s.pwr.tj
  warn : t.reg .ssiPwrVcoreWarn = s.reg .ssiPwrVcoreWarn

section
variable (h : t.gov.table = s.gov.table)
include h

theorem State.paceCell_congr : t.paceCell = s.paceCell := by
  funext v tj b; rw [State.paceCell, State.paceCell, h]

theorem State.substitute_congr : t.substitute = s.substitute := by
  funext v fuel
  induction fuel with
  | zero => rfl
  | succ fuel ih =>
    funext tj
    unfold State.substitute State.cellFilled
    rw [State.paceCell_congr h, ih]

theorem State.bandEntry_congr : t.bandEntry = s.bandEntry := by
  unfold State.bandEntry; rw [State.paceCell_congr h]

theorem State.expectPace_congr (hm : t.gov.margin = s.gov.margin) : t.expectPace = s.expectPace := by
  have hcell : t.cellPace = s.cellPace := by
    unfold State.cellPace; rw [State.substitute_congr h, State.bandEntry_congr h, hm]
  unfold State.expectPace; rw [hcell]
end

theorem State.SameFloor.floorMv (h : s.SameFloor t) : t.floorMv = s.floorMv := by
  unfold State.floorMv
  rw [State.expectPace_congr h.table h.margin, h.busyPct, h.tj, h.warn]

theorem State.SameFloor.trans {u : State} (h : s.SameFloor t) (k : t.SameFloor u) : s.SameFloor u :=
  ⟨k.table.trans h.table, k.margin.trans h.margin, k.busyPct.trans h.busyPct, k.tj.trans h.tj, k.warn.trans h.warn⟩

/-! Flags, the target and the gate -/

theorem bit_setBit_true (v : W64) {i : Nat} (h : i < 64) : bit (setBit v i true) i = true := by
  rw [bit, setBit, setFld, BitVec.getLsbD_or, BitVec.getLsbD_ofNat, Nat.testBit_shiftLeft]
  simp [h]

theorem State.setFlag_bit (i : Nat) (h : i < 64) : bit ((s.setFlag i).reg .ccxPwrFlags) i = true := by
  rw [State.setFlag, State.modReg_reg_self, bit_setBit_true _ h]

theorem State.setFlag_reg_ne (i : Nat) {r : Reg} (h : r ≠ .ccxPwrFlags) : (s.setFlag i).reg r = s.reg r := State.modReg_reg_ne _ _ h

/-- The target falls, and where the floor holds it the floor is flagged. -/
theorem State.lowerTarget_cases (s : State) :
    let v : State := { s with gov := { s.gov with target := Nat.max s.floorMv (Nat.min s.gov.target (s.vset - 25)) } }
    s.lowerTarget = v ∨ s.lowerTarget = v.setFlag 3 := by
  unfold State.lowerTarget; dsimp only; split
  · exact .inr rfl
  · exact .inl rfl

theorem State.lowerTarget_gov : s.lowerTarget.gov = { s.gov with target := Nat.max s.floorMv (Nat.min s.gov.target (s.vset - 25)) } :=
  s.lowerTarget_cases.elim (congrArg State.gov) (congrArg State.gov)

@[simp] theorem State.lowerTarget_pwr : s.lowerTarget.pwr = s.pwr :=
  s.lowerTarget_cases.elim (congrArg State.pwr) (congrArg State.pwr)

theorem State.lowerTarget_reg_ne {r : Reg} (hr : r ≠ .ccxPwrFlags) : s.lowerTarget.reg r = s.reg r := by
  rcases s.lowerTarget_cases with h | h <;> rw [h]
  · rfl
  · exact State.setFlag_reg_ne _ hr

theorem State.lowerTarget_sameFloor : s.SameFloor s.lowerTarget where
  table := by rw [State.lowerTarget_gov]
  margin := by rw [State.lowerTarget_gov]
  busyPct := by rw [State.lowerTarget_gov]
  tj := by rw [State.lowerTarget_pwr]
  warn := State.lowerTarget_reg_ne (by decide)

/-- The target fallen stands at the floor, or at least 25 mV below the set point. -/
theorem State.lowerTarget_target : s.lowerTarget.gov.target = s.floorMv ∨ s.lowerTarget.gov.target + 25 ≤ s.vset := by
  have hfloor : 500 ≤ s.floorMv := by simp only [State.floorMv, Nat.max_eq_max]; omega
  simp only [State.lowerTarget_gov, Nat.max_eq_max, Nat.min_eq_min]
  omega

/-- The gate takes its duty and the time for which it has gated is noted; a gate that is not open is flagged, and reported once it has
lasted. -/
theorem State.setGate_cases (s : State) (d : Nat) : ∃ since told,
    let v : State := { s.setFldOf .tarIssueGate 0 7 d with gov := { s.gov with gatedSince := since, gatedTold := told } }
    s.setGate d = v ∨ s.setGate d = v.setFlag 0 ∨ s.setGate d = (v.setFlag 0).raise 0x0A01 0 := by
  unfold State.setGate; dsimp only; split
  · split
    · exact ⟨some s.ns, false, .inr (.inl rfl)⟩
    · split
      · exact ⟨s.gov.gatedSince, true, .inr (.inr rfl)⟩
      · exact ⟨s.gov.gatedSince, s.gov.gatedTold, .inr (.inl rfl)⟩
  · exact ⟨none, false, .inl rfl⟩

theorem State.setGate_gov (d : Nat) : ∃ since told, (s.setGate d).gov = { s.gov with gatedSince := since, gatedTold := told } := by
  obtain ⟨since, told, h | h | h⟩ := s.setGate_cases d <;> refine ⟨since, told, ?_⟩ <;> rw [h]
  · rfl
  · exact State.raise_gov _ _ _ _

@[simp] theorem State.setGate_pwr (d : Nat) : (s.setGate d).pwr = s.pwr := by
  obtain ⟨since, told, h | h | h⟩ := s.setGate_cases d <;> rw [h]
  · rfl
  · rfl
  · exact State.raise_pwr _ _ _ _

theorem State.setGate_reg_ne (d : Nat) {r : Reg} (hg : r ≠ .tarIssueGate) (hf : r ≠ .ccxPwrFlags) (hm : r ≠ .ccxHpMboxErr) :
    (s.setGate d).reg r = s.reg r := by
  have hgate := State.setFldOf_reg_ne s 0 7 d hg
  obtain ⟨since, told, h | h | h⟩ := s.setGate_cases d <;> rw [h]
  · exact hgate
  · exact (State.setFlag_reg_ne _ hf).trans hgate
  · exact ((State.raise_reg_ne _ _ _ _ hm).trans (State.setFlag_reg_ne _ hf)).trans hgate

theorem State.setGate_sameFloor (d : Nat) : s.SameFloor (s.setGate d) := by
  obtain ⟨since, told, hgov⟩ := s.setGate_gov d
  exact ⟨by rw [hgov], by rw [hgov], by rw [hgov], by simp, State.setGate_reg_ne _ (by decide) (by decide) (by decide)⟩

/-! The close of a row keeps what the governor reads -/

theorem State.close_sameFloor (s t : State) (dt : Nat) : t.SameFloor (s.close dt t) := ⟨by simp, by simp, by simp, by simp, by simp⟩

theorem State.overPpl_congr (hppl : t.reg .ccxPwrPpl = s.reg .ccxPwrPpl) (hs : t.gov.samples = s.gov.samples)
    (hw : t.gov.windowMs = s.gov.windowMs) : t.overPpl = s.overPpl := by
  rw [State.overPpl, State.powerAvg, hppl, hs, hw]; rfl

@[simp] theorem State.close_strm (dt n : Nat) : (s.close dt t).strm n = t.strm n := by rw [State.strm, State.close_siu]; rfl

@[simp] theorem State.close_overPpl (dt : Nat) : (s.close dt t).overPpl = t.overPpl :=
  State.overPpl_congr (by simp) (by simp) (by simp)

/-! PACE_INTERVAL_END, R38, R40, R50 -/

theorem paceIntervalEnd_of_end {ss : Nat} (ops probes : List Nat) (hup : s.pwr.mainUp = true) (hss : ss < 8) (hend : s.ivEnds ss = true) :
    paceIntervalEnd ss ops probes s =
      (if ss = ssTar then ((s.setPaceIv ss (s.nextIv ss)).latchPace ss ops probes).updatePace
        else (s.setPaceIv ss (s.nextIv ss)).latchPace ss ops probes).watermarks := by
  rw [paceIntervalEnd, if_neg (by simp [hup, hend]; omega)]

/-! AVS_SET_POINT_STEP, R44 -/

/-- The regulator's status and voltage are read, and the floor is flagged where it holds the governor. -/
def State.polled (s : State) : State :=
  let r := (s.emit (.avs 0 .statusRead)).emit (.avs 0 .voltageRead)
  if s.gov.target < s.floorMv then r.setFlag 3 else r

theorem State.polled_reg_ne {r : Reg} (h : r ≠ .ccxPwrFlags) : s.polled.reg r = s.reg r := by
  unfold State.polled; dsimp only; split
  · exact State.setFlag_reg_ne _ h
  · rfl

theorem State.polled_vset : s.polled.vset = s.vset := State.vset_congr (State.polled_reg_ne (by decide))

theorem State.polled_flag (h : s.gov.target < s.floorMv) : bit (s.polled.reg .ccxPwrFlags) 3 = true := by
  rw [State.polled, if_pos h]; exact State.setFlag_bit 3 (by decide)

section
variable (v : VcoreRead) (hbad : s.gov.avsBad = false) (hready : s.ready = true) (hwait : s.stepReady v.settled = true)
include hbad hready hwait

/-- Where nothing keeps it from acting, the row polls the regulator and sends one step toward what the limits allow. -/
theorem avsSetPointStep_of_ready : avsSetPointStep v s =
    (if s.vset = s.clampTarget then s.polled else s.polled.sendVset (stepToward s.vset s.clampTarget)).setReg .ccxPwrVmeas
      (BitVec.ofNat 64 v.mv) := by
  have hfloor : ((s.emit (.avs 0 .statusRead)).emit (.avs 0 .voltageRead)).floorMv = s.floorMv :=
    State.SameFloor.floorMv ⟨rfl, rfl, rfl, rfl, rfl⟩
  rw [avsSetPointStep, if_neg (by simp [hbad, hready, hwait])]
  simp only [hfloor, State.emit_gov]
  change (if s.polled.vset = _ then _ else s.polled.sendVset (stepToward s.polled.vset _)).setReg _ _ = _
  rw [State.polled_vset]
  rfl

theorem avsSetPointStep_vmeas : (avsSetPointStep v s).reg .ccxPwrVmeas = BitVec.ofNat 64 v.mv := by
  rw [avsSetPointStep_of_ready v hbad hready hwait, State.setReg_reg_self]

theorem avsSetPointStep_reg_vset : (avsSetPointStep v s).reg .ccxPwrVset =
    if s.vset = s.clampTarget then s.reg .ccxPwrVset else BitVec.ofNat 64 (stepToward s.vset s.clampTarget) := by
  rw [avsSetPointStep_of_ready v hbad hready hwait, State.setReg_reg_ne _ _ (by decide)]
  split
  · exact State.polled_reg_ne (by decide)
  · exact State.sendVset_reg_vset _

theorem avsSetPointStep_flag (h : s.gov.target < s.floorMv) : bit ((avsSetPointStep v s).reg .ccxPwrFlags) 3 = true := by
  rw [avsSetPointStep_of_ready v hbad hready hwait, State.setReg_reg_ne _ _ (by decide)]
  split
  · exact State.polled_flag h
  · rw [State.sendVset_reg_ne _ (by decide)]; exact State.polled_flag h

theorem avsSetPointStep_vset (hv : s.vset ≤ 900) : (avsSetPointStep v s).vset = stepToward s.vset s.clampTarget := by
  have hsmall : stepToward s.vset s.clampTarget < 2 ^ 64 := by have := stepToward_le s.vset s.clampTarget; omega
  rw [State.vset, avsSetPointStep_reg_vset v hbad hready hwait]
  split
  · next h => rw [← h, stepToward_self]; rfl
  · rw [BitVec.toNat_ofNat, Nat.mod_eq_of_lt hsmall]
end

/-! POWER_LIMIT_TICK, R45, R478 -/

/-- The tick records the power, lets the target fall above the PPL, and moves the gate. -/
theorem powerLimitTick_of_ready (p : PowerRead) (busy : Nat) (hready : s.ready = true) : ∃ (w : State) (d : Nat),
    w.gov = { s.gov with samples := (s.pkgPower p :: s.gov.samples).take 1000, busyPct := Nat.min busy 100 } ∧ w.vset = s.vset ∧
      powerLimitTick p busy s = (if w.overPpl && !w.gov.avsBad then w.lowerTarget else w).setGate d := by
  rw [powerLimitTick, if_neg (by simp [hready])]
  refine ⟨_, _, ?_, ?_, rfl⟩
  · simp only [State.setFldOf_gov, State.setReg_gov]; split <;> rfl
  · rw [State.vset, State.setFldOf_reg_ne _ _ _ _ (by decide), State.setReg_reg_ne _ _ (by decide)]; split <;> rfl

/-- What a tick leaves: the new sample, the busy fraction and, above the PPL, a target at the floor or 25 mV below the set point. -/
theorem powerLimitTick_effect (p : PowerRead) (busy : Nat) (hready : s.ready = true) : let t := powerLimitTick p busy s
    t.gov.samples = (s.pkgPower p :: s.gov.samples).take 1000 ∧ t.gov.busyPct = Nat.min busy 100 ∧
      (t.overPpl = true → s.gov.avsBad = false → t.gov.target = t.floorMv ∨ t.gov.target + 25 ≤ s.vset) := by
  obtain ⟨w, d, hgov, hvset, heq⟩ := powerLimitTick_of_ready p busy hready
  by_cases hfall : w.overPpl = true ∧ w.gov.avsBad = false
  · rw [if_pos (by simp [hfall])] at heq
    obtain ⟨since, told, hg⟩ := w.lowerTarget.setGate_gov d
    have hfloor := (State.lowerTarget_sameFloor.trans (w.lowerTarget.setGate_sameFloor d)).floorMv
    rw [← heq] at hg hfloor
    refine ⟨?_, ?_, fun _ _ => ?_⟩
    · rw [hg, State.lowerTarget_gov, hgov]
    · rw [hg, State.lowerTarget_gov, hgov]
    · rw [hg, hfloor, ← hvset]; exact w.lowerTarget_target
  · rw [if_neg (by simpa using hfall)] at heq
    obtain ⟨since, told, hg⟩ := w.setGate_gov d
    have hppl : (w.setGate d).overPpl = w.overPpl :=
      State.overPpl_congr (State.setGate_reg_ne _ (by decide) (by decide) (by decide)) (by rw [hg]) (by rw [hg])
    rw [← heq] at hg hppl
    refine ⟨by rw [hg, hgov], by rw [hg, hgov], fun hover hbad => absurd ⟨hppl ▸ hover, ?_⟩ hfall⟩
    rw [hgov]; exact hbad

/-! BURST_END, R46 -/

section
variable (hready : s.ready = true) (hburst : s.gov.burstAt ≠ none) (hover : s.burstAllowed = false)
include hready hburst hover

/-- A burst that is over aims at 0.75 V at most, and goes there unless the regulator cannot be reached. -/
theorem burstEnd_of_over : burstEnd s =
    (let v : State := { s with gov := { s.gov with target := Nat.min s.gov.target 750 } }
     if s.gov.avsBad then v else v.stepTo (Nat.min s.vset 750)) := by
  rw [burstEnd, if_neg (by simp [hready, hburst, hover])]
  rfl

/-- Under an AVSBus fault, or at 0.75 V or below already, no set point is sent. -/
theorem burstEnd_stays (h : s.gov.avsBad = true ∨ s.vset ≤ 750) :
    burstEnd s = { s with gov := { s.gov with target := Nat.min s.gov.target 750 } } := by
  rw [burstEnd_of_over hready hburst hover]
  rcases h with hbad | hlow
  · exact if_pos hbad
  · dsimp only
    split
    · rfl
    · exact State.stepTo_self (Nat.min_eq_left hlow).symm
end

/-- From above 0.75 V the set point returns to 0.75 V, and the next burst is barred for as long as this one lasted. -/
theorem burstEnd_returns {b : Nat} (hready : s.ready = true) (hburst : s.gov.burstAt = some b) (hover : s.burstAllowed = false)
    (hbad : s.gov.avsBad = false) (hv : 750 < s.vset) : let t := burstEnd s
    t.vset = 750 ∧ t.gov.burstAt = none ∧ t.gov.target ≤ 750 ∧ t.gov.holdUntil = s.ns + (s.ns - b) := by
  have hrow : burstEnd s = ({ s with gov := { s.gov with target := Nat.min s.gov.target 750 } } : State).stepTo 750 := by
    rw [burstEnd_of_over hready (by simp [hburst]) hover]
    exact (if_neg (by simp [hbad])).trans (congrArg _ (Nat.min_eq_right (Nat.le_of_lt hv)))
  obtain ⟨hnone, hhold, htgt⟩ :=
    State.stepTo_ends_burst (s := { s with gov := { s.gov with target := Nat.min s.gov.target 750 } }) hburst hv
  dsimp only
  rw [hrow]
  exact ⟨State.stepTo_vset (by decide), hnone, Nat.le_trans (Nat.le_of_eq htgt) (Nat.min_le_right _ _), hhold⟩

/-! THERMAL_THROTTLE_TICK, R47, R50 -/

/-- The instant of the step is noted. -/
def State.markThermal (s : State) : State := { s with gov := { s.gov with thermalAt := some s.ns } }

theorem State.markThermal_sameFloor (s : State) : s.SameFloor s.markThermal := ⟨rfl, rfl, rfl, rfl, rfl⟩

theorem State.markThermal_lowerTarget_vset (s : State) : s.markThermal.lowerTarget.vset = s.vset :=
  State.vset_congr (State.lowerTarget_reg_ne (s := s.markThermal) (by decide))

theorem State.markThermal_lowerTarget_target (s : State) :
    s.markThermal.lowerTarget.gov.target = Nat.max s.floorMv (Nat.min s.gov.target (s.vset - 25)) := by
  rw [State.lowerTarget_gov, s.markThermal_sameFloor.floorMv]; rfl

section
variable (hready : s.ready = true) (hhot : s.hot = true) (hdue : ∀ t0, s.gov.thermalAt = some t0 → t0 + 1000000 ≤ s.ns)
include hready hhot hdue

/-- A hot part acts once a millisecond: on the gate under an AVSBus fault, else on the target and on a set point above it. -/
theorem thermalThrottleTick_of_due : thermalThrottleTick s =
    if s.gov.avsBad then s.markThermal.setGate (Nat.max 1 (s.gate - 1))
    else if s.markThermal.lowerTarget.vset ≤ s.markThermal.lowerTarget.gov.target then s.markThermal.lowerTarget
    else s.markThermal.lowerTarget.sendVset
      (stepToward s.markThermal.lowerTarget.vset s.markThermal.lowerTarget.gov.target) := by
  refine (if_neg ?_).trans rfl
  cases h : s.gov.thermalAt with
  | none => simp [hready, hhot]
  | some t0 => simp [hready, hhot, hdue t0 h]

theorem thermalThrottleTick_gate (hbad : s.gov.avsBad = true) : thermalThrottleTick s =
    ({ s with gov := { s.gov with thermalAt := some s.ns } } : State).setGate (Nat.max 1 (s.gate - 1)) := by
  rw [thermalThrottleTick_of_due hready hhot hdue, if_pos hbad, State.markThermal]

/-- The target falls 25 mV below the set point, but not below the floor, and the set point takes a step to a target below it. -/
theorem thermalThrottleTick_lowers (hbad : s.gov.avsBad = false) : let t := thermalThrottleTick s
    t.gov.target = Nat.max s.floorMv (Nat.min s.gov.target (s.vset - 25)) ∧
      (t.gov.target < s.vset → t.vset = stepToward s.vset t.gov.target) := by
  dsimp only
  rw [thermalThrottleTick_of_due hready hhot hdue, if_neg (by simp [hbad]), s.markThermal_lowerTarget_vset,
    ← s.markThermal_lowerTarget_target]
  split
  · next h => exact ⟨rfl, fun hlt => absurd h (Nat.not_le.mpr hlt)⟩
  · next h =>
    have htgt : s.markThermal.lowerTarget.gov.target < 2 ^ 64 := Nat.lt_trans (Nat.not_le.mp h) s.vset_lt
    rw [State.sendVset_gov, Gov.sent_target]
    exact ⟨rfl, fun _ => State.sendVset_vset (stepToward_lt s.vset_lt htgt)⟩
end

/-! AVS_FAULT and AVS_RETRY, R50 -/

theorem avsFault_of_good (hready : s.ready = true) (hbad : s.gov.avsBad = false) :
    avsFault s = (({ s with gov := { s.gov with avsBad := true, avsAt := s.ns } } : State).setFlag 2).raise 0x0A02 0 :=
  if_pos ⟨hready, by simp [hbad]⟩

theorem avsRetry_of_due (ok : Bool) (hbad : s.gov.avsBad = true) (hdue : s.gov.avsAt + 1000000000 ≤ s.ns) :
    avsRetry ok s =
      (let v := s.emit (.avs 0 .statusRead)
       if ok then { v with gov := { v.gov with avsBad := false, target := Nat.min v.gov.target (ceilingMv v.gov.ceiling) } }
       else { v with gov := { v.gov with avsAt := v.ns } }) :=
  if_neg (by simp [hbad, hdue])

/-! PACE_TABLE_MERGE, R54, R170 -/

theorem State.modStrm_strm_self (n : Nat) (f : Strm → Strm) : (s.modStrm n f).strm n = f (s.strm n) := sget_sset_self _ _ _ _

theorem State.modStrm_strm_ne {n m : Nat} (f : Strm → Strm) (h : m ≠ n) : (s.modStrm n f).strm m = s.strm m := sget_sset_ne _ _ _ h

theorem State.foldl_modStrm_gov (f : Strm → Strm) (l : List Nat) (s : State) :
    (l.foldl (fun (s : State) n => s.modStrm n f) s).gov = s.gov := by
  induction l generalizing s with
  | nil => rfl
  | cons n l ih => exact ih _

/-- Once the calibrations of a list of streams are merged, none of them gathers maxima; a stream outside the list that gathered none
gathers none. -/
theorem State.foldl_mergeCal_calMax (l : List Nat) (s : State) {n : Nat} (h : n ∈ l ∨ (s.strm n).calMax = []) :
    ((l.foldl (fun (s : State) n => s.modStrm n Strm.mergeCal) s).strm n).calMax = [] := by
  induction l generalizing s with
  | nil => exact h.resolve_left (by simp)
  | cons m l ih =>
    refine ih _ ?_
    by_cases hm : n = m
    · subst hm; rw [State.modStrm_strm_self]; exact .inr rfl
    · rw [State.modStrm_strm_ne _ hm]
      simpa [hm] using h

theorem paceTableMerge_of_quiet (hready : s.ready = true) (hquiet : s.quiet = true) :
    paceTableMerge s = (List.range 64).foldl (fun (s : State) n => s.modStrm n Strm.mergeCal) s.mergePace :=
  if_pos (by simp [hready, hquiet])

theorem paceTableMerge_stats (hready : s.ready = true) (hquiet : s.quiet = true) : (paceTableMerge s).gov.stats = [] := by
  rw [paceTableMerge_of_quiet hready hquiet, State.foldl_modStrm_gov]; rfl

theorem paceTableMerge_calMax (hready : s.ready = true) (hquiet : s.quiet = true) {n : Nat} (hn : n < 64) :
    ((paceTableMerge s).strm n).calMax = [] := by
  rw [paceTableMerge_of_quiet hready hquiet]
  exact State.foldl_mergeCal_calMax _ _ (.inl (List.mem_range.mpr hn))

/-! The obligation -/

/-- Settles O9: each event's row is its meaning's state closed, and the close keeps the registers, the governor's record and the streams. The
duty of the gate (log entry 37), the whole return of a burst in one row (log entry 38), and the floor that wins over the limits and the forms of
average and merge (log entry 85) are the model's choices. -/
theorem governorEventsComplete : Obligations.GovernorEventsComplete := by
  unfold Obligations.GovernorEventsComplete
  intro dt s
  refine ⟨?interval, ?intervalTar, ?step, ?limit, ?burst, ?hot, ?hotGate, ?fault, ?retry, ?merge, ?stepRegs, ?burstStays⟩
  case interval =>
    intro ss ops probes hup hss hne hend
    exact completes_event rfl rfl ((paceIntervalEnd_of_end ops probes hup hss hend).trans (by rw [if_neg (show ¬ ss = ssTar from hne)]))
  case intervalTar =>
    intro ops probes hup hend
    exact completes_event rfl rfl (paceIntervalEnd_of_end ops probes hup (by decide) hend)
  case step =>
    intro v hbad hready hwait hv _
    have hvset := avsSetPointStep_vset ⟨v, true⟩ hbad hready hwait hv
    refine ⟨_, rfl, ?_, ?_, ?_, ?_⟩
    · rw [State.close_vset, hvset]
    · rw [State.close_vset, hvset]; exact stepToward_le _ _
    · rw [State.close_vset, hvset]; exact le_stepToward _ _
    · rw [State.close_reg, avsSetPointStep_vmeas ⟨v, true⟩ hbad hready hwait]
  case limit =>
    intro amps rest busy hready
    obtain ⟨hsamples, hbusy, hfall⟩ := powerLimitTick_effect ⟨amps, rest⟩ busy hready
    refine ⟨_, rfl, ?_, ?_, ?_⟩
    · rw [State.close_gov, hsamples]
    · rw [State.close_gov, hbusy]
    · rw [State.close_overPpl, (State.close_sameFloor _ _ _).floorMv, State.close_gov]; exact hfall
  case burst =>
    intro at_ hready hburst hover hbad hv
    obtain ⟨hvset, hnone, htgt, hhold⟩ := burstEnd_returns hready hburst hover hbad hv
    refine ⟨_, rfl, ?_⟩
    rw [State.close_vset, State.close_gov]
    exact ⟨hvset, hnone, htgt, hhold⟩
  case hot =>
    intro hready hhot hbad hdue
    obtain ⟨htgt, hvset⟩ := thermalThrottleTick_lowers hready hhot hdue hbad
    refine ⟨_, rfl, ?_⟩
    rw [State.close_vset, State.close_gov]
    exact ⟨htgt, fun hlt _ => hvset hlt⟩
  case hotGate => exact fun hready hhot hbad hdue => completes_event rfl rfl (thermalThrottleTick_gate hready hhot hdue hbad)
  case fault => exact fun hready hbad => completes_event rfl rfl (avsFault_of_good hready hbad)
  case retry =>
    exact fun hbad hdue => ⟨completes_event rfl rfl (avsRetry_of_due true hbad hdue),
      completes_event rfl rfl (avsRetry_of_due false hbad hdue)⟩
  case merge =>
    intro hready hquiet
    refine ⟨_, rfl, ?_, fun n hn => ?_⟩
    · rw [State.close_gov, paceTableMerge_stats hready hquiet]
    · rw [State.close_strm, paceTableMerge_calMax hready hquiet hn]
  case stepRegs =>
    intro v hbad hready hwait
    refine ⟨_, rfl, ?_, ?_, fun hlow => ?_⟩
    · rw [State.close_reg, avsSetPointStep_vmeas ⟨v, true⟩ hbad hready hwait]
    · rw [State.close_reg, avsSetPointStep_reg_vset ⟨v, true⟩ hbad hready hwait]
    · rw [State.close_reg]; exact avsSetPointStep_flag ⟨v, true⟩ hbad hready hwait hlow
  case burstStays => exact fun hready hburst hover h => completes_event rfl rfl (burstEnd_stays hready hburst hover h)

end Sys2Proof.Machine
end

section
/-! The close of every row removes the work of ended commands (R106, R121): the invariant of steps. -/
namespace Sys2Proof.Machine

/-- Whatever a row leaves, its close leaves no engine working for a command that has ended. -/
theorem State.close_workRuns (s t : State) (dt : Nat) : (s.close dt t).WorkRuns := t.pruneTar_workRuns

/-- Settles O52: an idle step changes nothing, and every command's row ends with the close that establishes the invariant. -/
theorem workRunsKept : Obligations.WorkRunsKept := by
  unfold Obligations.WorkRunsKept Steps step
  intro s t hs hstep
  cases hq : s.pending with
  | nil =>
    rw [hq] at hstep
    cases hstep
    exact hs
  | cons i rest =>
    rw [hq] at hstep
    obtain ⟨u, hu⟩ := exec_closes i { s with pending := rest }
    cases hu.symm.trans hstep
    exact State.close_workRuns _ _ _

end Sys2Proof.Machine
end

section
/-! The commands that disable and enable functions (R108 to R111), and their obligations. -/
namespace Sys2Proof.Machine
variable {s : State} {c : Cmd}

theorem Cmd.disableOk_of_in_range (hf : funcExists (c.p 0x20 1) (c.p 0x22 2) = true) (hmode : c.p 0x21 1 ≤ 1) (hms : c.p 0x24 4 ≤ 10000) :
    c.disableOk = true := by simp [Cmd.disableOk, hf, hmode, hms]

/-- An earlier disable of the named function, where there is one, says whether it has committed. -/
theorem State.disabledBefore_of_committed {f : FuncRec}
    (hfind : s.ccx.funcs.find? (fun f => f.kind == c.p 0x20 1 && f.idx == c.p 0x22 2) = some f) (hf : f.committed = true) :
    s.disabledBefore c = true := by
  have hnamed := List.find?_some hfind
  exact List.any_eq_true.mpr ⟨f, List.mem_of_find?_eq_some hfind, by rw [hnamed, hf]; rfl⟩

theorem State.disabledBefore_of_unnamed (h : ∀ f ∈ s.ccx.funcs, f.kind ≠ c.p 0x20 1 ∨ f.idx ≠ c.p 0x22 2) :
    s.disabledBefore c = false := by
  refine List.any_eq_false.mpr fun f hf => ?_
  rcases h f hf with hk | hi
  · simp [hk]
  · simp [hi]

/-- No record is found of a function that none names. -/
theorem State.find_func_of_unnamed {kind idx : Nat} (h : ∀ f ∈ s.ccx.funcs, f.kind ≠ kind ∨ f.idx ≠ idx) :
    s.ccx.funcs.find? (fun f => f.kind == kind && f.idx == idx) = none := by
  refine List.find?_eq_none.mpr fun f hf => ?_
  rcases h f hf with hk | hi
  · simp [hk]
  · simp [hi]

/-! CTRL_FUNC_DISABLE -/

theorem ctrlFuncDisable_of_acted (h : c.aux.contains 2 = true) : ctrlFuncDisable c s = s := if_pos h

/-- A disable that finds the function disabled, at its acceptance or now, changes nothing, R111. -/
theorem ctrlFuncDisable_of_disabled (haux : c.aux.contains 2 = false) (hok : c.disableOk = true)
    (h : (c.aux.contains 3 || s.disabledBefore c) = true) : ctrlFuncDisable c s = s.doneWith c (leBytes 8 0) := by
  rw [ctrlFuncDisable, if_neg (Bool.not_eq_true _ ▸ haux), s.firstFail_of_all_false c _ (by simp [hok]), if_pos h]

/-- A disable that has not acted at its acceptance acts in its row, R110. -/
theorem ctrlFuncDisable_of_enabled (haux : c.aux = []) (hok : c.disableOk = true) (h : s.disabledBefore c = false) :
    ctrlFuncDisable c s = s.disableFunc c := by
  rw [ctrlFuncDisable, if_neg (by simp [haux]), s.firstFail_of_all_false c _ (by simp [hok]), if_neg (by simp [haux, h])]

/-! CTRL_FUNC_ENABLE -/

section
variable (hf : funcExists (c.p 0x20 1) (c.p 0x22 2) = true)
include hf

/-- A function whose disable has not committed cannot be enabled, R111. -/
theorem ctrlFuncEnable_of_pending {f : FuncRec} (hmem : f ∈ s.ccx.funcs) (hkind : f.kind = c.p 0x20 1) (hidx : f.idx = c.p 0x22 2)
    (hpend : f.committed = false) : ctrlFuncEnable c s = s.failCmd c.id 0x14 := by
  have hbusy : (s.ccx.funcs.any fun f => f.kind == c.p 0x20 1 && f.idx == c.p 0x22 2 && !f.committed) = true :=
    List.any_eq_true.mpr ⟨f, hmem, by simp [hkind, hidx, hpend]⟩
  simp only [ctrlFuncEnable, State.firstFail, hf, hbusy]
  rfl

/-- With every disable of it committed, a function that is off is taken back into use, and the command ends. -/
theorem ctrlFuncEnable_of_settled (h : ∀ f ∈ s.ccx.funcs, f.kind = c.p 0x20 1 → f.idx = c.p 0x22 2 → f.committed = true) :
    ctrlFuncEnable c s =
      (if s.funcOff (c.p 0x20 1) (c.p 0x22 2) then s.enableFunc (c.p 0x20 1) (c.p 0x22 2) else s).done c := by
  have hidle : (s.ccx.funcs.any fun f => f.kind == c.p 0x20 1 && f.idx == c.p 0x22 2 && !f.committed) = false := by
    refine List.any_eq_false.mpr fun f hm => ?_
    have hcommitted := h f hm
    simp only [Bool.and_eq_true, beq_iff_eq, Bool.not_eq_true', not_and, Bool.not_eq_false]
    exact fun ⟨hk, hi⟩ => hcommitted hk hi
  rw [ctrlFuncEnable, s.firstFail_of_all_false c _ (by simp [hf, hidle])]

theorem ctrlFuncEnable_of_off (h : ∀ f ∈ s.ccx.funcs, f.kind = c.p 0x20 1 → f.idx = c.p 0x22 2 → f.committed = true)
    (hoff : s.funcOff (c.p 0x20 1) (c.p 0x22 2) = true) : ctrlFuncEnable c s = (s.enableFunc (c.p 0x20 1) (c.p 0x22 2)).done c := by
  rw [ctrlFuncEnable_of_settled hf h, if_pos hoff]

theorem ctrlFuncEnable_of_on (h : ∀ f ∈ s.ccx.funcs, f.kind = c.p 0x20 1 → f.idx = c.p 0x22 2 → f.committed = true)
    (hon : s.funcOff (c.p 0x20 1) (c.p 0x22 2) = false) : ctrlFuncEnable c s = s.done c := by
  rw [ctrlFuncEnable_of_settled hf h, if_neg (by simp [hon])]
end

/-! The obligations -/

/-- Settles O10: a disable acts once, at its acceptance or in its row; an enable takes every committed disable back. That a timed-out disable
counts as committed (log entry 75) and that the row judges a command refused at its acceptance again (log entry 88) are the model's choices. -/
theorem functionCommandsComplete : Obligations.FunctionCommandsComplete := by
  unfold Obligations.FunctionCommandsComplete
  intro dt id s c
  refine ⟨?fresh, ?again, ?enableOn, ?enableOff, ?joins, ?acted, ?marked, ?enableAlign⟩
  case fresh =>
    intro hr haux hf hmode hms hnew
    have hrow := ctrlFuncDisable_of_enabled haux (Cmd.disableOk_of_in_range hf hmode hms) (State.disabledBefore_of_unnamed hnew)
    exact completes_cmd rfl rfl hr (hrow.trans (by
      simp only [State.disableFunc, State.find_func_of_unnamed hnew, List.filter_filter, Bool.and_comm]))
  case again =>
    intro f hr haux hf hmode hms hfind hcommitted
    have hbefore := State.disabledBefore_of_committed hfind hcommitted
    exact completes_cmd rfl rfl hr (ctrlFuncDisable_of_disabled (by simp [haux]) (Cmd.disableOk_of_in_range hf hmode hms)
      (by rw [hbefore, Bool.or_true]))
  case enableOn =>
    intro hr hf hnone hon
    exact completes_cmd rfl rfl hr (ctrlFuncEnable_of_on hf (fun f hm hk hi => ((hnone f hm).elim (· hk) (· hi)).elim) hon)
  case enableOff =>
    intro hr hf hcommitted hoff hkind
    refine completes_cmd rfl rfl hr ((ctrlFuncEnable_of_off hf hcommitted hoff).trans ?_)
    rw [State.enableFunc, if_neg hkind]
  case joins =>
    intro f hr haux hf hmode hms hfind hpend hbefore
    have hrow := ctrlFuncDisable_of_enabled haux (Cmd.disableOk_of_in_range hf hmode hms) hbefore
    exact completes_cmd rfl rfl hr (hrow.trans (by rw [State.disableFunc, hfind]))
  case acted => exact fun hr haux => completes_cmd rfl rfl hr (ctrlFuncDisable_of_acted haux)
  case marked => exact fun hr haux hok => completes_cmd rfl rfl hr (ctrlFuncDisable_of_disabled (by simp [haux]) hok (by simp [haux]))
  case enableAlign => exact fun hr hf hcommitted hoff => completes_cmd rfl rfl hr (ctrlFuncEnable_of_off hf hcommitted hoff)

theorem State.doneStatus_of_no_deadline (s : State) (h : c.deadline = 0) : s.doneStatus c = 0 := if_neg fun ⟨hd, _⟩ => hd h

/-- Settles O59: an enable looks at the function's record, and a disable at whether an earlier one has committed. A disable that timed out
counts as committed (log entry 75, the model's choice). -/
theorem functionEnableDisable : Obligations.FunctionEnableDisable := by
  unfold Obligations.FunctionEnableDisable
  intro dt id s c u kind idx hf
  refine ⟨?busy, ?already, ?again, State.doneStatus_of_no_deadline _⟩
  case busy => exact fun f hm hr hk hi hpend => completes_cmd rfl rfl hr (ctrlFuncEnable_of_pending hf hm hk hi hpend)
  case already => exact fun hr hon hcommitted => completes_cmd rfl rfl hr (ctrlFuncEnable_of_on hf hcommitted hon)
  case again =>
    intro f hr haux hmode hms hfind hcommitted
    have hold : c.aux.contains 2 = false := by rcases haux with h | h <;> simp [h]
    have hbefore := State.disabledBefore_of_committed hfind hcommitted
    exact completes_cmd rfl rfl hr (ctrlFuncDisable_of_disabled hold (Cmd.disableOk_of_in_range hf hmode hms)
      (by rw [hbefore, Bool.or_true]))

end Sys2Proof.Machine
end

section
/-! The fence of the groups whose part field is ignored, and of a partition's Security commands (R74, R102). -/
namespace Sys2Proof.Machine
variable {s : State} {c e : Cmd}

theorem Cmd.noPart_iff (c : Cmd) : c.noPart = true ↔ c.group = 1 ∨ c.group = 10 := by simp [Cmd.noPart]

/-- An earlier command that has not ended holds one whose fence is set, within the same two groups or within the same partition. -/
theorem State.fenced_of_earlier (hf : c.fence = true) (hcode : c.code ≠ 0x0102) (he : e ∈ s.ccx.cmds) (hid : e.id < c.id)
    (hopen : e.state.final = false) (hgroups : e.noPart = c.noPart) (hpart : c.noPart = true ∨ e.part = c.part) : s.fenced c = true := by
  have hany : (s.ccx.cmds.any fun e =>
      decide (e.id < c.id) && !e.state.final && e.noPart == c.noPart && (c.noPart || e.part == c.part)) = true :=
    List.any_eq_true.mpr ⟨e, he, by simpa [hid, hopen, hgroups] using hpart⟩
  simp [State.fenced, hf, hcode, hany]

theorem State.held_of_fenced (h : s.fenced c = true) : s.held c = true := by simp [State.held, h]

theorem commandDispatch_of_held {id : Nat} (hc : s.cmd? id = some c) (h : s.held c = true) : commandDispatch id s = s := by
  rw [commandDispatch, hc]
  exact if_pos (.inr (.inr h))

/-- Settles O60: the fence holds the command, and dispatch gives no held command to its unit. -/
theorem fenceOrders : Obligations.FenceOrders := by
  unfold Obligations.FenceOrders
  intro dt id s c e u hc hid hfence hcode he hearlier hopen hgroups
  refine completes_event rfl rfl (commandDispatch_of_held hc (State.held_of_fenced ?_))
  have hbefore : e.id < c.id := hid ▸ hearlier
  rcases hgroups with ⟨hcg, heg⟩ | ⟨hcg, he1, he10, hpart⟩
  · have hcn := c.noPart_iff.mpr hcg
    exact State.fenced_of_earlier hfence hcode he hbefore hopen ((e.noPart_iff.mpr heg).trans hcn.symm) (.inl hcn)
  · have hcn : c.noPart = false := by simp [Cmd.noPart, hcg]
    have hen : e.noPart = false := by simp [Cmd.noPart, he1, he10]
    exact State.fenced_of_earlier hfence hcode he hbefore hopen (hen.trans hcn.symm) (.inr hpart)

end Sys2Proof.Machine
end

section
/-! The commands that define, start, stop and restart partitions (R114 to R117), and their obligation. -/
namespace Sys2Proof.Machine
variable {s : State} {c : Cmd}

/-- A definition whose tables can be read and pass the checks writes the partition's banks, R115, R116. -/
theorem ctrlPartDefine_of_allowed (hlo : 1 ≤ c.p 0x20 1) (hhi : c.p 0x20 1 ≤ 7) (hr0 : 1 ≤ c.p 0x21 1) (hr16 : c.p 0x21 1 ≤ 16)
    (hq64 : c.p 0x22 1 ≤ 64) (hc1 : 1 ≤ c.p 0x23 1) (hc7 : c.p 0x23 1 ≤ 7)
    (hstate : s.partState (c.p 0x20 1) = .undefined ∨ s.partState (c.p 0x20 1) = .defined)
    (hrread : s.tableErr c.tableReq (c.p 0x28 8) (16 * c.p 0x21 1) = none)
    (hqread : s.tableErr c.tableReq (if c.p 0x22 1 = 0 then 0 else c.p 0x30 8) (4 * c.p 0x22 1) = none)
    {r : List (Nat × Nat × Nat)} (hr : r = rangeEntries (s.tableAt c (c.p 0x28 8) (16 * c.p 0x21 1)) (c.p 0x21 1))
    {q : List (Nat × Nat)}
    (hq : q = quotaEntries (s.tableAt c (if c.p 0x22 1 = 0 then 0 else c.p 0x30 8) (4 * c.p 0x22 1)) (c.p 0x22 1))
    (hrok : rangesOk r = true) (hqok : quotasOk q = true) (hdef : s.defineErr (c.p 0x20 1) r q = none) :
    ctrlPartDefine c s =
      ((((s.setRanges (c.p 0x20 1) r).setQuotas (c.p 0x20 1) q).setPart (c.p 0x20 1)
        { s.part (c.p 0x20 1) with core := c.p 0x23 1 }).toState (c.p 0x20 1) .defined).done c := by
  subst hr hq
  have hfree : (s.partState (c.p 0x20 1) != .undefined && s.partState (c.p 0x20 1) != .defined) = false := by
    rcases hstate with h | h <;> simp [h]
  rw [ctrlPartDefine, s.firstFail_of_all_false c _ (by simp [hfree]; omega), State.withTable_of_readable _ hrread,
    State.withTable_of_readable _ hqread]
  simp only [hrok, hqok, hdef]
  rfl

theorem ctrlPartStart_of_defined (hlo : 1 ≤ c.p 0x20 1) (hhi : c.p 0x20 1 ≤ 7) (hstate : s.partState (c.p 0x20 1) = .defined) :
    ctrlPartStart c s =
      (((s.setFldOf .ssiSafeStat (8 + c.p 0x20 1) 1 0).toState (c.p 0x20 1) .active).applyStanding (c.p 0x20 1)).done c := by
  rw [ctrlPartStart, s.firstFail_of_all_false c _ (by simp [hstate]; omega)]

theorem ctrlPartStop_of_acted (h : c.aux.contains 2 = true) : ctrlPartStop c s = s := if_pos h

/-- The states in which a partition can be stopped and restarted. -/
theorem State.partState_runs {p : Nat} (h : s.partState p = .active ∨ s.partState p = .paused) :
    (s.partState p != .active && s.partState p != .paused) = false := by rcases h with h | h <;> simp [h]

/-- A stop that has not acted at its acceptance acts in its row, where it is not refused (log entry 88). -/
theorem ctrlPartStop_of_running (haux : c.aux = []) (hlo : 1 ≤ c.p 0x20 1) (hhi : c.p 0x20 1 ≤ 7) (hmode : c.p 0x21 1 ≤ 1)
    (hms : c.p 0x24 4 ≤ 10000) (hstate : s.partState (c.p 0x20 1) = .active ∨ s.partState (c.p 0x20 1) = .paused) :
    ctrlPartStop c s = s.beginStop c := by
  rw [ctrlPartStop, if_neg (by simp [haux]),
    s.firstFail_of_all_false c _ (by simp [State.stopErrs, State.partState_runs hstate]; omega)]

theorem ctrlPartRestart_of_running (hlo : 1 ≤ c.p 0x20 1) (hhi : c.p 0x20 1 ≤ 7)
    (hstate : s.partState (c.p 0x20 1) = .active ∨ s.partState (c.p 0x20 1) = .paused) :
    ctrlPartRestart c s = s.beginRestart (c.p 0x20 1) 0 (some c.id) false := by
  rw [ctrlPartRestart, s.firstFail_of_all_false c _ (by simp [State.partState_runs hstate]; omega)]

/-- Settles O11: no check refuses the command, and the row then does its work. That a stop is judged again at its row, and that a start applies
the standing configuration, are the model's choices (log entry 88). -/
theorem partitionCommandsComplete : Obligations.PartitionCommandsComplete := by
  unfold Obligations.PartitionCommandsComplete
  intro dt id s c
  refine ⟨?define, ?start, ?stop, ?restart, ?acted⟩
  case define =>
    intro nr nq cc r qa q hr hlo hhi hr0 hr16 hq64 hc1 hc7 hstate hrread hqread hrok hqok hdef
    exact completes_cmd rfl rfl hr (ctrlPartDefine_of_allowed hlo hhi hr0 hr16 hq64 hc1 hc7 hstate hrread hqread rfl rfl hrok hqok hdef)
  case start => exact fun hr hlo hhi hstate => completes_cmd rfl rfl hr (ctrlPartStart_of_defined hlo hhi hstate)
  case stop =>
    intro queued running ms stop v hr haux hlo hhi hms hstate
    refine ⟨fun hmode => ?_, fun hmode => ?_⟩
    · have hrow := ctrlPartStop_of_running haux hlo hhi (by omega) hms hstate
      exact completes_cmd rfl rfl hr (hrow.trans (congrArg (State.cancelGey · _) (if_neg (by omega))))
    · have hrow := ctrlPartStop_of_running haux hlo hhi (by omega) hms hstate
      exact completes_cmd rfl rfl hr (hrow.trans (congrArg (State.cancelGey · _) (if_pos hmode)))
  case restart => exact fun hr hlo hhi hstate => completes_cmd rfl rfl hr (ctrlPartRestart_of_running hlo hhi hstate)
  case acted => exact fun hr haux => completes_cmd rfl rfl hr (ctrlPartStop_of_acted haux)

end Sys2Proof.Machine
end

section
/-! The commands that write the host's ranges, the windows, a component of the firmware and the core roles (R118, R119, R124 to R126), and their
obligation. -/
namespace Sys2Proof.Machine
variable {s : State} {c : Cmd}

/-! CTRL_SET_HOST_RANGES, R118 -/

/-- The entries of a table of host ranges: of the flags only read and write count, R118. -/
def hostRangeEntries (b : Bytes) (n : Nat) : List (Nat × Nat × Nat) := (rangeEntries b n).map fun e => (e.1, e.2.1, e.2.2 % 4)

/-- Whether the host may be given these ranges: their fields are in range, and none reaches what is the part's own or a protected region. -/
structure State.HostRangesOk (s : State) (r : List (Nat × Nat × Nat)) : Prop where
  fields : rangesOk r = true
  free : ∀ e ∈ r, reachesOwn e = false ∧ s.meetsProt e.1 (e.2.1 * 65536) = false

theorem State.HostRangesOk.permitted {r : List (Nat × Nat × Nat)} (h : s.HostRangesOk r) :
    (r.any reachesOwn || r.any fun e => s.meetsProt e.1 (e.2.1 * 65536)) = false := by
  rw [Bool.or_eq_false_iff]
  exact ⟨List.any_eq_false.mpr fun e he => by simp [(h.free e he).1], List.any_eq_false.mpr fun e he => by simp [(h.free e he).2]⟩

/-- Inline ranges become the host's bank. -/
theorem ctrlSetHostRanges_of_inline (ha : c.p 0x28 8 = 0) (hn : c.p 0x20 1 ≤ 12)
    (h : s.HostRangesOk (hostRangeEntries (c.params.drop 16) (c.p 0x20 1))) :
    ctrlSetHostRanges c s = (s.setRanges 8 (hostRangeEntries (c.params.drop 16) (c.p 0x20 1))).done c := by
  rw [ctrlSetHostRanges, s.firstFail_of_all_false c _ (by simp [ha]; omega), if_pos ha]
  exact s.firstFail_of_all_false c _
    (List.forall_mem_cons.mpr ⟨congrArg Bool.not h.fields, List.forall_mem_singleton.mpr h.permitted⟩)

/-- The ranges of a table that can be read become the host's bank. -/
theorem ctrlSetHostRanges_of_table (ha : c.p 0x28 8 ≠ 0) (hn : c.p 0x20 1 ≤ 16)
    (hread : s.tableErr c.tableReq (c.p 0x28 8) (16 * c.p 0x20 1) = none)
    (h : s.HostRangesOk (hostRangeEntries (s.tableAt c (c.p 0x28 8) (16 * c.p 0x20 1)) (c.p 0x20 1))) :
    ctrlSetHostRanges c s =
      (s.setRanges 8 (hostRangeEntries (s.tableAt c (c.p 0x28 8) (16 * c.p 0x20 1)) (c.p 0x20 1))).done c := by
  rw [ctrlSetHostRanges, s.firstFail_of_all_false c _ (by simp [ha]; omega), if_neg ha, State.withTable_of_readable _ hread]
  exact s.firstFail_of_all_false c _
    (List.forall_mem_cons.mpr ⟨congrArg Bool.not h.fields, List.forall_mem_singleton.mpr h.permitted⟩)

/-! CTRL_SET_WINDOWS, R119 -/

/-- A window that lies in the ranges of R119 and is given only on cores that run descriptors. -/
def State.WinOk (s : State) (w : Win) : Prop :=
  1 ≤ w.part ∧ w.part ≤ 7 ∧ 50 ≤ w.len ∧ w.mask < 2 ^ 14 ∧ ∀ k < 14, w.mask.testBit k = true → s.runsOn k = true

theorem winsInRange_of_ok {l : List Win} (h : ∀ w ∈ l, s.WinOk w) :
    (l.any fun w => decide (w.part = 0 ∨ 7 < w.part ∨ w.len < 50 ∨ 2 ^ 14 ≤ w.mask)) = false := by
  refine List.any_eq_false.mpr fun w hw => ?_
  obtain ⟨hlo, hhi, hlen, hmask, -⟩ := h w hw
  simp only [decide_eq_true_eq]
  omega

theorem winsRun_of_ok {l : List Win} (h : ∀ w ∈ l, s.WinOk w) :
    (l.any fun w => (List.range 14).any fun k => w.mask.testBit k && !(s.runsOn k)) = false := by
  refine List.any_eq_false.mpr fun w hw => ?_
  obtain ⟨-, -, -, -, hruns⟩ := h w hw
  simpa using hruns

/-- A table of windows that passes the checks waits for its start, at a period's boundary at least 1 ms ahead. -/
theorem ctrlSetWindows_of_allowed (hlo : 100 ≤ c.p 0x20 4) (hhi : c.p 0x20 4 ≤ 1000000) (hn : c.p 0x24 1 ≤ 64) {a : Nat}
    (ha : a = if c.p 0x24 1 = 0 then 0 else c.p 0x28 8) (hread : s.tableErr c.tableReq a (16 * c.p 0x24 1) = none)
    {l : List Win} (hl : l = winEntries (s.tableAt c a (16 * c.p 0x24 1)) (c.p 0x24 1)) (hok : ∀ w ∈ l, s.WinOk w)
    (hfit : winConflict (c.p 0x20 4) l = false) :
    ctrlSetWindows c s =
      (let from_ := roundUp (s.now + 1000000) (c.p 0x20 4 * 1000)
       ({ s with ccx := { s.ccx with winNext := some ⟨c.p 0x20 4 * 1000, l, from_⟩ } } : State).doneWith c (leBytes 8 from_)) := by
  subst ha hl
  rw [ctrlSetWindows, s.firstFail_of_all_false c _ (by simp; omega), State.withTable_of_readable _ hread]
  exact s.firstFail_of_all_false c _ (by simp only [winsInRange_of_ok hok, winsRun_of_ok hok, hfit]; simp)

/-! CTRL_FW_UPDATE, R124, R125 -/

/-- The record of the live update that a command asks for with the component of a package. -/
def State.updateOf (s : State) (c : Cmd) (x : Nat × Nat × Nat × Nat × Nat) (digest : Bytes) : FwUpd :=
  { cmd := c.id, core := c.p 0x23 1, comp := ⟨c.p 0x20 2, 1, x.2.2.2.2⟩
    due := c.acceptNs + (if c.p 0x24 4 = 0 then 100 else c.p 0x24 4) * 1000000, pausedAt := s.ns
    mask := s.boundTo (c.p 0x23 1) .active, digest := digest }

/-- The update has begun: its partitions are PAUSED, R125 step 2. -/
def State.pausedFor (s : State) (u : FwUpd) : State :=
  u.mask.foldl (fun (s : State) p => s.toState p .paused) { s with ccx := { s.ccx with fwUpd := some u } }

section
variable (hmode : c.p 0x22 1 ≤ 1) (hlo : 1 ≤ c.p 0x23 1) (hhi : c.p 0x23 1 ≤ 7) (hms : c.p 0x24 4 ≤ 10000)
  (hn : c.p 0x30 4 ≤ 16777216) (hidle : s.ccx.fwUpd = none) (hread : s.tableErr c.tableReq (c.p 0x28 8) (c.p 0x30 4) = none)
include hmode hlo hhi hms hn hidle hread

/-- A package that does not verify ends the command with the failure of its check. -/
theorem ctrlFwUpdate_of_rejected {e : Nat} (hcheck : s.checkPackage (s.tableAt c (c.p 0x28 8) (c.p 0x30 4)) 1 = .error e) :
    ctrlFwUpdate c s = s.failCmd c.id e := by
  rw [ctrlFwUpdate, s.firstFail_of_all_false c _ (by simp [hidle]; omega), State.withTable_of_readable _ hread, hcheck]

variable {k : Package} {slot : Nat} {digest : Bytes}
  (hcheck : s.checkPackage (s.tableAt c (c.p 0x28 8) (c.p 0x30 4)) 1 = .ok (k, slot, digest))
include hcheck

/-- A live update replaces one component: a package that holds none or several has not its format. -/
theorem ctrlFwUpdate_of_not_one (hk : ∀ x, k.comps ≠ [x]) : ctrlFwUpdate c s = s.failCmd c.id 0x80 := by
  rw [ctrlFwUpdate, s.firstFail_of_all_false c _ (by simp [hidle]; omega), State.withTable_of_readable _ hread, hcheck]
  dsimp only
  split
  · next x hx => exact absurd hx (hk x)
  · rfl

/-- A package with another component, or with one of another scope, is refused; else the partitions of the control core pause. -/
theorem ctrlFwUpdate_of_one {x : Nat × Nat × Nat × Nat × Nat} (hk : k.comps = [x])
    {run : Comp} (hrun : s.ccx.comps.find? (fun y => y.id == c.p 0x20 2) = some run) (hscope : run.scope = 1) :
    ctrlFwUpdate c s =
      (let t := s.pausedFor (s.updateOf c x digest)
       if x.1 ≠ c.p 0x20 2 then s.failCmd c.id stBadParam else if x.2.1 ≠ 1 then s.failCmd c.id stNotPermitted
       else if c.p 0x22 1 = 1 then t.discardAll (((s.boundTo (c.p 0x23 1) .active).flatMap s.runningOf).map (·.id)) else t) := by
  rw [ctrlFwUpdate, s.firstFail_of_all_false c _ (by simp [hidle]; omega), State.withTable_of_readable _ hread, hcheck]
  dsimp only
  rw [hk]
  by_cases hid : x.1 = c.p 0x20 2
  · by_cases hsc : x.2.1 = 1
    · rw [if_neg (Decidable.not_not.mpr hid), if_neg (Decidable.not_not.mpr hsc)]
      exact s.firstFail_of_all_false c _ (by simp [hid, hsc, hrun, hscope])
    · simp [State.firstFail, hid, hsc, hrun]
  · simp [State.firstFail, hid]
end

/-! CTRL_CORE_RETIRE, R126 -/

theorem ctrlCoreRetire_of_allowed (hp : c.p 0x20 1 ≤ 13) (hrole : s.coreRole (c.p 0x20 1) ≠ 2)
    (hnew : ∀ r ∈ s.tar.retires, r.phys ≠ c.p 0x20 1) (hleft : 2 ≤ s.checkers.length ∨ (c.p 0x21 1).testBit 0 = true) :
    ctrlCoreRetire c s = s.retire (some c.id) (c.p 0x20 1) := by
  rw [ctrlCoreRetire, s.firstFail_of_all_false c _ ?_]
  refine List.forall_mem_cons.mpr ⟨decide_eq_false (by omega), List.forall_mem_cons.mpr ⟨?_, List.forall_mem_singleton.mpr ?_⟩⟩
  · simpa [hrole] using hnew
  · rcases hleft with h | h
    · simp [Nat.not_lt.mpr h]
    · simp [h]

/-! The obligation -/

/-- Settles O12: no check refuses the command, and the row then does its work. A package that does not verify gives ST_IMAGE_FORMAT,
ST_SIG_INVALID or ST_ROLLBACK (R112); the status of one that holds another component is the model's choice (log entry 75). -/
theorem controlTableCommandsComplete : Obligations.ControlTableCommandsComplete := by
  unfold Obligations.ControlTableCommandsComplete
  intro dt id s c
  refine ⟨?inline, ?noWindows, ?update, ?retire, ?table, ?windows⟩
  case inline =>
    intro n r hr ha hn hok hfree
    exact completes_cmd rfl rfl hr (ctrlSetHostRanges_of_inline ha hn ⟨hok, hfree⟩)
  case noWindows =>
    intro us from_ hr hlo hhi hn hread
    refine completes_cmd rfl rfl hr (ctrlSetWindows_of_allowed (a := 0) (l := []) hlo hhi (by omega) (by rw [if_pos hn]) ?_ ?_ nofun ?_)
    · rw [hn]; exact hread
    · rw [hn]; rfl
    · rfl
  case update =>
    intro cc ms n b cid hr hmode hlo hhi hms hn hidle hread hscope l upd paused
    obtain ⟨run, hrun, hrs⟩ := Option.map_eq_some_iff.mp hscope
    split
    · next e hcheck => exact completes_cmd rfl rfl hr (ctrlFwUpdate_of_rejected hmode hlo hhi hms hn hidle hread hcheck)
    · next k slot digest hcheck =>
      split
      · next x hk => exact completes_cmd rfl rfl hr (ctrlFwUpdate_of_one hmode hlo hhi hms hn hidle hread hcheck hk hrun hrs)
      · next hk => exact completes_cmd rfl rfl hr (ctrlFwUpdate_of_not_one hmode hlo hhi hms hn hidle hread hcheck hk)
  case retire => exact fun hr hp hrole hnew hleft => completes_cmd rfl rfl hr (ctrlCoreRetire_of_allowed hp hrole hnew hleft)
  case table =>
    intro n r hr ha hn hread hok hfree
    exact completes_cmd rfl rfl hr (ctrlSetHostRanges_of_table ha hn hread ⟨hok, hfree⟩)
  case windows =>
    intro us n a l from_ hr hlo hhi hn hread hok hfit
    exact completes_cmd rfl rfl hr (ctrlSetWindows_of_allowed hlo hhi hn rfl hread rfl hok hfit)

end Sys2Proof.Machine
end

section
/-! What the ends of commands and the settling of drains leave of the control core's tables. -/
namespace Sys2Proof.Machine
variable {s : State}

/-- What a live update reads and writes in the control core's tables, R124, R125. -/
def Ccx.updateTables (x : Ccx) : Option FwUpd × List (Comp × Bytes) × List Comp × List (Nat × Comp) :=
  (x.fwUpd, x.fwChain, x.comps, x.live)

/-- The end of a command changes its record, and nothing else of the control core's tables. -/
theorem State.endCmd_ccx (s : State) (id : Nat) (st : CmdState) (v : Nat) : ∃ l, (s.endCmd id st v).ccx = { s.ccx with cmds := l } := by
  rcases s.endCmd_cases id st v with h | ⟨f, hp, h | ⟨g, h⟩⟩ <;> rw [h]
  · exact ⟨s.ccx.cmds, rfl⟩
  · exact ⟨_, State.unname_ccx _ _⟩
  · exact ⟨_, congrArg (fun x : Ccx => { x with cmds := updFirst (fun c => c.id == id) g x.cmds }) (State.unname_ccx _ _)⟩

@[simp] theorem State.endCmd_updateTables (s : State) (id : Nat) (st : CmdState) (v : Nat) :
    (s.endCmd id st v).ccx.updateTables = s.ccx.updateTables := by
  obtain ⟨l, h⟩ := s.endCmd_ccx id st v
  rw [h]; rfl

@[simp] theorem State.finish_updateTables (s : State) (id v : Nat) : (s.finish id v).ccx.updateTables = s.ccx.updateTables := by
  unfold State.finish
  split
  · rfl
  · split <;> exact s.endCmd_updateTables _ _ _

@[simp] theorem State.setResult_updateTables (s : State) (id o : Nat) (b : Bytes) :
    (s.setResult id o b).ccx.updateTables = s.ccx.updateTables := rfl

@[simp] theorem State.toState_updateTables (s : State) (p : Nat) (st : PartState) :
    (s.toState p st).ccx.updateTables = s.ccx.updateTables := by
  unfold State.toState
  split
  · rfl
  · rw [State.raise_ccx]; rfl

theorem settleFunc_updateTables (s : State) (f : FuncRec) : (settleFunc s f).ccx.updateTables = s.ccx.updateTables := by
  unfold settleFunc
  dsimp only
  split
  · rfl
  · split
    · split
      · rfl
      · refine (foldl_keeps (·.ccx.updateTables) _ (fun t id => t.setResult id 0x20 _ |>.endCmd_updateTables id .failed 0x19) _ _).trans ?_
        rw [State.raise_ccx]; rfl
    · split
      · rfl
      · exact foldl_keeps (·.ccx.updateTables) _ (fun t id => (t.setResult id 0x20 _).finish_updateTables id _) _ _

theorem settleStop_updateTables (s : State) (p : Nat) : (settleStop s p).ccx.updateTables = s.ccx.updateTables := by
  unfold settleStop
  split
  · split
    · rw [State.finish_updateTables, State.setResult_updateTables, State.toState_updateTables]; rfl
    · rfl
  · rfl

@[simp] theorem State.settle_updateTables (s : State) : s.settle.ccx.updateTables = s.ccx.updateTables := by
  unfold State.settle
  rw [foldl_keeps (·.ccx.updateTables) _ settleStop_updateTables, foldl_keeps (·.ccx.updateTables) _ settleFunc_updateTables,
    State.pruneTar_ccx]

@[simp] theorem State.resumeParts_updateTables (s : State) (l : List Nat) :
    (s.resumeParts l).ccx.updateTables = s.ccx.updateTables := by
  unfold State.resumeParts
  refine (foldl_keeps (·.ccx.updateTables) _ (fun t p => ?_) _ _).trans rfl
  split
  · exact t.toState_updateTables _ _
  · rfl

/-! Where nothing drains and nothing stops -/

/-- No function is disabled, and the partitions are as the table lists them. -/
structure State.Idle (s : State) (parts : List (Nat × Part)) : Prop where
  funcs : s.ccx.funcs = []
  parts : s.ccx.parts = parts

section
variable {parts : List (Nat × Part)} (hstops : ∀ p < 8, (sget {} parts p).stop = none)

theorem State.Idle.of_ccx {t : State} (h : s.Idle parts) (hc : t.ccx = s.ccx) : t.Idle parts :=
  ⟨hc ▸ h.funcs, hc ▸ h.parts⟩

theorem State.Idle.raise (h : s.Idle parts) (code p : Nat) (b : Bytes) : (s.raise code p b).Idle parts := h.of_ccx (by simp)

theorem State.Idle.setFldOf (h : s.Idle parts) (r : Reg) (lo len x : Nat) : (s.setFldOf r lo len x).Idle parts := h.of_ccx rfl

theorem State.Idle.modReg (h : s.Idle parts) (r : Reg) (f : W64 → W64) : (s.modReg r f).Idle parts := h.of_ccx rfl

theorem State.Idle.modSched (h : s.Idle parts) (j : Nat) (f : Sched → Sched) : (s.modSched j f).Idle parts := h.of_ccx rfl

theorem State.Idle.setResult (h : s.Idle parts) (id o : Nat) (b : Bytes) : (s.setResult id o b).Idle parts := ⟨h.funcs, h.parts⟩

theorem State.Idle.syncRuns (h : s.Idle parts) : s.syncRuns.Idle parts := h.of_ccx rfl

theorem State.Idle.syncSched (h : s.Idle parts) (j : Nat) : (s.syncSched j).Idle parts := h.of_ccx rfl

theorem State.Idle.dropInst (h : s.Idle parts) (j t reason : Nat) : (s.dropInst j t reason).Idle parts :=
  (h.modReg (.chnSchedDrop j) fun v => incSat v 16 16 1).raise 0x0401 _ _

theorem State.Idle.endCmd (h : s.Idle parts) (id : Nat) (st : CmdState) (v : Nat) : (s.endCmd id st v).Idle parts := by
  obtain ⟨l, hl⟩ := s.endCmd_ccx id st v
  exact ⟨by rw [hl]; exact h.funcs, by rw [hl]; exact h.parts⟩

theorem State.Idle.finish (h : s.Idle parts) (id v : Nat) : (s.finish id v).Idle parts := by
  unfold State.finish
  split
  · exact h
  · split <;> exact h.endCmd _ _ _

include hstops

theorem State.Idle.settle (h : s.Idle parts) : s.settle.Idle parts := by
  rw [s.settle_quiet h.funcs fun p hp => by rw [State.part, h.parts]; exact hstops p hp]
  exact h.of_ccx (by simp)

theorem State.Idle.settleSched (h : s.Idle parts) (j : Nat) : (s.settleSched j).Idle parts := by
  unfold State.settleSched
  refine State.Idle.settle hstops (.syncRuns (.syncSched ?_ j))
  split
  · split
    · exact (((h.syncRuns.modReg _ _).modSched j _).setResult _ _ _).finish _ _
    · split
      · exact h.syncRuns
      · exact h.syncRuns.modReg _ _
  · exact h.syncRuns

/-- A schedule that goes on drops the instants it has passed over, and changes neither functions nor partitions. -/
theorem State.Idle.resumeSched (h : s.Idle parts) (j reason : Nat) : (s.resumeSched j reason).Idle parts := by
  unfold State.resumeSched
  split
  · refine State.Idle.settleSched hstops (.modSched ?_ j _) j
    exact foldl_holds (·.Idle parts) _ (fun t _ ht => ht.dropInst j _ reason) _ _ h
  · exact h
end

end Sys2Proof.Machine
end

section
/-! The events of the Control group: drains that time out, restarts, windows, swaps and the watchdog of a control core (R110, R117, R119 to R121,
R125, R243, R333, R439, R508), and their obligation. -/
namespace Sys2Proof.Machine
variable {s : State}

/-! DRAIN_TIMEOUT -/

/-- The disable that command `id` drains, R110. -/
def State.drainingFunc (s : State) (id : Nat) : Option FuncRec :=
  s.ccx.funcs.find? fun f => f.cmds.head? == some id && !f.committed && f.restarting.isEmpty

/-- The partition whose stop by command `id` is due, R117. -/
def State.drainingPart (s : State) (id : Nat) : Option Nat :=
  (List.range 8).find? fun p => s.partState p == .stopping && (s.part p).stop.any fun k => k.cmd == id && decide (k.due ≤ s.ns)

section
variable {id : Nat}

theorem drainTimeout_of_func {f : FuncRec} (hf : s.drainingFunc id = some f) (hdue : f.due ≤ s.ns) : drainTimeout id s = s.funcTimeout f := by
  unfold State.drainingFunc at hf
  rw [drainTimeout, hf]
  exact if_pos hdue

variable (hf : s.drainingFunc id = none)
include hf

theorem drainTimeout_of_stop {p : Nat} {k : StopRec} (hp : s.drainingPart id = some p) (hk : (s.part p).stop = some k) :
    drainTimeout id s =
      ((s.setPart p { s.part p with stop := some { k with timedOut := true } }).beginRestart p 1 none true).raise 0x0112 p
        (evData [0, p, partMask [p]]) := by
  unfold State.drainingFunc at hf
  unfold State.drainingPart at hp
  simp only [drainTimeout, hf, hp, hk]
  rfl

variable (hp : s.drainingPart id = none)
include hp

theorem drainTimeout_of_update {u : FwUpd} (hu : s.ccx.fwUpd = some u) (hid : u.cmd = id) (hnew : u.timedOut = false) (hdue : u.due ≤ s.ns) :
    drainTimeout id s =
      (let l := u.mask.filter fun p => s.partState p == .paused && !(s.runningOf p).isEmpty
       (({ s with ccx := { s.ccx with fwUpd := some { u with timedOut := true } } } : State).restartAll l).raise
        0x0112 0 (evData [0, u.core, partMask l])) := by
  unfold State.drainingFunc at hf
  unfold State.drainingPart at hp
  rw [drainTimeout, hf, hp, hu]
  exact if_pos ⟨hid, hnew, hdue⟩

theorem drainTimeout_of_other (hu : ∀ u, s.ccx.fwUpd = some u → u.cmd ≠ id) : drainTimeout id s = s.otherTimeout id := by
  unfold State.drainingFunc at hf
  unfold State.drainingPart at hp
  rw [drainTimeout, hf, hp]
  cases h : s.ccx.fwUpd with
  | none => rfl
  | some u => exact if_neg fun ⟨hid, _⟩ => hu u h hid
end

theorem State.otherTimeout_of_retrain {id : Nat} {r : Retrain}
    (hr : s.mmv.retrains.find? (fun r => r.cmd == id && !r.training && !r.timedOut) = some r) (hdue : r.due ≤ s.ns) :
    s.otherTimeout id = s.retrainTimeout r := by
  rw [State.otherTimeout, hr]
  exact if_pos hdue

theorem State.otherTimeout_of_split {id : Nat} {k : Split}
    (hr : s.mmv.retrains.find? (fun r => r.cmd == id && !r.training && !r.timedOut) = none) (hk : s.chn.split = some k) (hid : k.cmd = id)
    (hnew : k.timedOut = false) (hdue : k.due ≤ s.ns) (hbusy : s.frameBusy.isSome = true) : s.otherTimeout id = s.splitTimeout k := by
  rw [State.otherTimeout, hr, hk]
  exact if_pos ⟨hid, hnew, hdue, hbusy⟩

/-! Partitions -/

theorem State.partState_of_ne_zero {p : Nat} (h : p ≠ 0) : s.partState p = (s.part p).state := if_neg h

theorem State.setPart_part_self (p : Nat) (x : Part) : (s.setPart p x).part p = x := sget_sset_self _ _ _ _

theorem State.setPart_part_ne {p q : Nat} (x : Part) (h : q ≠ p) : (s.setPart p x).part q = s.part q := sget_sset_ne _ _ _ h

/-- A partition that changes state keeps the rest of its record. -/
theorem State.toState_part_self (p : Nat) (st : PartState) : (s.toState p st).part p = { s.part p with state := st } := by
  unfold State.toState
  split
  · next h => rw [← h]
  · rw [State.part, State.raise_ccx]
    exact State.setPart_part_self p _

theorem State.toState_part_ne {p q : Nat} (st : PartState) (h : q ≠ p) : (s.toState p st).part q = s.part q := by
  unfold State.toState
  split
  · rfl
  · rw [State.part, State.raise_ccx]
    exact State.setPart_part_ne _ h

theorem State.toState_funcs (p : Nat) (st : PartState) : (s.toState p st).ccx.funcs = s.ccx.funcs := by
  unfold State.toState
  split
  · rfl
  · rw [State.raise_ccx]; rfl

/-! PARTITION_RESTART_END, R121, R439 -/

/-- The partition's record once its restart has ended: the restart, a stop and a safe state are over. -/
def Part.restarted (x : Part) : Part :=
  { x with restart := none, stop := none, safe := [], safeStop := false, checked := if x.safe.isEmpty then x.checked else [] }

/-- The state in which a partition's restart has ended, before its events and its schedules. -/
def State.leaveRestart (s : State) (p : Nat) (toDefined : Bool) : State :=
  let t := s.setPart p (s.part p).restarted
  (if (s.part p).safe.isEmpty then t else (t.setFldOf (.ssiPartSafe p) 24 8 0).setFldOf .ssiSafeStat (16 + p) 1 0).toState p
    (if toDefined then .defined else .active)

theorem State.leaveRestart_part_self (p : Nat) (d : Bool) :
    (s.leaveRestart p d).part p = { (s.part p).restarted with state := if d then .defined else .active } := by
  unfold State.leaveRestart
  rw [State.toState_part_self]
  split <;> exact congrArg (fun x : Part => { x with state := if d then PartState.defined else .active }) (State.setPart_part_self p _)

theorem State.leaveRestart_part_ne {p q : Nat} (d : Bool) (h : q ≠ p) : (s.leaveRestart p d).part q = s.part q := by
  unfold State.leaveRestart
  rw [State.toState_part_ne _ h]
  split <;> exact State.setPart_part_ne _ h

theorem State.leaveRestart_funcs (p : Nat) (d : Bool) : (s.leaveRestart p d).ccx.funcs = s.ccx.funcs := by
  unfold State.leaveRestart
  rw [State.toState_funcs]
  split <;> rfl

/-- EV_PART_RESTARTED, but where a safe state only stopped the partition, and EV_SAFE_STATE with what triggered it, R113, R438. -/
def State.tellRestart (s : State) (p : Nat) (x : Part) (cause dur : Nat) : State :=
  let t := if x.safeStop then s else s.raise 0x0111 p (evData [p, cause, dur])
  match x.safe with
  | [] => t
  | trig :: more => t.raise 0x0806 p (evData ([p, trig, if x.safeStop then 1 else 0] ++ more))

/-- The triggers that a restart of the motion partition raised are over. -/
def State.endTriggers (s : State) (p : Nat) : State := if s.isMotion p then (s.clearTrigger 0).clearTrigger 5 else s

variable {parts : List (Nat × Part)}

theorem State.Idle.tellRestart (h : s.Idle parts) (p : Nat) (x : Part) (cause dur : Nat) : (s.tellRestart p x cause dur).Idle parts := by
  have htold : (if x.safeStop then s else s.raise 0x0111 p (evData [p, cause, dur])).Idle parts := by
    split
    · exact h
    · exact h.raise _ _ _
  simp only [State.tellRestart]
  cases x.safe with
  | nil => exact htold
  | cons trig more => exact htold.raise _ _ _

theorem State.Idle.endTriggers (h : s.Idle parts) (p : Nat) : (s.endTriggers p).Idle parts := by
  unfold State.endTriggers
  split
  · exact (h.setFldOf _ _ _ _).setFldOf _ _ _ _
  · exact h

/-- A restart that no command waits for ends: the partition changes state, the events tell it, and its schedules go on. -/
theorem State.endRestart_of_no_command {p : Nat} {r : RestartRec} (hstate : s.partState p = .restarting)
    (hr : (s.part p).restart = some r) (hcmd : r.cmd = none) (hstop : (s.part p).stop = none) :
    s.endRestart p =
      ((List.range 4).foldl (fun (s : State) j => if s.schedOn j ∧ s.schedOwner j = p ∧ r.toDefined = false then s.resumeSched j 3 else s)
        (((s.leaveRestart p r.toDefined).tellRestart p (s.part p) r.cause (s.ns - r.at_)).endTriggers p)).settle := by
  simp only [State.endRestart, hstate, hr, hcmd, hstop]
  rfl

/-- Where nothing drains either, the tables are then as the partition's change of state left them. -/
theorem State.endRestart_idle {p : Nat} {r : RestartRec} (hstate : s.partState p = .restarting) (hr : (s.part p).restart = some r)
    (hcmd : r.cmd = none) (hstop : (s.part p).stop = none) (hf : s.ccx.funcs = [])
    (hstops : ∀ q < 8, ((s.leaveRestart p r.toDefined).part q).stop = none) :
    (s.endRestart p).Idle (s.leaveRestart p r.toDefined).ccx.parts := by
  have hleft : (s.leaveRestart p r.toDefined).Idle (s.leaveRestart p r.toDefined).ccx.parts := ⟨(s.leaveRestart_funcs p _).trans hf, rfl⟩
  rw [State.endRestart_of_no_command hstate hr hcmd hstop]
  refine State.Idle.settle hstops (foldl_holds (·.Idle _) _ (fun t j ht => ?_) _ _ ((hleft.tellRestart _ _ _ _).endTriggers p))
  split
  · exact ht.resumeSched hstops j 3
  · exact ht

/-- The partition is then ACTIVE or DEFINED, and its restart is over. -/
theorem State.endRestart_part {p : Nat} {r : RestartRec} (hstate : s.partState p = .restarting) (hr : (s.part p).restart = some r)
    (hcmd : r.cmd = none) (hf : s.ccx.funcs = []) (hp : p < 8) (hstops : ∀ q < 8, (s.part q).stop = none) :
    (s.endRestart p).part p = { (s.part p).restarted with state := if r.toDefined then .defined else .active } := by
  have hleft : ∀ q < 8, ((s.leaveRestart p r.toDefined).part q).stop = none := by
    intro q hq
    by_cases h : q = p
    · subst h; rw [State.leaveRestart_part_self]; rfl
    · rw [State.leaveRestart_part_ne _ h]; exact hstops q hq
  have hidle := State.endRestart_idle hstate hr hcmd (hstops p hp) hf hleft
  rw [State.part, hidle.parts]
  exact State.leaveRestart_part_self p r.toDefined

theorem partitionRestartTimeout_of_late {p : Nat} {r : RestartRec} (hstate : s.partState p = .restarting) (hr : (s.part p).restart = some r)
    (hlate : r.at_ + 40000000 ≤ s.ns) : partitionRestartTimeout p s = s.request 2 := by
  rw [partitionRestartTimeout, hstate, hr]
  exact if_pos hlate

/-! WINDOW_SCHEDULE_START and WINDOW_BOUNDARY, R119, R120 -/

theorem windowScheduleStart_of_due {w : WinSched} (hw : s.ccx.winNext = some w) (hdue : w.from_ ≤ s.now) :
    windowScheduleStart s =
      { s with ccx := { s.ccx with win := if w.wins.isEmpty then none else some w, winNext := none, winCore := [] } } := by
  rw [windowScheduleStart, hw]
  exact if_pos hdue

section
variable {w : WinSched} {l : Nat} (hw : s.ccx.win = some w)
  (hfree : (sget {} s.ccx.winCore l).open_.isSome = true → ∀ j ∈ s.tar.jobs, j.core = l → j.started = true → j.ran = true)
include hfree

/-- No descriptor still runs in the core's open window. -/
theorem not_busy_of_ran :
    ¬ ((sget {} s.ccx.winCore l).open_.isSome = true ∧ (s.tar.jobs.any fun j => j.core == l && j.started && !j.ran) = true) := by
  rintro ⟨hopen, hbusy⟩
  obtain ⟨j, hj, hb⟩ := List.any_eq_true.mp hbusy
  simp only [Bool.and_eq_true, beq_iff_eq, Bool.not_eq_true'] at hb
  obtain ⟨⟨hcore, hstarted⟩, hran⟩ := hb
  exact Bool.false_ne_true (hran.symm.trans (hfree hopen j hj hcore hstarted))

include hw

/-- A window that begins opens, less the time that its partition overran, R120. -/
theorem windowBoundary_opens {p a b : Nat} (hat : w.at l s.now = some (p, a, b))
    (hnew : ¬ ((sget {} s.ccx.winCore l).open_ = some p ∧ (sget {} s.ccx.winCore l).opens = a)) :
    windowBoundary l s =
      (let x := sget {} s.ccx.winCore l
       let cut_ := ((x.shorten.find? fun e => e.1 == p).map (·.2)).getD 0
       let y : WinCore := { open_ := some p, opens := a, closes := Nat.max s.now (b - cut_), shorten := x.shorten.filter fun e => e.1 != p }
       { s with ccx := { s.ccx with winCore := sset {} s.ccx.winCore l y } }) := by
  rw [windowBoundary, hw]
  simp only [hat]
  rw [if_neg hnew, if_neg (not_busy_of_ran hfree)]

theorem windowBoundary_closes (hat : w.at l s.now = none) :
    windowBoundary l s =
      { s with ccx := { s.ccx with winCore := sset {} s.ccx.winCore l { sget {} s.ccx.winCore l with open_ := none } } } := by
  rw [windowBoundary, hw]
  simp only [hat]
  rw [if_neg (not_busy_of_ran hfree)]
end

/-! FW_UPDATE_SWAP, R125 -/

/-- The component is swapped on its control core, and the update is over. -/
theorem fwUpdateSwap_updateTables {id : Nat} {u : FwUpd} (hu : s.ccx.fwUpd = some u) (hid : u.cmd = id) (hwait : s.updWaits u = false) :
    (fwUpdateSwap id s).ccx.updateTables =
      (none, s.ccx.fwChain ++ [(u.comp, u.digest)], s.ccx.comps,
        (s.ccx.live.filter fun y => !(y.1 == u.core && y.2.id == u.comp.id)) ++ [(u.core, u.comp)]) := by
  rw [fwUpdateSwap, hu]
  dsimp only
  rw [if_neg (by simp [hid, hwait])]
  split
  · rw [State.settle_updateTables, State.doneWith, State.done, State.finish_updateTables, State.setResult_updateTables, State.raise_ccx,
      State.resumeParts_updateTables]
    rfl
  · rw [State.raise_ccx, State.resumeParts_updateTables]
    rfl

/-! CONTROL_CORE_WATCHDOG_TIMEOUT, R437 -/

/-- The partitions bound to a control core. -/
def State.coreParts (s : State) (cc : Nat) : List Nat :=
  (List.range 8).filter fun p => decide (p ≠ 0) && s.partState p != .undefined && (s.part p).core == cc

theorem controlCoreWatchdogTimeout_of_ready {cc : Nat} (hready : s.ready = true) (hlo : 1 ≤ cc) (hhi : cc ≤ 7) :
    controlCoreWatchdogTimeout cc s = (s.coreParts cc).foldl (fun (s : State) p => s.enterSafe p 6) s :=
  if_pos ⟨hready, hlo, hhi⟩

/-- Where only one partition is defined, its control core has no other. -/
theorem State.coreParts_of_only {p cc : Nat} (hlo : 1 ≤ p) (hhi : p ≤ 7) (hdef : s.partState p ≠ .undefined)
    (honly : ∀ q < 8, q ≠ 0 → q ≠ p → s.partState q = .undefined) (hcore : (s.part p).core = cc) : s.coreParts cc = [p] := by
  have hpick : s.coreParts cc = (List.range 8).filter (· == p) := by
    refine List.filter_congr fun q hq => ?_
    by_cases h : q = p
    · subst h; simp [hdef, hcore]; omega
    · by_cases h0 : q = 0
      · subst h0; simp; omega
      · simp [honly q (List.mem_range.mp hq) h0 h, h]
  have hone : ∀ q < 8, (List.range 8).filter (· == q) = [q] := by decide
  rw [hpick, hone p (by omega)]

/-! The obligation -/

/-- Settles O13: each event's row is its meaning's state closed. The items of EV_DRAIN_TIMEOUT (log entries 7 and 75), the window's carry (log entry
75), and a timed-out disable that counts as committed (log entries 75 and 88) are the model's choices. -/
theorem controlEventsComplete : Obligations.ControlEventsComplete := by
  unfold Obligations.ControlEventsComplete
  intro dt s u
  refine ⟨?stop, ?restartEnd, ?schedule, ?opensFirst, ?swap, ?restartLate, ?watchdogOne, ?drains, ?restartRow, ?boundary, ?watchdog⟩
  case stop =>
    intro id p k mine hf hp hk
    exact completes_event rfl rfl (drainTimeout_of_stop hf hp hk)
  case restartEnd =>
    intro p r hlo hhi hstate hr _ hf hstops hcmd _
    have hp0 : p ≠ 0 := by omega
    have hpart := State.endRestart_part ((State.partState_of_ne_zero hp0).trans hstate) hr hcmd hf (by omega) hstops
    refine ⟨_, rfl, ?_, ?_⟩
    · rw [State.partState_of_ne_zero hp0, State.part, State.close_ccx]
      exact congrArg Part.state hpart
    · rw [State.part, State.close_ccx]
      exact congrArg Part.restart hpart
  case schedule => exact fun w hw hdue => completes_event rfl rfl (windowScheduleStart_of_due hw hdue)
  case opensFirst =>
    intro w l p a b hw hat hfirst
    have hshut : (sget {} u.ccx.winCore l).open_ = none := by rw [hfirst]
    refine completes_event rfl rfl ((windowBoundary_opens hw (by simp [hshut]) hat (by simp [hshut])).trans ?_)
    rw [hfirst]; rfl
  case swap =>
    intro id f hu hid hwait
    have htables := fwUpdateSwap_updateTables hu hid hwait
    refine ⟨_, rfl, ?_⟩
    rw [State.close_ccx]
    exact ⟨congrArg (·.1) htables, congrArg (·.2.1) htables, congrArg (·.2.2.1) htables, congrArg (·.2.2.2) htables⟩
  case restartLate =>
    intro p r hstate hp hr hlate
    exact completes_event rfl rfl (partitionRestartTimeout_of_late ((State.partState_of_ne_zero hp).trans hstate) hr hlate)
  case watchdogOne =>
    intro p cc hready hlo hhi hdef honly hclo hchi hcore
    refine completes_event rfl rfl ((controlCoreWatchdogTimeout_of_ready hready hclo hchi).trans ?_)
    rw [State.coreParts_of_only hlo hhi hdef honly hcore]
    rfl
  case drains =>
    intro id mine stops retrains
    refine ⟨?func, ?update, ?retrain, ?split⟩
    case func => exact fun f hf hdue => completes_event rfl rfl (drainTimeout_of_func hf hdue)
    case update => exact fun f hf hp hu hid hnew hdue => completes_event rfl rfl (drainTimeout_of_update hf hp hu hid hnew hdue)
    case retrain =>
      intro r hf hp hu hr hdue
      exact completes_event rfl rfl ((drainTimeout_of_other hf hp hu).trans (State.otherTimeout_of_retrain hr hdue))
    case split =>
      intro k hf hp hu hr hk hid hnew hdue hbusy
      exact completes_event rfl rfl ((drainTimeout_of_other hf hp hu).trans (State.otherTimeout_of_split hr hk hid hnew hdue hbusy))
  case restartRow => exact fun p r _ _ _ _ => completes_event (f := fun s => s.endRestart p) rfl rfl rfl
  case boundary =>
    intro w l x hw hfree
    exact ⟨fun p a b hat hnew => completes_event rfl rfl (windowBoundary_opens hw hfree hat hnew),
      fun hat => completes_event rfl rfl (windowBoundary_closes hw hfree hat)⟩
  case watchdog => exact fun cc hready hlo hhi => completes_event rfl rfl (controlCoreWatchdogTimeout_of_ready hready hlo hhi)

end Sys2Proof.Machine
end

section
/-! The events of the Tensor Array's cores (R120, R289, R290, R299, R309, R310, R431, R432), and their obligation. -/
namespace Sys2Proof.Machine
variable {s : State}

/-! RNG_SEED_HI_WRITE, R310 -/

theorem rngSeedHiWrite_of_seed {p : Nat} {v : W64} (hp : p < 14)
    (hseed : leVal (leBytes 8 (sget 0 s.tar.rngLo p).toNat ++ leBytes 8 v.toNat) ≠ 0) :
    rngSeedHiWrite p v s = s.seedCore p (leBytes 8 (sget 0 s.tar.rngLo p).toNat ++ leBytes 8 v.toNat) := if_pos ⟨hp, hseed⟩

/-! DESCRIPTOR_START, R120, R289, R290, R299 -/

/-- A seed that waits for a physical core takes effect there before the next descriptor, R299. -/
def State.takeSeed (s : State) (p : Nat) : State :=
  match s.tar.rngPend.find? fun e => e.1 == p with
  | some e => s.setTar fun t => { t with
      rngPend := t.rngPend.filter fun (x : Nat × Bytes) => x.1 != p
      rng := (t.rng.filter fun (x : Nat × Bytes) => x.1 != p) ++ [(p, e.2)] }
  | none => s

theorem State.takeSeed_of_none {p : Nat} (h : s.tar.rngPend = []) : s.takeSeed p = s := by
  rw [State.takeSeed, h]; rfl

/-- The seed of one core that waits is taken, and none waits any more. -/
theorem State.takeSeed_of_one {p : Nat} {b : Bytes} (h : s.tar.rngPend = [(p, b)]) :
    (p, b) ∈ (s.takeSeed p).tar.rng ∧ (s.takeSeed p).tar.rngPend = [] := by
  simp [State.takeSeed, h, State.setTar]

/-- The close of a row leaves the seeds as they were. -/
theorem State.close_rng (s t : State) (dt : Nat) : (s.close dt t).tar.rng = t.tar.rng := by
  obtain ⟨m, h⟩ := t.pruneTar_cases
  rw [State.close, h]

theorem State.close_rngPend (s t : State) (dt : Nat) : (s.close dt t).tar.rngPend = t.tar.rngPend := by
  obtain ⟨m, h⟩ := t.pruneTar_cases
  rw [State.close, h]

/-- The descriptor is marked started, and whether it is to be rerun, R433. -/
def State.startJob (s : State) (j : TJob) : State :=
  (s.sample j).1.updJob j.seq fun x => { x with started := true, startedAt := s.ns, rerun := (s.sample j).2 }

theorem State.sample_of_unchecked {j : TJob} (h : j.band = 0) : s.sample j = (s, 0) := if_pos h

theorem State.startJob_of_unchecked {j : TJob} (h : j.band = 0) :
    s.startJob j = s.updJob j.seq fun x => { x with started := true, startedAt := s.ns, rerun := 0 } := by
  rw [State.startJob, State.sample_of_unchecked h]

/-- What lets the descriptor at the head of a core's queue start: the core runs and no starter does, the schedule has a window that it fits
and that window is open, at most seven started ones have run, and none of them writes where it works. -/
structure State.MayStart (s : State) (l : Nat) (j : TJob) : Prop where
  head : (s.queued l).head? = some j
  runs : s.runsOn l = true
  noStarter : (s.tar.starters.any fun r => r.slot == 16 + (s.physOf l).getD 0) = false
  fits : s.inSchedule l = true → s.timeOf j ≤ (((s.windowsOf j.part l).foldl Nat.max 0 : Nat) : Rat)
  few : (s.tar.jobs.filter fun e => e.core == l && e.started).length < 8
  ran : ∀ e ∈ s.tar.jobs.filter (fun e => e.core == l && e.started), e.ran = true
  noHazard : s.hazard j = false
  inWindow : s.windowTakes j = true

theorem descriptorStart_of_mayStart {l : Nat} {j : TJob} (h : s.MayStart l j) :
    descriptorStart l s = (s.takeSeed ((s.physOf l).getD 0)).startJob j := by
  have hran : ((s.tar.jobs.filter fun e => e.core == l && e.started).any fun e => !e.ran) = false :=
    List.any_eq_false.mpr fun e he => by simp [h.ran e he]
  rw [descriptorStart, h.head]
  dsimp only
  rw [if_neg (by simp [h.runs, h.noStarter]), if_neg fun ⟨hin, hlong⟩ => absurd (h.fits hin) (Rat.not_le.mpr hlong),
    if_neg (by simp [hran, h.few, h.noHazard, h.inWindow])]
  rfl

/-- Outside window schedules, on a core that runs nothing else, the head of the queue starts. -/
theorem State.MayStart.of_free {l : Nat} {j : TJob} (hhead : (s.queued l).head? = some j) (hruns : s.runsOn l = true)
    (hstarters : s.tar.starters = []) (hin : s.inSchedule l = false) (hcore : j.core = l)
    (hfree : (s.tar.jobs.filter fun e => e.core == l && e.started) = []) : s.MayStart l j where
  head := hhead
  runs := hruns
  noStarter := by rw [hstarters]; rfl
  fits := fun h => absurd (hin.symm.trans h) Bool.false_ne_true
  few := by rw [hfree]; decide
  ran := by rw [hfree]; nofun
  noHazard := by
    refine List.any_eq_false.mpr fun e he => ?_
    have hidle := List.filter_eq_nil_iff.mp hfree e he
    rw [hcore]
    simp only [Bool.and_eq_true] at hidle ⊢
    exact fun ⟨⟨⟨hc, hs⟩, _⟩, _⟩ => hidle ⟨hc, hs⟩
  inWindow := by rw [State.windowTakes, hcore, hin]; rfl

/-! TILE_COMPLETE, R309, R431, R432 -/

/-- The descriptor that a core works at. -/
def State.workingJob (s : State) (l : Nat) : Option TJob := s.tar.jobs.find? fun j => j.core == l && j.started && !j.ran

/-- A report has passed the residue check: a mismatch, also one after recomputation, is counted, R431. -/
def State.afterResidue (s : State) (p : Nat) (j : TJob) (r : TileReport) : State :=
  if r.residueBad = true ∨ r.recomputeBad = true then s.residue p j.part else s

/-- The first residue mismatch of a core in a second is only counted, R431. -/
theorem State.residue_of_first {p part : Nat} (hnew : (s.tar.residAt.find? fun e => e.1 == p) = none) (hmax : 1 ≤ s.ssi.policy.residMax) :
    s.residue p part = (s.setTar fun t => { t with residAt := setAt t.residAt p [s.ns] }).countSat (.tarCoreResid p) 0 32 := by
  have hrecent : recentAt s.tar.residAt p s.ns 1000000000 = [] := by rw [recentAt, hnew]; rfl
  rw [State.residue, hrecent]
  exact if_neg (Nat.not_lt.mpr hmax)

/-- Before the safety configuration no starter pair runs, R434. -/
theorem State.startPair_of_unconfigured {p part : Nat} {slot : Option Nat} {frame : Bool} (h : s.configured = false) :
    s.startPair p slot part frame = s := if_pos (by simp [h])

theorem State.chargeOverrun_reg_ne (l part : Nat) {r : Reg} (hm : r ≠ .ccxHpMboxErr) (ho : ∀ p, r ≠ .tarWinOverrunNs p) :
    (s.chargeOverrun l part).reg r = s.reg r := by
  unfold State.chargeOverrun
  dsimp only
  split
  · split
    · exact (State.raise_reg_ne _ _ _ _ hm).trans (State.addSat_reg_ne _ _ _ _ (ho _))
    · exact State.addSat_reg_ne _ _ _ _ (ho _)
  · rfl

theorem State.failJob_reg_ne (j : TJob) (st : Nat) {r : Reg} (hm : r ≠ .ccxHpMboxErr) (ho : ∀ p, r ≠ .tarWinOverrunNs p) :
    (s.failJob j st).reg r = s.reg r := by
  refine (State.settle_reg_ne _ hm).trans ((State.endCmd_reg_ne _ _ _ _ hm).trans ?_)
  unfold State.chargeJob
  split
  · exact State.chargeOverrun_reg_ne _ _ hm ho
  · rfl

theorem State.failJob_configured (j : TJob) (st : Nat) : (s.failJob j st).configured = s.configured := by
  rw [State.configured, State.failJob_reg_ne j st (by decide) (fun _ => by simp), State.configured]

section
variable {l p : Nat} {j : TJob} {r : TileReport} (hj : s.workingJob l = some j) (hp : s.physOf l = some p)
include hj hp

/-- What a tile's report leads to, in the order of its faults: a mismatch after recomputation, an uncorrectable line, the shadow. -/
theorem tileComplete_of_working : tileComplete l r s =
    if r.recomputeBad then ((s.afterResidue p j r).failJob j 0x64).startPair p none j.part false
    else match r.memBad with
      | some a => (s.afterResidue p j r).coreUe j a
      | none => if j.band = 0 ∨ r.primary = false then s.afterResidue p j r else (s.afterResidue p j r).shadowTile j r := by
  unfold State.workingJob at hj
  simp only [tileComplete, hj, hp, State.afterResidue, Bool.or_eq_true]
  rfl

theorem tileComplete_of_recomputeBad (h : r.recomputeBad = true) :
    tileComplete l r s = ((s.afterResidue p j r).failJob j 0x64).startPair p none j.part false := by
  rw [tileComplete_of_working hj hp, if_pos h]

variable (hgood : r.recomputeBad = false)
include hgood

theorem tileComplete_of_memBad {a : Nat} (h : r.memBad = some a) : tileComplete l r s = (s.afterResidue p j r).coreUe j a := by
  rw [tileComplete_of_working hj hp, if_neg (by simp [hgood]), h]

variable (hmem : r.memBad = none)
include hmem

theorem tileComplete_of_unshadowed (h : j.band = 0 ∨ r.primary = false) : tileComplete l r s = s.afterResidue p j r := by
  rw [tileComplete_of_working hj hp, if_neg (by simp [hgood]), hmem]
  exact if_pos h

theorem tileComplete_of_shadowed (hband : j.band ≠ 0) (hprimary : r.primary = true) :
    tileComplete l r s = (s.afterResidue p j r).shadowTile j r := by
  rw [tileComplete_of_working hj hp, if_neg (by simp [hgood]), hmem]
  exact if_neg (by simp [hband, hprimary])
end

theorem State.afterResidue_of_good {p : Nat} {j : TJob} {r : TileReport} (hres : r.residueBad = false) (hgood : r.recomputeBad = false) :
    s.afterResidue p j r = s := if_neg (by simp [hres, hgood])

theorem State.afterResidue_of_bad {p : Nat} {j : TJob} {r : TileReport} (hres : r.residueBad = true) :
    s.afterResidue p j r = s.residue p j.part := if_pos (.inl hres)

/-- After the first tile of 16 the picked one is known, R432 (log entry 95). -/
theorem State.shadowTile_of_drawn {j : TJob} (r : TileReport) (h : j.tiles % 16 ≠ 0) :
    s.shadowTile j r =
      (let b := s.tolBand j.part j.band
       s.updJob j.seq fun x => if j.tiles % 16 = j.pick then
        { x with tiles := x.tiles + 1, pick := j.pick, shadowBad := x.shadowBad + b.outOf r.shadow
                 disagrees := x.disagrees || b.disagrees r.shadow.length (b.outOf r.shadow) }
        else { x with tiles := x.tiles + 1, pick := j.pick }) := by
  have hdrawn : s.drawTile j = (j.pick, s) := if_neg h
  rw [State.shadowTile, hdrawn]

/-! The obligation -/

/-- Settles O31: the head of the queue starts where nothing keeps it, and a tile's report leads to the first fault that it names. R112 names the
status of a mismatch after recomputation ST_CHECK_MISMATCH; the order of starters (log entry 65) and the draw of the shadowed tile (log entry 95)
are the model's choices. -/
theorem tensorEventsComplete : Obligations.TensorEventsComplete := by
  unfold Obligations.TensorEventsComplete
  intro dt s u
  refine ⟨?seed, ?startFree, ?startSeeded, ?tile, ?start⟩
  case seed =>
    intro p v seed hp hseed
    exact completes_event rfl rfl (rngSeedHiWrite_of_seed hp hseed)
  case startFree =>
    intro l j hhead hruns hstarters hin hcore hband hfree hpend
    have hmay := State.MayStart.of_free hhead hruns hstarters hin hcore hfree
    refine completes_event rfl rfl ((descriptorStart_of_mayStart hmay).trans ?_)
    rw [State.takeSeed_of_none hpend, State.startJob_of_unchecked hband]
  case startSeeded =>
    intro l j p b hhead hruns hstarters hin hcore hband hfree hp hpend
    have hmay := State.MayStart.of_free hhead hruns hstarters hin hcore hfree
    obtain ⟨hrng, hnone⟩ := State.takeSeed_of_one hpend
    have hrow : Completes (.descriptorStart dt l) s ((u.takeSeed p).startJob j) :=
      completes_event rfl rfl ((descriptorStart_of_mayStart hmay).trans (by rw [hp]; rfl))
    refine ⟨_, hrow, ?_⟩
    rw [State.startJob_of_unchecked hband]
    exact ⟨(State.close_rng _ _ _).symm ▸ hrng, (State.close_rngPend _ _ _).trans hnone⟩
  case tile =>
    intro l j r p hj hp
    refine ⟨?good, ?counted, ?mismatch, ?shadow, ?general⟩
    case good =>
      intro hres hgood hmem h
      exact completes_event rfl rfl ((tileComplete_of_unshadowed hj hp hgood hmem h).trans (State.afterResidue_of_good hres hgood))
    case counted =>
      intro hres hgood hmem hband hnew hmax
      refine completes_event rfl rfl ((tileComplete_of_unshadowed hj hp hgood hmem (.inl hband)).trans ?_)
      rw [State.afterResidue_of_bad hres, State.residue_of_first hnew hmax]
    case mismatch =>
      intro hres hbad hnew hmax hconf
      refine completes_event rfl rfl ((tileComplete_of_recomputeBad hj hp hbad).trans ?_)
      rw [State.afterResidue_of_bad hres, State.residue_of_first hnew hmax, State.startPair_of_unconfigured]
      rw [State.failJob_configured, State.configured, State.countSat_reg_ne _ _ _ (by simp)]
      exact hconf
    case shadow =>
      intro hres hgood hmem hband hprimary hdrawn
      refine completes_event rfl rfl ((tileComplete_of_shadowed hj hp hgood hmem hband hprimary).trans ?_)
      rw [State.afterResidue_of_good hres hgood, State.shadowTile_of_drawn r hdrawn]
    case general =>
      exact ⟨fun hbad => completes_event rfl rfl (tileComplete_of_recomputeBad hj hp hbad),
        fun a hgood hmem => completes_event rfl rfl (tileComplete_of_memBad hj hp hgood hmem),
        fun hgood hmem h => completes_event rfl rfl (tileComplete_of_unshadowed hj hp hgood hmem h),
        fun hgood hmem hband hprimary => completes_event rfl rfl (tileComplete_of_shadowed hj hp hgood hmem hband hprimary)⟩
  case start =>
    intro l j fl hhead hruns hstarter hfits hfew hran hhazard hwindow
    exact completes_event rfl rfl (descriptorStart_of_mayStart ⟨hhead, hruns, hstarter, hfits, hfew, hran, hhazard, hwindow⟩)

end Sys2Proof.Machine
end

section
/-! What commands that only configure leave alone (R99): memory, and every register that they do not name. Their obligation. -/
namespace Sys2Proof.Machine

/-- From s on, where no page of the KV cache and no voxel set is held, nothing was stored, and no register written but those that p allows and
the mark of a discarded response. -/
structure State.OnlyWrites (s : State) (p : Reg → Prop) (t : State) : Prop where
  mem : t.mem = s.mem
  island : t.island = s.island
  regs : ∀ r, r ≠ .ccxHpMboxErr → ¬ p r → t.reg r = s.reg r
  pages : t.kv.pages = []
  slots : t.tar.slots = []

namespace State.OnlyWrites
variable {s t : State} {p : Reg → Prop}

theorem refl (hp : s.kv.pages = []) (hs : s.tar.slots = []) : s.OnlyWrites p s := ⟨rfl, rfl, fun _ _ _ => rfl, hp, hs⟩

/-! The state's own updates -/

/-- A change of neither memory, registers, the KV cache nor the Tensor Array. -/
theorem of_same {u : State} (h : s.OnlyWrites p t) (hm : u.mem = t.mem) (hi : u.island = t.island) (hc : u.csr = t.csr) (hk : u.kv = t.kv)
    (ht : u.tar = t.tar) : s.OnlyWrites p u where
  mem := hm.trans h.mem
  island := hi.trans h.island
  regs := fun r hr hp => (congrArg (csrGet · r) hc).trans (h.regs r hr hp)
  pages := hk ▸ h.pages
  slots := ht ▸ h.slots

theorem setReg (h : s.OnlyWrites p t) {r : Reg} (v : W64) (hr : p r) : s.OnlyWrites p (t.setReg r v) where
  mem := h.mem
  island := h.island
  regs := fun q hq hp => (State.setReg_reg_ne t v (by rintro rfl; exact hp hr)).trans (h.regs q hq hp)
  pages := h.pages
  slots := h.slots

theorem setFldOf (h : s.OnlyWrites p t) {r : Reg} (lo len x : Nat) (hr : p r) : s.OnlyWrites p (t.setFldOf r lo len x) := h.setReg _ hr

theorem withGov (h : s.OnlyWrites p t) (g : Gov) : s.OnlyWrites p { t with gov := g } := h.of_same rfl rfl rfl rfl rfl

theorem ite {u : State} {q : Prop} [Decidable q] (ht : s.OnlyWrites p t) (hu : s.OnlyWrites p u) :
    s.OnlyWrites p (if q then t else u) := by
  split
  · exact ht
  · exact hu

theorem setTbase (h : s.OnlyWrites p t) (n : Nat) (x : TimeBase) : s.OnlyWrites p (t.setTbase n x) := h.of_same rfl rfl rfl rfl rfl

theorem setResult (h : s.OnlyWrites p t) (id o : Nat) (b : Bytes) : s.OnlyWrites p (t.setResult id o b) := h.of_same rfl rfl rfl rfl rfl

theorem start (h : s.OnlyWrites p t) (id : Nat) : s.OnlyWrites p (t.start id) := h.of_same rfl rfl rfl rfl rfl

theorem elapse (h : s.OnlyWrites p t) (dt : Nat) : s.OnlyWrites p (t.elapse dt) := h.of_same rfl rfl rfl rfl rfl

/-! The ends of commands and of rows -/

theorem endCmd (h : s.OnlyWrites p t) (id : Nat) (st : CmdState) (v : Nat) : s.OnlyWrites p (t.endCmd id st v) where
  mem := (t.endCmd_mem id st v h.pages).1.trans h.mem
  island := (t.endCmd_island id st v).trans h.island
  regs := fun _ hr hp => (t.endCmd_reg_ne id st v hr).trans (h.regs _ hr hp)
  pages := (t.endCmd_mem id st v h.pages).2
  slots := by rw [t.endCmd_tar]; exact h.slots

theorem failCmd (h : s.OnlyWrites p t) (id v : Nat) : s.OnlyWrites p (t.failCmd id v) := h.endCmd id _ v

theorem done (h : s.OnlyWrites p t) (c : Cmd) : s.OnlyWrites p (t.done c) := by
  unfold State.done State.finish
  split
  · exact h
  · split <;> exact h.endCmd _ _ _

theorem doneWith (h : s.OnlyWrites p t) (c : Cmd) (b : Bytes) : s.OnlyWrites p (t.doneWith c b) := (h.setResult c.id 0x20 b).done c

theorem settle (h : s.OnlyWrites p t) : s.OnlyWrites p t.settle := by
  obtain ⟨hm, hk, ht⟩ := t.settle_mem h.pages h.slots
  obtain ⟨m, hprune⟩ := t.pruneTar_cases
  refine ⟨hm.trans h.mem, t.settle_island.trans h.island, fun r hr hp => (t.settle_reg_ne hr).trans (h.regs r hr hp), hk, ?_⟩
  rw [ht, hprune, h.slots]; rfl

theorem close (h : s.OnlyWrites p t) (u : State) (dt : Nat) : s.OnlyWrites p (u.close dt t) := by
  obtain ⟨m, hprune⟩ := t.pruneTar_cases
  refine ⟨(t.pruneTar_mem h.slots).trans h.mem, (u.close_island dt t).trans h.island,
    fun r hr hp => (u.close_reg dt t r).trans (h.regs r hr hp), ?_, ?_⟩
  · rw [State.close, hprune]; exact h.pages
  · rw [State.close, hprune, h.slots]; rfl

/-- A command that its checks refuse writes nothing; else it writes what its row does. -/
theorem firstFail (h : s.OnlyWrites p t) (c : Cmd) (l : List (Bool × Nat)) (ok : State → State) (hok : s.OnlyWrites p (ok t)) :
    s.OnlyWrites p (t.firstFail c l ok) := by
  unfold State.firstFail
  split
  · exact h.failCmd _ _
  · exact hok

/-- The row of a host command writes what its meaning writes. -/
theorem of_runCmd {dt id code : Nat} {f : Cmd → State → State} (hp : s.kv.pages = []) (hs : s.tar.slots = [])
    (hf : ∀ c t, s.OnlyWrites p t → s.OnlyWrites p (f c t)) (h : runCmd dt id code f s = .next t) : s.OnlyWrites p t := by
  cases h
  have hrow : s.OnlyWrites p (s.elapse dt) := (refl hp hs).elapse dt
  refine close ?_ _ _
  split
  · exact (hf _ _ (hrow.start id)).settle
  · exact hrow

theorem frames (h : s.OnlyWrites p t) :
    SameMem s t (fun _ => True) ∧ t.island = s.island ∧ SameRegs s t fun r => r ≠ .ccxHpMboxErr ∧ ¬ p r :=
  ⟨fun a _ => congrArg (sget 0 · a) h.mem, h.island, fun r ⟨hr, hp⟩ => h.regs r hr hp⟩

end State.OnlyWrites

/-! The configuration commands -/

variable {s t : State} {p : Reg → Prop} (c : Cmd)

section
variable (h : s.OnlyWrites p t)
include h

theorem timeSetFormat_onlyWrites (hr : ∀ n, p (.tnuTbCtl n)) : s.OnlyWrites p (timeSetFormat c t) := by
  unfold timeSetFormat
  exact h.firstFail _ _ _ (.done (.setFldOf (.ite h (h.setTbase _ _)) _ _ _ (hr _)) _)

theorem timeSetSource_onlyWrites (hr : ∀ n, p (.tnuTbCtl n)) : s.OnlyWrites p (timeSetSource c t) := by
  unfold timeSetSource
  exact h.firstFail _ _ _ ((((h.setFldOf _ _ _ (hr _)).setFldOf _ _ _ (hr _)).setTbase _ _).done _)

theorem timeSetIncrement_onlyWrites (hr : ∀ n, p (.tnuTbInc n)) : s.OnlyWrites p (timeSetIncrement c t) := by
  unfold timeSetIncrement
  exact h.firstFail _ _ _ ((h.setReg _ (hr _)).done _)

theorem timeSetJumpThreshold_onlyWrites (hr : ∀ n, p (.tnuTbJumpThr n)) : s.OnlyWrites p (timeSetJumpThreshold c t) := by
  unfold timeSetJumpThreshold
  exact h.firstFail _ _ _ ((h.setReg _ (hr _)).done _)

theorem timeStepUnlock_onlyWrites : s.OnlyWrites p (timeStepUnlock c t) := by
  unfold timeStepUnlock
  exact h.firstFail _ _ _ (.ite ((h.setTbase _ _).done _) ((h.setTbase _ _).failCmd _ _))

theorem timeRead_onlyWrites (hr : ∀ n, p (.tnuXstampTb n)) : s.OnlyWrites p (timeRead c t) :=
  .doneWith (foldl_holds (s.OnlyWrites p) _ (fun _ n ht => ht.setReg _ (hr n)) _ _ h) _ _

theorem powerSetLimit_onlyWrites (hr : p .ccxPwrPpl) : s.OnlyWrites p (powerSetLimit c t) := by
  unfold powerSetLimit
  exact h.firstFail _ _ _ (.done ((h.withGov _).setReg _ hr) _)

theorem powerSetMargin_onlyWrites : s.OnlyWrites p (powerSetMargin c t) := by
  unfold powerSetMargin
  exact h.firstFail _ _ _ ((h.withGov _).done _)

theorem State.OnlyWrites.sendVset (mv : Nat) (hr : p .ccxPwrVset) : s.OnlyWrites p (t.sendVset mv) :=
  (State.OnlyWrites.setReg (t := t.emit (.avs 0 (.voltageWrite mv))) (h.of_same rfl rfl rfl rfl rfl) _ hr).of_same rfl rfl rfl rfl rfl

theorem State.OnlyWrites.stepTo (mv : Nat) (hr : p .ccxPwrVset) : s.OnlyWrites p (t.stepTo mv) :=
  foldl_holds (s.OnlyWrites p) _ (fun _ x ht => ht.sendVset x hr) _ _ h

theorem powerSetWarn_onlyWrites (hwarn : p .ssiPwrVcoreWarn) (hvset : p .ccxPwrVset) : s.OnlyWrites p (powerSetWarn c t) := by
  unfold powerSetWarn
  refine h.firstFail _ _ _ ?_
  extract_lets _ aimed raised
  have haimed : s.OnlyWrites p aimed := .ite (h.withGov _) h
  have hraised : s.OnlyWrites p raised := .ite (haimed.stepTo _ hvset) haimed
  exact (hraised.setReg _ hwarn).done _

theorem memArbConfig_onlyWrites (hctl : ∀ n, p (.mmvArbCtl n)) (hurgency : ∀ n, p (.mmvArbUrgency n)) (hwindow : ∀ n, p (.mmvArbWindow n))
    (hrank : ∀ n w, p (.mmvArbRank n w)) : s.OnlyWrites p (memArbConfig c t) := by
  unfold memArbConfig
  extract_lets _ _ _ _ _ _ _ _ _ _
  refine h.firstFail _ _ _ ?_
  extract_lets burst urgency window rank
  have hburst : s.OnlyWrites p burst := .ite (h.setFldOf _ _ _ (hctl _)) h
  have hurgent : s.OnlyWrites p urgency := .ite (hburst.setReg _ (hurgency _)) hburst
  have hwin : s.OnlyWrites p window := .ite (hurgent.setReg _ (hwindow _)) hurgent
  have hranked : s.OnlyWrites p rank := .ite (foldl_holds (s.OnlyWrites p) _ (fun _ _ ht => ht.setFldOf _ _ _ (hrank _ _)) _ _ hwin) hwin
  exact hranked.done _

/-- A status command that may be refused writes nothing but its results. -/
theorem status_onlyWrites (q : Prop) [Decidable q] (v : Nat) (b : Bytes) :
    s.OnlyWrites p (if q then t.failCmd c.id v else t.doneWith c b) :=
  .ite (h.failCmd _ _) (h.doneWith _ _)

theorem memErrStatus_onlyWrites : s.OnlyWrites p (memErrStatus c t) := by
  unfold memErrStatus
  exact .ite (h.doneWith _ _) (status_onlyWrites c h _ _ _)
end

/-- Settles O54: each of these rows writes at most the registers that its command names. -/
theorem configurationFrames : Obligations.ConfigurationFrames := by
  unfold Obligations.ConfigurationFrames
  intro dt id s t u _ hs hp keeps
  have row : ∀ {code : Nat} {f : Cmd → State → State} (p : Reg → Prop), (∀ c t, s.OnlyWrites p t → s.OnlyWrites p (f c t)) →
      runCmd dt id code f s = .next t → SameMem s t (fun _ => True) ∧ t.island = s.island ∧ SameRegs s t fun r => r ≠ .ccxHpMboxErr ∧ ¬ p r :=
    fun _ hf h => (State.OnlyWrites.of_runCmd (s := s) hp hs hf h).frames
  exact ⟨row _ fun c _ h => timeSetFormat_onlyWrites c h fun n => ⟨n, rfl⟩,
    row _ fun c _ h => timeSetSource_onlyWrites c h fun n => ⟨n, rfl⟩,
    row _ fun c _ h => timeSetIncrement_onlyWrites c h fun n => ⟨n, rfl⟩,
    row _ fun c _ h => timeSetJumpThreshold_onlyWrites c h fun n => ⟨n, rfl⟩,
    row _ fun c _ h => timeStepUnlock_onlyWrites c h,
    row _ fun c _ h => timeRead_onlyWrites c h fun n => ⟨n, rfl⟩,
    row _ fun c _ h => powerSetLimit_onlyWrites c h rfl,
    row _ fun c _ h => powerSetMargin_onlyWrites c h,
    row _ fun c _ h => powerSetWarn_onlyWrites c h (.inl rfl) (.inr rfl),
    row _ fun c _ h => h.doneWith c _,
    row _ fun c _ h => status_onlyWrites c h _ _ _,
    row _ fun c _ h => status_onlyWrites c h _ _ _,
    row _ fun c _ h => memErrStatus_onlyWrites c h,
    row _ fun c _ h => memArbConfig_onlyWrites c h (fun n => ⟨n, .inl rfl⟩) (fun n => ⟨n, .inr (.inl rfl)⟩)
      (fun n => ⟨n, .inr (.inr (.inl rfl))⟩) (fun n w => ⟨n, .inr (.inr (.inr ⟨w, rfl⟩))⟩),
    row _ fun c _ h => h.doneWith c _,
    row _ fun c _ h => h.doneWith c _⟩

end Sys2Proof.Machine
end

section
/-! The Intake commands (R165, R174, R177, R178, R182, R185 to R187), and their obligation. -/
namespace Sys2Proof.Machine
variable {s : State} {c : Cmd}

theorem bit_ofNat {w i : Nat} (x : Nat) (h : i < w) : bit (BitVec.ofNat w x) i = x.testBit i := by
  rw [bit, BitVec.getLsbD_ofNat, decide_eq_true h, Bool.true_and]

/-- A port without enabled streams takes a configuration in range, R187. -/
theorem intakePortConfig_of_free (hport : c.p 0x21 1 < portCount (c.p 0x20 1)) (hok : portOk c = true)
    (hfree : s.portStreams (c.p 0x20 1) (c.p 0x21 1) = []) :
    intakePortConfig c s =
      ({ s with siu := { s.siu with
        ports := (s.siu.ports.filter fun (e : (Nat × Nat) × Bytes) => e.1 != (c.p 0x20 1, c.p 0x21 1)) ++
          [((c.p 0x20 1, c.p 0x21 1), cut c.params 2 14)] } }).done c := by
  rw [intakePortConfig, s.firstFail_of_all_false c _ (by simp [hport, hok, hfree])]

/-- Bit 1 of byte 0x39 asks for a tap, which only the safety configuration sets, R186, R404. -/
theorem intakeStreamConfig_of_off (hok : s.streamFieldsOk (cut c.params 0 48) = true) (hown : s.foreignStream (c.p 0x20 1) c.part = false)
    (htap : (c.p 0x39 1).testBit 1 = false) (hoff : s.strmOn (c.p 0x20 1) = false) :
    intakeStreamConfig c s =
      ((s.configStream (cut c.params 0 48) c.part (s.tapOn (c.p 0x20 1))).syncQ (c.p 0x20 1)).done c := by
  rw [intakeStreamConfig, s.firstFail_of_all_false c _ (by simp [hok, hown, hoff, bit_ofNat, htap])]

theorem intakeE2eConfig_of_off (hok : e2eOk (cut c.params 0 16) (s.strmKind (c.p 0x20 1)) = true)
    (hown : s.foreignStream (c.p 0x20 1) c.part = false) (hoff : s.strmOn (c.p 0x20 1) = false) :
    intakeE2eConfig c s = (s.configE2e (cut c.params 0 16) c.part).done c := by
  rw [intakeE2eConfig, s.firstFail_of_all_false c _ (by simp [hok, hown, hoff])]

theorem intakeSetProfile_of_all_off (hp : c.p 0x20 1 ≤ 1) (hoff : ∀ n < 64, s.strmOn n = false) :
    intakeSetProfile c s = (s.setFldOf .siuCtl 0 1 (c.p 0x20 1)).done c := by
  have hnone : (List.range 64).any s.strmOn = false := List.any_eq_false.mpr fun n hn => by simp [hoff n (List.mem_range.mp hn)]
  rw [intakeSetProfile, s.firstFail_of_all_false c _ (by simp [hp, hnone])]

/-! Commands that name one stream of the command's partition, R185 -/

section
variable (hn : c.p 0x20 1 ≤ 63) (hown : s.foreignStream (c.p 0x20 1) c.part = false)
include hn hown

theorem intakeStreamEnable_of_off (hkind : s.strmKind (c.p 0x20 1) ≠ 0) (hoff : s.strmOn (c.p 0x20 1) = false)
    (hprof : s.profileRefuses (c.p 0x20 1) = false) :
    intakeStreamEnable c s = (s.enableStream (c.p 0x20 1)).doneWith c
      (leBytes 1 ((s.enableStream (c.p 0x20 1)).fldOf (.siuStreamState (c.p 0x20 1)) 24 8)) := by
  rw [intakeStreamEnable, s.firstFail_of_all_false c _ (by simp [hn, hown, hkind, hprof])]
  simp only [hoff, Bool.false_eq_true, if_false]

/-- The profile is not asked again for a stream that is on already (log entry 46). -/
theorem intakeStreamEnable_of_on (hkind : s.strmKind (c.p 0x20 1) ≠ 0) (hon : s.strmOn (c.p 0x20 1) = true) :
    intakeStreamEnable c s = s.doneWith c (leBytes 1 (s.fldOf (.siuStreamState (c.p 0x20 1)) 24 8)) := by
  rw [intakeStreamEnable, s.firstFail_of_all_false c _ (by simp [hn, hown, hkind, hon])]
  simp only [hon, if_true]

theorem intakeStreamDisable_of_owned :
    intakeStreamDisable c s =
      (let n := c.p 0x20 1; let v := s.disableStream n; let flush := (c.p 0x21 1).testBit 0
       ((if flush then v.emptyQ n else v).pumpQueues).doneWith c (leBytes 4 (if flush then (v.strm n).queue.length else 0))) := by
  rw [intakeStreamDisable, s.firstFail_of_all_false c _ (by simp [hn, hown])]

theorem intakeResync_of_running (hrun : s.align (c.p 0x20 1) ≠ 0) :
    intakeResync c s = (s.modStrm (c.p 0x20 1) fun x => { x with resync := true }).done c := by
  rw [intakeResync, s.firstFail_of_all_false c _ (by simp [hn, hown, hrun])]

theorem intakeStreamStatus_of_owned : intakeStreamStatus c s = s.doneWith c (s.streamBank (c.p 0x20 1)) := by
  rw [intakeStreamStatus, s.firstFail_of_all_false c _ (by simp [hn, hown])]
end

/-- Settles O21: a command whose parameters and stream pass the checks of its row is not refused, and then does its work. That the enable of
a stream that is on already commits is the model's choice (log entry 46). -/
theorem intakeCommandsComplete : Obligations.IntakeCommandsComplete := by
  unfold Obligations.IntakeCommandsComplete
  intro dt id s c
  refine ⟨?port, ?config, ?checks, ?enable, ?disable, ?resync, ?profile, ?status, ?enabled⟩
  case port => exact fun hr hport hok hfree => completes_cmd rfl rfl hr (intakePortConfig_of_free hport hok hfree)
  case config => exact fun hr hok hown htap hoff => completes_cmd rfl rfl hr (intakeStreamConfig_of_off hok hown htap hoff)
  case checks => exact fun hr hok hown hoff => completes_cmd rfl rfl hr (intakeE2eConfig_of_off hok hown hoff)
  case enable =>
    exact fun hr hn hkind hown hoff hprof => completes_cmd rfl rfl hr (intakeStreamEnable_of_off hn hown hkind hoff hprof)
  case disable => exact fun hr hn hown => completes_cmd rfl rfl hr (intakeStreamDisable_of_owned hn hown)
  case resync => exact fun hr hn hown hrun => completes_cmd rfl rfl hr (intakeResync_of_running hn hown hrun)
  case profile => exact fun hr hp hoff => completes_cmd rfl rfl hr (intakeSetProfile_of_all_off hp hoff)
  case status => exact fun hr hn hown => completes_cmd rfl rfl hr (intakeStreamStatus_of_owned hn hown)
  case enabled => exact fun hr hn hkind hown hon => completes_cmd rfl rfl hr (intakeStreamEnable_of_on hn hown hkind hon)

end Sys2Proof.Machine
end

section
/-! What the intake of data leaves of the Island: its policies, and whether it is configured (R427). -/
namespace Sys2Proof.Machine

/-- From s to t neither the Island's own state nor SSI_SAFE_STAT, which tells whether it is configured, has changed. -/
structure State.SameSafety (s t : State) : Prop where
  ssi : t.ssi = s.ssi
  safeStat : t.reg .ssiSafeStat = s.reg .ssiSafeStat

namespace State.SameSafety
variable {s t : State}

theorem refl : s.SameSafety s := ⟨rfl, rfl⟩

theorem configured (h : s.SameSafety t) : t.configured = s.configured := by rw [State.configured, h.safeStat, State.configured]

/-- A change of neither the Island nor a register. -/
theorem of_same {u : State} (h : s.SameSafety t) (hi : u.ssi = t.ssi) (hc : u.csr = t.csr) : s.SameSafety u :=
  ⟨hi.trans h.ssi, (congrArg (csrGet · .ssiSafeStat) hc).trans h.safeStat⟩

theorem modReg (h : s.SameSafety t) {r : Reg} (f : W64 → W64) (hr : Reg.ssiSafeStat ≠ r) : s.SameSafety (t.modReg r f) :=
  ⟨h.ssi, (t.modReg_reg_ne f hr).trans h.safeStat⟩

theorem setReg (h : s.SameSafety t) {r : Reg} (v : W64) (hr : Reg.ssiSafeStat ≠ r) : s.SameSafety (t.setReg r v) := h.modReg (fun _ => v) hr

theorem setFldOf (h : s.SameSafety t) {r : Reg} (lo len x : Nat) (hr : Reg.ssiSafeStat ≠ r) : s.SameSafety (t.setFldOf r lo len x) :=
  h.modReg _ hr

theorem countSat (h : s.SameSafety t) {r : Reg} (lo len : Nat) (hr : Reg.ssiSafeStat ≠ r) : s.SameSafety (t.countSat r lo len) := h.modReg _ hr

theorem countWrap (h : s.SameSafety t) {r : Reg} (lo len k : Nat) (hr : Reg.ssiSafeStat ≠ r) : s.SameSafety (t.countWrap r lo len k) :=
  h.modReg _ hr

theorem setStrm (h : s.SameSafety t) (n : Nat) (x : Strm) : s.SameSafety (t.setStrm n x) := h.of_same rfl rfl

theorem modStrm (h : s.SameSafety t) (n : Nat) (f : Strm → Strm) : s.SameSafety (t.modStrm n f) := h.setStrm n _

theorem withChn (h : s.SameSafety t) (k : Chn) : s.SameSafety { t with chn := k } := h.of_same rfl rfl

theorem raise (h : s.SameSafety t) (c p : Nat) (b : Bytes) : s.SameSafety (t.raise c p b) :=
  ⟨(t.raise_ssi c p b).trans h.ssi, (t.raise_reg_ne c p b (by decide)).trans h.safeStat⟩

theorem raiseLim (h : s.SameSafety t) (c k p : Nat) (b : Bytes) : s.SameSafety (t.raiseLim c k p b) :=
  ⟨(t.raiseLim_ssi c k p b).trans h.ssi, (t.raiseLim_reg_ne c k p b (by decide)).trans h.safeStat⟩

theorem failCmd (h : s.SameSafety t) (id v : Nat) : s.SameSafety (t.failCmd id v) :=
  ⟨(t.endCmd_ssi id _ v).trans h.ssi, (t.endCmd_reg_ne id _ v (by decide)).trans h.safeStat⟩

theorem ite {u : State} {q : Prop} [Decidable q] (ht : s.SameSafety t) (hu : s.SameSafety u) : s.SameSafety (if q then t else u) := by
  split
  · exact ht
  · exact hu

/-! What Churn does with a sample, R196, R200, R201, R211 -/

theorem syncEgo (h : s.SameSafety t) : s.SameSafety t.syncEgo := by
  have hlen := h.modReg (r := .chnEgoStat) (fun v => setFld v 16 13 t.chn.ego.hist.length) (by decide)
  unfold State.syncEgo
  dsimp only
  split <;> exact hlen.setReg _ (by decide)

theorem egoInput (h : s.SameSafety t) (i : EgoIn) (rerun : Bool) : s.SameSafety (t.egoInput i rerun) := (h.withChn _).syncEgo

/-- A transition of ego's condition is told, R201. -/
theorem egoTransition (h : s.SameSafety t) (was good : Bool) :
    s.SameSafety (if was && !good then (t.countSat .chnEgoCnt 0 16).raise 0x0405 0 else if !was && good then t.raise 0x0406 0 else t) :=
  .ite ((h.countSat _ _ (by decide)).raise _ _ _) (.ite (h.raise _ _ _) h)

theorem egoCheck (h : s.SameSafety t) : s.SameSafety t.egoCheck := by
  have hgap : ∀ {u : State} (b : Bool), s.SameSafety u → s.SameSafety (if b then u.countSat .chnEgoCnt 16 16 else u) :=
    fun _ hu => .ite (hu.countSat _ _ (by decide)) hu
  exact .ite h (egoTransition (hgap _ (h.modReg _ (by decide))) _ _)

theorem egoSample (h : s.SameSafety t) (n : Nat) (x : Sample) (rerun : Bool) : s.SameSafety (t.egoSample n x rerun) := by
  unfold State.egoSample
  dsimp only
  refine .ite h ?_
  have himu : s.SameSafety (if n = t.chn.egoCfg.imu then
      match t.chn.egoCfg.imuVals x.payload with
      | some (g, a) =>
        let s := t.egoCheck.egoInput ⟨x.stamp, .imu g a⟩ rerun
        { s with chn := { s.chn with imuAt := some s.ns } }
      | none => t
    else t) := by
    refine .ite ?_ h
    split
    · exact (h.egoCheck.egoInput _ _).withChn _
    · exact h
  exact .ite (himu.egoInput _ _) himu

theorem lateFor (h : s.SameSafety t) (j : Nat) (i : Inst) (n k : Nat) : s.SameSafety (t.lateFor j i n k) :=
  .ite ((h.modReg _ (by simp)).withChn _) ((h.modReg _ (by simp)).raiseLim _ _ _ _)

theorem lateSample (h : s.SameSafety t) (n : Nat) (r : Role) (x : Sample) : s.SameSafety (t.lateSample n r x).2 :=
  List.foldlRecOn (motive := fun a : Bool × State => s.SameSafety a.2) _ _ h fun _ ha _ _ =>
    List.foldlRecOn (motive := fun a : Bool × State => s.SameSafety a.2) _ _ ha fun _ hb _ _ => hb.lateFor _ _ _ _

theorem churnSample (h : s.SameSafety t) (n : Nat) (x : Sample) : s.SameSafety (t.churnSample n x) := by
  have hlate : s.SameSafety (match t.role n with | some r => t.lateSample n r x | none => (false, t)).2 := by
    split
    · exact h.lateSample _ _ _
    · exact h
  exact .ite ((hlate.withChn _).egoSample _ _ _) (hlate.withChn _)

/-! Frame rings, R324, R379 -/

theorem store (h : s.SameSafety t) (a : Nat) (b : Bytes) : s.SameSafety (t.store a b) := by
  have hcount : ∀ {u : State} (p : Prop) [Decidable p] (k : Nat), s.SameSafety u →
      s.SameSafety (if p then u.countWrap (.mmvMcRmw k) 0 32 1 else u) :=
    fun _ _ _ hu => .ite (hu.countWrap _ _ _ (by simp)) hu
  have hwritten : s.SameSafety ((t.wr a b).clearPoison a b.length) := h.of_same rfl rfl
  exact .ite (hcount _ _ (hcount _ _ hwritten)) hwritten

theorem ringReport (h : s.SameSafety t) (n : Nat) (x : Sample) : s.SameSafety (t.ringReport n x) :=
  .ite (h.withChn _) (h.churnSample _ _)

theorem ringCommit (h : s.SameSafety t) (r : Ring) (f : RingFrame) (flags : BitVec 16) (stamp : Nat) :
    s.SameSafety (t.ringCommit r f flags stamp) := by
  have hslot : ∀ a b (x : Ring), s.SameSafety ((t.store a b).setRing r.stream x) := fun a b x => (h.store a b).of_same rfl rfl
  exact (SameSafety.ite (((hslot _ _ _).countSat _ _ (by decide)).raiseLim _ _ _ _) (hslot _ _ _)).ringReport _ _

theorem ringCut (h : s.SameSafety t) (n : Nat) : s.SameSafety (t.ringCut n) := by
  unfold State.ringCut
  split
  · split
    · exact h.ringCommit _ _ _ _
    · exact h
  · exact h

/-! Queues, R182 -/

theorem emptyQ (h : s.SameSafety t) (n : Nat) : s.SameSafety (t.emptyQ n) :=
  ((h.modStrm n _).setFldOf _ _ _ (by simp)).setFldOf _ _ _ (by simp)

theorem loseFrame (h : s.SameSafety t) (n : Nat) : s.SameSafety (t.loseFrame n) := by
  unfold State.loseFrame
  split
  · exact h.modStrm _ _
  · exact (SameSafety.ite h (h.countWrap _ _ _ (by simp))).modStrm _ _

theorem queueReset (h : s.SameSafety t) (n : Nat) (ptr : QPtr) : s.SameSafety (t.queueReset n ptr) := by
  have hlost := ((h.emptyQ n).loseFrame n).modStrm n fun x => { x with seq := 0, resets := x.resets ++ [((t.emptyQ n).loseFrame n).now] }
  exact .ite ((h.modStrm _ _).raise _ _ _)
    ((((hlost.countWrap _ _ _ (by simp)).countSat _ _ (by simp)).modReg _ (by simp)).raise _ _ _)

end State.SameSafety
end Sys2Proof.Machine
end

section
/-! The rows of the Intake (R166, R169, R175, R181, R182, R404), and their obligation. -/
namespace Sys2Proof.Machine
variable {s t : State} {n : Nat}

/-! SENSOR_PACKET_RX, R166, R183 -/

theorem State.phyErrors_of_not_csi {k : SensorPacket} (rt : List Nat) (h : k.kind ≠ 1) : s.phyErrors k rt = s := if_pos h

theorem State.phyErrors_of_clean {k : SensorPacket} (rt : List Nat) (hphy : k.phyErr = false) (hecc : k.eccFixed = false) :
    s.phyErrors k rt = s := by
  simp [State.phyErrors, hphy, hecc]

/-- Without errors, and without the ingress latency of Ethernet, a packet only enters its streams. -/
theorem State.sensorPacket_of_clean {k : SensorPacket} (hkind : k.kind ≠ 2) (hphy : k.phyErr = false) (hecc : k.eccFixed = false) :
    s.sensorPacket k = (s.route k).foldl (fun s r => s.ingress r.1 r.2.1 r.2.2.1 r.2.2.2 (s.tbAgo 0 k.stampAge)
      (s.tbAgo (s.fldOf (.siuStreamCtl r.1) 5 3) k.stampAge) (2 * k.stampAge) false k.fifoFull) s := by
  simp only [State.sensorPacket, State.phyErrors_of_clean _ hphy hecc, if_neg hkind, hphy, Bool.false_and, Nat.sub_zero, Nat.add_zero]

/-- An Ethernet packet of one stream enters it, stamped before its ingress latency, R168. -/
theorem State.sensorPacket_of_ethernet {k : SensorPacket} {kind : Nat} {emb : Bool} {b : Bytes} (hkind : k.kind = 2)
    (hroute : s.route k = [(n, kind, emb, b)]) :
    s.sensorPacket k =
      (let lat := (s.reg (.tnuMacIgLat k.port)).toNat
       let v := s.modStrm n fun x => { x with ethN := if x.framePkts ≤ x.ethN + 1 then 0 else x.ethN + 1 }
       v.ingress n kind emb b (v.tbAgo 0 k.stampAge - lat) (v.tbAgo (v.fldOf (.siuStreamCtl n) 5 3) k.stampAge - lat)
         (2 * k.stampAge + lat) false k.fifoFull) := by
  have hcsi : (k.phyErr && k.kind == 1) = false := by simp [hkind]
  simp only [State.sensorPacket, State.phyErrors_of_not_csi _ (show k.kind ≠ 1 by omega), hroute, if_pos hkind, hcsi, List.foldl_cons,
    List.foldl_nil]

theorem completes_sensorPacketRx {dt : Nat} {k : SensorPacket} (h : (s.elapse dt).sensorPacket k = t) :
    Completes (.sensorPacketRx dt k) s t.pumpQueues :=
  completes_event (f := fun s => (s.sensorPacket k).pumpQueues) rfl rfl (congrArg State.pumpQueues h)

/-! ENCODER_SAMPLE_TICK and STREAM_SILENT_TIMEOUT, R169, R175 -/

theorem encoderSampleTick_of_stream {port : Nat} (pos : W32) (idx st : BitVec 16) (edge : W32)
    (h : ((s.portStreams 5 port).filter s.strmLive).head? = some n) :
    encoderSampleTick port pos idx st edge s =
      (s.ingress n 3 false (encoderBytes pos idx st edge) s.now (s.tbNow (s.fldOf (.siuStreamCtl n) 5 3)) 0 false false).pumpQueues := by
  rw [encoderSampleTick, h]

theorem streamSilent_of_due (hlive : s.strmLive n = true) (hnew : bit (s.reg (.siuStreamState n)) 6 = false)
    (hdue : (s.strm n).lastStart + 4 * s.strmPeriod n ≤ s.ns) :
    streamSilent n s = (s.modReg (.siuStreamState n) fun v => setBit v 6 true).raise 0x0308 (s.strmPart n) (evData [n]) :=
  if_pos (by simp [hlive, hnew, hdue])

/-! QUEUE_READ and Q_DROP_REST_WRITE, R181 -/

theorem State.strm_congr (h : t.siu = s.siu) (n : Nat) : t.strm n = s.strm n := by
  rw [State.strm, h, State.strm]

theorem State.setStrm_strm_self (n : Nat) (x : Strm) : (s.setStrm n x).strm n = x := sget_sset_self _ _ _ _

@[simp] theorem State.syncQ_out (n : Nat) : (s.syncQ n).out = s.out := rfl
@[simp] theorem State.syncQ_siu (n : Nat) : (s.syncQ n).siu = s.siu := rfl
@[simp] theorem State.syncQ_strm (n m : Nat) : (s.syncQ n).strm m = s.strm m := rfl
@[simp] theorem State.takeHead_out (n : Nat) : (s.takeHead n).out = s.out := rfl
theorem State.takeHead_strm_self (n : Nat) : (s.takeHead n).strm n = { s.strm n with queue := (s.strm n).queue.drop 1, headOff := 0 } := by
  rw [State.takeHead, State.syncQ_strm, State.modStrm_strm_self]

section
variable {p : Pkt} {rest : List Pkt} (hq : (s.strm n).queue = p :: rest)
include hq

/-- The last word of a packet carries the end mark, and the packet is taken. -/
theorem queueRead_of_last (h : p.words ≤ (s.strm n).headOff + 1) :
    queueRead n s = (s.emit (.words (cut p.bytes (32 * (s.strm n).headOff) 32 ++ [1]))).takeHead n := by
  simp [queueRead, hq, h]

theorem queueRead_of_more (h : ¬ p.words ≤ (s.strm n).headOff + 1) :
    queueRead n s = ((s.emit (.words (cut p.bytes (32 * (s.strm n).headOff) 32 ++ [0]))).setStrm n
      { s.strm n with headOff := (s.strm n).headOff + 1 }).syncQ n := by
  simp [queueRead, hq, h]

theorem queueRead_effect :
    (queueRead n s).out = s.out ++ [.words (cut p.bytes (32 * (s.strm n).headOff) 32 ++ [if p.words ≤ (s.strm n).headOff + 1 then 1 else 0])] ∧
      ((queueRead n s).strm n).queue = if p.words ≤ (s.strm n).headOff + 1 then rest else p :: rest := by
  by_cases h : p.words ≤ (s.strm n).headOff + 1
  · rw [queueRead_of_last hq h, State.takeHead_strm_self, if_pos h, if_pos h]
    exact ⟨rfl, congrArg (List.drop 1) hq⟩
  · rw [queueRead_of_more hq h, State.syncQ_strm, State.setStrm_strm_self, if_neg h, if_neg h]
    exact ⟨rfl, hq⟩

theorem qDropRest_of_waiting (hn : n < 64) : qDropRest n s = (s.takeHead n).countSat (.siuQCnt n) 0 16 := by
  rw [qDropRest, if_neg (Nat.not_le.mpr hn), hq]
  rfl
end

theorem qDropRest_of_empty (hn : n < 64) (hq : (s.strm n).queue = []) : qDropRest n s = s.modStrm n fun x => { x with dropNext := true } := by
  rw [qDropRest, if_neg (Nat.not_le.mpr hn), hq]
  rfl

/-! TAP_DELIVERY, R404 to R406 -/

section
variable {k : Nat} {x : Tap} {p : Pkt} {rest : List Pkt} (hx : s.ssi.rfx.taps[k]? = some x) (hq : (s.strm x.stream).tapQ = p :: rest)
include hx hq

theorem tapDelivery_of_oversize (h : x.slotBytes < 32 + p.payload.length) :
    tapDelivery k s = (s.modStrm x.stream fun y => { y with tapQ := rest }).countSat (.ssiTapDrop k) 0 32 := by
  simp only [tapDelivery, hx, hq, if_pos h]

/-- The packet leaves the tap's queue for its slot of the ring. -/
theorem tapDelivery_of_fitting (h : 32 + p.payload.length ≤ x.slotBytes) :
    (tapDelivery k s).siu = (s.modStrm x.stream fun y => { y with tapQ := rest }).siu ∧
      (tapDelivery k s).island = ssetAll 0 s.island (x.base + x.next % x.slots * x.slotBytes) (p.header ++ p.payload) := by
  simp only [tapDelivery, hx, hq, if_neg (Nat.not_lt.mpr h), State.arrive, State.setRfx_siu, State.setRfx_island]
  split <;> simp [State.setTap, State.wrIsl]
end

/-! QUEUE_PTR_MISMATCH, R182, R324, R325, R437 -/

/-- A reset of a queue ends the moves out of it with ST_QUEUE_RESET, R325. -/
def State.failQueueReads (s : State) (n : Nat) : State :=
  s.ccx.cmds.foldl (fun (s : State) c =>
    if c.code = 0x0708 ∧ c.p 0x20 1 = n ∧ c.state = .running ∧ c.verdict = none then s.failCmd c.id 0x52 else s) s

/-- The state after a mismatch of a queue's pointers has reset the queue, its ring and the moves out of it. -/
def State.resetQueue (s : State) (n : Nat) (ptr : QPtr) : State := ((s.ringCut n).queueReset n ptr).failQueueReads n

/-- The resets of a queue in the last 10 s, by which trigger 3 counts, R437. -/
def State.recentResets (s : State) (n : Nat) : List Nat := (s.strm n).resets.filter fun t => decide (s.now < t + 10000000000)

theorem State.resetQueue_sameSafety (s : State) (n : Nat) (ptr : QPtr) : s.SameSafety (s.resetQueue n ptr) :=
  foldl_holds s.SameSafety _ (fun _ _ h => .ite (h.failCmd _ _) h) _ _ ((SameSafety.refl.ringCut n).queueReset n ptr)

@[simp] theorem State.loseFrame_ccx (n : Nat) : (s.loseFrame n).ccx = s.ccx := by
  unfold State.loseFrame
  split
  · rfl
  · dsimp only; split <;> rfl

@[simp] theorem State.emptyQ_ccx (n : Nat) : (s.emptyQ n).ccx = s.ccx := rfl
@[simp] theorem State.setSticky_ccx (n i : Nat) : (s.setSticky n i).ccx = s.ccx := rfl

theorem State.queueReset_ccx (n : Nat) (ptr : QPtr) : (s.queueReset n ptr).ccx = s.ccx := by
  unfold State.queueReset
  dsimp only
  split <;> simp

/-- With no frame ring and no command there is nothing to reset but the queue. -/
theorem State.resetQueue_of_alone (ptr : QPtr) (hring : s.ring? n = none) (hcmds : s.ccx.cmds = []) :
    s.resetQueue n ptr = s.queueReset n ptr := by
  rw [State.resetQueue, State.ringCut, hring, State.failQueueReads, State.queueReset_ccx, hcmds]
  rfl

/-- A mismatch of the tap's pointers leaves the queue as it is. -/
theorem queuePtrMismatch_tap_strm (n : Nat) :
    (queuePtrMismatch n .tap s).strm n = { s.strm n with tapQ := [], tapResets := (s.strm n).tapResets + 1 } :=
  (State.strm_congr (State.raise_siu _ _ _ _) n).trans (State.modStrm_strm_self _ _)

section
variable {ptr : QPtr} (hptr : ptr ≠ .tap)
include hptr

theorem queuePtrMismatch_of_queue :
    queuePtrMismatch n ptr s =
      (let w := s.resetQueue n ptr
       (if w.configured ∧ w.ssi.policy.qResetMax ≠ 0 ∧ w.ssi.policy.qResetMax < (w.recentResets n).length ∧ w.strmPart n ≠ 0 then
          (w.modStrm n fun x => { x with resets := [] }).enterSafe (w.strmPart n) 3 else w).pumpQueues.settle) := by
  simp only [queuePtrMismatch, if_neg hptr]
  rfl

/-- Trigger 3 needs a configured Island, a bound, more resets than that and a partition other than P0. -/
theorem queuePtrMismatch_of_few (h : s.configured = false ∨ s.ssi.policy.qResetMax = 0 ∨
      ((s.resetQueue n ptr).recentResets n).length ≤ s.ssi.policy.qResetMax ∨ (s.resetQueue n ptr).strmPart n = 0) :
    queuePtrMismatch n ptr s = (s.resetQueue n ptr).pumpQueues.settle := by
  have hsame := s.resetQueue_sameSafety n ptr
  rw [queuePtrMismatch_of_queue hptr]
  dsimp only
  rw [hsame.configured, hsame.ssi]
  refine congrArg (fun w : State => w.pumpQueues.settle) (if_neg ?_)
  rintro ⟨hconf, hmax, hmany, hpart⟩
  rcases h with h | h | h | h
  · exact Bool.false_ne_true (h.symm.trans hconf)
  · exact hmax h
  · exact Nat.not_lt.mpr h hmany
  · exact hpart h

theorem queuePtrMismatch_of_many (hconf : s.configured = true) (hmax : s.ssi.policy.qResetMax ≠ 0)
    (hmany : s.ssi.policy.qResetMax < ((s.resetQueue n ptr).recentResets n).length) (hpart : (s.resetQueue n ptr).strmPart n ≠ 0) :
    queuePtrMismatch n ptr s =
      (((s.resetQueue n ptr).modStrm n fun x => { x with resets := [] }).enterSafe ((s.resetQueue n ptr).strmPart n) 3).pumpQueues.settle := by
  have hsame := s.resetQueue_sameSafety n ptr
  rw [queuePtrMismatch_of_queue hptr]
  dsimp only
  rw [hsame.configured, hsame.ssi]
  exact congrArg (fun w : State => w.pumpQueues.settle) (if_pos ⟨hconf, hmax, hmany, hpart⟩)
end

/-- The row takes the number of a stream only. -/
theorem execQueuePtrMismatch_of_stream {dt : Nat} (ptr : QPtr) (h : n < 64) :
    execQueuePtrMismatch dt n ptr s = runEvent dt (queuePtrMismatch n ptr) s := by
  rw [execQueuePtrMismatch]
  simp only [if_pos h]

/-! The obligation -/

/-- Settles O22: what a packet, a sample, a silence, a read, a drop, a delivery to a tap and a pointer mismatch each leave. That a drop at an
empty queue takes the next packet is the model's choice (log entry 42). -/
theorem intakeRowsComplete : Obligations.IntakeRowsComplete := by
  unfold Obligations.IntakeRowsComplete
  intro dt s u
  refine ⟨?clean, ?ethernet, ?encoder, ?silent, ?read, ?drop, ?dropNext, ?tap, ?tapReset, ?resetAlone, ?packet, ?oversize, ?reset⟩
  case clean =>
    intro k hkind hphy hecc
    exact completes_sensorPacketRx (State.sensorPacket_of_clean hkind hphy hecc)
  case ethernet =>
    intro k n b hkind hroute
    exact completes_sensorPacketRx (State.sensorPacket_of_ethernet hkind hroute)
  case encoder => exact fun port pos idx st edge n h => completes_event rfl rfl (encoderSampleTick_of_stream pos idx st edge h)
  case silent => exact fun n hlive hnew hdue => completes_event rfl rfl (streamSilent_of_due hlive hnew hdue)
  case read =>
    intro n p rest hq
    obtain ⟨hout, hqueue⟩ := queueRead_effect (s := u) hq
    refine ⟨_, rfl, ?_, ?_⟩
    · rw [State.close_out]; exact hout
    · rw [State.close_strm]; exact hqueue
  case drop => exact fun n p rest hn hq => completes_event rfl rfl (qDropRest_of_waiting hq hn)
  case dropNext => exact fun n hn hq => completes_event rfl rfl (qDropRest_of_empty hn hq)
  case tap =>
    intro k x p rest hx hq hfits
    obtain ⟨hsiu, hisland⟩ := tapDelivery_of_fitting (s := u) hx hq hfits
    refine ⟨_, rfl, ?_, ?_⟩
    · rw [State.close_strm, State.strm_congr hsiu, State.modStrm_strm_self]
    · rw [State.close_island]; exact hisland
  case tapReset =>
    intro n hn
    refine ⟨_, execQueuePtrMismatch_of_stream .tap hn, ?_⟩
    rw [State.close_strm, queuePtrMismatch_tap_strm]
    exact ⟨rfl, rfl, rfl⟩
  case resetAlone =>
    intro n ptr hn hptr hring hcmds hmax
    refine completes_event (execQueuePtrMismatch_of_stream ptr hn) rfl ((queuePtrMismatch_of_few hptr (.inr (.inl hmax))).trans ?_)
    rw [State.resetQueue_of_alone ptr hring hcmds]
  case packet => exact fun k => completes_sensorPacketRx rfl
  case oversize => exact fun k x p rest hx hq hbig => completes_event rfl rfl (tapDelivery_of_oversize hx hq hbig)
  case reset =>
    intro n ptr hn hptr
    have row := fun {t : State} => completes_event (t := t) (i := .queuePtrMismatch dt n ptr) (execQueuePtrMismatch_of_stream (s := s) ptr hn) rfl
    exact ⟨fun hfew => row (queuePtrMismatch_of_few hptr hfew),
      fun hconf hmax hmany hpart => row (queuePtrMismatch_of_many hptr hconf hmax hmany hpart)⟩

end Sys2Proof.Machine
end

section
/-! The alignment commands of Churn (R190, R191, R195, R196, R199, R206, R216), and their obligation. -/
namespace Sys2Proof.Machine
variable {s : State} {c : Cmd}

/-- Streams of the command's partition and of P0 are not refused (log entry 49). -/
theorem any_foreign_eq_false {l : List Nat} {part : Nat} (h : ∀ n ∈ l, s.foreignStream n part = false ∨ s.strmPart n = 0) :
    (l.any fun n => s.foreignStream n part && s.strmPart n != 0) = false :=
  List.any_eq_false.mpr fun n hn => by
    rcases h n hn with hown | hp0
    · simp [hown]
    · simp [hp0]

/-! CHURN_OPEN_INSTANT, R190, R191 -/

/-- The close limit that the command asks for; 0 asks for four periods. -/
def Cmd.openLimit (c : Cmd) : Nat := if c.p 0x34 4 = 0 then 4 * c.p 0x24 4 else c.p 0x34 4

/-- The streams of the command's mask. -/
def Cmd.openStreams (c : Cmd) : List Nat := bitsOf 64 (c.p 0x38 8)

/-- The fields of CHURN_OPEN_INSTANT are in their ranges, R190. -/
structure Cmd.OpenInRange (c : Cmd) : Prop where
  sched : c.p 0x20 1 ≤ 3
  flags : c.p 0x21 1 ≤ 3
  slots : 4 ≤ c.p 0x22 2 ∧ c.p 0x22 2 ≤ 1024
  period : 5000000 ≤ c.p 0x24 4 ∧ c.p 0x24 4 ≤ 100000000
  first : c.accept + 1000000 ≤ c.p 0x28 8
  limit : 1000000 ≤ c.openLimit ∧ c.openLimit ≤ 1000000000
  horizon : c.p 0x48 4 ≤ 2000000000
  window : 1000000 ≤ c.p 0x4C 4 ∧ c.p 0x4C 4 ≤ 4000000000

/-- The schedule is off, and its ring, its streams and the ego history serve the command, R191. -/
structure State.MayOpen (s : State) (c : Cmd) : Prop where
  off : s.schedOn (c.p 0x20 1) = false
  aligned : c.p 0x40 8 % 0x8000 = 0
  ring : s.writeRange c.part (c.p 0x40 8) (c.p 0x22 2 * 0x8000) = true
  owned : ∀ n ∈ c.openStreams, s.foreignStream n c.part = false ∨ s.strmPart n = 0
  roles : ∀ n ∈ c.openStreams, ∃ r, s.role n = some r ∧ (r.sel = 1 ∨ s.chn.egoCfg.imu ≠ 255 ∨ (c.p 0x21 1).testBit 1 = true)
  span : c.p 0x48 4 + c.openLimit ≤ s.egoSpan

/-- The schedule as the command's fields give it; its voxel configuration stays. -/
def Cmd.openedSched (c : Cmd) (old : Sched) : Sched :=
  { first := c.p 0x28 8, count := c.p 0x30 4, limit := c.openLimit, mask := c.p 0x38 8, ring := c.p 0x40 8, slots := c.p 0x22 2,
    horizon := c.p 0x48 4, tagWin := c.p 0x4C 4, opened := true, vox := old.vox, voxNext := old.voxNext }

theorem Cmd.OpenInRange.noneOut (h : c.OpenInRange) :
    decide (3 < c.p 0x20 1 ∨ 3 < c.p 0x21 1 ∨ c.p 0x22 2 < 4 ∨ 1024 < c.p 0x22 2 ∨ c.p 0x24 4 < 5000000 ∨ 100000000 < c.p 0x24 4 ∨
      c.p 0x28 8 < c.accept + 1000000 ∨ c.openLimit < 1000000 ∨ 1000000000 < c.openLimit ∨ 2000000000 < c.p 0x48 4 ∨ c.p 0x4C 4 < 1000000 ∨
      4000000000 < c.p 0x4C 4) = false := by
  obtain ⟨hsched, hflags, ⟨hslotsLo, hslotsHi⟩, ⟨hperLo, hperHi⟩, hfirst, ⟨hlimLo, hlimHi⟩, hhor, hwinLo, hwinHi⟩ := h
  exact decide_eq_false (by omega)

/-- Every masked stream has a role; where one is placed in space there is an ego source, or the command allows static poses; and the ego
history reaches back far enough. -/
theorem State.MayOpen.streamsServed (h : s.MayOpen c) :
    ((c.openStreams.any fun n => (s.role n).isNone) ||
      ((c.openStreams.any fun n => match s.role n with | some r => r.sel == 0 || r.sel == 2 | none => false) &&
        s.chn.egoCfg.imu == 255 && !((c.p 0x21 1).testBit 1)) || decide (s.egoSpan < c.p 0x48 4 + c.openLimit)) = false := by
  have hroles : (c.openStreams.any fun n => (s.role n).isNone) = false := List.any_eq_false.mpr fun n hn => by
    obtain ⟨r, hr, -⟩ := h.roles n hn
    simp [hr]
  have hspan : decide (s.egoSpan < c.p 0x48 4 + c.openLimit) = false := decide_eq_false (Nat.not_lt.mpr h.span)
  rw [hroles, hspan, Bool.false_or, Bool.or_false]
  by_cases hego : s.chn.egoCfg.imu ≠ 255 ∨ (c.p 0x21 1).testBit 1 = true
  · rcases hego with himu | hstatic
    · simp [himu]
    · simp [hstatic]
  · rw [List.any_eq_false.mpr fun n hn => ?_, Bool.false_and, Bool.false_and]
    obtain ⟨r, hr, hsel | hcase⟩ := h.roles n hn
    · simp [hr, hsel]
    · exact absurd hcase hego

theorem churnOpenInstant_of_mayOpen (hf : c.OpenInRange) (h : s.MayOpen c) :
    churnOpenInstant c s =
      (let j := c.p 0x20 1
       let fl := c.p 0x21 1
       let v := s.setSched j (c.openedSched (s.sched j))
       let w := (v.setReg (.chnSchedCtl j) (BitVec.ofNat 64 (2 ^ 31 + fl % 2 * 2 ^ 30 + fl / 2 % 2 * 2 ^ 29 + c.part * 2 ^ 26))).setReg
         (.chnSchedPeriod j) (BitVec.ofNat 64 (c.p 0x24 4))
       ((((w.setReg (.chnSchedSeq j) 0).setReg (.chnSchedStat j) 0).setReg (.chnSchedLast j) 0).syncSched j).doneWith c
         (leBytes 8 (c.p 0x28 8))) := by
  rw [churnOpenInstant, s.firstFail_of_all_false c]
  · rfl
  · simp only [List.forall_mem_cons]
    exact ⟨hf.noneOut, by simp [h.off], h.off, by simp [h.aligned], by simp [h.ring], any_foreign_eq_false h.owned, h.streamsServed, by simp⟩

/-! CHURN_CLOSE_SCHEDULE, R216 -/

/-- A close drops what is pending; one of mode 1 drops and silences what is open or under way, too. -/
theorem churnCloseSchedule_of_on (hj : c.p 0x20 1 ≤ 3) (hmode : c.p 0x21 1 ≤ 1) (hon : s.schedOn (c.p 0x20 1) = true)
    (hown : s.ownsSched (c.p 0x20 1) c.part = true) (hopen : (s.sched (c.p 0x20 1)).closing = none) :
    churnCloseSchedule c s =
      (let j := c.p 0x20 1
       let d := s.dropPendingInsts j 4 (c.p 0x21 1 == 1)
       ((if c.p 0x21 1 = 1 then d.2.silenceInsts j else d.2).modSched j fun x => { x with closing := some (CloseRec.mk c.id d.1) }).settleSched
         j) := by
  rw [churnCloseSchedule, s.firstFail_of_all_false c _ (by simp [hj, hmode, hon, hown, hopen])]

/-! CHURN_STREAM_ROLE, R195, R196 -/

theorem churnStreamRole_of_unmasked (hn : c.p 0x20 1 ≤ 63) (hsel : c.p 0x21 1 ≤ 2)
    (hx : c.p 0x22 1 ≤ 127 ∨ (c.p 0x22 1 = 0xFF ∧ c.p 0x21 1 = 1))
    (hw : c.p 0x21 1 = 2 → c.p 0x24 4 = 0 ∨ (1000000 ≤ c.p 0x24 4 ∧ c.p 0x24 4 ≤ 1000000000))
    (hq : s.mmvQueue (c.p 0x20 1) = (c.p 0x21 1 == 0))
    (hown : s.foreignStream (c.p 0x20 1) c.part = false ∨ s.strmPart (c.p 0x20 1) = 0) (hfree : s.masking (c.p 0x20 1) = []) :
    churnStreamRole c s =
      (let n := c.p 0x20 1
       let r := Role.mk (c.p 0x21 1) (c.p 0x22 1) (if c.p 0x21 1 = 2 then c.p 0x24 4 else 0)
       ({ s with chn := { s.chn with roles := (s.chn.roles.filter fun (e : Nat × Role) => e.1 != n) ++ [(n, r)] } }).done c) := by
  have hrange : decide (63 < c.p 0x20 1 ∨ 2 < c.p 0x21 1 ∨ (127 < c.p 0x22 1 ∧ c.p 0x22 1 ≠ 0xFF) ∨ (c.p 0x22 1 = 0xFF ∧ c.p 0x21 1 ≠ 1)) =
      false := decide_eq_false (by omega)
  have hwindow : (c.p 0x21 1 == 2 && c.p 0x24 4 != 0 && decide (c.p 0x24 4 < 1000000 ∨ 1000000000 < c.p 0x24 4)) = false := by
    simp only [Bool.and_eq_false_iff, beq_eq_false_iff_ne, bne_eq_false_iff_eq, decide_eq_false_iff_not]
    omega
  have hforeign : (s.foreignStream (c.p 0x20 1) c.part && s.strmPart (c.p 0x20 1) != 0) = false := by rcases hown with h | h <;> simp [h]
  rw [churnStreamRole, s.firstFail_of_all_false c _ (by simp only [List.forall_mem_cons, hrange, hwindow, hforeign, hq, hfree]; simp)]

/-! CHURN_SET_EGO, R199 -/

theorem churnSetEgo_of_all_off (hok : egoFieldsOk c = true)
    (hown : ∀ n ∈ (if (egoParse c).imu = 255 then [] else [(egoParse c).imu]) ++
        (if (egoParse c).src = 0 then [(egoParse c).wheelL, (egoParse c).wheelR] else []),
      s.foreignStream n c.part = false ∨ s.strmPart n = 0)
    (hoff : ∀ i < 4, s.schedOn i = false) :
    churnSetEgo c s = (({ s with chn := { s.chn with
      egoCfg := egoParse c, ego := {}, egoIns := [], extAt := none, egoSet := true, imuAt := none } } : State).syncEgo.egoCheck).done c := by
  have hforeign := any_foreign_eq_false hown
  have hon : (List.range 4).any s.schedOn = false := List.any_eq_false.mpr fun i hi => by simp [hoff i (List.mem_range.mp hi)]
  rw [churnSetEgo, s.firstFail_of_all_false c _ (by simp only [List.forall_mem_cons, hok, hforeign, hon]; simp)]

/-! CHURN_SET_TRANSFORM, R206 -/

/-- The transform as the command's parameters hold it. -/
def Cmd.xformBytes (c : Cmd) : Bytes := cut c.params 8 60

/-- The rotation that they hold. -/
def Cmd.xformRot (c : Cmd) : M3 := ⟨V3.at c.xformBytes 0, V3.at c.xformBytes 12, V3.at c.xformBytes 24⟩

theorem churnSetTransform_of_newer (hi : c.p 0x20 1 ≤ 127) (hpar : numAt c.xformBytes 0x3A 1 ≤ 127 ∨ numAt c.xformBytes 0x3A 1 = 0xFF)
    (hown : (sget {} s.chn.xforms (c.p 0x20 1)).owner = none ∨ (sget {} s.chn.xforms (c.p 0x20 1)).owner = some c.part)
    (hfin : finiteAt c.xformBytes 0 12 = true) (hrot : c.xformRot.orthonormal = true)
    (hclosed : s.afterClosed (numAt c.xformBytes 0x30 8) = true)
    (hnew : ∀ w, (sget {} s.chn.xforms (c.p 0x20 1)).vers.head? = some w → w.effective < numAt c.xformBytes 0x30 8) :
    churnSetTransform c s =
      (let b := c.xformBytes
       let e := sget {} s.chn.xforms (c.p 0x20 1)
       let v : XVer := { rot := c.xformRot, trans := V3.at b 0x24, effective := numAt b 0x30 8, version := e.next % 65536,
                         parent := numAt b 0x3A 1, valid := (numAt b 0x3B 1).testBit 0 }
       let f : XEntry := { owner := some (e.owner.getD c.part), vers := (v :: e.vers).take 8, next := e.next + 1 }
       ({ s with chn := { s.chn with xforms := sset {} s.chn.xforms (c.p 0x20 1) f } }).doneWith c (leBytes 2 v.version)) := by
  have hrange : (decide (127 < c.p 0x20 1) || (decide (127 < numAt c.xformBytes 0x3A 1) && numAt c.xformBytes 0x3A 1 != 0xFF)) = false := by
    simp only [Bool.or_eq_false_iff, Bool.and_eq_false_iff, decide_eq_false_iff_not, bne_eq_false_iff_eq]
    omega
  have hforeign : (match (sget {} s.chn.xforms (c.p 0x20 1)).owner with | some p => p != c.part | none => false) = false := by
    rcases hown with h | h <;> simp [h]
  have hstale : (match (sget {} s.chn.xforms (c.p 0x20 1)).vers.head? with
      | some v => decide (numAt c.xformBytes 0x30 8 ≤ v.effective) | none => false) = false := by
    split
    · exact decide_eq_false (Nat.not_le.mpr (hnew _ ‹_›))
    · rfl
  have hbad : (!(finiteAt c.xformBytes 0 12) || !c.xformRot.orthonormal || !(s.afterClosed (numAt c.xformBytes 0x30 8)) ||
      (match (sget {} s.chn.xforms (c.p 0x20 1)).vers.head? with
        | some v => decide (numAt c.xformBytes 0x30 8 ≤ v.effective) | none => false)) = false := by
    rw [hfin, hrot, hclosed, hstale]; rfl
  rw [churnSetTransform, s.firstFail_of_all_false c]
  · rfl
  · exact List.forall_mem_cons.mpr ⟨hrange, List.forall_mem_cons.mpr ⟨hforeign, List.forall_mem_singleton.mpr hbad⟩⟩

/-! CHURN_INSTANT_STATUS, R216 -/

theorem churnInstantStatus_of_owned (hj : c.p 0x20 1 ≤ 3) (hown : s.ownsSched (c.p 0x20 1) c.part = true) :
    churnInstantStatus c s =
      (let j := c.p 0x20 1
       let r4 := fun (r : Reg) => leBytes 4 (s.reg r).toNat
       let r8 := fun (r : Reg) => leBytes 8 (s.reg r).toNat
       s.doneWith c (r4 (.chnSchedCtl j) ++ r4 (.chnSchedStat j) ++ r8 (.chnSchedNext j) ++ r8 (.chnSchedLast j) ++ r8 (.chnSchedSeq j) ++
         r4 (.chnSchedPub j) ++ r4 (.chnSchedDrop j) ++ r4 (.chnSchedLate j) ++ r4 (.chnSchedRev j) ++ r4 (.chnSchedPeriod j))) := by
  rw [churnInstantStatus, s.firstFail_of_all_false c _ (by simp [hj, hown])]

/-- Settles O23: a command whose parameters and schedule pass the checks of its row is not refused, and then does its work. That streams of P0
serve every partition (log entry 49) and that a schedule which nobody has opened belongs to anyone (log entry 50) are the model's choices. -/
theorem alignmentCommandsComplete : Obligations.AlignmentCommandsComplete := by
  unfold Obligations.AlignmentCommandsComplete
  intro dt id s c
  refine ⟨?openInstant, ?close, ?closeAtOnce, ?role, ?ego, ?transform, ?status⟩
  case openInstant =>
    exact fun hr hj hfl hslotsLo hslotsHi hperLo hperHi hfirst hlimLo hlimHi hhor hwinLo hwinHi hoff hring hrange hown hroles hspan =>
      completes_cmd rfl rfl hr (churnOpenInstant_of_mayOpen
        ⟨hj, hfl, ⟨hslotsLo, hslotsHi⟩, ⟨hperLo, hperHi⟩, hfirst, ⟨hlimLo, hlimHi⟩, hhor, hwinLo, hwinHi⟩
        ⟨hoff, hring, hrange, hown, hroles, hspan⟩)
  case close =>
    refine fun hr hj hmode hon hown hopen => completes_cmd rfl rfl hr ((churnCloseSchedule_of_on hj (by omega) hon hown hopen).trans ?_)
    rw [hmode]; rfl
  case closeAtOnce =>
    refine fun hr hj hmode hon hown hopen => completes_cmd rfl rfl hr ((churnCloseSchedule_of_on hj (by omega) hon hown hopen).trans ?_)
    rw [hmode]; rfl
  case role =>
    exact fun hr hn hsel hx hw hq hown hfree => completes_cmd rfl rfl hr (churnStreamRole_of_unmasked hn hsel hx hw hq hown hfree)
  case ego => exact fun hr hok hown hoff => completes_cmd rfl rfl hr (churnSetEgo_of_all_off hok hown hoff)
  case transform =>
    exact fun hr hi hpar hown hfin hrot hclosed hnew =>
      completes_cmd rfl rfl hr (churnSetTransform_of_newer hi hpar hown hfin hrot hclosed hnew)
  case status => exact fun hr hj hown => completes_cmd rfl rfl hr (churnInstantStatus_of_owned hj hown)

end Sys2Proof.Machine
end

section
/-! What a write to a field of a register leaves in the register's other bits (R9). -/
namespace Sys2Proof.Machine
variable {w : Nat} (v : BitVec w)

theorem testBit_fld (lo len i : Nat) : (fld v lo len).testBit i = (decide (i < len) && bit v (lo + i)) := by
  rw [fld, Nat.testBit_mod_two_pow, Nat.testBit_shiftRight, bit, BitVec.getLsbD]

theorem bit_setFld {lo len x i : Nat} (hi : i < w) :
    bit (setFld v lo len x) i = if lo ≤ i ∧ i < lo + len then x.testBit (i - lo) else bit v i := by
  simp only [bit, setFld, BitVec.getLsbD_or, BitVec.getLsbD_and, BitVec.getLsbD_not, BitVec.getLsbD_ofNat, Nat.testBit_shiftLeft,
    Nat.testBit_two_pow_sub_one, Nat.testBit_mod_two_pow, hi, decide_true, Bool.true_and]
  by_cases hlo : lo ≤ i
  · by_cases hhi : i < lo + len
    · have hin : i - lo < len := by omega
      simp [hlo, hhi, hin]
    · have hout : ¬ i - lo < len := by omega
      simp [hlo, hhi, hout]
  · simp [hlo]

theorem bit_setFld_of_outside {lo len x i : Nat} (hi : i < w) (h : i < lo ∨ lo + len ≤ i) : bit (setFld v lo len x) i = bit v i := by
  rw [bit_setFld v hi, if_neg (by omega)]

theorem bit_setBit_self (b : Bool) {i : Nat} (hi : i < w) : bit (setBit v i b) i = b := by
  rw [setBit, bit_setFld v hi, if_pos (by omega)]
  cases b <;> simp

theorem bit_setBit_ne (b : Bool) {i k : Nat} (hi : i < w) (h : i ≠ k) : bit (setBit v k b) i = bit v i :=
  bit_setFld_of_outside v hi (by omega)

theorem fld_setFld_self {lo len x : Nat} (h : lo + len ≤ w) : fld (setFld v lo len x) lo len = x % 2 ^ len := by
  apply Nat.eq_of_testBit_eq
  intro i
  rw [testBit_fld, Nat.testBit_mod_two_pow]
  by_cases hi : i < len
  · rw [bit_setFld v (by omega), if_pos (by omega), Nat.add_sub_cancel_left]
  · simp [hi]

theorem fld_setFld_of_below {lo len x lo' len' : Nat} (hw : lo + len ≤ w) (h : lo + len ≤ lo') : fld (setFld v lo' len' x) lo len = fld v lo len := by
  apply Nat.eq_of_testBit_eq
  intro i
  rw [testBit_fld, testBit_fld]
  by_cases hi : i < len
  · rw [bit_setFld_of_outside v (by omega) (by omega)]
  · simp [hi]

theorem fld_incSat_self {lo len k : Nat} (h : lo + len ≤ w) : fld (incSat v lo len k) lo len = Nat.min (fld v lo len + k) (2 ^ len - 1) := by
  have hpos : 0 < 2 ^ len := Nat.two_pow_pos len
  rw [incSat, fld_setFld_self v h, Nat.mod_eq_of_lt (Nat.lt_of_le_of_lt (Nat.min_le_right _ _) (by omega))]

theorem fld_incSat_of_below {lo len lo' len' k : Nat} (hw : lo + len ≤ w) (h : lo + len ≤ lo') :
    fld (incSat v lo' len' k) lo len = fld v lo len := fld_setFld_of_below v hw h

end Sys2Proof.Machine
end

section
/-! What the record of an instant leaves of its schedule's control (R209, R214, R264). -/
namespace Sys2Proof.Machine
variable (s : State)

/-- A store counts at most the memory's partial writes, R379. -/
theorem State.store_reg_ne (a : Nat) (b : Bytes) {r : Reg} (h : ∀ k, r ≠ .mmvMcRmw k) : (s.store a b).reg r = s.reg r := by
  have hcount : ∀ (t : State) (p : Prop) [Decidable p] (k : Nat),
      (if p then t.countWrap (.mmvMcRmw k) 0 32 1 else t).reg r = t.reg r := fun t p _ k => by
    split
    · exact t.countWrap_reg_ne _ _ _ (h k)
    · rfl
  unfold State.store
  dsimp only
  split
  · exact (hcount _ _ _).trans (hcount _ _ _)
  · rfl

theorem State.writeRecord_reg_ne (j : Nat) (i : Inst) (rev seq magic : Nat) {r : Reg} (h : ∀ k, r ≠ .mmvMcRmw k) :
    (s.writeRecord j i rev seq magic).reg r = s.reg r := by
  unfold State.writeRecord
  dsimp only
  refine (State.store_reg_ne _ _ _ h).trans (foldl_keeps (·.reg r) _ (fun t e => ?_) _ s)
  split <;> split <;> simp only [State.store_reg_ne _ _ _ h]

theorem State.tellDegraded_reg_ne (j : Nat) (i : Inst) {r : Reg} (h : r ≠ .ccxHpMboxErr) : (s.tellDegraded j i).reg r = s.reg r := by
  unfold State.tellDegraded
  dsimp only
  split
  · rfl
  · exact s.raiseLim_reg_ne _ _ _ _ h

theorem State.published_schedCtl (j l : Nat) (i : Inst) : (s.published j i).reg (.chnSchedCtl l) = s.reg (.chnSchedCtl l) := by
  rw [State.published, State.tellDegraded_reg_ne _ _ _ (by simp), State.setReg_reg_ne _ _ (by simp), State.countWrap_reg_ne _ _ _ _ (by simp),
    State.setReg_reg_ne _ _ (by simp)]

theorem State.queueFill_reg (j : Nat) (i : Inst) (r : Reg) : (s.queueFill j i).reg r = s.reg r := by
  unfold State.queueFill
  dsimp only
  split
  · split <;> rfl
  · rfl

end Sys2Proof.Machine
end

section
/-! Ego's condition, and the rows of instants (R192 to R194, R200, R201, R208 to R213), and their obligation. -/
namespace Sys2Proof.Machine
variable {s : State} {j k : Nat} {i : Inst}

/-! EGO_EXT_T_WRITE and EGO_INVALID_TIMEOUT, R200, R201 -/

theorem egoExtT_of_writer {who : Writer} (v : W64) (h : extWriter who = true) :
    egoExtT who v s =
      (let a := s.setReg .chnEgoExtT v
       let w : V3 := ⟨f32Rat ((a.reg .chnEgoExtVx).setWidth 32), f32Rat ((a.reg .chnEgoExtVy).setWidth 32), f32Rat ((a.reg .chnEgoExtVz).setWidth 32)⟩
       let b : State := { a with chn := { s.chn with extAt := some s.ns } }
       (if s.chn.egoCfg.src = 1 then b.egoInput ⟨v.toNat, .ext w⟩ false else b).egoCheck) := by
  rw [egoExtT, h]
  rfl

/-- CHN_EGO_STAT and the count of gaps as ego's condition is now, R215: what every evaluation writes before it tells of a transition. -/
def State.showEgo (s : State) : State :=
  let cfg := s.chn.egoCfg
  let t := s.modReg .chnEgoStat fun v =>
    setBit (setBit (setBit (setBit v 0 s.egoGood) 1 s.egoGap) 2 s.extStale) 3 (cfg.src == 2 || (cfg.src == 1 && s.chn.extAt.isNone))
  if s.egoGap && !(bit (s.reg .chnEgoStat) 1) then t.countSat .chnEgoCnt 16 16 else t

theorem State.showEgo_valid (s : State) : bit (s.showEgo.reg .chnEgoStat) 0 = s.egoGood := by
  have hstat : ∀ b v x y z, bit (setBit (setBit (setBit (setBit (v : W64) 0 b) 1 x) 2 y) 3 z) 0 = b := fun b v x y z => by
    rw [bit_setBit_ne _ _ (by omega) (by omega), bit_setBit_ne _ _ (by omega) (by omega), bit_setBit_ne _ _ (by omega) (by omega),
      bit_setBit_self _ _ (by omega)]
  unfold State.showEgo
  dsimp only
  split
  · rw [State.countSat_reg_ne _ _ _ (by simp), State.modReg_reg_self, hstat]
  · rw [State.modReg_reg_self, hstat]

/-- The count of invalid transitions stands below the count of gaps. -/
theorem State.showEgo_invalidCount (s : State) : s.showEgo.fldOf .chnEgoCnt 0 16 = s.fldOf .chnEgoCnt 0 16 := by
  unfold State.showEgo State.fldOf
  dsimp only
  split
  · rw [State.countSat, State.modReg_reg_self, fld_incSat_of_below _ (by omega) (by omega), State.modReg_reg_ne _ _ (by simp)]
  · rw [State.modReg_reg_ne _ _ (by simp)]

/-- Ego that was valid and no longer is: the transition is counted and EV_EGO_INVALID told. -/
theorem State.egoCheck_of_lost (hset : s.chn.egoSet = true) (hwas : s.egoValid = true) (hbad : s.egoGood = false) :
    s.egoCheck = (s.showEgo.countSat .chnEgoCnt 0 16).raise 0x0405 0 := by
  simp [State.egoCheck, State.showEgo, hset, hwas, hbad]

/-! INSTANT_OPEN, R192, R194, R507 -/

/-- The next instant of the schedule is due: the schedule goes on and its owner runs. -/
structure State.OpensNext (s : State) (j : Nat) : Prop where
  sched : j < 4
  on : s.schedOn j = true
  runs : s.schedRuns j = true
  closing : (s.sched j).closing = none
  halted : (s.sched j).halted = false
  has : (s.sched j).has (s.sched j).kNext = true
  due : s.instantAt j (s.sched j).kNext ≤ s.now

/-- The schedule has gone on to the instant after the next. -/
def State.passNext (s : State) (j : Nat) : State := s.modSched j fun x => { x with kNext := (s.sched j).kNext + 1 }

/-- How many instants of all schedules are in flight. -/
def State.inFlightAll (s : State) : Nat := (List.range 4).foldl (fun n i => n + ((s.sched i).insts.filter Inst.inFlight).length) 0

theorem instantOpen_of_due (h : s.OpensNext j) :
    instantOpen j s =
      (let c := s.sched j
       let t := s.instantAt j c.kNext
       let v := s.passNext j
       (if s.funcOff 2 0 then v.dropInst j t 2
        else if 8 ≤ (c.insts.filter Inst.inFlight).length ∨ 32 ≤ v.inFlightAll then v.dropInst j t 0
        else (v.modSched j fun x => { x with insts := x.insts ++ [{ k := c.kNext, t := t }] }).setFldOf (.chnSchedStat j) 0 16
          c.kNext).settleSched j) := by
  obtain ⟨hsched, hon, hruns, hclosing, hhalted, hhas, hdue⟩ := h
  exact if_pos ⟨hsched, hon, hruns, by simp [hclosing], by simp [hhalted], hhas, hdue⟩

/-! INSTANT_CLOSE_WATERMARK and INSTANT_CLOSE_LIMIT, R193, R114 -/

theorem instantCloseWatermark_of_passed (hi : (s.sched j).firstOpen = some i) (hpassed : s.undecided j i.t = [])
    (hearly : s.now < i.t + (s.sched j).limit) :
    instantCloseWatermark j s = if s.schedRuns j then s.closeInst j i 0 [] else s.dropOpen j i 3 := by
  unfold instantCloseWatermark
  rw [hi]
  exact if_pos ⟨by simp [hpassed], hearly⟩

theorem instantCloseLimit_of_reached (hi : (s.sched j).firstOpen = some i) (hlate : i.t + (s.sched j).limit ≤ s.now) :
    instantCloseLimit j s =
      if s.schedRuns j = false then s.dropOpen j i 3
      else ((s.closeInst j i 1 (s.undecided j i.t)).countSat (.chnSchedDrop j) 0 16).raiseLim 0x0402 j (s.schedOwner j)
        (evData [j, i.t, maskOf (s.undecided j i.t)]) := by
  unfold instantCloseLimit
  rw [hi]
  exact if_pos hlate

/-! INSTANT_RECORD_COMMIT, R208, R209, R243 -/

/-- The instant as its record shows it: without points where the pipeline has built no frame of a voxelised schedule. -/
def State.recordInst (s : State) (j : Nat) (i : Inst) : Inst := if s.voxelised j = true ∧ i.built.isNone = true then i.noPoints else i

/-- The instant has left the order of frames. -/
def State.leaveOrder (s : State) (j k : Nat) : State := { s with chn := { s.chn with order := s.chn.order.filter (· != (j, k)) } }

/-- The record is published with the schedule's next sequence number. -/
def State.publishRecord (s : State) (j k : Nat) (x : Inst) : State :=
  (((s.leaveOrder j k).writeRecord j x 0 (s.reg (.chnSchedSeq j)).toNat recMagic).published j x).queueFill j x

/-- Publishing leaves what says whether records of the schedule are revised. -/
theorem State.publishRecord_schedCtl (j k l : Nat) (x : Inst) : (s.publishRecord j k x).reg (.chnSchedCtl l) = s.reg (.chnSchedCtl l) := by
  rw [State.publishRecord, State.queueFill_reg, State.published_schedCtl, State.writeRecord_reg_ne _ _ _ _ _ _ (by simp)]
  rfl

section
variable (hi : s.inst? j k = some i) (hbuilding : i.state = .building) (hready : s.waitsPoints j i = false)
include hi hbuilding hready

theorem instantRecordCommit_of_ready :
    instantRecordCommit j k s =
      (let x := s.recordInst j i
       let seq := (s.reg (.chnSchedSeq j)).toNat
       if x.noMagic || !(s.schedRuns j) then
         (((s.leaveOrder j k).writeRecord j x 0 seq 0).updInst j k fun _ => { x with state := .sealed }).settleSched j
       else
         let w := s.publishRecord j k x
         let st := if bit (w.reg (.chnSchedCtl j)) 30 then InstState.published else .sealed
         (w.updInst j k fun y =>
           { x with state := if w.funcOff 2 0 then .sealed else st, seq := seq, late := y.late, revAfter := y.revAfter }).settleSched j) := by
  unfold instantRecordCommit
  rw [hi]
  exact if_neg (by simp [hbuilding, hready])

/-- Under DISCARD, or where the owner runs nothing, magic is not written. -/
theorem instantRecordCommit_of_silent (h : (s.recordInst j i).noMagic = true ∨ s.schedRuns j = false) :
    instantRecordCommit j k s =
      (((s.leaveOrder j k).writeRecord j (s.recordInst j i) 0 (s.reg (.chnSchedSeq j)).toNat 0).updInst j k fun _ =>
        { s.recordInst j i with state := .sealed }).settleSched j := by
  rw [instantRecordCommit_of_ready hi hbuilding hready]
  exact if_pos (by simpa using h)

theorem instantRecordCommit_of_published (hmagic : (s.recordInst j i).noMagic = false) (hruns : s.schedRuns j = true) :
    instantRecordCommit j k s =
      (let x := s.recordInst j i
       let w := s.publishRecord j k x
       let st := if bit (w.reg (.chnSchedCtl j)) 30 = true ∧ w.funcOff 2 0 = false then InstState.published else .sealed
       (w.updInst j k fun y =>
         { x with state := st, seq := (s.reg (.chnSchedSeq j)).toNat, late := y.late, revAfter := y.revAfter }).settleSched j) := by
  rw [instantRecordCommit_of_ready hi hbuilding hready]
  refine (if_neg (by simp [hmagic, hruns])).trans ?_
  dsimp only
  congr 2
  funext y
  congr 1
  cases (s.publishRecord j k (s.recordInst j i)).funcOff 2 0 <;> simp
end

/-! INSTANT_SEAL, R192 -/

theorem instantSeal_of_due (hi : s.inst? j k = some i) (hstate : i.state = .published) (hdue : i.t + (s.sched j).horizon ≤ s.now) :
    instantSeal j k s = (s.updInst j k fun i => { i with state := .sealed, late := false, revAfter := none }).settleSched j := by
  unfold instantSeal
  rw [hi]
  exact if_pos ⟨hstate, hdue⟩

/-! REVISION_RECORD_COMMIT, R212, R231, R243 -/

/-- Instant k, published, has a revision due after instant m, whose record is past. -/
structure State.Revises (s : State) (j k : Nat) (i : Inst) : Prop where
  inst : s.inst? j k = some i
  published : i.state = .published
  after : ∃ m, i.revAfter = some m ∧ ∀ x, s.inst? j m = some x → x.state ≠ .building ∧ x.state ≠ .opened
  runs : s.schedRuns j = true

/-- The revision that the row writes: its instant, and the state with its run built. -/
def State.revised (s : State) (j : Nat) (i : Inst) (y : InstSel) : Inst × State :=
  let r := s.buildRevision j i y
  ({ r.1 with rev := i.rev + 1, seq := i.seq, late := false, revAfter := none, revSel := none, state := .published }, r.2)

theorem revisionRecordCommit_of_revises (h : s.Revises j k i) :
    revisionRecordCommit j k s =
      if i.rev = 3 then s.skipRevision j i
      else match i.revSel with
        | none => s.skipRevision j i
        | some y =>
          if s.runWaits j then s
          else
            let x := (s.revised j i y).1
            let t := (s.revised j i y).2
            let w := (t.writeRecord j x (i.rev + 1) (t.reg (.chnSchedSeq j)).toNat recMagic).published j x
            ((w.countSat (.chnSchedRev j) 0 16).updInst j k fun _ => x).settleSched j := by
  obtain ⟨hi, hstate, ⟨m, hm, hpast⟩, hruns⟩ := h
  have hfree : (match s.inst? j m with | some x => x.state == .building || x.state == .opened | none => false) = false := by
    split
    · rename_i x hx
      obtain ⟨hb, ho⟩ := hpast x hx
      simp [hb, ho]
    · rfl
  unfold revisionRecordCommit
  rw [hi]
  dsimp only
  rw [hm]
  refine if_neg ?_
  rintro (hother | hwaits | hstopped)
  · exact hother hstate
  · exact Bool.false_ne_true (hfree.symm.trans hwaits)
  · simp [hruns] at hstopped

/-- Three revisions are the most, and none is made from transforms that are gone. -/
theorem revisionRecordCommit_of_impossible (h : s.Revises j k i) (hno : i.rev = 3 ∨ i.revSel = none) :
    revisionRecordCommit j k s = s.skipRevision j i := by
  rw [revisionRecordCommit_of_revises h]
  rcases hno with hrev | hsel
  · exact if_pos hrev
  · rw [hsel]; exact ite_self _

theorem revisionRecordCommit_of_selected {y : InstSel} (h : s.Revises j k i) (hrev : i.rev ≠ 3) (hsel : i.revSel = some y)
    (hfree : s.runWaits j = false) :
    revisionRecordCommit j k s =
      (let x := (s.revised j i y).1
       let t := (s.revised j i y).2
       let w := (t.writeRecord j x (i.rev + 1) (t.reg (.chnSchedSeq j)).toNat recMagic).published j x
       ((w.countSat (.chnSchedRev j) 0 16).updInst j k fun _ => x).settleSched j) := by
  rw [revisionRecordCommit_of_revises h, if_neg hrev, hsel]
  exact if_neg (by simp [hfree])

/-! The obligation -/

/-- Settles O24: what the row of each event leaves. That an instant is dropped with reason 3 where its owner runs nothing (log entry 88), and that
ego without an inertial sample is invalid (log entry 89), are the model's choices. -/
theorem instantRowsComplete : Obligations.InstantRowsComplete := by
  unfold Obligations.InstantRowsComplete
  intro dt j s u c
  refine ⟨?ext, ?invalid, ?opens, ?watermark, ?limit, ?commit, ?sealed, ?thirdRevision, ?revision, ?extWriter, ?ownerStopped, ?record⟩
  case ext =>
    intro v hsrc
    exact completes_event rfl rfl ((egoExtT_of_writer v rfl).trans (congrArg State.egoCheck (if_neg hsrc)))
  case invalid =>
    intro hset hwas hbad
    refine ⟨_, rfl, ?_, ?_⟩
    · rw [State.close_reg, State.egoCheck_of_lost hset hwas hbad, State.raise_reg_ne _ _ _ _ (by simp), State.countSat_reg_ne _ _ _ (by simp),
        State.showEgo_valid, hbad]
    · rw [State.fldOf, State.close_reg, State.egoCheck_of_lost hset hwas hbad, State.raise_reg_ne _ _ _ _ (by simp), State.countSat,
        State.modReg_reg_self, fld_incSat_self _ (by omega)]
      exact (Nat.min_comm _ _).trans (congrArg (fun n => Nat.min 65535 (n + 1)) (State.showEgo_invalidCount u))
  case opens =>
    intro hj hon hruns hclosing hhalted hhas hdue v all
    have row := fun {t : State} => completes_event (t := t) (s := s) (i := .instantOpen dt j) (f := instantOpen j) rfl rfl
    have hopen := instantOpen_of_due ⟨hj, hon, hruns, hclosing, hhalted, hhas, hdue⟩
    refine ⟨fun henabled hfew hroom => ?_, fun henabled hfull => ?_, fun hoff => ?_⟩
    · refine row (hopen.trans (congrArg (State.settleSched · j) ?_))
      exact (if_neg (by simpa using henabled)).trans (if_neg (not_or.mpr ⟨Nat.not_le.mpr hfew, Nat.not_le.mpr hroom⟩))
    · exact row (hopen.trans (congrArg (State.settleSched · j) ((if_neg (by simpa using henabled)).trans (if_pos hfull))))
    · exact row (hopen.trans (congrArg (State.settleSched · j) (if_pos hoff)))
  case watermark =>
    exact fun i hruns hi hpassed hearly =>
      completes_event rfl rfl ((instantCloseWatermark_of_passed hi hpassed hearly).trans (if_pos hruns))
  case limit =>
    exact fun i hruns hi hlate => completes_event rfl rfl ((instantCloseLimit_of_reached hi hlate).trans (if_neg (by simp [hruns])))
  case commit =>
    intro i k hi hbuilding hflat hmagic hruns hunrevised
    have hrecord : u.recordInst j i = i := if_neg (by simp [hflat])
    have hready : u.waitsPoints j i = false := by rw [State.waitsPoints, hflat, Bool.false_and]
    refine completes_event rfl rfl ((instantRecordCommit_of_published hi hbuilding hready (by rw [hrecord]; exact hmagic) hruns).trans ?_)
    dsimp only
    rw [hrecord, State.publishRecord_schedCtl, if_neg (by simp [hunrevised])]
    rfl
  case sealed => exact fun i k hi hstate hdue => completes_event rfl rfl (instantSeal_of_due hi hstate hdue)
  case thirdRevision =>
    intro i k m hi hstate hm hgone hruns hrev
    have hdue : u.Revises j k i := ⟨hi, hstate, ⟨m, hm, fun x hx => by simp [hgone] at hx⟩, hruns⟩
    exact completes_event rfl rfl (revisionRecordCommit_of_impossible hdue (.inl hrev))
  case revision =>
    intro i k m hi hstate hm hpast hruns
    have hdue : u.Revises j k i := ⟨hi, hstate, ⟨m, hm, hpast⟩, hruns⟩
    exact ⟨fun hno => completes_event rfl rfl (revisionRecordCommit_of_impossible hdue hno),
      fun y hrev hsel hfree => completes_event rfl rfl (revisionRecordCommit_of_selected hdue hrev hsel hfree)⟩
  case extWriter => exact fun who v h => completes_event rfl rfl (egoExtT_of_writer v h)
  case ownerStopped =>
    exact fun i hstopped hi => ⟨fun hpassed hearly =>
        completes_event rfl rfl ((instantCloseWatermark_of_passed hi hpassed hearly).trans (if_neg (by simp [hstopped]))),
      fun hlate => completes_event rfl rfl ((instantCloseLimit_of_reached hi hlate).trans (if_pos hstopped))⟩
  case record =>
    intro i k hi hbuilding hready
    exact ⟨fun hmagic hruns => completes_event rfl rfl (instantRecordCommit_of_published hi hbuilding hready hmagic hruns),
      fun hsilent => completes_event rfl rfl (instantRecordCommit_of_silent hi hbuilding hready hsilent)⟩

end Sys2Proof.Machine
end

section
/-! The commands and rows of point clouds (R218 to R247), and their obligation. -/
namespace Sys2Proof.Machine
variable {s : State} {c : Cmd}

/-! CHURN_POINT_FORMAT, R220 -/

/-- The format as the command's parameters hold it. -/
def Cmd.pointFmt (c : Cmd) : PointFmt :=
  { coord := c.p 0x21 1, int_ := c.p 0x22 1, time := c.p 0x23 1, stride := c.p 0x24 2, skip := c.p 0x26 2, xo := c.p 0x28 1, yo := c.p 0x29 1,
    zo := c.p 0x2A 1, io := c.p 0x2B 1, tof := c.p 0x2C 1, scale := f32Rat (f32At c.params 0x10), unit := c.p 0x34 4,
    minRange := f32Rat (f32At c.params 0x18) }

/-- The bytes that a coordinate takes. -/
def PointFmt.coordBytes (f : PointFmt) : Nat := if f.coord = 1 then 2 else 4

/-- The bytes that a point's time takes. -/
def PointFmt.timeBytes (f : PointFmt) : Nat := if f.time = 3 then 2 else 4

/-- The kinds, the stride and the scales of a format are in their ranges, and every field of a point lies within the stride, R220. -/
structure PointFmt.InRange (f : PointFmt) : Prop where
  kinds : f.coord ≤ 2 ∧ f.int_ ≤ 2 ∧ f.time ≤ 3
  stride : 8 ≤ f.stride ∧ f.stride ≤ 64
  skip : f.skip ≤ 1024
  coords : f.xo + f.coordBytes ≤ f.stride ∧ f.yo + f.coordBytes ≤ f.stride ∧ f.zo + f.coordBytes ≤ f.stride
  intensity : f.int_ ≠ 0 → f.io + f.int_ ≤ f.stride
  time : f.time ≠ 0 → f.tof + f.timeBytes ≤ f.stride
  unit : 1 ≤ f.unit ∧ f.unit ≤ 1000000
  minRange : 0 ≤ f.minRange ∧ f.minRange ≤ 10

theorem fits_of_le {off size stride : Nat} (h : off + size ≤ stride) : fits off size stride = true := decide_eq_true h

/-- A field that a format does not hold fits in every stride. -/
theorem fits_of_held {kind off size stride : Nat} (h : kind ≠ 0 → off + size ≤ stride) : (kind == 0 || fits off size stride) = true := by
  by_cases hkind : kind = 0
  · simp [hkind]
  · simp [fits_of_le (h hkind)]

theorem churnPointFormat_of_unmasked (hn : c.p 0x20 1 ≤ 63) (hf : c.pointFmt.InRange) (hfin : finiteAt c.params 0x18 1 = true)
    (hscale : inF32 (f32At c.params 0x10) (1 / 1000000) 1 = true) (hown : s.foreignStream (c.p 0x20 1) c.part = false)
    (hfree : s.masking (c.p 0x20 1) = []) :
    churnPointFormat c s = ({ s with chn := { s.chn with fmts := sset {} s.chn.fmts (c.p 0x20 1) c.pointFmt } }).done c := by
  obtain ⟨⟨hcoord, hint, htime⟩, ⟨hstrideLo, hstrideHi⟩, hskip, ⟨hx, hy, hz⟩, hio, htof, ⟨hunitLo, hunitHi⟩, ⟨hminLo, hminHi⟩⟩ := hf
  have hkinds := decide_eq_true (show c.p 0x20 1 ≤ 63 ∧ c.pointFmt.coord ≤ 2 ∧ c.pointFmt.int_ ≤ 2 ∧ c.pointFmt.time ≤ 3 ∧
    8 ≤ c.pointFmt.stride ∧ c.pointFmt.stride ≤ 64 ∧ c.pointFmt.skip ≤ 1024 from ⟨hn, hcoord, hint, htime, hstrideLo, hstrideHi, hskip⟩)
  have hscales := decide_eq_true (show 1 ≤ c.pointFmt.unit ∧ c.pointFmt.unit ≤ 1000000 ∧ 0 ≤ c.pointFmt.minRange ∧ c.pointFmt.minRange ≤ 10
    from ⟨hunitLo, hunitHi, hminLo, hminHi⟩)
  rw [churnPointFormat, s.firstFail_of_all_false c]
  · rfl
  · simp only [List.forall_mem_cons, Bool.not_eq_false', Bool.and_eq_true]
    refine ⟨⟨⟨⟨⟨⟨⟨⟨⟨hkinds, fits_of_le hx⟩, fits_of_le hy⟩, fits_of_le hz⟩, fits_of_held hio⟩, fits_of_held htof⟩, hfin⟩, hscale⟩, hscales⟩, hown,
      by simp [hfree], by simp⟩

/-! CHURN_VOXEL_CONFIG, R225, R226 -/

/-- The corners of the region of interest. -/
def Cmd.voxLo (c : Cmd) : V3 := V3.at c.params 8
def Cmd.voxHi (c : Cmd) : V3 := V3.at c.params 0x14

/-- 65,535 voxels in metres: the most that the region of interest spans along an axis. -/
def Cmd.voxSpan (c : Cmd) : Rat := 65535 * f32Rat (f32At c.params 4)

/-- The bytes of all voxel-set slots. -/
def Cmd.voxSlotsBytes (c : Cmd) : Nat := c.p 0x22 1 * c.p 0x50 4

/-- The table of rulebook specs, 32 bytes for each. -/
def State.voxTable (s : State) (c : Cmd) : Bytes := if c.p 0x21 1 = 0 then [] else s.tableAt c (c.p 0x58 8) (32 * c.p 0x21 1)

/-- The specs that a table holds for the command. -/
def Cmd.voxSpecs (c : Cmd) (b : Bytes) : List RbSpec := (List.range (c.p 0x21 1)).map fun i =>
  RbSpec.mk (numAt b (32 * i) 1) (numAt b (32 * i + 1) 1) (numAt b (32 * i + 2) 1) (numAt b (32 * i + 3) 1)

/-- The voxel configuration as the command's fields and its table give it. -/
def Cmd.voxCfg (c : Cmd) (b : Bytes) : VoxCfg :=
  { edge := f32At c.params 4, lo := c.voxLo, hi := c.voxHi, maxSites := c.p 0x40 4, halfNs := c.p 0x44 4, slots := c.p 0x22 1, addr := c.p 0x48 8,
    slotBytes := c.p 0x50 4, hold := c.p 0x54 1, specs := c.voxSpecs b, loBytes := cut c.params 8 12 }

/-- The fields of CHURN_VOXEL_CONFIG are in their ranges, R225, R226. -/
structure Cmd.VoxelInRange (c : Cmd) : Prop where
  counts : c.p 0x20 1 ≤ 3 ∧ c.p 0x21 1 ≤ 16 ∧ c.p 0x22 1 ≤ 4
  finite : finiteAt c.params 4 7 = true
  edge : inF32 (f32At c.params 4) (1 / 50) 2 = true
  corners : c.voxLo.x < c.voxHi.x ∧ c.voxLo.y < c.voxHi.y ∧ c.voxLo.z < c.voxHi.z
  spans : c.voxHi.x - c.voxLo.x ≤ c.voxSpan ∧ c.voxHi.y - c.voxLo.y ≤ c.voxSpan ∧ c.voxHi.z - c.voxLo.z ≤ c.voxSpan
  sites : 4096 ≤ c.p 0x40 4 ∧ c.p 0x40 4 ≤ 524288
  half : 1000000 ≤ c.p 0x44 4 ∧ c.p 0x44 4 ≤ 1000000000
  slot : c.p 0x50 4 % 65536 = 0 ∧ 1024 + 72 * c.p 0x40 4 ≤ c.p 0x50 4
  hold : 1 ≤ c.p 0x54 1 ∧ c.p 0x54 1 ≤ 8
  aligned : c.p 0x48 8 % 65536 = 0

/-- The schedule is off and is the command's, its slots lie in memory that the command's partition writes, and its specs can be read and keep
their rules, R225, R226, R236. -/
structure State.MayVoxel (s : State) (c : Cmd) : Prop where
  owned : s.ownsSched (c.p 0x20 1) c.part = true
  off : s.schedOn (c.p 0x20 1) = false
  slots : c.p 0x22 1 ≠ 0 → inside (c.p 0x48 8) c.voxSlotsBytes stagingBase stagingSize = true ∧
    s.writeRange c.part (c.p 0x48 8) c.voxSlotsBytes = true
  readable : c.p 0x21 1 ≠ 0 → s.tableErr c.tableReq (c.p 0x58 8) (32 * c.p 0x21 1) = none
  specs : specsOk (c.voxSpecs (s.voxTable c)) = true

theorem State.MayVoxel.noneOutside (h : s.MayVoxel c) :
    (c.p 0x22 1 != 0 && !(inside (c.p 0x48 8) c.voxSlotsBytes stagingBase stagingSize && s.writeRange c.part (c.p 0x48 8) c.voxSlotsBytes)) =
      false := by
  by_cases hslots : c.p 0x22 1 = 0
  · simp [hslots]
  · obtain ⟨hin, hwrite⟩ := h.slots hslots
    simp [hin, hwrite]

/-- Without specs no table is read. -/
theorem State.MayVoxel.withVoxTable (h : s.MayVoxel c) (k : Bytes → State → State) :
    (if c.p 0x21 1 = 0 then k [] s else s.withTable c (c.p 0x58 8) (32 * c.p 0x21 1) k) = k (s.voxTable c) s := by
  unfold State.voxTable
  split
  · rfl
  · exact State.withTable_of_readable k (h.readable ‹_›)

theorem Cmd.VoxelInRange.fieldsOk (h : c.VoxelInRange) :
    (finiteAt c.params 4 7 && decide (c.p 0x20 1 ≤ 3 ∧ c.p 0x21 1 ≤ 16 ∧ c.p 0x22 1 ≤ 4 ∧ inF32 (f32At c.params 4) (1 / 50) 2 = true ∧
      c.voxLo.x < c.voxHi.x ∧ c.voxLo.y < c.voxHi.y ∧ c.voxLo.z < c.voxHi.z ∧ 4096 ≤ c.p 0x40 4 ∧ c.p 0x40 4 ≤ 524288 ∧
      1000000 ≤ c.p 0x44 4 ∧ c.p 0x44 4 ≤ 1000000000 ∧ c.p 0x50 4 % 65536 = 0 ∧ 1 ≤ c.p 0x54 1 ∧ c.p 0x54 1 ≤ 8)) = true := by
  obtain ⟨⟨hj, hn, hslots⟩, hfin, hedge, ⟨hx, hy, hz⟩, -, ⟨hsitesLo, hsitesHi⟩, ⟨hhalfLo, hhalfHi⟩, ⟨hslot, -⟩, ⟨hholdLo, hholdHi⟩, -⟩ := h
  exact Bool.and_eq_true_iff.mpr ⟨hfin, decide_eq_true
    ⟨hj, hn, hslots, hedge, hx, hy, hz, hsitesLo, hsitesHi, hhalfLo, hhalfHi, hslot, hholdLo, hholdHi⟩⟩

/-- The region spans no more voxels than an index counts, and a slot holds the most sites. -/
theorem Cmd.VoxelInRange.sizesOk (h : c.VoxelInRange) :
    (decide (c.voxSpan < c.voxHi.x - c.voxLo.x) || decide (c.voxSpan < c.voxHi.y - c.voxLo.y) || decide (c.voxSpan < c.voxHi.z - c.voxLo.z) ||
      decide (c.p 0x50 4 < 1024 + 72 * c.p 0x40 4)) = false := by
  obtain ⟨hx, hy, hz⟩ := h.spans
  simp only [Bool.or_eq_false_iff, decide_eq_false_iff_not, Rat.not_lt, Nat.not_lt]
  exact ⟨⟨⟨hx, hy⟩, hz⟩, h.slot.2⟩

theorem churnVoxelConfig_of_mayVoxel (hf : c.VoxelInRange) (h : s.MayVoxel c) :
    churnVoxelConfig c s = (s.modSched (c.p 0x20 1) fun x => { x with vox := c.voxCfg (s.voxTable c), voxNext := 0 }).done c := by
  rw [churnVoxelConfig, s.firstFail_of_all_false c]
  · exact (h.withVoxTable _).trans (if_neg (Bool.eq_false_iff.mp (congrArg Bool.not h.specs)))
  · simp only [List.forall_mem_cons]
    exact ⟨congrArg Bool.not hf.fieldsOk, by simp [h.owned], h.off, by simp [hf.aligned], h.noneOutside, hf.sizesOk, by simp⟩

/-! CHURN_OCTREE_CONFIG and CHURN_OCTREE_CLEAR, R240, R246 -/

/-- The octree as the command's fields give it, without nodes; schedule 0xFF takes it from all schedules. -/
def Cmd.octree (c : Cmd) : Oct :=
  { sched := if c.p 0x20 1 = 0xFF then none else some (c.p 0x20 1), depth := c.p 0x21 1, persist := c.p 0x22 1, leaf := f32Rat (f32At c.params 4),
    centre := V3.at c.params 8 }

theorem churnOctreeConfig_of_owned (hj : c.p 0x20 1 = 0xFF ∨ c.p 0x20 1 ≤ 3) (hdepthLo : 4 ≤ c.p 0x21 1) (hdepthHi : c.p 0x21 1 ≤ 16)
    (hpersist : 1 ≤ c.p 0x22 1) (hfin : finiteAt c.params 4 4 = true) (hleaf : inF32 (f32At c.params 4) (1 / 20) 4 = true)
    (hown : s.ownsOct c.part = true) (hsched : c.p 0x20 1 = 0xFF ∨ s.ownsSched (c.p 0x20 1) c.part = true) :
    churnOctreeConfig c s = (({ s with chn := { s.chn with oct := c.octree } } : State).octClear).done c := by
  have hname : (c.p 0x20 1 == 0xFF || decide (c.p 0x20 1 ≤ 3)) = true := by simpa using hj
  have howned : (c.p 0x20 1 == 0xFF || s.ownsSched (c.p 0x20 1) c.part) = true := by simpa using hsched
  have hrange := decide_eq_true (show 4 ≤ c.p 0x21 1 ∧ c.p 0x21 1 ≤ 16 ∧ 1 ≤ c.p 0x22 1 from ⟨hdepthLo, hdepthHi, hpersist⟩)
  rw [churnOctreeConfig, s.firstFail_of_all_false c _ (by simp only [List.forall_mem_cons, hname, hrange, hfin, hleaf, hown, howned]; simp)]
  simp only [beq_iff_eq]
  rfl

theorem churnOctreeClear_of_owned {k : Nat} (hsched : s.chn.oct.sched = some k) (hown : s.ownsOct c.part = true) :
    churnOctreeClear c s = s.octClear.doneWith c (leBytes 4 (s.chn.oct.nodes.length - 1)) := by
  rw [churnOctreeClear, s.firstFail_of_all_false c _ (by simp [hsched, hown])]

/-! CHURN_TABLE_SPLIT, R243 -/

/-- The milliseconds that a split waits for the frame in progress; 0 asks for 100. -/
def Cmd.splitMs (c : Cmd) : Nat := if c.p 0x24 4 = 0 then 100 else c.p 0x24 4

theorem churnTableSplit_of_owned (holo : 2 ≤ c.p 0x20 1) (hohi : c.p 0x20 1 ≤ 6) (hmode : c.p 0x21 1 ≤ 1) (hms : c.splitMs ≤ 10000)
    (hown : ∀ i < 4, s.schedOn i = true → s.voxelised i = true → s.schedOwner i = c.part) (hoct : s.ownsOct c.part = true)
    (hfree : s.chn.split = none) :
    churnTableSplit c s =
      (let v := if c.p 0x21 1 = 1 then s.discardFrame else s
       { v with chn := { v.chn with split := some { cmd := c.id, oct := c.p 0x20 1, due := c.acceptNs + c.splitMs * 1000000, started := v.ns } } }) := by
  have hrange : decide (c.p 0x20 1 < 2 ∨ 6 < c.p 0x20 1 ∨ 1 < c.p 0x21 1 ∨ 10000 < c.splitMs) = false := decide_eq_false (by omega)
  have hforeign : ((List.range 4).any fun j => s.schedOn j && s.voxelised j && s.schedOwner j != c.part) = false :=
    List.any_eq_false.mpr fun i hi => by simpa using hown i (List.mem_range.mp hi)
  rw [churnTableSplit, s.firstFail_of_all_false c]
  · rfl
  · simp only [List.forall_mem_cons]
    exact ⟨hrange, by simp [hforeign, hoct], by simp [hfree], by simp⟩

/-! TABLE_SPLIT_APPLY, R243 -/

/-- A clear of the octree changes nothing of Churn but the octree. -/
theorem State.octClear_chn (s : State) : s.octClear.chn = { s.chn with oct := s.octClear.chn.oct } := by
  unfold State.octClear
  dsimp only
  split <;> rfl

/-- Without runs there is none to give back. -/
theorem State.syncRuns_chn_of_none (h : s.chn.runs = []) : s.syncRuns.chn = s.chn := by
  rw [State.syncRuns, State.setReg_chn, State.setReg_chn, h]
  exact congrArg (fun r => { s.chn with runs := r }) h.symm

theorem State.syncRuns_reg_ne {r : Reg} (hold : r ≠ .chnPtOldest) (hused : r ≠ .chnPtUsed) : s.syncRuns.reg r = s.reg r := by
  rw [State.syncRuns, State.setReg_reg_ne _ _ hused, State.setReg_reg_ne _ _ hold]
  rfl

/-- The tables divided as a split asks: no run is left, the octree is cleared where its part shrinks, and both registers tell the division. -/
def State.divideTables (s : State) (p : Split) : State :=
  let t : State := { s with chn := { s.chn with split := none, runs := [] } }
  let w := if p.oct < s.octMib then t.octClear else t
  ((w.setReg .chnSplit (BitVec.ofNat 64 p.oct)).setReg .chnPtEntries (BitVec.ofNat 64 (65536 * (18 - p.oct)))).syncRuns

/-- The event of a split is told, and the command that asked for it commits. -/
def State.tellSplit (s : State) (p : Split) (old : Nat) : State :=
  let t := s.raise 0x0415 (match s.cmd? p.cmd with | some c => c.part | none => 0) (evData [old, p.oct])
  match t.cmd? p.cmd with
  | some c => (t.doneWith c (leBytes 8 (t.ns - p.started))).settle
  | none => t

theorem State.divideTables_chn (p : Split) : (s.divideTables p).chn.split = none ∧ (s.divideTables p).chn.runs = [] := by
  unfold State.divideTables
  dsimp only
  split
  · rw [State.syncRuns_chn_of_none]
    all_goals rw [State.setReg_chn, State.setReg_chn, State.octClear_chn]
    exact ⟨rfl, rfl⟩
  · rw [State.syncRuns_chn_of_none rfl]
    exact ⟨rfl, rfl⟩

theorem State.divideTables_split (p : Split) : (s.divideTables p).reg .chnSplit = BitVec.ofNat 64 p.oct := by
  rw [State.divideTables, State.syncRuns_reg_ne (by simp) (by simp), State.setReg_reg_ne _ _ (by simp), State.setReg_reg_self]

theorem State.divideTables_ptEntries (p : Split) : (s.divideTables p).reg .chnPtEntries = BitVec.ofNat 64 (65536 * (18 - p.oct)) := by
  rw [State.divideTables, State.syncRuns_reg_ne (by simp) (by simp), State.setReg_reg_self]

theorem State.tellSplit_chn (p : Split) (old : Nat) : (s.tellSplit p old).chn = s.chn := by
  unfold State.tellSplit
  dsimp only
  split
  · rw [State.settle_chn, State.doneWith, State.done, State.finish_chn, State.setResult_chn, State.raise_chn]
  · rw [State.raise_chn]

theorem State.tellSplit_reg_ne (p : Split) (old : Nat) {r : Reg} (h : r ≠ .ccxHpMboxErr) : (s.tellSplit p old).reg r = s.reg r := by
  unfold State.tellSplit
  dsimp only
  split
  · rw [State.settle_reg_ne _ h, State.doneWith, State.done_reg_ne _ _ h, State.setResult_reg, State.raise_reg_ne _ _ _ _ h]
  · rw [State.raise_reg_ne _ _ _ _ h]

theorem tableSplitApply_of_ended {p : Split} (hp : s.chn.split = some p) (hended : s.splitWaits p = false) :
    tableSplitApply p.cmd s = (s.divideTables p).tellSplit p s.octMib := by
  unfold tableSplitApply
  rw [hp]
  exact if_neg (by simp [hended])

/-! POINT_FRAME_BUILD, R233, R243 -/

theorem pointFrameBuild_of_next {i : Inst} {j k : Nat} {r : List (Nat × Nat)} (horder : s.chn.order = (j, k) :: r) (hsplit : s.chn.split = none)
    (hon : s.funcOff 3 0 = false) (hfills : s.pln.fills = []) (hidle : s.frameBusy = none) (hi : s.inst? j k = some i)
    (hbuilding : i.state = .building) : pointFrameBuild s = s.buildFrame j i := by
  simp only [pointFrameBuild, horder, hsplit, hon, hfills, hidle, hi, hbuilding]
  rfl

/-! The obligation -/

/-- Settles O25: a command whose parameters and schedule pass the checks of its row is not refused, and then does its work; a split that waits no
more is applied, and the next closed frame is built. That a clear keeps the root, which its answer does not count (log entry 52), that the stages
of a frame end in the row that builds it (log entry 90), and that a schedule which nobody has opened belongs to anyone (log entry 50) are the
model's choices. -/
theorem pointCommandsComplete : Obligations.PointCommandsComplete := by
  unfold Obligations.PointCommandsComplete
  intro dt id s c
  refine ⟨?format, ?voxel, ?octree, ?clear, ?split, ?status, ?apply, ?frame⟩
  case format =>
    exact fun hr hn hcoord hint htime hstrideLo hstrideHi hskip hx hy hz hio htof hfin hscale hunitLo hunitHi hminLo hminHi hown hfree =>
      completes_cmd rfl rfl hr (churnPointFormat_of_unmasked hn
        ⟨⟨hcoord, hint, htime⟩, ⟨hstrideLo, hstrideHi⟩, hskip, ⟨hx, hy, hz⟩, hio, htof, ⟨hunitLo, hunitHi⟩, ⟨hminLo, hminHi⟩⟩
        hfin hscale hown hfree)
  case voxel =>
    exact fun hr hj hn hslots hfin hedge hx hy hz hspanX hspanY hspanZ hsitesLo hsitesHi hhalfLo hhalfHi hslot hroom hholdLo hholdHi haligned
        hown hoff hrange hreadable hspecs =>
      completes_cmd rfl rfl hr (churnVoxelConfig_of_mayVoxel
        ⟨⟨hj, hn, hslots⟩, hfin, hedge, ⟨hx, hy, hz⟩, ⟨hspanX, hspanY, hspanZ⟩, ⟨hsitesLo, hsitesHi⟩, ⟨hhalfLo, hhalfHi⟩, ⟨hslot, hroom⟩,
          ⟨hholdLo, hholdHi⟩, haligned⟩
        ⟨hown, hoff, hrange, hreadable, hspecs⟩)
  case octree =>
    exact fun hr hj hdepthLo hdepthHi hpersist hfin hleaf hown hsched =>
      completes_cmd rfl rfl hr (churnOctreeConfig_of_owned hj hdepthLo hdepthHi hpersist hfin hleaf hown hsched)
  case clear => exact fun k hr hsched hown => completes_cmd rfl rfl hr (churnOctreeClear_of_owned hsched hown)
  case split =>
    exact fun hr holo hohi hmode hms hown hoct hfree =>
      completes_cmd rfl rfl hr (churnTableSplit_of_owned holo hohi hmode hms hown hoct hfree)
  case status => exact fun hr => completes_cmd rfl rfl hr rfl
  case apply =>
    rintro p hp rfl hended
    obtain ⟨hsplit, hruns⟩ := (s.elapse dt).divideTables_chn p
    have hrow : Completes (.tableSplitApply dt p.cmd) s _ := completes_event rfl rfl (tableSplitApply_of_ended hp hended)
    refine ⟨_, hrow, ?_⟩
    rw [State.close_chn, State.close_reg, State.close_reg, State.tellSplit_chn, State.tellSplit_reg_ne _ _ (by simp),
      State.tellSplit_reg_ne _ _ (by simp)]
    exact ⟨hsplit, State.divideTables_split p, State.divideTables_ptEntries p, hruns⟩
  case frame =>
    exact fun i k l r horder hsplit hon hfills hidle hi hbuilding =>
      completes_event rfl rfl (pointFrameBuild_of_next horder hsplit hon hfills hidle hi hbuilding)

end Sys2Proof.Machine
end

section
/-! The commands of the tracker (R248 to R260), and their obligation. -/
namespace Sys2Proof.Machine
variable {s : State} {c : Cmd}

/-! CHURN_TRACK_CONFIG, R249 -/

/-- The tracker's configuration as the command's fields give it; a gate of 0 asks for 11.34. -/
def Cmd.trkCfg (c : Cmd) : TrkCfg :=
  { confirm := c.p 0x22 1, tent := c.p 0x23 1, coast := c.p 0x24 1, slots := c.p 0x25 1,
    gate := if f32? (f32At c.params 0x08) = some 0 then 1134 / 100 else f32Rat (f32At c.params 0x08), penalty := f32Rat (f32At c.params 0x0C),
    noise := f32Rat (f32At c.params 0x10), velVar := f32Rat (f32At c.params 0x14), ring := c.p 0x38 8, coastNs := c.p 0x40 4 }

/-- The bytes of the output ring. -/
def Cmd.trkRingBytes (c : Cmd) : Nat := c.p 0x25 1 * trkSlotBytes

/-- CHN_TRK_CTL as the command's fields give it, R259. -/
def Cmd.trkCtl (c : Cmd) : W64 :=
  BitVec.ofNat 64 (2 ^ 31 + c.p 0x21 1 % 2 * 2 ^ 30 + c.p 0x21 1 / 2 * 2 ^ 29 + c.part * 2 ^ 26 + c.p 0x20 1 * 2 ^ 24)

/-- The fields of CHURN_TRACK_CONFIG that binds the tracker are in their ranges, R249. -/
structure Cmd.TrackInRange (c : Cmd) : Prop where
  sched : c.p 0x20 1 ≤ 3
  flags : c.p 0x21 1 ≤ 3
  confirm : 1 ≤ c.p 0x22 1 ∧ c.p 0x22 1 ≤ 15
  tent : 1 ≤ c.p 0x23 1 ∧ c.p 0x23 1 ≤ 15
  coast : 1 ≤ c.p 0x24 1
  slots : 2 ≤ c.p 0x25 1 ∧ c.p 0x25 1 ≤ 64
  reserved : c.p 0x26 2 = 0
  gate : f32? (f32At c.params 0x08) = some 0 ∨ inF32 (f32At c.params 0x08) 1 100 = true
  penalty : inF32 (f32At c.params 0x0C) 0 100 = true
  noise : inF32 (f32At c.params 0x10) (1 / 100) 100 = true
  velVar : inF32 (f32At c.params 0x14) (1 / 100) 1000 = true
  coastNs : c.p 0x40 4 = 0 ∨ (1000000 ≤ c.p 0x40 4 ∧ c.p 0x40 4 ≤ 4000000000)

/-- No association is queued or runs, the schedule is on and is the command's, and the output ring lies in memory that the command's partition
writes, R249. -/
structure State.MayTrack (s : State) (c : Cmd) : Prop where
  idle : s.assocBusy = false
  on : s.schedOn (c.p 0x20 1) = true
  owned : s.schedOwner (c.p 0x20 1) = c.part
  aligned : c.p 0x38 8 % 4096 = 0
  ring : s.writeRange c.part (c.p 0x38 8) c.trkRingBytes = true

/-- The tracker without tracks: its table in memory reads 0. -/
def State.clearTracker (s : State) : State := ({ s with trk := {} } : State).clearMem (churnBase + 0x1E00000) 0x100000

theorem Cmd.TrackInRange.fieldsOk (h : c.TrackInRange) :
    (decide (c.p 0x20 1 ≤ 3) && decide (c.p 0x21 1 ≤ 3) && decide (1 ≤ c.p 0x22 1 ∧ c.p 0x22 1 ≤ 15) &&
      decide (1 ≤ c.p 0x23 1 ∧ c.p 0x23 1 ≤ 15) && decide (1 ≤ c.p 0x24 1) && decide (2 ≤ c.p 0x25 1 ∧ c.p 0x25 1 ≤ 64) && c.zero 0x26 2 &&
      (f32? (f32At c.params 0x08) == some 0 || inF32 (f32At c.params 0x08) 1 100) && inF32 (f32At c.params 0x0C) 0 100 &&
      inF32 (f32At c.params 0x10) (1 / 100) 100 && inF32 (f32At c.params 0x14) (1 / 100) 1000 &&
      (c.p 0x40 4 == 0 || decide (1000000 ≤ c.p 0x40 4 ∧ c.p 0x40 4 ≤ 4000000000))) = true := by
  simp only [Cmd.zero, Bool.and_eq_true, Bool.or_eq_true, decide_eq_true_eq, beq_iff_eq]
  exact ⟨⟨⟨⟨⟨⟨⟨⟨⟨⟨⟨h.sched, h.flags⟩, h.confirm⟩, h.tent⟩, h.coast⟩, h.slots⟩, h.reserved⟩, h.gate⟩, h.penalty⟩, h.noise⟩, h.velVar⟩, h.coastNs⟩

/-- Schedule 0xFF frees the tracker, whatever the other fields hold, R249. -/
theorem churnTrackConfig_of_off (hoff : c.p 0x20 1 = 255) (hidle : s.assocBusy = false) (hown : s.trkOn = true → s.trkOwner = c.part) :
    churnTrackConfig c s = ((((s.clearTracker).setReg .chnTrkCtl 0).setReg .chnTrkSeq 0).syncTrk).done c := by
  have hforeign : (s.trkOn && s.trkOwner != c.part) = false := by simpa using hown
  rw [churnTrackConfig, s.firstFail_of_all_false c _ (by simp [hoff, hidle, hforeign])]
  simp only [hoff, decide_true, if_true]
  rfl

theorem churnTrackConfig_of_mayTrack (hf : c.TrackInRange) (h : s.MayTrack c) :
    churnTrackConfig c s =
      ((((({ s.clearTracker with trk := { cfg := c.trkCfg } } : State).clearMem (c.p 0x38 8) c.trkRingBytes).setReg .chnTrkCtl c.trkCtl).setReg
        .chnTrkSeq 0).syncTrk).done c := by
  have hbinds : decide (c.p 0x20 1 = 255) = false := decide_eq_false (by have := hf.sched; omega)
  rw [churnTrackConfig, s.firstFail_of_all_false c]
  · simp only [hbinds, Bool.false_eq_true, if_false]
    rfl
  · simp only [List.forall_mem_cons, hbinds]
    exact ⟨congrArg Bool.not hf.fieldsOk, h.idle, by simp [h.on, h.owned], by simp [h.aligned], congrArg Bool.not h.ring, by simp⟩

/-! CHURN_ASSOCIATE, R248, R252, R253, R256 -/

/-- Without an earlier association that is queued or runs, the row runs the command. -/
theorem assocRow_of_first {id : Nat} (hr : s.runs id 0x0421 = some c)
    (hfirst : ∀ x ∈ s.ccx.cmds, x.code = 0x0421 → x.state = .accepted ∨ x.state = .running → id ≤ x.id) :
    assocRow id s = (churnAssociate c (s.start id)).settle := by
  have hbefore : (s.ccx.cmds.any fun c => c.code == 0x0421 && decide (c.id < id) && (c.state == .accepted || c.state == .running)) = false := by
    refine List.any_eq_false.mpr fun x hx => ?_
    simp only [Bool.and_eq_true, Bool.or_eq_true, beq_iff_eq, decide_eq_true_eq]
    exact fun ⟨⟨hcode, hid⟩, hopen⟩ => Nat.not_lt.mpr (hfirst x hx hcode hopen) hid
  rw [assocRow, hr, hbefore]
  rfl

/-- The association that the solver chooses waits for its commit. -/
def State.awaitCommit (s : State) (c : Cmd) (a : Assoc) : State := ({ s with trk := { s.trk with pend := some a } } : State).setVerdict c.id 0

/-- An association with oversize components fails under oversize_fail: each is told by an event, and one is counted, R256. -/
def State.failOversize (s : State) (c : Cmd) (t : Nat) (a : Assoc) : State :=
  ((a.excess.foldl (fun (s : State) o => s.raise 0x0421 s.trkOwner (evData [t, o.1.length, o.2.length])) s).countSat .chnTrkOversize 16 16).failCmd
    c.id 0x55

/-- An association whose record and detections can be read: the solver has drawn its free choice. -/
theorem churnAssociate_of_readable {seq : Nat} {tag : Tag} {dets : List Bytes} (hon : s.trkOn = true) (hown : s.trkOwner = c.part)
    (hn : c.p 0x30 4 ≤ 4096) (hreserved : c.p 0x34 4 = 0) (hrec : s.firstRecord (c.p 0x20 8) = .ok seq)
    (hdets : s.detections c = .ok (tag, dets)) :
    churnAssociate c s =
      (let a := s.associate c (c.p 0x20 8) seq tag dets
       let v : State := { s with freeCtr := s.freeCtr + 1 }
       if a.excess = [] ∨ bit (s.reg .chnTrkCtl) 29 = false then v.awaitCommit c a else v.failOversize c (c.p 0x20 8) a) := by
  rw [churnAssociate]
  dsimp only
  rw [if_neg (by simp [hon, hown]), if_neg (by simp [Cmd.zero, hreserved]; omega), hrec, hdets]
  exact (ite_congr (propext (not_or.trans (and_congr Iff.rfl (Bool.not_eq_false _).to_iff)).symm) (fun _ => rfl) fun _ => rfl).trans
    (ite_not _ _ _)

/-! CHURN_TRACK_DROP, R251, R260 -/

theorem churnTrackDrop_of_live {e : Nat × Track} (hon : s.trkOn = true) (hown : s.trkOwner = c.part)
    (he : s.trk.tracks.find? (fun e => e.2.id == c.p 0x20 4 && e.2.state != 4) = some e) :
    churnTrackDrop c s = (((s.putTrack e.1 { e.2 with state := 4 }).syncTrk).setResult c.id 0x20 (leBytes 1 e.2.state)).done c := by
  rw [churnTrackDrop, if_neg (by simp [hon, hown]), he]

/-! The obligation -/

/-- Settles O26: a command whose parameters, schedule and record pass the checks of its row is not refused, and then does its work. Too large a
component under oversize_fail gives ST_SOLVE_TOO_LARGE (R112, R256). That associations run and are refused in the order of acceptance, that only
the owner frees the tracker, and that a cleared table and ring read 0 are the model's reading of R248 and R249 (log entry 55). -/
theorem trackCommandsComplete : Obligations.TrackCommandsComplete := by
  unfold Obligations.TrackCommandsComplete
  intro dt id s c
  refine ⟨?free, ?bind, ?associate, ?drop, ?status⟩
  case free => exact fun hr hoff hidle hown => completes_cmd rfl rfl hr (churnTrackConfig_of_off hoff hidle hown)
  case bind =>
    exact fun hr hj hfl hconfLo hconfHi htentLo htentHi hcoast hslotsLo hslotsHi hreserved hgate hpenalty hnoise hvel hcoastNs hidle hon hown
        haligned hring =>
      completes_cmd rfl rfl hr (churnTrackConfig_of_mayTrack
        ⟨hj, hfl, ⟨hconfLo, hconfHi⟩, ⟨htentLo, htentHi⟩, hcoast, ⟨hslotsLo, hslotsHi⟩, hreserved, hgate, hpenalty, hnoise, hvel, hcoastNs⟩
        ⟨hidle, hon, hown, haligned, hring⟩)
  case associate =>
    intro seq tag dets t a v hr hfirst hon hown hn hreserved hrec hdets
    have hrow := churnAssociate_of_readable hon hown hn hreserved hrec hdets
    exact completes_event rfl rfl
      ((assocRow_of_first hr hfirst).trans ((congrArg State.settle hrow).trans (apply_ite State.settle _ _ _)))
  case drop => exact fun e hr hon hown he => completes_cmd rfl rfl hr (churnTrackDrop_of_live hon hown he)
  case status => exact fun hr => completes_cmd rfl rfl hr rfl

end Sys2Proof.Machine
end

section
/-! The commands of the Planner (R263, R266, R268, R273, R274, R280, R284, R285), and their obligation. -/
namespace Sys2Proof.Machine
variable {s : State} {c : Cmd}

/-! PLAN_GRID_CONFIG, R263 -/

/-- A horizontal coordinate of the origin, moved down to a whole number of edges. -/
def Cmd.snapToEdge (c : Cmd) (q : Rat) : Rat := f32Rat (f32At c.params 4) * (((q / f32Rat (f32At c.params 4)).floor : Int) : Rat)

/-- The grid's place and range as the command's fields give them; no tag, no ego and no fill is left of the grid before. -/
def Cmd.placedGrid (c : Cmd) (p : Pln) : Pln :=
  { p with
    ox := c.snapToEdge (V3.at c.params 8).x, oy := c.snapToEdge (V3.at c.params 8).y, oz := (V3.at c.params 8).z
    maxRange := f32Rat (f32At c.params 0x14), tag := {}, ego := none, fills := [] }

/-- PLN_GRID_CTL as the command's fields give it, R283. -/
def Cmd.gridCtl (c : Cmd) : W64 :=
  BitVec.ofNat 64 (2 ^ 31 + c.p 0x21 1 % 2 * 2 ^ 30 + c.p 0x21 1 / 2 * 2 ^ 29 + c.part * 2 ^ 26 +
    (if c.p 0x20 1 = 255 then 0 else 2 ^ 25 + c.p 0x20 1 * 2 ^ 23))

/-- The fields of PLAN_GRID_CONFIG other than the schedule are in their ranges, R263. -/
structure Cmd.GridInRange (c : Cmd) : Prop where
  flags : c.p 0x21 1 ≤ 3
  reserved : c.p 0x22 2 = 0
  edge : inF32 (f32At c.params 4) (1 / 50) (1 / 2) = true
  edgeNonzero : f32Rat (f32At c.params 4) ≠ 0
  origin : finiteAt c.params 8 3 = true
  range : inF32 (f32At c.params 0x14) 1 200 = true

/-- The schedule that fills the grid: none, or one that is on and the command's, R263. -/
def State.MayFillFrom (s : State) (c : Cmd) : Prop :=
  c.p 0x20 1 = 255 ∨ (c.p 0x20 1 ≤ 3 ∧ s.schedOn (c.p 0x20 1) = true ∧ s.schedOwner (c.p 0x20 1) = c.part)

theorem Cmd.GridInRange.fieldsOk (hf : c.GridInRange) (hj : s.MayFillFrom c) :
    ((decide (c.p 0x20 1 ≤ 3) || c.p 0x20 1 == 255) && decide (c.p 0x21 1 ≤ 3) && c.zero 0x22 2 && inF32 (f32At c.params 4) (1 / 50) (1 / 2) &&
      finiteAt c.params 8 3 && inF32 (f32At c.params 0x14) 1 200) = true := by
  simp only [Cmd.zero, Bool.and_eq_true, Bool.or_eq_true, decide_eq_true_eq, beq_iff_eq]
  exact ⟨⟨⟨⟨⟨hj.symm.imp_left And.left, hf.flags⟩, hf.reserved⟩, hf.edge⟩, hf.origin⟩, hf.range⟩

theorem State.MayFillFrom.schedOk (h : s.MayFillFrom c) :
    (c.p 0x20 1 != 255 && !(s.schedOn (c.p 0x20 1) && s.schedOwner (c.p 0x20 1) == c.part)) = false := by
  rcases h with hnone | ⟨-, hon, hown⟩
  · simp [hnone]
  · simp [hon, hown]

/-- With no check job and no search under way the grid takes its configuration, and every cell is UNKNOWN. -/
theorem planGridConfig_of_idle (hf : c.GridInRange) (hj : s.MayFillFrom c) (hjobs : s.jobs = []) (hsearches : s.liveSearches = [])
    (hforeign : s.foreignGrid c.part = false) :
    planGridConfig c s =
      (((((({ s with pln := c.placedGrid s.pln } : State).setReg .plnGridCtl c.gridCtl).setReg .plnGridEdge
        ((f32At c.params 4).setWidth 64)).setReg .plnGridScroll 0).clearMem gridBase gridSize).syncGrid.nextGen {}).done c := by
  rw [planGridConfig, s.firstFail_of_all_false c]
  · simp only [if_neg hf.edgeNonzero]
    rfl
  · simp only [List.forall_mem_cons]
    exact ⟨congrArg Bool.not (hf.fieldsOk hj), by simp [hjobs, hsearches], by rw [hforeign, hj.schedOk, Bool.or_false], by simp⟩

/-! PLAN_GRID_WRITE, R266, R273 -/

theorem State.runs_id {id code : Nat} (h : s.runs id code = some c) : c.id = id := by
  rw [State.runs] at h
  split at h
  case h_1 x hx =>
    have hid : x.id = id := eq_of_beq (List.find?_some (p := fun y : Cmd => y.id == id) hx)
    split at h
    · exact Option.some.inj h ▸ hid
    · cases h
  case h_2 => cases h

/-- The row of PLAN_GRID_WRITE: it starts its command itself, when the write is made. -/
def gridWriteRow (id : Nat) (s : State) : State :=
  match s.runs id 0x0502 with
  | some c => planGridWrite c s
  | none => s

theorem gridWriteRow_of_runs {id : Nat} (hr : s.runs id 0x0502 = some c) : gridWriteRow id s = planGridWrite c s := by
  rw [gridWriteRow, hr]

/-- The write has waited for the hold or for fills; PLN_GRID_WAIT_NS shows the longest wait. -/
def State.noteWriteWait (s : State) (id : Nat) : State :=
  match s.pln.writes.find? fun w => w.cmd == id with
  | some w => s.gridWaited w.since
  | none => s

/-- The write waits no more. -/
def State.leaveWrites (s : State) (id : Nat) : State := { s with pln := { s.pln with writes := s.pln.writes.filter fun w => w.cmd != id } }

/-- Every cell of the box takes the command's state, and the generation counts on. -/
def State.fillBox (s : State) (c : Cmd) : State :=
  let v := (boxCells c).foldl (fun (s : State) b => s.setCell b.1 b.2.1 b.2.2 (c.p 0x2C 1)) s
  v.setReg .plnGridGen (v.reg .plnGridGen + 1)

/-- The box of PLAN_GRID_WRITE lies in the grid, and its state is UNKNOWN or KEEP_OUT, R266. -/
structure Cmd.BoxInRange (c : Cmd) : Prop where
  state : c.p 0x2C 1 = 0 ∨ c.p 0x2C 1 = 3
  top : c.p 0x26 2 ≤ 511 ∧ c.p 0x28 2 ≤ 511 ∧ c.p 0x2A 2 ≤ 63
  ordered : c.p 0x20 2 ≤ c.p 0x26 2 ∧ c.p 0x22 2 ≤ c.p 0x28 2 ∧ c.p 0x24 2 ≤ c.p 0x2A 2

theorem Cmd.BoxInRange.fieldsOk (h : c.BoxInRange) :
    ((c.p 0x2C 1 != 0 && c.p 0x2C 1 != 3) || (decide (c.p 0x26 2 > 511) || decide (c.p 0x28 2 > 511) || decide (c.p 0x2A 2 > 63) ||
      decide (c.p 0x20 2 > c.p 0x26 2) || decide (c.p 0x22 2 > c.p 0x28 2) || decide (c.p 0x24 2 > c.p 0x2A 2))) = false := by
  obtain ⟨hstate, ⟨hx, hy, hz⟩, hxo, hyo, hzo⟩ := h
  simp only [Bool.or_eq_false_iff, Bool.and_eq_false_iff, bne_eq_false_iff_eq, decide_eq_false_iff_not, gt_iff_lt, Nat.not_lt]
  exact ⟨hstate, ⟨⟨⟨⟨hx, hy⟩, hz⟩, hxo⟩, hyo⟩, hzo⟩

/-- With no output hold and no fill that is due the write is made. -/
theorem planGridWrite_of_unheld (hon : s.gridOn = true) (hforeign : s.foreignGrid c.part = false) (hf : c.BoxInRange) (hhold : s.hold = false)
    (hfills : s.pln.fills = []) :
    planGridWrite c s =
      (let w := (((s.start c.id).noteWriteWait c.id).leaveWrites c.id).fillBox c
       (w.doneWith c (leBytes 8 (w.reg .plnGridGen).toNat)).settle) := by
  rw [planGridWrite]
  dsimp only
  rw [if_neg (by simp [hon, hforeign]), if_neg (Bool.not_eq_true _ ▸ hf.fieldsOk), if_neg (by simp [hhold, hfills])]
  rfl

/-! PLAN_MODEL_SET, R268 -/

/-- The rows of the primitives of a body model in its table. -/
def State.primRows (s : State) (c : Cmd) : List Bytes :=
  (List.range (c.p 0x22 1)).map fun i => cut (s.tableAt c (c.p 0x28 8) (32 * c.p 0x22 1)) (32 * i) 32

/-- Model, links and primitives of PLAN_MODEL_SET are in their ranges, R268. -/
structure Cmd.ModelInRange (c : Cmd) : Prop where
  model : c.p 0x20 1 ≤ 15
  links : 1 ≤ c.p 0x21 1 ∧ c.p 0x21 1 ≤ 32
  prims : 1 ≤ c.p 0x22 1 ∧ c.p 0x22 1 ≤ 64

theorem Cmd.ModelInRange.fieldsOk (h : c.ModelInRange) :
    decide (15 < c.p 0x20 1 ∨ c.p 0x21 1 < 1 ∨ 32 < c.p 0x21 1 ∨ c.p 0x22 1 < 1 ∨ 64 < c.p 0x22 1) = false := by
  obtain ⟨hm, ⟨hlinksLo, hlinksHi⟩, hprimsLo, hprimsHi⟩ := h
  exact decide_eq_false (by omega)

/-- The model's place holds the new primitives. -/
def State.storeModel (s : State) (c : Cmd) : State :=
  { s with pln := { s.pln with models := sins (sdel s.pln.models (c.p 0x20 1)) (c.p 0x20 1) ⟨c.p 0x21 1, (s.primRows c).map Prim.parse⟩ } }

theorem planModelSet_of_readable (hf : c.ModelInRange) (hforeign : s.foreignGrid c.part = false) (hidle : s.modelBusy (c.p 0x20 1) = false)
    (hread : s.tableErr c.tableReq (c.p 0x28 8) (32 * c.p 0x22 1) = none) (hrows : ∀ r ∈ s.primRows c, primOk (c.p 0x21 1) r = true) :
    planModelSet c s = (s.storeModel c).done c := by
  rw [planModelSet, s.firstFail_of_all_false c _ (by simp only [List.forall_mem_cons, hf.fieldsOk, hforeign, hidle]; simp),
    State.withTable_of_readable _ hread]
  exact if_neg (by rw [Bool.not_eq_true', Bool.not_eq_false]; exact List.all_eq_true.mpr hrows)

/-! PLAN_CHECK, R274 -/

/-- What the jobs of a check are checked with. -/
def State.chkParOf (s : State) (c : Cmd) : ChkPar :=
  { model := c.p 0x20 1, unknownHit := (c.p 0x21 1).testBit 0, outHit := (c.p 0x21 1).testBit 1, margin := f32Rat (f32At c.params 4)
    floorZ := f32Rat (f32At c.params 8), step := s.chkStep (f32At c.params 12) }

/-- One job per path, and the record of the command's results. -/
def State.queueChecks (s : State) (c : Cmd) (paths : List (W32 × List Way)) : State :=
  { s with pln := { s.pln with
    jobs := s.pln.jobs ++ paths.zipIdx.map fun p => Job.mk (.check c.id p.2) c.deadline (s.chkParOf c) p.1.2
    checks := s.pln.checks ++ [{ cmd := c.id, results := c.p 0x38 8, firstClear := (c.p 0x21 1).testBit 2, left := c.p 0x22 2 }] } }

/-- The fields of PLAN_CHECK are in their ranges, the step against the grid's edge, R274. -/
structure State.CheckInRange (s : State) (c : Cmd) : Prop where
  flags : c.p 0x21 1 ≤ 7
  paths : 1 ≤ c.p 0x22 2 ∧ c.p 0x22 2 ≤ 256
  margin : inF32 (f32At c.params 4) 0 1 = true
  floor : finiteAt c.params 8 1 = true
  step : s.stepOk (f32At c.params 12) = true

theorem State.CheckInRange.fieldsOk (h : s.CheckInRange c) :
    (decide (c.p 0x21 1 ≤ 7 ∧ 1 ≤ c.p 0x22 2 ∧ c.p 0x22 2 ≤ 256) && inF32 (f32At c.params 4) 0 1 && finiteAt c.params 8 1 &&
      s.stepOk (f32At c.params 12)) = true := by
  simp only [Bool.and_eq_true, decide_eq_true_eq]
  exact ⟨⟨⟨⟨h.flags, h.paths⟩, h.margin⟩, h.floor⟩, h.step⟩

theorem planCheck_of_readable {b : BodyModel} {paths : List (W32 × List Way)} (hmodel : s.model? (c.p 0x20 1) = some b)
    (hforeign : s.foreignGrid c.part = false) (hf : s.CheckInRange c) (hresults : s.plnAccess c true (c.p 0x38 8) (32 * c.p 0x22 2) = none)
    (hread : s.tableErr c.tableReq (c.p 0x30 8) (16 * c.p 0x22 2) = none)
    (hpaths : s.readPaths c b.links 1024 (pathHeads (s.tableAt c (c.p 0x30 8) (16 * c.p 0x22 2)) (c.p 0x22 2)) = .ok paths) :
    planCheck c s = s.queueChecks c paths := by
  rw [planCheck]
  simp only [hmodel]
  rw [s.firstFail_of_all_false c _ (by simp only [List.forall_mem_cons, hforeign, hf.fieldsOk, hresults]; simp),
    State.withTable_of_readable _ hread]
  simp only [hpaths]
  rfl

/-! PLAN_STOP_CONFIG, R280 -/

/-- The stop service as the command's fields give it. -/
def Cmd.stopCfg (c : Cmd) : StopCfg :=
  { on := true, ring := c.p 0x20 8, slots := c.p 0x28 1, model := c.p 0x29 1, unknownHit := (c.p 0x2A 1).testBit 0
    decel := f32Rat (f32At c.params 0x0C), margin := f32Rat (f32At c.params 0x10), floorZ := f32Rat (f32At c.params 0x14) }

/-- The fields of PLAN_STOP_CONFIG are in their ranges, and its ring begins at a multiple of 4096, R280. -/
structure Cmd.StopInRange (c : Cmd) : Prop where
  slots : 2 ≤ c.p 0x28 1 ∧ c.p 0x28 1 ≤ 16
  flags : c.p 0x2A 1 ≤ 1
  decel : inF32 (f32At c.params 0x0C) (1 / 10) 20 = true
  margin : inF32 (f32At c.params 0x10) 0 1 = true
  floor : finiteAt c.params 0x14 1 = true
  aligned : c.p 0x20 8 % 4096 = 0

theorem Cmd.StopInRange.fieldsOk (h : c.StopInRange) (hmodel : (s.model? (c.p 0x29 1)).isSome = true) :
    (decide (2 ≤ c.p 0x28 1 ∧ c.p 0x28 1 ≤ 16 ∧ c.p 0x2A 1 ≤ 1) && (s.model? (c.p 0x29 1)).isSome && inF32 (f32At c.params 0x0C) (1 / 10) 20 &&
      inF32 (f32At c.params 0x10) 0 1 && finiteAt c.params 0x14 1) = true := by
  simp only [Bool.and_eq_true, decide_eq_true_eq]
  exact ⟨⟨⟨⟨⟨h.slots.1, h.slots.2, h.flags⟩, hmodel⟩, h.decel⟩, h.margin⟩, h.floor⟩

theorem planStopConfig_of_writable (hon : s.gridOn = true) (hforeign : s.foreignGrid c.part = false) (hf : c.StopInRange)
    (hmodel : (s.model? (c.p 0x29 1)).isSome = true) (hring : s.writeRange c.part (c.p 0x20 8) (4096 * c.p 0x28 1) = true) :
    planStopConfig c s = (({ s with pln := { s.pln with stop := c.stopCfg } } : State).setReg .plnStopSeq 0).done c := by
  rw [planStopConfig, s.firstFail_of_all_false c]
  · rfl
  · simp only [List.forall_mem_cons]
    exact ⟨by simp [hon, hforeign], congrArg Bool.not (hf.fieldsOk hmodel), by simp [hf.aligned], congrArg Bool.not hring, by simp⟩

/-! The obligation -/

/-- Settles O27: a command whose fields, tables and places pass the checks of its row is not refused, and then does its work; a grid write that
neither the output hold nor a fill keeps waiting fills its box. That PLAN_CHECK and PLAN_MODEL_SET are refused to nobody while there is no grid
is the model's choice (log entry 57). What searches, fills, check jobs and stop records leave is O28's. -/
theorem plannerCommandsComplete : Obligations.PlannerCommandsComplete := by
  unfold Obligations.PlannerCommandsComplete
  intro dt id s c
  refine ⟨?config, ?write, ?model, ?check, ?stop, ?status⟩
  case config =>
    exact fun hr hj hfl hreserved hedge hnonzero horigin hrange hjobs hsearches hforeign =>
      completes_cmd rfl rfl hr
        (planGridConfig_of_idle ⟨hfl, hreserved, hedge, hnonzero, horigin, hrange⟩ hj hjobs hsearches hforeign)
  case write =>
    intro st e x v w hr hon hforeign hst hx hy hz hxo hyo hzo hhold hfills
    obtain rfl := State.runs_id hr
    exact completes_event (f := gridWriteRow c.id) rfl rfl
      ((gridWriteRow_of_runs hr).trans (planGridWrite_of_unheld hon hforeign ⟨hst, ⟨hx, hy, hz⟩, hxo, hyo, hzo⟩ hhold hfills))
  case model =>
    exact fun hr hm hlinksLo hlinksHi hprimsLo hprimsHi hforeign hidle hread hrows =>
      completes_cmd rfl rfl hr
        (planModelSet_of_readable ⟨hm, ⟨hlinksLo, hlinksHi⟩, hprimsLo, hprimsHi⟩ hforeign hidle hread hrows)
  case check =>
    exact fun b paths hr hmodel hforeign hfl hnLo hnHi hmargin hfloor hstep hresults hread hpaths =>
      completes_cmd rfl rfl hr
        (planCheck_of_readable hmodel hforeign ⟨hfl, ⟨hnLo, hnHi⟩, hmargin, hfloor, hstep⟩ hresults hread hpaths)
  case stop =>
    exact fun hr hon hforeign hslotsLo hslotsHi hfl hmodel hdecel hmargin hfloor haligned hring =>
      completes_cmd rfl rfl hr
        (planStopConfig_of_writable hon hforeign ⟨⟨hslotsLo, hslotsHi⟩, hfl, hdecel, hmargin, hfloor, haligned⟩ hmodel hring)
  case status => exact fun hr => completes_cmd rfl rfl hr rfl

end Sys2Proof.Machine
end

section
/-! The Planner's fills, check jobs, searches and stop records (R264, R273, R275 to R281), and their obligation. -/
namespace Sys2Proof.Machine
variable {s : State} {c : Cmd}

/-! GRID_FILL, R264, R273 -/

/-- The fill that is due is made unless the output hold is in force, and its wait is noted. -/
theorem gridFill_of_unheld {f : Fill} {r : List Fill} (hfills : s.pln.fills = f :: r) (hhold : s.hold = false) :
    gridFill s = (({ s with pln := { s.pln with fills := r } } : State).fill f).gridWaited f.since := by
  rw [gridFill, hfills]
  exact if_neg (by simp [hhold])

/-! CHECK_JOB and STOP_RECORD_BUILD, R273, R281 -/

theorem stopRecordBuild_of_due (hdue : s.pln.stopDue ≠ 0) : stopRecordBuild s = s.buildStop := if_neg hdue

/-- A stop record that is due comes before the checker's jobs. -/
theorem checkJob_of_stopDue (hdue : s.pln.stopDue ≠ 0) : checkJob s = s.buildStop := if_pos hdue

/-- The job has left the queue. -/
def State.takeJob (s : State) (j : Job) : State := { s with pln := { s.pln with jobs := dropJob j s.pln.jobs } }

section
variable {j : Job} {m : BodyModel} (hstop : s.pln.stopDue = 0) (hfills : s.pln.fills = []) (hwrites : s.waitingWrites = [])
  (hnext : nextJob s.jobs = some j) (hmodel : s.model? j.par.model = some m)
include hstop hfills hwrites hnext hmodel

/-- With no stop record, fill or write in front of it the next job leaves the queue; it is checked unless it is skipped. -/
theorem checkJob_of_next :
    checkJob s =
      (let v := s.takeJob j
       let skip := v.skips j.use.cmd
       let h := if skip then none else v.checkPath m j.par j.path
       (((if skip then v else v.countJob h.isSome).jobDone j skip h).pumpPln).settle) := by
  rw [checkJob, if_neg (not_not_intro hstop), if_neg (by simp [hfills, hwrites]), hnext]
  simp only [show ({ s with pln := { s.pln with jobs := dropJob j s.pln.jobs } } : State).model? j.par.model = some m from hmodel]
  rfl

theorem checkJob_of_checked (hskip : (s.takeJob j).skips j.use.cmd = false) :
    checkJob s =
      (let h := (s.takeJob j).checkPath m j.par j.path
       ((((s.takeJob j).countJob h.isSome).jobDone j false h).pumpPln).settle) := by
  rw [checkJob_of_next hstop hfills hwrites hnext hmodel]
  simp only [hskip, Bool.false_eq_true, if_false]

theorem checkJob_of_skipped (hskip : (s.takeJob j).skips j.use.cmd = true) :
    checkJob s = (((s.takeJob j).jobDone j true none).pumpPln).settle := by
  rw [checkJob_of_next hstop hfills hwrites hnext hmodel]
  simp only [hskip, if_true]
end

/-! SEARCH_TIMEOUT, R277 -/

theorem searchTimeout_of_late {id : Nat} {r : Search} (hfind : s.pln.searches.find? (fun r => r.cmd == id) = some r)
    (hstate : r.state = .searching) (hrun : s.isRunning id = true) (hlate : r.deadline ≤ s.now + r.reserve) :
    searchTimeout id s = (s.searchLate r).pumpPln.settle := by
  rw [searchTimeout, hfind]
  exact if_pos ⟨hstate, hrun, hlate⟩

/-! PLAN_SEARCH, R275, R276 -/

/-- Whether the search expands a lattice; else it ranks candidates. -/
def Cmd.lattice (c : Cmd) : Bool := c.p 0x21 1 == 0

/-- The bytes of the table of primitives or candidates. -/
def Cmd.searchTableBytes (c : Cmd) : Nat := if c.lattice then 64 * c.p 0x50 2 else 16 * c.p 0x50 2

def State.searchTable (s : State) (c : Cmd) : Bytes := s.tableAt c (c.p 0x48 8) c.searchTableBytes

/-- The rows of the lattice's primitives. -/
def State.lprimRows (s : State) (c : Cmd) : List Bytes := (List.range (c.p 0x50 2)).map fun i => cut (s.searchTable c) (64 * i) 64

/-- The candidate paths; a lattice has none. -/
def State.candPaths (s : State) (c : Cmd) (links : Nat) : Except Nat (List (W32 × List Way)) :=
  if c.lattice then .ok [] else s.readPaths c links (c.p 0x52 2) (pathHeads (s.searchTable c) (c.p 0x50 2))

/-- The search as the command's fields, its start and its table give it. -/
def State.searchOf (s : State) (c : Cmd) (m : BodyModel) (start out : Desc) (cands : List (W32 × List Way)) : Search :=
  { cmd := c.id, deadline := c.deadline, reserve := if c.p 0x5C 4 = 0 then 1000000 else c.p 0x5C 4, lattice := c.lattice, retries := c.p 0x23 1
    par := { model := c.p 0x20 1, unknownHit := (c.p 0x22 1).testBit 0, outHit := (c.p 0x22 1).testBit 1, margin := f32Rat (f32At c.params 4)
             floorZ := f32Rat (f32At c.params 0x24), step := s.chkStep (f32At c.params 0x34) }
    start := Way.parse m.links (s.rdSeen start.base (wayBytes m.links)), startTag := start.tag, goal := V3.at c.params 0x10
    posTol := f32Rat (f32At c.params 0x1C), yawTol := f32Rat (f32At c.params 0x20), vNom := f32Rat (f32At c.params 0x38), maxWp := c.p 0x52 2
    out := out.addr, outBase := out.base, prims := if c.lattice then (s.lprimRows c).map LPrim.parse else []
    cands := sortCands (cands.map fun p => Cand.mk p.1 p.2) }

/-- The search's output loses its mark and its record the magic, and the search queues. -/
def State.queueSearch (s : State) (out : Desc) (r : Search) : State :=
  let v := (s.setMark out.addr false).wr out.base (leBytes 4 0)
  { v with pln := { v.pln with searches := v.pln.searches ++ [r] } }

/-- The start and the place of the record are here, large enough and the command's to use, and the start is a waypoint of finite numbers. -/
structure State.SearchPlaces (s : State) (c : Cmd) (m : BodyModel) (start out : Desc) : Prop where
  startRoom : wayBytes m.links ≤ start.dense
  outRoom : 0x40 + wayBytes m.links * c.p 0x52 2 ≤ out.dense
  startHere : start.dev = 255
  outHere : out.dev = 255
  startRead : s.plnAccess c false start.base (wayBytes m.links) = none
  outWrite : s.plnAccess c true out.base out.dense = none
  startOk : wayOk m.links (s.rdSeen start.base (wayBytes m.links)) = true

section
variable {m : BodyModel} {start out : Desc}

theorem State.SearchPlaces.descsOk (h : s.SearchPlaces c m start out) :
    decide (start.dense < wayBytes m.links ∨ out.dense < 0x40 + wayBytes m.links * c.p 0x52 2 ∨ start.dev ≠ 255 ∨ out.dev ≠ 255) = false := by
  obtain ⟨hstart, hout, hhere, hthere, -⟩ := h
  exact decide_eq_false (by omega)

theorem planSearch_of_readable {cands : List (W32 × List Way)} (hmodel : s.model? (c.p 0x20 1) = some m) (hon : s.gridOn = true)
    (hforeign : s.foreignGrid c.part = false) (hok : s.searchOk c = true) (hstart : s.readDesc c (c.p 0x28 8) = .ok start)
    (hout : s.readDesc c (c.p 0x60 8) = .ok out) (hplaces : s.SearchPlaces c m start out)
    (hread : s.tableErr c.tableReq (c.p 0x48 8) c.searchTableBytes = none) (hcands : s.candPaths c m.links = .ok cands)
    (hprims : c.lattice = true → ∀ r ∈ s.lprimRows c, lprimOk r = true) :
    planSearch c s = (s.queueSearch out (s.searchOf c m start out cands)).pumpPln := by
  have hrows : ¬ (c.lattice && !((s.lprimRows c).all lprimOk)) = true := by
    intro h
    obtain ⟨hlattice, hbad⟩ := Bool.and_eq_true_iff.mp h
    rw [List.all_eq_true.mpr (hprims hlattice)] at hbad
    cases hbad
  rw [planSearch]
  simp only [hmodel]
  rw [s.firstFail_of_all_false c _ (by simp [hon, hforeign, hok])]
  simp only [hstart, hout]
  rw [s.firstFail_of_all_false c _
    (by simp only [List.forall_mem_cons, hplaces.descsOk, hplaces.startRead, hplaces.outWrite, hplaces.startOk]; simp)]
  refine (State.withTable_of_readable _ hread).trans ?_
  rw [State.candPaths, State.searchTable, Cmd.lattice] at hcands
  rw [hcands]
  exact if_neg hrows
end

/-! The obligation -/

/-- Settles O28: what is due at the head of its queue is done, and a search whose descriptors, start and table pass the checks of its row queues.
That a stop record is built, checked and written in one step and before the other jobs is the model's choice (log entry 57), and so are a lattice's
one job per edge and its count of expanded nodes (log entry 56). -/
theorem plannerJobsComplete : Obligations.PlannerJobsComplete := by
  unfold Obligations.PlannerJobsComplete
  intro dt id s
  refine ⟨?fill, ?job, ?late, ?stop, ?search, ?stopJob⟩
  case fill => exact fun f r hfills hhold => completes_event rfl rfl (gridFill_of_unheld hfills hhold)
  case job =>
    exact fun j m hstop hfills hwrites hnext hmodel =>
      ⟨fun hskip => completes_event rfl rfl (checkJob_of_checked hstop hfills hwrites hnext hmodel hskip),
        fun hskip => completes_event rfl rfl (checkJob_of_skipped hstop hfills hwrites hnext hmodel hskip)⟩
  case late => exact fun r hfind hstate hrun hlate => completes_event rfl rfl (searchTimeout_of_late hfind hstate hrun hlate)
  case stop => exact fun hdue => completes_event rfl rfl (stopRecordBuild_of_due hdue)
  case search =>
    exact fun c m start out cands hr hmodel hon hforeign hok hstart hout hstartRoom houtRoom hstartHere houtHere hstartRead houtWrite hstartOk
        hread hcands hprims =>
      completes_cmd rfl rfl hr (planSearch_of_readable hmodel hon hforeign hok hstart hout
        ⟨hstartRoom, houtRoom, hstartHere, houtHere, hstartRead, houtWrite, hstartOk⟩ hread hcands hprims)
  case stopJob => exact fun hdue => completes_event rfl rfl (checkJob_of_stopDue hdue)

end Sys2Proof.Machine
end

section
/-! The rows of the tensor and attention kernels (R296, R303, R305 to R308, R349 to R353), and their obligation. -/
namespace Sys2Proof.Machine
variable {s : State} {c : Cmd} {j : TJob}

/-! A started descriptor -/

/-- A core outside the window schedule overruns no window, R120. -/
theorem State.chargeOverrun_of_unscheduled {l : Nat} (part : Nat) (h : s.inSchedule l = false) : s.chargeOverrun l part = s :=
  if_neg fun ⟨hin, _⟩ => absurd (h.symm.trans hin) Bool.false_ne_true

theorem State.foldl_chargeOverrun_of_unscheduled (h : ∀ l, s.inSchedule l = false) (l : List TJob) :
    l.foldl (fun (s : State) j => s.chargeOverrun j.core j.part) s = s := by
  induction l with
  | nil => rfl
  | cons j l ih => rw [List.foldl_cons, State.chargeOverrun_of_unscheduled j.part (h j.core), ih]

/-- An unchecked descriptor whose tensors read without error leaves what its kernel computes, and ends. -/
theorem State.runJob_of_unchecked (hin : s.inSchedule j.core = false) (hread : ∀ e ∈ j.ds, s.tensorUe e.2 = none) (hband : j.band = 0) :
    s.runJob j = s.afterKernel j (s.kernelOf j s.freeCtr) := by
  have hins : ((j.ds.filter fun e => !(j.outs.contains e.1) || opReads j.raw e.1).findSome? fun e => s.tensorUe e.2) = none :=
    List.findSome?_eq_none_iff.mpr fun e he => hread e (List.mem_filter.mp he).1
  unfold State.runJob
  dsimp only
  rw [State.chargeOverrun_of_unscheduled j.part hin, hins]
  exact if_pos hband

/-! The kernel that the opcode of a descriptor names, R303 -/

theorem State.kernelOf_matmul {ctr : Nat} (h : numAt j.raw 0 1 = 1) : s.kernelOf j ctr = s.matmul (mmOf j.raw j.ds) ctr := by
  simp only [State.kernelOf, h]

theorem State.kernelOf_vector {ctr : Nat} (h : numAt j.raw 0 1 = 2) : s.kernelOf j ctr = s.vector (vecOf j.raw j.ds) ctr := by
  simp only [State.kernelOf, h]

theorem State.kernelOf_spconv {ctr : Nat} (h : numAt j.raw 0 1 = 3) : s.kernelOf j ctr = s.spconv (s.spOf j.raw j.ds) ctr := by
  simp only [State.kernelOf, h]

theorem State.kernelOf_attnFwd {ctr : Nat} (h : numAt j.raw 0 1 = 4) :
    s.kernelOf j ctr = s.attnFwd (s.attnOf j.raw j.ds ctr) (ctr + 1) j.units (tdescD j.ds 0x28) (tdesc j.ds 0x30) := by
  simp only [State.kernelOf, h]

theorem State.kernelOf_attnBwd {ctr : Nat} (h : numAt j.raw 0 1 = 5) :
    s.kernelOf j ctr = s.attnBwd (bwdOf (s.attnOf j.raw j.ds ctr) j.ds) (ctr + 1) j.units := by
  simp only [State.kernelOf, h]

/-! Paged walks, R350 -/

/-- The started descriptors of a command are taken as run. -/
def State.ranStarted (s : State) (id : Nat) : State :=
  s.setTar fun t => { t with jobs := t.jobs.map fun (x : TJob) => if x.cmd = id ∧ x.started = true then { x with ran := true } else x }

/-- A walk with pages left only takes its started descriptors as run. -/
theorem State.pagedFwd_of_unfinished {w : KvWalk} (hwalk : s.kv.walks.find? (fun w => w.cmd == c.id) = some w) (htodo : w.todo ≠ [])
    (hin : ∀ l, s.inSchedule l = false) : s.pagedFwd c = s.ranStarted c.id := by
  unfold State.pagedFwd
  dsimp only
  rw [State.foldl_chargeOverrun_of_unscheduled hin, show (s.setTar _).kv.walks.find? _ = some w from hwalk]
  split
  next w' last hw _ =>
    cases hw
    exact if_neg fun ⟨hdone, _⟩ => htodo (List.isEmpty_iff.mp hdone)
  next => rfl

/-! The rows -/

/-- Command `id` is RUNNING with the row's code; whether its row has run before does not matter. -/
structure State.FindsRunning (s : State) (id code : Nat) (c : Cmd) : Prop where
  found : s.cmd? id = some c
  running : c.state = .running
  code : c.code = code

section
variable {dt id : Nat}

theorem completes_tensor {i : Instr} {code : Nat} (hc : (s.elapse dt).FindsRunning id code c) (h : exec i s = runTensor code dt id s)
    (hd : i.dt = dt) : Completes i s (((s.elapse dt).readyJobs id).foldl State.runJob (s.atRow dt id)).settle := by
  refine completes_event h hd ?_
  rw [hc.found]
  exact if_pos ⟨hc.running, hc.code⟩

/-- ATTN_FWD runs its started descriptors like any tensor row unless the command walks pages, R350. -/
theorem completes_attnFwd (hc : (s.elapse dt).FindsRunning id 0x0610 c) :
    Completes (.attnFwd dt id) s
      (if (s.elapse dt).kv.walks.any fun w => w.cmd == id then (s.atRow dt id).pagedFwd c
       else ((s.elapse dt).readyJobs id).foldl State.runJob (s.atRow dt id)).settle := by
  have hrow : exec (.attnFwd dt id) s = execAttnFwd dt id s := rfl
  refine completes_event hrow rfl ?_
  rw [hc.found]
  exact if_pos ⟨hc.running, hc.code⟩

theorem completes_attnFwd_flat (hc : (s.elapse dt).FindsRunning id 0x0610 c) (hflat : ((s.elapse dt).kv.walks.any fun w => w.cmd == id) = false) :
    Completes (.attnFwd dt id) s (((s.elapse dt).readyJobs id).foldl State.runJob (s.atRow dt id)).settle := by
  have h := completes_attnFwd hc
  rwa [hflat] at h

theorem completes_attnFwd_paged (hc : (s.elapse dt).FindsRunning id 0x0610 c) (hpaged : ((s.elapse dt).kv.walks.any fun w => w.cmd == id) = true) :
    Completes (.attnFwd dt id) s ((s.atRow dt id).pagedFwd c).settle := by
  have h := completes_attnFwd hc
  rwa [hpaged] at h

/-- The one descriptor that is ready is what the row runs; that the row has started changes nothing that a run reads. -/
theorem completes_ready {i : Instr} {code : Nat} (hready : Ready (s.elapse dt) id code c j) (hband : j.band = 0)
    (h : (s.elapse dt).FindsRunning id code c → Completes i s (((s.elapse dt).readyJobs id).foldl State.runJob (s.atRow dt id)).settle) :
    Completes i s ((s.atRow dt id).afterKernel j ((s.atRow dt id).kernelOf j (s.atRow dt id).freeCtr)).settle := by
  obtain ⟨hfound, hrun, hcode, hone, hin, hread⟩ := hready
  have hrow := h ⟨hfound, hrun, hcode⟩
  rw [hone] at hrow
  rwa [← State.runJob_of_unchecked (s := s.atRow dt id) hin hread hband]
end

/-! The obligation -/

/-- Settles O29: a row runs the started descriptors of its command in queue order, and one that is unchecked leaves what the kernel of its opcode
computes. -/
theorem tensorRowsComplete : Obligations.TensorRowsComplete := by
  unfold Obligations.TensorRowsComplete
  intro dt id s c j u v
  refine ⟨?matmul, ?vector, ?spconv, ?chain, ?fwd, ?walk, ?bwd, ?rows, ?paged⟩
  case matmul =>
    intro hready hband hop
    rw [← State.kernelOf_matmul hop]
    exact completes_ready hready hband fun hc => completes_tensor hc rfl rfl
  case vector =>
    intro hready hband hop
    rw [← State.kernelOf_vector hop]
    exact completes_ready hready hband fun hc => completes_tensor hc rfl rfl
  case spconv =>
    intro hready hband hop
    rw [← State.kernelOf_spconv hop]
    exact completes_ready hready hband fun hc => completes_tensor hc rfl rfl
  case chain =>
    exact fun hready hband => completes_ready hready hband fun hc => completes_tensor hc rfl rfl
  case fwd =>
    intro hready hband hop hflat
    rw [← State.kernelOf_attnFwd hop]
    exact completes_ready hready hband fun hc => completes_attnFwd_flat hc hflat
  case walk =>
    intro w hfound hrun hcode hid hwalk htodo hin
    have hmine := List.find?_some hwalk
    have hpaged : (u.kv.walks.any fun w => w.cmd == id) = true := List.any_eq_true.mpr ⟨w, List.mem_of_find?_eq_some hwalk, hmine⟩
    have hrow := completes_attnFwd_paged ⟨hfound, hrun, hcode⟩ hpaged
    subst hid
    rwa [State.pagedFwd_of_unfinished (s := s.atRow dt c.id) hwalk htodo hin] at hrow
  case bwd =>
    intro hready hband hop
    rw [← State.kernelOf_attnBwd hop]
    exact completes_ready hready hband fun hc => completes_tensor hc rfl rfl
  case rows =>
    intro row code hmem hfound hrun hcode hflat
    have hc : u.FindsRunning id code c := ⟨hfound, hrun, hcode⟩
    simp only [List.mem_cons, Prod.mk.injEq, List.not_mem_nil, or_false] at hmem
    obtain ⟨rfl, rfl⟩ | ⟨rfl, rfl⟩ | ⟨rfl, rfl⟩ | ⟨rfl, rfl⟩ | ⟨rfl, rfl⟩ | ⟨rfl, rfl⟩ := hmem
    · exact completes_tensor hc rfl rfl
    · exact completes_tensor hc rfl rfl
    · exact completes_tensor hc rfl rfl
    · exact completes_tensor hc rfl rfl
    · exact completes_attnFwd_flat hc hflat
    · exact completes_tensor hc rfl rfl
  case paged => exact fun hfound hrun hcode hpaged => completes_attnFwd_paged ⟨hfound, hrun, hcode⟩ hpaged

end Sys2Proof.Machine
end

section
/-! The commands that seed and read cores, load bands and configure frame sets (R299, R303, R430, R433), and their obligation. -/
namespace Sys2Proof.Machine
variable {s : State} {c : Cmd}

/-! TENSOR_RNG_SEED and TENSOR_CORE_STATUS, R299, R303 -/

/-- A seed that has a bit set is kept for the mapped core that the command names. -/
theorem tensorRngSeed_of_core {p : Nat} (hseed : leVal (cut c.params 8 16) ≠ 0) (hone : c.p 0x20 1 ≠ 0xFF) (hp : s.physOf (c.p 0x20 1) = some p) :
    tensorRngSeed c s = (s.seedCore p (cut c.params 8 16)).done c := by
  rw [tensorRngSeed, s.firstFail_of_all_false c _ (by simp [hseed, hp]), if_neg hone, hp]
  rfl

/-- Core number 0xFF names all 14 cores. -/
theorem tensorRngSeed_of_all (hseed : leVal (cut c.params 8 16) ≠ 0) (hall : c.p 0x20 1 = 0xFF) :
    tensorRngSeed c s = ((List.range 14).foldl (fun s p => s.seedCore p (cut c.params 8 16)) s).done c := by
  rw [tensorRngSeed, s.firstFail_of_all_false c _ (by simp [hseed, hall]), if_pos hall]

theorem tensorCoreStatus_of_mapped {p : Nat} (hp : s.physOf (c.p 0x20 1) = some p) : tensorCoreStatus c s = s.doneWith c (s.coreBank p) := by
  rw [tensorCoreStatus, hp]

/-! SAFETY_BAND_LOAD, R430 -/

/-- A checked descriptor of the partition is in a queue or under way, or a checked command of it waits. -/
def State.bandsBusy (s : State) (part : Nat) : Bool :=
  (s.tar.jobs.any fun j => j.part == part && j.band != 0) ||
    s.ccx.cmds.any fun x => x.part == part && x.state == .accepted && (x.group == 6 && x.code != 0x0604) && x.p 0x24 2 % 4096 != 0

theorem State.bandsBusy_of_unchecked {part : Nat} (hjobs : ∀ j ∈ s.tar.jobs, j.part = part → j.band = 0)
    (hcmds : ∀ x ∈ s.ccx.cmds, x.part = part → x.state = .accepted → x.group = 6 → x.code ≠ 0x0604 → x.p 0x24 2 % 4096 = 0) :
    s.bandsBusy part = false := by
  refine Bool.or_eq_false_iff.mpr ⟨List.any_eq_false.mpr fun j hj => ?job, List.any_eq_false.mpr fun x hx => ?cmd⟩
  case job =>
    simp only [Bool.and_eq_true, beq_iff_eq, bne_iff_ne]
    exact fun ⟨hpart, hband⟩ => hband (hjobs j hj hpart)
  case cmd =>
    simp only [Bool.and_eq_true, beq_iff_eq, bne_iff_ne]
    exact fun ⟨⟨⟨hpart, hstate⟩, hgroup, hcode⟩, hband⟩ => hband (hcmds x hx hpart hstate hgroup hcode)

/-- The n bands of a table: abs_tol, rel_tol, bad_ppm and nan_equal. -/
def bandsAt (b : Bytes) (n : Nat) : List (W32 × W32 × Nat × Bool) := (List.range n).map fun (i : Nat) =>
  (f32At b (16 * i), f32At b (16 * i + 4), numAt b (16 * i + 8) 4, (numAt b (16 * i + 12) 4).testBit 0)

theorem safetyBandLoad_of_idle (hlo : 1 ≤ c.p 0x20 2) (hhi : c.p 0x20 2 ≤ 4095) (hidle : s.bandsBusy c.part = false)
    (hread : s.tableErr c.tableReq (c.p 0x28 8) (16 * c.p 0x20 2) = none)
    (hrange : ∀ i < c.p 0x20 2, numAt (s.tableAt c (c.p 0x28 8) (16 * c.p 0x20 2)) (16 * i + 8) 4 ≤ 1000000) :
    safetyBandLoad c s =
      (s.setPart c.part { s.part c.part with bands := bandsAt (s.tableAt c (c.p 0x28 8) (16 * c.p 0x20 2)) (c.p 0x20 2) }).done c := by
  have hsize : decide (c.p 0x20 2 = 0 ∨ 4095 < c.p 0x20 2) = false := decide_eq_false (by omega)
  rw [State.bandsBusy] at hidle
  rw [safetyBandLoad, s.firstFail_of_all_false c _ (by simp only [List.forall_mem_cons]; exact ⟨hsize, hidle, by simp⟩)]
  refine (State.withTable_of_readable _ hread).trans (if_neg ?_)
  simp only [List.any_eq_true, List.mem_range, decide_eq_true_eq]
  exact fun ⟨i, hi, hover⟩ => Nat.not_lt.mpr (hrange i hi) hover

/-! SAFETY_FRAMESET_CONFIG, R433 -/

/-- The fields of SAFETY_FRAMESET_CONFIG are in their ranges, and the record is a line of HBM or Staging. -/
structure Cmd.FrameSetInRange (c : Cmd) : Prop where
  set : 1 ≤ c.p 0x20 1 ∧ c.p 0x20 1 ≤ 15
  sample : c.p 0x21 1 ≠ 1 ∧ c.p 0x21 1 ≤ 64
  aligned : c.p 0x28 8 % 64 = 0
  place : inside (c.p 0x28 8) 64 0 hbmSize = true ∨ inside (c.p 0x28 8) 64 stagingBase stagingSize = true

theorem Cmd.FrameSetInRange.fieldsOk (h : c.FrameSetInRange) :
    (decide (c.p 0x20 1 = 0 ∨ 15 < c.p 0x20 1 ∨ c.p 0x21 1 = 1 ∨ 64 < c.p 0x21 1 ∨ c.p 0x28 8 % 64 ≠ 0) ||
      !(inside (c.p 0x28 8) 64 0 hbmSize || inside (c.p 0x28 8) 64 stagingBase stagingSize)) = false := by
  obtain ⟨⟨hsetLo, hsetHi⟩, ⟨hsampleOne, hsampleHi⟩, haligned, hplace⟩ := h
  have hfields : ¬ (c.p 0x20 1 = 0 ∨ 15 < c.p 0x20 1 ∨ c.p 0x21 1 = 1 ∨ 64 < c.p 0x21 1 ∨ c.p 0x28 8 % 64 ≠ 0) := by omega
  rw [decide_eq_false hfields, Bool.or_eq_true_iff.mpr hplace]
  rfl

theorem safetyFramesetConfig_of_writable (hf : c.FrameSetInRange) (haccess : s.access (.part c.part) .other true (c.p 0x28 8) 64 = none) :
    safetyFramesetConfig c s =
      (s.putFrame { part := c.part, set := c.p 0x20 1, sampleN := c.p 0x21 1, recAddr := c.p 0x28 8 }).done c := by
  rw [safetyFramesetConfig, s.firstFail_of_all_false c _ (by simp only [List.forall_mem_cons]; exact ⟨hf.fieldsOk, by simp⟩), haccess]

/-! The obligation -/

/-- Settles O30: with fields in range, a mapped core and memory that the command may read or write, none of the four is refused. That core numbers
are logical, and that a seed of zeros is not taken, are the model's readings (log entry 60). -/
theorem tensorCommandsComplete : Obligations.TensorCommandsComplete := by
  unfold Obligations.TensorCommandsComplete
  intro dt id s c u
  refine ⟨?seedOne, ?seedAll, ?status, ?bands, ?frames⟩
  case seedOne => exact fun p hr hseed hone hp => completes_cmd rfl rfl hr (tensorRngSeed_of_core hseed hone hp)
  case seedAll => exact fun hr hseed hall => completes_cmd rfl rfl hr (tensorRngSeed_of_all hseed hall)
  case status => exact fun p hr hp => completes_cmd rfl rfl hr (tensorCoreStatus_of_mapped hp)
  case bands =>
    exact fun hr hlo hhi hjobs hcmds hread hrange =>
      completes_cmd rfl rfl hr (safetyBandLoad_of_idle hlo hhi (State.bandsBusy_of_unchecked hjobs hcmds) hread hrange)
  case frames =>
    exact fun hr hsetLo hsetHi hsampleOne hsampleHi haligned hplace haccess =>
      completes_cmd rfl rfl hr (safetyFramesetConfig_of_writable ⟨⟨hsetLo, hsetHi⟩, ⟨hsampleOne, hsampleHi⟩, haligned, hplace⟩ haccess)

end Sys2Proof.Machine
end

section
/-! The queue and the time of every step (log entries 1 and 2), and the rows of host commands that find no command of theirs (log entry 8). -/
namespace Sys2Proof.Machine
variable {s : State}

/-- Settles O49: a step looks at the queue only. That an empty queue idles is the model's choice (log entry 1). -/
theorem stepRunsFrontCommand : Obligations.StepRunsFrontCommand := by
  unfold Obligations.StepRunsFrontCommand step
  exact fun s => ⟨fun c rest hq => by rw [hq], fun hq => by rw [hq]⟩

/-- Settles O50: every row ends with its close, which puts the queue back and lets the row's ticks pass (log entries 1 and 2, the model's choice). -/
theorem queueAndTime : Obligations.QueueAndTime := by
  unfold Obligations.QueueAndTime
  intro i s
  obtain ⟨t, ht⟩ := exec_closes i s
  exact ⟨_, ht, s.close_pending i.dt t, s.close_ticks i.dt t⟩

/-! A row that finds no command of its own -/

/-- No command of this number is RUNNING with this code. -/
def State.NotRunning (s : State) (id code : Nat) : Prop := ∀ c, s.cmd? id = some c → c.code ≠ code ∨ c.state ≠ .running

section
variable {i : Instr} {dt id code : Nat} (h : s.NotRunning id code)
include h

theorem State.NotRunning.runs : (s.elapse dt).runs id code = none := by
  unfold State.runs
  split
  · next c hc =>
    refine if_neg fun ⟨hrun, hcode, _⟩ => ?_
    exact (h c hc).elim (· hcode) (· hrun)
  · rfl

theorem completes_runCmd_idle {f : Cmd → State → State} (hexec : exec i s = runCmd dt id code f s) (hd : i.dt = dt) :
    Completes i s (s.elapse i.dt) := by
  subst hd
  rw [Completes, hexec, runCmd, h.runs]

theorem completes_runKv_idle {f : Cmd → State → State × Bool} (hexec : exec i s = runKv dt id code f s) (hd : i.dt = dt) :
    Completes i s (s.elapse i.dt) :=
  completes_event hexec hd (by subst hd; simp only [h.runs])

theorem completes_runMove_idle {f : Cmd → MoveJob → State → State} (hexec : exec i s = runMove dt id code f s) (hd : i.dt = dt) :
    Completes i s (s.elapse i.dt) :=
  completes_event hexec hd (by subst hd; simp only [h.runs])

/-- A row that looks for its command's state and code itself does nothing either. -/
theorem completes_ownCode_idle (f : Cmd → State → State) (hd : i.dt = dt)
    (hexec : exec i s = runEvent dt (fun s => match s.cmd? id with
      | some c => if c.state = .running ∧ c.code = code then f c s else s
      | none => s) s) : Completes i s (s.elapse i.dt) := by
  refine completes_event hexec hd ?_
  subst hd
  cases hc : s.cmd? id with
  | none => simp only [show (s.elapse i.dt).cmd? id = none from hc]
  | some c =>
    have hidle : ¬(c.state = .running ∧ c.code = code) := fun ⟨hrun, hcode⟩ => (h c hc).elim (· hcode) (· hrun)
    simp only [show (s.elapse i.dt).cmd? id = some c from hc, if_neg hidle]

end

/-- The row of MOVE_COLLECTIVE as a map of the state. -/
def collectiveRow (id : Nat) (s : State) : State := match s.runs id 0x0740, s.mmv.colls.find? fun k => k.cmd == id with
  | some c, some k => if k.recs.length + 1 = k.n then (moveCollective c k (s.start id)).settle else s
  | _, _ => s

/-- Settles O53: every row of a command asks for a running command with its own code before anything else (log entry 8, the model's choice). -/
theorem hostRowIdle : Obligations.HostRowIdle := by
  unfold Obligations.HostRowIdle
  intro i n code s hi hidle
  have h : s.NotRunning n code := hidle
  cases i
  case kvInit | kvPoolCreate | kvCellarConfig | kvSeqCreate | kvSeqFork | kvSeqTruncate | kvSeqRelease | kvAppend | kvPublish | kvPrefetch |
      kvSeqSend | kvSeqRecv | kvSetRole | kvSeqStatus | safetyTrajOffer | secWeightRelease =>
    cases hi
    exact completes_runKv_idle h rfl rfl
  case moveCopy | moveConcat | moveGather | moveScatter | moveQueueRead =>
    cases hi
    exact completes_runMove_idle h rfl rfl
  case tensorMatmul | tensorVector | tensorSpconv | tensorChain | attnBwd =>
    cases hi
    exact completes_ownCode_idle h (fun _ s => ((s.readyJobs _).foldl State.runJob (s.start _)).settle) rfl rfl
  case attnFwd =>
    cases hi
    exact completes_ownCode_idle h (fun c s => (if s.kv.walks.any fun w => w.cmd == _ then (s.start _).pagedFwd c
      else (s.readyJobs _).foldl State.runJob (s.start _)).settle) rfl rfl
  case moveCollective =>
    cases hi
    exact completes_event (f := collectiveRow n) rfl rfl (by simp only [collectiveRow, h.runs]; rfl)
  case planGridWrite =>
    cases hi
    exact completes_event (f := gridWriteRow n) rfl rfl (by simp only [gridWriteRow, h.runs]; rfl)
  case churnAssociate =>
    cases hi
    exact completes_event rfl rfl (by simp only [assocRow, h.runs]; rfl)
  all_goals cases hi
  all_goals exact completes_runCmd_idle h rfl rfl

end Sys2Proof.Machine
end

section
/-! The commands of the arbiters and of memory errors (R395, R396, R436), and their obligation. -/
namespace Sys2Proof.Machine
variable {s : State} {c : Cmd}

/-- MEM_ARB_CONFIG has bit i of its mask set: the field i is given. -/
def Cmd.arbGives (c : Cmd) (i : Nat) : Bool := (c.p 0x22 1).testBit i

/-- The burst that the checker-core arbiter's slack is reckoned with, R395. -/
def State.arbBurst (s : State) (c : Cmd) : Nat := if c.arbGives 0 then c.p 0x24 2 else s.fldOf (.mmvArbCtl 56) 0 13

/-- The urgency that stands once the command is applied to the checker-core arbiter. -/
def State.arbUrgency (s : State) (c : Cmd) : Nat := if c.arbGives 1 then c.p 0x28 4 else s.fldOf (.mmvArbUrgency 56) 0 32

/-- The fields that MEM_ARB_CONFIG gives are in range, and it leaves the ranks of the reflex lane and the slack of starter frames alone, R395. -/
structure State.ArbInRange (s : State) (c : Cmd) : Prop where
  arbiter : c.p 0x20 2 ≤ 57
  burst : c.arbGives 0 = true → 1 ≤ c.p 0x24 2 ∧ c.p 0x24 2 ≤ 4096
  urgency : c.arbGives 1 = true → c.p 0x28 4 ≤ 100000000
  window : c.arbGives 2 = true → 1024 ≤ c.p 0x2C 4 ∧ c.p 0x2C 4 ≤ 1048576 ∧ c.p 0x2C 4 % 64 = 0
  ranks : c.arbGives 3 = true → ∀ i < 32, c.p (0x30 + i) 1 ≤ 31
  lane : c.arbGives 3 = true → c.p 0x20 2 < 48 →
    c.p (0x30 + 26) 1 = s.arbRank (c.p 0x20 2) 26 ∧ c.p (0x30 + 27) 1 = s.arbRank (c.p 0x20 2) 27
  slack : c.p 0x20 2 = 56 → (s.arbBurst c + 1) * 1000 < s.arbUrgency c

/-- The fields given are written, with this burst and this urgency. -/
def State.giveArb (s : State) (c : Cmd) (burst urg : Nat) : State :=
  let n := c.p 0x20 2
  let s := if c.arbGives 0 then s.setFldOf (.mmvArbCtl n) 0 13 burst else s
  let s := if c.arbGives 1 then s.setReg (.mmvArbUrgency n) (BitVec.ofNat 64 urg) else s
  let s := if c.arbGives 2 then s.setReg (.mmvArbWindow n) (BitVec.ofNat 64 (c.p 0x2C 4)) else s
  if c.arbGives 3 then (List.range 32).foldl (fun (s : State) i => s.setFldOf (.mmvArbRank n (i / 4)) (8 * (i % 4)) 5 (c.p (0x30 + i) 1)) s else s

/-- What a field's bit withholds from the write may be anything. -/
theorem State.giveArb_slack (s : State) (c : Cmd) : s.giveArb c (s.arbBurst c) (s.arbUrgency c) = s.giveArb c (c.p 0x24 2) (c.p 0x28 4) := by
  unfold State.giveArb State.arbBurst State.arbUrgency
  cases c.arbGives 0 <;> cases c.arbGives 1 <;> rfl

theorem memArbConfig_of_inRange (h : s.ArbInRange c) : memArbConfig c s = (s.giveArb c (c.p 0x24 2) (c.p 0x28 4)).done c := by
  obtain ⟨harb, hburst, hurgency, hwindow, hranks, hlane, hslack⟩ := h
  unfold memArbConfig
  extract_lets n m burst urg win rank bad lane slack starter
  refine (s.firstFail_of_all_false c _ ?_).trans rfl
  have hbad : bad = false := by
    simp only [bad, Bool.or_eq_false_iff]
    refine ⟨⟨⟨⟨decide_eq_false (Nat.not_lt.mpr harb), ?burst⟩, ?urgency⟩, ?window⟩, ?ranks⟩
    case burst => exact Bool.and_eq_false_imp.mpr fun hm => decide_eq_false (by have := hburst hm; omega)
    case urgency => exact Bool.and_eq_false_imp.mpr fun hm => decide_eq_false (Nat.not_lt.mpr (hurgency hm))
    case window => exact Bool.and_eq_false_imp.mpr fun hm => decide_eq_false (by have := hwindow hm; omega)
    case ranks =>
      refine Bool.and_eq_false_imp.mpr fun hm => List.any_eq_false.mpr fun i hi => ?_
      simpa using hranks hm i (List.mem_range.mp hi)
  have hlane : lane = false := by
    refine Bool.and_eq_false_imp.mpr fun hm => ?_
    obtain ⟨hm, hn⟩ := Bool.and_eq_true_iff.mp hm
    obtain ⟨h26, h27⟩ := hlane hm (of_decide_eq_true hn)
    simp only [rank, h26, h27, n, bne_self_eq_false, Bool.or_self]
  have hstarter : starter = false :=
    Bool.and_eq_false_imp.mpr fun hn => decide_eq_false (Nat.not_le.mpr (hslack (beq_iff_eq.mp hn)))
  simp [hbad, hlane, hstarter]

/-- The mask 7 gives the burst, the urgency and the window, and no ranks. -/
theorem memArbConfig_of_mask_seven (hn : c.p 0x20 2 ≤ 57) (hne : c.p 0x20 2 ≠ 56) (hm : c.p 0x22 1 = 7) (hb : 1 ≤ c.p 0x24 2)
    (hb' : c.p 0x24 2 ≤ 4096) (hu : c.p 0x28 4 ≤ 100000000) (hw : 1024 ≤ c.p 0x2C 4) (hw' : c.p 0x2C 4 ≤ 1048576) (hw64 : c.p 0x2C 4 % 64 = 0) :
    memArbConfig c s = (((s.setFldOf (.mmvArbCtl (c.p 0x20 2)) 0 13 (c.p 0x24 2)).setReg (.mmvArbUrgency (c.p 0x20 2))
      (BitVec.ofNat 64 (c.p 0x28 4))).setReg (.mmvArbWindow (c.p 0x20 2)) (BitVec.ofNat 64 (c.p 0x2C 4))).done c := by
  have hgives (i : Nat) (hi : i < 3) : c.arbGives i = true := by
    rw [Cmd.arbGives, hm]; revert i; decide
  have hnone : c.arbGives 3 = false := by rw [Cmd.arbGives, hm]; rfl
  have hranks : ¬ c.arbGives 3 = true := by simp [hnone]
  rw [memArbConfig_of_inRange ⟨hn, fun _ => ⟨hb, hb'⟩, fun _ => hu, fun _ => ⟨hw, hw', hw64⟩, fun h => absurd h hranks, fun h => absurd h hranks,
    fun h => absurd h hne⟩]
  simp only [State.giveArb, hgives, hnone, Nat.reduceLT, if_true, Bool.false_eq_true, if_false]

theorem memArbStatus_of_arbiter (h : c.p 0x20 2 ≤ 57) : memArbStatus c s = s.doneWith c (s.arbBank (c.p 0x20 2)) := if_neg (Nat.not_lt.mpr h)

theorem memErrStatus_of_channel (h : c.p 0x20 1 ≤ 31) :
    memErrStatus c s = s.doneWith c (leBytes 4 (s.reg (.mmvMcCe (c.p 0x20 1))).toNat ++ leBytes 4 (s.reg (.mmvMcUe (c.p 0x20 1))).toNat ++
      leBytes 8 (s.reg (.mmvMcLastUe (c.p 0x20 1))).toNat ++ leBytes 8 (s.reg (.mmvMcRmw (c.p 0x20 1))).toNat) :=
  (if_neg (by omega)).trans (if_neg (Nat.not_lt.mpr h))

theorem memErrStatus_of_staging (h : c.p 0x20 1 = 0xFF) :
    memErrStatus c s = s.doneWith c (leBytes 8 (s.reg .mmvStgEcc).toNat ++ leBytes 8 (s.reg .mmvStgLastUe).toNat) := if_pos h

/-- Settles O41: none of the three is refused in its ranges, and MEM_ARB_CONFIG writes what its mask gives. That the staging pair is answered as its
registers stand is the model's choice (log entry 72). -/
theorem memoryCommandsComplete : Obligations.MemoryCommandsComplete := by
  unfold Obligations.MemoryCommandsComplete
  intro dt id s c u
  refine ⟨?seven, ?status, ?channel, ?staging, ?config⟩
  case seven =>
    exact fun hr hn hne hm hb hb' hu hw hw' hw64 => completes_cmd rfl rfl hr (memArbConfig_of_mask_seven hn hne hm hb hb' hu hw hw' hw64)
  case status => exact fun hr hn => completes_cmd rfl rfl hr (memArbStatus_of_arbiter hn)
  case channel => exact fun hr hn => completes_cmd rfl rfl hr (memErrStatus_of_channel hn)
  case staging => exact fun hr hn => completes_cmd rfl rfl hr (memErrStatus_of_staging hn)
  case config =>
    intro n m rank burst urg a b d v hr hn hburst hurg hwin hranks hlane hslack
    refine completes_cmd rfl rfl hr ((memArbConfig_of_inRange ⟨hn, hburst, hurg, hwin, hranks, hlane, hslack⟩).trans ?_)
    rw [← State.giveArb_slack]
    rfl

end Sys2Proof.Machine
end

section
/-! The rows of the arbiters and of the patrol scrubber (R377, R386 to R392), and their obligation. -/
namespace Sys2Proof.Machine
variable {s : State}

/-! ARBITER_DECISION and ARBITER_SLICE_BOUNDARY, R386 to R390 -/

/-- The arbiter with its present grant ended, which every decision does first (log entry 72). -/
def State.arbIdle (s : State) (n : Nat) : Arb := { s.arb n with owner := none }

/-- What a decision chooses among: the parked requests and those that arrive. -/
def State.arbOffers (s : State) (n : Nat) (l : List ArbReq) : List Parked :=
  (s.arbIdle n).queue ++ l.map fun a => Parked.mk a.input a.part a.len (s.latestOf n a) s.now

section
variable {n : Nat} {l : List ArbReq} (hn : n ≤ 57)
include hn

theorem arbiterDecision_of_frozen (h : (bit (s.reg (.mmvArbCtl n)) 31 && arbFreezes n) = true) :
    arbiterDecision n l s = (s.park n (s.arbIdle n) (s.arbOffers n l)).showFrozen n true :=
  (if_neg (Nat.not_lt.mpr hn)).trans (if_pos h)

theorem arbiterDecision_of_choice {i : Nat} {dl : Bool} {r : Parked} (hfree : (bit (s.reg (.mmvArbCtl n)) 31 && arbFreezes n) = false)
    (hchoice : s.arbChoice n (s.arbIdle n) (s.arbOffers n l) = some (i, dl)) (hr : (s.arbOffers n l)[i]? = some r) :
    arbiterDecision n l s = s.grant n (s.arbIdle n) r dl ((s.arbOffers n l).eraseIdx i) := by
  rw [State.arbOffers, State.arbIdle] at *
  refine (if_neg (Nat.not_lt.mpr hn)).trans ((if_neg (Bool.eq_false_iff.mp hfree)).trans ?_)
  simp only [hchoice, hr]

theorem arbiterDecision_of_none (hfree : (bit (s.reg (.mmvArbCtl n)) 31 && arbFreezes n) = false)
    (hchoice : s.arbChoice n (s.arbIdle n) (s.arbOffers n l) = none) :
    arbiterDecision n l s = s.park n (s.arbIdle n) (s.arbOffers n l) := by
  rw [State.arbOffers, State.arbIdle] at *
  refine (if_neg (Nat.not_lt.mpr hn)).trans ((if_neg (Bool.eq_false_iff.mp hfree)).trans ?_)
  simp only [hchoice]

/-- The slice moves into the window, and the quota's fields as they stand take hold (log entry 72). -/
def State.nextSlice (s : State) (n : Nat) : Arb :=
  { s.arb n with
    cur := [], total := (s.arb n).total - s.arbWindow n / 64, slices := ((s.arb n).cur :: (s.arb n).slices).take 63
    quota := (List.range 8).map fun p => s.fldOf (.mmvArbQuota n) (8 * p) 8 }

theorem arbiterSliceBoundary_of_full (hfull : s.arbWindow n / 64 ≤ (s.arb n).total) :
    arbiterSliceBoundary n s = (s.setArb n (s.nextSlice n)).showUse n (s.nextSlice n) := if_neg (by omega)

end

/-! ARB_FREEZE_WRITE, R392 -/

/-- With no grant running a freeze takes effect at once. -/
theorem State.freeze_of_unowned {n : Nat} (v : Bool) (hfreezes : arbFreezes n = true) (hidle : (s.arb n).owner = none) :
    s.freeze n v = (s.setFldOf (.mmvArbCtl n) 31 1 (if v then 1 else 0)).showFrozen n v := by
  refine (if_pos hfreezes).trans (if_neg fun ⟨_, howner⟩ => ?_)
  have hnone : ((s.setFldOf (.mmvArbCtl n) 31 1 (if v then 1 else 0)).arb n).owner = none := hidle
  rw [hnone] at howner
  exact absurd howner (by decide)

theorem arbFreezeWrite_of_writer {n : Nat} {who : Writer} (v : Bool)
    (h : who = .p0 ∨ (who = .bivexa ∧ (n < 32 ∨ (s.mmv.retrains.any fun r => 48 + r.port == n) = true))) :
    arbFreezeWrite who n v s = s.freeze n v := by
  obtain rfl | ⟨rfl, hport⟩ := h
  · rfl
  · exact if_pos hport

/-! PATROL_SCRUB, R377, R379 -/

/-- The scrubber is enabled, memory is up and no repair of it runs. -/
structure State.Scrubs (s : State) : Prop where
  enabled : s.fldOf .mmvMemCtl 0 1 = 1
  up : s.fldOf .mmvMemStat 31 1 = 1
  idle : s.fldOf .mmvMemStat 30 1 = 0

section
variable {f : ScrubFind} (h : s.Scrubs)
include h

theorem patrolScrub_of_scrubs : patrolScrub f s =
    let t := s.scrubLine s.pwr.scrubPos f
    if t.pwr.scrubPos + 64 < hbmSize then { t with pwr := { t.pwr with scrubPos := t.pwr.scrubPos + 64 } }
    else
      let w := if decide (t.pwr.scrubFrom + t.fldOf .mmvMemCtl 8 8 * 3600000000000 < t.ns) then t.countSat .mmvMemStat 0 16 else t
      { w with pwr := { w.pwr with scrubPos := 0, scrubFrom := w.ns } } :=
  if_neg (by rw [h.enabled, h.up, h.idle]; decide)

theorem patrolScrub_of_within (hnext : (s.scrubLine s.pwr.scrubPos f).pwr.scrubPos + 64 < hbmSize) : patrolScrub f s =
    let t := s.scrubLine s.pwr.scrubPos f
    { t with pwr := { t.pwr with scrubPos := t.pwr.scrubPos + 64 } } :=
  (patrolScrub_of_scrubs h).trans (if_pos hnext)

theorem patrolScrub_of_last (hlast : hbmSize ≤ (s.scrubLine s.pwr.scrubPos f).pwr.scrubPos + 64) : patrolScrub f s =
    let t := s.scrubLine s.pwr.scrubPos f
    let w := if t.pwr.scrubFrom + t.fldOf .mmvMemCtl 8 8 * 3600000000000 < t.ns then t.countSat .mmvMemStat 0 16 else t
    { w with pwr := { w.pwr with scrubPos := 0, scrubFrom := w.ns } } := by
  refine (patrolScrub_of_scrubs h).trans ((if_neg (Nat.not_lt.mpr hlast)).trans ?_)
  simp only [decide_eq_true_eq]

end

theorem State.scrubLine_clean {a : Nat} (h : s.poisoned a 64 = false) : s.scrubLine a .clean = s :=
  (if_neg (by simp [h])).trans (if_neg (by decide))

/-- Settles O42: a decision goes by the freeze bit and the choice, a freeze by the grant that runs, and a scrub by the line that follows. That the
decision ends the present grant, that the quota takes hold at the next slice, and that Bivexa freezes a port's arbiter during a retrain only are the
model's choices (log entry 72). -/
theorem arbiterRowsComplete : Obligations.ArbiterRowsComplete := by
  unfold Obligations.ArbiterRowsComplete
  intro dt n s u x
  refine ⟨?decision, ?slice, ?freezeIdle, ?clean, ?none, ?freeze, ?scrub⟩
  case decision =>
    exact fun l hn => ⟨fun i dl r hfree hchoice hr => completes_event rfl rfl (arbiterDecision_of_choice hn hfree hchoice hr),
      fun hbit hfreezes => completes_event rfl rfl (arbiterDecision_of_frozen hn (Bool.and_eq_true_iff.mpr ⟨hbit, hfreezes⟩))⟩
  case slice => exact fun hn hfull => completes_event rfl rfl (arbiterSliceBoundary_of_full hn hfull)
  case freezeIdle => exact fun v hfreezes hidle => completes_event rfl rfl (State.freeze_of_unowned v hfreezes hidle)
  case clean =>
    intro hon hup hidle hnext hgood
    have hclean : u.scrubLine u.pwr.scrubPos .clean = u := State.scrubLine_clean hgood
    have hrow := patrolScrub_of_within (f := .clean) ⟨hon, hup, hidle⟩ (by rwa [hclean])
    rw [hclean] at hrow
    exact completes_event rfl rfl hrow
  case none => exact fun l hn hfree hchoice => completes_event rfl rfl (arbiterDecision_of_none hn hfree hchoice)
  case freeze => exact fun who v h => completes_event rfl rfl (arbFreezeWrite_of_writer v h)
  case scrub =>
    exact fun f hon hup hidle => ⟨fun hnext => completes_event rfl rfl (patrolScrub_of_within ⟨hon, hup, hidle⟩ hnext),
      fun hlast => completes_event rfl rfl (patrolScrub_of_last ⟨hon, hup, hidle⟩ hlast)⟩

end Sys2Proof.Machine
end

section
/-! SAFE_ALIVE, the monitors and the heartbeats of the standby group (R421, R440, R443), and their obligation. -/
namespace Sys2Proof.Machine
variable {s t : State}

theorem State.groupMembers_congr (hssi : t.ssi.standby.group = s.ssi.standby.group) (hnum : t.reg .mmvDevNum = s.reg .mmvDevNum) :
    t.groupMembers = s.groupMembers := by
  simp only [State.groupMembers, State.standby, State.devNum, State.fldOf, hssi, hnum]

theorem State.portOpen_congr {p : Nat} (hstat : t.reg (.mmvLinkStat p) = s.reg (.mmvLinkStat p)) (hfuncs : t.ccx.funcs = s.ccx.funcs) :
    t.portOpen p = s.portOpen p := by
  rw [State.portOpen, State.portOpen, State.linkState, State.linkState, State.fldOf, State.fldOf, State.fldOf, State.fldOf, hstat, hfuncs]

/-- A route reads the routes, the ports' states and the functions that are disabled, R327. -/
theorem State.linkRoute_congr (hreg : ∀ r, r ≠ .ccxHpMboxErr → t.reg r = s.reg r) (hfuncs : t.ccx.funcs = s.ccx.funcs) (d : Nat) :
    t.linkRoute d = s.linkRoute d := by
  have hroute (lo len : Nat) : t.fldOf (.mmvRoute d) lo len = s.fldOf (.mmvRoute d) lo len := congrArg (fld · lo len) (hreg _ nofun)
  have hopen (p : Nat) : t.portOpen p = s.portOpen p := State.portOpen_congr (hreg _ nofun) hfuncs
  simp only [State.linkRoute, hroute, hopen]

/-- With no collective under way the loss of a member ends none. -/
theorem State.loseMember_of_no_colls (d : Nat) (h : s.mmv.colls = []) : s.loseMember d = s := by
  rw [State.loseMember, h]; rfl

section
variable {d : Nat} (hready : s.ready = true) (hrole : s.standby.role ≠ 0)
include hready hrole

theorem heartbeatTx_of_due (hdue : s.standby.sentAt + s.standby.period * 1000000 ≤ s.ns) :
    heartbeatTx s = (s.modStandby fun x => { x with sentAt := s.ns }).emit (.heartbeat s.devNum) := if_pos ⟨hready, hrole, hdue⟩

variable (hmember : s.groupMembers.contains d = true)
include hmember

theorem heartbeatRx_of_member : heartbeatRx d s =
    (s.modStandby fun x => { x with seen := (d, s.ns) :: x.seen.filter fun e => e.1 != d, lost := x.lost.filter fun e => e != d }).setFldOf
      .ssiSafeStat 26 1 0 := if_pos ⟨hready, hrole, hmember⟩

/-- The loss of a member is noted and told to P0, and its collectives end. -/
def State.noteLost (s : State) (d : Nat) : State :=
  ((s.modStandby fun x => { x with lost := x.lost ++ [d] }).raise 0x080A 0 (evData [d])).loseMember d

/-- The other members that have a lower number than this device and are not lost. -/
def State.lowerMembers (s : State) (d : Nat) : List Nat :=
  (s.groupMembers.filter fun e => e != d).filter fun e => decide (e < s.devNum) && !(s.standby.lost.contains e)

/-- What a loss does to this device: with no route it is isolated, and a standby may promote itself (log entry 77). -/
def State.afterLoss (s : State) (role d : Nat) : State :=
  if s.groupMembers.all (fun e => (s.linkRoute e).isNone) then (s.setFldOf .ssiSafeStat 26 1 1).raise 0x080C 0
  else if role = 2 then
    if (s.lowerMembers d).isEmpty ∨ s.fresh.1.getLsbD 0 then s.fresh.2.promote d else s.fresh.2
  else s

theorem heartbeatMissTimeout_of_late (hnew : s.standby.lost.contains d = false)
    (hlate : s.standby.heard d + s.standby.misses * s.standby.period * 1000000 ≤ s.ns) :
    heartbeatMissTimeout d s = ((s.noteLost d).afterLoss s.standby.role d).settle := by
  refine (if_neg ?_).trans rfl
  simp [hready, hrole, hnew, hlate, hmember, -List.contains_eq_mem]

end

/-- An active member that has a route stays as it is. -/
theorem State.afterLoss_of_routed {d : Nat} (h : (s.groupMembers.any fun e => (s.linkRoute e).isSome) = true) : s.afterLoss 1 d = s := by
  refine (if_neg fun hall => ?_).trans (if_neg (by decide))
  obtain ⟨e, he, hroute⟩ := List.any_eq_true.mp h
  have hnone := List.all_eq_true.mp hall e he
  rw [Option.isNone_iff_eq_none.mp hnone] at hroute
  exact absurd hroute (by decide)

/-- Settles O45: the pins go by PORST_N and the monitors, the heartbeats by the group and its times. That a device with no route to any member is
isolated, that a heartbeat ends it, and that a free bit says whether a lower standby sees the loss are the model's choices (log entry 77). -/
theorem islandRowsComplete : Obligations.IslandRowsComplete := by
  unfold Obligations.IslandRowsComplete
  intro dt d s u
  refine ⟨?alive, ?monitor, ?tx, ?rx, ?active, ?late⟩
  case alive => exact fun hhigh halive hdue => completes_event rfl rfl (if_pos ⟨hhigh, halive, hdue⟩)
  case monitor => exact fun hhigh => completes_event rfl rfl (if_pos hhigh)
  case tx => exact fun hready hrole hdue => completes_event rfl rfl (heartbeatTx_of_due hready hrole hdue)
  case rx => exact fun hready hrole hmember => completes_event rfl rfl (heartbeatRx_of_member hready hrole hmember)
  case active =>
    intro hready hrole hmember hnew hlate hcolls hroute
    refine completes_event rfl rfl ((heartbeatMissTimeout_of_late hready (by simp [hrole]) hmember hnew hlate).trans ?_)
    have hlost : u.noteLost d = (u.modStandby fun x => { x with lost := x.lost ++ [d] }).raise 0x080A 0 (evData [d]) :=
      State.loseMember_of_no_colls d (by rw [State.raise_mmv]; exact hcolls)
    have hmembers : (u.noteLost d).groupMembers = u.groupMembers :=
      State.groupMembers_congr (by rw [hlost, State.raise_ssi]; rfl) (by rw [hlost]; exact State.raise_reg_ne _ _ _ _ (by decide))
    have hroutes (e : Nat) : (u.noteLost d).linkRoute e = u.linkRoute e :=
      State.linkRoute_congr (fun r hr => by rw [hlost]; exact State.raise_reg_ne _ _ _ _ hr) (by rw [hlost, State.raise_ccx]; rfl) e
    rw [hrole, State.afterLoss_of_routed (by simp only [hmembers, hroutes, hroute]), hlost]
  case late =>
    exact fun hready hrole hmember hnew hlate => completes_event rfl rfl (heartbeatMissTimeout_of_late hready hrole hmember hnew hlate)

end Sys2Proof.Machine
end

section
/-! The Safety group (R411, R412, R416, R427, R438, R442, R446), and its obligation. -/
namespace Sys2Proof.Machine
variable {s : State} {c : Cmd}

/-! SAFETY_CONFIG_LOAD, R427 -/

/-- What the checks of a package make of it: its acceptance, or the refusal that they give. -/
def State.loadPackage (s : State) (c : Cmd) (b : Bytes) : State :=
  match s.checkPackage b 2 with
  | .error e => s.failCmd c.id e
  | .ok (p, _, _) => match s.acceptConfig p b (Config.shake256 b 64) with
    | none => s.failCmd c.id 0x85
    | some v => v.doneWith c (leBytes 8 p.version)

/-- The package is read as SYSTEM (log entry 76). -/
theorem safetyConfigLoad_of_readable (hpart : c.part = 0) (hnew : s.configured = false)
    (hread : s.tableErr .system (c.p 0x20 8) (c.p 0x28 4) = none) :
    safetyConfigLoad c s = s.loadPackage c (s.tableAt c (c.p 0x20 8) (c.p 0x28 4)) := by
  rw [safetyConfigLoad, s.firstFail_of_all_false c _ (by simp [hpart, hnew]), State.withTableAs, hread]
  rfl

/-! SAFETY_SAFE_STATE, R438 -/

/-- The partition's entry into its safe state stops it: what a restart under way was to end with, or the count of entries, R437, R438. -/
def State.stopsIn (s : State) (p : Nat) : Bool :=
  if s.partState p = .restarting then (s.part p).safeStop else decide (s.ssi.policy.safeMax < (s.entriesOf p).length + 1)

theorem safetySafeState_of_defined (hlo : 1 ≤ c.p 0x20 1) (hhi : c.p 0x20 1 ≤ 7) (hown : c.part = 0 ∨ c.part = c.p 0x20 1)
    (hdef : s.partState (c.p 0x20 1) ≠ .undefined) (hset : s.partState (c.p 0x20 1) ≠ .defined) :
    safetySafeState c s = (s.doneWith c (leBytes 1 (if s.stopsIn (c.p 0x20 1) then 1 else 0))).enterSafe (c.p 0x20 1) 5 := by
  unfold safetySafeState
  refine (s.firstFail_of_all_false c _ ?_).trans rfl
  simp only [List.forall_mem_cons]
  refine ⟨decide_eq_false (by omega), ?own, ?state, fun _ h => nomatch h⟩
  case own => obtain h | h := hown <;> simp [h]
  case state => simp [hdef, hset]

theorem State.stopsIn_of_active {p : Nat} (h : s.partState p = .active) :
    s.stopsIn p = decide (s.ssi.policy.safeMax < (s.entriesOf p).length + 1) := if_neg (by simp [h])

/-! SAFETY_STANDBY_CONFIG, R442 -/

/-- The standby group's parameters with their defaults, joined now. -/
def State.standbyOf (s : State) (c : Cmd) : Standby :=
  { role := c.p 0x20 1, period := if c.p 0x22 2 = 0 then 10 else c.p 0x22 2, group := c.p 0x24 4
    misses := if c.p 0x28 1 = 0 then 3 else c.p 0x28 1, joined := s.ns, sentAt := s.ns }

def State.joinStandby (s : State) (c : Cmd) : State := (s.modStandby fun _ => s.standbyOf c).setFldOf .ssiSafeStat 24 2 (c.p 0x20 1)

/-- The standbys that the group lacks, from a free draw of how many there are (log entry 77); a device that leaves the group asks no more. -/
def State.lackOf (s : State) (role : Nat) : Nat := if role = 0 then 0 else s.standbyDeficit s.fresh.1.toNat

/-- A lack is told to P0. -/
def State.tellLack (s : State) (role : Nat) : State :=
  if s.lackOf role = 0 then s.fresh.2 else s.fresh.2.raise 0x080A 0 (evData [s.lackOf role])

theorem safetyStandbyConfig_of_inRange (hrole : c.p 0x20 1 ≤ 2) (hperiod : c.p 0x22 2 ≤ 100) (hgroup : c.p 0x24 4 < 2 ^ 24)
    (hmisses : c.p 0x28 1 ≤ 15) (hone : c.p 0x28 1 ≠ 1) :
    safetyStandbyConfig c s = ((s.joinStandby c).tellLack (c.p 0x20 1)).done c := by
  unfold safetyStandbyConfig
  extract_lets role period group misses
  refine (s.firstFail_of_all_false c _ ?_).trans rfl
  have hp : period ≤ 100 := by simp only [period]; split <;> omega
  have hm : 2 ≤ misses ∧ misses ≤ 15 := by simp only [misses]; split <;> omega
  simp only [List.forall_mem_cons]
  exact ⟨decide_eq_false (by omega), fun _ h => nomatch h⟩

/-! SAFETY_TRAJ_OFFER, R411 -/

/-- The points of an offered trajectory, row by row. -/
def State.offerPoints (s : State) (d : Desc) : List (List W32) := d.rows.map fun a => (s.rowCodes d a).map fun v => BitVec.ofNat 32 v

/-- The offer as the lane would swap it in, in buffer k. -/
def State.offerOf (s : State) (c : Cmd) (d : Desc) (k : Nat) : Traj :=
  { seq := 0, start := c.p 0x28 8, dtNs := c.p 0x30 4, chans := c.p 0x36 1, points := s.offerPoints d, tag := d.tag, buf := k
    swap := match s.motionLoop with | some l => l.nextRelease s.now | none => s.now }

/-- The offer's fields are in the ranges of R411. -/
structure Cmd.OfferInRange (c : Cmd) (m : Motion) : Prop where
  step : 62500 ≤ c.p 0x30 4 ∧ c.p 0x30 4 ≤ 100000000
  points : 2 ≤ c.p 0x34 2 ∧ c.p 0x34 2 ≤ 4096
  size : c.p 0x34 2 * c.p 0x36 1 ≤ 65536
  channels : c.p 0x36 1 = m.chans.length

/-- The tensor that an offer names holds its points: marked, in FP32, of the offer's shape, fresh and readable. -/
structure State.HoldsOffer (s : State) (c : Cmd) (m : Motion) (d : Desc) : Prop where
  found : s.readDesc c (c.p 0x20 8) = .ok d
  mark : d.mark = true
  here : d.dev = 255
  shape : d.hasShape [c.p 0x36 1, c.p 0x34 2] = true
  format : d.fmt = 0
  valid : d.tag.valid = true
  age : s.now ≤ d.tag.inst + m.ageLimit
  expiry : s.now ≤ d.tag.expiry
  ahead : s.now < c.p 0x28 8 + (c.p 0x34 2 - 1) * c.p 0x30 4
  access : s.tensorErr (.part c.part) .other false d = none
  good : s.tensorUe d = none

/-- The offer joins those that wait for their swap. -/
def State.takeOffer (s : State) (c : Cmd) (d : Desc) (k : Nat) : State :=
  (s.wrIsl (0xC0000 + 0x40000 * k) ((s.offerPoints d).flatMap fun p => p.flatMap fun w => leBytes 4 w.toNat)).setRfx fun r =>
    { r with offers := r.offers ++ [(c.id, s.offerOf c d k)] }

theorem safetyTrajOffer_of_allowed {m : Motion} {d : Desc} {k : Nat} (hmotion : s.ssi.rfx.motion = some m) (hpart : m.part = c.part)
    (hfree : s.offerBlocked = false) (hf : c.OfferInRange m) (h : s.HoldsOffer c m d)
    (hpoints : badPoint m (c.p 0x30 4) (s.offerPoints d) = none)
    (hstep : badStep m s.setpoint ((s.offerOf c d k).at ((s.offerOf c d k).swap : Rat)) = none) (hbuf : s.freeTraj = some k) :
    safetyTrajOffer c s = (s.takeOffer c d k, false) := by
  obtain ⟨⟨hdtLo, hdtHi⟩, ⟨hnLo, hnHi⟩, hsize, hch⟩ := hf
  have hrange : ¬(c.p 0x30 4 < 62500 ∨ 100000000 < c.p 0x30 4 ∨ c.p 0x34 2 < 2 ∨ 4096 < c.p 0x34 2 ∨ 65536 < c.p 0x34 2 * c.p 0x36 1 ∨
      c.p 0x36 1 ≠ m.chans.length) := by omega
  have hbad : (!d.mark || d.dev != 255 || !(d.hasShape [c.p 0x36 1, c.p 0x34 2])) = false := by simp [h.mark, h.here, h.shape]
  have hfresh : ¬(d.tag.expiry < s.now ∨ c.p 0x28 8 + (c.p 0x34 2 - 1) * c.p 0x30 4 ≤ s.now) :=
    not_or.mpr ⟨Nat.not_lt.mpr h.expiry, Nat.not_le.mpr h.ahead⟩
  rw [State.offerPoints] at hpoints
  unfold safetyTrajOffer
  simp only [hmotion, hpart, hfree, if_neg hrange, h.found, hbad, h.format, h.valid, if_neg (Nat.not_lt.mpr h.age), if_neg hfresh, h.access,
    h.good, hpoints, ne_eq, not_true_eq_false, Bool.false_eq_true, Bool.not_true, if_false]
  split
  · next far hfar => exact absurd (hfar.symm.trans hstep) nofun
  · rw [hbuf]
    rfl

/-! SAFETY_REFLEX_MODE, R412 -/

theorem safetyReflexMode_of_sound (hmode : c.p 0x20 1 = 2 ∨ c.p 0x20 1 = 3) (hlane : s.lane ≠ 4) :
    safetyReflexMode c s = (s.trigger 4 (c.p 0x20 1)).doneWith c (leBytes 1 s.lane) := by
  unfold safetyReflexMode
  refine (s.firstFail_of_all_false c _ ?_).trans rfl
  obtain h | h := hmode <;> simp [h, hlane]

/-! The obligation -/

/-- Settles O43: a package is taken by its checks, a safe state by the partition's state, and an offer by the checks of R411. That the package is read
as SYSTEM (log entry 76) and that a free draw says how many standbys there are (log entry 77) are the model's choices. -/
theorem safetyCommandsComplete : Obligations.SafetyCommandsComplete := by
  unfold Obligations.SafetyCommandsComplete
  intro dt id s c u
  refine ⟨?load, ?safeActive, ?status, ?leave, ?offer, ?mode, ?reflex, ?safe, ?standby⟩
  case load =>
    exact fun hr hpart hnew hread => completes_cmd rfl rfl hr (safetyConfigLoad_of_readable hpart hnew hread)
  case safeActive =>
    intro p hr hlo hhi hown hactive
    refine completes_cmd rfl rfl hr ((safetySafeState_of_defined hlo hhi hown (by rw [hactive]; decide) (by rw [hactive]; decide)).trans ?_)
    rw [State.stopsIn_of_active hactive]
    simp only [decide_eq_true_eq]
    rfl
  case status => exact fun hr => completes_cmd rfl rfl hr rfl
  case leave =>
    intro g b hr hrole hperiod hgroup hmisses hone
    refine completes_cmd rfl rfl hr ((safetyStandbyConfig_of_inRange (by omega) hperiod hgroup hmisses hone).trans ?_)
    have hlack : (u.joinStandby c).lackOf 0 = 0 := if_pos rfl
    rw [hrole, State.tellLack, if_pos hlack, State.joinStandby, State.standbyOf, hrole]
    rfl
  case offer =>
    intro d m k e start dtNs n ch pts t hr hmotion hpart hfree hdtLo hdtHi hnLo hnHi hsize hch hfound hmark hhere hshape hformat hvalid hage hexpiry
      hahead haccess hgood hpoints hstep hbuf
    exact completes_kv rfl rfl hr (safetyTrajOffer_of_allowed hmotion hpart hfree ⟨⟨hdtLo, hdtHi⟩, ⟨hnLo, hnHi⟩, hsize, hch⟩
      ⟨hfound, hmark, hhere, hshape, hformat, hvalid, hage, hexpiry, hahead, haccess, hgood⟩ hpoints hstep hbuf)
  case mode =>
    intro m hr hm hmode hlane
    subst hm
    exact completes_cmd rfl rfl hr (safetyReflexMode_of_sound hmode hlane)
  case reflex => exact fun hr => completes_cmd rfl rfl hr rfl
  case safe => exact fun hr hlo hhi hown hdef hset => completes_cmd rfl rfl hr (safetySafeState_of_defined hlo hhi hown hdef hset)
  case standby =>
    exact fun hr hrole hperiod hgroup hmisses hone => completes_cmd rfl rfl hr (safetyStandbyConfig_of_inRange hrole hperiod hgroup hmisses hone)

end Sys2Proof.Machine
end

section
/-! Fields of a register after a write of another field of it. -/
namespace Sys2Proof.Machine
variable (s : State)

theorem fld_setFld_of_disjoint {w : Nat} (v : BitVec w) {lo len lo' len' x : Nat} (hw : lo + len ≤ w) (h : lo + len ≤ lo' ∨ lo' + len' ≤ lo) :
    fld (setFld v lo' len' x) lo len = fld v lo len := by
  refine Nat.eq_of_testBit_eq fun i => ?_
  rw [testBit_fld, testBit_fld]
  by_cases hi : i < len
  · rw [bit_setFld_of_outside v (by omega) (by omega)]
  · rw [decide_eq_false hi, Bool.false_and, Bool.false_and]

@[simp] theorem State.setFldOf_reg_self (r : Reg) (lo len x : Nat) : (s.setFldOf r lo len x).reg r = setFld (s.reg r) lo len x :=
  s.setReg_reg_self r _

theorem State.fldOf_congr {s t : State} {r : Reg} (h : t.reg r = s.reg r) (lo len : Nat) : t.fldOf r lo len = s.fldOf r lo len :=
  congrArg (fld · lo len) h

theorem State.fldOf_setFldOf_self (r : Reg) {lo len : Nat} (x : Nat) (h : lo + len ≤ 64) : (s.setFldOf r lo len x).fldOf r lo len = x % 2 ^ len := by
  rw [State.fldOf, State.setFldOf_reg_self, fld_setFld_self _ h]

theorem State.fldOf_setFldOf_of_disjoint (r : Reg) {lo len lo' len' : Nat} (x : Nat) (hw : lo + len ≤ 64) (h : lo + len ≤ lo' ∨ lo' + len' ≤ lo) :
    (s.setFldOf r lo' len' x).fldOf r lo len = s.fldOf r lo len := by
  rw [State.fldOf, State.setFldOf_reg_self, fld_setFld_of_disjoint _ hw h, State.fldOf]

end Sys2Proof.Machine
end

section
/-! The reflex lane's rows (R398, R402, R403, R408, R412 to R414), and their obligation. -/
namespace Sys2Proof.Machine
variable {s : State}

/-! REFLEX_LOOP_RELEASE, R402, R403 -/

section
variable {n : Nat} {l : Loop} {noInput : Bool} (hl : s.ssi.rfx.loops[n]? = some l) (hlane : s.lane ≠ 4)
  (hdue : l.releases s.now = some noInput)
include hl hlane hdue

/-- An idle loop starts its run, with its packet or without. -/
theorem reflexLoopRelease_of_idle (hidle : l.running = false) : reflexLoopRelease n s =
    let t := s.setLoop n { l with last := l.at s.now, skipRow := 0, arrived := false, running := true, started := s.ns, noInput := noInput }
    if noInput then t.countSat (.ssiRfxLoop n) 0 16 else t := by
  simp only [reflexLoopRelease, hl, if_neg hlane, hdue, hidle, Bool.false_eq_true, if_false]

/-- A loop that runs skips its release, and a critical one that skips too many in a row is trigger OVERRUN. -/
theorem reflexLoopRelease_of_running (hrun : l.running = true) : reflexLoopRelease n s =
    let t := (s.setLoop n { l with last := l.at s.now, skipRow := l.skipRow + 1, arrived := false, cleanFrom := s.ns }).countSat (.ssiRfxLoop n) 16 16
    let t := t.raiseLim 0x0841 n 0 (evData [n, t.fldOf (.ssiRfxLoop n) 16 16])
    if l.critical = true ∧ l.skipRow + 1 = l.overrunMax then t.trigger 3 3 else t := by
  simp only [reflexLoopRelease, hl, if_neg hlane, hdue, hrun, if_true]

end

/-! REFLEX_LOOP_COMPLETE, R399, R408 -/

/-- The run is over and its operations on Island memory are done. -/
def State.ranLoop (s : State) (n : Nat) (l : Loop) (runNs : Nat) (ops : List MatrixOp) : State :=
  ops.foldl State.matrixOp ((s.fresh.2.setLoop n { l with running := false }).maxFld (.ssiRfxLoopMax n) 0 32 runNs)

/-- The payload, its tag and its mark go to the buffer that the descriptor at off names, and the entry takes the descriptor. -/
def State.commitPayload (s : State) (entry off : Nat) (b : Bytes) (tag : Tag) : State :=
  let base := leVal (s.isl off 8)
  let s := (if inside base b.length 0 0x200000 then s.wrIsl base b else s).wrIsl (off + 0x50) tag.bytes
  let s := s.wrIsl (off + 0x0A) [setBit ((s.isl (off + 0x0A) 1).headD 0) 0 true]
  s.setGey entry { s.gey entry with plDesc := 2 ^ 63 + off }

section
variable {n entry off runNs : Nat} {l : Loop} {ops : List MatrixOp} {b : Bytes}
  (hl : s.ssi.rfx.loops[n]? = some l) (hrun : l.running = true) (hlane : s.lane ≠ 4)
include hl hrun hlane

theorem reflexLoopComplete_of_running : reflexLoopComplete n entry off runNs ⟨ops, b⟩ s =
    if b.isEmpty ∨ 32 ≤ entry ∨ 0x200000 < off + 128 then s.ranLoop n l runNs ops
    else (s.ranLoop n l runNs ops).commitPayload entry off b (tagOut (s.runTags l s.fresh.1)) := by
  have hlive : ¬(l.running = false ∨ s.lane = 4) := by simp [hrun, hlane]
  simp only [reflexLoopComplete, hl, if_neg hlive]
  rfl

theorem reflexLoopComplete_of_empty : reflexLoopComplete n entry off runNs ⟨ops, []⟩ s = s.ranLoop n l runNs ops :=
  (reflexLoopComplete_of_running hl hrun hlane).trans (if_pos (.inl rfl))

theorem reflexLoopComplete_of_payload (hb : b ≠ []) (hentry : entry < 32) (hoff : off + 128 ≤ 0x200000) :
    reflexLoopComplete n entry off runNs ⟨ops, b⟩ s =
      (s.ranLoop n l runNs ops).commitPayload entry off b (tagOut (s.runTags l s.fresh.1)) := by
  refine (reflexLoopComplete_of_running hl hrun hlane).trans (if_neg ?_)
  rw [List.isEmpty_iff]
  simp only [hb, false_or]
  omega

end

/-! TRAJ_SWAP, R411, R412 -/

/-- The accepted trajectory, as the release that swaps it in numbers it. -/
def State.swapped (s : State) (t : Traj) (l : Loop) : Traj := { t with seq := s.ssi.rfx.nextSeq, swap := l.last }

/-- The lane tracks the trajectory, and what it had left for ends. -/
def State.trackTraj (s : State) (x : Traj) (rest : List (Nat × Traj)) : State :=
  ((((((s.setRfx fun r => { r with offers := rest, traj := some x, nextSeq := r.nextSeq + 1 }).toLane 1).clearTrigger 2).clearTrigger 3).clearTrigger
    4).setReg .ssiRfxTrajSeq (BitVec.ofNat 64 x.seq)).setReg .ssiRfxTrajT (BitVec.ofNat 64 x.start)

/-- The offer commits with its sequence number and its swap instant. -/
def State.commitOffer (s : State) (c : Cmd) (x : Traj) : State :=
  (s.doneWith c (leBytes 8 x.seq ++ leBytes 8 x.swap ++ leBytes 4 0xFFFFFFFF ++ leBytes 1 0)).settle

theorem trajSwap_of_due {id : Nat} {c : Cmd} {t : Traj} {l : Loop} {rest : List (Nat × Traj)} (hoffers : s.ssi.rfx.offers = (id, t) :: rest)
    (hl : s.motionLoop = some l) (hc : s.cmd? id = some c) (hrun : c.state = .running) (hdue : t.swap ≤ l.last) (hlane : s.lane ≠ 4) :
    trajSwap s = (s.trackTraj (s.swapped t l) rest).commitOffer c (s.swapped t l) := by
  have hrunning : s.isRunning id = true := by simp only [State.isRunning, hc, hrun, beq_self_eq_true]
  have hwait : ¬(l.last < t.swap ∨ s.lane = 4) := not_or.mpr ⟨Nat.not_lt.mpr hdue, hlane⟩
  have hkept : (s.trackTraj (s.swapped t l) rest).cmd? id = some c := hc
  unfold trajSwap
  simp only [hoffers, hl, hrunning, Bool.true_eq_false, if_false, if_neg hwait]
  exact (congrArg (fun o => match o with
    | some c => (s.trackTraj (s.swapped t l) rest).commitOffer c (s.swapped t l)
    | none => s.trackTraj (s.swapped t l) rest) hkept : _)

@[simp] theorem State.commitOffer_ssi (c : Cmd) (x : Traj) : (s.commitOffer c x).ssi = s.ssi := by
  rw [State.commitOffer, State.settle_ssi, State.doneWith, State.done, State.finish_ssi, State.setResult_ssi]

theorem State.commitOffer_reg_ne (c : Cmd) (x : Traj) {r : Reg} (h : r ≠ .ccxHpMboxErr) : (s.commitOffer c x).reg r = s.reg r := by
  rw [State.commitOffer, State.settle_reg_ne _ h, State.doneWith, State.done_reg_ne _ _ h, State.setResult_reg]

theorem State.commitOffer_lane (c : Cmd) (x : Traj) : (s.commitOffer c x).lane = s.lane :=
  State.fldOf_congr (State.commitOffer_reg_ne c x (by decide)) 16 3

theorem State.commitOffer_triggers (c : Cmd) (x : Traj) : (s.commitOffer c x).triggers = s.triggers :=
  State.fldOf_congr (State.commitOffer_reg_ne c x (by decide)) 8 6

@[simp] theorem State.trackTraj_ssi (x : Traj) (rest : List (Nat × Traj)) : (s.trackTraj x rest).ssi =
    { s.ssi with rfx := { s.ssi.rfx with offers := rest, traj := some x, nextSeq := s.ssi.rfx.nextSeq + 1 } } := rfl

/-- SSI_RFX_STAT of a lane that tracks: its mode is TRACK, and triggers 2 to 4 are clear. -/
theorem State.trackTraj_stat (x : Traj) (rest : List (Nat × Traj)) : (s.trackTraj x rest).reg .ssiRfxStat =
    setFld (setFld (setFld (setFld (s.reg .ssiRfxStat) 16 3 1) 10 1 0) 11 1 0) 12 1 0 := by
  rw [State.trackTraj, State.setReg_reg_ne _ _ (by decide), State.setReg_reg_ne _ _ (by decide)]
  simp only [State.clearTrigger, State.setFldOf_reg_self]
  exact congrArg (fun v => setFld (setFld (setFld v 10 1 0) 11 1 0) 12 1 0) (State.setFldOf_reg_self _ .ssiRfxStat 16 3 1)

theorem State.trackTraj_lane (x : Traj) (rest : List (Nat × Traj)) : (s.trackTraj x rest).lane = 1 := by
  rw [State.lane, State.fldOf, State.trackTraj_stat, fld_setFld_of_disjoint _ (by decide) (by decide), fld_setFld_of_disjoint _ (by decide) (by decide),
    fld_setFld_of_disjoint _ (by decide) (by decide), fld_setFld_self _ (by decide)]
  decide

theorem State.trackTraj_triggers (x : Traj) (rest : List (Nat × Traj)) {i : Nat} (h : i = 2 ∨ i = 3 ∨ i = 4) :
    (s.trackTraj x rest).triggers.testBit i = false := by
  rw [State.triggers, State.fldOf, testBit_fld, State.trackTraj_stat, bit_setFld _ (by omega), bit_setFld _ (by omega), bit_setFld _ (by omega)]
  obtain rfl | rfl | rfl := h <;> simp

/-! TRAJ_STARVED, STOP_MIRROR_COPY, R413, R414 -/

theorem trajStarved_of_over {t : Traj} (ht : s.ssi.rfx.traj = some t) (hlane : s.lane ≠ 0) (hnew : s.triggers.testBit 2 = false)
    (hover : t.start + (t.points.length - 1) * t.dtNs < s.now ∨ t.tag.expiry < s.now) : trajStarved s = (s.trigger 2 s.fbMode).settle := by
  simp only [trajStarved, ht]
  exact if_pos ⟨hlane, hnew, hover⟩

theorem stopMirrorCopy_of_record (hon : s.pln.stop.on = true) (hseq : (s.reg .plnStopSeq).toNat ≠ 0) (hup : s.pwr.mainUp = true) :
    stopMirrorCopy s = s.setRfx fun r =>
      { r with mirror := s.rd (s.pln.stop.ring + 4096 * (((s.reg .plnStopSeq).toNat - 1) % Nat.max 1 s.pln.stop.slots)) 4096 } :=
  if_neg (by simp [hon, hseq, hup])

/-! LOCKSTEP_MISMATCH, R398, R440 -/

@[simp] theorem State.failOffers_rfx : s.failOffers.ssi.rfx = { s.ssi.rfx with offers := [] } :=
  foldl_keeps (·.ssi.rfx) _ (fun t o => by
    split
    · rw [State.raiseLim_ssi, State.countSat_ssi, State.failCmd, State.endCmd_ssi]
    · rfl) _ _

theorem State.failOffers_reg_ne {r : Reg} (hm : r ≠ .ccxHpMboxErr) (hc : r ≠ .ssiRfxRefused) : s.failOffers.reg r = s.reg r :=
  foldl_keeps (·.reg r) _ (fun t o => by
    split
    · rw [State.raiseLim_reg_ne _ _ _ _ _ hm, State.countSat_reg_ne _ _ _ hc, State.failCmd, State.endCmd_reg_ne _ _ _ _ hm]
    · rfl) _ _

@[simp] theorem State.fallbackOnly_ssi (on : Bool) : (s.fallbackOnly on).ssi = s.ssi :=
  foldl_keeps (·.ssi) _ (fun t i => by dsimp only; split <;> rfl) _ _

theorem State.fallbackOnly_reg_ne (on : Bool) {r : Reg} (h : r ≠ .tnuGeyStat) : (s.fallbackOnly on).reg r = s.reg r :=
  foldl_keeps (·.reg r) _ (fun t i => by
    dsimp only
    split
    · rfl
    · exact State.setFldOf_reg_ne _ _ _ _ h) _ _

theorem State.addCause_cases (k : Nat) : (s.ssi.causes.contains k = true ∧ s.addCause k = s) ∨
    s.addCause k = (s.setSsi fun x => { x with causes := x.causes ++ [k] }).showCauses.raise 0x080D 0 (evData [k]) := by
  rw [State.addCause]
  split
  · next h => exact .inl ⟨h, rfl⟩
  · exact .inr rfl

theorem State.mem_addCause (k : Nat) : k ∈ (s.addCause k).ssi.causes := by
  obtain ⟨hin, hsame⟩ | hnew := s.addCause_cases k
  · rw [hsame]
    exact List.contains_iff_mem.mp hin
  · rw [hnew, State.raise_ssi]
    exact List.mem_append_right _ (List.mem_singleton_self k)

@[simp] theorem State.addCause_rfx (k : Nat) : (s.addCause k).ssi.rfx = s.ssi.rfx := by
  obtain ⟨_, hsame⟩ | hnew := s.addCause_cases k
  · rw [hsame]
  · rw [hnew, State.raise_ssi]; rfl

theorem State.addCause_reg_ne (k : Nat) {r : Reg} (hm : r ≠ .ccxHpMboxErr) (hs : r ≠ .ssiSafeStat) : (s.addCause k).reg r = s.reg r := by
  obtain ⟨_, hsame⟩ | hnew := s.addCause_cases k
  · rw [hsame]
  · rw [hnew, State.raise_reg_ne _ _ _ _ hm, State.showCauses, State.setFldOf_reg_ne _ _ _ _ hs, State.setFldOf_reg_ne _ _ _ _ hs]
    rfl

/-- The pair halts: the lane is in FAULT and runs no loop. -/
def State.haltLane (s : State) : State :=
  ((s.setFldOf .ssiRfxStat 16 3 4).setFldOf .ssiRfxStat 0 1 1).setRfx fun r => { r with loops := r.loops.map fun (l : Loop) => { l with running := false } }

/-- What a halted lane leaves behind: the launch entries fall back, the offers fail, and P0 is told. -/
def State.tellFault (s : State) (addr : Nat) : State := (((s.fallbackOnly true).failOffers.raise 0x0844 0 (evData [addr])).addCause 2).settle

theorem lockstepMismatch_of_sound (addr : Nat) (h : s.lane ≠ 4) : lockstepMismatch addr s = s.haltLane.tellFault addr := if_neg h

theorem State.tellFault_rfx (addr : Nat) : (s.tellFault addr).ssi.rfx = { s.ssi.rfx with offers := [] } := by
  rw [State.tellFault, State.settle_ssi, State.addCause_rfx, State.raise_ssi, State.failOffers_rfx, State.fallbackOnly_ssi]

theorem State.tellFault_cause (addr : Nat) : 2 ∈ (s.tellFault addr).ssi.causes := by
  rw [State.tellFault, State.settle_ssi]
  exact State.mem_addCause 2

theorem State.tellFault_stat (addr : Nat) : (s.tellFault addr).reg .ssiRfxStat = s.reg .ssiRfxStat := by
  have hm : (Reg.ssiRfxStat : Reg) ≠ .ccxHpMboxErr := nofun
  rw [State.tellFault, State.settle_reg_ne _ hm, State.addCause_reg_ne 2 hm nofun, State.raise_reg_ne _ _ _ _ hm, State.failOffers_reg_ne hm nofun,
    State.fallbackOnly_reg_ne _ (h := by nofun)]

theorem State.haltLane_stat : s.haltLane.reg .ssiRfxStat = setFld (setFld (s.reg .ssiRfxStat) 16 3 4) 0 1 1 := by
  rw [State.haltLane, State.setRfx_reg, State.setFldOf_reg_self, State.setFldOf_reg_self]

theorem State.haltLane_lane : s.haltLane.lane = 4 := by
  rw [State.lane, State.fldOf, State.haltLane_stat, fld_setFld_of_disjoint _ (by decide) (by decide), fld_setFld_self _ (by decide)]
  decide

theorem State.haltLane_stopped : bit (s.haltLane.reg .ssiRfxStat) 0 = true := by
  rw [State.haltLane_stat, bit_setFld _ (by decide), if_pos (by decide)]
  rfl

theorem State.tellFault_lane (addr : Nat) : (s.haltLane.tellFault addr).lane = 4 :=
  (State.fldOf_congr (State.tellFault_stat addr) 16 3).trans State.haltLane_lane

/-! The obligation -/

theorem State.close_lane (s t : State) (dt : Nat) : (s.close dt t).lane = t.lane := State.fldOf_congr (s.close_reg dt t _) 16 3

theorem State.close_triggers (s t : State) (dt : Nat) : (s.close dt t).triggers = t.triggers := State.fldOf_congr (s.close_reg dt t _) 8 6

/-- Settles O44: a release goes by whether the loop runs, a run's commit by its payload, a swap by the first offer, and FAULT halts the lane for
good. That the tags of a run are free but for its trigger's (log entry 74), and that a release's instant is fixed only as far as its schedule fixes it
(log entry 64), are the model's choices. -/
theorem reflexRowsComplete : Obligations.ReflexRowsComplete := by
  unfold Obligations.ReflexRowsComplete
  intro dt n s u
  refine ⟨?release, ?complete, ?swapLast, ?expired, ?standstill, ?mirror, ?fault, ?skip, ?swap, ?ended, ?faultState⟩
  case release =>
    refine fun l nd hl hlane hdue => ⟨fun hidle => completes_event rfl rfl (reflexLoopRelease_of_idle hl hlane hdue hidle), fun hrun hplain => ?_⟩
    exact completes_event rfl rfl ((reflexLoopRelease_of_running hl hlane hdue hrun).trans (if_neg (by simp [hplain])))
  case complete =>
    refine fun l entry off ns ops b hl hrun hlane => ⟨fun hb => ?_, fun hb hentry hoff => ?_⟩
    · subst hb
      exact completes_event rfl rfl (reflexLoopComplete_of_empty hl hrun hlane)
    · exact completes_event rfl rfl (reflexLoopComplete_of_payload hl hrun hlane hb hentry hoff)
  case swapLast =>
    intro id c t l hoffers hl hc hrun hdue hlane
    have hrow : Completes (.trajSwap dt) s _ := completes_event rfl rfl (trajSwap_of_due hoffers hl hc hrun hdue hlane)
    refine ⟨_, u.swapped t l, hrow, ?_⟩
    have hlane1 : ((u.trackTraj (u.swapped t l) []).commitOffer c (u.swapped t l)).lane = 1 :=
      (State.commitOffer_lane _ _).trans (State.trackTraj_lane _ _)
    have hrfx : ((u.trackTraj (u.swapped t l) []).commitOffer c (u.swapped t l)).ssi.rfx = _ := congrArg Ssi.rfx (State.commitOffer_ssi _ _)
    have htrig {i : Nat} (h : i = 2 ∨ i = 3 ∨ i = 4) :
        ((u.trackTraj (u.swapped t l) []).commitOffer c (u.swapped t l)).triggers.testBit i = false :=
      (congrArg (Nat.testBit · i) (State.commitOffer_triggers _ _)).trans (State.trackTraj_triggers _ _ h)
    rw [State.close_lane, State.close_triggers, State.close_ssi, hrfx]
    exact ⟨hlane1, rfl, rfl, rfl, rfl, rfl, htrig (.inl rfl), htrig (.inr (.inl rfl)), htrig (.inr (.inr rfl))⟩
  case expired => exact fun t ht hlane hnew hover => completes_event rfl rfl (trajStarved_of_over ht hlane hnew (.inr hover))
  case standstill => exact fun hlane hover => completes_event rfl rfl (if_pos ⟨hlane, hover⟩)
  case mirror => exact fun hon hseq hup => completes_event rfl rfl (stopMirrorCopy_of_record hon hseq hup)
  case fault =>
    intro a hlane
    have hrow : Completes (.lockstepMismatch dt a) s _ := completes_event rfl rfl (lockstepMismatch_of_sound a hlane)
    refine ⟨_, hrow, ?_⟩
    rw [State.close_lane, State.close_reg, State.close_ssi, State.tellFault_stat, State.tellFault_rfx]
    refine ⟨State.tellFault_lane a, State.haltLane_stopped, State.tellFault_cause a, ?_, rfl⟩
    intro l hl
    obtain ⟨_, _, rfl⟩ := List.mem_map.mp hl
    rfl
  case skip => exact fun l nd hl hlane hdue hrun => completes_event rfl rfl (reflexLoopRelease_of_running hl hlane hdue hrun)
  case swap =>
    intro id c t l rest hoffers hl hc hrun hdue hlane x v w hkept
    exact completes_event rfl rfl (trajSwap_of_due hoffers hl hc hrun hdue hlane)
  case ended => exact fun t ht hlane hnew hover => completes_event rfl rfl (trajStarved_of_over ht hlane hnew (.inl hover))
  case faultState => exact fun a hlane => completes_event rfl rfl (lockstepMismatch_of_sound a hlane)

end Sys2Proof.Machine
end

section
/-! Supplies, temperature and reference clocks (R472 to R474, R477, R483, R494, R505), and their two obligations. -/
namespace Sys2Proof.Machine
variable {s : State}

/-! SUPPLY_WARNING and its relatives, R474, R483 -/

/-- The warning bit, its count and the event of a rail. -/
def State.noteLow (s : State) (r : Rail) (mv : Nat) : State :=
  ((s.setPwrBit (railNum r) true).countSat .ssiPwrWarnCnt (8 * railNum r) 8).raiseLim 0x0A05 (railNum r) 0 (evData [railNum r, mv, s.warnMv r])

/-- What a rail below its warning level does beside the event: VCORE gates issue, VSAFE is a cause of SAFE_FAULT_N. -/
def State.reactLow (s : State) : Rail → State
  | .vcore => s.setGate (Nat.min s.gate 32)
  | .vsafe => s.addCause 5
  | .vio => s

theorem supplyWarning_of_low {r : Rail} {mv : Nat} (hhigh : s.pwr.porstHigh = true) (hnew : s.pwrBit (railNum r) = false) (hlow : mv < s.warnMv r) :
    supplyWarning r mv s = (s.noteLow r mv).reactLow r := by
  refine (if_neg ?_).trans (by cases r <;> rfl)
  rw [hhigh, hnew]
  exact fun h => h.elim nofun fun h => h.elim nofun (Nat.not_le.mpr hlow)

/-- The level that VCORE is warned at is a register of its own. -/
theorem State.warnMv_vcore_congr {t : State} (h : t.reg .ssiPwrVcoreWarn = s.reg .ssiPwrVcoreWarn) : t.warnMv .vcore = s.warnMv .vcore :=
  congrArg BitVec.toNat h

theorem supplyRestored_of_low {r : Rail} (h : s.pwrBit (railNum r) = true) : supplyRestored r s =
    let t := (s.setPwrBit (railNum r) false).raise 0x0A06 0 (evData [railNum r])
    if r = .vsafe then t.dropCause 5 else t := if_neg (by simp [h])

theorem supplyResetThreshold_of_high (r : Rail) (h : s.pwr.porstHigh = true) : supplyResetThreshold r s =
    match r with
    | .vcore => s
    | .vsafe => s.coldReset 3
    | .vio => s.coldReset 4 := if_neg (by simp [h])

theorem vcoreResetThreshold_of_new (hhigh : s.pwr.porstHigh = true) (hup : s.pwr.mainUp = true ∨ s.pwr.warm.isSome = true)
    (hnew : s.pwrBit 4 = false) : vcoreResetThreshold s = (s.setPwrBit 4 true).request 3 := if_pos ⟨hhigh, hup, hnew⟩

theorem State.syncEn_of_none (h : s.pwr.enDue = none) : s.syncEn = s := by rw [State.syncEn, h]

section
variable {w : Warm} (hwarm : s.syncEn.pwr.warm = some w) (hlow : s.syncEn.pwrBit 4 = true) (hlate : w.lowAt + 100000000 ≤ s.syncEn.ns)
include hwarm hlow hlate

/-- The first 100 ms without VCORE cycle VCORE_EN for 10 ms. -/
theorem vcoreRecoveryTimeout_of_uncycled (h : w.cycled = false) : vcoreRecoveryTimeout s =
    (s.syncEn.enOff (some (s.syncEn.ns + 10000000))).modPwr fun p =>
      { p with warm := some { w with cycled := true, lowAt := s.syncEn.ns + 10000000 } } := by
  have hwait : ¬(s.syncEn.pwrBit 4 = false ∨ s.syncEn.ns < w.lowAt + 100000000) := by rw [hlow]; simp [hlate]
  simp only [vcoreRecoveryTimeout, hwarm, if_neg hwait, h, if_true]

/-- The second ones miss the bound. -/
theorem vcoreRecoveryTimeout_of_cycled (h : w.cycled = true) (hmissed : w.missed = false) : vcoreRecoveryTimeout s =
    (s.syncEn.modPwr fun p => { p with warm := some { w with missed := true } }).addCause 3 := by
  have hwait : ¬(s.syncEn.pwrBit 4 = false ∨ s.syncEn.ns < w.lowAt + 100000000) := by rw [hlow]; simp [hlate]
  simp only [vcoreRecoveryTimeout, hwarm, if_neg hwait, h, Bool.true_eq_false, if_false, hmissed, if_true]

end

/-! TJ_SAMPLE, R477 -/

/-- The sample shows, and throttles near the maximum. -/
def State.takeTj (s : State) (tj : Int) : State := (s.showTj tj).throttleTj tj

/-- Showing and throttling leave the trip's bit alone. -/
theorem State.takeTj_tripped (tj : Int) : (s.takeTj tj).pwrBit 6 = s.pwrBit 6 := by
  have hshow : (s.showTj tj).reg .ssiPwrStat = s.reg .ssiPwrStat := State.setReg_reg_ne _ _ (by decide)
  have hnear (b : Bool) : ((s.showTj tj).setPwrBit 5 b).pwrBit 6 = s.pwrBit 6 := by
    rw [State.pwrBit, State.setPwrBit, State.modReg, State.setReg_reg_self, bit_setBit_ne _ _ (by decide) (by decide), hshow, State.pwrBit]
  rw [State.takeTj, State.throttleTj]
  split
  · rw [State.pwrBit, State.raiseLim_reg_ne _ _ _ _ _ (by decide)]
    exact hnear _
  · exact hnear _

section
variable {tj : Int} (hhigh : s.pwr.porstHigh = true)
include hhigh

theorem tjSample_of_critical (h : maxTj + 15 ≤ tj) : tjSample tj s = (s.takeTj tj).coldReset 5 :=
  (if_neg (by simp [hhigh])).trans (if_pos h)

/-- Below the critical limit a tripped part waits for its release. -/
theorem tjSample_of_released (htrip : (s.takeTj tj).pwrBit 6 = true) (hcool : tj ≤ maxTj - 15) : tjSample tj s =
    (((s.takeTj tj).setPwrBit 6 false).setPwrBit 31 true).modPwr fun p =>
      { p with riseAt := (s.takeTj tj).ns, enDue := none, warm := p.warm.map fun w => { w with boundAt := (s.takeTj tj).ns, lowAt := (s.takeTj tj).ns } } :=
  (if_neg (by simp [hhigh])).trans ((if_neg (by omega)).trans ((if_pos htrip).trans (if_pos hcool)))

theorem tjSample_of_trip (h : tj < maxTj + 15) (htrip : (s.takeTj tj).pwrBit 6 = false) (hhot : maxTj + 5 ≤ tj) :
    tjSample tj s = (((s.takeTj tj).setPwrBit 6 true).enOff none).request 4 :=
  (if_neg (by simp [hhigh])).trans ((if_neg (by omega)).trans ((if_neg (by rw [State.takeTj] at htrip; simp [htrip])).trans (if_pos hhot)))

theorem tjSample_of_cool (h : tj < maxTj + 5) (htrip : (s.takeTj tj).pwrBit 6 = false) : tjSample tj s = s.takeTj tj :=
  (if_neg (by simp [hhigh])).trans
    ((if_neg (by omega)).trans ((if_neg (by rw [State.takeTj] at htrip; simp [htrip])).trans (if_neg (by omega))))

end

/-! REFCLK_LOST and REFCLK_RESTORED, R494 -/

/-- A reference is lost and P0 is told its code. -/
def State.tellRef (s : State) (r : RefClk) (code : Nat) : State := (s.noRef r).raise 0x0A09 0 (evData [code])

/-- An event leaves the host link as it is. -/
@[simp] theorem State.queueEvent_linkUp (e : Event) : (s.queueEvent e).hp.linkUp = s.hp.linkUp := by
  rw [State.queueEvent]
  split
  · rfl
  · split
    · rfl
    · dsimp only
      split <;> rfl

@[simp] theorem State.raise_linkUp (c p : Nat) (b : Bytes) : (s.raise c p b).hp.linkUp = s.hp.linkUp := by
  rw [State.raise, State.deliver]
  split
  · rw [State.queueEvent_linkUp]; rfl
  · rfl

section
variable {r : RefClk} (h : s.pwr.refs.contains r = true)
include h

theorem refclkLost_of_present : refclkLost r s = match r with
    | .timeref => timerefLost s
    | .pcie => if (s.tellRef .pcie 0).hp.linkUp then (s.tellRef .pcie 0).linkReset false else s.tellRef .pcie 0
    | .sref0 => (s.tellRef .sref0 2).sref0Lost
    | .sref1 => (s.tellRef .sref1 3).sref1Lost :=
  (if_neg (by rw [h]; decide)).trans (by cases r <;> rfl)

end

theorem refclkLost_pcie (h : s.pwr.refs.contains .pcie = true) :
    refclkLost .pcie s = if s.hp.linkUp then (s.tellRef .pcie 0).linkReset false else s.tellRef .pcie 0 := by
  have hup : (s.tellRef .pcie 0).hp.linkUp = s.hp.linkUp := State.raise_linkUp _ _ _
  rw [refclkLost_of_present h, hup]

theorem refclkRestored_of_absent {r : RefClk} (h : s.pwr.refs.contains r = false) : refclkRestored r s = match r with
    | .timeref => timerefRestored s
    | r => s.modPwr fun p => { p with refs := p.refs ++ [r], srefAt := if r = .sref0 then s.ns else p.srefAt } :=
  (if_neg (by rw [h]; decide)).trans (by cases r <;> rfl)

/-- Settles O48: a rail goes by its level and its bit, a sample of Tj by its limits and the trip's bit, a clock by whether it was there. -/
theorem supplyRowsComplete : Obligations.SupplyRowsComplete := by
  unfold Obligations.SupplyRowsComplete
  intro dt s u
  refine ⟨?vcore, ?vsafe, ?vio, ?restored, ?reset, ?hold, ?recovered, ?cycle, ?cool, ?trip, ?critical, ?pcie, ?sref0, ?sref1, ?back, ?holdWarm,
    ?recoveredEn, ?timeout, ?release, ?pcieUp, ?timeref, ?timerefBack⟩
  case vcore =>
    intro mv hhigh hnew hlow
    refine completes_event rfl rfl ((supplyWarning_of_low (r := .vcore) hhigh hnew hlow).trans ?_)
    have hsame : ((u.setPwrBit 0 true).countSat .ssiPwrWarnCnt 0 8).warnMv .vcore = u.warnMv .vcore :=
      State.warnMv_vcore_congr ((State.countSat_reg_ne _ _ _ (by decide)).trans (State.setReg_reg_ne _ _ (by decide)))
    dsimp only
    rw [hsame]
    rfl
  case vsafe => exact fun mv hhigh hnew hlow => completes_event rfl rfl (supplyWarning_of_low (r := .vsafe) hhigh hnew hlow)
  case vio => exact fun mv hhigh hnew hlow => completes_event rfl rfl (supplyWarning_of_low (r := .vio) hhigh hnew hlow)
  case restored => exact fun r hbit => completes_event rfl rfl (supplyRestored_of_low hbit)
  case reset =>
    exact fun hhigh => ⟨completes_event rfl rfl (supplyResetThreshold_of_high .vsafe hhigh),
      completes_event rfl rfl (supplyResetThreshold_of_high .vio hhigh)⟩
  case hold => exact fun hhigh hup hnew => completes_event rfl rfl (vcoreResetThreshold_of_new hhigh (.inl hup) hnew)
  case recovered => exact fun hen => completes_event (f := fun s => s.syncEn.setPwrBit 4 false) rfl rfl (congrArg (·.setPwrBit 4 false) (State.syncEn_of_none hen))
  case cycle =>
    intro w hen
    rw [← State.syncEn_of_none hen]
    exact fun hwarm hlow hlate hfirst => completes_event rfl rfl (vcoreRecoveryTimeout_of_uncycled hwarm hlow hlate hfirst)
  case cool =>
    exact fun tj hhigh hcool htrip => completes_event rfl rfl (tjSample_of_cool hhigh hcool ((State.takeTj_tripped tj).trans htrip))
  case trip =>
    exact fun tj hhigh hhot hbelow htrip =>
      completes_event rfl rfl (tjSample_of_trip hhigh hbelow ((State.takeTj_tripped tj).trans htrip) hhot)
  case critical => exact fun tj hhigh hcrit => completes_event rfl rfl (tjSample_of_critical hhigh hcrit)
  case pcie => exact fun hpresent hdown => completes_event rfl rfl ((refclkLost_pcie hpresent).trans (if_neg (by simp [hdown])))
  case sref0 => exact fun hpresent => completes_event rfl rfl (refclkLost_of_present hpresent)
  case sref1 => exact fun hpresent => completes_event rfl rfl (refclkLost_of_present hpresent)
  case back =>
    intro r habsent hr
    refine completes_event rfl rfl ((refclkRestored_of_absent habsent).trans ?_)
    cases r
    case timeref => exact absurd rfl hr
    all_goals rfl
  case holdWarm =>
    exact fun w hhigh hwarm hnew => completes_event rfl rfl (vcoreResetThreshold_of_new hhigh (.inr (Option.isSome_of_eq_some hwarm)) hnew)
  case recoveredEn => exact completes_event (f := fun s => s.syncEn.setPwrBit 4 false) rfl rfl rfl
  case timeout =>
    intro w x hwarm hlow hlate
    exact ⟨fun hfirst => completes_event rfl rfl (vcoreRecoveryTimeout_of_uncycled hwarm hlow hlate hfirst),
      fun hagain hmissed => completes_event rfl rfl (vcoreRecoveryTimeout_of_cycled hwarm hlow hlate hagain hmissed)⟩
  case release =>
    intro tj hhigh hbelow v htrip hcool
    exact completes_event rfl rfl (tjSample_of_released hhigh htrip hcool)
  case pcieUp => exact fun hpresent hup => completes_event rfl rfl ((refclkLost_pcie hpresent).trans (if_pos hup))
  case timeref => exact fun hpresent => completes_event rfl rfl (refclkLost_of_present hpresent)
  case timerefBack => exact fun habsent => completes_event rfl rfl (refclkRestored_of_absent habsent)

/-! EV_REFCLK_LOST, R494, R505 -/

theorem State.deliver_out (e : Event) : (s.deliver e).out = s.out ++ [.p0Event e] := by
  obtain ⟨h, q | q⟩ := s.deliver_cases e <;> rw [q]
  rfl

theorem State.raise_out (c p : Nat) (b : Bytes) : (s.raise c p b).out = s.out ++ [.p0Event { code := c, part := p, inst := s.now, data := b }] :=
  s.deliver_out _

/-- What was told stays told. -/
def Tells (o : OutItem) (s : State) : Prop := o ∈ s.out

section
variable {o : OutItem}

theorem Tells.raise (h : Tells o s) (c p : Nat) (b : Bytes) : Tells o (s.raise c p b) := by
  rw [Tells, State.raise_out]
  exact List.mem_append_left _ h

theorem Tells.of_out {t : State} (h : Tells o s) (hout : t.out = s.out) : Tells o t := by rwa [Tells, hout]

theorem Tells.failCmd (h : Tells o s) (id v : Nat) : Tells o (s.failCmd id v) := h.of_out (s.endCmd_out id _ v)

theorem tells_kept (o : OutItem) : Kept (Tells o) where
  ccx _ _ h := h
  raise _ c p b h := h.raise c p b
  endCmd s id st v h := h.of_out (s.endCmd_out id st v)

theorem Tells.settle (h : Tells o s) : Tells o s.settle := (tells_kept o).settle s (h.of_out s.pruneTar_out)

theorem Tells.failAll (h : Tells o s) (v : Nat) (l : List Nat) : Tells o (l.foldl (fun s id => s.failCmd id v) s) :=
  foldl_holds (Tells o) _ (fun _ id ht => ht.failCmd id v) l s h

/-- The marks of a link reset: the lost responses are noted, and no command holds a slot. -/
def State.markLost (s : State) (lost : List Nat) : State :=
  let s := if lost.isEmpty then s else s.setFldOf .ccxHpMboxErr 1 1 1
  let s := lost.foldl (fun s id => s.updCmd id fun c => { c with responded := true }) s
  { s with ccx := { s.ccx with cmds := s.ccx.cmds.map fun (c : Cmd) => { c with rspSlot := none } } }

/-- The pushes under way end. -/
def State.failPushes (s : State) : State :=
  (s.ccx.cmds.filter fun c => c.state == .running && pushCodes.contains c.code).foldl (fun s c => s.failCmd c.id 0x40) s

theorem State.linkReset_eq (perst : Bool) : s.linkReset perst =
    ((((({ s with hp := s.hp.linkReset perst } : State).resetRegs Reg.hostPort).markLost s.hp.rspQ).failPushes).raise 0x0101 0).settle := rfl

theorem State.markLost_out (lost : List Nat) : (s.markLost lost).out = s.out := by
  refine (foldl_keeps (·.out) (fun s id => s.updCmd id fun c => { c with responded := true }) (fun _ _ => rfl) lost _).trans ?_
  split <;> rfl

theorem Tells.linkReset (h : Tells o s) (perst : Bool) : Tells o (s.linkReset perst) := by
  rw [State.linkReset_eq]
  refine Tells.settle (Tells.raise (foldl_holds (Tells o) _ (fun _ c ht => ht.failCmd c.id 0x40) _ _ ?_) _ _ _)
  exact h.of_out (State.markLost_out _)

theorem Tells.showFrozen (h : Tells o s) (n : Nat) (v : Bool) : Tells o (s.showFrozen n v) := by
  rw [State.showFrozen]
  split
  · exact h
  · refine Tells.raise ?_ _ _ _
    exact h

theorem Tells.freeze (h : Tells o s) (n : Nat) (v : Bool) : Tells o (s.freeze n v) := by
  unfold State.freeze
  extract_lets t
  have ht : Tells o t := h
  split
  · split
    · exact ht
    · exact ht.showFrozen n v
  · exact h

theorem Tells.linkDown (h : Tells o s) (p reason : Nat) (drained : Bool) : Tells o (s.linkDown p reason drained) := by
  unfold State.linkDown
  extract_lets told down
  have htold : Tells o told := by
    refine Tells.raise ?_ _ _ _
    exact h
  have hdown : Tells o down := htold
  split
  · exact hdown
  · exact hdown.failAll _ _

theorem Tells.retrainFail (h : Tells o s) (p st : Nat) : Tells o (s.retrainFail p st) := by
  unfold State.retrainFail
  split
  · next r _ =>
    extract_lets ended freed
    have hended : Tells o ended := h
    have hfreed : Tells o freed := hended.freeze _ _
    exact (hfreed.failCmd r.cmd st).failAll _ _
  · exact h

theorem Tells.emit (h : Tells o s) (x : OutItem) : Tells o (s.emit x) := List.mem_append_left _ h

theorem Tells.cause (h : Tells o s) (v : Nat) : Tells o (s.cause v) := by
  unfold State.cause
  extract_lets t
  have ht : Tells o t := h
  split
  · exact ht
  · split
    · split
      · exact ht
      · exact ht
    · unfold State.msixSend
      split
      · exact Tells.emit (s := { t with hp := _ }) ht _
      · exact ht

theorem Tells.setStage (h : Tells o s) (st : Nat) : Tells o (s.setStage st) := by
  refine Tells.cause ?_ 3
  exact h

theorem Tells.warmAgain (h : Tells o s) (w : Warm) (code : Nat) : Tells o (s.warmAgain w code) := by
  unfold State.warmAgain
  extract_lets _ _ held t
  have ht : Tells o t := h
  split
  · exact ht
  · exact ht.setStage 6

theorem Tells.request (h : Tells o s) (code : Nat) : Tells o (s.request code) := by
  unfold State.request
  extract_lets _ t
  have ht : Tells o t := h
  split
  · exact h
  · split
    · split
      · exact ht
      · exact h
    · split
      · exact ht.warmAgain _ code
      · exact ht

/-- A port loses its reference. -/
def State.portLost (s : State) (p : Nat) : State :=
  if s.linkState p = 0 then s
  else ((if s.linkState p = 5 then s.linkDown p 1 false else s.linkReason p 1).retrainFail p 0x71).linkTo p 0

theorem Tells.portLost (h : Tells o s) (p : Nat) : Tells o (s.portLost p) := by
  unfold State.portLost
  split
  · exact h
  · refine Tells.of_out (Tells.retrainFail ?_ p 0x71) rfl
    split
    · exact h.linkDown p 1 false
    · exact h

theorem State.sref0Lost_eq : s.sref0Lost = ((List.range 8).foldl State.portLost (s.setFldOf .mmvMemStat 30 1 1)).settle.request 2 := rfl

theorem Tells.sref0Lost (h : Tells o s) : Tells o s.sref0Lost := by
  rw [State.sref0Lost_eq]
  refine (foldl_holds (Tells o) _ (fun _ p ht => ht.portLost p) _ _ ?_).settle.request 2
  exact h

theorem Tells.ptpLost (h : Tells o s) (tb : Nat) : Tells o (s.ptpLost tb) := by
  refine Tells.raise ?_ _ _ _
  exact h

theorem Tells.sref1Lost (h : Tells o s) : Tells o s.sref1Lost := by
  unfold State.sref1Lost
  refine foldl_holds (Tells o) _ (fun t tb ht => ?_) _ _ h
  split
  · split
    · exact ht.ptpLost tb
    · exact ht
  · exact ht

end

/-- The code of a reference clock in EV_REFCLK_LOST, R494. -/
def refCode : RefClk → Nat
  | .pcie => 0 | .timeref => 1 | .sref0 => 2 | .sref1 => 3

/-- EV_REFCLK_LOST as P0 gets it at an instant. -/
def refEvent (now : Nat) (r : RefClk) : Event := { code := 0x0A09, part := 0, inst := now, data := evData [refCode r] }

theorem State.raise_tells_ref (s : State) (r : RefClk) : ∃ now, Tells (.p0Event (refEvent now r)) (s.raise 0x0A09 0 (evData [refCode r])) := by
  refine ⟨s.now, ?_⟩
  rw [Tells, State.raise_out]
  exact List.mem_append_right _ (List.mem_singleton_self _)

theorem timerefLost_tells (h : s.pwr.refs.contains .timeref = true) : ∃ now, Tells (.p0Event (refEvent now .timeref)) (timerefLost s) := by
  rw [timerefLost, if_pos h]
  exact State.raise_tells_ref _ .timeref

theorem refclkLost_tells {r : RefClk} (h : s.pwr.refs.contains r = true) : ∃ now, Tells (.p0Event (refEvent now r)) (refclkLost r s) := by
  rw [refclkLost_of_present h]
  cases r
  case pcie =>
    obtain ⟨now, htold⟩ := (s.noRef .pcie).raise_tells_ref .pcie
    refine ⟨now, ?_⟩
    dsimp only
    split
    · exact Tells.linkReset htold false
    · exact htold
  case timeref => exact timerefLost_tells h
  case sref0 => exact ((s.noRef .sref0).raise_tells_ref .sref0).imp fun _ htold => Tells.sref0Lost htold
  case sref1 => exact ((s.noRef .sref1).raise_tells_ref .sref1).imp fun _ htold => Tells.sref1Lost htold

/-- Settles O58: the loss of a reference tells P0 its event first, and nothing that follows takes it back. -/
theorem refclkLostEvent : Obligations.RefclkLostEvent := by
  unfold Obligations.RefclkLostEvent
  intro dt s r h
  have hrow : Completes (.refclkLost dt r) s (refclkLost r (s.elapse dt)) := completes_event rfl rfl rfl
  obtain ⟨now, htold⟩ := refclkLost_tells h
  refine ⟨_, refEvent now r, hrow, rfl, (by decide : 0x0A09 / 256 = 10), ?_, ?_⟩
  · rw [State.close_out]
    exact htold
  · cases r <;> rfl

end Sys2Proof.Machine
end

section
/-! The KV commands: who may give them and what they name (R355, R360), and those that set the machinery up (R355, R356, R367, R371), with their
obligation. -/
namespace Sys2Proof.Machine
variable {s : State} {c : Cmd}

/-- KV_INIT has committed, and the command is of the owner's partition, R355. -/
structure State.KvOwned (s : State) (c : Cmd) : Prop where
  on : s.kvOn = true
  owner : s.kvOwner = c.part

theorem State.KvOwned.mine (h : s.KvOwned c) (k : State → State × Bool) : kvMine c s k = k s := if_neg (by simp [h.on, h.owner])

/-- The command names a LIVE sequence of a pool, R360. -/
structure State.KvLive (s : State) (c : Cmd) (x : KvSeq) (k : KvPool) : Prop extends s.KvOwned c where
  seq : s.kvSeq? (c.p 0x20 4) = some x
  live : x.broken = false
  pool : s.kvPool? x.pool = some k

theorem State.KvLive.with {x : KvSeq} {k : KvPool} (h : s.KvLive c x k) (f : KvSeq → KvPool → State → State × Bool) : kvWith c s f = f x k s := by
  have hok : s.seqErr c (c.p 0x20 4) = none := by simp [State.seqErr, h.on, h.owner, h.seq, h.live]
  simp only [kvWith, hok, h.seq, h.pool]

/-! KV_INIT, R355 -/

/-- The bytes that the header, the sequences, the page-table blocks, the nodes and the page descriptors take. -/
def Cmd.metaNeed (c : Cmd) : Nat := 4096 + 256 * c.p 0x30 4 + 1024 * c.p 0x34 4 + 64 * c.p 0x38 4 + 32 * c.p 0x3C 4

/-- The machinery as KV_INIT leaves it, with a fresh key; the commands that wait on sequences keep their names. -/
def State.newKv (s : State) (c : Cmd) : State :=
  let r := s.draw 32
  ((r.2.setReg .mmvKvCtl (setFld (setFld (0 : W64) 31 1 1) 28 3 c.part)).clearMem (c.p 0x20 8) (c.p 0x28 8)).setKv fun k =>
    { names := k.names, metaAddr := c.p 0x20 8, metaBytes := c.p 0x28 8, maxSeq := c.p 0x30 4, ptBlocks := c.p 0x34 4, maxNodes := c.p 0x38 4
      maxIds := c.p 0x3C 4, key := r.1 }

/-- Only BROKEN sequences are left, which do not stop a new start (log entry 71). -/
theorem kvInit_of_free (hown : s.kvOn = false ∨ s.kvOwner = c.part) (hseq : c.p 0x30 4 ≤ 65536) (hnodes : c.p 0x38 4 ≤ 4194304)
    (haligned : c.p 0x20 8 % 65536 = 0) (hfits : c.metaNeed ≤ c.p 0x28 8) (hbroken : ∀ e ∈ s.kv.seqs, e.2.broken = true)
    (haccess : ({ s with kv := {} } : State).access (.part c.part) .other true (c.p 0x20 8) (c.p 0x28 8) = none) :
    kvInit c s = (s.newKv c).kvDone c [] := by
  have hforeign : (s.kvOn && s.kvOwner != c.part) = false := by obtain h | h := hown <;> simp [h]
  have hlive : (s.kv.seqs.any fun e => !e.2.broken) = false := List.any_eq_false.mpr fun e he => by simp [hbroken e he]
  have hrange : ¬(65536 < c.p 0x30 4 ∨ 4194304 < c.p 0x38 4 ∨ c.p 0x20 8 % 65536 ≠ 0 ∨ c.p 0x28 8 < c.metaNeed) := by omega
  rw [Cmd.metaNeed] at hrange
  simp only [kvInit, hforeign, decide_eq_false hrange, hlive, haccess, Bool.false_eq_true, if_false]
  rfl

/-! KV_POOL_CREATE, R356 -/

/-- The pool that the command describes, its pages numbered after those of the pools before it. -/
def State.poolOf (s : State) (c : Cmd) : KvPool :=
  let k : KvPool := { ptok := c.p 0x21 1, fmt := c.p 0x22 1, sharing := (c.p 0x23 1).testBit 0, layers := c.p 0x24 2, heads := c.p 0x26 2, d := c.p 0x28 2
                      frames := c.p 0x2C 4, addr := c.p 0x30 8, ids := c.p 0x38 4, reserve := if c.p 0x3C 4 = 0 then c.p 0x2C 4 / 16 else c.p 0x3C 4
                      prefetch := c.p 0x40 1, salt := cut c.params 0x28 16, idBase := (s.kv.pools.map fun e => e.2.ids).sum, size := 0 }
  { k with size := k.pageBytes }

/-- The geometry of a pool is in the ranges of R356. -/
structure KvPool.GeometryOk (k : KvPool) : Prop where
  tokens : 4 ≤ k.ptok ∧ k.ptok ≤ 8
  layers : 1 ≤ k.layers ∧ k.layers ≤ 512
  heads : 1 ≤ k.heads ∧ k.heads ≤ 64
  rows : 16 ≤ k.d ∧ k.d ≤ 256 ∧ k.d % 16 = 0
  frames : 1 ≤ k.frames ∧ k.addr % 65536 = 0
  prefetch : k.prefetch ≤ 64
  format : 1 ≤ k.fmt ∧ k.fmt ≤ 4

theorem kvPoolCreate_of_free (h : s.KvOwned c) (hrole : s.kvRole ≠ 3) (hpool : c.p 0x20 1 ≤ 7) (hg : (s.poolOf c).GeometryOk)
    (hids : c.p 0x2C 4 ≤ c.p 0x38 4) (hmax : c.p 0x38 4 ≤ 16777216) (hroom : (s.poolOf c).idBase + c.p 0x38 4 ≤ s.kv.maxIds)
    (hnew : s.kvPool? (c.p 0x20 1) = none)
    (haccess : s.access (.part c.part) .other true (s.poolOf c).addr (c.p 0x2C 4 * (s.poolOf c).size) = none) :
    kvPoolCreate c s =
      ((s.setKvPool (c.p 0x20 1) (s.poolOf c)).setFldOf .mmvKvCtl (c.p 0x20 1) 1 1).kvDone c (leBytes 8 (s.poolOf c).size) := by
  obtain ⟨⟨htokLo, htokHi⟩, ⟨hlayLo, hlayHi⟩, ⟨hheadLo, hheadHi⟩, ⟨hdLo, hdHi, hd16⟩, ⟨hframes, haddr⟩, hprefetch, hfmtLo, hfmtHi⟩ := hg
  have hbad : ¬(7 < c.p 0x20 1 ∨ (s.poolOf c).ptok < 4 ∨ 8 < (s.poolOf c).ptok ∨ (s.poolOf c).layers = 0 ∨ 512 < (s.poolOf c).layers ∨
      (s.poolOf c).heads = 0 ∨ 64 < (s.poolOf c).heads ∨ (s.poolOf c).d < 16 ∨ 256 < (s.poolOf c).d ∨ (s.poolOf c).d % 16 ≠ 0 ∨ c.p 0x2C 4 = 0 ∨
      (s.poolOf c).addr % 65536 ≠ 0 ∨ c.p 0x38 4 < c.p 0x2C 4 ∨ 16777216 < c.p 0x38 4 ∨ s.kv.maxIds < (s.poolOf c).idBase + c.p 0x38 4 ∨
      64 < (s.poolOf c).prefetch) := by
    have : 1 ≤ c.p 0x2C 4 := hframes
    omega
  have hfmt : ¬((s.poolOf c).fmt = 0 ∨ 4 < (s.poolOf c).fmt) := by omega
  rw [kvPoolCreate, h.mine]
  refine (if_neg hrole).trans ((if_neg ?_).trans ((if_neg hfmt).trans ((if_neg ?_).trans ?_)))
  · rw [decide_eq_true_eq]
    exact hbad
  · rw [hnew]
    exact nofun
  · dsimp only
    split
    · next st hst => exact absurd (hst.symm.trans haccess) nofun
    · rfl

/-! KV_CELLAR_CONFIG, R367 -/

/-- No page of the pool lies in the Cellar or is on its way. -/
def State.CellarIdle (s : State) (p : Nat) : Prop := ∀ e ∈ s.kvPages p, e.2.state < 2 ∨ 4 < e.2.state

theorem State.CellarIdle.none_any {p : Nat} (h : s.CellarIdle p) : ((s.kvPages p).any fun e => decide (2 ≤ e.2.state ∧ e.2.state ≤ 4)) = false :=
  List.any_eq_false.mpr fun e he => by
    have := h e he
    simp only [decide_eq_true_eq]
    omega

/-- The Cellar that the command describes. -/
def Cmd.cellar (c : Cmd) : Cellar :=
  { target := c.p 0x21 1, dev := c.p 0x22 1, timeoutMs := c.p 0x24 4, base := c.p 0x28 8, slots := c.p 0x30 4, apOff := c.p 0x38 8 }

/-- The Cellar's fields are in range, and its aperture fits and meets no other pool's. -/
structure State.CellarOk (s : State) (p : Nat) (k : KvPool) (e : Cellar) : Prop where
  target : e.target = 1 ∨ e.target = 2
  dev : e.target = 1 → e.dev ≤ 23
  timeout : 1 ≤ e.timeoutMs ∧ e.timeoutMs ≤ 10000
  slots : 1 ≤ e.slots
  aligned : e.apOff % 0x40000000 = 0
  fits : e.apOff + e.slots * (k.size + 64) ≤ cellarSize
  apart : ∀ o ∈ s.kv.pools, o.1 = p ∨ o.2.cellar.target = 0 ∨ meets e.apOff (e.slots * (k.size + 64)) o.2.cellar.apOff o.2.cellarSize = false

section
variable {k : KvPool} (h : s.KvOwned c) (hk : s.kvPool? (c.p 0x20 1) = some k) (hidle : s.CellarIdle (c.p 0x20 1))
include h hk hidle

theorem kvCellarConfig_of_none (ht : c.p 0x21 1 = 0) : kvCellarConfig c s = (s.setKvPool (c.p 0x20 1) { k with cellar := {} }).kvDone c [] := by
  rw [kvCellarConfig, h.mine]
  simp only [hk, ht, if_true, bne_self_eq_false, Bool.false_and, Bool.or_false, hidle.none_any, Bool.false_eq_true, if_false]
  rfl

theorem kvCellarConfig_of_ok (he : s.CellarOk (c.p 0x20 1) k c.cellar) :
    kvCellarConfig c s = (s.setKvPool (c.p 0x20 1) { k with cellar := c.cellar }).kvDone c [] := by
  obtain ⟨htarget, hdev, ⟨hmsLo, hmsHi⟩, hslots, haligned, hfits, hapart⟩ := he
  have ht : c.p 0x21 1 ≠ 0 := by rintro h0; rw [Cmd.cellar, h0] at htarget; exact htarget.elim nofun nofun
  have hsize : ({ k with cellar := c.cellar } : KvPool).cellarSize = c.cellar.slots * (k.size + 64) := if_neg ht
  have hrange : ¬((c.p 0x21 1 = 1 ∧ 23 < c.cellar.dev) ∨ c.cellar.timeoutMs = 0 ∨ 10000 < c.cellar.timeoutMs ∨ c.cellar.slots = 0 ∨
      c.cellar.apOff % 0x40000000 ≠ 0 ∨ cellarSize < c.cellar.apOff + c.cellar.slots * (k.size + 64)) := by
    have hnear : ¬(c.p 0x21 1 = 1 ∧ 23 < c.cellar.dev) := fun ⟨h1, hfar⟩ => Nat.not_lt.mpr (hdev h1) hfar
    have := Nat.not_lt.mpr hfits
    omega
  have hmeets : (s.kv.pools.any fun o => o.1 != c.p 0x20 1 && o.2.cellar.target != 0 &&
      meets c.cellar.apOff (c.cellar.slots * (k.size + 64)) o.2.cellar.apOff o.2.cellarSize) = false :=
    List.any_eq_false.mpr fun o ho => by obtain h | h | h := hapart o ho <;> simp [h]
  have hknown : ¬ 2 < c.p 0x21 1 := by
    have : c.p 0x21 1 = 1 ∨ c.p 0x21 1 = 2 := htarget
    omega
  rw [kvCellarConfig, h.mine]
  simp only [hk, if_neg ht]
  refine (if_neg ?_).trans (if_neg (by rw [hidle.none_any]; decide))
  rw [decide_eq_false hknown, Bool.false_or, Bool.and_eq_true, Bool.or_eq_true, decide_eq_true_eq]
  exact fun ⟨_, hbad⟩ => hbad.elim (fun hout => hrange (hsize ▸ hout)) fun hmeet => Bool.false_ne_true (hmeets.symm.trans (hsize ▸ hmeet))

end

/-! KV_SET_ROLE, R371 -/

theorem kvSetRole_of_known (h : s.KvOwned c) (hrole : c.p 0x20 1 ≤ 3) : kvSetRole c s = (s.setFldOf .mmvKvCtl 24 2 (c.p 0x20 1)).kvDone c [] := by
  rw [kvSetRole, h.mine, if_neg (Nat.not_lt.mpr hrole)]

/-! The obligation -/

/-- Settles O37: with fields in range and memory that the command may write, none of the four is refused. That BROKEN sequences do not stop a new
start is the model's choice (log entry 71). -/
theorem kvSetupCommandsComplete : Obligations.KvSetupCommandsComplete := by
  unfold Obligations.KvSetupCommandsComplete
  intro dt id s c u
  refine ⟨?init, ?create, ?cellar, ?role⟩
  case init =>
    exact fun hr hown hseq hnodes haligned hfits hbroken haccess =>
      completes_kv rfl rfl hr (kvInit_of_free hown hseq hnodes haligned hfits hbroken haccess)
  case create =>
    intro p frames ids base g k hr hon howner hrole hpool htokLo htokHi hlayLo hlayHi hheadLo hheadHi hdLo hdHi hd16 hframes haddr hids hmax hroom
      hprefetch hfmtLo hfmtHi hnew haccess
    exact completes_kv rfl rfl hr (kvPoolCreate_of_free ⟨hon, howner⟩ hrole hpool
      ⟨⟨htokLo, htokHi⟩, ⟨hlayLo, hlayHi⟩, ⟨hheadLo, hheadHi⟩, ⟨hdLo, hdHi, hd16⟩, ⟨hframes, haddr⟩, hprefetch, hfmtLo, hfmtHi⟩ hids hmax hroom hnew
      haccess)
  case cellar =>
    intro p k hr hon howner hk hidle
    refine ⟨fun ht => completes_kv rfl rfl hr (kvCellarConfig_of_none ⟨hon, howner⟩ hk hidle ht), ?_⟩
    intro e len htarget hdev hmsLo hmsHi hslots haligned hfits hapart
    exact completes_kv rfl rfl hr
      (kvCellarConfig_of_ok ⟨hon, howner⟩ hk hidle ⟨htarget, hdev, ⟨hmsLo, hmsHi⟩, hslots, haligned, hfits, hapart⟩)
  case role => exact fun hr hon howner hrole => completes_kv rfl rfl hr (kvSetRole_of_known ⟨hon, howner⟩ hrole)

end Sys2Proof.Machine
end

section
/-! The KV sequence commands (R357, R359, R365, R366), and their obligation. -/
namespace Sys2Proof.Machine
variable {s : State} {c : Cmd}

/-- The descriptor at an address holds n token IDs that the command may read: u32 elements of this device, marked and sound. -/
structure State.HoldsTokens (s : State) (c : Cmd) (a n : Nat) (d : Desc) : Prop where
  found : s.readDesc c a = .ok d
  here : d.dev = 255
  mark : d.mark = true
  format : d.fmt = 11
  length : n ≤ d.ext 0 * d.count
  access : s.tensorErr (.part c.part) .other false d = none
  good : s.tensorUe d = none

theorem State.HoldsTokens.with {a n : Nat} {d : Desc} (h : s.HoldsTokens c a n d) (f : List Nat → State → State × Bool) :
    withTokens c a n s f = f ((s.flatCodes d).take n) s := by
  simp only [withTokens, h.found, h.here, h.mark, h.format, if_neg (Nat.not_lt.mpr h.length), h.access, h.good, ne_eq, not_true_eq_false, Bool.true_eq_false,
    or_self, if_false]

/-! KV_SEQ_CREATE, R359, R365 -/

/-- The new sequence holds the pages of its table. -/
def State.newSeq (s : State) (c : Cmd) (q : Nat) (k : KvPool) (table : List Nat) : State × Bool :=
  ((table.foldl (fun (s : State) i => s.addRef (c.p 0x20 1) i) s).setKvSeq q
    { pool := c.p 0x20 1, len := table.length * k.tokens, table := table }).kvDone c
      (leBytes 4 q ++ leBytes 4 (table.length * k.tokens) ++ leBytes 4 table.length)

/-- A pool to take the pages from, and a sequence ID to give. -/
structure State.MaySeq (s : State) (c : Cmd) (k : KvPool) (q : Nat) : Prop extends s.KvOwned c where
  pool : s.kvPool? (c.p 0x20 1) = some k
  free : s.freeSeq = some q

section
variable {k : KvPool} {q : Nat} (h : s.MaySeq c k q)
include h

theorem kvSeqCreate_of_alone (halone : (c.p 0x21 1).testBit 0 = false ∨ c.p 0x24 4 = 0) (hroom : s.ptRoom 0 0 = true) :
    kvSeqCreate c s = s.newSeq c q k [] := by
  have hprefix : ¬((c.p 0x21 1).testBit 0 = true ∧ c.p 0x24 4 ≠ 0) := fun ⟨hbit, hn⟩ =>
    halone.elim (fun h => Bool.false_ne_true (h.symm.trans hbit)) hn
  rw [kvSeqCreate, h.toKvOwned.mine]
  simp only [h.pool, h.free, if_neg hprefix, List.length_nil, hroom, Bool.not_true, Bool.false_eq_true, if_false]
  rfl

/-- The pages of the longest prefix of the tokens that the pool knows, where it shares. -/
def State.knownPrefix (s : State) (c : Cmd) (k : KvPool) (tokens : List Nat) : List Nat :=
  if k.sharing then s.matchPrefix (c.p 0x20 1) (blockHashes k tokens (Nat.min 8192 (c.p 0x24 4 / k.tokens)) 0) 0 else []

/-- MMV_KV_PREFIX counts the blocks found and those missed (log entry 68). -/
def State.countPrefix (s : State) (c : Cmd) (k : KvPool) (hits : Nat) : State :=
  (s.addSat (.mmvKvPrefix (c.p 0x20 1)) 0 16 hits).addSat (.mmvKvPrefix (c.p 0x20 1)) 16 16 (Nat.min 8192 (c.p 0x24 4 / k.tokens) - hits)

theorem kvSeqCreate_of_prefix {d : Desc} {m : List Nat} (hbit : (c.p 0x21 1).testBit 0 = true) (hn : c.p 0x24 4 ≠ 0)
    (hd : s.HoldsTokens c (c.p 0x28 8) (c.p 0x24 4) d) (hm : s.knownPrefix c k ((s.flatCodes d).take (c.p 0x24 4)) = m)
    (hroom : s.ptRoom 0 m.length = true) : kvSeqCreate c s = (s.countPrefix c k m.length).newSeq c q k m := by
  subst hm
  rw [kvSeqCreate, h.toKvOwned.mine]
  simp only [h.pool, h.free, hbit, hn, ne_eq, not_false_eq_true, and_self, if_true, hd.with]
  exact if_neg (by rw [Bool.not_eq_true']; exact fun hfull => Bool.false_ne_true (hfull.symm.trans hroom))

end

/-! KV_SEQ_FORK, KV_SEQ_TRUNCATE, R359, R366 -/

section
variable {x : KvSeq} {k : KvPool} (h : s.KvLive c x k)
include h

theorem kvSeqFork_of_free {q : Nat} (hfree : s.freeSeq = some q) (hroom : s.ptRoom 0 x.table.length = true) :
    kvSeqFork c s = ((x.table.foldl (fun (s : State) i => s.addRef x.pool i) s).setKvSeq q x).kvDone c (leBytes 4 q) := by
  rw [kvSeqFork, h.with]
  simp only [hfree, hroom, Bool.not_true, Bool.false_eq_true, if_false]

theorem kvSeqTruncate_of_within (hn : c.p 0x24 4 ≤ x.len) : kvSeqTruncate c s =
    let gone := x.table.drop (ceilDiv (c.p 0x24 4) k.tokens)
    ((gone.foldl (fun (s : State) i => s.unref x.pool i)
      (s.setKvSeq (c.p 0x20 4) { x with len := c.p 0x24 4, table := x.table.take (ceilDiv (c.p 0x24 4) k.tokens) })).kvSync).kvDone c
        (leBytes 4 gone.length) := by
  rw [kvSeqTruncate, h.with]
  exact if_neg (Nat.not_lt.mpr hn)

end

/-! KV_SEQ_RELEASE and KV_SEQ_STATUS, R359 -/

section
variable {x : KvSeq} (h : s.KvOwned c) (hx : s.kvSeq? (c.p 0x20 4) = some x)
include h hx

theorem kvSeqRelease_of_known : kvSeqRelease c s = (s.releaseSeq (c.p 0x20 4) x).kvDone c (leBytes 4 x.table.length) := by
  rw [kvSeqRelease, h.mine]
  simp only [hx]

/-- The pages of a sequence that are in a state. -/
def State.pagesIn (s : State) (x : KvSeq) (st : Nat → Bool) : Nat := (x.table.filter fun i => st (s.kvPage x.pool i).state).length

/-- The other commands that name the sequence. -/
def State.waitingOn (s : State) (c : Cmd) : Nat := (s.kv.names.filter fun e => e.1 != c.id && e.2.contains (c.p 0x20 4)).length

theorem kvSeqStatus_of_known : kvSeqStatus c s =
    s.kvDone c (leBytes 1 (if x.broken then 2 else 1) ++ leBytes 1 x.pool ++ leBytes 2 0 ++ leBytes 4 x.len ++ leBytes 4 x.table.length ++
      leBytes 4 (s.pagesIn x fun t => t == 1 || t == 2) ++ leBytes 4 (s.pagesIn x fun t => t == 3) ++ leBytes 4 (s.waitingOn c) ++ leBytes 8 0 ++
      x.tag.bytes) := by
  rw [kvSeqStatus, h.mine]
  simp only [hx]
  rfl

end

/-! The obligation -/

/-- Settles O38: a sequence that is known, a free ID and room in the page table let each command act. How the missed blocks of a prefix are counted
(log entry 68) and what truncation and release leave of shared pages (log entry 71) are the model's choices. -/
theorem kvSequenceCommandsComplete : Obligations.KvSequenceCommandsComplete := by
  unfold Obligations.KvSequenceCommandsComplete
  intro dt id s c u
  refine ⟨?alone, ?known, ?live, ?owned⟩
  case alone =>
    intro k q hr hon howner hk hq halone hroom
    refine completes_kv rfl rfl hr ((kvSeqCreate_of_alone ⟨⟨hon, howner⟩, hk, hq⟩ halone hroom).trans ?_)
    rw [State.newSeq, List.length_nil, Nat.zero_mul]
    rfl
  case known =>
    intro k q d p n blocks m w hr hon howner hk hq hbit hn hfound hhere hmark hformat hlength haccess hgood hroom
    exact completes_kv rfl rfl hr (kvSeqCreate_of_prefix ⟨⟨hon, howner⟩, hk, hq⟩ hbit hn ⟨hfound, hhere, hmark, hformat, hlength, haccess, hgood⟩ rfl
      hroom)
  case live =>
    intro x k q hon howner hx hlive hk
    exact ⟨fun n hr hfree hroom => completes_kv rfl rfl hr (kvSeqFork_of_free ⟨⟨hon, howner⟩, hx, hlive, hk⟩ hfree hroom),
      fun hr hn => completes_kv rfl rfl hr (kvSeqTruncate_of_within ⟨⟨hon, howner⟩, hx, hlive, hk⟩ hn)⟩
  case owned =>
    intro x q hon howner hx
    exact ⟨fun hr => completes_kv rfl rfl hr (kvSeqRelease_of_known ⟨hon, howner⟩ hx),
      fun hr => completes_kv rfl rfl hr (kvSeqStatus_of_known ⟨hon, howner⟩ hx)⟩

end Sys2Proof.Machine
end

section
/-! KV_APPEND, KV_PUBLISH, KV_PREFETCH, KV_SEQ_SEND and KV_SEQ_RECV (R358, R363 to R366, R372), and their obligation. -/
namespace Sys2Proof.Machine
variable {s : State} {c : Cmd}

/-- The row of a KV command that waits: it is not started by its row. -/
theorem completes_kv_waiting {t : State} {i : Instr} {dt id code : Nat} {f : Cmd → State → State × Bool} (h : exec i s = runKv dt id code f s)
    (hd : i.dt = dt) (hr : Runs s dt id code c) (hf : f c (s.elapse dt) = (t, true)) : Completes i s t.settle := by
  subst hd; unfold Completes; rw [h]; unfold runKv runEvent
  simp only [show (s.elapse i.dt).runs id code = some c from hr, hf]; rfl

/-! Room and fetches, R358 -/

section
variable {p : Nat} {k : KvPool}

/-- With the frames and the IDs there, no node is dropped. -/
theorem State.freeNodePages_of_room {n ids : Nat} (hn : n ≤ (s.freeFrames p k).length) (hids : ids ≤ (s.freeIds p k).length) (fuel : Nat) :
    s.freeNodePages p k n ids fuel = s := by
  cases fuel with
  | zero => rfl
  | succ f => exact if_pos ⟨hn, hids⟩

theorem State.kvNeed_of_room {n ids : Nat} (hn : n ≤ (s.freeFrames p k).length) (hids : ids ≤ (s.freeIds p k).length) :
    s.kvNeed p k n ids = (s, 0) := by
  rw [State.kvNeed, State.freeNodePages_of_room hn hids]
  exact (if_neg (Nat.not_lt.mpr hids)).trans (if_pos hn)

/-- One page of a fetch: what it does to the state and to the code. -/
def fetchStep (p : Nat) (k : KvPool) (r : State × Nat) (i : Nat) : State × Nat :=
  if (r.1.kvPage p i).state = 3 then ((r.1.beginFetch p i k).1, Nat.max r.2 (Nat.max 1 (r.1.beginFetch p i k).2))
  else if (r.1.kvPage p i).state = 4 then (r.1, Nat.max r.2 1)
  else r

theorem State.fetchAll_eq (s : State) (p : Nat) (k : KvPool) (l : List Nat) : s.fetchAll p k l = l.foldl (fetchStep p k) (s, 0) := rfl

theorem fetchStep_of_here {r : State × Nat} {i : Nat} (h : (r.1.kvPage p i).state ≠ 3 ∧ (r.1.kvPage p i).state ≠ 4) : fetchStep p k r i = r :=
  (if_neg h.1).trans (if_neg h.2)

/-- A step that leaves the code 0 found its page there. -/
theorem fetchStep_of_zero {r : State × Nat} {i : Nat} (h : (fetchStep p k r i).2 = 0) : fetchStep p k r i = r := by
  by_cases h3 : (r.1.kvPage p i).state = 3
  · rw [fetchStep, if_pos h3] at h
    have : 1 ≤ Nat.max r.2 (Nat.max 1 (r.1.beginFetch p i k).2) := Nat.le_trans (Nat.le_max_left 1 _) (Nat.le_max_right _ _)
    dsimp only at h
    omega
  · by_cases h4 : (r.1.kvPage p i).state = 4
    · rw [fetchStep, if_neg h3, if_pos h4] at h
      have : 1 ≤ Nat.max r.2 1 := Nat.le_max_right _ _
      dsimp only at h
      omega
    · exact fetchStep_of_here ⟨h3, h4⟩

/-- A fetch that ends with code 0 changed nothing. -/
theorem foldl_fetchStep_of_zero (l : List Nat) (r : State × Nat) (h : (l.foldl (fetchStep p k) r).2 = 0) : l.foldl (fetchStep p k) r = r := by
  induction l generalizing r with
  | nil => rfl
  | cons i l ih =>
    have hrest := ih _ h
    rw [List.foldl_cons] at h ⊢
    rw [hrest] at h ⊢
    exact fetchStep_of_zero h

theorem State.fetchAll_of_zero {l : List Nat} (h : (s.fetchAll p k l).2 = 0) : s.fetchAll p k l = (s, 0) := foldl_fetchStep_of_zero l (s, 0) h

theorem State.fetchAll_of_here {l : List Nat} (h : ∀ i ∈ l, (s.kvPage p i).state ≠ 3 ∧ (s.kvPage p i).state ≠ 4) : s.fetchAll p k l = (s, 0) := by
  rw [State.fetchAll_eq]
  induction l with
  | nil => rfl
  | cons i l ih =>
    rw [List.foldl_cons, fetchStep_of_here (h i (List.mem_cons_self ..))]
    exact ih fun j hj => h j (List.mem_cons_of_mem _ hj)

end

/-! KV_APPEND, R363, R364 -/

section
variable (s c) (x : KvSeq) (k : KvPool) (ds : List (Nat × Desc))

/-- The table entries that a sequence has once the tokens are appended. -/
def Cmd.entriesAfter : Nat := ceilDiv (x.len + c.p 0x24 4) k.tokens

/-- The append begins inside the last page. -/
abbrev Cmd.fillsPart : Prop := x.len % k.tokens ≠ 0 ∧ c.p 0x24 4 ≠ 0

/-- The page that an append begins in. -/
def KvSeq.firstPage : Nat := x.table.getD (x.len / k.tokens) 0

/-- That page is shared, and is copied first, R364. -/
abbrev State.copiesFirst : Prop := c.fillsPart x k ∧ 1 < (s.kvPage x.pool (x.firstPage k)).refs

/-- The pages that an append takes. -/
def State.appendPages : Nat := (c.entriesAfter x k - x.table.length) + if s.copiesFirst c x k then 1 else 0

/-- The pages that an append begins with. -/
def Cmd.appendHeld : List Nat := if c.fillsPart x k then [x.firstPage k] else []

/-- The new pages, the copied one first, in a state t that has room for them. -/
def State.placeAppend (t : State) : State :=
  (if s.copiesFirst c x k then t.copyPage (c.p 0x20 4) x k (x.len / k.tokens) else t).growTable (c.p 0x20 4) k (c.entriesAfter x k - x.table.length)

/-- The rows of every token are written, and the sequence is longer. -/
def State.writeAppend (t : State) : State :=
  let q := c.p 0x20 4
  let n := c.p 0x24 4
  let y := (t.kvSeq? q).getD x
  let mul := fun (o : Nat) => f32Val (BitVec.ofNat 32 (c.p o 4))
  let t := (List.range n).foldl (fun (t : State) i =>
    let id := y.table.getD ((x.len + i) / k.tokens) 0
    (t.appendToken k ds (mul 0x38) (mul 0x3C) (t.kvPage x.pool id).frame i (x.len + i)).touchPage x.pool id) t
  let tag := if (c.p 0x40 1).testBit 0 then tagOut (x.tag :: ds.map (·.2.tag)) else x.tag
  (t.setKvSeq q { y with len := x.len + n, tag := tag }).kvSync

/-- The two tensors of an append are readable, and its pages fit the table. -/
structure State.MayAppend : Prop where
  found : s.readDescs c (fun o => c.p o 8) [(0x28, false), (0x30, false)] = .ok ds
  fields : appendErr c k ds = none
  access : ∀ e ∈ ds, s.tensorErr (.part c.part) .other false e.2 = none
  good : ∀ e ∈ ds, s.tensorUe e.2 = none
  short : c.entriesAfter x k ≤ 8192
  room : s.ptRoom x.table.length (c.entriesAfter x k) = true

end

section
variable {x : KvSeq} {k : KvPool} (h : s.KvLive c x k)
include h

/-- With its pages there and room made, an append commits in its row. -/
theorem kvAppend_of_ready {ds : List (Nat × Desc)} (ha : s.MayAppend c x k ds) (hfetch : s.fetchAll x.pool k (c.appendHeld x k) = (s, 0))
    (hneed : (s.kvNeed x.pool k (s.appendPages c x k) (s.appendPages c x k)).2 = 0) :
    kvAppend c s = ((s.placeAppend c x k (s.kvNeed x.pool k (s.appendPages c x k) (s.appendPages c x k)).1).writeAppend c x k ds).kvDone c
      (leBytes 4 (x.len + c.p 0x24 4) ++ leBytes 4 (if s.copiesFirst c x k then 1 else 0)) := by
  obtain ⟨hfound, hfields, haccess, hgood, hshort, hroom⟩ := ha
  have herr : (ds.findSome? fun e => s.tensorErr (.part c.part) .other false e.2) = none := List.findSome?_eq_none_iff.mpr haccess
  have hue : (ds.findSome? fun e => s.tensorUe e.2) = none := List.findSome?_eq_none_iff.mpr hgood
  rw [kvAppend, h.with]
  simp only [hfound, hfields, herr, hue]
  refine (if_neg (Nat.not_lt.mpr hshort)).trans ((if_neg (fun hfull => ?_)).trans ?_)
  · rw [Bool.not_eq_true'] at hfull
    exact Bool.false_ne_true (hfull.symm.trans hroom)
  · have hcode0 : (s.fetchAll x.pool k (c.appendHeld x k)).2 = 0 := congrArg Prod.snd hfetch
    refine (if_neg ?_).trans ((if_neg ?_).trans ((if_neg ?_).trans ((if_neg ?_).trans rfl)))
    · exact fun h2 => absurd (hcode0.symm.trans h2) nofun
    · exact fun h1 => absurd (hcode0.symm.trans h1) nofun
    · exact fun h2 => absurd (hneed.symm.trans h2) nofun
    · exact fun h1 => absurd (hneed.symm.trans h1) nofun

/-! KV_PUBLISH, R366 -/

/-- The blocks of a publish, in order. -/
def State.publishAll (s : State) (q pool : Nat) (hs : List Nat) : State × Nat × Nat × Bool :=
  hs.zipIdx.foldl (fun (r : State × Nat × Nat × Bool) h =>
    r.1.publishBlock q pool h.1 (if h.2 = 0 then 0 else hs.getD (h.2 - 1) 0) h.2 r.2) (s, 0, 0, false)

/-- The hashes of the sequence's full blocks; a pool that does not share enters none (log entry 71). -/
def KvPool.sharedHashes (k : KvPool) (tokens : List Nat) (len : Nat) : List Nat := if k.sharing then blockHashes k tokens (len / k.tokens) 0 else []

theorem kvPublish_of_tokens {d : Desc} (hd : s.HoldsTokens c (c.p 0x28 8) x.len d) : kvPublish c s =
    let r := s.publishAll (c.p 0x20 4) x.pool (k.sharedHashes ((s.flatCodes d).take x.len) x.len)
    r.1.kvSync.kvDone c (leBytes 4 r.2.1 ++ leBytes 4 r.2.2.1) := by
  rw [kvPublish, h.with, hd.with]
  rfl

/-! KV_PREFETCH, R367 -/

theorem kvPrefetch_of_here (hcode : (s.fetchAll x.pool k x.table).2 = 0) :
    kvPrefetch c s = (s.fetchAll x.pool k x.table).1.kvDone c (leBytes 4 ((s.fetchAll x.pool k x.table).1.fetchedFor c.id)) := by
  rw [kvPrefetch, h.with]
  simp only [hcode, OfNat.zero_ne_ofNat, Nat.zero_ne_one, if_false]

theorem kvPrefetch_of_waiting (hcode : (s.fetchAll x.pool k x.table).2 = 1) : kvPrefetch c s = ((s.fetchAll x.pool k x.table).1, true) := by
  rw [kvPrefetch, h.with]
  simp only [hcode, OfNat.one_ne_ofNat, if_true, if_false]

/-! KV_SEQ_SEND, R372 -/

/-- The sequence leaves for a device, and the command waits for the receiver. -/
def State.sendSeq (s : State) (c : Cmd) (x : KvSeq) (k : KvPool) : State :=
  let b := kvHeader c x k ++ x.table.flatMap fun i => s.rd (k.frameAt (s.kvPage x.pool i).frame) k.size
  ((x.table.foldl (fun (s : State) i => s.touchPage x.pool i) (s.peerWrite (c.p 0x24 1) c.part 0 b)).setResult c.id 0x20
    (leBytes 8 (x.table.length * k.size))).updCmd c.id fun y => { y with aux := y.aux ++ [1] }

theorem kvSeqSend_of_routed (hrole2 : s.kvRole ≠ 2) (hrole3 : s.kvRole ≠ 3) (hdev : c.p 0x24 1 ≤ 23) (hroute : s.linkRoute (c.p 0x24 1) ≠ none)
    (hnew : c.aux.contains 1 = false) (hcode : (s.fetchAll x.pool k x.table).2 = 0) :
    kvSeqSend c s = ((s.fetchAll x.pool k x.table).1.sendSeq c x k, true) := by
  have hsome : (s.linkRoute (c.p 0x24 1)).isNone = false := by
    cases hr : s.linkRoute (c.p 0x24 1) with
    | none => exact absurd hr hroute
    | some p => rfl
  rw [kvSeqSend, h.with]
  simp only [hrole2, hrole3, or_self, if_neg (Nat.not_lt.mpr hdev), hsome, hnew, hcode, Bool.false_eq_true, OfNat.zero_ne_ofNat, Nat.zero_ne_one, if_false]
  rfl

end

/-! KV_SEQ_RECV, R372 -/

/-- The pages of what came have the geometry of the pool that takes them. -/
structure KvInbox.Fits (m : KvInbox) (k : KvPool) : Prop where
  tokens : m.ptok = k.ptok
  layers : m.layers = k.layers
  heads : m.heads = k.heads
  rows : m.d = k.d
  format : m.fmt = k.fmt

/-- What the sender of a command's peer and match ID left. -/
def Cmd.isFor (c : Cmd) (m : KvInbox) : Bool := m.peer == c.p 0x21 1 && m.matchId == c.p 0x28 4

/-- The receiver's role, pool and parameters let it take what came, R372. -/
structure State.MayReceive (s : State) (c : Cmd) (k : KvPool) (m : KvInbox) (q : Nat) : Prop extends s.KvOwned c where
  receives : s.kvRole ≠ 1
  roled : s.kvRole ≠ 3
  pool : s.kvPool? (c.p 0x20 1) = some k
  peer : c.p 0x21 1 ≤ 23
  timeout : 1 ≤ c.p 0x24 4 ∧ c.p 0x24 4 ≤ 60000
  came : s.kv.inbox.find? c.isFor = some m
  fits : m.Fits k
  free : s.freeSeq = some q
  short : ceilDiv m.len k.tokens ≤ 8192
  room : s.ptRoom 0 (ceilDiv m.len k.tokens) = true

/-- The message is taken out of the inbox. -/
def State.takeInbox (s : State) (c : Cmd) : State := s.setKv fun v => { v with inbox := v.inbox.filter fun m => !(c.isFor m) }

/-- The sequence that came, in new pages. -/
def State.growReceived (s : State) (c : Cmd) (k : KvPool) (m : KvInbox) (q : Nat) : State :=
  (s.setKvSeq q { pool := c.p 0x20 1, len := m.len, tag := m.tag }).growTable q k (ceilDiv m.len k.tokens)

/-- Its pages are written, and the sender is answered. -/
def State.fillReceived (s : State) (c : Cmd) (k : KvPool) (m : KvInbox) (q : Nat) : State :=
  let table := ((s.kvSeq? q).map (·.table)).getD []
  (table.zipIdx.foldl (fun (s : State) e =>
    s.wr (k.frameAt (s.kvPage (c.p 0x20 1) e.1).frame) (cut (m.pages.getD e.2 []) 0 k.size)) s).kvAnswer c 0

theorem kvSeqRecv_of_came {k : KvPool} {m : KvInbox} {q : Nat} (h : s.MayReceive c k m q)
    (hneed : (s.kvNeed (c.p 0x20 1) k (ceilDiv m.len k.tokens) (ceilDiv m.len k.tokens)).2 = 0) :
    kvSeqRecv c s = (((((s.kvNeed (c.p 0x20 1) k (ceilDiv m.len k.tokens) (ceilDiv m.len k.tokens)).1.takeInbox c).growReceived c k m q).fillReceived
      c k m q).kvDone c (leBytes 4 q)) := by
  obtain ⟨hown, hrole1, hrole3, hpool, hpeer, ⟨hmsLo, hmsHi⟩, hcame, ⟨htok, hlayers, hheads, hd, hfmt⟩, hfree, hshort, hroom⟩ := h
  have hrange : ¬(23 < c.p 0x21 1 ∨ c.p 0x24 4 = 0 ∨ 60000 < c.p 0x24 4) := by omega
  have hfits : ¬(m.ptok ≠ k.ptok ∨ m.layers ≠ k.layers ∨ m.heads ≠ k.heads ∨ m.d ≠ k.d ∨ m.fmt ≠ k.fmt) := by
    simp [htok, hlayers, hheads, hd, hfmt]
  have hmatch : (s.kv.inbox.find? fun m => m.peer == c.p 0x21 1 && m.matchId == c.p 0x28 4) = some m := hcame
  rw [kvSeqRecv, hown.mine]
  simp only [hrole1, hrole3, or_self, if_false, hpool, if_neg hrange, hmatch, if_neg hfits, hfree, if_neg (Nat.not_lt.mpr hshort), hroom, Bool.not_true,
    Bool.false_eq_true, hneed, OfNat.zero_ne_ofNat, Nat.zero_ne_one]
  rfl

/-- With one message in the inbox nothing is left there. -/
theorem State.takeInbox_of_only {m : KvInbox} (hbox : s.kv.inbox = [m]) (hm : c.isFor m = true) :
    s.takeInbox c = s.setKv fun v => { v with inbox := [] } := by
  have hnone : (s.kv.inbox.filter fun m => !(c.isFor m)) = [] := by rw [hbox]; simp [hm]
  rw [State.takeInbox, State.setKv, hnone]
  rfl

/-! The obligation -/

/-- Settles O39: once their pages are there, an append, a publish, a prefetch, a send and a receive act in their row. That a pool that does not share
publishes nothing and the further corners of moving sequences are the model's choices (log entries 71 and 61). -/
theorem kvDataCommandsComplete : Obligations.KvDataCommandsComplete := by
  unfold Obligations.KvDataCommandsComplete
  intro dt id s c x k u q
  refine ⟨?here, ?only, ?ready, ?came⟩
  case here =>
    intro hon howner hx hlive hk
    have h : u.KvLive c x k := ⟨⟨hon, howner⟩, hx, hlive, hk⟩
    refine ⟨?append, ?publish, ?pages⟩
    case append =>
      intro ds n entries first part page cow need w y mul v tag hr hfound hfields haccess hgood hshort hroom hhere hframes hids
      have hneed : u.kvNeed x.pool k (u.appendPages c x k) (u.appendPages c x k) = (u, 0) := State.kvNeed_of_room hframes hids
      have hfetch : u.fetchAll x.pool k (c.appendHeld x k) = (u, 0) := State.fetchAll_of_here fun i hi => by
        rw [Cmd.appendHeld] at hi
        split at hi
        · next hpart => exact List.mem_singleton.mp hi ▸ hhere hpart
        · exact nomatch hi
      have hrow := kvAppend_of_ready h ⟨hfound, hfields, haccess, hgood, hshort, hroom⟩ hfetch (congrArg Prod.snd hneed)
      rw [hneed] at hrow
      exact completes_kv rfl rfl hr hrow
    case publish =>
      intro d hs r hr hsharing hfound hhere hmark hformat hlength haccess hgood
      have hrow := kvPublish_of_tokens h ⟨hfound, hhere, hmark, hformat, hlength, haccess, hgood⟩
      rw [KvPool.sharedHashes, if_pos hsharing] at hrow
      exact completes_kv rfl rfl hr hrow
    case pages =>
      intro hhere
      have hfetch : u.fetchAll x.pool k x.table = (u, 0) := State.fetchAll_of_here hhere
      have hcode : (u.fetchAll x.pool k x.table).2 = 0 := congrArg Prod.snd hfetch
      refine ⟨fun hr => ?prefetch, ?send⟩
      case prefetch =>
        have hrow := kvPrefetch_of_here h hcode
        rw [hfetch] at hrow
        exact completes_kv rfl rfl hr hrow
      case send =>
        intro dev b hr hrole2 hrole3 hdev hroute hnew
        have hrow := kvSeqSend_of_routed h hrole2 hrole3 hdev hroute (by rw [hnew]; rfl) hcode
        rw [hfetch] at hrow
        exact completes_kv_waiting rfl rfl hr hrow
  case only =>
    intro p peer m g n hr hon howner hrole1 hrole3 hk hpeer hmsLo hmsHi hbox hfrom hmatch htok hlayers hheads hd hfmt hfree hshort hroom hframes hids w v
    have hm : c.isFor m = true := by simp [Cmd.isFor, hfrom, hmatch, peer]
    have hneed : u.kvNeed (c.p 0x20 1) g (ceilDiv m.len g.tokens) (ceilDiv m.len g.tokens) = (u, 0) := State.kvNeed_of_room hframes hids
    have hrow := kvSeqRecv_of_came ⟨⟨hon, howner⟩, hrole1, hrole3, hk, hpeer, ⟨hmsLo, hmsHi⟩, by rw [hbox]; simp [hm],
      ⟨htok, hlayers, hheads, hd, hfmt⟩, hfree, hshort, hroom⟩ (congrArg Prod.snd hneed)
    rw [hneed, State.takeInbox_of_only hbox hm] at hrow
    exact completes_kv rfl rfl hr hrow
  case ready =>
    intro hon howner hx hlive hk
    have h : u.KvLive c x k := ⟨⟨hon, howner⟩, hx, hlive, hk⟩
    refine ⟨?append, ?publish, ?pages⟩
    case append =>
      intro ds n entries first more part cow f need w y mul v tag hr hfound hfields haccess hgood hshort hroom hf hneed
      have hfetch : u.fetchAll x.pool k (c.appendHeld x k) = (u, 0) := State.fetchAll_of_zero hf
      have hsame : f.1 = u := congrArg Prod.fst hfetch
      have hthere : need = u.kvNeed x.pool k (u.appendPages c x k) (u.appendPages c x k) :=
        congrArg (fun t : State => t.kvNeed x.pool k (u.appendPages c x k) (u.appendPages c x k)) hsame
      have hrow := kvAppend_of_ready h ⟨hfound, hfields, haccess, hgood, hshort, hroom⟩ hfetch (hthere ▸ hneed)
      rw [← hthere] at hrow
      exact completes_kv rfl rfl hr hrow
    case publish =>
      intro d hs r hr hfound hhere hmark hformat hlength haccess hgood
      exact completes_kv rfl rfl hr (kvPublish_of_tokens h ⟨hfound, hhere, hmark, hformat, hlength, haccess, hgood⟩)
    case pages =>
      intro r
      refine ⟨fun hr hcode => completes_kv rfl rfl hr (kvPrefetch_of_here h hcode),
        fun hr hcode => completes_kv_waiting rfl rfl hr (kvPrefetch_of_waiting h hcode), ?send⟩
      case send =>
        intro dev b hr hrole2 hrole3 hdev hroute hnew hcode
        exact completes_kv_waiting rfl rfl hr (kvSeqSend_of_routed h hrole2 hrole3 hdev hroute hnew hcode)
  case came =>
    intro p peer m g n len r hr hon howner hrole1 hrole3 hk hpeer hmsLo hmsHi hcame htok hlayers hheads hd hfmt hfree hshort hroom hneed w v
    exact completes_kv rfl rfl hr (kvSeqRecv_of_came ⟨⟨hon, howner⟩, hrole1, hrole3, hk, hpeer, ⟨hmsLo, hmsHi⟩, hcame,
      ⟨htok, hlayers, hheads, hd, hfmt⟩, hfree, hshort, hroom⟩ hneed)

end Sys2Proof.Machine
end

section
/-! Spills, fetches, reclaims and walks of the KV cache (R357, R358, R362, R368, R369, R372), and their obligation. -/
namespace Sys2Proof.Machine
variable {s : State}

theorem State.kvPage_setKvPage_self (s : State) (pool id : Nat) (p : KvPage) : (s.setKvPage pool id p).kvPage pool id = p := sget_sset_self _ _ _ _

/-- A page that is held stays. -/
theorem State.freeIfUnheld_of_held {pool id : Nat} (h : 1 ≤ (s.kvPage pool id).refs) : s.freeIfUnheld pool id = s := if_neg (by omega)

/-! KV_SPILL_DONE, R368 -/

/-- The encrypted page goes to its slot. -/
def State.writeSlot (s : State) (pool id : Nat) (k : KvPool) (p : KvPage) : State :=
  let at_ := k.cellar.base + p.slot * (k.size + 64)
  if k.cellar.target = 1 then s.peerWrite k.cellar.dev s.kvOwner at_ (s.slotBytes pool id k p) else s.hostWrites at_ (s.slotBytes pool id k p) false

section
variable {pool id : Nat} {k : KvPool} (hk : s.kvPool? pool = some k)
include hk

theorem kvSpillDone_of_unreachable (hstate : (s.kvPage pool id).state = 2) (hdown : s.cellarUp k = false) :
    kvSpillDone pool id s = (s.setKvPage pool id { s.kvPage pool id with state := 1 }).freeIfUnheld pool id := by
  simp only [kvSpillDone, hk, hstate, ne_eq, not_true_eq_false, if_false, hdown, Bool.not_false, if_true]

theorem kvSpillDone_of_reachable (hstate : (s.kvPage pool id).state = 2) (hup : s.cellarUp k = true) : kvSpillDone pool id s =
    (((s.writeSlot pool id k (s.kvPage pool id)).setKvPage pool id { s.kvPage pool id with state := 3 }).countSat (.mmvKvSpill pool) 0 16).freeIfUnheld
      pool id := by
  simp only [kvSpillDone, hk, hstate, ne_eq, not_true_eq_false, if_false, hup, Bool.not_true, Bool.false_eq_true]
  rfl

end

/-! KV_FETCH_DONE, R369 -/

/-- The fetch is over. -/
def State.dropFetch (s : State) (pool id : Nat) : State :=
  s.setKv fun v => { v with fetches := v.fetches.filter fun f => !(f.pool == pool && f.page == id) }

/-- A slot that came from a device is counted on its port. -/
def State.countRx (s : State) (k : KvPool) : State :=
  match s.linkRoute k.cellar.dev with
  | some q => if k.cellar.target = 1 then s.countWrap (.mmvLinkRxBytes q) 0 64 (k.size + 64) else s
  | none => s

/-- The commands that name a sequence of the page count the fetch. -/
def State.noteFetched (s : State) (pool id : Nat) : State :=
  let ids := (s.kv.names.filter fun e => e.2.any (s.holders pool id).contains).map (·.1)
  s.setKv fun v => { v with fetchedBy := (v.fetchedBy.filter fun e => !(ids.contains e.1)) ++ ids.map fun i => (i, s.fetchedFor i + 1) }

/-- The page that a slot holds is RESIDENT in its frame. -/
def State.fillPage (s : State) (pool id : Nat) (k : KvPool) (p : KvPage) (page : Bytes) : State :=
  (s.wr (k.frameAt p.frame) (cut page 0 k.size)).setKvPage pool id { p with state := 1 }

/-- A slot that opens fills its page; one that does not loses it. -/
def State.openFetched (s : State) (pool id : Nat) (k : KvPool) (p : KvPage) (b : Bytes) : State :=
  match s.openSlot pool id k p b with
  | none => s.losePage pool id
  | some page => ((s.noteFetched pool id).fillPage pool id k p page).freeIfUnheld pool id

theorem kvFetchDone_of_fetching {pool id : Nat} {k : KvPool} (b : Bytes) (hk : s.kvPool? pool = some k) (hstate : (s.kvPage pool id).state = 4)
    (hup : s.cellarUp k = true) : kvFetchDone pool id b s =
      (((s.dropFetch pool id).countSat (.mmvKvFetch pool) 0 16).countRx k).openFetched pool id k (s.kvPage pool id) b := by
  have hlive : ¬((s.kvPage pool id).state ≠ 4 ∨ s.cellarUp k = false) := by simp [hstate, hup]
  simp only [kvFetchDone, hk, if_neg hlive]
  rfl

/-- A Cellar in host memory counts on no port. -/
theorem State.countRx_of_host {k : KvPool} (h : k.cellar.target = 2) : s.countRx k = s := by
  rw [State.countRx]
  split
  · exact if_neg (by rw [h]; decide)
  · rfl

/-- Where no command names a sequence, none counts. -/
theorem State.noteFetched_of_unnamed (pool id : Nat) (h : s.kv.names = []) : s.noteFetched pool id = s := by
  rw [State.noteFetched, h]
  simp only [List.filter_nil, List.map_nil, List.contains_nil, Bool.not_false, List.append_nil, State.setKv, List.filter_true]

theorem State.openFetched_of_unnamed {pool id : Nat} {k : KvPool} {p : KvPage} (b : Bytes) (hnames : s.kv.names = []) (hheld : 1 ≤ p.refs) :
    s.openFetched pool id k p b = match s.openSlot pool id k p b with
      | none => s.losePage pool id
      | some page => s.fillPage pool id k p page := by
  rw [State.openFetched, State.noteFetched_of_unnamed pool id hnames]
  split
  · rfl
  · exact State.freeIfUnheld_of_held (by rw [State.fillPage, State.kvPage_setKvPage_self]; exact hheld)

/-! KV_FETCH_TIMEOUT, R368 -/

/-- The page is back in the Cellar, and P0 is told. -/
def State.putBack (s : State) (pool id : Nat) (k : KvPool) : State :=
  ((s.dropFetch pool id).setKvPage pool id { s.kvPage pool id with state := 3 }).raiseLim 0x0723 pool s.kvOwner (evData [pool, k.cellar.target])

theorem kvFetchTimeout_of_late {pool id : Nat} {k : KvPool} {f : KvFetch} (hk : s.kvPool? pool = some k)
    (hf : s.kv.fetches.find? (fun f => f.pool == pool && f.page == id) = some f) (hlate : f.since + k.cellar.timeoutMs * 1000000 ≤ s.ns)
    (hstate : (s.kvPage pool id).state = 4) : kvFetchTimeout pool id s =
      (((s.needers pool id).foldl (fun (x : State) c => x.failCmd c 0x28) (s.putBack pool id k)).freeIfUnheld pool id).settle := by
  have hwait : ¬(s.ns < f.since + k.cellar.timeoutMs * 1000000 ∨ (s.kvPage pool id).state ≠ 4) := by simp [hstate, hlate]
  simp only [kvFetchTimeout, hk, hf, if_neg hwait]
  rfl

/-- With no sequence nobody needs a page. -/
theorem State.needers_of_no_seqs (pool id : Nat) (h : s.kv.seqs = []) : s.needers pool id = [] := by
  simp [State.needers, State.holders, h]

/-! KV_RECLAIM, R358 -/

section
variable {pool : Nat} {k : KvPool} (hk : s.kvPool? pool = some k)
include hk

theorem kvReclaim_of_reserve (h : k.reserve ≤ (s.freeFrames pool k).length) : kvReclaim pool s = s := by
  simp only [kvReclaim, hk, if_pos h]

theorem kvReclaim_of_node {n : KvNode} (hfew : (s.freeFrames pool k).length < k.reserve) (hn : s.nodeVictim (some pool) true = some n) :
    kvReclaim pool s = s.dropNode n := by
  simp only [kvReclaim, hk, if_neg (Nat.not_le.mpr hfew), hn]

theorem kvReclaim_of_no_node (hfew : (s.freeFrames pool k).length < k.reserve) (hn : s.nodeVictim (some pool) true = none) :
    kvReclaim pool s = (s.spillOne pool k).getD (s.poolLow pool) := by
  simp only [kvReclaim, hk, if_neg (Nat.not_le.mpr hfew), hn]
  cases s.spillOne pool k <;> rfl

end

/-! KV_WALK_EMIT, R361, R362 -/

/-- The walk of a command stands as w. -/
def State.putWalk (s : State) (id : Nat) (w : KvWalk) : State :=
  s.setKv fun v => { v with walks := updFirst (fun x => x.cmd == id) (fun _ => w) v.walks }

/-- The next page descriptor enters the core's queue, where it has room. -/
def State.emitPage (s : State) (id : Nat) (w : KvWalk) (e : Nat × Nat) (rest : List (Nat × Nat)) : State :=
  if 64 ≤ (s.queued w.job.core).length then s
  else (s.putWalk id { w with todo := rest, stalled := false }).pushJob { w.job with units := [e] } false

/-- The sequence of a walk's row. -/
def State.walkSeq (s : State) (w : KvWalk) (e : Nat × Nat) : Nat := ((s.attnOf w.job.raw w.job.ds 0).rows.getD e.1 ⟨0, 0, 0, 0, 0, 0⟩).seq

/-- A walk that waits for a page is counted and told once. -/
def State.stallWalk (s : State) (id : Nat) (w : KvWalk) (seq : Nat) : State :=
  if w.stalled then s
  else ((s.putWalk id { w with stalled := true }).countSat (.mmvKvFetch w.pool) 16 16).raiseLim 0x0724 w.pool s.kvOwner (evData [w.pool, seq])

/-- The page prefetch entries ahead is fetched where it lies in the Cellar. -/
def State.fetchAhead (s : State) (w : KvWalk) (k : KvPool) (e : Nat × Nat) : State :=
  match s.walkPage w (e.1, e.2 + k.prefetch) with
  | some next => if (s.kvPage w.pool next).state = 3 then (s.beginFetch w.pool next k).1 else s
  | none => s

section
variable {id : Nat} {w : KvWalk} {e : Nat × Nat} {rest : List (Nat × Nat)} {k : KvPool} (hw : s.kv.walks.find? (fun w => w.cmd == id) = some w)
  (htodo : w.todo = e :: rest) (hk : s.kvPool? w.pool = some k)
include hw htodo hk

/-- The row of a walk that has entries left, by the state of the next entry's page. -/
theorem kvWalkEmit_of_walk : kvWalkEmit id s = match s.walkPage w e with
    | none => s.emitPage id w e rest
    | some g =>
      let st := (s.kvPage w.pool g).state
      if st = 1 then ((s.emitPage id w e rest).touchPage w.pool g).fetchAhead w k e
      else if st = 4 then s.stallWalk id w (s.walkSeq w e)
      else if st = 3 then
        let r := s.beginFetch w.pool g k
        if r.2 = 2 then (r.1.failCmd id 0x26).settle else r.1.stallWalk id w (s.walkSeq w e)
      else if st = 5 then (s.failCmd id 0x25).settle
      else s := by
  cases w
  dsimp only at htodo hk
  subst htodo
  unfold kvWalkEmit
  rw [hw]
  dsimp only
  rw [hk]
  rfl

theorem kvWalkEmit_of_no_page (hpage : s.walkPage w e = none) : kvWalkEmit id s = s.emitPage id w e rest := by
  rw [kvWalkEmit_of_walk hw htodo hk, hpage]

variable {g : Nat} (hpage : s.walkPage w e = some g)
include hpage

theorem kvWalkEmit_of_resident (h : (s.kvPage w.pool g).state = 1) :
    kvWalkEmit id s = ((s.emitPage id w e rest).touchPage w.pool g).fetchAhead w k e := by
  rw [kvWalkEmit_of_walk hw htodo hk, hpage]
  exact if_pos h

theorem kvWalkEmit_of_fetching (h : (s.kvPage w.pool g).state = 4) : kvWalkEmit id s = s.stallWalk id w (s.walkSeq w e) := by
  rw [kvWalkEmit_of_walk hw htodo hk, hpage]
  simp only [h, OfNat.ofNat_ne_one, if_false, if_true]

theorem kvWalkEmit_of_cellar (h : (s.kvPage w.pool g).state = 3) : kvWalkEmit id s =
    if (s.beginFetch w.pool g k).2 = 2 then ((s.beginFetch w.pool g k).1.failCmd id 0x26).settle
    else (s.beginFetch w.pool g k).1.stallWalk id w (s.walkSeq w e) := by
  rw [kvWalkEmit_of_walk hw htodo hk, hpage]
  simp only [h, OfNat.ofNat_ne_one, if_false, if_true, Nat.reduceEqDiff]

theorem kvWalkEmit_of_lost (h : (s.kvPage w.pool g).state = 5) : kvWalkEmit id s = (s.failCmd id 0x25).settle := by
  rw [kvWalkEmit_of_walk hw htodo hk, hpage]
  simp only [h, OfNat.ofNat_ne_one, if_false, if_true, Nat.reduceEqDiff]

end

/-- A walk that is the only one is replaced. -/
theorem State.putWalk_of_only {id : Nat} {w v : KvWalk} (h : s.kv.walks = [w]) (hid : w.cmd = id) :
    s.putWalk id v = s.setKv fun x => { x with walks := [v] } := by
  have hnew : updFirst (fun x => x.cmd == id) (fun _ => v) s.kv.walks = [v] := by rw [h]; simp [updFirst, hid]
  rw [State.putWalk, State.setKv, hnew]
  rfl

/-! KV_SEQ_RECV_TIMEOUT, R372 -/

theorem kvSeqRecvTimeout_of_late {id : Nat} {c : Cmd} (hr : s.runs id 0x075B = some c)
    (hnone : (s.kv.inbox.any fun m => m.peer == c.p 0x21 1 && m.matchId == c.p 0x28 4) = false) (hlate : c.ranAt + c.p 0x24 4 * 1000000 ≤ s.now) :
    kvSeqRecvTimeout id s = (s.failCmd id 0x70).settle := by
  simp only [kvSeqRecvTimeout, hr, hnone, Bool.false_eq_true, false_or, if_neg (Nat.not_lt.mpr hlate)]

/-! The obligation -/

/-- Settles O40: a page goes by its state and whether its Cellar can be reached, a reclaim by the first thing that can go, a walk by the state of its
next page. A receiver without a sender ends with ST_PEER_UNREACHABLE (0x70); that status and the further corners of reclaims and fetches are the
model's choices (log entry 71). -/
theorem kvRowsComplete : Obligations.KvRowsComplete := by
  unfold Obligations.KvRowsComplete
  intro dt pool id s u p
  refine ⟨?spillHost, ?fetchHost, ?timeoutNone, ?node, ?reserve, ?only, ?recvEmpty, ?pages, ?walk, ?recv⟩
  case spillHost =>
    intro k b hk hstate htarget hbus
    have hup : u.cellarUp k = true := by rw [State.cellarUp, htarget]; exact hbus
    have hslot : u.writeSlot pool id k p = u.hostWrites (k.cellar.base + p.slot * (k.size + 64)) b false := if_neg (by rw [htarget]; decide)
    have hrow := kvSpillDone_of_reachable hk hstate hup
    rw [hslot] at hrow
    exact completes_event rfl rfl hrow
  case fetchHost =>
    intro k b hk hstate htarget hbus hseqs hnames hheld hsize w
    have hup : u.cellarUp k = true := by rw [State.cellarUp, htarget]; exact hbus
    refine completes_event rfl rfl ((kvFetchDone_of_fetching b hk hstate hup).trans ?_)
    rw [State.countRx_of_host htarget]
    exact State.openFetched_of_unnamed (s := w) b hnames hheld
  case timeoutNone =>
    intro k f hk hf hlate hstate hseqs
    have hrow := kvFetchTimeout_of_late hk hf hlate hstate
    rw [State.needers_of_no_seqs pool id hseqs] at hrow
    exact completes_event rfl rfl hrow
  case node => exact fun k n hk hfew hn => completes_event rfl rfl (kvReclaim_of_node hk hfew hn)
  case reserve => exact fun k hk henough => completes_event rfl rfl (kvReclaim_of_reserve hk henough)
  case only =>
    intro w e rest hwalks hid htodo hpool hpage hfew
    obtain ⟨k, hk⟩ := Option.isSome_iff_exists.mp hpool
    have hw : u.kv.walks.find? (fun w => w.cmd == id) = some w := by rw [hwalks]; simp [hid]
    refine completes_event rfl rfl ((kvWalkEmit_of_no_page hw htodo hk hpage).trans ((if_neg (Nat.not_le.mpr hfew)).trans ?_))
    rw [State.putWalk_of_only hwalks hid]
  case recvEmpty =>
    exact fun c hr hbox hlate => completes_event rfl rfl (kvSeqRecvTimeout_of_late hr (by rw [hbox]; rfl) hlate)
  case pages =>
    intro k hk
    refine ⟨fun hstate hdown => completes_event rfl rfl (kvSpillDone_of_unreachable hk hstate hdown), fun hstate hup => ?_, fun b hstate hup => ?_,
      fun f hf hlate hstate => ?_, fun hfew hn => ?_⟩
    · exact completes_event rfl rfl (kvSpillDone_of_reachable hk hstate hup)
    · exact completes_event rfl rfl (kvFetchDone_of_fetching b hk hstate hup)
    · exact completes_event rfl rfl (kvFetchTimeout_of_late hk hf hlate hstate)
    · refine completes_event rfl rfl ((kvReclaim_of_no_node hk hfew hn).trans ?_)
      cases u.spillOne pool k <;> rfl
  case walk =>
    intro w e rest k hw htodo hk put v row late
    refine ⟨fun hpage => completes_event rfl rfl (kvWalkEmit_of_no_page hw htodo hk hpage), fun g hpage => ⟨?_, ?_, ?_, ?_⟩⟩
    · exact fun hstate => completes_event rfl rfl (kvWalkEmit_of_resident hw htodo hk hpage hstate)
    · exact fun hstate => completes_event rfl rfl (kvWalkEmit_of_fetching hw htodo hk hpage hstate)
    · exact fun hstate => completes_event rfl rfl (kvWalkEmit_of_cellar hw htodo hk hpage hstate)
    · exact fun hstate => completes_event rfl rfl (kvWalkEmit_of_lost hw htodo hk hpage hstate)
  case recv => exact fun c hr hnone hlate => completes_event rfl rfl (kvSeqRecvTimeout_of_late hr hnone hlate)

end Sys2Proof.Machine
end

section
/-! The Security group (R453 to R464), and its obligation. -/
namespace Sys2Proof.Machine
variable {s : State} {c : Cmd}

/-! Statements, R452 -/

/-- A number that lies within the first n bytes is the same in them. -/
theorem numAt_take {b : Bytes} {n o k : Nat} (h : o + k ≤ n) : numAt (b.take n) o k = numAt b o k := by
  rw [numAt, numAt, List.drop_take, List.take_take, Nat.min_eq_left (by omega)]

/-- The table that a statement's command names. -/
def State.statement (s : State) (c : Cmd) : Bytes := s.tableAt c (c.p 0x20 8) (c.p 0x28 4)

/-- The table can be read, R509. -/
def State.StatementReadable (s : State) (c : Cmd) : Prop := s.tableErr c.tableReq (c.p 0x20 8) (c.p 0x28 4) = none

theorem withStatement_of_readable (n : Nat) (h : s.StatementReadable c) (k : Bytes → Nat → State → State) :
    withStatement c n s k = match s.checkStatement (s.statement c) n with
      | none => s.failCmd c.id 0x85
      | some slot => k ((s.statement c).take n) slot s := by
  rw [withStatement, State.withTable_of_readable _ h]
  rfl

/-! SEC_GET_IDENTITY, SEC_ATTEST and SEC_ROLLBACK_COMMIT, R453, R456, R457 -/

theorem secGetIdentity_of_master (h : s.busMaster = true) :
    secGetIdentity c s = (s.push c.id (c.p 0x20 8) (cut Config.certificate 0 6272) false).setVerdict c.id 0 := if_pos h

theorem secAttest_of_master (h : s.busMaster = true) : secAttest c s =
    let b := s.attestBody (cut c.params 0 32)
    (s.push c.id (c.p 0x40 8) (b ++ cut (Config.falconSign b) 0 1280) false).setVerdict c.id 0 := if_pos h

theorem secRollbackCommit_of_newer (hnew : s.fuse < s.ccx.imageRollback) (hwarn : s.safeWarn = false) : secRollbackCommit c s =
    (((s.setFldOf .ssiSecFuse 0 6 s.ccx.imageRollback).setFldOf .ssiSecStat 28 1 0).raise 0x0901 0 (evData [s.fuse, s.ccx.imageRollback])).doneWith c
      (leBytes 1 s.fuse ++ leBytes 1 s.ccx.imageRollback) :=
  (if_neg (Nat.not_le.mpr hnew)).trans (if_neg (by rw [hwarn]; decide))

theorem secRollbackCommit_of_raised (h : s.ccx.imageRollback ≤ s.fuse) :
    secRollbackCommit c s = (s.setResult c.id 0x20 (leBytes 1 s.fuse ++ leBytes 1 s.fuse)).finish c.id 0x01 := if_pos h

/-! SEC_ROOT_REVOKE, R454 -/

/-- The statement revokes a root slot of this device, and leaves another one. -/
structure State.MayRevoke (s : State) (b : Bytes) : Prop where
  magic : numAt b 0 4 = 0x52564B53
  slot : numAt b 4 1 ≤ 3
  serial : numAt b 8 8 = 0 ∨ numAt b 8 8 = Config.serial.toNat
  left : ∃ k < 4, k ≠ numAt b 4 1 ∧ s.revoked k = false

/-- A slot that is revoked already ends the command with ST_ALREADY_DONE (log entry 73). -/
theorem secRootRevoke_of_mayRevoke (hread : s.StatementReadable c) (h : s.MayRevoke (s.statement c)) : secRootRevoke c s =
    match s.checkStatement (s.statement c) 64 with
    | none => s.failCmd c.id 0x85
    | some slot => if slot = numAt (s.statement c) 4 1 then s.failCmd c.id 0x12
      else if s.revoked (numAt (s.statement c) 4 1) = true then s.finish c.id 0x01
      else ((s.setFldOf .ssiSecFuse (28 + numAt (s.statement c) 4 1) 1 1).raise 0x0902 0 (evData [numAt (s.statement c) 4 1])).done c := by
  obtain ⟨hmagic, hslot, hserial, k, hk, hother, hleft⟩ := h
  have hbad : ¬(numAt (s.statement c) 0 4 ≠ 0x52564B53 ∨ 3 < numAt (s.statement c) 4 1 ∨
      (numAt (s.statement c) 8 8 ≠ 0 ∧ numAt (s.statement c) 8 8 ≠ Config.serial.toNat)) := by
    rintro (h | h | ⟨h0, h1⟩)
    · exact h hmagic
    · exact Nat.not_lt.mpr hslot h
    · exact hserial.elim h0 h1
  have hlast : ((List.range 4).all fun k => k == numAt (s.statement c) 4 1 || s.revoked k) = false :=
    List.all_eq_false.mpr ⟨k, List.mem_range.mpr hk, by simp [hother, hleft]⟩
  rw [secRootRevoke, withStatement_of_readable 64 hread]
  cases s.checkStatement (s.statement c) 64 with
  | none => rfl
  | some slot =>
    have h0 : numAt ((s.statement c).take 64) 0 4 = numAt (s.statement c) 0 4 := numAt_take (by decide)
    have h4 : numAt ((s.statement c).take 64) 4 1 = numAt (s.statement c) 4 1 := numAt_take (by decide)
    have h8 : numAt ((s.statement c).take 64) 8 8 = numAt (s.statement c) 8 8 := numAt_take (by decide)
    simp only [h0, h4, h8, if_neg hbad, hlast, Bool.false_eq_true, or_false]
    rfl

/-! Weight packages, R458 to R462 -/

/-- The content key that the device's wrap entry holds. -/
def Weights.key (w : Weights) (b : Bytes) : Bytes := ((w.entry b).bind fun e => Config.unwrapKey e (leBytes 8 w.packageId)).getD []

/-- The tags of a package's chunks. -/
def Weights.tags (w : Weights) (b : Bytes) : Bytes := (List.range w.chunks).flatMap fun i => cut b ((w.chunkAt i).1 + (w.chunkAt i).2) 16

/-- The plain weights stand in a new protected region of the partition. -/
def State.protect (s : State) (c : Cmd) (w : Weights) (p : Bytes) : State :=
  let n := s.freeRegion.getD 0
  (((((s.store (c.p 0x30 8) (cut p 0 w.plain)).setReg (.ssiSecProtBase n) (BitVec.ofNat 64 (c.p 0x30 8))).setReg (.ssiSecProtSize n)
    (BitVec.ofNat 64 (ceilDiv w.plain 65536))).setReg (.ssiSecProtPart n) (BitVec.ofNat 64 c.part)).showRegions).doneWith c
      (leBytes 1 n ++ List.replicate 7 0 ++ leBytes 8 w.plain)

/-- What a load has written goes when it fails. -/
def State.wipe (s : State) (a n : Nat) : State := (s.clearMem a n).clearPoison a n

/-- A package that passed its checks is opened chunk by chunk. -/
def State.openWeights (s : State) (c : Cmd) (w : Weights) (b : Bytes) : State :=
  match w.open_ (w.key b) b w.chunks 0 with
  | .error i => (s.wipe (c.p 0x30 8) (i * w.chunk)).weightFail c w (some i) 0x81
  | .ok p => if Config.shake256 (w.tags b) 64 ≠ cut b 0x40 64 then (s.wipe (c.p 0x30 8) w.plain).failCmd c.id 0x81 else s.protect c w p

theorem secWeightLoad_of_readable (hread : s.tableErr c.tableReq (c.p 0x20 8) (c.p 0x28 8) = none) : secWeightLoad c s =
    let b := s.tableAt c (c.p 0x20 8) (c.p 0x28 8)
    let w := Weights.parse b
    match s.weightErr c w b with
    | some e => if e = 0x83 then s.weightFail c w none 0x83 else s.failCmd c.id e
    | none => s.openWeights c w b := by
  refine (State.withTable_of_readable _ hread).trans ?_
  dsimp only
  cases s.weightErr c (Weights.parse (s.tableAt c (c.p 0x20 8) (c.p 0x28 8))) (s.tableAt c (c.p 0x20 8) (c.p 0x28 8)) with
  | none => rfl
  | some e =>
    by_cases he : e = 0x83
    · rw [he]; rfl
    · refine Eq.trans ?_ (if_neg he).symm
      split
      · next h => exact absurd (Option.some.inj h) he
      · next h => rw [Option.some.inj h]
      · next h => exact nomatch h

/-- The region of a handle, as its registers give it. -/
def State.regionBase (s : State) (n : Nat) : Nat := (s.reg (.ssiSecProtBase n)).toNat
def State.regionSize (s : State) (n : Nat) : Nat := (s.reg (.ssiSecProtSize n)).toNat * 65536

theorem secWeightRelease_of_idle (hn : c.p 0x20 1 ≤ 15) (hsize : s.regionSize (c.p 0x20 1) ≠ 0)
    (hown : s.fldOf (.ssiSecProtPart (c.p 0x20 1)) 0 3 = c.part)
    (hidle : s.regionRead (s.regionBase (c.p 0x20 1)) (s.regionSize (c.p 0x20 1)) = false) : secWeightRelease c s =
      ((((s.wipe (s.regionBase (c.p 0x20 1)) (s.regionSize (c.p 0x20 1))).setReg (.ssiSecProtBase (c.p 0x20 1)) 0).setReg (.ssiSecProtSize (c.p 0x20 1))
        0).setReg (.ssiSecProtPart (c.p 0x20 1)) 0).showRegions.kvDone c [] := by
  refine (if_neg (not_or.mpr ⟨Nat.not_lt.mpr hn, hsize⟩)).trans ((if_neg (not_not.mpr hown)).trans ((if_neg fun hread => ?_).trans rfl))
  exact Bool.false_ne_true (hidle.symm.trans hread)

/-! SEC_DEBUG_UNLOCK and SEC_CONFIDENTIAL_ENTER, R463, R464 -/

/-- Whatever its outcome, an attempt draws a fresh nonce; the statement is for the one before. -/
theorem secDebugUnlock_of_open (hopen : s.drawNonce.confidential = false) (hread : s.drawNonce.StatementReadable c)
    (hmagic : numAt (s.drawNonce.statement c) 0 4 = 0x44424755)
    (hlevel : numAt (s.drawNonce.statement c) 4 1 = 1 ∨ numAt (s.drawNonce.statement c) 4 1 = 2) : secDebugUnlock c s =
      let t := s.drawNonce
      let b := (t.statement c).take 128
      match t.checkStatement (t.statement c) 128 with
      | none => t.failCmd c.id 0x85
      | some _ => if numAt b 8 8 ≠ Config.serial.toNat ∨ cut b 0x10 32 ≠ s.dbgNonce then t.failCmd c.id 0x85
        else (((t.setFldOf .ssiSecStat 29 2 3).emit (.jtag true)).raise 0x0904 0 (evData [numAt b 4 1])).done c := by
  have h0 : numAt ((s.drawNonce.statement c).take 128) 0 4 = 0x44424755 := (numAt_take (by decide)).trans hmagic
  have h4 : numAt ((s.drawNonce.statement c).take 128) 4 1 = numAt (s.drawNonce.statement c) 4 1 := numAt_take (by decide)
  have hlow : ¬ numAt ((s.drawNonce.statement c).take 128) 4 1 = 0 := by omega
  have hhigh : ¬ 2 < numAt ((s.drawNonce.statement c).take 128) 4 1 := by omega
  unfold secDebugUnlock
  dsimp only
  rw [hopen, withStatement_of_readable 128 hread]
  cases s.drawNonce.checkStatement (s.drawNonce.statement c) 128 with
  | none => rfl
  | some slot => simp only [h0, hlow, hhigh, ne_eq, not_true_eq_false, false_or, Bool.false_eq_true, if_false]

/-- The device is in confidential mode with its debug ports shut. -/
def State.enterConfidential (s : State) (b : Bytes) : State :=
  let d := Config.shake256 b 64
  let s := if bit (s.reg .ssiSecStat) 30 then s.emit (.jtag false) else s
  (((s.setFldOf .ssiSecStat 31 1 1).setFldOf .ssiSecStat 30 1 0).setSec fun x => { x with policy := d }).raise 0x0905 0 (d.take 8)

theorem secConfidentialEnter_of_entered (h : s.confidential = true) : secConfidentialEnter c s = s.finish c.id 0x01 := if_pos h

theorem secConfidentialEnter_of_open (hopen : s.confidential = false) (hread : s.StatementReadable c) : secConfidentialEnter c s =
    match s.checkStatement (s.statement c) 256 with
    | none => s.failCmd c.id 0x85
    | some _ => if s.policyOk ((s.statement c).take 256) then (s.enterConfidential ((s.statement c).take 256)).done c else s.failCmd c.id 0x85 := by
  rw [secConfidentialEnter, hopen, withStatement_of_readable 256 hread]
  cases s.checkStatement (s.statement c) 256 with
  | none => rfl
  | some slot =>
    cases s.policyOk ((s.statement c).take 256)
    · rfl
    · rfl

/-! The obligation -/

/-- Settles O46: each command goes by its own checks, and what a signature or a key decides stays with the functions that give it. That a slot revoked
already ends with ST_ALREADY_DONE is the model's choice (log entry 73). -/
theorem securityCommandsComplete : Obligations.SecurityCommandsComplete := by
  unfold Obligations.SecurityCommandsComplete
  intro dt id s c u st
  refine ⟨?identity, ?attest, ?rollback, ?revoke, ?load, ?release, ?unlock, ?confidential⟩
  case identity => exact fun hr hmaster => completes_cmd rfl rfl hr (secGetIdentity_of_master hmaster)
  case attest => exact fun hr hmaster => completes_cmd rfl rfl hr (secAttest_of_master hmaster)
  case rollback =>
    exact ⟨fun hr hnew hwarn => completes_cmd rfl rfl hr (secRollbackCommit_of_newer hnew hwarn),
      fun hr hraised => completes_cmd rfl rfl hr (secRollbackCommit_of_raised hraised)⟩
  case revoke =>
    exact fun hr hread hmagic hslot hserial hleft =>
      completes_cmd rfl rfl hr (secRootRevoke_of_mayRevoke hread ⟨hmagic, hslot, hserial, hleft⟩)
  case load =>
    intro b w n dst key tags hr hread
    exact completes_cmd rfl rfl hr (secWeightLoad_of_readable hread)
  case release =>
    intro e n base size hr hn hsize hown hidle
    exact completes_kv rfl rfl hr (secWeightRelease_of_idle hn hsize hown hidle)
  case unlock =>
    intro v hr hopen hread hmagic hlevel hsame
    have hstatement : u.drawNonce.statement c = st := hsame
    have hrow := secDebugUnlock_of_open (s := u) hopen hread (by rw [hstatement]; exact hmagic) (by rw [hstatement]; exact hlevel)
    dsimp only at hrow
    rw [hstatement] at hrow
    exact completes_cmd rfl rfl hr hrow
  case confidential =>
    intro b d
    refine ⟨fun hr hentered => completes_cmd rfl rfl hr (secConfidentialEnter_of_entered hentered), ?_⟩
    intro v hr hopen hread
    exact completes_cmd rfl rfl hr (secConfidentialEnter_of_open hopen hread)

end Sys2Proof.Machine
end

section
/-! The training and the flits of a Chamerline port (R329 to R331, R333), and their obligation. -/
namespace Sys2Proof.Machine
variable {s : State} {p : Nat}

/-- The row of an event after which what waited for it ends. -/
theorem completes_settled {t : State} {i : Instr} {dt : Nat} {f : State → State} (h : exec i s = runEvent dt (fun s => (f s).settle) s) (hd : i.dt = dt)
    (hf : f (s.elapse dt) = t) : Completes i s t.settle := completes_event h hd (congrArg State.settle hf)

/-! The training state is a field of the port's status register -/

theorem State.linkState_congr {t : State} (h : t.reg (.mmvLinkStat p) = s.reg (.mmvLinkStat p)) : t.linkState p = s.linkState p :=
  State.fldOf_congr h 24 3

theorem State.linkState_linkTo (st : Nat) : (s.linkTo p st).linkState p = st % 8 := State.fldOf_setFldOf_self _ _ _ (by decide)

theorem State.linkState_setFldOf (lo len x : Nat) (h : lo + len ≤ 24) : (s.setFldOf (.mmvLinkStat p) lo len x).linkState p = s.linkState p :=
  State.fldOf_setFldOf_of_disjoint _ _ _ (by decide) (.inr h)

theorem State.linkState_linkReason (r : Nat) : (s.linkReason p r).linkState p = s.linkState p := State.linkState_setFldOf 0 4 r (by decide)

theorem State.linkState_raise (c q : Nat) (b : Bytes) : (s.raise c q b).linkState p = s.linkState p :=
  State.linkState_congr (State.raise_reg_ne _ _ _ _ (by simp))

theorem State.linkState_close_settle (dt : Nat) (t : State) : (s.close dt t.settle).linkState p = t.linkState p :=
  State.linkState_congr ((s.close_reg dt _ _).trans (State.settle_reg_ne _ (by simp)))

/-! What a port that no retrain waits for does -/

theorem State.detectTimeout_of_idle (h : s.mmv.retrains = []) : s.detectTimeout p = s := by rw [State.detectTimeout, h]; rfl

theorem State.retrainFail_of_idle (st : Nat) (h : s.mmv.retrains = []) : s.retrainFail p st = s := by rw [State.retrainFail, h]; rfl

theorem State.retrainDone_of_idle (h : s.mmv.retrains = []) : s.retrainDone p = s := by rw [State.retrainDone, h]; rfl

theorem State.authFailed_of_idle (reason : Nat) (h : s.mmv.retrains = []) :
    s.authFailed p reason = ((s.linkTo p 7).linkReason p reason).raise 0x0703 0 (evData [p, reason]) :=
  State.retrainFail_of_idle _ (by simpa using h)

theorem State.authFailed_linkState (reason : Nat) (h : s.mmv.retrains = []) : (s.authFailed p reason).linkState p = 7 := by
  rw [State.authFailed_of_idle reason h, State.linkState_raise, State.linkState_linkReason, State.linkState_linkTo]

/-! Training, R329 -/

theorem linkDetectRetry_of_detect (h : s.linkState p = 1) : linkDetectRetry p s = (s.linkReason p 1).detectTimeout p := if_pos h

/-- The least width that a port may train at, R332. -/
def State.leastWidth (s : State) (p : Nat) : Nat := match s.fldOf (.mmvLinkCtl p) 28 2 with | 2 => 2 | 3 => 4 | _ => 1

/-- A port that equalised at a width identifies itself. -/
def State.identify (s : State) (p n : Nat) : State :=
  ((((s.draw 32).2.linkTo p 3).modPort p fun x => { x with width := n, nonce := (s.draw 32).1 }).emit
    (.linkIdent p (identBytes Config.setId.toNat s.devNum p (s.draw 32).1)))

/-- The device number stands in a register of its own. -/
theorem State.draw_linkTo_devNum (f : Port → Port) : (((s.draw 32).2.linkTo p 3).modPort p f).devNum = s.devNum :=
  State.fldOf_congr (State.setFldOf_reg_ne _ _ _ _ (by simp)) 0 5

theorem linkEqualizeDone_eq (h : s.linkState p = 2) (w : Option Nat) : linkEqualizeDone p w s = match w with
    | some n => if s.leastWidth p ≤ n ∧ (n = 1 ∨ n = 2 ∨ n = 4) then s.identify p n else ((s.linkTo p 1).linkReason p 2).detectTimeout p
    | none => ((s.linkTo p 1).linkReason p 2).detectTimeout p := by
  refine (if_neg (not_not.mpr h)).trans ?_
  cases w with
  | none => rfl
  | some n =>
    simp only [State.draw_linkTo_devNum]
    rfl

theorem linkEqualizeDone_of_wide (h : s.linkState p = 2) {n : Nat} (hleast : s.leastWidth p ≤ n) (hn : n = 1 ∨ n = 2 ∨ n = 4) :
    linkEqualizeDone p (some n) s = s.identify p n := (linkEqualizeDone_eq h _).trans (if_pos ⟨hleast, hn⟩)

theorem linkEqualizeDone_of_narrow (h : s.linkState p = 2) {w : Option Nat} (hw : ∀ n, w = some n → n < s.leastWidth p) :
    linkEqualizeDone p w s = ((s.linkTo p 1).linkReason p 2).detectTimeout p := by
  rw [linkEqualizeDone_eq h]
  cases w with
  | none => rfl
  | some n => exact if_neg fun hwide => Nat.not_le.mpr (hw n rfl) hwide.1

/-- The port with the identity of the other end, and the keys that both derive. -/
def State.keyed (s : State) (p : Nat) (peer : LinkPeer) : Port :=
  let x := { s.port p with peerDev := peer.dev, peerPort := peer.port, peerNonce := peer.nonce }
  { x with keys := s.linkKeys p x }

theorem linkIdentifyRx_of_identify (h : s.linkState p = 3) (peer : LinkPeer) : linkIdentifyRx p peer s =
    if peer.setId ≠ Config.setId ∨ peer.setId = 0 ∨ Config.setId = 0 then s.authFailed p 3
    else if peer.dev = s.devNum then s.authFailed p 5
    else ((s.linkTo p 4).modPort p fun _ => s.keyed p peer).emit (.linkIdent p (s.confirmTag p (s.keyed p peer) true)) :=
  if_neg (not_not.mpr h)

/-- A port comes UP: its state, width, peer and count show it, and P0 is told. -/
def State.comeUp (s : State) (p : Nat) : State :=
  let x := s.port p
  let a := ((s.linkTo p 5).setFldOf (.mmvLinkStat p) 16 3 x.width).linkReason p 0
  let b := (a.setReg (.mmvLinkPeer p) (setFld (setFld (0 : W64) 0 5 x.peerDev) 8 3 x.peerPort)).countWrap (.mmvLinkTrain p) 0 16 1
  let d := (b.raise 0x0701 0 (evData [p, x.width, x.peerDev, x.peerPort])).modPort p fun x => { x with gcmAt := [] }
  if x.width < 4 then d.raise 0x0704 0 (evData [p]) else d

theorem linkAuthConfirm_of_auth (h : s.linkState p = 4) (tag : Bytes) : linkAuthConfirm p tag s =
    if tag = s.confirmTag p (s.port p) false then (s.comeUp p).retrainDone p else s.authFailed p 4 :=
  (if_neg (not_not.mpr h)).trans (ite_not ..)

theorem State.comeUp_linkState : (s.comeUp p).linkState p = 5 := by
  have hup : (((s.linkTo p 5).setFldOf (.mmvLinkStat p) 16 3 (s.port p).width).linkReason p 0).linkState p = 5 := by
    rw [State.linkState_linkReason, State.linkState_setFldOf _ _ _ (by decide), State.linkState_linkTo]
  have hpeer (t : State) (v : W64) : ((t.setReg (.mmvLinkPeer p) v).countWrap (.mmvLinkTrain p) 0 16 1).linkState p = t.linkState p :=
    State.linkState_congr ((State.countWrap_reg_ne _ _ _ _ (by simp)).trans (State.setReg_reg_ne _ _ (by simp)))
  have htold (t : State) (b : Bytes) (f : Port → Port) : ((t.raise 0x0701 0 b).modPort p f).linkState p = t.linkState p :=
    State.linkState_raise _ _ _
  rw [State.comeUp]
  split
  · rw [State.linkState_raise, htold, hpeer, hup]
  · rw [htold, hpeer, hup]

theorem State.comeUp_retrains : (s.comeUp p).mmv.retrains = s.mmv.retrains := by
  rw [State.comeUp]
  split
  · rw [State.raise_mmv, State.modPort, State.setMmv, State.raise_mmv]; rfl
  · rw [State.modPort, State.setMmv, State.raise_mmv]; rfl

/-- The confirmation decides between UP and AUTH_FAILED. -/
theorem linkAuthConfirm_linkState (h : s.linkState p = 4) (hidle : s.mmv.retrains = []) (tag : Bytes) :
    (linkAuthConfirm p tag s).linkState p = if tag = s.confirmTag p (s.port p) false then 5 else 7 := by
  rw [linkAuthConfirm_of_auth h]
  split
  · rw [State.retrainDone_of_idle (State.comeUp_retrains.trans hidle), State.comeUp_linkState]
  · exact State.authFailed_linkState 4 hidle

/-! A lost lock, R329 -/

theorem linkLossOfLock_of_up (h : s.linkState p = 5) : linkLossOfLock p s =
    if (s.linkDown p 0 false).autoRetrain p then (s.linkDown p 0 false).linkRestart p 1 else (s.linkDown p 0 false).linkRestart p 6 := if_pos h

/-- A port that goes down keeps its control register. -/
theorem State.linkDown_ctl (reason : Nat) (drained : Bool) : (s.linkDown p reason drained).reg (.mmvLinkCtl p) = s.reg (.mmvLinkCtl p) := by
  have hbase (f : Port → Port) (b : Bytes) : ((((s.linkReason p reason).setFldOf (.mmvLinkStat p) 16 3 0).raise 0x0702 0 b).modPort p f).reg (.mmvLinkCtl p) =
      s.reg (.mmvLinkCtl p) :=
    (State.raise_reg_ne _ _ _ _ (by simp)).trans ((State.setFldOf_reg_ne _ _ _ _ (by simp)).trans (State.setFldOf_reg_ne _ _ _ _ (by simp)))
  rw [State.linkDown]
  split
  · exact hbase _ _
  · exact (foldl_keeps (·.reg (.mmvLinkCtl p)) (fun s id => s.failCmd id 0x71) (fun t id => t.endCmd_reg_ne id _ _ (by simp)) _ _).trans (hbase _ _)

theorem State.linkDown_autoRetrain (reason : Nat) (drained : Bool) : (s.linkDown p reason drained).autoRetrain p = s.autoRetrain p :=
  congrArg (· == 1) (State.fldOf_congr (s.linkDown_ctl reason drained) 30 1)

theorem State.linkRestart_linkState (st : Nat) : (s.linkRestart p st).linkState p = st % 8 := State.linkState_linkTo st

theorem linkLossOfLock_linkState (h : s.linkState p = 5) : (linkLossOfLock p s).linkState p = if s.autoRetrain p then 1 else 6 := by
  rw [linkLossOfLock_of_up h, State.linkDown_autoRetrain]
  split <;> exact State.linkRestart_linkState _

/-! Flits and keys, R330, R331 -/

theorem linkFlitRx_of_fecFail (h : s.linkState p = 5) (body : FlitBody) :
    linkFlitRx p .fecFail body s = (s.countSat (.mmvLinkErr p) 0 16).countSat (.mmvLinkRetry p) 0 32 := if_neg (not_not.mpr h)

theorem linkFlitRx_of_gcmFail (h : s.linkState p = 5) (body : FlitBody) : linkFlitRx p .gcmFail body s = s.gcmFail p := if_neg (not_not.mpr h)

theorem linkFlitRx_of_good (h : s.linkState p = 5) (body : FlitBody) : linkFlitRx p .good body s =
    let w := s.countWrap (.mmvLinkRxBytes p) 0 64 (flitBytes body)
    match body with
    | .write part a b => (match w.access (.part part) .other true a b.length with
      | some st => w.reportAccess (.part part) .other true 3 a b.length st
      | none => w.store a b)
    | .kvSequence peer mid ptok layers heads d fmt len tag pages =>
      w.setKv fun k => { k with inbox := k.inbox ++ [{ peer := peer, matchId := mid, ptok := ptok, layers := layers, heads := heads, d := d, fmt := fmt
                                                       len := len, tag := Tag.ofBytes (leBytes 8 tag.1.toNat ++ leBytes 8 tag.2.toNat), pages := pages }] }
    | .kvReply peer mid st => w.kvReplied peer mid st
    | .forward dev hops n =>
      if 4 ≤ hops then w.raiseLim 0x070B p 0 (evData [dev])
      else (match w.linkRoute dev with | some q => w.linkTx q n | none => w)
    | .control => w := by
  refine (if_neg (not_not.mpr h)).trans ?_
  cases body <;> rfl

/-- A write that its part may make is stored. -/
theorem linkFlitRx_of_write (h : s.linkState p = 5) {part a : Nat} {b : Bytes}
    (haccess : (s.countWrap (.mmvLinkRxBytes p) 0 64 b.length).access (.part part) .other true a b.length = none) :
    linkFlitRx p .good (.write part a b) s = (s.countWrap (.mmvLinkRxBytes p) 0 64 b.length).store a b := by
  rw [linkFlitRx_of_good h]
  simp only [flitBytes, haccess]

theorem linkRekey_of_up (h : s.linkState p = 5) (nonce : Bytes) : linkRekey p nonce s =
    let x := { s.port p with nonce := (s.draw 32).1, peerNonce := nonce }
    ((s.draw 32).2.modPort p fun _ => { x with keys := s.linkKeys p x }).countWrap (.mmvLinkTrain p) 16 16 1 := if_pos h

/-! LINK_RETRAIN_START, R333 -/

/-- Training begins once the traffic has ended, or the drain timed out and no part that it stopped restarts. -/
theorem linkRetrainStart_of_drained {id : Nat} {r : Retrain} (hr : s.mmv.retrains.find? (fun r => r.cmd == id && !r.training) = some r)
    (h : s.onPort r.port = [] ∨ (r.timedOut = true ∧ ∀ q ∈ r.restarted, s.partState q ≠ .restarting)) :
    linkRetrainStart id s = s.beginTraining r := by
  rw [linkRetrainStart, hr]
  refine if_pos ?_
  rcases h with hnone | ⟨hlate, hrestarted⟩
  · rw [hnone]; rfl
  · have hany : (r.restarted.any fun q => s.partState q == .restarting) = false :=
      List.any_eq_false.mpr fun q hq => by simpa using hrestarted q hq
    rw [hlate, hany]
    exact Bool.or_true _

/-- Settles O35: each row finds the port in its state and follows its event. A flit whose check of integrity fails is dropped, replayed and counted,
and 8 within 1 ms start a retrain with reason 6 (R329, R331); what a port does in RETRAIN and EQUALIZE is the model's choice (log entry 67). -/
theorem linkRowsComplete : Obligations.LinkRowsComplete := by
  unfold Obligations.LinkRowsComplete
  intro dt p s u
  refine ⟨?retryIdle, ?signal, ?wide, ?noneIdle, ?identifyIdle, ?auth, ?lossState, ?fec, ?write, ?rekey, ?startOne, ?retry, ?width, ?narrow, ?identify,
    ?confirm, ?loss, ?flit, ?start⟩
  case retryIdle =>
    exact fun _ hstate hidle => completes_event rfl rfl ((linkDetectRetry_of_detect hstate).trans (State.detectTimeout_of_idle hidle))
  case signal => exact fun hstate => completes_event (f := fun s => if s.linkState p = 1 then s.linkTo p 2 else s) rfl rfl (if_pos hstate)
  case wide =>
    intro hstate hmode
    have hleast : u.leastWidth p ≤ 4 := by simp [State.leastWidth, hmode]
    exact completes_event rfl rfl (linkEqualizeDone_of_wide hstate hleast (.inr (.inr rfl)))
  case noneIdle =>
    exact fun hstate hidle => completes_event rfl rfl ((linkEqualizeDone_of_narrow hstate (by simp)).trans (State.detectTimeout_of_idle hidle))
  case identifyIdle =>
    intro peer hstate hidle
    refine completes_event rfl rfl ((linkIdentifyRx_of_identify hstate peer).trans ?_)
    rw [State.authFailed_of_idle 3 hidle, State.authFailed_of_idle 5 hidle]
    rfl
  case auth =>
    intro tag _ hstate _ hidle
    have hrow : Completes (.linkAuthConfirm dt p tag) s (linkAuthConfirm p tag u).settle := completes_settled rfl rfl rfl
    exact ⟨_, hrow, (State.linkState_close_settle _ _).trans (linkAuthConfirm_linkState hstate hidle tag)⟩
  case lossState =>
    intro _ hstate
    have hrow : Completes (.linkLossOfLock dt p) s (linkLossOfLock p u).settle := completes_settled rfl rfl rfl
    exact ⟨_, hrow, (State.linkState_close_settle _ _).trans (linkLossOfLock_linkState hstate)⟩
  case fec => exact fun body hstate => completes_settled rfl rfl (linkFlitRx_of_fecFail hstate body)
  case write =>
    intro part a b hstate w haccess
    exact completes_settled rfl rfl (linkFlitRx_of_write hstate haccess)
  case rekey => exact fun nonce hstate => completes_event rfl rfl (linkRekey_of_up hstate nonce)
  case startOne =>
    intro id r hone hid htraining hdrained
    refine completes_event rfl rfl (linkRetrainStart_of_drained ?_ (.inl hdrained))
    rw [hone, List.find?_cons_of_pos (by simp [hid, htraining])]
  case retry => exact fun hstate => completes_event rfl rfl (linkDetectRetry_of_detect hstate)
  case width =>
    intro n least hstate hleast hn
    exact completes_event rfl rfl (linkEqualizeDone_of_wide hstate hleast hn)
  case narrow =>
    intro w least hstate hw
    exact completes_event rfl rfl (linkEqualizeDone_of_narrow hstate hw)
  case identify => exact fun peer hstate => completes_event rfl rfl (linkIdentifyRx_of_identify hstate peer)
  case confirm => exact fun tag hstate => completes_settled rfl rfl (linkAuthConfirm_of_auth hstate tag)
  case loss => exact fun hstate => completes_settled rfl rfl (linkLossOfLock_of_up hstate)
  case flit =>
    intro hstate
    refine ⟨fun body => completes_settled rfl rfl (linkFlitRx_of_gcmFail hstate body), fun body => ?_⟩
    refine completes_settled rfl rfl ((linkFlitRx_of_good hstate body).trans ?_)
    cases body <;> rfl
  case start => exact fun id r hr hdrained => completes_event rfl rfl (linkRetrainStart_of_drained hr hdrained)

end Sys2Proof.Machine
end

section
/-! Collective operations (R334 to R338), and their obligation. -/
namespace Sys2Proof.Machine
variable {s : State} {id : Nat}

/-! COLL_MATCH_RECORD_RX, R336 -/

theorem collMatchRecordRx_of_new {r : CollRecord} (h : s.mmv.colls.find? (fun k => k.id == id) = none) : collMatchRecordRx id r s =
    s.setMmv fun m => { m with arrived := (m.arrived.filter fun e => !(e.1 == id && e.2.dev == r.dev)) ++ [(id, r)] } := by
  rw [collMatchRecordRx, h]

theorem collMatchRecordRx_of_known {r : CollRecord} {k : Coll} (h : s.mmv.colls.find? (fun k => k.id == id) = some k) :
    collMatchRecordRx id r s = (s.collJoin k r).settle := by rw [collMatchRecordRx, h]

/-- A collective with one more record; the transfers begin with the last one. -/
def Coll.withRecord (k : Coll) (r : CollRecord) (ns : Nat) : Coll :=
  let rs := (k.recs.filter fun x => x.dev != r.dev) ++ [r]
  { k with recs := rs, since := if rs.length + 1 = k.n then ns else k.since }

theorem State.collJoin_of_agree {k : Coll} {r : CollRecord} (h : collAgree (s.ownRecord k) r = true) : s.collJoin k r =
    s.setMmv fun m => { m with colls := updFirst (fun x => x.cmd == k.cmd) (fun _ => k.withRecord r s.ns) m.colls } :=
  if_neg (by simp [h])

theorem State.collJoin_of_mismatch {k : Coll} {r : CollRecord} (h : collAgree (s.ownRecord k) r = false) : s.collJoin k r = s.collMismatch k r.dev :=
  if_pos (by simp [h])

/-- A record of a member that had none, where more are missing, is added at the end. -/
theorem Coll.withRecord_of_missing {k : Coll} {r : CollRecord} (hnew : (k.recs.any fun x => x.dev == r.dev) = false) (hmore : k.recs.length + 2 < k.n)
    (ns : Nat) : k.withRecord r ns = { k with recs := k.recs ++ [r] } := by
  have hall : (k.recs.filter fun x => x.dev != r.dev) = k.recs :=
    List.filter_eq_self.mpr fun x hx => bne_iff_ne.mpr fun h => List.any_eq_false.mp hnew x hx (by simp [h])
  have hlen : ¬((k.recs ++ [r]).length + 1 = k.n) := by
    rw [List.length_append, List.length_singleton]
    omega
  simp only [Coll.withRecord, hall, if_neg hlen]

/-- Setting the one collective there is. -/
theorem State.setMmv_only_coll {k g : Coll} (h : s.mmv.colls = [k]) :
    (s.setMmv fun m => { m with colls := updFirst (fun x => x.cmd == k.cmd) (fun _ => g) m.colls }) = s.setMmv fun m => { m with colls := [g] } := by
  simp [State.setMmv, h, updFirst]

theorem find_only_coll {k : Coll} {l : List Coll} (h : l = [k]) (hid : k.id = id) : l.find? (fun k => k.id == id) = some k := by
  rw [h, List.find?_cons_of_pos (by simp [hid])]

/-! MOVE_COLLECTIVE, R335, R338 -/

theorem collectiveRow_of_complete {c : Cmd} {k : Coll} (hr : s.runs id 0x0740 = some c) (hk : s.mmv.colls.find? (fun k => k.cmd == id) = some k)
    (hall : k.recs.length + 1 = k.n) : collectiveRow id s = (moveCollective c k (s.start id)).settle := by
  simp only [collectiveRow, hr, hk, if_pos hall]

/-- Counting payload on a link leaves the free choices and the device number alone. -/
theorem State.collCount_kept (tx : Bool) (e : Nat × Nat) : (s.collCount tx e).freeCtr = s.freeCtr ∧ (s.collCount tx e).devNum = s.devNum := by
  rw [State.collCount]
  split
  · split
    · exact ⟨rfl, State.fldOf_congr (State.countWrap_reg_ne _ _ _ _ (by simp)) 0 5⟩
    · exact ⟨rfl, State.fldOf_congr (State.countWrap_reg_ne _ _ _ _ (by simp)) 0 5⟩
  · exact ⟨rfl, rfl⟩

/-- The transfers leave the free choices and the device number alone. -/
theorem State.collTraffic_kept (k : Coll) (ring : Bool) (bytes : Nat) :
    (s.collTraffic k ring bytes).freeCtr = s.freeCtr ∧ (s.collTraffic k ring bytes).devNum = s.devNum := by
  have hpair (t : State) (a b : Nat × Nat) : ((t.collCount true a).collCount false b).freeCtr = t.freeCtr ∧
      ((t.collCount true a).collCount false b).devNum = t.devNum :=
    ⟨(State.collCount_kept _ _).1.trans (State.collCount_kept _ _).1, (State.collCount_kept _ _).2.trans (State.collCount_kept _ _).2⟩
  rw [State.collTraffic]
  split
  · exact hpair _ _ _
  · exact ⟨foldl_keeps (·.freeCtr) (fun (t : State) d => (t.collCount true (d, k.owes s.devNum d bytes)).collCount false (d, k.owes d s.devNum bytes))
      (fun t d => (hpair t _ _).1) _ _, foldl_keeps (·.devNum)
      (fun (t : State) d => (t.collCount true (d, k.owes s.devNum d bytes)).collCount false (d, k.owes d s.devNum bytes)) (fun t d => (hpair t _ _).2) _ _⟩

theorem State.store_devNum (a : Nat) (b : Bytes) : (s.store a b).devNum = s.devNum := State.fldOf_congr (s.store_reg_ne _ _ (by simp)) 0 5

theorem State.putCodes_devNum (d : Desc) (l : List Nat) : (s.putCodes d l).devNum = s.devNum :=
  foldl_keeps (·.devNum) (fun (s : State) (r : Nat × Nat) => s.store r.1 (packRow d.fmt ((l.drop (r.2 * d.ext 0)).take (d.ext 0))))
    (fun _ _ => State.store_devNum _ _) _ s

/-- The bytes of the largest piece that a member brings. -/
def State.collPiece (s : State) (k : Coll) : Nat :=
  (((s.collAll k).filter fun r => Coll.hasSrc r.op k.root r.dev || decide (6 ≤ r.op)).map fun r => r.src.length).foldl Nat.max 0

/-- Whether the transfers go round the ring. -/
def State.collByRing (s : State) (k : Coll) : Bool := s.collRing k (if k.op = 4 then s.collPiece k * k.n else s.collPiece k) && decide (k.op < 6)

/-- The tags of the pieces that enter the result. -/
def State.collTags (s : State) (k : Coll) : List Tag :=
  ((s.collAll k).filter fun r => if 6 ≤ k.op then r.dev == k.root else Coll.hasSrc k.op k.root r.dev).map recordTag

/-- The pieces have gone over the links, and their tags are the command's. -/
def State.collMoved (s : State) (c : Cmd) (k : Coll) : State :=
  let a := (s.collTraffic k (s.collByRing k) (s.collPiece k)).updCmd c.id fun x => { x with ins := s.collTags k }
  { a with freeCtr := a.freeCtr + 1 }

/-- The rank and the algorithm are the command's answer. -/
def State.collAnswer (s : State) (c : Cmd) (k : Coll) (ring : Bool) : State :=
  (s.setResult c.id 0x20 (leBytes 1 (k.rank s.devNum) ++ leBytes 1 (if ring then 0 else 1))).setVerdict c.id 0

theorem moveCollective_of_dst (c : Cmd) {k : Coll} {d : Desc} (h : k.dst = some d) : moveCollective c k s =
    ((s.collMoved c k).putCodes d (k.result s.freeCtr s.devNum (s.ownRecord k).fmt ((s.collAll k).map collCodes))).collAnswer c k (s.collByRing k) := by
  unfold moveCollective
  rw [h]
  rfl

theorem State.collPiece_of_gather {k : Coll} (hall : ∀ r ∈ s.collAll k, r.op = 4) :
    s.collPiece k = ((s.collAll k).map fun r => r.src.length).foldl Nat.max 0 := by
  have hpieces : ((s.collAll k).filter fun r => Coll.hasSrc r.op k.root r.dev || decide (6 ≤ r.op)) = s.collAll k :=
    List.filter_eq_self.mpr fun r hr => by rw [hall r hr]; rfl
  rw [State.collPiece, hpieces]

section
variable {k : Coll} (hop : k.op = 4)
include hop

theorem State.collTags_of_gather : s.collTags k = (s.collAll k).map recordTag := by
  have htags : ((s.collAll k).filter fun r => if 6 ≤ k.op then r.dev == k.root else Coll.hasSrc k.op k.root r.dev) = s.collAll k :=
    List.filter_eq_self.mpr fun r _ => by rw [hop]; rfl
  rw [State.collTags, htags]

theorem State.collByRing_of_gather : s.collByRing k = s.collRing k (s.collPiece k * k.n) := by
  rw [State.collByRing, hop]
  exact Bool.and_true _

/-- Every member of an all-gather brings a piece, and the pieces in rank order are the result. -/
theorem moveCollective_of_gather {c : Cmd} {d : Desc} (hdst : k.dst = some d) (hall : ∀ r ∈ s.collAll k, r.op = 4) :
    moveCollective c k s =
      let all := s.collAll k
      let piece := (all.map fun r => r.src.length).foldl Nat.max 0
      let w := { (s.collTraffic k (s.collRing k (piece * k.n)) piece).updCmd c.id fun x => { x with ins := all.map recordTag } with freeCtr := s.freeCtr + 1 }
      ((w.putCodes d (all.map collCodes).flatten).setResult c.id 0x20
        (leBytes 1 (k.rank s.devNum) ++ leBytes 1 (if s.collRing k (piece * k.n) then 0 else 1))).setVerdict c.id 0 := by
  have hctr : (s.collTraffic k (s.collByRing k) (s.collPiece k)).freeCtr = s.freeCtr := (State.collTraffic_kept _ _ _).1
  have hdev : (s.collMoved c k).devNum = s.devNum := (State.collTraffic_kept k (s.collByRing k) (s.collPiece k)).2
  have hmoved : s.collMoved c k = { (s.collTraffic k (s.collByRing k) (s.collPiece k)).updCmd c.id fun x => { x with ins := s.collTags k } with
      freeCtr := s.freeCtr + 1 } := by rw [State.collMoved, State.updCmd_freeCtr, hctr]
  have hresult : k.result s.freeCtr s.devNum (s.ownRecord k).fmt ((s.collAll k).map collCodes) = ((s.collAll k).map collCodes).flatten := by
    simp only [Coll.result, hop]
  rw [moveCollective_of_dst c hdst, State.collAnswer, State.putCodes_devNum, hdev, hresult, hmoved, State.collByRing_of_gather hop,
    State.collTags_of_gather hop, State.collPiece_of_gather hall]

end

/-! COLL_TIMEOUT -/

theorem execCollTimeout_eq {dt : Nat} {k : Coll} (hk : (s.elapse dt).mmv.colls.find? (fun k => k.cmd == id) = some k)
    (hrun : (s.elapse dt).isRunning id = true) (hopen : (((s.elapse dt).cmd? id).any fun c => c.verdict.isNone) = true) :
    Completes (.collTimeout dt id) s (collTimeout k (s.elapse dt)) := by
  refine completes_event (f := fun s => match s.mmv.colls.find? fun k => k.cmd == id with
    | some k => if s.isRunning id ∧ (s.cmd? id).any (fun c => c.verdict.isNone) = true then collTimeout k s else s
    | none => s) rfl rfl ?_
  simp only [hk, if_pos (And.intro hrun hopen)]

/-- The members whose records are missing. -/
def Coll.missing (k : Coll) (s : State) : List Nat := k.devs.filter fun d => d != s.devNum && !(k.recs.any fun r => r.dev == d)

theorem collTimeout_of_late {k : Coll} (hlate : k.since + k.timeoutMs * 1000000 ≤ s.ns) : collTimeout k s =
    let m := (k.missing s).foldl (fun (m : Nat) d => m + 2 ^ d) 0
    let x := if m = 0 then s.fresh.2 else s
    ((x.raise 0x0707 0 (evData [k.id, if m = 0 then s.fresh.1.toNat &&& k.members else m])).failCmd k.cmd 0x70).settle := by
  refine (if_neg (Nat.not_lt.mpr hlate)).trans ?_
  by_cases hm : (k.missing s).foldl (fun (m : Nat) d => m + 2 ^ d) 0 = 0
  · simp only [Coll.missing] at hm ⊢
    simp only [hm, if_true]
  · simp only [Coll.missing] at hm ⊢
    simp only [hm, if_false]

/-- One missing member is named. -/
theorem collTimeout_of_one {k : Coll} {m : Nat} (hlate : k.since + k.timeoutMs * 1000000 ≤ s.ns) (hm : k.missing s = [m]) :
    collTimeout k s = ((s.raise 0x0707 0 (evData [k.id, 2 ^ m])).failCmd k.cmd 0x70).settle := by
  have hbit : ¬(2 ^ m = 0) := by simp
  rw [collTimeout_of_late hlate, hm]
  simp only [List.foldl_cons, List.foldl_nil, Nat.zero_add, if_neg hbit]

/-- Settles O36: a record is kept, joins or ends its collective; the transfers run with every record there; a member that stays away is named.
The status of the timeout is ST_PEER_UNREACHABLE, 0x70; how the missing traffic and the ring are told is the model's choice (log entry 70). -/
theorem collectiveRowsComplete : Obligations.CollectiveRowsComplete := by
  unfold Obligations.CollectiveRowsComplete
  intro dt id s u v
  refine ⟨?early, ?joinOne, ?endOne, ?gather, ?timeoutOne, ?known, ?transfer, ?timeout⟩
  case early => exact fun r hnew => completes_event rfl rfl (collMatchRecordRx_of_new hnew)
  case joinOne =>
    intro r k hone hid hagree hnew hmore
    refine completes_event rfl rfl ((collMatchRecordRx_of_known (find_only_coll hone hid)).trans (congrArg State.settle ?_))
    rw [State.collJoin_of_agree hagree, Coll.withRecord_of_missing hnew hmore, State.setMmv_only_coll hone]
  case endOne =>
    intro r k hone hid hmis
    exact completes_event rfl rfl ((collMatchRecordRx_of_known (find_only_coll hone hid)).trans (congrArg State.settle (State.collJoin_of_mismatch hmis)))
  case gather =>
    intro c k d hr hk hcount hop hdst all piece w hall
    exact completes_event (f := collectiveRow id) rfl rfl
      ((collectiveRow_of_complete hr hk hcount).trans (congrArg State.settle (moveCollective_of_gather hop hdst hall)))
  case timeoutOne =>
    intro k m hk hrun hopen hlate hm
    have hrow := execCollTimeout_eq hk hrun hopen
    rwa [collTimeout_of_one hlate hm] at hrow
  case known =>
    intro r k hk
    refine ⟨fun hagree => ?_, fun hmis => ?_⟩
    · exact completes_event rfl rfl ((collMatchRecordRx_of_known hk).trans (congrArg State.settle (State.collJoin_of_agree hagree)))
    · exact completes_event rfl rfl ((collMatchRecordRx_of_known hk).trans (congrArg State.settle (State.collJoin_of_mismatch hmis)))
  case transfer =>
    intro c k hr hk hcount
    refine completes_event (f := collectiveRow id) rfl rfl ((collectiveRow_of_complete hr hk hcount).trans (congrArg State.settle ?_))
    rw [moveCollective]
    cases k.dst <;> rfl
  case timeout =>
    intro k hk hrun hopen hlate
    have hrow := execCollTimeout_eq hk hrun hopen
    rwa [collTimeout_of_late hlate] at hrow

end Sys2Proof.Machine
end

section
/-! Movements between tensors (R316, R318, R320 to R322, R325), and their obligation. -/
namespace Sys2Proof.Machine
variable {s : State}

/-! Tensors of this device -/

/-- The device number stands in a register of its own. -/
theorem State.isLocal_congr {t : State} (h : t.reg .mmvDevNum = s.reg .mmvDevNum) (d : Desc) : t.isLocal d = s.isLocal d := by
  rw [State.isLocal, State.isLocal, State.devNum, State.devNum, State.fldOf_congr h, h]

@[simp] theorem State.store_isLocal (a : Nat) (b : Bytes) (d : Desc) : (s.store a b).isLocal d = s.isLocal d :=
  State.isLocal_congr (s.store_reg_ne a b (by simp)) d

theorem State.codeAny_of_local {d : Desc} (h : s.isLocal d = true) (ctr : Nat) (idx : List Nat) : s.codeAny ctr d idx = s.code d idx := if_pos h

theorem State.putRow_of_local {d : Desc} (h : s.isLocal d = true) (part row : Nat) (l : List Nat) : s.putRow part d row l = s.store row (packRow d.fmt l) :=
  if_pos h

theorem State.peerReads_of_local {d : Desc} (h : s.isLocal d = true) (part : Nat) : s.peerReads part d = s := if_pos h

/-- Two folds whose steps agree where a property holds, which the second one's keep, agree. -/
theorem foldl_eq_of_kept {α : Type} {P : State → Prop} {f g : State → α → State} (hfg : ∀ s x, P s → f s x = g s x) (hg : ∀ s x, P s → P (g s x)) :
    ∀ (l : List α) (s : State), P s → l.foldl f s = l.foldl g s
  | [], _, _ => rfl
  | x :: r, s, h => by rw [List.foldl_cons, List.foldl_cons, hfg s x h, foldl_eq_of_kept hfg hg r _ (hg s x h)]

theorem State.putRows_of_local {d : Desc} (h : s.isLocal d = true) (part : Nat) (l : List (Nat × List Nat)) :
    l.foldl (fun (s : State) r => s.putRow part d r.1 r.2) s = l.foldl (fun (s : State) r => s.store r.1 (packRow d.fmt r.2)) s :=
  foldl_eq_of_kept (P := fun s => s.isLocal d = true) (fun _ r hs => State.putRow_of_local hs part r.1 r.2)
    (fun _ _ hs => (State.store_isLocal _ _ _).trans hs) l s h

/-- A fold whose every step leaves the state as it is. -/
theorem foldl_eq_self {α : Type} {f : State → α → State} {l : List α} (h : ∀ x ∈ l, f s x = s) : l.foldl f s = s := by
  induction l with
  | nil => rfl
  | cons x r ih => rw [List.foldl_cons, h x (List.mem_cons_self ..), ih fun y hy => h y (List.mem_cons_of_mem _ hy)]

/-- A command whose tensors are all here reads nothing over a link. -/
theorem State.peerReads_of_all_local {l : List (Nat × Desc)} (h : ∀ e ∈ l, s.isLocal e.2 = true) (outs : List Nat) (part : Nat) :
    l.foldl (fun (s : State) e => if outs.contains e.1 then s else s.peerReads part e.2) s = s :=
  foldl_eq_self fun e he => by rw [State.peerReads_of_local (h e he), ite_self]

/-! The row of a movement -/

section
variable {i : Instr} {dt id code : Nat} {c : Cmd} {j : MoveJob} {f : Cmd → MoveJob → State → State} (hexec : exec i s = runMove dt id code f s)
  (hd : i.dt = dt)
include hexec hd

/-- A movement that nothing earlier holds up reads what its peers have and runs. -/
theorem completes_move (hr : Runs s dt id code c) (hj : (s.elapse dt).mmv.moves.find? (fun x => x.cmd == id) = some j)
    (hfree : (s.elapse dt).moveWaits id = false) :
    Completes i s (f c j (j.ds.foldl (fun (s : State) e => if j.outs.contains e.1 then s else s.peerReads c.part e.2) (s.atRow dt id))).settle := by
  have hruns : (s.elapse dt).runs id code = some c := hr
  refine completes_event hexec hd ?_
  simp only [hruns, hj, hfree, Bool.false_eq_true, if_false]
  rfl

theorem completes_localMove {t : State} (h : Moves s dt id code c j) (hf : f c j (s.atRow dt id) = t) : Completes i s t.settle := by
  obtain ⟨hr, hj, hfree, hlocal⟩ := h
  have hrow := completes_move hexec hd hr hj hfree
  rwa [State.peerReads_of_all_local (s := s.atRow dt id) hlocal, hf] at hrow

end

/-! What each movement stores, R318, R320 to R322 -/

section
variable {c : Cmd} {j : MoveJob}

theorem moveCopy_of_local (hy : s.isLocal (tdescD j.ds 0x28) = true) : moveCopy c j s =
    ((s.copyRows c (tdescD j.ds 0x20) (tdescD j.ds 0x28) s.freeCtr).foldl (fun (x : State) r => x.store r.1 (packRow (tdescD j.ds 0x28).fmt r.2))
      { s with freeCtr := s.freeCtr + 2 }).setVerdict c.id 0 :=
  congrArg (·.setVerdict c.id 0) (State.putRows_of_local (s := { s with freeCtr := s.freeCtr + 2 }) hy c.part _)

/-- The source that holds an index is one of the sources. -/
theorem concatAt_mem {axis : Nat} {d : Desc} {k : Nat} : ∀ {l : List Desc} {i : Nat}, concatAt axis l i = some (d, k) → d ∈ l
  | x :: r, i, h => by
    rw [concatAt] at h
    split at h
    · cases h
      exact List.mem_cons_self ..
    · exact List.mem_cons_of_mem _ (concatAt_mem h)

/-- The code of a concatenation's element: that of the source which holds it. -/
def State.concatCode (s : State) (axis : Nat) (src : List Desc) (out : List Nat) : Nat :=
  match concatAt axis src (out.getD axis 0) with
  | some (d, i) => s.code d (out.set axis i)
  | none => 0

theorem State.concatCode_of_local {axis : Nat} {src : List Desc} (h : ∀ d ∈ src, s.isLocal d = true) (ctr : Nat) (out : List Nat) :
    (match concatAt axis src (out.getD axis 0) with
    | some (d, i) => s.codeAny ctr d (out.set axis i)
    | none => 0) = s.concatCode axis src out := by
  rw [State.concatCode]
  cases hat : concatAt axis src (out.getD axis 0) with
  | none => rfl
  | some e => exact State.codeAny_of_local (h e.1 (concatAt_mem hat)) _ _

theorem moveConcat_of_local (hds : ∀ e ∈ j.ds, s.isLocal e.2 = true) (hy : s.isLocal (tdescD j.ds 0x20) = true) : moveConcat c j s =
    (((tdescD j.ds 0x20).outerIdx.map fun o => ((tdescD j.ds 0x20).rowAt o, (List.range ((tdescD j.ds 0x20).ext 0)).map fun k =>
      s.concatCode (c.p 0x31 1) ((j.ds.filter fun e => e.1 != 0x20).map (·.2)) (k :: o))).foldl
        (fun (x : State) r => x.store r.1 (packRow (tdescD j.ds 0x20).fmt r.2)) { s with freeCtr := s.freeCtr + 1 }).setVerdict c.id 0 := by
  have hsrc : ∀ d ∈ (j.ds.filter fun e => e.1 != 0x20).map (·.2), s.isLocal d = true := by
    intro d hd
    obtain ⟨e, he, rfl⟩ := List.mem_map.mp hd
    exact hds e (List.mem_filter.mp he).1
  rw [← State.putRows_of_local (s := { s with freeCtr := s.freeCtr + 1 }) hy c.part]
  simp only [← State.concatCode_of_local hsrc s.freeCtr]
  rfl

theorem moveGather_of_local (hx : s.isLocal (tdescD j.ds 0x20) = true) (hy : s.isLocal (tdescD j.ds 0x30) = true) : moveGather c j s =
    let x := tdescD j.ds 0x20
    let y := tdescD j.ds 0x30
    let idx := s.indices s.freeCtr (tdescD j.ds 0x28)
    let pad := padCode s.freeCtr y.fmt {} (f32Val (BitVec.ofNat 32 (c.p 0x3C 4)))
    ((((idx.zipIdx.map fun e => (y.rowAt [e.2], (List.range (y.ext 0)).map fun k => if e.1 < x.ext 1 then s.code x [k, e.1] else pad)).foldl
      (fun (x : State) r => x.store r.1 (packRow y.fmt r.2)) { s with freeCtr := s.freeCtr + 2 }).oob c
        (idx.filter fun i => decide (x.ext 1 ≤ i)).length).setVerdict c.id 0) := by
  dsimp only
  rw [← State.putRows_of_local (s := { s with freeCtr := s.freeCtr + 2 }) hy c.part]
  simp only [← State.codeAny_of_local hx (s.freeCtr + 1)]
  rfl

/-- One step of a scatter: the row of the source goes to its place, combined with what stands there. -/
def State.scatterStep (c : Cmd) (x y : Desc) (w : State) (e : Nat × Nat) : State :=
  if y.ext 1 ≤ e.1 then w
  else w.store (y.rowAt [e.1]) (packRow y.fmt (((List.range (y.ext 0)).map fun k => w.code x [k, e.2]).zipIdx.map fun r =>
    scatterCode (c.p 0x38 1) y.fmt (w.elem y.fmt (y.rowAt [e.1]) r.2) r.1))

/-- The step wherever the tensors are: a table elsewhere is combined there. -/
def State.scatterAny (c : Cmd) (x y : Desc) (ctr : Nat) (w : State) (e : Nat × Nat) : State :=
  if y.ext 1 ≤ e.1 then w
  else
    let row := (List.range (y.ext 0)).map fun k => w.codeAny ctr x [k, e.2]
    let out := if w.isLocal y then row.zipIdx.map fun v => scatterCode (c.p 0x38 1) y.fmt (w.elem y.fmt (y.rowAt [e.1]) v.2) v.1 else row
    w.putRow c.part y (y.rowAt [e.1]) out

section
variable {x y : Desc}

theorem State.scatterAny_of_local (hx : s.isLocal x = true) (hy : s.isLocal y = true) (ctr : Nat) (e : Nat × Nat) :
    s.scatterAny c x y ctr e = s.scatterStep c x y e := by
  simp only [State.scatterAny, State.scatterStep, State.codeAny_of_local hx, State.putRow_of_local hy, hy, if_true]

theorem State.scatterStep_isLocal (e : Nat × Nat) (d : Desc) : (s.scatterStep c x y e).isLocal d = s.isLocal d := by
  rw [State.scatterStep]
  split
  · rfl
  · exact State.store_isLocal _ _ _

theorem State.scatterAll_of_local (hx : s.isLocal x = true) (hy : s.isLocal y = true) (ctr : Nat) (l : List (Nat × Nat)) :
    l.foldl (State.scatterAny c x y ctr) s = l.foldl (State.scatterStep c x y) s :=
  foldl_eq_of_kept (P := fun w => w.isLocal x = true ∧ w.isLocal y = true) (fun _ e h => State.scatterAny_of_local h.1 h.2 ctr e)
    (fun _ e h => ⟨(State.scatterStep_isLocal e x).trans h.1, (State.scatterStep_isLocal e y).trans h.2⟩) l s ⟨hx, hy⟩

end

theorem moveScatter_of_local (hx : s.isLocal (tdescD j.ds 0x20) = true) (hy : s.isLocal (tdescD j.ds 0x30) = true) : moveScatter c j s =
    let x := tdescD j.ds 0x20
    let y := tdescD j.ds 0x30
    let idx := s.indices s.freeCtr (tdescD j.ds 0x28)
    ((((idx.zipIdx.foldr (insByKey fun i => Config.freeAt s.freeCtr i) []).foldl (State.scatterStep c x y) { s with freeCtr := s.freeCtr + 2 }).oob c
      (idx.filter fun i => decide (y.ext 1 ≤ i)).length).setVerdict c.id 0) := by
  dsimp only
  rw [← State.scatterAll_of_local (s := { s with freeCtr := s.freeCtr + 2 }) hx hy (s.freeCtr + 1)]
  rfl

end

/-- Settles O33: with tensors here the rows are stored, and with tensors elsewhere the row acts on what it read there. The tag of a queue read's
window and the data of peers are free values, the model's choice (log entries 69 and 67). -/
theorem moveRowsComplete : Obligations.MoveRowsComplete := by
  unfold Obligations.MoveRowsComplete
  intro dt id s c j v put
  refine ⟨?copy, ?concat, ?gather, ?scatter, ?queue, ?any⟩
  case copy =>
    intro y h hy
    exact completes_localMove rfl rfl h (moveCopy_of_local hy)
  case concat =>
    intro y axis src h hy
    have hds : ∀ e ∈ j.ds, v.isLocal e.2 = true := h.2.2.2
    exact completes_localMove rfl rfl h (moveConcat_of_local hds hy)
  case gather =>
    intro x y idx pad h hx hy
    exact completes_localMove rfl rfl h (moveGather_of_local hx hy)
  case scatter =>
    intro x y idx step1 h hx hy
    exact completes_localMove rfl rfl h (moveScatter_of_local hx hy)
  case queue =>
    intro d n l w y x h
    exact completes_localMove rfl rfl h rfl
  case any =>
    intro row code f hrow hr hj hfree
    simp only [List.mem_cons, List.not_mem_nil, or_false, Prod.mk.injEq] at hrow
    obtain ⟨rfl, rfl, rfl⟩ | ⟨rfl, rfl, rfl⟩ | ⟨rfl, rfl, rfl⟩ | ⟨rfl, rfl, rfl⟩ | ⟨rfl, rfl, rfl⟩ := hrow
    all_goals exact completes_move rfl rfl hr hj hfree

end Sys2Proof.Machine
end

section
/-! Reruns, verdicts and starters (R433 to R436), and their obligation. -/
namespace Sys2Proof.Machine
variable {s : State}

/-! CHECKER_RERUN_START and CHECKER_WAIT_TIMEOUT, R433 -/

theorem checkerRerunStart_of_free {id k : Nat} {j : TJob} (hj : s.tar.jobs.find? (fun j => j.cmd == id && j.rerun == 1 && j.started) = some j)
    (hslot : k < s.checkers.length) (hk : k < 2) (hfree : s.checkerBusy (s.fldOf (.ssiStarterCore k) 0 4) = false) :
    checkerRerunStart id k s = s.updJob j.seq fun x => { x with rerun := 2, rerunSlot := k } := by
  rw [checkerRerunStart, hj]
  exact if_pos ⟨hslot, hk, hfree⟩

theorem checkerWaitTimeout_of_late {id : Nat} {j : TJob} (hj : s.tar.jobs.find? (fun j => j.cmd == id && j.rerun == 1 && j.ran) = some j)
    (hlate : j.ranAt + s.ssi.policy.checkWait ≤ s.ns) : checkerWaitTimeout id s =
      ((s.updJob j.seq fun x => { x with rerun := 3 }).countSat .ssiChkSkip 0 32).raiseLim 0x0808 0 j.part (evData [j.part, j.set]) := by
  rw [checkerWaitTimeout, hj]
  exact if_pos hlate

/-! CHECK_VERDICT, R434 -/

/-- No core waits for its retirement. -/
theorem State.pumpRetire_of_none (h : s.tar.retires = []) : s.pumpRetire = s := by rw [State.pumpRetire, h]; rfl

theorem checkVerdict_of_ran {id : Nat} {j : TJob} (rr : List (W32 × W32))
    (hj : s.tar.jobs.find? (fun j => j.cmd == id && j.ran && j.band != 0 && j.rerun != 1) = some j) : checkVerdict id rr s =
      let b := s.tolBand j.part j.band
      let re := j.rerun == 2
      let bad := b.outOf rr
      let dis := j.disagrees || (re && b.disagrees rr.length bad)
      let frame := match s.setOf j with | some x => x.frame + 1 | none => 0
      let v := ((s.noteVerdict j.part dis).frameVerdict j dis).endJob j (if dis then 4 else 0)
      (if dis then v.disagree j frame (j.shadowBad + (if re then bad else 0)) else v).pumpRetire.settle := by
  rw [checkVerdict, hj] <;> rfl

/-- The shadows agreed and no rerun compared. -/
theorem checkVerdict_of_agreed {id : Nat} {j : TJob} (rr : List (W32 × W32))
    (hj : s.tar.jobs.find? (fun j => j.cmd == id && j.ran && j.band != 0 && j.rerun != 1) = some j) (hrerun : j.rerun ≠ 2) (hagree : j.disagrees = false) :
    checkVerdict id rr s = (((s.noteVerdict j.part false).frameVerdict j false).endJob j 0).pumpRetire.settle := by
  have hre : (j.rerun == 2) = false := by simpa using hrerun
  rw [checkVerdict_of_ran rr hj]
  simp only [hagree, hre, Bool.false_and, Bool.or_false, Bool.false_eq_true, if_false]

/-- A frame set with one more frame, which agreed: the output of the job is its good one. -/
def FrameSet.agreed (x : FrameSet) (j : TJob) : FrameSet :=
  let d := tdescD j.ds (j.outs.headD 0)
  { x with frame := x.frame + 1, goodFrame := x.frame + 1, goodDesc := d.addr, goodBase := d.span, goodTag := tagOut j.tags, suspect := false }

@[simp] theorem State.store_tar (a : Nat) (b : Bytes) : (s.store a b).tar = s.tar := by
  have hcount : ∀ (t : State) (p : Prop) [Decidable p] (k : Nat), (if p then t.countWrap (.mmvMcRmw k) 0 32 1 else t).tar = t.tar := fun t p _ k => by
    split <;> rfl
  unfold State.store
  dsimp only
  split
  · exact (hcount _ _ _).trans (hcount _ _ _)
  · rfl

theorem State.noteVerdict_tar (p : Nat) (dis : Bool) : (s.noteVerdict p dis).tar = s.tar := by
  rw [State.noteVerdict]
  split <;> rfl

theorem State.setOf_congr {t : State} (h : t.tar = s.tar) (j : TJob) : t.setOf j = s.setOf j := by rw [State.setOf, State.setOf, h]

theorem State.frameVerdict_tar {j : TJob} {x : FrameSet} (h : s.setOf j = some x) : (s.frameVerdict j false).tar =
    { s.tar with sets := (s.tar.sets.filter fun y => !(y.part == x.part && y.set == x.set)) ++ [x.agreed j] } := by
  rw [State.frameVerdict, h]
  dsimp only
  rw [if_neg Bool.false_ne_true, State.putFrame, State.store_tar]
  rfl

/-- The end of a descriptor that no chain holds takes its job away. -/
theorem State.endJob_tar (j : TJob) (h : s.tar.chains = []) : (s.endJob j 0).tar = { s.tar with jobs := s.tar.jobs.filter fun x => x.seq != j.seq } := by
  unfold State.endJob
  extract_lets dropped counted
  have hnone : counted.tar.chains.find? (fun x => x.cmd == j.cmd) = none := by
    rw [show counted.tar.chains = [] from h]
    rfl
  rw [hnone]
  dsimp only
  split <;> rfl

/-- What only ends commands, and what prunes their work, leaves the frame sets and the starters as they are. -/
theorem State.pruneTar_starters : s.pruneTar.tar.starters = s.tar.starters := by obtain ⟨m, h⟩ := s.pruneTar_cases; rw [h]

theorem State.pruneTar_starterNext : s.pruneTar.tar.starterNext = s.tar.starterNext := by obtain ⟨m, h⟩ := s.pruneTar_cases; rw [h]

theorem State.pruneTar_sets : s.pruneTar.tar.sets = s.tar.sets := by obtain ⟨m, h⟩ := s.pruneTar_cases; rw [h]

theorem State.settle_sets : s.settle.tar.sets = s.tar.sets :=
  Kept.settle (P := (·.tar.sets = s.tar.sets)) ⟨fun _ _ h => h, by simp, by simp⟩ s State.pruneTar_sets

/-- The record of an agreeing frame is its set's newest. -/
theorem checkVerdict_sets {id : Nat} {j : TJob} {x : FrameSet} (rr : List (W32 × W32))
    (hj : s.tar.jobs.find? (fun j => j.cmd == id && j.ran && j.band != 0 && j.rerun != 1) = some j) (hrerun : j.rerun ≠ 2) (hagree : j.disagrees = false)
    (hretires : s.tar.retires = []) (hset : s.setOf j = some x) (hchains : s.tar.chains = []) : x.agreed j ∈ (checkVerdict id rr s).tar.sets := by
  have hframe : ((s.noteVerdict j.part false).frameVerdict j false).tar =
      { s.tar with sets := (s.tar.sets.filter fun y => !(y.part == x.part && y.set == x.set)) ++ [x.agreed j] } := by
    rw [State.frameVerdict_tar ((State.setOf_congr (State.noteVerdict_tar _ _) j).trans hset), State.noteVerdict_tar]
  have hend : (((s.noteVerdict j.part false).frameVerdict j false).endJob j 0).tar =
      { ((s.noteVerdict j.part false).frameVerdict j false).tar with
        jobs := ((s.noteVerdict j.part false).frameVerdict j false).tar.jobs.filter fun y => y.seq != j.seq } :=
    State.endJob_tar j (by rw [hframe]; exact hchains)
  have hidle : (((s.noteVerdict j.part false).frameVerdict j false).endJob j 0).tar.retires = [] := by rw [hend, hframe]; exact hretires
  rw [checkVerdict_of_agreed rr hj hrerun hagree, State.settle_sets, State.pumpRetire_of_none hidle, hend, hframe]
  exact List.mem_append_right _ (List.mem_singleton_self _)

/-! STARTER_WINDOW_OPEN and STARTER_WINDOW_CLOSE, R435 -/

/-- The first window of slot k that is not past. -/
def State.windowOpens (s : State) (k : Nat) : Nat :=
  s.ssi.policy.starterPhase + sget 0 s.ssi.slotNext k * s.ssi.policy.starterPeriod + (if k = 1 then s.ssi.policy.starterPeriod / 2 else 0)

/-- The windows that passed since. -/
def State.windowsPast (s : State) (k : Nat) : Nat := (s.now - s.windowOpens k) / Nat.max 1 s.ssi.policy.starterPeriod

/-- The window after the present one is the slot's next. -/
def State.openWindow (s : State) (k : Nat) : State :=
  s.setSsi fun x => { x with slotNext := sset 0 x.slotNext k (sget 0 s.ssi.slotNext k + s.windowsPast k + 1) }

/-- When the present window of slot k closes. -/
def State.windowCloses (s : State) (k : Nat) : Nat :=
  s.windowOpens k + s.windowsPast k * s.ssi.policy.starterPeriod + s.ssi.policy.starterLen + s.fldOf (.mmvArbCtl 56) 0 13 * 1000 + 1000

section
variable {k : Nat} (hconf : s.configured = true) (hslot : k < s.checkers.length) (hk : k < 2) (hopen : s.windowOpens k ≤ s.now)
include hconf hslot hk hopen

theorem starterWindowOpen_of_open : starterWindowOpen k s =
    if (s.openWindow k).tar.starters.any (fun r => r.slot == k) then s.openWindow k
    else (s.openWindow k).beginStarter k (s.windowCloses k) false := if_pos ⟨hconf, hslot, hk, hopen⟩

/-- In its first window an idle slot begins the next usable set. -/
theorem starterWindowOpen_of_idle {n : Nat} (hidle : s.tar.starters = []) (hset : s.starterSet = some n) : starterWindowOpen k s =
    ((s.openWindow k).setTar fun t => { t with
      starters := t.starters ++ [{ slot := k, set := n, opened := s.now, closes := s.windowCloses k }], starterNext := n + 1 }).countWrap
        (.ssiStarterStat k) 16 16 1 := by
  have hnone : ¬((s.openWindow k).tar.starters.any (fun r => r.slot == k) = true) := by
    rw [State.openWindow, State.setSsi, hidle]
    nofun
  have hnext : (s.openWindow k).starterSet = some n := hset
  rw [starterWindowOpen_of_open hconf hslot hk hopen, if_neg hnone, State.beginStarter, hnext]
  exact if_pos hk

end

theorem State.windowsPast_of_first {k : Nat} (h : s.now < s.windowOpens k + s.ssi.policy.starterPeriod) : s.windowsPast k = 0 :=
  Nat.div_eq_of_lt (by
    have hone : 1 ≤ Nat.max 1 s.ssi.policy.starterPeriod := Nat.le_max_left ..
    have hperiod : s.ssi.policy.starterPeriod ≤ Nat.max 1 s.ssi.policy.starterPeriod := Nat.le_max_right ..
    omega)

theorem starterWindowClose_of_late {k : Nat} {r : StarterRun} (hr : s.tar.starters.find? (fun r => r.slot == k && !r.pair && !r.late) = some r)
    (hlate : r.closes ≤ s.now) : starterWindowClose k s =
      (s.setTar fun t => { t with starters := t.starters.map fun (x : StarterRun) => if x.slot = k then { x with late := true } else x }).countSat
        (.ssiStarterStat k) 8 8 := by
  rw [starterWindowClose, hr]
  exact if_pos hlate

/-! STARTER_COMPLETE, R435, R436 -/

/-- The run of a slot is over. -/
def State.dropStarter (s : State) (k : Nat) : State := s.setTar fun t => { t with starters := t.starters.filter fun x => x.slot != k }

/-- The core that a starter of a slot runs on. -/
def State.starterCore (s : State) (k : Nat) : Nat := if k < 16 then s.fldOf (.ssiStarterCore k) 0 4 else k - 16

/-- The run of a slot is over: a late one and a failing one are told. -/
def State.tellStarter (s : State) (k : Nat) (r : StarterRun) (ok : Bool) : State :=
  let v := s.dropStarter k
  let a := if r.late then v.raise 0x0805 0 (evData [k, v.now - r.closes]) else v
  if ok then a else (if k < 2 then a.countSat (.ssiStarterStat k) 0 8 else a).raise 0x0804 0 (evData [v.starterCore k, if k < 16 then 1 else 0, r.set])

/-- The side of a pair that ran on a slot has its result. -/
def State.notePair (s : State) (k : Nat) (ok : Bool) : State :=
  s.setTar fun t => { t with pairs := t.pairs.map fun (x : StarterPair) =>
    if k = 16 + x.core then { x with active := some ok } else if x.checker = some k ∧ x.side = none then { x with side := some ok } else x }

section
variable {k : Nat} {r : StarterRun} {x : StarterSet} {out : Bytes} (hr : s.tar.starters.find? (fun r => r.slot == k) = some r)
  (hx : s.ssi.starters[r.set]? = some x)
include hr hx

theorem starterComplete_of_found : starterComplete k out s =
    let ok := s.starterAgrees x out
    let b := s.tellStarter k r ok
    (if r.pair then (b.notePair k ok).tar.pairs.foldl State.judgePair (b.notePair k ok)
      else if ok then b else b.retire none ((s.dropStarter k).starterCore k)).pumpRetire.settle := by
  simp only [starterComplete, hr, hx]
  rfl

theorem starterComplete_of_single (hpair : r.pair = false) : starterComplete k out s =
    (if s.starterAgrees x out then s.tellStarter k r (s.starterAgrees x out)
      else (s.tellStarter k r (s.starterAgrees x out)).retire none ((s.dropStarter k).starterCore k)).pumpRetire.settle := by
  rw [starterComplete_of_found hr hx, hpair]
  rfl

theorem starterComplete_of_pair (hpair : r.pair = true) : starterComplete k out s =
    (((s.tellStarter k r (s.starterAgrees x out)).notePair k (s.starterAgrees x out)).tar.pairs.foldl State.judgePair
      ((s.tellStarter k r (s.starterAgrees x out)).notePair k (s.starterAgrees x out))).pumpRetire.settle := by
  rw [starterComplete_of_found hr hx, hpair]
  rfl

/-- A starter that passes in time ends its run, and no more. -/
theorem starterComplete_of_pass (hpair : r.pair = false) (hintime : r.late = false) (hidle : s.tar.retires = [])
    (hok : s.starterAgrees x out = true) : starterComplete k out s = (s.dropStarter k).settle := by
  have htold : s.tellStarter k r true = s.dropStarter k := by rw [State.tellStarter, hintime]; rfl
  rw [starterComplete_of_single hr hx hpair, hok, if_pos rfl, htold, State.pumpRetire_of_none (s := s.dropStarter k) hidle]

end

/-! STARTER_DIGEST_CHECK, R435 -/

/-- The hourly check of one set: one whose digest fails is not used again. -/
def State.checkDigest (s : State) (e : StarterSet × Nat) : State :=
  if e.1.bad || s.digestOk e.1 then s
  else (s.setSsi fun x => { x with starters := x.starters.zipIdx.map fun (y : StarterSet × Nat) => if y.2 = e.2 then { y.1 with bad := true } else y.1 }).raise
    0x0804 0 (evData [0xF, 2, e.2])

theorem starterDigestCheck_of_due (hconf : s.configured = true) (hdue : s.ssi.digestAt + 3600000000000 ≤ s.ns) : starterDigestCheck s =
    s.ssi.starters.zipIdx.foldl State.checkDigest (s.setSsi fun x => { x with digestAt := s.ns }) := if_pos ⟨hconf, hdue⟩

/-- Sets that are bad already are not checked again. -/
theorem State.checkDigests_of_bad {l : List StarterSet} (h : ∀ x ∈ l, x.bad = true) : l.zipIdx.foldl State.checkDigest s = s :=
  foldl_eq_self fun e he => if_pos (by rw [h e.1 (List.fst_mem_of_mem_zipIdx he)]; rfl)

theorem State.checkDigests_of_one {x : StarterSet} (hone : s.ssi.starters = [x]) (hbad : x.bad = false) : [x].zipIdx.foldl State.checkDigest s =
    if s.digestOk x then s else (s.setSsi fun y => { y with starters := [{ x with bad := true }] }).raise 0x0804 0 (evData [0xF, 2, 0]) := by
  have hmark : (s.setSsi fun y => { y with starters := y.starters.zipIdx.map fun (z : StarterSet × Nat) => if z.2 = 0 then { z.1 with bad := true } else z.1 }) =
      s.setSsi fun y => { y with starters := [{ x with bad := true }] } := by
    simp only [State.setSsi, hone]
    rfl
  simp only [List.zipIdx_singleton, List.foldl_cons, List.foldl_nil, State.checkDigest, hbad, Bool.false_or, hmark]

/-- Settles O32: each row finds the job, the slot or the sets it is about, and follows its verdict. That a periodic starter which fails retires its
checker is the model's choice (log entry 65). -/
theorem checkRowsComplete : Obligations.CheckRowsComplete := by
  unfold Obligations.CheckRowsComplete
  intro dt s u
  refine ⟨?rerun, ?wait, ?agreed, ?idle, ?closeOne, ?pass, ?digest, ?verdict, ?opens, ?closes, ?completes, ?digests⟩
  case rerun => exact fun id k j hj hslot hk hfree => completes_event rfl rfl (checkerRerunStart_of_free hj hslot hk hfree)
  case wait => exact fun id j hj hlate => completes_event rfl rfl (checkerWaitTimeout_of_late hj hlate)
  case agreed =>
    intro id j rr x hj hrerun hagree hretires hset hchains d
    have hrow : Completes (.checkVerdict dt id rr) s (checkVerdict id rr u) := completes_event rfl rfl rfl
    have hsets : x.agreed j ∈ (s.close dt (checkVerdict id rr u)).tar.sets :=
      (congrArg (x.agreed j ∈ ·) State.pruneTar_sets).mpr (checkVerdict_sets rr hj hrerun hagree hretires hset hchains)
    exact ⟨_, hrow, x.agreed j, hsets, rfl, rfl, rfl, rfl, rfl, rfl, rfl⟩
  case idle =>
    intro k n y open_ hconf hslot hk hidle hset hopen hfirst
    have hpast : u.windowsPast k = 0 := State.windowsPast_of_first hfirst
    have hcloses : u.windowCloses k = open_ + y.starterLen + u.fldOf (.mmvArbCtl 56) 0 13 * 1000 + 1000 := by
      rw [State.windowCloses, hpast, Nat.zero_mul, Nat.add_zero]
      rfl
    have hnext : sget 0 (u.openWindow k).ssi.slotNext k = sget 0 u.ssi.slotNext k + 1 := by
      rw [State.openWindow, State.setSsi, sget_sset_self, hpast]
    have hrow : Completes (.starterWindowOpen dt k) s _ := completes_event rfl rfl (starterWindowOpen_of_idle hconf hslot hk hopen hidle hset)
    refine ⟨_, hrow, State.pruneTar_starters.trans ?_, State.pruneTar_starterNext, ?_⟩
    · rw [hcloses]
      exact congrArg (· ++ [_]) hidle
    · exact (congrArg (fun x : Ssi => sget 0 x.slotNext k) (State.pruneTar_ssi _)).trans hnext
  case closeOne =>
    intro k r hone hslot _ hpair hintime hlate
    have hr : u.tar.starters.find? (fun r => r.slot == k && !r.pair && !r.late) = some r := by
      rw [hone, List.find?_cons_of_pos (by simp [hslot, hpair, hintime])]
    refine completes_event rfl rfl ((starterWindowClose_of_late hr hlate).trans ?_)
    simp only [State.setTar, hone, List.map_cons, List.map_nil, hslot, if_true]
  case pass =>
    intro k r x out hone hslot _ hpair hintime hx hidle hok
    have hr : u.tar.starters.find? (fun r => r.slot == k) = some r := by rw [hone, List.find?_cons_of_pos (by simp [hslot])]
    refine completes_event rfl rfl ((starterComplete_of_pass hr hx hpair hintime hidle hok).trans (congrArg State.settle ?_))
    simp [State.dropStarter, State.setTar, hone, hslot]
  case digest =>
    intro v hconf hdue
    refine ⟨fun hbad => ?_, fun x hone hbad => ?_⟩
    · exact completes_event rfl rfl ((starterDigestCheck_of_due hconf hdue).trans (State.checkDigests_of_bad hbad))
    · refine completes_event rfl rfl ((starterDigestCheck_of_due hconf hdue).trans ?_)
      rw [hone]
      exact State.checkDigests_of_one hone hbad
  case verdict =>
    intro id j rr hj
    exact completes_event rfl rfl (checkVerdict_of_ran rr hj)
  case opens =>
    intro k y n open_ skip hconf hslot hk hopen
    exact completes_event rfl rfl (starterWindowOpen_of_open hconf hslot hk hopen)
  case closes => exact fun k r hr hlate => completes_event rfl rfl (starterWindowClose_of_late hr hlate)
  case completes =>
    intro k r x out hr hx
    exact ⟨fun hpair => completes_event rfl rfl (starterComplete_of_single hr hx hpair),
      fun hpair => completes_event rfl rfl (starterComplete_of_pair hr hx hpair)⟩
  case digests =>
    intro v hconf hdue
    exact completes_event rfl rfl (starterDigestCheck_of_due hconf hdue)

end Sys2Proof.Machine
end

section
/-! The PCIe link, its resets and errors, and the MSI-X messages (R59 to R63, R84, R85, R91, R93), and their obligations. -/
namespace Sys2Proof.Machine
variable {s : State}

/-! Configuration requests and the link's states, R59 to R63 -/

theorem configRequest_read (r : CfgReg) (h : s.hp.linkUp = true) : configRequest r none s = s.emit (.cfgRead (s.cfgRead r).toNat) := if_pos h

theorem configRequest_write (r : CfgReg) (v : W32) (h : s.hp.linkUp = true) : configRequest r (some v) s = s.cfgWrite r v := if_pos h

theorem pcieLinkUp_of_ready (hperst : s.hp.perstHigh = true) (hphy : s.pwr.phyUp = true) (href : s.pwr.refs.contains .pcie = true) :
    pcieLinkUp s = { s with hp := { s.hp with linkUp := true } } := if_pos (by rw [hperst, hphy, href]; rfl)

/-- Settles O1: with the link up a request is answered or written; each of the other rows goes by its one condition. The masks of the
registers written are the model's reading of the PCI Express specification (log entry 14). -/
theorem linkCommandsComplete : Obligations.LinkCommandsComplete := by
  unfold Obligations.LinkCommandsComplete
  intro dt s u
  refine ⟨?read, ?write, ?perst, ?up, ?d3hot, ?d0⟩
  case read => exact fun r hup => completes_event rfl rfl (configRequest_read r hup)
  case write =>
    exact fun v hup => ⟨completes_event rfl rfl (configRequest_write .command v hup), completes_event rfl rfl (configRequest_write .devControl v hup),
      completes_event rfl rfl (configRequest_write .msixControl v hup), fun r => completes_event rfl rfl (configRequest_write r v hup)⟩
  case perst => exact completes_event (f := fun s => { s with hp := { s.hp with perstHigh := true } }) rfl rfl rfl
  case up => exact fun hperst hphy href => completes_event rfl rfl (pcieLinkUp_of_ready hperst hphy href)
  case d3hot => exact fun hup => completes_event rfl rfl (if_pos hup)
  case d0 => exact fun hd3 => completes_event rfl rfl (if_pos hd3)

/-! MSI-X moderation and masks, R85 -/

theorem msixModerationExpiry_of_over {v : Nat} (hmerged : s.hp.modMerged.contains v = true) (hover : s.inGap v = false) :
    msixModerationExpiry v s = ({ s with hp := { s.hp with modMerged := s.hp.modMerged.filter fun x => x != v } }).msixSend v :=
  if_pos (by rw [hmerged, hover]; rfl)

theorem msixUnmask_function (h : s.hostOpen = true) :
    msixUnmask none s = ({ s with hp := { s.hp with cfgMsix := setBit s.hp.cfgMsix 30 false } }).sendPending := if_neg (by simp [h])

theorem msixUnmask_vector {i : Nat} (h : s.hostOpen = true) (hi : i < 8) :
    msixUnmask (some i) s = (s.modReg (.msixEntry i 3) fun x => setBit x 0 false).sendPending :=
  (if_neg (by simp [h])).trans (if_pos hi)

/-- Settles O5: a merged cause goes once its gap is over, and a mask is cleared by a host that reaches the part. -/
theorem msixCommandsComplete : Obligations.MsixCommandsComplete := by
  unfold Obligations.MsixCommandsComplete
  intro dt s u
  exact ⟨fun v hmerged hover => completes_event rfl rfl (msixModerationExpiry_of_over hmerged hover),
    fun hopen => completes_event rfl rfl (msixUnmask_function hopen), fun i hopen hi => completes_event rfl rfl (msixUnmask_vector hopen hi)⟩

/-! Errors of the link, R93 -/

theorem State.logAer_eq (e : PcieErr) : s.logAer e = (({ s with hp := { s.hp with aer := s.hp.aer ++ [e] } }).countSat .ccxHpErrCnt
    (if pcieCorrectable e = true then 0 else 16) 16).cause 5 := by
  cases h : pcieCorrectable e <;> simp [State.logAer, h]

/-- What follows the log of an error that leaves the link up. -/
def State.afterAer (s : State) : PcieErr → State
  | .uncorrectableInternal => s.raise 0x0106 0
  | .unsupportedRequest => s.emit .unsupported
  | _ => s

theorem pcieError_of_fatal {e : PcieErr} (hup : s.hp.linkUp = true) (h : pcieFatal e = true) : pcieError e s = (s.logAer e).linkReset false :=
  (if_pos hup).trans (if_pos h)

theorem pcieError_of_survived {e : PcieErr} (hup : s.hp.linkUp = true) (h : pcieFatal e = false) : pcieError e s = (s.logAer e).afterAer e :=
  (if_pos hup).trans ((if_neg (by simp [h])).trans (by cases e <;> rfl))

theorem State.afterAer_of_quiet {e : PcieErr} (hint : e ≠ .uncorrectableInternal) (hur : e ≠ .unsupportedRequest) : s.afterAer e = s := by
  cases e
  case uncorrectableInternal => exact absurd rfl hint
  case unsupportedRequest => exact absurd rfl hur
  all_goals rfl

theorem hostCompletionTimeout_of_reading {id : Nat} {c : Cmd} (hc : s.cmd? id = some c) (hrun : c.state = .running)
    (hread : s.hp.reads.contains id = true) : hostCompletionTimeout id s = ((s.logAer .completionTimeout).failCmd id 0x42).settle := by
  simp only [hostCompletionTimeout, hc, if_pos (And.intro hrun hread)]

/-! PCIE_LINK_RESET, R62, R63 -/

theorem pcieLinkReset_of_up {cause : LinkResetCause} (h : s.hp.linkUp = true ∨ cause = .perst) :
    pcieLinkReset cause s = s.linkReset (cause == .perst) := if_pos h

/-- A register that is reset reads its reset value. -/
theorem csrGet_filter_of_reset (c : List (Reg × W64)) {p : Reg → Bool} {r : Reg} (h : p r = true) :
    csrGet (c.filter fun e => !(p e.1)) r = r.resetVal := by
  induction c with
  | nil => rfl
  | cons e c ih =>
    by_cases hp : p e.1 = true
    · rwa [List.filter_cons_of_neg (by simp [hp])]
    · rw [List.filter_cons_of_pos (by simp [hp]), csrGet, if_neg (by rintro rfl; exact hp h), ih]

theorem State.resetRegs_reg_of_reset {p : Reg → Bool} {r : Reg} (h : p r = true) : (s.resetRegs p).reg r = r.resetVal :=
  csrGet_filter_of_reset s.csr h

/-- An event that the host cannot take while the link is down is at most counted, R63. -/
theorem State.raise_hp_of_down (h : s.hp.linkUp = false) (code p : Nat) (b : Bytes) :
    ∃ n, (s.raise code p b).hp = { s.hp with evtDiscarded := n } := by
  rw [State.raise, State.deliver]
  split
  · rw [State.queueEvent]
    split
    · exact ⟨s.hp.evtDiscarded, rfl⟩
    · rw [if_pos (by simp [h])]
      exact ⟨_, rfl⟩
  · exact ⟨s.hp.evtDiscarded, rfl⟩

theorem State.markLost_hp (lost : List Nat) : (s.markLost lost).hp = s.hp := by
  refine (foldl_keeps (·.hp) (fun s id => s.updCmd id fun c => { c with responded := true }) (fun _ _ => rfl) lost _).trans ?_
  split <;> rfl

theorem State.markLost_reg_ne (lost : List Nat) {r : Reg} (h : r ≠ .ccxHpMboxErr) : (s.markLost lost).reg r = s.reg r := by
  refine (foldl_keeps (·.reg r) (fun s id => s.updCmd id fun c => { c with responded := true }) (fun _ _ => rfl) lost _).trans ?_
  split
  · rfl
  · exact State.setFldOf_reg_ne _ _ _ _ h

/-- An update of one command that keeps its state brings no new state into the list. -/
theorem mem_updFirst_state {id : Nat} {f : Cmd → Cmd} (hf : ∀ c, (f c).state = c.state) {l : List Cmd} {c : Cmd}
    (h : c ∈ updFirst (fun c => c.id == id) f l) : ∃ d ∈ l, d.state = c.state := by
  induction l with
  | nil => exact absurd h List.not_mem_nil
  | cons d l ih =>
    rw [updFirst] at h
    split at h
    · rcases List.mem_cons.mp h with rfl | h
      · exact ⟨d, List.mem_cons_self, (hf d).symm⟩
      · exact ⟨c, List.mem_cons_of_mem _ h, rfl⟩
    · rcases List.mem_cons.mp h with rfl | h
      · exact ⟨c, List.mem_cons_self, rfl⟩
      · obtain ⟨e, he, hs⟩ := ih h
        exact ⟨e, List.mem_cons_of_mem _ he, hs⟩

/-- Nothing drains, nothing stops and no command runs. -/
structure State.AtRest (s : State) : Prop where
  funcs : s.ccx.funcs = []
  stops : ∀ p < 8, (s.part p).stop = none
  cmds : ∀ c ∈ s.ccx.cmds, c.state ≠ .running

theorem State.AtRest.markResponded (h : s.AtRest) (id : Nat) : (s.updCmd id fun c => { c with responded := true }).AtRest where
  funcs := h.funcs
  stops := h.stops
  cmds c hc := by
    obtain ⟨d, hd, hs⟩ := mem_updFirst_state (f := fun c => { c with responded := true }) (fun _ => rfl) hc
    exact hs ▸ h.cmds d hd

theorem State.AtRest.markLost (h : s.AtRest) (lost : List Nat) : (s.markLost lost).AtRest := by
  have hfirst : (if lost.isEmpty then s else s.setFldOf .ccxHpMboxErr 1 1 1).AtRest := by
    split
    · exact h
    · exact ⟨h.funcs, h.stops, h.cmds⟩
  have hall := foldl_holds State.AtRest (fun s id => s.updCmd id fun c => { c with responded := true }) (fun _ id ht => ht.markResponded id) lost _ hfirst
  refine ⟨hall.funcs, hall.stops, fun c hc => ?_⟩
  obtain ⟨d, hd, rfl⟩ := List.mem_map.mp hc
  exact hall.cmds d hd

theorem State.AtRest.failPushes_eq (h : s.AtRest) : s.failPushes = s := by
  have hnone : s.ccx.cmds.filter (fun c => c.state == .running && pushCodes.contains c.code) = [] :=
    List.filter_eq_nil_iff.mpr fun c hc => by simp [h.cmds c hc]
  rw [State.failPushes, hnone]; rfl

theorem State.AtRest.linkDown (h : s.AtRest) (perst : Bool) :
    ((({ s with hp := s.hp.linkReset perst } : State).resetRegs Reg.hostPort).markLost s.hp.rspQ).AtRest :=
  have hdown : (({ s with hp := s.hp.linkReset perst } : State).resetRegs Reg.hostPort).AtRest := ⟨h.funcs, h.stops, h.cmds⟩
  hdown.markLost _

/-- With nothing at work a link reset leaves the host port as R62 says, but for the count of the event that tells it. -/
theorem State.AtRest.linkReset_hp (h : s.AtRest) (perst : Bool) :
    ∃ n, (s.linkReset perst).hp = { s.hp.linkReset perst with evtDiscarded := n } := by
  let t := (({ s with hp := s.hp.linkReset perst } : State).resetRegs Reg.hostPort).markLost s.hp.rspQ
  have ht : t.AtRest := h.linkDown perst
  have hhp : t.hp = s.hp.linkReset perst := State.markLost_hp _
  obtain ⟨n, hn⟩ := State.raise_hp_of_down (s := t) (by rw [hhp]; rfl) 0x0101 0 []
  refine ⟨n, ?_⟩
  have hquiet : (t.raise 0x0101 0).settle.hp = (t.raise 0x0101 0).hp := by
    rw [State.settle_quiet _ (by simpa using ht.funcs) (by simpa [State.part] using ht.stops), State.pruneTar_hp]
  rw [State.linkReset_eq, ht.failPushes_eq, hquiet, hn, hhp]

theorem State.AtRest.linkReset_reg (h : s.AtRest) (perst : Bool) {r : Reg} (hr : r.hostPort = true) (hne : r ≠ .ccxHpMboxErr) :
    (s.linkReset perst).reg r = r.resetVal := by
  rw [State.linkReset_eq, State.settle_reg_ne _ hne, State.raise_reg_ne _ _ _ _ hne, (h.linkDown perst).failPushes_eq, State.markLost_reg_ne _ hne,
    State.resetRegs_reg_of_reset hr]

/-! HOST_LINK_RESTORED, R63, R485 -/

theorem hostLinkRestored_of_due (hdue : s.hp.restoreDue = true) (hup : s.hp.linkUp = true) (hready : s.ready = true)
    (hbus : bit s.hp.cfgCommand 2 = true) (hmsix : bit s.hp.cfgMsix 31 = true) : let t := hostLinkRestored s
    let n := (s.ccx.cmds.filter fun c => c.state == .running).length
    let e : Event := { code := 0x0102, inst := s.now, data := leBytes 4 s.hp.rspDiscarded ++ leBytes 4 s.hp.evtDiscarded ++ leBytes 4 n }
    t.hp.restoreDue = false ∧ t.hp.evtDiscarded = 0 ∧
      t.hp.evtQ = (match s.hp.evtQ with | [] => [e] | x :: rest => if x.code = 0x0A08 then x :: e :: rest else e :: x :: rest) := by
  rw [hostLinkRestored, if_pos (by rw [hdue, hup, hready, hbus, hmsix]; rfl)]
  exact ⟨rfl, rfl, rfl⟩

/-- Settles O2: a reset of a link with nothing at work leaves the host port as R62 says, and each error goes by whether it is fatal. Which
errors are correctable (log entry 29), and that the backlog of events is kept (log entry 30), are the model's readings. -/
theorem linkEventsComplete : Obligations.LinkEventsComplete := by
  unfold Obligations.LinkEventsComplete
  intro dt s u
  refine ⟨?rest, ?quiet, ?internal, ?fatal, ?restored, ?timeout, ?reset, ?unsupported⟩
  case rest =>
    intro cause hup hfuncs hstops hcmds
    have hrest : u.AtRest := ⟨hfuncs, hstops, hcmds⟩
    have hrow : Completes (.pcieLinkReset dt cause) s (u.linkReset (cause == .perst)) := completes_event rfl rfl (pcieLinkReset_of_up hup)
    obtain ⟨n, hn⟩ := hrest.linkReset_hp (cause == .perst)
    refine ⟨_, hrow, ?_⟩
    rw [State.close_hp, hn, State.close_reg, hrest.linkReset_reg _ (by decide) (by decide)]
    exact ⟨rfl, rfl, rfl, rfl, rfl, rfl⟩
  case quiet =>
    exact fun e hup hsurv hint hur =>
      completes_event rfl rfl ((pcieError_of_survived hup hsurv).trans ((State.afterAer_of_quiet hint hur).trans (State.logAer_eq e)))
  case internal => exact fun hup => completes_event rfl rfl (pcieError_of_survived hup rfl)
  case fatal => exact fun e hup hfatal => completes_event rfl rfl (pcieError_of_fatal hup hfatal)
  case restored =>
    intro hdue hup hready hbus hmsix n e
    have hrow : Completes (.hostLinkRestored dt) s (hostLinkRestored u) := completes_event rfl rfl rfl
    refine ⟨_, hrow, ?_⟩
    rw [State.close_hp]
    exact hostLinkRestored_of_due hdue hup hready hbus hmsix
  case timeout => exact fun id c hc hrun hread => completes_event rfl rfl (hostCompletionTimeout_of_reading hc hrun hread)
  case reset => exact fun cause hup => completes_event rfl rfl (pcieLinkReset_of_up hup)
  case unsupported => exact fun hup => completes_event rfl rfl (pcieError_of_survived hup rfl)

end Sys2Proof.Machine
end

section
/-! The causes of interrupts, and the mailbox rows (R70 to R84), and their obligation. -/
namespace Sys2Proof.Machine
variable {s : State}

/-! A cause of a vector occurs, R84, R85 -/

theorem State.msixSend_cases (s : State) (v : Nat) : ∃ c l o, s.msixSend v = { s with csr := c, hp := { s.hp with modLast := l }, out := o } := by
  rw [State.msixSend]
  split
  · exact ⟨_, _, _, rfl⟩
  · exact ⟨_, s.hp.modLast, s.out, rfl⟩

theorem State.msixSend_reg_ne (s : State) (v : Nat) {r : Reg} (h : r ≠ .msixPba) : (s.msixSend v).reg r = s.reg r := by
  rw [State.msixSend]
  split
  · rfl
  · exact State.modReg_reg_ne _ _ h

/-- A cause changes registers, what is known of the moderated vectors, and what has left the part. -/
theorem State.cause_cases (s : State) (v : Nat) : ∃ c l m o,
    s.cause v = { s with csr := c, hp := { s.hp with modLast := l, modMerged := m }, out := o } := by
  unfold State.cause
  extract_lets t
  split
  · exact ⟨t.csr, s.hp.modLast, s.hp.modMerged, s.out, rfl⟩
  · split
    · split
      · exact ⟨t.csr, s.hp.modLast, s.hp.modMerged, s.out, rfl⟩
      · exact ⟨t.csr, s.hp.modLast, _, s.out, rfl⟩
    · obtain ⟨c, l, o, h⟩ := t.msixSend_cases v
      exact ⟨c, l, s.hp.modMerged, o, h⟩

/-- What follows the status bit of a cause leaves every register but the pending bits. -/
theorem State.cause_reg (s : State) (v : Nat) {r : Reg} (h : r ≠ .msixPba) :
    (s.cause v).reg r = (s.modReg .ccxHpIrqStat fun x => setBit x v true).reg r := by
  unfold State.cause
  extract_lets t
  split
  · rfl
  · split
    · split <;> rfl
    · exact t.msixSend_reg_ne v h

theorem State.cause_reg_ne (s : State) (v : Nat) {r : Reg} (hstat : r ≠ .ccxHpIrqStat) (hpba : r ≠ .msixPba) : (s.cause v).reg r = s.reg r :=
  (s.cause_reg v hpba).trans (State.modReg_reg_ne _ _ hstat)

theorem State.cause_bit (s : State) {v : Nat} (h : v < 64) : bit ((s.cause v).reg .ccxHpIrqStat) v = true := by
  rw [State.cause_reg s v (by decide), State.modReg_reg_self, bit_setBit_true _ h]

/-- What a cause leaves of the host port: all but what is known of the moderated vectors. -/
theorem State.cause_hp (s : State) (v : Nat) : ∃ l m, (s.cause v).hp = { s.hp with modLast := l, modMerged := m } := by
  obtain ⟨c, l, m, o, h⟩ := s.cause_cases v
  exact ⟨l, m, by rw [h]⟩

/-! MBOX_SLOT_WRITE, R71, R72 -/

theorem mboxSlotWrite_of_owned {off : Nat} {b : Bytes} (hopen : s.hostOpen = true) (hready : s.ready = true) (hoff : off < 0x6000) (hb : b ≠ [])
    (hown : s.slotOwn (off / 256) = false) : mboxSlotWrite off b false s =
      (let v := s.wrMb off (b.take (256 * (off / 256 + 1) - off))
       if v.slotOwn (off / 256) then v.handOver (off / 256) else v) := by
  have hslot : ¬ off / 256 ≥ 96 := by omega
  simp [mboxSlotWrite, hopen, hready, hb, hslot, hown]

/-- A request slot that the host hands over is posted. -/
theorem State.handOver_request {slot : Nat} (h : slot < 32) : s.handOver slot = { s with hp := { s.hp with posted := s.hp.posted ++ [slot] } } := if_pos h

/-! COMMAND_ACCEPT, R73, R75, R81, R83 -/

section
variable {slot : Nat} {rest : List Nat} (hposted : s.hp.posted = slot :: rest) (hready : s.pruneCmds.ready = true)
  (hroom : (s.pruneCmds.ccx.cmds.filter fun c => !c.responded).length < 1024)
include hposted hready hroom

theorem commandAccept_of_posted : commandAccept s =
    (let v := s.pruneCmds; let c := v.slotCmd slot; let w := v.takeSlot slot c
     (match v.acceptErr c (v.slotLen slot) with
      | some st => w.failCmd c.id st
      | none => w.admitted c).settle) := by
  rw [commandAccept, hposted]
  exact if_neg (by rw [hready, decide_eq_false (Nat.not_le.mpr hroom)]; decide)

theorem commandAccept_of_passed (herr : s.pruneCmds.acceptErr (s.pruneCmds.slotCmd slot) (s.pruneCmds.slotLen slot) = none) :
    commandAccept s = ((s.pruneCmds.takeSlot slot (s.pruneCmds.slotCmd slot)).admitted (s.pruneCmds.slotCmd slot)).settle := by
  rw [commandAccept_of_posted hposted hready hroom]
  simp only [herr]

theorem commandAccept_of_refused {st : Nat} (herr : s.pruneCmds.acceptErr (s.pruneCmds.slotCmd slot) (s.pruneCmds.slotLen slot) = some st) :
    commandAccept s = ((s.pruneCmds.takeSlot slot (s.pruneCmds.slotCmd slot)).failCmd (s.pruneCmds.slotCmd slot).id st).settle := by
  rw [commandAccept_of_posted hposted hready hroom]
  simp only [herr]

end

/-! RESPONSE_WRITE and EVENT_SLOT_WRITE, R77, R79, R80, R84 -/

/-- The host port after the bytes of a response went into the next slot of the ring. -/
def HostPort.afterResponse (h : HostPort) (b : Bytes) (rest : List Nat) : HostPort :=
  { h with
    mbox := ssetAll 0 h.mbox (0x2000 + 256 * h.rspNext) b, rspQ := rest, rspNext := (h.rspNext + 1) % 32, rspSeq := (h.rspSeq + 1) % 2 ^ 32 }

theorem responseWrite_of_free {id : Nat} {rest : List Nat} {c : Cmd} (hq : s.hp.rspQ = id :: rest) (hready : s.ready = true)
    (hup : s.hp.linkUp = true) (hd0 : s.hp.d3hot = false) (hown : s.slotOwn (32 + s.hp.rspNext) = true) (hc : s.cmd? id = some c) :
    responseWrite s =
      (let t := ({ s with hp := s.hp.afterResponse (s.response c) rest } : State).updCmd id fun c => { c with responded := true, rspSlot := some s.hp.rspNext }
       if c.irq then t.cause 0 else t) := by
  simp only [responseWrite, hq, hready, hup, hd0, hown, hc, Bool.not_true, Bool.or_self, Bool.false_eq_true, if_false]
  generalize s.response c = b
  rfl

/-- The host port after the bytes of an event went into the next slot of the ring. -/
def HostPort.afterEvent (h : HostPort) (b : Bytes) (rest : List Event) : HostPort :=
  { h with
    mbox := ssetAll 0 h.mbox (0x4000 + 256 * h.evtNext) b, evtQ := rest, evtNext := (h.evtNext + 1) % 32, evtSeq := (h.evtSeq + 1) % 2 ^ 32,
    evtLost := 0 }

/-- The vector that tells an event: 2 for those of the Safety and the Security group, 1 for the others (R84). -/
def Event.vector (e : Event) : Nat := if e.code / 256 = 8 ∨ e.code / 256 = 9 then 2 else 1

theorem eventSlotWrite_of_free {e : Event} {rest : List Event} (hq : s.hp.evtQ = e :: rest) (hready : s.ready = true)
    (hup : s.hp.linkUp = true) (hd0 : s.hp.d3hot = false) (hdue : s.hp.restoreDue = false) (hown : s.slotOwn (64 + s.hp.evtNext) = true) :
    eventSlotWrite s = ({ s with hp := s.hp.afterEvent (s.eventBytes e) rest } : State).cause e.vector := by
  simp only [eventSlotWrite, hq, hready, hup, hd0, hdue, hown, Bool.not_true, Bool.or_self, Bool.false_eq_true, if_false, Event.vector]
  generalize s.eventBytes e = b
  split <;> rfl

theorem Event.vector_lt (e : Event) : e.vector < 64 := by
  rw [Event.vector]
  split <;> decide

/-- Settles O3: each row finds what its premises say of its slot, and a cause leaves the slots and rings alone. A write is cut at its slot's
end (log entry 35) and the rings wait for the link (log entry 31) by the model's choice. -/
theorem mailboxCommandsComplete : Obligations.MailboxCommandsComplete := by
  unfold Obligations.MailboxCommandsComplete
  intro dt s u
  refine ⟨?posted, ?accepted, ?response, ?event, ?write, ?refused⟩
  case posted =>
    intro off b hopen hready hoff hb hfree hown
    have hrow : Completes (.mboxSlotWrite dt off b false) s
        ((u.wrMb off (b.take (256 * (off / 256 + 1) - off))).handOver (off / 256)) := by
      refine completes_event rfl rfl ((mboxSlotWrite_of_owned hopen hready (by omega) hb hfree).trans ?_)
      exact if_pos hown
    refine ⟨_, hrow, ?_⟩
    rw [State.close_hp, State.handOver_request (by omega)]
    exact ⟨rfl, rfl⟩
  case accepted =>
    intro slot rest v c hposted hready hroom herr
    exact completes_event rfl rfl (commandAccept_of_passed hposted hready hroom herr)
  case response =>
    intro id rest c hq hready hup hd0 hown hc
    have hrow : Completes (.responseWrite dt) s _ := completes_event rfl rfl (responseWrite_of_free hq hready hup hd0 hown hc)
    refine ⟨_, hrow, ?_⟩
    rw [State.close_hp, State.close_reg]
    dsimp only
    cases hirq : c.irq
    case false =>
      rw [if_neg Bool.false_ne_true]
      exact ⟨nofun, rfl, rfl, rfl, by rw [State.updCmd_hp, HostPort.afterResponse]⟩
    case true =>
      rw [if_pos rfl]
      obtain ⟨l, m, hhp⟩ := State.cause_hp (({ u with hp := u.hp.afterResponse (u.response c) rest } : State).updCmd id fun c =>
        { c with responded := true, rspSlot := some u.hp.rspNext }) 0
      rw [hhp]
      exact ⟨fun _ => State.cause_bit _ (by decide), rfl, rfl, rfl, by rw [State.updCmd_hp, HostPort.afterResponse]⟩
  case event =>
    intro e rest hq hready hup hd0 hdue hown
    have hrow : Completes (.eventSlotWrite dt) s _ := completes_event rfl rfl (eventSlotWrite_of_free hq hready hup hd0 hdue hown)
    refine ⟨_, hrow, ?_⟩
    obtain ⟨l, m, hhp⟩ := State.cause_hp ({ u with hp := u.hp.afterEvent (u.eventBytes e) rest } : State) e.vector
    have hvec : (if e.code / 256 = 8 ∨ e.code / 256 = 9 then 2 else 1) = e.vector := rfl
    rw [State.close_hp, State.close_reg, hhp, hvec]
    exact ⟨rfl, rfl, rfl, by rw [HostPort.afterEvent], State.cause_bit _ e.vector_lt⟩
  case write =>
    intro off b v hopen hready hoff hb hfree
    exact completes_event rfl rfl (mboxSlotWrite_of_owned hopen hready hoff hb hfree)
  case refused =>
    intro slot rest st v c hposted hready hroom herr
    exact completes_event rfl rfl (commandAccept_of_refused hposted hready hroom herr)

end Sys2Proof.Machine
end

section
/-! The data port: its pointer, its writes and its reads (R67, R86 to R88, R123), and their obligation. -/
namespace Sys2Proof.Machine
variable {s : State}

/-! The pointer, R67 -/

theorem State.stage_congr {t : State} (h : t.reg .ccxIdState = s.reg .ccxIdState) : t.stage = s.stage := State.fldOf_congr h 16 8

/-- The end of the image means something at stage LOAD only. -/
theorem State.imageEnd_of_not_load (f : Nat → Bool) (h : s.stage ≠ 2) : s.imageEnd f = s := if_neg fun ⟨hload, _⟩ => h hload

theorem State.setPtr_of_not_load (v : W64) (h : s.stage ≠ 2) : s.setPtr v = s.setReg .ccxHpDportPtr (alignPtr v) := by
  have hstage : (s.setReg .ccxHpDportPtr (alignPtr v)).stage ≠ 2 := by
    rwa [State.stage_congr (State.setReg_reg_ne _ _ (by decide))]
  exact (if_neg fun ⟨hload, _⟩ => hstage hload).trans (State.imageEnd_of_not_load _ hstage)

theorem dportPtrWrite_of_open (w : PtrWrite) (h : s.hostOpen = true) : dportPtrWrite w s = match w with
    | .full v => s.setPtr v
    | .high v => { s with hp := { s.hp with dportHigh := some v } }
    | .low v =>
      let hi := match s.hp.dportHigh with | some h => h.toNat | none => s.fldOf .ccxHpDportPtr 32 32
      ({ s with hp := { s.hp with dportHigh := none } }).setPtr (BitVec.ofNat 64 (hi * 2 ^ 32 + v.toNat)) :=
  (if_neg (by simp [h])).trans (by cases w <;> rfl)

theorem ofNat_halves (h v : W32) : BitVec.ofNat 64 (h.toNat * 2 ^ 32 + v.toNat) = h ++ v := by
  refine BitVec.eq_of_toNat_eq ?_
  rw [BitVec.toNat_ofNat, BitVec.toNat_append, ← Nat.shiftLeft_add_eq_or_of_lt v.isLt, Nat.shiftLeft_eq]
  have hh := h.isLt
  have hv := v.isLt
  omega

/-! Writes and reads at the pointer, R86, R88 -/

theorem State.storeTlp_csr (s : State) (ptr : Nat) (l : List (Nat × Byte)) : (s.storeTlp ptr l).csr = s.csr :=
  foldl_keeps (·.csr) (fun (s : State) (e : Nat × Byte) => s.wr (ptr + e.1) [e.2]) (fun _ _ => rfl) l s

theorem State.passTlp_of_not_load (ptr n : Nat) (h : s.stage ≠ 2) : s.passTlp ptr n = s.advancePtr n := by
  have hstage : (s.advancePtr n).stage ≠ 2 := by
    rwa [State.advancePtr, State.stage_congr (State.modReg_reg_ne _ _ (by decide))]
  exact State.imageEnd_of_not_load _ hstage

section
variable {dws : List W32} {first last : BitVec 4} (hopen : s.hostOpen = true)
include hopen

theorem dportWrite_of_passed (hstage : s.stage = 5)
    (haccess : s.access .host .other true (s.reg .ccxHpDportPtr).toNat (4 * dws.length) = none) : dportWrite dws first last false s =
      (s.storeTlp (s.reg .ccxHpDportPtr).toNat (tlpBytes dws first last)).advancePtr dws.length := by
  have hkeep : (s.storeTlp (s.reg .ccxHpDportPtr).toNat (tlpBytes dws first last)).stage ≠ 2 := by
    rw [State.stage_congr (congrArg (csrGet · _) (s.storeTlp_csr _ _)), hstage]; decide
  rw [← State.passTlp_of_not_load (s.reg .ccxHpDportPtr).toNat dws.length hkeep]
  simp only [dportWrite, hopen, hstage, haccess, Bool.not_true, Bool.false_eq_true, if_false, if_true]

theorem dportWrite_of_loading (hstage : s.stage = 2)
    (hin : inside (s.reg .ccxHpDportPtr).toNat (4 * dws.length) loadBase loadSize = true) : dportWrite dws first last false s =
      (((s.storeTlp (s.reg .ccxHpDportPtr).toNat (tlpBytes dws first last)).headerArrives (s.reg .ccxHpDportPtr).toNat
        (tlpBytes dws first last)).passTlp (s.reg .ccxHpDportPtr).toNat dws.length) := by
  have hready : ¬ (2 : Nat) = 5 := by decide
  simp only [dportWrite, hopen, hstage, hin, hready, Bool.not_true, Bool.false_eq_true, if_false, and_self, if_true]

theorem dportRead_of_clean {n : Nat} (hstage : s.stage = 5)
    (haccess : s.access .host .other false (s.reg .ccxHpDportPtr).toNat (4 * n) = none)
    (hclean : s.poisoned (s.reg .ccxHpDportPtr).toNat (4 * n) = false) : dportRead n s =
      (s.emit (.readData (s.rdSeen (s.reg .ccxHpDportPtr).toNat (4 * n)) false)).advancePtr n := by
  have hkeep : (s.emit (.readData (s.rdSeen (s.reg .ccxHpDportPtr).toNat (4 * n)) false)).stage ≠ 2 := by
    rw [State.stage_congr (State.emit_reg _ _ _), hstage]; decide
  rw [← State.passTlp_of_not_load (s.reg .ccxHpDportPtr).toNat n hkeep]
  simp only [dportRead, hopen, hstage, haccess, hclean, Bool.not_true, Bool.false_eq_true, if_false, if_true]

end

/-- Settles O6: outside LOAD the pointer and the TLPs have no image to complete, and what passes its check is stored or read. -/
theorem dataPortCommandsComplete : Obligations.DataPortCommandsComplete := by
  unfold Obligations.DataPortCommandsComplete
  intro dt s u ptr
  have hready : u.stage = 5 → u.stage ≠ 2 := fun h => by rw [h]; decide
  refine ⟨?full, ?high, ?low, ?write, ?read, ?set, ?load⟩
  case full =>
    intro v hopen hstage
    have hrow : Completes (.dportPtrWrite dt (.full v)) s (u.setReg .ccxHpDportPtr (alignPtr v)) :=
      completes_event rfl rfl ((dportPtrWrite_of_open (.full v) hopen).trans (State.setPtr_of_not_load v (hready hstage)))
    refine ⟨_, hrow, ?_, fun r hr => ?_⟩
    · rw [State.close_reg, State.setReg_reg_self, alignPtr]
    · rw [State.close_reg, State.setReg_reg_ne _ _ hr]
  case high => exact fun v hopen => completes_event rfl rfl (dportPtrWrite_of_open (.high v) hopen)
  case low =>
    intro v h hopen hstage hhigh
    have hrow : Completes (.dportPtrWrite dt (.low v)) s
        (({ u with hp := { u.hp with dportHigh := none } } : State).setReg .ccxHpDportPtr (alignPtr (h ++ v))) := by
      refine completes_event rfl rfl ((dportPtrWrite_of_open (.low v) hopen).trans ?_)
      simp only [hhigh, ofNat_halves]
      exact State.setPtr_of_not_load _ (hready hstage)
    refine ⟨_, hrow, ?_, by rw [State.close_hp, State.setReg_hp]⟩
    rw [State.close_reg, State.setReg_reg_self, alignPtr]
  case write => exact fun dws first last hopen hstage haccess => completes_event rfl rfl (dportWrite_of_passed hopen hstage haccess)
  case read => exact fun n hopen hstage haccess hclean => completes_event rfl rfl (dportRead_of_clean hopen hstage haccess hclean)
  case set => exact fun v hopen => completes_event rfl rfl (dportPtrWrite_of_open (.full v) hopen)
  case load =>
    intro dws first last hopen hstage hin b
    exact completes_event rfl rfl (dportWrite_of_loading hopen hstage hin)

end Sys2Proof.Machine
end

section
/-! Writes of registers (R9, R10, R31, R35, R45, R132, R141) and the warm-reset sequence (R69), and their obligation. -/
namespace Sys2Proof.Machine
variable {s : State}

/-! The warm-reset sequence, R69 -/

theorem warmResetRequestWrite_first (hopen : s.hostOpen = true) :
    warmResetRequestWrite 0xA5C3#32 s = { s with hp := { s.hp with warmSeq := some s.ns } } :=
  (if_neg (by simp [hopen])).trans (if_pos rfl)

theorem warmResetRequestWrite_second {a : Nat} (hopen : s.hostOpen = true) (hseq : s.hp.warmSeq = some a) (hin : s.ns ≤ a + 1000000) :
    warmResetRequestWrite 0x5752#32 s = ({ s with hp := { s.hp with warmSeq := none } } : State).request 1 := by
  refine (if_neg (by simp [hopen])).trans ((if_neg (by decide)).trans ?_)
  simp only [hseq]
  exact if_pos ⟨rfl, hin⟩

/-! What the new value of a register brings about leaves that register, R85, R132, R178, R214, R436 -/

theorem State.sendPending_reg_ne {r : Reg} (h : r ≠ .msixPba) : s.sendPending.reg r = s.reg r := by
  refine foldl_keeps (·.reg r) _ (fun s v => ?_) _ s
  split
  · exact (State.msixSend_reg_ne _ _ h).trans (State.modReg_reg_ne _ _ h)
  · rfl

theorem State.syncCheckers_reg_ne {r : Reg} (hstat : r ≠ .ssiSafeStat) (hcore : ∀ n, r ≠ .ssiStarterCore n) : s.syncCheckers.reg r = s.reg r := by
  rw [State.syncCheckers, State.setFldOf_reg_ne _ _ _ _ (hcore 1), State.setFldOf_reg_ne _ _ _ _ (hcore 0)]
  split
  · exact State.setFldOf_reg_ne _ _ _ _ hstat
  · rfl

theorem State.syncSched_reg_ne (j : Nat) {r : Reg} (hstat : r ≠ .chnSchedStat j) (hnext : r ≠ .chnSchedNext j) (halign : r ≠ .chnAlignStat) :
    (s.syncSched j).reg r = s.reg r := by
  unfold State.syncSched
  extract_lets c t w
  rw [State.setFldOf_reg_ne _ _ _ _ halign, State.setFldOf_reg_ne _ _ _ _ halign, State.setReg_reg_ne _ _ hnext,
    State.setFldOf_reg_ne _ _ _ _ hstat, State.setFldOf_reg_ne _ _ _ _ hstat]

theorem State.assignSlots_reg_ne {r : Reg} (hmap : r ≠ .siuE2eMap) (hstate : ∀ n, r ≠ .siuStreamState n) (hstat : r ≠ .siuStat)
    (herr : r ≠ .ccxHpMboxErr) : s.assignSlots.reg r = s.reg r := by
  unfold State.assignSlots
  extract_lets old want kept new t v w
  have ht : t.reg r = s.reg r := foldl_keeps (·.reg r) _ (fun _ _ => State.setFldOf_reg_ne _ _ _ _ hmap) _ s
  have hv : v.reg r = t.reg r := foldl_keeps (·.reg r) _ (fun _ _ => State.setFldOf_reg_ne _ _ _ _ (hstate _)) _ t
  have hw : w.reg r = v.reg r := (State.setFldOf_reg_ne _ _ _ _ hstat).trans (State.setFldOf_reg_ne _ _ _ _ hstat)
  split
  · rw [hw, hv, ht]
  · rw [State.raise_reg_ne _ _ _ _ herr, hw, hv, ht]

/-- The register that was written keeps its value in what follows. -/
theorem State.afterWrite_reg (who : Writer) (r : Reg) (v : W64) : (s.afterWrite who r v).reg r = s.reg r := by
  unfold State.afterWrite
  split
  · exact State.sendPending_reg_ne (by simp)
  · rfl
  · exact State.syncCheckers_reg_ne (by decide) (by simp)
  · exact State.syncSched_reg_ne _ (by simp) (by simp) (by simp)
  · exact State.assignSlots_reg_ne (by simp) (by simp) (by simp) (by simp)
  · rfl
  · split <;> rfl
  · rfl

theorem setBit_bit {w : Nat} (v : BitVec w) {i : Nat} (h : i < w) : setBit v i (bit v i) = v := by
  refine BitVec.eq_of_getLsbD_eq fun k hk => ?_
  rcases Nat.lt_trichotomy k i with hlt | rfl | hgt
  · exact bit_setBit_ne _ _ hk (Nat.ne_of_lt hlt)
  · exact bit_setBit_self _ _ hk
  · exact bit_setBit_ne _ _ hk (Nat.ne_of_gt hgt)

/-- A format that a time base takes shows in its control register, R132. -/
theorem State.setFormat_bit (n : Nat) (b : Bool) : bit ((s.setFormat n (if b then 1 else 0)).reg (.tnuTbCtl n)) 8 = b := by
  rw [State.setFormat, State.setFldOf, State.modReg_reg_self]
  exact bit_setBit_self _ b (by decide)

theorem State.newSource_reg (n : Nat) (r : Reg) : (s.newSource n).reg r = s.reg r := rfl

theorem State.place_tbCtl {n : Nat} {x : W64} (h : bit x 8 = bit (s.reg (.tnuTbCtl n)) 8 ∨ s.tbReferred n = false) :
    (s.place (.tnuTbCtl n) x).reg (.tnuTbCtl n) = x := by
  by_cases hsame : x = s.reg (.tnuTbCtl n)
  · rw [State.place, if_pos hsame, hsame]
  · rw [State.place, if_neg hsame]
    extract_lets old t v
    have hformat : bit (t.reg (.tnuTbCtl n)) 8 = bit x 8 := by
      unfold t
      split
      case isTrue => exact State.setFormat_bit n _
      case isFalse hkeep =>
        rcases h with heq | hfree
        · exact heq.symm
        · by_contra hne
          exact hkeep ⟨fun heq => hne heq.symm, by simp [hfree]⟩
    have hsource : v.reg (.tnuTbCtl n) = t.reg (.tnuTbCtl n) := by
      unfold v
      split
      · exact State.newSource_reg n _
      · rfl
    rw [State.setReg_reg_self, hsource, hformat, setBit_bit _ (by decide)]

theorem State.place_of_plain {r : Reg} (h : ∀ n, r ≠ .tnuTbCtl n) (x : W64) : s.place r x = if x = s.reg r then s else s.setReg r x := by
  unfold State.place
  split
  · rfl
  · split
    · exact absurd rfl (h _)
    · rfl

/-- The new value stands in the register, whose format bit a time base in use keeps. -/
theorem State.place_reg {r : Reg} {x : W64} (h : ∀ n, r = .tnuTbCtl n → bit x 8 = bit (s.reg r) 8 ∨ s.tbReferred n = false) :
    (s.place r x).reg r = x := by
  by_cases hr : ∃ n, r = .tnuTbCtl n
  · obtain ⟨n, rfl⟩ := hr
    exact State.place_tbCtl (h n rfl)
  · rw [State.place_of_plain (fun n hn => hr ⟨n, hn⟩)]
    split
    case isTrue heq => exact heq.symm
    case isFalse => exact State.setReg_reg_self _ _ _

/-! A write that reaches a register, R10, R31 -/

section
variable {r : Reg} {who : Writer} {v : W64} (hrow : r.ownRow = false) (hreach : s.reach who r ≠ 0)
include hrow hreach

theorem State.writeReg_of_reached (hgate : r ≠ .tarIssueGate) (haway : s.turnsAway r (r.written (s.reach who r) (s.reg r) v) = false) :
    s.writeReg who r v = (s.place r (r.written (s.reach who r) (s.reg r) v)).afterWrite who r v :=
  (if_neg (by simp [hrow])).trans ((if_neg hreach).trans ((if_neg hgate).trans (if_neg (by simp [haway]))))

theorem State.writeReg_reg (hgate : r ≠ .tarIssueGate) (haway : s.turnsAway r (r.written (s.reach who r) (s.reg r) v) = false)
    (hformat : ∀ n, r = .tnuTbCtl n → bit (r.written (s.reach who r) (s.reg r) v) 8 = bit (s.reg r) 8 ∨ s.tbReferred n = false) :
    (s.writeReg who r v).reg r = r.written (s.reach who r) (s.reg r) v := by
  rw [State.writeReg_of_reached hrow hreach hgate haway, State.afterWrite_reg, State.place_reg hformat]

end

/-- No rule turns a write to a register of 64 bits away, and none of them is a time base's control. -/
theorem State.turnsAway_of_wide {r : Reg} (h : r.wide = true) (x : W64) : s.turnsAway r x = false := by
  cases r
  case tnuCmpCtl => exact absurd h Bool.false_ne_true
  all_goals rfl

section
variable {r : Reg} {who : Writer} {v : W64} (haddr : Reg.ofAddr r.addr = some r) (hhost : who = .host → r.addr < csrBase)
include haddr hhost

/-- Four bytes reach the low half of a register. -/
theorem registerWrite_word (hwide : r.wide = false) : registerWrite who r.addr 4 v s = s.writeReg who r (setFld 0 0 32 (fld v 0 32)) := by
  refine (if_neg fun ⟨hw, ha⟩ => Nat.not_le.mpr (hhost hw) ha).trans ((if_pos rfl).trans ?_)
  simp only [State.writeWord, haddr, hwide, Bool.false_eq_true, if_false]

theorem registerWrite_wide (hwide : r.wide = true) : registerWrite who r.addr 8 v s = s.writeReg who r v := by
  refine (if_neg fun ⟨hw, ha⟩ => Nat.not_le.mpr (hhost hw) ha).trans ((if_neg (by decide)).trans ((if_pos rfl).trans ?_))
  simp only [haddr, hwide, if_true]

end

/-! The period of a stream and the issue gate, which Bivexa writes at stage READY -/

set_option maxRecDepth 4000 in
theorem Reg.ofAddr_siuStreamPeriod : ∀ n < 64, Reg.ofAddr (Reg.addr (.siuStreamPeriod n)) = some (.siuStreamPeriod n) := by decide

theorem Reg.ofAddr_tarIssueGate : Reg.ofAddr (Reg.addr .tarIssueGate) = some .tarIssueGate := rfl

theorem State.reach_siuStreamPeriod (hstage : s.stage = 5) {n : Nat} (hn : n < 64) : s.reach .bivexa (.siuStreamPeriod n) = ~~~0 := by
  have hblock : csrBase ≤ Reg.addr (.siuStreamPeriod n) ∧ Reg.block (.siuStreamPeriod n) ≠ some 7 := by
    rw [Reg.block, Reg.addr, csrBase]
    refine ⟨by omega, ?_⟩
    rw [if_pos (by omega), Ne, Option.some_inj]
    omega
  simp only [State.reach, hstage, if_pos hblock]
  rfl

theorem State.reach_tarIssueGate (hstage : s.stage = 5) : s.reach .bivexa .tarIssueGate = ~~~0 := by
  simp only [State.reach, hstage]
  rfl

/-- The low word of a value. -/
theorem setFld_low_word (v : W64) : setFld (0 : W64) 0 32 (fld v 0 32) = v &&& 0xFFFFFFFF := by
  refine BitVec.eq_of_toNat_eq ?_
  have hmask : (v &&& 0xFFFFFFFF).toNat = v.toNat % 2 ^ 32 := Nat.and_two_pow_sub_one_eq_mod v.toNat 32
  rw [hmask]
  simp [setFld, fld]
  omega

theorem and_not_zero (x : W64) : x &&& ~~~0 = x := BitVec.and_allOnes

theorem and_not_masked (x v : W64) : x &&& ~~~(v &&& 0 &&& ~~~0) = x := by
  have hzero : v &&& 0 = 0 := BitVec.and_zero
  rw [and_not_zero, hzero, and_not_zero]

/-- A writer that reaches every bit replaces the writable ones of a register whose table has no other rule. -/
theorem Reg.written_of_plain {r : Reg} (hzero : r.zeroClears = false) (hbounds : r.bounds = []) (hw1c : r.w1c = 0) (old v : W64) :
    r.written (~~~0) old v = (old &&& ~~~r.writeMask) ||| (v &&& r.writeMask) := by
  rw [Reg.written, hzero, hbounds, hw1c, and_not_zero]
  exact (if_neg Bool.false_ne_true).trans (and_not_masked _ _)

theorem Reg.written_siuStreamPeriod (n : Nat) (old v : W64) :
    Reg.written (.siuStreamPeriod n) (~~~0) old (v &&& 0xFFFFFFFF) = (old &&& 0xFFFFFFFF00000000) ||| (v &&& 0xFFFFFFFF) := by
  rw [Reg.written_of_plain rfl rfl rfl, Reg.writeMask, BitVec.and_assoc, BitVec.and_self]
  rfl

/-- A duty that fits its field is what the gate takes. -/
theorem Reg.written_tarIssueGate (old : W64) {v : W64} (hlt : v.toNat < 65) (hne : v ≠ 0) :
    fld (Reg.written .tarIssueGate (~~~0) old (v &&& 0xFFFFFFFF)) 0 7 = v.toNat := by
  have hpos : v.toNat ≠ 0 := fun h => hne (BitVec.eq_of_toNat_eq h)
  have hmask : (v &&& 0xFFFFFFFF : W64) &&& (0x7F : W64) = BitVec.ofNat 64 ((v.toNat % 2 ^ 7) <<< 0) := by
    have hword : (v &&& 0xFFFFFFFF).toNat = v.toNat % 2 ^ 32 := Nat.and_two_pow_sub_one_eq_mod v.toNat 32
    have hduty : ((v &&& 0xFFFFFFFF : W64) &&& (0x7F : W64)).toNat = (v &&& 0xFFFFFFFF).toNat % 2 ^ 7 := Nat.and_two_pow_sub_one_eq_mod _ 7
    refine BitVec.eq_of_toNat_eq ?_
    rw [hduty, hword, BitVec.toNat_ofNat, Nat.shiftLeft_zero]
    omega
  have hset : (old &&& ~~~0x7F) ||| (v &&& 0xFFFFFFFF &&& 0x7F) = setFld old 0 7 v.toNat := by rw [hmask]; rfl
  have hfld : fld (setFld old 0 7 v.toNat) 0 7 = v.toNat := by
    rw [fld_setFld_self _ (by decide)]
    omega
  have hw1c : Reg.w1c .tarIssueGate = 0 := rfl
  rw [Reg.written, if_neg (by decide), Reg.writeMask, and_not_zero]
  dsimp only
  rw [hset, Reg.bounds, List.foldl_cons, List.foldl_nil]
  dsimp only
  rw [hfld, if_pos (by rw [decide_eq_true_eq]; omega), hw1c, and_not_masked, hfld]

/-- Settles O7: a write within reach leaves the value that the access types give, and what follows it leaves that register. -/
theorem registerCommandsComplete : Obligations.RegisterCommandsComplete := by
  unfold Obligations.RegisterCommandsComplete
  intro dt s u
  refine ⟨?first, ?second, ?word, ?period, ?wide, ?gate⟩
  case first => exact fun hopen => completes_event rfl rfl (warmResetRequestWrite_first hopen)
  case second => exact fun a hopen hseq hin => completes_event rfl rfl (warmResetRequestWrite_second hopen hseq hin)
  case word =>
    intro r who v x haddr hrow hwide hgate hreach hhost haway hformat
    have hexec : Completes (.registerWrite dt who r.addr 4 v) s (u.writeReg who r (setFld 0 0 32 (fld v 0 32))) :=
      completes_event rfl rfl (registerWrite_word haddr hhost hwide)
    exact ⟨_, hexec, (State.close_reg _ _ _ _).trans (State.writeReg_reg hrow hreach hgate haway hformat)⟩
  case period =>
    intro n v hn hstage
    have hreach := State.reach_siuStreamPeriod hstage hn
    have hwrite : u.writeReg .bivexa (.siuStreamPeriod n) (setFld 0 0 32 (fld v 0 32)) =
        u.place (.siuStreamPeriod n) ((u.reg (.siuStreamPeriod n) &&& 0xFFFFFFFF00000000) ||| (v &&& 0xFFFFFFFF)) := by
      rw [State.writeReg_of_reached rfl (by rw [hreach]; decide) (by simp) rfl, hreach, setFld_low_word, Reg.written_siuStreamPeriod]
      rfl
    have hexec : Completes (.registerWrite dt .bivexa (Reg.addr (.siuStreamPeriod n)) 4 v) s _ :=
      completes_event rfl rfl ((registerWrite_word (who := .bivexa) (Reg.ofAddr_siuStreamPeriod n hn) nofun rfl).trans hwrite)
    refine ⟨_, hexec, ?_, fun r hr => ?_⟩
    · rw [State.close_reg, State.place_reg (by simp)]
    · rw [State.close_reg, State.place_of_plain (by simp)]
      split
      · rfl
      · exact State.setReg_reg_ne _ _ hr
  case wide =>
    intro r who v haddr hrow hwide hreach hhost
    have hexec : Completes (.registerWrite dt who r.addr 8 v) s (u.writeReg who r v) :=
      completes_event rfl rfl (registerWrite_wide haddr hhost hwide)
    refine ⟨_, hexec, (State.close_reg _ _ _ _).trans (State.writeReg_reg hrow hreach ?_ (State.turnsAway_of_wide hwide _) ?_)⟩
    · rintro rfl; exact absurd hwide Bool.false_ne_true
    · rintro n rfl; exact absurd hwide Bool.false_ne_true
  case gate =>
    intro v hstage hlt hne
    have hreach := State.reach_tarIssueGate hstage
    refine completes_event rfl rfl ((registerWrite_word (who := .bivexa) Reg.ofAddr_tarIssueGate nofun rfl).trans ?_)
    rw [State.writeReg, if_neg (by decide), hreach, if_neg (by decide), if_pos rfl, setFld_low_word, Reg.written_tarIssueGate _ hlt hne]

end Sys2Proof.Machine
end

section
/-! Dispatch, commit and abort of a host command (R73, R98 to R107, R509), and their obligation. -/
namespace Sys2Proof.Machine
variable {s : State} {c : Cmd}

/-! COMMAND_DISPATCH -/

/-- A command becomes RUNNING, and its row will read the memory of now, R509. -/
def State.setRunning (s : State) (c : Cmd) (id : Nat) : State :=
  s.updCmd id fun x => { x with state := .running, ranAt := s.now, seen := if c.readsNow then none else some s.mem }

theorem commandDispatch_of_free {id : Nat} (hc : s.cmd? id = some c) (hstate : c.state = .accepted) (hready : s.ready = true)
    (hheld : s.held c = false) (hfunc : s.funcRefuses c = false) (haux : c.aux.contains 0x11 = false) (hroom : s.room c = true) :
    commandDispatch id s =
      ((s.setRunning c id).clearOuts c ((s.setRunning c id).begin_ { c with state := .running, ranAt := s.now })).settle := by
  have hgo : ¬(c.state ≠ .accepted ∨ s.ready = false ∨ s.held c = true) := by simp [hstate, hready, hheld]
  simp only [commandDispatch, hc, if_neg hgo, hfunc, haux, hroom, Bool.false_eq_true, Bool.true_eq_false, if_false]
  rfl

/-! COMMAND_COMMIT -/

section
variable {id n : Nat} (hc : s.cmd? id = some c) (hrun : c.state = .running)
include hc hrun

theorem commandCommit_of_failed (hv : c.verdict = some n) (hn : n ≠ 0) :
    commandCommit id s = (if n < 0x10 then s.complete c.id n else s.failCmd c.id n).settle := by
  simp only [commandCommit, hc, hv, hrun, hn, ne_eq, not_true_eq_false, not_false_eq_true, if_true, if_false, State.endWith]

/-- A unit that has finished well: association, search and sequence transfer publish what they hold, the others end. -/
theorem commandCommit_of_good (hv : c.verdict = some 0) : commandCommit id s =
    (if c.code = 0x0421 then commitAssoc c s
      else if c.code = 0x0505 then commitSearch c s
      else if c.code = 0x075A then (if c.discard then s else s.commitSend c).done c
      else s.complete c.id (s.doneStatus c)).settle := by
  simp only [commandCommit, hc, hv, hrun, ne_eq, not_true_eq_false, if_false, State.endWith, if_true]

end

/-! CTRL_ABORT -/

theorem State.notAbortable_of_final (hfinal : c.state.final = true) (hcode : c.code ≠ 0x0102) : s.notAbortable c = false := by
  have hrun : (c.state == .running) = false := by
    rw [beq_eq_false_iff_ne]
    intro h
    rw [h] at hfinal
    exact Bool.false_ne_true hfinal
  simp [State.notAbortable, hrun, hcode]

theorem ctrlAbort_of_acted (h : c.aux.contains 1 = true) : ctrlAbort c s = s.done c := if_pos h

section
variable {x : Cmd} (haux : c.aux.contains 1 = false) (hpart : c.p 0x20 1 ≤ 7) (hx : s.abortTarget c = some x)
include haux hpart hx

theorem ctrlAbort_of_abortable (h : s.notAbortable x = false) : ctrlAbort c s = s.abortFor c x := by
  refine (if_neg (Bool.eq_false_iff.mp haux)).trans ((if_neg (by omega)).trans ?_)
  simp only [hx, h, Bool.false_eq_true, if_false]

theorem ctrlAbort_of_ended (hcode : x.code ≠ 0x0102) (hfinal : x.state.final = true) :
    ctrlAbort c s = (s.setResult c.id 0x20 (abortResult x)).finish c.id 0x01 :=
  (ctrlAbort_of_abortable haux hpart hx (State.notAbortable_of_final hfinal hcode)).trans (if_pos hfinal)

/-- The results of an abort that ends its target tell how the target stands. -/
theorem ctrlAbort_of_found {y : Cmd} (h : s.notAbortable x = false) (hfinal : x.state.final = false) (hy : (s.abortNow x).cmd? x.id = some y) :
    ctrlAbort c s = ((s.abortNow x).setResult c.id 0x20 (abortResult y)).done c := by
  rw [ctrlAbort_of_abortable haux hpart hx h, State.abortFor, if_neg (by simp [hfinal])]
  simp only [hy]

theorem ctrlAbort_of_gone (h : s.notAbortable x = false) (hfinal : x.state.final = false) (hy : (s.abortNow x).cmd? x.id = none) :
    ctrlAbort c s = (s.abortNow x).done c := by
  rw [ctrlAbort_of_abortable haux hpart hx h, State.abortFor, if_neg (by simp [hfinal])]
  simp only [hy]

end

/-- Settles O4: nothing holds the command, its unit's verdict is known, or the abort has a target that may be aborted. -/
theorem lifecycleCommandsComplete : Obligations.LifecycleCommandsComplete := by
  unfold Obligations.LifecycleCommandsComplete
  intro dt id s c u
  refine ⟨?dispatch, ?commit, ?ended, ?failed, ?publish, ?abort, ?acted⟩
  case dispatch =>
    intro v hc hstate hready hheld hfunc haux hroom
    exact completes_event rfl rfl (commandDispatch_of_free hc hstate hready hheld hfunc haux hroom)
  case commit =>
    intro hc hrun hv hassoc hsearch hsend
    refine completes_event rfl rfl ((commandCommit_of_good hc hrun hv).trans ?_)
    rw [if_neg hassoc, if_neg hsearch, if_neg hsend]
  case ended =>
    intro x hr haux hpart hx hcode hfinal
    exact completes_cmd rfl rfl hr (ctrlAbort_of_ended (by simp [haux]) hpart hx hcode hfinal)
  case failed => exact fun n hc hrun hv hn => completes_event rfl rfl (commandCommit_of_failed hc hrun hv hn)
  case publish =>
    intro hc hrun hv
    have hgood := commandCommit_of_good hc hrun hv
    refine ⟨fun h => completes_event rfl rfl (hgood.trans ?_), fun h => completes_event rfl rfl (hgood.trans ?_),
      fun h => completes_event rfl rfl (hgood.trans ?_)⟩
    · rw [if_pos h]
    · rw [if_neg (by rw [h]; decide), if_pos h]
    · rw [if_neg (by rw [h]; decide), if_neg (by rw [h]; decide), if_pos h]
  case abort =>
    intro x w hr haux hpart hx hmay hfinal t
    rcases hy : t.cmd? x.id with _ | y
    · exact completes_cmd rfl rfl hr (ctrlAbort_of_gone haux hpart hx hmay hfinal hy)
    · exact completes_cmd rfl rfl hr (ctrlAbort_of_found haux hpart hx hmay hfinal hy)
  case acted => exact fun hr haux => completes_cmd rfl rfl hr (ctrlAbort_of_acted haux)

end Sys2Proof.Machine
end

section
/-! The commands that configure and read time bases (R128 to R137, R142, R144 to R146, R160, R161), and their obligations. -/
namespace Sys2Proof.Machine
variable {s t : State} {c : Cmd}

/-! What the instants of the time bases depend on, R128, R129 -/

/-- Two states hold the same Time and Network Unit, and every time base has the same control register. -/
structure State.SameTime (s t : State) : Prop where
  tnu : t.tnu = s.tnu
  ctl : ∀ n, t.reg (.tnuTbCtl n) = s.reg (.tnuTbCtl n)

theorem State.tbase_congr (h : t.tnu = s.tnu) (n : Nat) : t.tbase n = s.tbase n := by rw [State.tbase, h, State.tbase]

namespace State.SameTime

theorem trans {u : State} (h : s.SameTime t) (k : t.SameTime u) : s.SameTime u := ⟨k.tnu.trans h.tnu, fun n => (k.ctl n).trans (h.ctl n)⟩

theorem setReg (s : State) {r : Reg} (v : W64) (h : ∀ n, Reg.tnuTbCtl n ≠ r) : s.SameTime (s.setReg r v) := ⟨rfl, fun n => State.setReg_reg_ne _ _ (h n)⟩

theorem tbase (h : s.SameTime t) (n : Nat) : t.tbase n = s.tbase n := State.tbase_congr h.tnu n

theorem tbShort (h : s.SameTime t) (n : Nat) : t.tbShort n = s.tbShort n := by rw [State.tbShort, h.ctl, State.tbShort]

theorem tbNow (h : s.SameTime t) (n : Nat) : t.tbNow n = s.tbNow n := by rw [State.tbNow, h.tbase, h.tbShort, State.tbNow]

theorem tbFull (h : s.SameTime t) (n : Nat) : t.tbFull n = s.tbFull n := by
  simp only [State.tbFull, State.tbWide, h.tbase, h.tbShort, h.tbNow]

end State.SameTime

/-! A cross-stamp, R142 -/

/-- One time base is latched. -/
def State.stampTb (s : State) (n : Nat) : State := s.setReg (.tnuXstampTb n) (BitVec.ofNat 64 (s.tbNow n))

theorem State.stampTb_sameTime (s : State) (n : Nat) : s.SameTime (s.stampTb n) := .setReg s _ (by simp)

theorem State.crossStamp_eq (s : State) : s.crossStamp = (List.range 8).foldl State.stampTb s := rfl

theorem State.crossStamp_sameTime (s : State) : s.SameTime s.crossStamp :=
  foldl_holds s.SameTime State.stampTb (fun t n h => h.trans (t.stampTb_sameTime n)) _ s ⟨rfl, fun _ => rfl⟩

/-- Every time base is latched as it stood at first. -/
theorem State.foldl_stampTb_reg (l : List Nat) (s : State) (n : Nat) :
    (l.foldl State.stampTb s).reg (.tnuXstampTb n) = if n ∈ l then BitVec.ofNat 64 (s.tbNow n) else s.reg (.tnuXstampTb n) := by
  induction l generalizing s with
  | nil => rfl
  | cons a l ih =>
    rw [List.foldl_cons, ih, (s.stampTb_sameTime a).tbNow]
    by_cases hn : n ∈ l
    · rw [if_pos hn, if_pos (List.mem_cons_of_mem _ hn)]
    · by_cases ha : n = a
      · rw [if_neg hn, if_pos (ha ▸ List.mem_cons_self), ha]
        exact State.setReg_reg_self _ _ _
      · rw [if_neg hn, if_neg (by simp [ha, hn])]
        exact State.setReg_reg_ne _ _ (by simpa using ha)

theorem State.crossStamp_reg {n : Nat} (h : n < 8) : s.crossStamp.reg (.tnuXstampTb n) = BitVec.ofNat 64 (s.tbNow n) := by
  rw [State.crossStamp_eq, State.foldl_stampTb_reg, if_pos (List.mem_range.mpr h)]

theorem State.crossStamp_tbFull (n : Nat) : s.crossStamp.tbFull n = s.tbFull n := s.crossStamp_sameTime.tbFull n

theorem xstampWrite_of_set {v : W32} (h : bit v 0 = true) : xstampWrite v s = s.crossStamp := if_pos h

/-- Settles O57: no latch moves a time base, so all eight hold the instants of one tick. -/
theorem crossStampLatches : Obligations.CrossStampLatches := by
  unfold Obligations.CrossStampLatches
  intro dt id s u
  refine ⟨fun v hv => ?write, fun c hr => ?read⟩
  case write =>
    have hrow : Completes (.xstampWrite dt v) s u.crossStamp := completes_event rfl rfl (xstampWrite_of_set hv)
    exact ⟨_, hrow, fun n hn => by rw [State.close_reg, State.crossStamp_reg hn]⟩
  case read =>
    have hrow : Completes (.timeRead dt id) s
        (((s.atRow dt id).crossStamp.doneWith c ((List.range 8).flatMap fun n => leBytes 8 (u.tbFull n))).settle) := completes_cmd rfl rfl hr rfl
    refine ⟨hrow, _, hrow, fun n hn => ?_⟩
    rw [State.close_reg, State.settle_reg_ne _ (by simp), State.doneWith, State.done_reg_ne _ _ (by simp), State.setResult, State.updCmd_reg,
      State.crossStamp_reg hn]
    rfl

/-! TIME_SET_FORMAT to TIME_SET_JUMP_THRESHOLD, R129 to R137 -/

theorem timeSetFormat_of_free {f : Nat} (hlo : 1 ≤ c.p 0x20 1) (hhi : c.p 0x20 1 ≤ 7) (hf : c.p 0x21 1 = f) (hf1 : f ≤ 1)
    (hlock : s.locked (c.p 0x20 1) = false) (href : s.tbReferred (c.p 0x20 1) = false) :
    timeSetFormat c s = (s.setFormat (c.p 0x20 1) f).done c := by
  subst hf
  have hzero : c.p 0x20 1 ≠ 0 := by omega
  rw [timeSetFormat, s.firstFail_of_all_false c _ (by simp [hhi, hf1, hzero, hlock, href])]

/-- A time base that changes its format keeps the low 32 bits of its count, R132. -/
theorem State.setFormat_of_other {tb f : Nat} (h : s.tbShort tb = (f != 1)) : s.setFormat tb f =
    (s.setTbase tb { s.tbase tb with
      acc := BitVec.ofNat 128 (s.tbNow tb % 2 ^ 32 * 2 ^ 32 + (s.tbase tb).acc.toNat % 2 ^ 32), wraps := 0, lastCount := s.tbNow tb % 2 ^ 32 }).setFldOf
        (.tnuTbCtl tb) 8 1 f := by
  rw [State.setFormat, if_neg (by rw [h, bne]; exact Bool.not_ne_self _)]

/-- Settles O56: the format bit of TB0 says nothing, and the second check refuses it. -/
theorem timeBaseZeroExtended : Obligations.TimeBaseZeroExtended := by
  unfold Obligations.TimeBaseZeroExtended
  refine ⟨fun s => rfl, fun dt id s c hr hzero hf => completes_cmd rfl rfl hr ?_⟩
  simp [timeSetFormat, State.firstFail, hzero, hf, stNotPermitted]

theorem timeSetSource_of_allowed (hhi : c.p 0x20 1 ≤ 7) (hsrc : c.p 0x21 1 ≤ 5) (hlock : s.locked (c.p 0x20 1) = false)
    (hpps : c.p 0x21 1 = 4 → s.tbShort (c.p 0x20 1) = false) : timeSetSource c s =
      ((((s.setFldOf (.tnuTbCtl (c.p 0x20 1)) 12 4 (c.p 0x21 1)).setFldOf (.tnuTbCtl (c.p 0x20 1)) 16 8 (c.p 0x22 1)).setTbase (c.p 0x20 1)
        { s.tbase (c.p 0x20 1) with ppsLocked := false, ppsLast := s.ns })).done c := by
  rw [timeSetSource, s.firstFail_of_all_false c _ (by simpa [hhi, hsrc, hlock] using hpps)]
  rfl

theorem incOk_of_in_range {v : Nat} (hlo : 0x1FFBE76C9 ≤ v) (hhi : v ≤ 0x200418937) : incOk v = true := decide_eq_true ⟨hlo, hhi⟩

theorem timeSetIncrement_of_allowed {v : Nat} (hhi : c.p 0x20 1 ≤ 7) (hv : c.p 0x28 8 % 2 ^ 40 = v) (hok : incOk v = true)
    (hlock : s.locked (c.p 0x20 1) = false) (hdisc : s.disciplined (c.p 0x20 1) = false) :
    timeSetIncrement c s = (s.setReg (.tnuTbInc (c.p 0x20 1)) (BitVec.ofNat 64 v)).done c := by
  subst hv
  rw [timeSetIncrement, s.firstFail_of_all_false c _ (by simp only [Nat.reducePow] at hok; simp [hhi, hok, hlock, hdisc])]

/-- A forced step needs the unlock, another one a time base without discipline and an offset up to the threshold. -/
theorem timeStep_of_allowed (hhi : c.p 0x20 1 ≤ 7) (hlock : s.locked (c.p 0x20 1) = false)
    (hrange : s.stepRange (c.p 0x20 1) (sgn 64 (c.p 0x28 8)) = false)
    (hallow : ((c.p 0x21 1).testBit 0 = true ∧ s.unlockOpen c (c.p 0x20 1) = true) ∨
      ((c.p 0x21 1).testBit 0 = false ∧ s.disciplined (c.p 0x20 1) = false ∧
        (sgn 64 (c.p 0x28 8)).natAbs ≤ (s.reg (.tnuTbJumpThr (c.p 0x20 1))).toNat)) :
    timeStep c s = (s.dropUnlock (c.p 0x20 1)).queueStep (c.p 0x20 1)
      { off := sgn 64 (c.p 0x28 8), forced := (c.p 0x21 1).testBit 0, who := .host, cmd := some c.id } := by
  rcases hallow with ⟨hforced, hopen⟩ | ⟨hfree, hdisc, hthr⟩
  · rw [timeStep, s.firstFail_of_all_false c _ (by simp only [hforced]; simp [hhi, hlock])]
    simp only [hforced, hopen, hrange, State.stepAllowed, Bool.not_true, Bool.and_false, Bool.false_eq_true, if_false, Bool.true_or, if_true]
  · rw [timeStep, s.firstFail_of_all_false c _ (by simp only [hfree]; simp [hhi, hlock, hdisc])]
    simp only [hfree, hrange, State.stepAllowed, hthr, Bool.false_and, Bool.false_eq_true, if_false, decide_true, Bool.or_true, if_true]

theorem timeStepUnlock_of_key (hhi : c.p 0x20 1 ≤ 7) (hlock : s.locked (c.p 0x20 1) = false) (hkey : c.p 0x24 4 = 0xA55A) :
    timeStepUnlock c s = (s.setTbase (c.p 0x20 1) { s.tbase (c.p 0x20 1) with unlock := some (c.part, s.ns) }).done c := by
  rw [timeStepUnlock, s.firstFail_of_all_false c _ (by simp [hhi, hlock])]
  exact if_pos hkey

theorem timeSetJumpThreshold_of_allowed {v : Nat} (hhi : c.p 0x20 1 ≤ 7) (hv : c.p 0x24 4 = v) (hmin : 1000 ≤ v) (hmax : v ≤ 1000000000)
    (hlock : s.locked (c.p 0x20 1) = false) :
    timeSetJumpThreshold c s = (s.setReg (.tnuTbJumpThr (c.p 0x20 1)) (BitVec.ofNat 64 v)).done c := by
  subst hv
  rw [timeSetJumpThreshold, s.firstFail_of_all_false c _ (by simp [hhi, hmin, hmax, hlock])]

/-- Settles O14: with parameters in range and a time base that P0 does not hold, no command is refused, and each does its work. -/
theorem timeBaseCommandsComplete : Obligations.TimeBaseCommandsComplete := by
  unfold Obligations.TimeBaseCommandsComplete
  intro dt id s c u tb t
  refine ⟨?change, ?source, ?increment, ?step, ?unlock, ?threshold, ?format⟩
  case change =>
    intro f hr hlo hhi hf hf1 hlock href hother n
    exact completes_cmd rfl rfl hr ((timeSetFormat_of_free hlo hhi hf hf1 hlock href).trans (congrArg (·.done c) (State.setFormat_of_other hother)))
  case source => exact fun hr hhi hsrc hlock hpps => completes_cmd rfl rfl hr (timeSetSource_of_allowed hhi hsrc hlock hpps)
  case increment =>
    intro v hr hhi hv hmin hmax hlock hdisc
    exact completes_cmd rfl rfl hr (timeSetIncrement_of_allowed hhi hv (incOk_of_in_range hmin hmax) hlock hdisc)
  case step =>
    intro off forced hr hhi hlock hrange hallow
    exact completes_cmd rfl rfl hr (timeStep_of_allowed hhi hlock hrange hallow)
  case unlock => exact fun hr hhi hlock hkey => completes_cmd rfl rfl hr (timeStepUnlock_of_key hhi hlock hkey)
  case threshold => exact fun v hr hhi hv hmin hmax hlock => completes_cmd rfl rfl hr (timeSetJumpThreshold_of_allowed hhi hv hmin hmax hlock)
  case format => exact fun f hr hlo hhi hf hf1 hlock href => completes_cmd rfl rfl hr (timeSetFormat_of_free hlo hhi hf hf1 hlock href)

/-! TIME_READ, TIME_PPS_CONFIG, TIME_PTP_CONFIG and TIME_SNAPSHOT, R142, R144 to R146, R160, R161 -/

theorem timeRead_of_stamped : timeRead c s =
    s.crossStamp.doneWith c ((List.range 8).flatMap fun n => leBytes 8 (s.crossStamp.tbFull n)) := by
  simp only [State.crossStamp_tbFull]
  rfl

theorem timePpsConfig_in_range (hpol : c.p 0x20 1 ≤ 1) (htb : c.p 0x21 1 ≤ 7 ∧ s.tbShort (c.p 0x21 1) = false ∨ c.p 0x21 1 = 255)
    (hlo : -1000000 ≤ sgn 32 (c.p 0x24 4)) (hhi : sgn 32 (c.p 0x24 4) ≤ 1000000) (hmin : 1000 ≤ c.p 0x28 4) (hmax : c.p 0x28 4 ≤ 500000000) :
    timePpsConfig c s = ({ s with tnu := { s.tnu with
      ppsPolarity := c.p 0x20 1, ppsOutTb := c.p 0x21 1, ppsOutOff := sgn 32 (c.p 0x24 4), ppsOutWidth := c.p 0x28 4,
      ppsOutNext := s.nextSecond (c.p 0x21 1) (sgn 32 (c.p 0x24 4)) } } : State).done c := by
  have hoff : ¬(sgn 32 (c.p 0x24 4) < -1000000 ∨ 1000000 < sgn 32 (c.p 0x24 4)) := by omega
  rw [timePpsConfig, s.firstFail_of_all_false c]
  rcases htb with ⟨h7, hext⟩ | h255
  · simp [hpol, h7, hext, hoff, hmin, hmax]
  · simp [hpol, h255, hoff, hmin, hmax]

theorem timePtpConfig_in_range (hlo : 1 ≤ c.p 0x20 1) (hhi : c.p 0x20 1 ≤ 7) (hprofile : c.p 0x21 1 ≤ 2) (hrole : c.p 0x23 1 ≤ 2)
    (htransport : c.p 0x24 1 ≤ 2) (hstep : c.p 0x25 1 ≤ 1) (hsync : -7 ≤ sgn 8 (c.p 0x28 1)) (hsync' : sgn 8 (c.p 0x28 1) ≤ 4)
    (hann : -3 ≤ sgn 8 (c.p 0x29 1)) (hann' : sgn 8 (c.p 0x29 1) ≤ 4) (hlock : s.locked (c.p 0x20 1) = false) :
    timePtpConfig c s = (s.setTbase (c.p 0x20 1) { s.tbase (c.p 0x20 1) with
      ptp := if c.p 0x22 1 = 0 then none else some ⟨c.p 0x21 1, c.p 0x22 1, c.p 0x23 1, c.p 0x24 1, c.p 0x25 1 == 1, c.p 0x26 1, c.p 0x27 1,
        sgn 8 (c.p 0x28 1), sgn 8 (c.p 0x29 1)⟩
      gm := 0, lastAnnounce := s.ns }).done c := by
  have hzero : c.p 0x20 1 ≠ 0 := by omega
  have hlog : ¬(sgn 8 (c.p 0x28 1) < -7 ∨ 4 < sgn 8 (c.p 0x28 1) ∨ sgn 8 (c.p 0x29 1) < -3 ∨ 4 < sgn 8 (c.p 0x29 1)) := by omega
  rw [timePtpConfig, s.firstFail_of_all_false c _ (by simp [hzero, hhi, hprofile, hrole, htransport, hstep, hlog, hlock])]

theorem timeSnapshot_of_room (hahead : c.accept + 100000 ≤ c.p 0x20 8) (hwrite : s.inRange (.part c.part) true (c.p 0x28 8) 616864 = true)
    (hread : s.inRange .host false (c.p 0x28 8) 616864 = true) (hhole : s.inHole (c.p 0x28 8) 616864 = false) (hinst : s.noInstants 0 = false)
    (hroom : s.liveEpochs.length < 4)
    (hapart : ∀ e ∈ s.liveEpochs, e.inst + 5000000 ≤ c.p 0x20 8 ∨ c.p 0x20 8 + 5000000 ≤ e.inst) : timeSnapshot c s =
      { s with tnu := { s.tnu with
        epochs := s.liveEpochs ++ [{ inst := c.p 0x20 8, dst := c.p 0x28 8, cmd := c.id, part := c.part }] } } := by
  have hclose : (s.liveEpochs.any fun e => decide (c.p 0x20 8 < e.inst + 5000000 ∧ e.inst < c.p 0x20 8 + 5000000)) = false :=
    List.any_eq_false.mpr fun e he => by rcases hapart e he with h | h <;> simp <;> omega
  rw [timeSnapshot, s.firstFail_of_all_false c _ (by simp only [snapBytes, hclose]; simp [hahead, hwrite, hread, hhole, hinst, hroom])]

/-- Settles O15: with parameters in range and room for the epoch no command is refused. That an empty mask of ports removes a PTP domain is
the model's choice (log entry 21). -/
theorem timeServiceCommandsComplete : Obligations.TimeServiceCommandsComplete := by
  unfold Obligations.TimeServiceCommandsComplete
  intro dt id s c u
  refine ⟨?read, ?pps, ?ptp, ?snapshot⟩
  case read => exact fun hr => completes_cmd rfl rfl hr timeRead_of_stamped
  case pps =>
    intro tb off w n hr hpol htb hlo hhi hmin hmax
    exact completes_cmd rfl rfl hr (timePpsConfig_in_range hpol htb hlo hhi hmin hmax)
  case ptp =>
    intro tb ls la cfg hr hlo hhi hprofile hrole htransport hstep hsync hsync' hann hann' hlock
    exact completes_cmd rfl rfl hr (timePtpConfig_in_range hlo hhi hprofile hrole htransport hstep hsync hsync' hann hann' hlock)
  case snapshot =>
    intro inst dst hr hahead hwrite hread hhole hinst hroom hapart
    exact completes_cmd rfl rfl hr (timeSnapshot_of_room hahead hwrite hread hhole hinst hroom hapart)

end Sys2Proof.Machine
end

section
/-! The events and the registers of the time bases (R129, R131, R133 to R136, R143, R494), and their obligation. -/
namespace Sys2Proof.Machine
variable {s t : State} {tb : Nat} {r : StepReq}

/-! A time base after a write of it -/

@[simp] theorem State.setTbase_tbase_self (s : State) (n : Nat) (x : TimeBase) : (s.setTbase n x).tbase n = x := sget_sset_self _ _ _ _

theorem State.setTbase_tbase_ne (s : State) {n m : Nat} (x : TimeBase) (h : m ≠ n) : (s.setTbase n x).tbase m = s.tbase m := sget_sset_ne _ _ _ h

theorem State.close_tbase (s t : State) (dt n : Nat) : (s.close dt t).tbase n = t.tbase n := State.tbase_congr (s.close_tnu dt t) n

/-- Two states hold the same count of a time base, in the same format. -/
structure State.SameCount (s t : State) (tb : Nat) : Prop where
  ctl : t.reg (.tnuTbCtl tb) = s.reg (.tnuTbCtl tb)
  acc : (t.tbase tb).acc = (s.tbase tb).acc
  wraps : (t.tbase tb).wraps = (s.tbase tb).wraps
  lastCount : (t.tbase tb).lastCount = (s.tbase tb).lastCount

namespace State.SameCount

theorem tbShort (h : s.SameCount t tb) : t.tbShort tb = s.tbShort tb := by rw [State.tbShort, h.ctl, State.tbShort]

theorem tbNow (h : s.SameCount t tb) : t.tbNow tb = s.tbNow tb := by rw [State.tbNow, h.acc, h.tbShort, State.tbNow]

theorem tbWide (h : s.SameCount t tb) : t.tbWide tb = s.tbWide tb := by
  simp only [State.tbWide, h.tbShort, h.tbNow, h.acc, h.wraps, h.lastCount]

theorem stepRange (h : s.SameCount t tb) (off : Int) : t.stepRange tb off = s.stepRange tb off := by
  rw [State.stepRange, h.tbWide, h.tbShort, State.stepRange]

end State.SameCount

theorem State.setTbase_sameCount (s : State) (n : Nat) {x : TimeBase} (hacc : x.acc = (s.tbase n).acc) (hwraps : x.wraps = (s.tbase n).wraps)
    (hlast : x.lastCount = (s.tbase n).lastCount) : s.SameCount (s.setTbase n x) n :=
  ⟨rfl, by rw [State.setTbase_tbase_self, hacc], by rw [State.setTbase_tbase_self, hwraps], by rw [State.setTbase_tbase_self, hlast]⟩

theorem State.dropUnlock_sameCount (s : State) (tb : Nat) : s.SameCount (s.dropUnlock tb) tb := s.setTbase_sameCount tb rfl rfl rfl

/-! The PLL and TIMEREF, R131, R143, R494 -/

/-- Whatever stood there, the time bases that are reset count from 0. -/
theorem sget_resetCount (l : List Nat) (m : List (Nat × TimeBase)) {n : Nat} (h : n ∈ l ∨ (sget {} m n).acc = 0) :
    (sget {} (l.foldl (fun m n => sset ({} : TimeBase) m n { sget ({} : TimeBase) m n with acc := 0 }) m) n).acc = 0 := by
  induction l generalizing m with
  | nil => simpa using h
  | cons k l ih =>
    refine ih _ ?_
    by_cases hk : n = k
    · exact .inr (by rw [hk, sget_sset_self])
    · rw [sget_sset_ne _ _ _ hk]
      exact h.imp_left fun hm => (List.mem_cons.mp hm).resolve_left hk

theorem timebasePllLock_of_ready (hporst : s.pwr.porstHigh = true) (hlock : s.pwr.pllLocked = false) (href : s.pwr.refs.contains .timeref = true) :
    (timebasePllLock s).pwr.pllLocked = true ∧ (timebasePllLock s).fldOf .tnuPllStat 0 2 = 1 ∧ ∀ n < 8, ((timebasePllLock s).tbase n).acc = 0 := by
  have hguard : (s.pwr.porstHigh && !s.pwr.pllLocked && s.pwr.refs.contains .timeref) = true := by rw [hporst, hlock, href]; rfl
  rw [timebasePllLock, if_pos hguard]
  refine ⟨by rw [State.setFldOf_pwr], State.fldOf_setFldOf_self _ _ _ (by decide), fun n hn => ?_⟩
  rw [State.tbase, State.setFldOf_tnu]
  dsimp only
  exact sget_resetCount (List.range 8) s.tnu.tbs (.inl (List.mem_range.mpr hn))

theorem timerefLost_of_locked (href : s.pwr.refs.contains .timeref = true) (hlock : s.pwr.pllLocked = true) : timerefLost s =
    ((({ s with pwr := { s.pwr with refs := s.pwr.refs.filter fun r => r != RefClk.timeref } } : State).setFldOf .tnuPllStat 0 2 2).raise
      0x0203 0).raise 0x0A09 0 (evData [1]) := by
  simp only [timerefLost, href, hlock, if_true]

theorem timerefLost_of_unlocked (href : s.pwr.refs.contains .timeref = true) (hlock : s.pwr.pllLocked = false) : timerefLost s =
    (({ s with pwr := { s.pwr with refs := s.pwr.refs.filter fun r => r != RefClk.timeref } } : State).raise 0x0A09 0 (evData [1])) := by
  simp only [timerefLost, href, hlock, if_true, Bool.false_eq_true, if_false]

theorem timerefRestored_of_locked (href : s.pwr.refs.contains .timeref = false) (hlock : s.pwr.pllLocked = true) : timerefRestored s =
    (({ s with pwr := { s.pwr with refs := s.pwr.refs ++ [RefClk.timeref] } } : State).setFldOf .tnuPllStat 0 2 1).raise 0x0204 0 := by
  simp only [timerefRestored, href, hlock, if_true, Bool.false_eq_true, if_false]

theorem timerefRestored_of_unlocked (href : s.pwr.refs.contains .timeref = false) (hlock : s.pwr.pllLocked = false) :
    timerefRestored s = { s with pwr := { s.pwr with refs := s.pwr.refs ++ [RefClk.timeref] } } := by
  simp only [timerefRestored, href, hlock, Bool.false_eq_true, if_false]

/-! Writes of the increment and of steps, R133 to R136 -/

theorem tbIncWrite_of_allowed {who : Writer} {v : W64} (hwho : s.mayWriteTb who tb = true) (hok : incOk (v.toNat % 2 ^ 40) = true) (htb : tb < 8) :
    tbIncWrite who tb v s = s.setReg (.tnuTbInc tb) (BitVec.ofNat 64 (v.toNat % 2 ^ 40)) := by
  rw [tbIncWrite, hwho, hok, decide_eq_true htb]
  rfl

theorem tbIncWrite_of_refused {who : Writer} {v : W64} (hwho : s.mayWriteTb who tb = false) : tbIncWrite who tb v s = s := by
  rw [tbIncWrite, hwho]
  rfl

/-- A step within the range of instants is queued or refused by the threshold; it uses every unlock up. -/
theorem State.offerStep_in_range (h : s.tbShort tb = true ∨ s.stepRange tb r.off = false) : s.offerStep tb r =
    if (s.dropUnlock tb).stepAllowed tb r then (s.dropUnlock tb).queueStep tb r else (s.dropUnlock tb).refuseStep tb 0 r := by
  have hrange : (!((s.dropUnlock tb).tbShort tb) && (s.dropUnlock tb).stepRange tb r.off) = false := by
    rw [(s.dropUnlock_sameCount tb).tbShort, (s.dropUnlock_sameCount tb).stepRange]
    rcases h with h | h <;> simp [h]
  rw [State.offerStep, if_neg (Bool.eq_false_iff.mp hrange)]

theorem tbStepWrite_of_bivexa (v : W64) (htb : tb < 8) (hlock : s.locked tb = false) :
    tbStepWrite .bivexa tb v s = s.offerStep tb { off := v.toInt, forced := false, who := .bivexa } := by
  have hguard : (s.mayWriteTb .bivexa tb && tb < 8) = true := by rw [State.mayWriteTb, hlock, decide_eq_true htb]; rfl
  rw [tbStepWrite, if_pos hguard]
  rfl

/-- A step of P0 is forced while its unlock is open. -/
theorem tbStepWrite_of_p0 (v : W64) (htb : tb < 8) : tbStepWrite .p0 tb v s = s.offerStep tb
    { off := v.toInt, forced := (s.tbase tb).p0Open.any fun a => decide (s.ns ≤ a + 100000), who := .p0 } := by
  rcases h : (s.tbase tb).p0Open with _ | a <;> simp [tbStepWrite, State.mayWriteTb, htb, h]

/-! The unlock of P0, R136 -/

theorem tbUnlockWrite_of_key : tbUnlockWrite tb 0xA55A#32 s = s.setTbase tb { s.tbase tb with p0Key := true, p0Open := none } := by
  rw [tbUnlockWrite, if_pos (by decide)]

theorem tbUnlockWrite_of_second (hkey : (s.tbase tb).p0Key = true) :
    tbUnlockWrite tb 0x5AA5#32 s = s.setTbase tb { s.tbase tb with p0Key := false, p0Open := some s.ns } := by
  rw [tbUnlockWrite, if_neg (by decide), if_pos ⟨rfl, hkey⟩]

theorem tbUnlockWrite_of_other {v : W32} (hfirst : v ≠ 0xA55A#32) (hsecond : v ≠ 0x5AA5#32) : tbUnlockWrite tb v s = s.dropUnlock tb := by
  have hne : v.toNat ≠ 0xA55A := fun h => hfirst (BitVec.eq_of_toNat_eq h)
  have hne' : v.toNat ≠ 0x5AA5 := fun h => hsecond (BitVec.eq_of_toNat_eq h)
  rw [tbUnlockWrite, if_neg hne, if_neg fun h => hne' h.1]

theorem tbUnlockExpiry_of_late {p a b : Nat} (hu : (s.tbase tb).unlock = some (p, a)) (ha : a + 10000000 < s.ns)
    (ho : (s.tbase tb).p0Open = some b) (hb : b + 100000 < s.ns) :
    tbUnlockExpiry tb s = s.setTbase tb { s.tbase tb with unlock := none, p0Open := none } := by
  simp only [tbUnlockExpiry, hu, ho, if_neg (Nat.not_le.mpr ha), if_neg (Nat.not_le.mpr hb)]

theorem tbUnlockExpiry_unlock {p a : Nat} (hu : (s.tbase tb).unlock = some (p, a)) (ha : a + 10000000 < s.ns) :
    ((tbUnlockExpiry tb s).tbase tb).unlock = none := by
  simp only [tbUnlockExpiry, State.setTbase_tbase_self, hu, if_neg (Nat.not_le.mpr ha)]

theorem tbUnlockExpiry_p0Open {a : Nat} (ho : (s.tbase tb).p0Open = some a) (ha : a + 100000 < s.ns) :
    ((tbUnlockExpiry tb s).tbase tb).p0Open = none := by
  simp only [tbUnlockExpiry, State.setTbase_tbase_self, ho, if_neg (Nat.not_le.mpr ha)]

/-! Reads of the seconds and of a short time base, R129, R133 -/

theorem tbSecRead_of_extended (h : s.tbShort tb = false) : tbSecRead tb s =
    (s.setReg (.tnuTbNs tb) (BitVec.ofNat 64 ((s.tbase tb).acc.toNat / 2 ^ 32 % 1000000000))).emit (.words (leBytes 8 (s.tbSec tb))) := by
  rw [tbSecRead, h, Nat.shiftRight_eq_div_pow]
  rfl

theorem tbSecRead_of_short (h : s.tbShort tb = true) :
    tbSecRead tb s = (s.setReg (.tnuTbNs tb) (BitVec.ofNat 64 (s.tbNow tb))).emit (.words (leBytes 8 0)) := by
  rw [tbSecRead, h]
  rfl

theorem State.tbNow_lt_of_short (h : s.tbShort tb = true) : s.tbNow tb < 2 ^ 32 := by
  rw [State.tbNow, if_pos h]
  exact Nat.mod_lt _ (by decide)

/-- Over 2^32 the whole count of a short time base is its wrap count, one more where the count wrapped since it was read. -/
theorem State.tbWide_div_of_short (h : s.tbShort tb = true) :
    s.tbWide tb / (2 ^ 32 : Nat) = (s.tbase tb).wraps + (if s.tbNow tb < (s.tbase tb).lastCount then 1 else 0) := by
  have hlt := State.tbNow_lt_of_short h
  rw [State.tbWide, if_pos h]
  omega

theorem shortTbWrapRead_of_short (h : s.tbShort tb = true) : shortTbWrapRead tb s = s.setTbase tb { s.tbase tb with
    wraps := (s.tbase tb).wraps + (if s.tbNow tb < (s.tbase tb).lastCount then 1 else 0), lastCount := s.tbNow tb } := by
  rw [shortTbWrapRead, if_pos h, State.tbWide_div_of_short h]

/-- Settles O16: each row's guard is what its clause assumes, and a step in range is offered to the queue or to the threshold's refusal. -/
theorem timeBaseEventsComplete : Obligations.TimeBaseEventsComplete := by
  unfold Obligations.TimeBaseEventsComplete
  intro dt s u
  refine ⟨?pll, ?lost, ?restored, ?inc, ?step, ?unlock, ?expiry, ?sec, ?wrap, ?p0Step, ?cancel, ?hostExpiry, ?p0Expiry, ?shortSec, ?lostUnlocked,
    ?restoredUnlocked⟩
  case pll =>
    intro hporst hlock href
    obtain ⟨hlocked, hstat, hzero⟩ := timebasePllLock_of_ready hporst hlock href
    have hrow : Completes (.timebasePllLock dt) s (timebasePllLock u) := completes_event rfl rfl rfl
    exact ⟨_, hrow, by rwa [State.close_pwr], (State.fldOf_congr (s.close_reg dt _ _) 0 2).trans hstat,
      fun n hn => by rw [State.close_tbase]; exact hzero n hn⟩
  case lost => exact fun href hlock => completes_event rfl rfl (timerefLost_of_locked href hlock)
  case restored => exact fun href hlock => completes_event rfl rfl (timerefRestored_of_locked href hlock)
  case inc =>
    intro tb v htb hmin hmax
    have hok := incOk_of_in_range hmin hmax
    exact ⟨completes_event rfl rfl (tbIncWrite_of_allowed rfl hok htb),
      fun hfree => completes_event rfl rfl (tbIncWrite_of_allowed (by rw [State.mayWriteTb, hfree]; rfl) hok htb),
      fun hlock => completes_event rfl rfl (tbIncWrite_of_refused (by rw [State.mayWriteTb, hlock]; rfl)),
      completes_event rfl rfl (tbIncWrite_of_refused rfl)⟩
  case step =>
    intro tb v htb hlock hrange w r
    refine completes_event rfl rfl ((tbStepWrite_of_bivexa v htb hlock).trans ((State.offerStep_in_range hrange).trans ?_))
    rw [State.stepAllowed, Bool.false_or, State.dropUnlock_reg]
    by_cases hthr : v.toInt.natAbs ≤ (u.reg (.tnuTbJumpThr tb)).toNat
    · rw [if_pos hthr, if_pos (decide_eq_true hthr)]
    · rw [if_neg hthr, if_neg (by rwa [decide_eq_true_eq])]
  case unlock => exact fun tb => ⟨completes_event rfl rfl tbUnlockWrite_of_key, fun hkey => completes_event rfl rfl (tbUnlockWrite_of_second hkey)⟩
  case expiry => exact fun tb p a b hu ha ho hb => completes_event rfl rfl (tbUnlockExpiry_of_late hu ha ho hb)
  case sec => exact fun tb h => completes_event rfl rfl (tbSecRead_of_extended h)
  case wrap => exact fun tb h => completes_event rfl rfl (shortTbWrapRead_of_short h)
  case p0Step =>
    intro tb v htb w r hrange
    exact completes_event rfl rfl ((tbStepWrite_of_p0 v htb).trans (State.offerStep_in_range hrange))
  case cancel => exact fun tb v hfirst hsecond => completes_event rfl rfl (tbUnlockWrite_of_other hfirst hsecond)
  case hostExpiry =>
    intro tb p a hu ha
    have hrow : Completes (.tbUnlockExpiry dt tb) s (tbUnlockExpiry tb u) := completes_event rfl rfl rfl
    exact ⟨_, hrow, by rw [State.close_tbase]; exact tbUnlockExpiry_unlock hu ha⟩
  case p0Expiry =>
    intro tb a ho ha
    have hrow : Completes (.tbUnlockExpiry dt tb) s (tbUnlockExpiry tb u) := completes_event rfl rfl rfl
    exact ⟨_, hrow, by rw [State.close_tbase]; exact tbUnlockExpiry_p0Open ho ha⟩
  case shortSec => exact fun tb h => completes_event rfl rfl (tbSecRead_of_short h)
  case lostUnlocked => exact fun href hlock => completes_event rfl rfl (timerefLost_of_unlocked href hlock)
  case restoredUnlocked => exact fun href hlock => completes_event rfl rfl (timerefRestored_of_unlocked href hlock)

end Sys2Proof.Machine
end

section
/-! Steps, captures, compares and snapshots at their edges (R135, R138 to R143, R159 to R162), and their obligation. -/
namespace Sys2Proof.Machine
variable {s t : State} {tb k : Nat} {r : StepReq} {rest : List StepReq}

/-! TIME_BASE_STEP_APPLY, R135, R138 -/

/-- A step adds its offset and leaves the queue. -/
theorem State.applyStep_tbase (htb : tb ≠ 0) : ((s.applyStep tb r).tbase tb).acc = (s.tbase tb).acc + BitVec.ofInt 128 (r.off * (2 ^ 32 : Nat)) ∧
    ((s.applyStep tb r).tbase tb).steps = (s.tbase tb).steps.drop 1 := by
  unfold State.applyStep
  dsimp only
  rw [if_neg htb]
  have hflag : ∀ v : State, (if r.forced then (v.setTbStat tb 1).raise 0x0202 0 (evData [tb, unsgn 64 r.off]) else v).tnu = v.tnu := by
    intro v
    split
    · rw [State.raise_tnu]; rfl
    · rfl
  rw [State.tbase_congr (hflag _), State.tbase_congr (State.countSat_tnu _ _ _ _), State.setTbStat, State.tbase_congr (State.modReg_tnu _ _ _),
    State.setTbase_tbase_self]
  exact ⟨rfl, rfl⟩

theorem State.takeStep_of_other (htb : tb ≠ 0) : s.takeStep tb r = s.applyStep tb r := if_neg htb

/-- A step without a command is taken at its tick. -/
theorem timeBaseStepApply_of_written (hsteps : (s.tbase tb).steps = r :: rest) (hcmd : r.cmd = none) (htime : s.stepTime tb r = true)
    (hbad : s.stepBad tb r = false) : timeBaseStepApply tb s = s.takeStep tb r := by
  simp [timeBaseStepApply, hsteps, hcmd, htime, hbad]

section
variable {id : Nat} {c : Cmd} (hsteps : (s.tbase tb).steps = r :: rest) (hcmd : r.cmd = some id) (hrun : s.isRunning id = true)
  (htime : s.stepTime tb r = true)
include hsteps hcmd hrun htime

theorem timeBaseStepApply_of_command (hbad : s.stepBad tb r = false) (hc : (s.takeStep tb r).cmd? id = some c) :
    timeBaseStepApply tb s = ((s.takeStep tb r).doneWith c (leBytes 8 (s.takeStep tb r).now)).settle := by
  simp [timeBaseStepApply, hsteps, hcmd, hrun, htime, hbad, hc]

theorem timeBaseStepApply_of_late (hbad : s.stepBad tb r = true) :
    timeBaseStepApply tb s = ((s.setTbase tb { s.tbase tb with steps := rest }).failCmd id stBadParam).settle := by
  simp [timeBaseStepApply, hsteps, hcmd, hrun, htime, hbad]

end

/-! CAPTURE_EDGE and CAP_STAT_READ, R139, R143 -/

/-- Whether channel k captures an edge, R139. -/
def State.Captures (s : State) (src : Nat) (rising : Bool) (k : Nat) : Prop :=
  s.fldOf (.tnuCapCtl k) 8 8 = src ∧ (s.fldOf (.tnuCapCtl k) 0 2 = 3 ∨ s.fldOf (.tnuCapCtl k) 0 2 = (if rising then 1 else 2))

/-- Two states hold the same settings of the capture channels and of PPS_IN, and every time base stands at the same instant. -/
structure State.SameInputs (s t : State) : Prop where
  capCtl : ∀ j, t.reg (.tnuCapCtl j) = s.reg (.tnuCapCtl j)
  tbs : t.tnu.tbs = s.tnu.tbs
  polarity : t.tnu.ppsPolarity = s.tnu.ppsPolarity
  tbCtl : ∀ n, t.reg (.tnuTbCtl n) = s.reg (.tnuTbCtl n)

/-- Two states hold the same settings, and channel k has the same value and status. -/
structure State.SameChannel (s t : State) (k : Nat) : Prop extends s.SameInputs t where
  capVal : t.reg (.tnuCapVal k) = s.reg (.tnuCapVal k)
  capStat : t.reg (.tnuCapStat k) = s.reg (.tnuCapStat k)

namespace State.SameInputs

theorem tbNow (h : s.SameInputs t) (n : Nat) : t.tbNow n = s.tbNow n := by
  rw [State.tbNow, State.tbShort, h.tbCtl, State.tbase, h.tbs, State.tbNow, State.tbShort, State.tbase]

theorem fldOf (h : s.SameInputs t) (j lo len : Nat) : t.fldOf (.tnuCapCtl j) lo len = s.fldOf (.tnuCapCtl j) lo len :=
  State.fldOf_congr (h.capCtl j) lo len

theorem captures (h : s.SameInputs t) (src : Nat) (rising : Bool) (j : Nat) : t.Captures src rising j ↔ s.Captures src rising j := by
  rw [State.Captures, h.fldOf, h.fldOf, State.Captures]

end State.SameInputs

theorem State.SameChannel.rfl : s.SameChannel s k := ⟨⟨fun _ => Eq.refl _, Eq.refl _, Eq.refl _, fun _ => Eq.refl _⟩, Eq.refl _, Eq.refl _⟩

theorem State.SameChannel.trans {u : State} (h : s.SameChannel t k) (g : t.SameChannel u k) : s.SameChannel u k :=
  ⟨⟨fun j => (g.capCtl j).trans (h.capCtl j), g.tbs.trans h.tbs, g.polarity.trans h.polarity, fun n => (g.tbCtl n).trans (h.tbCtl n)⟩,
    g.capVal.trans h.capVal, g.capStat.trans h.capStat⟩

/-- What channel k latches at an edge: the instant of its time base, and one more edge in its count. -/
def State.latchCapture (s : State) (k : Nat) : State :=
  (s.setReg (.tnuCapVal k) (BitVec.ofNat 64 (s.tbNow (s.fldOf (.tnuCapCtl k) 4 3)))).countWrap (.tnuCapStat k) 0 16 1

/-- The channel's latch, with the edge in the record of edges. -/
def State.recordEdge (s : State) (k : Nat) : State :=
  { s.latchCapture k with tnu := { s.tnu with capEdges := sset [] s.tnu.capEdges k ((s.ns, s.now) :: sget [] s.tnu.capEdges k) } }

/-- A value that is not read yet counts an overrun, whose first one is told. -/
theorem State.capture_of_edge {src : Nat} {rising : Bool} (h : s.Captures src rising k) : s.capture src rising k =
    if s.tnu.capUnread.contains k then
      if s.fldOf (.tnuCapStat k) 16 16 == 0 then ((s.recordEdge k).countSat (.tnuCapStat k) 16 16).raise 0x020A 0 (evData [k])
      else (s.recordEdge k).countSat (.tnuCapStat k) 16 16
    else { s.recordEdge k with tnu := { (s.recordEdge k).tnu with capUnread := (s.recordEdge k).tnu.capUnread ++ [k] } } := by
  rw [State.capture]
  exact if_pos h

/-- Beside the latch an edge writes the record of edges, the unread values, the overruns and their event. -/
theorem State.capture_effects {src : Nat} {rising : Bool} (h : s.Captures src rising k) : (s.capture src rising k).tnu.tbs = s.tnu.tbs ∧
    (s.capture src rising k).tnu.ppsPolarity = s.tnu.ppsPolarity ∧
    (∀ q, q ≠ .tnuCapStat k → q ≠ .ccxHpMboxErr → (s.capture src rising k).reg q = (s.latchCapture k).reg q) ∧
    (s.capture src rising k).fldOf (.tnuCapStat k) 0 16 = (s.latchCapture k).fldOf (.tnuCapStat k) 0 16 := by
  have hover : ((s.recordEdge k).countSat (.tnuCapStat k) 16 16).fldOf (.tnuCapStat k) 0 16 = (s.latchCapture k).fldOf (.tnuCapStat k) 0 16 := by
    rw [State.fldOf, State.countSat, State.modReg_reg_self, fld_incSat_of_below _ (by decide) (by decide)]
    rfl
  rw [State.capture_of_edge h]
  split
  · split
    · rw [State.raise_tnu, State.fldOf_congr (State.raise_reg_ne _ _ _ _ (by simp))]
      exact ⟨rfl, rfl, fun q hq hm => (State.raise_reg_ne _ _ _ _ hm).trans (State.countSat_reg_ne _ _ _ hq), hover⟩
    · exact ⟨rfl, rfl, fun q hq _ => State.countSat_reg_ne _ _ _ hq, hover⟩
  · exact ⟨rfl, rfl, fun _ _ _ => rfl, rfl⟩

theorem State.capture_of_none {src : Nat} {rising : Bool} (h : ¬s.Captures src rising k) : s.capture src rising k = s := if_neg h

theorem State.latchCapture_reg_ne {q : Reg} (hv : q ≠ .tnuCapVal k) (hs : q ≠ .tnuCapStat k) : (s.latchCapture k).reg q = s.reg q := by
  rw [State.latchCapture, State.countWrap_reg_ne _ _ _ _ hs, State.setReg_reg_ne _ _ hv]

/-- A channel that sees an edge leaves the settings alone, and the value and the status of every other channel. -/
theorem State.capture_sameInputs (s : State) (src : Nat) (rising : Bool) (k : Nat) : s.SameInputs (s.capture src rising k) := by
  by_cases h : s.Captures src rising k
  · obtain ⟨htbs, hpol, hregs, -⟩ := State.capture_effects h
    exact ⟨fun j => (hregs _ (by simp) (by simp)).trans (State.latchCapture_reg_ne (by simp) (by simp)), htbs, hpol,
      fun n => (hregs _ (by simp) (by simp)).trans (State.latchCapture_reg_ne (by simp) (by simp))⟩
  · rw [State.capture_of_none h]
    exact State.SameChannel.rfl (k := k).toSameInputs

theorem State.capture_sameChannel (s : State) (src : Nat) (rising : Bool) {j : Nat} (hne : k ≠ j) : s.SameChannel (s.capture src rising j) k := by
  refine ⟨s.capture_sameInputs src rising j, ?_, ?_⟩ <;>
  · by_cases h : s.Captures src rising j
    · obtain ⟨-, -, hregs, -⟩ := State.capture_effects h
      exact (hregs _ (by simp [hne]) (by simp)).trans (State.latchCapture_reg_ne (by simp [hne]) (by simp [hne]))
    · rw [State.capture_of_none h]

theorem State.foldl_capture_sameChannel (src : Nat) (rising : Bool) (l : List Nat) (s : State) (h : k ∉ l) :
    s.SameChannel (l.foldl (fun s j => s.capture src rising j) s) k := by
  induction l generalizing s with
  | nil => exact .rfl
  | cons j l ih =>
    exact (s.capture_sameChannel src rising (List.ne_of_not_mem_cons h)).trans (ih _ (List.not_mem_of_not_mem_cons h))

/-- At an edge for which it is set a channel takes its time base, whatever the other channels do. -/
theorem State.captureAll_of_edge {src : Nat} {rising : Bool} (hk : k < 32) (h : s.Captures src rising k) :
    (s.captureAll src rising).reg (.tnuCapVal k) = BitVec.ofNat 64 (s.tbNow (s.fldOf (.tnuCapCtl k) 4 3)) ∧
      (s.captureAll src rising).fldOf (.tnuCapStat k) 0 16 = (s.fldOf (.tnuCapStat k) 0 16 + 1) % 2 ^ 16 := by
  obtain ⟨before, after, hsplit⟩ := List.append_of_mem (List.mem_range.mpr hk)
  have hnodup : (before ++ k :: after).Nodup := hsplit ▸ List.nodup_range
  have hbefore : k ∉ before := fun hm => (List.nodup_append.mp hnodup).2.2 k hm k List.mem_cons_self rfl
  have hafter : k ∉ after := (List.nodup_cons.mp (List.nodup_append.mp hnodup).2.1).1
  rw [State.captureAll, hsplit, List.foldl_append, List.foldl_cons]
  generalize hv : before.foldl (fun s j => s.capture src rising j) s = v
  have hsame : s.SameChannel v k := hv ▸ State.foldl_capture_sameChannel src rising before s hbefore
  have hlast := State.foldl_capture_sameChannel src rising after (v.capture src rising k) hafter
  obtain ⟨-, -, hregs, hcount⟩ := State.capture_effects ((hsame.toSameInputs.captures src rising k).mpr h)
  rw [hlast.capVal, State.fldOf_congr hlast.capStat]
  refine ⟨(hregs _ (by simp) (by simp)).trans ?_, hcount.trans ?_⟩
  · rw [State.latchCapture, State.countWrap_reg_ne _ _ _ _ (by simp), State.setReg_reg_self, hsame.toSameInputs.tbNow, hsame.toSameInputs.fldOf]
  · rw [State.latchCapture, State.fldOf, State.countWrap, State.modReg_reg_self, State.setReg_reg_ne _ _ (by simp), hsame.capStat, incWrap,
      fld_setFld_self _ (by decide), State.fldOf]

theorem captureEdge_of_pin {src : Nat} {rising : Bool} (h : src ≠ 0x11) : captureEdge src rising s = s.captureAll src rising := if_neg h

theorem captureEdge_of_pulse {a : Nat} (hfall : s.tnu.ppsFall = some a) (ha : a ≤ s.ns) :
    captureEdge 0x11 false s = ({ s with tnu := { s.tnu with ppsFall := none } } : State).captureAll 0x11 false := by
  simp [captureEdge, hfall, ha]

theorem capStatRead_reads (ch : Nat) : (capStatRead ch s).out = s.out ++ [.words (leBytes 4 (s.reg (.tnuCapStat ch)).toNat)] ∧
    (capStatRead ch s).fldOf (.tnuCapStat ch) 16 16 = 0 ∧ SameRegs s (capStatRead ch s) (· ≠ .tnuCapStat ch) :=
  ⟨rfl, State.fldOf_setFldOf_self _ _ _ (by decide), fun _ hq => State.setFldOf_reg_ne _ _ _ _ hq⟩

/-! COMPARE_FIRE, R140, R141 -/

theorem compareFire_of_due (hk : k < 16) (hdue : s.cmpDue k = true) (hfirst : s.cmpFirst k = true) : compareFire k s =
    let v := (s.modReg (.tnuCmpCtl k) fun v => setBit v 0 true).cmpAct k
    let n := nextOf (s.reg (.tnuCmpAt k)).toNat (s.reg (.tnuCmpPer k)).toNat ((s.reg (.tnuCmpAt k)).toNat + (s.cmpPast k).toNat)
    if (s.reg (.tnuCmpPer k)).toNat = 0 then v.modReg (.tnuCmpCtl k) fun v => setBit v 31 false
    else (v.setReg (.tnuCmpAt k) (BitVec.ofNat 64 n.1)).addSat (.tnuCmpSkip k) 0 32 n.2 := by
  have hguard : (decide (k < 16) && s.cmpDue k && s.cmpFirst k) = true := by rw [decide_eq_true hk, hdue, hfirst]; rfl
  rw [compareFire, if_pos hguard]

/-- The flag of a unit does not change its action. -/
theorem State.cmpAct_of_irq (hact : s.fldOf (.tnuCmpCtl k) 4 3 = 0) : (s.modReg (.tnuCmpCtl k) fun v => setBit v 0 true).cmpAct k =
    (s.modReg (.tnuCmpCtl k) fun v => setBit v 0 true).emit (.cmpIrq k (sget .bivexa s.tnu.cmpOwner k)) := by
  have hflag : (s.modReg (.tnuCmpCtl k) fun v => setBit v 0 true).fldOf (.tnuCmpCtl k) 4 3 = 0 := by
    rw [State.fldOf, State.modReg_reg_self, setBit, fld_setFld_of_disjoint _ (by decide) (by decide)]
    exact hact
  rw [State.cmpAct, if_pos hflag]
  rfl

/-! Snapshot epochs, R159 to R162 -/

theorem State.isRunning_of_running {id : Nat} {c : Cmd} (hc : s.cmd? id = some c) (h : c.state = .running) : s.isRunning id = true := by
  simp [State.isRunning, hc, h]

theorem State.liveEpochs_of_one {e : Epoch} (h : s.tnu.epochs = [e]) (hrun : s.isRunning e.cmd = true) : s.liveEpochs = [e] := by
  simp [State.liveEpochs, h, hrun]

theorem snapshotEpoch_of_due {d : Epoch} (h : s.dueEpoch = some d) : snapshotEpoch s =
    { s with tnu := { s.tnu with epochs := s.liveEpochs.map fun e => if e.cmd = d.cmd then { e with latched := true, shadow := s.shadows } else e } } := by
  simp only [snapshotEpoch, h]

theorem snapshotEpoch_of_one {e : Epoch} (hlive : s.liveEpochs = [e]) (hnew : e.latched = false) (hat : s.reached 0 e.inst = true) :
    snapshotEpoch s = { s with tnu := { s.tnu with epochs := [{ e with latched := true, shadow := s.shadows }] } } := by
  rw [snapshotEpoch_of_due (d := e) (by simp [State.dueEpoch, hlive, hnew, hat]), hlive]
  simp

theorem snapshotRecordWrite_of_latched {e : Epoch} {c : Cmd} (banks : List BankReport) (he : s.liveEpochs.find? (fun e => e.latched) = some e)
    (hc : s.cmd? e.cmd = some c) : snapshotRecordWrite banks s =
    let r := snapRecord s.confidential s.skewLimit s.tnu.nextEpoch e banks
    let v : State := { s with tnu := { s.tnu with
      epochs := s.liveEpochs.filter fun x => x.cmd != e.cmd, nextEpoch := (s.tnu.nextEpoch + 1) % 2 ^ 32 } }
    ((v.wr e.dst r.1).doneWith c (leBytes 4 s.tnu.nextEpoch ++ leBytes 4 r.2 ++ leBytes 4 r.1.length)).settle := by
  simp only [snapshotRecordWrite, he, hc]

/-- Settles O17: at an edge each channel, unit and epoch is judged by its own settings, which no other one writes. That a single-shot unit
disables itself is log entry 22, that a read of a channel's status counts its value as read is log entry 92. -/
theorem timeEdgesComplete : Obligations.TimeEdgesComplete := by
  unfold Obligations.TimeEdgesComplete
  intro dt s u
  refine ⟨?step, ?stepZero, ?xstamp, ?edge, ?statRead, ?single, ?epoch, ?record, ?stepCmd, ?pin, ?pulse, ?channel, ?compare, ?due, ?latched⟩
  case step =>
    intro tb r rest hsteps hcmd htb htime hbad
    have hrow : Completes (.timeBaseStepApply dt tb) s (u.applyStep tb r) :=
      completes_event rfl rfl ((timeBaseStepApply_of_written hsteps hcmd htime hbad).trans (State.takeStep_of_other htb))
    obtain ⟨hacc, hqueue⟩ := State.applyStep_tbase (s := u) (r := r) htb
    exact ⟨_, hrow, by rw [State.close_tbase, hacc], by rw [State.close_tbase, hqueue, hsteps]; rfl⟩
  case stepZero =>
    exact fun r rest hsteps hcmd htime hbad => completes_event rfl rfl (timeBaseStepApply_of_written hsteps hcmd htime hbad)
  case xstamp => exact fun v hv => completes_event rfl rfl (xstampWrite_of_set hv)
  case edge =>
    intro src rising k hpin _ hsrc hboth hk _
    have hrow : Completes (.captureEdge dt src rising) s (u.captureAll src rising) := completes_event rfl rfl (captureEdge_of_pin hpin)
    obtain ⟨hval, hcount⟩ := State.captureAll_of_edge (rising := rising) hk ⟨hsrc, .inl hboth⟩
    exact ⟨_, hrow, by rw [State.close_reg, hval], (State.fldOf_congr (s.close_reg dt _ _) 0 16).trans hcount⟩
  case statRead =>
    intro ch _
    have hrow : Completes (.capStatRead dt ch) s (capStatRead ch u) := completes_event rfl rfl rfl
    obtain ⟨hout, hclear, hregs⟩ := capStatRead_reads (s := u) ch
    exact ⟨_, hrow, by rw [State.close_out, hout], (State.fldOf_congr (s.close_reg dt _ _) 16 16).trans hclear,
      fun q hq => (State.close_reg _ _ _ _).trans (hregs q hq)⟩
  case single =>
    intro k hk hon hat hfirst hper hact
    have hdue : u.cmpDue k = true := by rw [State.cmpDue, hon, hat]; rfl
    have hzero : (u.reg (.tnuCmpPer k)).toNat = 0 := by rw [hper]; rfl
    refine completes_event rfl rfl ((compareFire_of_due hk hdue hfirst).trans ?_)
    rw [if_pos hzero, State.cmpAct_of_irq hact]
  case epoch =>
    intro e c he hc hrun hnew hat
    exact completes_event rfl rfl (snapshotEpoch_of_one (State.liveEpochs_of_one he (State.isRunning_of_running hc hrun)) hnew hat)
  case record =>
    intro e c banks he hlatched hc hrun r v
    have hlive := State.liveEpochs_of_one he (State.isRunning_of_running hc hrun)
    refine completes_event rfl rfl ((snapshotRecordWrite_of_latched banks (by simp [hlive, hlatched]) hc).trans ?_)
    simp [hlive, r, v]
  case stepCmd =>
    intro tb r rest id c hsteps hcmd hrun htime
    exact ⟨fun hbad hc => completes_event rfl rfl (timeBaseStepApply_of_command hsteps hcmd hrun htime hbad hc),
      fun hbad => completes_event rfl rfl (timeBaseStepApply_of_late hsteps hcmd hrun htime hbad)⟩
  case pin => exact fun src rising hpin => completes_event rfl rfl (captureEdge_of_pin hpin)
  case pulse => exact fun a hfall ha => completes_event rfl rfl (captureEdge_of_pulse hfall ha)
  case channel =>
    intro src rising k hpin hk hsrc hedge
    have hrow : Completes (.captureEdge dt src rising) s (u.captureAll src rising) := completes_event rfl rfl (captureEdge_of_pin hpin)
    exact ⟨_, hrow, by rw [State.close_reg, (State.captureAll_of_edge hk ⟨hsrc, hedge⟩).1]⟩
  case compare => exact fun k hk hdue hfirst => completes_event rfl rfl (compareFire_of_due hk hdue hfirst)
  case due => exact fun d hd => completes_event rfl rfl (snapshotEpoch_of_due hd)
  case latched => exact fun e c banks he hc => completes_event rfl rfl (snapshotRecordWrite_of_latched banks he hc)

end Sys2Proof.Machine
end

section
/-! PPS and PTP (R144 to R150), and their obligation. -/
namespace Sys2Proof.Machine
variable {s t : State} {tb port : Nat}

/-! PPS_IN_EDGE, R144 -/

/-- A servo's step writes the time base itself, its status, its step counters, and the mark of a lost event. -/
theorem State.servoStep_reg_ne (s : State) (tb : Nat) (off : Int) {q : Reg} (hstat : q ≠ .tnuTbStat tb) (hsteps : q ≠ .tnuTbSteps tb)
    (hm : q ≠ .ccxHpMboxErr) : (s.servoStep tb off).reg q = s.reg q := by
  unfold State.servoStep State.offerStep
  dsimp only
  split
  · rfl
  · split
    · rfl
    · split
      · rfl
      · rw [State.refuseStep, State.raise_reg_ne _ _ _ _ hm, State.countSat_reg_ne _ _ _ hsteps, State.setTbStat, State.modReg_reg_ne _ _ hstat]
        rfl

/-- Where an edge lies on a time base: how far the whole second it belongs to is off. -/
def State.ppsOffset (s : State) (tb : Nat) : Int :=
  let frac := s.tbNow tb % 1000000000
  if frac < 500000000 then -(frac : Int) else 1000000000 - (frac : Int)

theorem State.ppsEdge_of_other (h : s.source tb ≠ 4) : s.ppsEdge tb = s := if_neg fun hc => h hc.1

theorem State.ppsEdge_of_followed (hsrc : s.source tb = 4) (hext : s.tbShort tb = false)
    (hnear : (s.tbase tb).ppsLocked = false ∨ (s.ppsOffset tb).natAbs ≤ 1000000) :
    s.ppsEdge tb = (s.setTbase tb { s.tbase tb with ppsLocked := true, ppsLast := s.ns }).servoStep tb (s.ppsOffset tb) := by
  have hguard : s.source tb = 4 ∧ (!s.tbShort tb) = true := ⟨hsrc, by rw [hext]; rfl⟩
  have hspurious : ¬((s.tbase tb).ppsLocked && decide ((s.ppsOffset tb).natAbs > 1000000)) = true := by
    rcases hnear with hfree | hnear
    · simp [hfree]
    · simp [hnear]
  rw [State.ppsEdge, if_pos hguard]
  exact if_neg hspurious

theorem State.foldl_ppsEdge_of_others (l : List Nat) (h : ∀ n ∈ l, s.source n ≠ 4) : l.foldl (fun s n => s.ppsEdge n) s = s := by
  induction l with
  | nil => rfl
  | cons n l ih =>
    rw [List.foldl_cons, State.ppsEdge_of_other (h n List.mem_cons_self)]
    exact ih fun m hm => h m (List.mem_cons_of_mem _ hm)

/-- The one time base that PPS disciplines sees the edge. -/
theorem State.foldl_ppsEdge_of_one (htb : tb < 8) (hothers : ∀ n < 8, n ≠ tb → s.source n ≠ 4) (hsrc : s.source tb = 4) (hext : s.tbShort tb = false)
    (hnear : (s.tbase tb).ppsLocked = false ∨ (s.ppsOffset tb).natAbs ≤ 1000000) : (List.range 8).foldl (fun s n => s.ppsEdge n) s =
      (s.setTbase tb { s.tbase tb with ppsLocked := true, ppsLast := s.ns }).servoStep tb (s.ppsOffset tb) := by
  obtain ⟨before, after, hsplit⟩ := List.append_of_mem (List.mem_range.mpr htb)
  have hnodup : (before ++ tb :: after).Nodup := hsplit ▸ List.nodup_range
  have hlt : ∀ n ∈ before ++ tb :: after, n < 8 := fun n hn => List.mem_range.mp (hsplit ▸ hn)
  have hbefore : ∀ n ∈ before, s.source n ≠ 4 := fun n hn =>
    hothers n (hlt n (List.mem_append_left _ hn)) ((List.nodup_append.mp hnodup).2.2 n hn tb List.mem_cons_self)
  have hafter : ∀ n ∈ after, n ≠ tb := fun n hn hne => (List.nodup_cons.mp (List.nodup_append.mp hnodup).2.1).1 (hne ▸ hn)
  rw [hsplit, List.foldl_append, State.foldl_ppsEdge_of_others before hbefore, List.foldl_cons, State.ppsEdge_of_followed hsrc hext hnear]
  refine State.foldl_ppsEdge_of_others after fun n hn => ?_
  rw [State.source, State.fldOf_congr (State.servoStep_reg_ne _ _ _ (by simp) (by simp) (by simp))]
  exact hothers n (hlt n (List.mem_append_right _ (List.mem_cons_of_mem _ hn))) (hafter n hn)

theorem State.captureAll_of_none {src : Nat} (rising : Bool) (h : ∀ k < 32, s.fldOf (.tnuCapCtl k) 8 8 ≠ src) : s.captureAll src rising = s := by
  have hl : ∀ l : List Nat, (∀ k ∈ l, k < 32) → l.foldl (fun s k => s.capture src rising k) s = s := by
    intro l
    induction l with
    | nil => exact fun _ => rfl
    | cons k l ih =>
      intro hk
      rw [List.foldl_cons, State.capture_of_none fun hc => h k (hk k List.mem_cons_self) hc.1]
      exact ih fun j hj => hk j (List.mem_cons_of_mem _ hj)
  exact hl _ fun k hk => List.mem_range.mp hk

theorem State.captureAll_polarity (s : State) (src : Nat) (rising : Bool) : (s.captureAll src rising).tnu.ppsPolarity = s.tnu.ppsPolarity :=
  foldl_keeps (·.tnu.ppsPolarity) (fun s k => s.capture src rising k) (fun s k => (s.capture_sameInputs src rising k).polarity) _ s

theorem ppsInEdge_eq (rising : Bool) : ppsInEdge rising s = if rising = (s.tnu.ppsPolarity == 0) then
    (List.range 8).foldl (fun s n => s.ppsEdge n) (s.captureAll 0x10 rising) else s.captureAll 0x10 rising := by
  rw [ppsInEdge, State.captureAll_polarity]

theorem ppsInEdge_of_one {rising : Bool} (htb : tb < 8) (hothers : ∀ n < 8, n ≠ tb → s.source n ≠ 4) (hsrc : s.source tb = 4)
    (hext : s.tbShort tb = false) (hfree : ∀ k < 32, s.fldOf (.tnuCapCtl k) 8 8 ≠ 0x10) (hedge : rising = (s.tnu.ppsPolarity == 0))
    (hnear : (s.tbase tb).ppsLocked = false ∨ (s.ppsOffset tb).natAbs ≤ 1000000) : ppsInEdge rising s =
      (s.setTbase tb { s.tbase tb with ppsLocked := true, ppsLast := s.ns }).servoStep tb (s.ppsOffset tb) := by
  rw [ppsInEdge_eq, if_pos hedge, State.captureAll_of_none rising hfree, State.foldl_ppsEdge_of_one htb hothers hsrc hext hnear]

theorem State.ppsOffset_of_whole (h : s.tbNow tb % 1000000000 = 0) : s.ppsOffset tb = 0 := by simp [State.ppsOffset, h]

theorem State.servoStep_zero : s.servoStep tb 0 = s := rfl

/-! PPS_MISSING_TIMEOUT and PPS_OUT_PULSE, R144, R145 -/

theorem ppsMissingTimeout_of_due (hsrc : s.source tb = 4) (hlate : (s.tbase tb).ppsLast + 1500000000 ≤ s.ns)
    (hnew : bit (s.reg (.tnuTbStat tb)) 4 = false ∨ (s.tbase tb).ppsLocked = true) : ppsMissingTimeout tb s =
      (((s.setTbase tb { s.tbase tb with ppsLocked := false }).setTbStat tb 4).setTbStat tb 5).raise 0x0207 0 (evData [tb]) := by
  have htold : (!(bit (s.reg (.tnuTbStat tb)) 4 && !(s.tbase tb).ppsLocked)) = true := by rcases hnew with h | h <;> simp [h]
  rw [ppsMissingTimeout, if_pos ⟨hsrc, hlate, htold⟩]

theorem ppsOutPulse_of_due (htb : s.tnu.ppsOutTb ≤ 7)
    (hdue : (s.tnu.ppsOutNext : Int) * 1000000000 + s.tnu.ppsOutOff ≤ ((s.tbNow s.tnu.ppsOutTb : Nat) : Int)) : ppsOutPulse s =
      (({ s with tnu := { s.tnu with ppsOutNext := s.nextSecond s.tnu.ppsOutTb s.tnu.ppsOutOff, ppsFall := some (s.ns + s.tnu.ppsOutWidth) } } : State).emit
        (.pps s.tnu.ppsOutTb s.tnu.ppsOutWidth)).captureAll 0x11 true := by
  rw [ppsOutPulse, if_pos ⟨htb, hdue⟩]

/-! PTP, R146, R147, R150 -/

theorem State.ptpOn_of_port {g : PtpCfg} (hg : (s.tbase tb).ptp = some g) (hport : g.ports.testBit port = true) : s.ptpOn port tb = some g := by
  simp [State.ptpOn, hg, hport]

theorem State.ptpAnnounce_of_better {g : PtpCfg} {gm : W64} (hrole : g.role ≠ 1) (hgm : gm ≠ (s.tbase tb).gm) : s.ptpAnnounce tb g gm true =
    ((s.setTbase tb { s.tbase tb with lastAnnounce := s.ns }).setTbase tb
      { (s.setTbase tb { s.tbase tb with lastAnnounce := s.ns }).tbase tb with gm := gm }).raise 0x0205 0
        (evData [tb, (s.tbase tb).gm.toNat, gm.toNat]) := by
  rw [State.ptpAnnounce, if_pos ⟨rfl, hrole, hgm⟩]

theorem ptpAnnounceTimeout_of_late {g : PtpCfg} (hg : (s.tbase tb).ptp = some g) (hrole : g.role ≠ 1) (hgm : (s.tbase tb).gm ≠ 0)
    (hlate : (s.tbase tb).lastAnnounce + 3 * logIntervalNs g.logAnnounce ≤ s.ns) : ptpAnnounceTimeout tb s = s.ptpLost tb := by
  simp only [ptpAnnounceTimeout, hg]
  exact if_pos ⟨hrole, hgm, hlate⟩

theorem ptpMessageInterval_of_role {g : PtpCfg} {tx : PtpTx} (hg : (s.tbase tb).ptp = some g) (hsends : g.sends tx = true) :
    ptpMessageInterval tb tx s = (bitsOf 8 g.ports).foldl (fun s p => s.ptpSend tb g tx p) s := by
  simp only [ptpMessageInterval, hg, hsends, if_true]

section
variable {g : PtpCfg} (hon : s.ptpOn port tb = some g)
include hon

theorem ptpEventRx_announce (gm : W64) (wins : Bool) : ptpEventRx port tb (.announce gm wins) s = s.ptpAnnounce tb g gm wins := by
  simp only [ptpEventRx, hon]

theorem ptpEventRx_sync (origin : Nat) (corr : Int) (inc : Option W64) :
    ptpEventRx port tb (.sync origin corr inc) s = s.ptpSync port tb g origin corr inc := by
  simp only [ptpEventRx, hon]

theorem ptpEventRx_delayReq (hprofile : g.profile = 0) (hrole : g.role ≠ 2) :
    ptpEventRx port tb .delayReq s = s.sendPtp port tb g (.delayResp (s.igStamp port tb)) := by
  simp only [ptpEventRx, hon]
  exact if_pos ⟨hprofile, hrole⟩

theorem ptpEventRx_delayResp (rx : Nat) (corr : Int) (hprofile : g.profile = 0) : ptpEventRx port tb (.delayResp rx corr) s =
    s.setDelay port tb (((s.exch port tb).syncAt - (s.exch port tb).origin) + (rx - corr / 65536 - (s.exch port tb).reqAt)) := by
  simp only [ptpEventRx, hon]
  exact if_pos hprofile

theorem ptpEventRx_pdelayReq (hprofile : g.profile ≠ 0) : ptpEventRx port tb .pdelayReq s =
    if g.oneStep then s.sendPtp port tb g (.pdelayResp (s.igStamp port tb) (some (s.egStamp port tb)))
    else (s.sendPtp port tb g (.pdelayResp (s.igStamp port tb) none)).sendPtp port tb g (.pdelayRespFollowUp (s.egStamp port tb)) := by
  simp only [ptpEventRx, hon]
  exact if_neg hprofile

theorem ptpEventRx_pdelayResp (rx tx : Nat) (corr : Int) (hprofile : g.profile ≠ 0) : ptpEventRx port tb (.pdelayResp rx tx corr) s =
    s.setDelay port tb ((s.igStamp port tb - (s.exch port tb).reqAt) - ((tx : Int) - rx) - corr / 65536) := by
  simp only [ptpEventRx, hon]
  exact if_neg hprofile

end

/-! The bridge's transparent clock, R148 -/

section
variable {i o rx tx : Nat} {f : Bytes} (hgo : s.mayEgress o f = true)
include hgo

theorem bridgeTransparentCorrect_of_event {d : Int} (hgptp : (s.tbase tb).ptp.any (fun x => x.profile == 2) = false) (htype : ptpType f ≤ 3)
    (hd : (if ((s.tbase tb).ptp.any fun x => x.profile == 1) && ptpType f == 0 then s.delayOf i tb else 0) = d) :
    bridgeTransparentCorrect i o tb f rx tx s = s.egress o (corrected f (tx - rx) d) := by
  rw [bridgeTransparentCorrect, if_neg (by rw [hgptp, hgo]; simp), if_neg (Nat.not_lt.mpr htype), hd]

theorem bridgeTransparentCorrect_of_general (hgptp : (s.tbase tb).ptp.any (fun x => x.profile == 2) = false) (htype : 3 < ptpType f) :
    bridgeTransparentCorrect i o tb f rx tx s = s.egress o f := by
  rw [bridgeTransparentCorrect, if_neg (by rw [hgptp, hgo]; simp), if_pos htype]

end

/-- Settles O18: each row's guard is what its clause assumes; an edge reaches the one time base that PPS disciplines. The mean delay and the
gates of the bridge are log entries 92 and 93, the servo's step is log entry 26, and an edge at exactly 500 ms steps forward by the model's choice. -/
theorem ppsAndPtpComplete : Obligations.PpsAndPtpComplete := by
  unfold Obligations.PpsAndPtpComplete
  intro dt s u
  refine ⟨?whole, ?missing, ?pulse, ?better, ?lost, ?bridge, ?interval, ?edge, ?followed, ?message, ?general, ?residence⟩
  case whole =>
    intro tb rising htb hothers hsrc hext hnew hfree hedge hwhole
    refine completes_event rfl rfl ((ppsInEdge_of_one htb hothers hsrc hext hfree hedge (.inl hnew)).trans ?_)
    rw [State.ppsOffset_of_whole hwhole, State.servoStep_zero]
  case missing => exact fun tb hsrc hlate hnew => completes_event rfl rfl (ppsMissingTimeout_of_due hsrc hlate hnew)
  case pulse =>
    intro tb htb h7 hdue
    subst htb
    exact completes_event rfl rfl (ppsOutPulse_of_due h7 hdue)
  case better =>
    exact fun port tb g gm hg hport hrole hgm =>
      completes_event rfl rfl ((ptpEventRx_announce (State.ptpOn_of_port hg hport) gm true).trans (State.ptpAnnounce_of_better hrole hgm))
  case lost => exact fun tb g hg hrole hgm hlate => completes_event rfl rfl (ptpAnnounceTimeout_of_late hg hrole hgm hlate)
  case bridge =>
    exact fun i o tb f rx tx hg hgo htype => completes_event rfl rfl (bridgeTransparentCorrect_of_event hgo (by rw [hg]; rfl) htype (by rw [hg]; rfl))
  case interval => exact fun tb g tx hg hsends => completes_event rfl rfl (ptpMessageInterval_of_role hg hsends)
  case edge => exact fun rising => completes_event rfl rfl (ppsInEdge_eq rising)
  case followed =>
    exact fun tb rising htb hothers hsrc hext hfree hedge hnear => completes_event rfl rfl (ppsInEdge_of_one htb hothers hsrc hext hfree hedge hnear)
  case message =>
    intro port tb g hon at_ x
    exact ⟨fun gm wins => completes_event rfl rfl (ptpEventRx_announce hon gm wins),
      fun origin corr inc => completes_event rfl rfl (ptpEventRx_sync hon origin corr inc),
      fun hprofile hrole => completes_event rfl rfl (ptpEventRx_delayReq hon hprofile hrole),
      fun rx corr hprofile => completes_event rfl rfl (ptpEventRx_delayResp hon rx corr hprofile),
      fun hprofile => completes_event rfl rfl (ptpEventRx_pdelayReq hon hprofile),
      fun rx tx corr hprofile => completes_event rfl rfl (ptpEventRx_pdelayResp hon rx tx corr hprofile)⟩
  case general =>
    intro i o tb f rx tx hg hgo htype
    have hgptp : (u.tbase tb).ptp.any (fun x => x.profile == 2) = false := by
      rcases h : (u.tbase tb).ptp with _ | g
      · rfl
      · exact beq_false_of_ne (hg g h)
    exact completes_event rfl rfl (bridgeTransparentCorrect_of_general hgo hgptp htype)
  case residence =>
    intro i o tb f rx tx g hg hprofile hgo htype
    have hgptp : (u.tbase tb).ptp.any (fun x => x.profile == 2) = false := by
      rw [hg]
      exact beq_false_of_ne (by omega)
    refine completes_event rfl rfl (bridgeTransparentCorrect_of_event hgo hgptp htype ?_)
    rw [hg]
    simp

end Sys2Proof.Machine
end

section
/-! The launch entries of the Geyser (R129, R151 to R157, R163, R407), and their obligations. -/
namespace Sys2Proof.Machine
variable {s t : State} {c : Cmd} {i : Nat}

/-! TIME_LAUNCH_ADD, TIME_LAUNCH_CANCEL and TIME_LAUNCH_STATUS, R151, R157, R163 -/

section
variable {e : Gey} (he : geyParse {} (cut c.params 0 64) = e) (hfields : e.fieldsOk = true) (hfallback : bit e.flags 3 = false)
  (hinst : s.noInstants e.tb = false) (hpin : s.pinTaken e = false)
include he hfields hfallback hinst hpin

theorem timeLaunchAdd_of_free (hfree : s.freeEntry = some i) : timeLaunchAdd c s = (s.armGey i { e with owner := c.part }).doneWith c (leBytes 2 i) := by
  unfold timeLaunchAdd
  rw [he, s.firstFail_of_all_false c _ (by simp [hfields, hfallback, hinst, hpin])]
  simp only [hfree]

theorem timeLaunchAdd_of_full (hfull : s.freeEntry = none) : timeLaunchAdd c s = s.failCmd c.id 0x37 := by
  unfold timeLaunchAdd
  rw [he, s.firstFail_of_all_false c _ (by simp [hfields, hfallback, hinst, hpin])]
  simp only [hfull]

end

/-- An entry of 32 to 255 belongs to the partition that added it. -/
theorem State.geyMine_of_owner (hlo : 32 ≤ i) (howner : (s.gey i).owner = c.part) : s.geyMine c i = true := by
  rw [State.geyMine, State.geyOwner, if_neg (Nat.not_lt.mpr hlo), howner, decide_eq_true hlo]
  exact beq_self_eq_true _

section
variable (hi : c.p 0x20 2 = i) (hlo : 32 ≤ i) (hhi : i ≤ 255) (howner : (s.gey i).owner = c.part)
include hi hlo hhi howner

theorem timeLaunchCancel_of_pending (hstate : (s.gey i).state.cancellable = true) :
    timeLaunchCancel c s = ((s.setGey i { s.gey i with status := 0x1C }).freeGey i).doneWith c (leBytes 1 0x1C) := by
  subst hi
  rw [timeLaunchCancel, s.firstFail_of_all_false c _ (by simp [hhi, State.geyMine_of_owner hlo howner])]
  exact if_pos hstate

theorem timeLaunchCancel_of_past (hstate : (s.gey i).state.cancellable = false) :
    timeLaunchCancel c s = (s.setResult c.id 0x20 (leBytes 1 (s.gey i).status)).finish c.id 0x01 := by
  subst hi
  rw [timeLaunchCancel, s.firstFail_of_all_false c _ (by simp [hhi, State.geyMine_of_owner hlo howner])]
  exact if_neg (Bool.eq_false_iff.mp hstate)

theorem timeLaunchStatus_of_owner : timeLaunchStatus c s = s.doneWith c (s.geyBytes i) := by
  subst hi
  rw [timeLaunchStatus, s.firstFail_of_all_false c _ (by simp [hhi, State.geyMine_of_owner hlo howner])]

end

/-- Settles O19: with good fields no command is refused; a cancel goes by whether the entry may still be cancelled (ST_ABORTED, 0x1C). -/
theorem launchCommandsComplete : Obligations.LaunchCommandsComplete := by
  unfold Obligations.LaunchCommandsComplete
  intro dt id s c u
  refine ⟨?add, ?pending, ?past, ?status⟩
  case add =>
    intro e hr hfields hfallback hinst hpin
    exact ⟨fun i hfree => completes_cmd rfl rfl hr (timeLaunchAdd_of_free rfl hfields hfallback hinst hpin hfree),
      fun hfull => completes_cmd rfl rfl hr (timeLaunchAdd_of_full rfl hfields hfallback hinst hpin hfull)⟩
  case pending => exact fun i hr hi hlo hhi howner hstate => completes_cmd rfl rfl hr (timeLaunchCancel_of_pending hi hlo hhi howner hstate)
  case past => exact fun i hr hi hlo hhi howner hstate => completes_cmd rfl rfl hr (timeLaunchCancel_of_past hi hlo hhi howner hstate)
  case status => exact fun i hr hi hlo hhi howner => completes_cmd rfl rfl hr (timeLaunchStatus_of_owner hi hlo hhi howner)

/-! GEYSER_ENTRY_WRITE_P0, R151, R153, R407 -/

theorem cut_length (b : Bytes) (o n : Nat) : (cut b o n).length = n := by
  simp only [cut, List.length_append, List.length_take, List.length_replicate]
  omega

/-- What was just put at an offset stands there. -/
theorem numAt_putAt (p b : Bytes) (o : Nat) : numAt (putAt p o b) o b.length = leVal b := by
  rw [numAt, putAt, List.append_assoc, List.drop_append_of_le_length (by rw [cut_length]),
    List.drop_eq_nil_of_le (by rw [cut_length]), List.nil_append, List.take_left]

section
variable {off : Nat} {bytes : Bytes} (hi : i < 32)
include hi

theorem geyserEntryWriteP0_of_fields (hend : off + bytes.length ≤ 0x30) :
    geyserEntryWriteP0 i off bytes s = s.setGey i (geyParse (s.gey i) (putAt (s.geyBytes i) off bytes)) := by
  have hguard : i < 32 ∧ off + bytes.length ≤ 64 := ⟨hi, by omega⟩
  have hcovers : ¬(off ≤ 0x31 ∧ 0x31 < off + bytes.length) := by omega
  rw [geyserEntryWriteP0, if_pos hguard]
  simp only [hcovers, decide_false, Bool.false_eq_true, false_and, if_false]

/-- A write over the state byte goes by what it puts there. -/
theorem geyserEntryWriteP0_of_state (hlo : off ≤ 0x31) (hmid : 0x31 < off + bytes.length) (hhi : off + bytes.length ≤ 64) :
    geyserEntryWriteP0 i off bytes s =
      let e' := geyParse (s.gey i) (putAt (s.geyBytes i) off bytes)
      if numAt (putAt (s.geyBytes i) off bytes) 0x31 1 = 1 ∧ (s.gey i).state = .free then s.armP0 i e'
      else if numAt (putAt (s.geyBytes i) off bytes) 0x31 1 = 0 ∧ (s.gey i).state.cancellable = true then (s.setGey i { e' with status := 0x1C }).freeGey i
      else s.setGey i e' := by
  have hcovers : decide (off ≤ 0x31 ∧ 0x31 < off + bytes.length) = true := decide_eq_true ⟨hlo, hmid⟩
  rw [geyserEntryWriteP0, if_pos ⟨hi, hhi⟩]
  simp only [hcovers, true_and]

theorem geyserEntryWriteP0_of_arm (hfree : (s.gey i).state = .free) :
    geyserEntryWriteP0 i 0x31 [1#8] s = s.armP0 i (geyParse (s.gey i) (putAt (s.geyBytes i) 0x31 [1#8])) := by
  have hone : numAt (putAt (s.geyBytes i) 0x31 [1#8]) 0x31 1 = 1 := numAt_putAt _ [1#8] _
  rw [geyserEntryWriteP0_of_state hi (Nat.le_refl _) (by decide) (by decide)]
  exact if_pos ⟨hone, hfree⟩

end

/-! GEYSER_FETCH and GEYSER_FETCH_DONE, R153, R154 -/

theorem geyserFetch_of_lead (harmed : (s.gey i).state = .armed) (hwait : s.waiting i = false)
    (hdue : s.geyDue i (s.gey i) (s.gey i).leadNs = true) : geyserFetch i s = s.setGey i { s.gey i with state := .fetching } := by
  have hwait' : (!s.waiting i) = true := by rw [hwait]; rfl
  rw [geyserFetch, if_pos ⟨harmed, hwait', hdue⟩]

theorem geyserFetchDone_of_fetching (h : (s.gey i).state = .fetching) :
    geyserFetchDone i s = (s.geyTell i (s.gey i)).setGey i { s.geyLoad i (s.gey i) with state := .ready } := if_pos h

/-! GEYSER_LAUNCH_TICK and GEYSER_HELD_START, R24 to R26, R153 to R155 -/

section
variable (hhost : 32 ≤ i ∨ bit (s.gey i).flags 3 = false)
include hhost

/-- An entry that does not send its fall-back alone is judged by its fetch, its mark and its age. -/
theorem not_fallbackOnly : ¬(decide (i < 32) && bit (s.gey i).flags 3) = true := by
  rcases hhost with h | h
  · simp [h]
  · simp [h]

theorem State.launchGey_of_fetchErr {st a n : Nat} (herr : (s.gey i).fetchErr = some (st, a, n)) : s.launchGey i = s.refuseGey i st a n := by
  rw [State.launchGey, if_neg (not_fallbackOnly hhost)]
  simp only [herr]

variable (herr : (s.gey i).fetchErr = none)
include herr

theorem State.launchGey_of_unmarked (hmark : (s.gey i).plMark = false) : s.launchGey i = s.refuseGey i 0x30 (s.gey i).plDesc 128 := by
  rw [State.launchGey, if_neg (not_fallbackOnly hhost)]
  simp only [herr, hmark, Bool.not_false, if_true]

variable (hmark : (s.gey i).plMark = true)
include hmark

theorem State.launchGey_of_aged {st : Nat} (hage : ageCheck (s.gey i) (s.reg (.tnuTbJumpThr 0)).toNat s.now = some st) :
    s.launchGey i = s.refuseGey i st (s.gey i).plDesc 128 := by
  rw [State.launchGey, if_neg (not_fallbackOnly hhost)]
  simp only [herr, hmark, hage, Bool.not_true, Bool.false_eq_true, if_false]

theorem State.launchGey_of_good (hage : ageCheck (s.gey i) (s.reg (.tnuTbJumpThr 0)).toNat s.now = none) :
    s.launchGey i = s.beginGey i (s.gey i).pl := by
  rw [State.launchGey, if_neg (not_fallbackOnly hhost)]
  simp only [herr, hmark, hage, Bool.not_true, Bool.false_eq_true, if_false]

end

theorem State.launchGey_of_fallbackOnly (hi : i < 32) (hflag : bit (s.gey i).flags 3 = true) : s.launchGey i =
    if (s.gey i).fbDesc = 0 ∨ (s.gey i).pinKind = true then (s.setGey i { s.gey i with status := 0x13 }).freeGey i
    else if ((s.gey i).fbHave && (s.gey i).fbMark) = true then s.beginGey i (s.gey i).fb
    else (s.setGey i { s.gey i with status := 0x30 }).rearm i (s.geyNow i (s.gey i)) := by
  have hguard : (decide (i < 32) && bit (s.gey i).flags 3) = true := by rw [decide_eq_true hi, hflag]; rfl
  rw [State.launchGey, if_pos hguard]

theorem State.beginGey_of_busy {b : Bytes} (h : s.portBusy (s.gey i) = true) : s.beginGey i b = s.setGey i { s.gey i with state := .held } := if_pos h

theorem geyserLaunchTick_of_ready (hdue : s.geyDue i (s.gey i) (s.egAdv (s.gey i)) = true) (hready : (s.gey i).state = .ready)
    (hfirst : s.geyFirst i = true) : geyserLaunchTick i s = s.launchGey i := by
  rw [geyserLaunchTick, if_neg (by rw [hdue]; simp), if_pos hready, if_pos hfirst]

theorem geyserLaunchTick_of_cancelled (hdue : s.geyDue i (s.gey i) (s.egAdv (s.gey i)) = true) (hstate : (s.gey i).state = .cancelled)
    (hwaits : (s.gey i).fbDue = true) (hhave : (s.gey i).fbHave = true) : geyserLaunchTick i s = s.emitDue i (s.gey i) := by
  rw [geyserLaunchTick, if_neg (by rw [hdue]; simp), if_neg (by rw [hstate]; decide), if_pos ⟨hstate, hwaits⟩, if_pos hhave]

theorem geyserHeldStart_of_held (hheld : (s.gey i).state = .held) (hfree : s.portBusy (s.gey i) = false) (hfirst : s.geyFirst i = true) :
    geyserHeldStart i s = s.launchGey i := by
  rw [geyserHeldStart, if_neg (Bool.eq_false_iff.mp hfree), if_pos hheld, if_pos hfirst]

theorem geyserHeldStart_of_refused (hstate : (s.gey i).state = .refused) (hwaits : (s.gey i).fbDue = true) (hfree : s.portBusy (s.gey i) = false) :
    geyserHeldStart i s = (s.sendFb i (s.gey i)).rearm i (s.gey i).startedAt := by
  rw [geyserHeldStart, if_neg (Bool.eq_false_iff.mp hfree), if_neg (by rw [hstate]; decide), if_pos ⟨hstate, hwaits⟩]

/-! The end of a transmission, lost arbitration and the hand-off of a short time base, R129, R153, R157, R512 -/

theorem geyserTransmitDone_of_launching (h : (s.gey i).state = .launching) : geyserTransmitDone i s = (s.freePort i).rearm i (s.gey i).startedAt := if_pos h

theorem geyserTransmitDone_of_other (h : (s.gey i).state ≠ .launching) : geyserTransmitDone i s = s.freePort i := if_neg h

theorem canArbitrationLost_of_launching (h : (s.gey i).state = .launching) (hcan : (s.gey i).kind = 2) :
    canArbitrationLost i s = (s.freePort i).setGey i { s.gey i with state := .held, held := true } := if_pos ⟨h, hcan⟩

theorem shortTbEntryHandoff_waits {h : Handoff} (hm : h ∈ (shortTbEntryHandoff i s).tnu.handoff) (hidx : h.idx = i) :
    s.tbFull (s.gey i).tb + 2000000000 ≤ h.inst := by
  have hkept := (List.mem_filter.mp hm).2
  simpa [hidx] using hkept

/-- Settles O20: every row is its guard and one operation on the entry. That P0 arms and cancels by the state byte is log entry 23, that a
fall-back waits behind a busy port is log entry 28. -/
theorem geyserRowsComplete : Obligations.GeyserRowsComplete := by
  unfold Obligations.GeyserRowsComplete
  intro dt i s u e
  refine ⟨?fields, ?arm, ?fetch, ?fetched, ?tick, ?held, ?done, ?lost, ?handoff, ?write, ?fallback, ?cancelled, ?retry, ?waited, ?freed⟩
  case fields => exact fun off bytes hi hend => completes_event rfl rfl (geyserEntryWriteP0_of_fields hi hend)
  case arm => exact fun hi hfree => completes_event rfl rfl (geyserEntryWriteP0_of_arm hi hfree)
  case fetch => exact fun harmed hwait hdue => completes_event rfl rfl (geyserFetch_of_lead harmed hwait hdue)
  case fetched => exact fun h => completes_event rfl rfl (geyserFetchDone_of_fetching h)
  case tick =>
    intro hdue hready hfirst hhost
    have htick := geyserLaunchTick_of_ready hdue hready hfirst
    exact ⟨fun st a n herr => completes_event rfl rfl (htick.trans (State.launchGey_of_fetchErr hhost herr)),
      fun herr hmark => completes_event rfl rfl (htick.trans (State.launchGey_of_unmarked hhost herr hmark)),
      fun st herr hmark hage => completes_event rfl rfl (htick.trans (State.launchGey_of_aged hhost herr hmark hage)),
      fun herr hmark hage hbusy =>
        completes_event rfl rfl (htick.trans ((State.launchGey_of_good hhost herr hmark hage).trans (State.beginGey_of_busy hbusy))),
      fun herr hmark hage _ => completes_event rfl rfl (htick.trans (State.launchGey_of_good hhost herr hmark hage))⟩
  case held =>
    intro hheld hfree hfirst hlo herr hmark hage
    exact completes_event rfl rfl ((geyserHeldStart_of_held hheld hfree hfirst).trans (State.launchGey_of_good (.inl hlo) herr hmark hage))
  case done => exact fun h => completes_event rfl rfl (geyserTransmitDone_of_launching h)
  case lost => exact fun h hcan => completes_event rfl rfl (canArbitrationLost_of_launching h hcan)
  case handoff =>
    have hrow : Completes (.shortTbEntryHandoff dt i) s (shortTbEntryHandoff i u) := completes_event rfl rfl rfl
    refine ⟨_, hrow, by rw [State.close_tnu]; rfl, fun h hm hidx => ?_⟩
    rw [State.close_tnu] at hm
    exact shortTbEntryHandoff_waits hm hidx
  case write =>
    intro off bytes b e' st hi hlo hmid hhi
    exact completes_event rfl rfl (geyserEntryWriteP0_of_state hi hlo hmid hhi)
  case fallback =>
    exact fun hdue hready hfirst hi hflag =>
      completes_event rfl rfl ((geyserLaunchTick_of_ready hdue hready hfirst).trans (State.launchGey_of_fallbackOnly hi hflag))
  case cancelled => exact fun hdue hstate hwaits hhave => completes_event rfl rfl (geyserLaunchTick_of_cancelled hdue hstate hwaits hhave)
  case retry => exact fun hheld hfree hfirst => completes_event rfl rfl (geyserHeldStart_of_held hheld hfree hfirst)
  case waited => exact fun hstate hwaits hfree => completes_event rfl rfl (geyserHeldStart_of_refused hstate hwaits hfree)
  case freed => exact fun h => completes_event rfl rfl (geyserTransmitDone_of_other h)

end Sys2Proof.Machine
end

section
/-! Pushes, frame rings and link commands (R90, R91, R323, R332, R333, R341), and their obligation. -/
namespace Sys2Proof.Machine
variable {s t : State} {c : Cmd} {p : Nat}

/-! MOVE_PUSH_HOST and MOVE_FRAME_RING, R90, R323 -/

theorem movePushHost_of_readable (hmin : 1 ≤ c.p 0x30 8) (hmax : c.p 0x30 8 ≤ 0x100000000) (hbus : s.busMaster = true)
    (haccess : s.access (.part c.part) .other false (c.p 0x20 8) (c.p 0x30 8) = none) (hclean : s.poisoned (c.p 0x20 8) (c.p 0x30 8) = false) :
    movePushHost c s = ((s.push c.id (c.p 0x28 8) (s.rdSeen (c.p 0x20 8) (c.p 0x30 8)) ((c.p 0x38 4).testBit 0)).setResult c.id 0x20
      (leBytes 8 (c.p 0x30 8))).setVerdict c.id 0 := by
  have hsize : ¬(c.p 0x30 8 = 0 ∨ 0x100000000 < c.p 0x30 8) := by omega
  rw [movePushHost, s.firstFail_of_all_false c _ (by simp only [hsize]; simp [hbus])]
  simp only [haccess, hclean, Bool.false_eq_true, if_false]

section
variable (hstream : c.p 0x20 1 ≤ 63) (hqueue : s.mmvQueue (c.p 0x20 1) = true) (howner : (s.strm (c.p 0x20 1)).owner = some c.part)
  (hoff : s.strmOn (c.p 0x20 1) = false)
include hstream hqueue howner hoff

theorem moveFrameRing_of_none (hnone : c.p 0x21 1 = 0) :
    moveFrameRing c s = (s.setMmv fun m => { m with rings := m.rings.filter fun e => e.1 != c.p 0x20 1 }).done c := by
  rw [moveFrameRing, s.firstFail_of_all_false c _ (by simp [hstream, hqueue, howner, hoff, hnone])]
  exact if_pos hnone

theorem moveFrameRing_of_writable (hslots : 2 ≤ c.p 0x21 1) (hslots' : c.p 0x21 1 ≤ 64) (hsize : 65536 ≤ c.p 0x24 4)
    (hsize' : c.p 0x24 4 ≤ 67108864) (hblock : c.p 0x24 4 % 65536 = 0) (hwindow : 1000000 ≤ c.p 0x34 4) (hwindow' : c.p 0x34 4 ≤ 4000000000)
    (hlines : (c.p 0x22 1).testBit 0 = true → c.p 0x30 4 ≠ 0 ∧ c.p 0x30 4 % 64 = 0) (hframes : (c.p 0x22 1).testBit 0 = false → c.p 0x30 4 = 0)
    (halign : c.p 0x28 8 % 65536 = 0) (haccess : s.access (.part c.part) .other true (c.p 0x28 8) (c.p 0x21 1 * c.p 0x24 4) = none) :
    moveFrameRing c s = (s.setRing (c.p 0x20 1) { stream := c.p 0x20 1, slots := c.p 0x21 1, lines := (c.p 0x22 1).testBit 0, slotBytes := c.p 0x24 4,
                                                   addr := c.p 0x28 8, pitch := c.p 0x30 4, window := c.p 0x34 4, part := c.part }).done c := by
  have hne : c.p 0x21 1 ≠ 0 := by omega
  have hfields : ¬(c.p 0x21 1 ≠ 0 ∧ (c.p 0x21 1 < 2 ∨ 64 < c.p 0x21 1 ∨ c.p 0x24 4 < 65536 ∨ 67108864 < c.p 0x24 4 ∨ c.p 0x24 4 % 65536 ≠ 0 ∨
    c.p 0x34 4 < 1000000 ∨ 4000000000 < c.p 0x34 4)) := by omega
  have hpitch : (if (c.p 0x22 1).testBit 0 then decide (c.p 0x30 4 = 0 ∨ c.p 0x30 4 % 64 ≠ 0) else c.p 0x30 4 != 0) = false := by
    rcases h : (c.p 0x22 1).testBit 0
    · simp [hframes h]
    · simpa using hlines h
  rw [moveFrameRing, s.firstFail_of_all_false c _ (by simp only [hfields, hpitch]; simp [hstream, hqueue, howner, hoff, halign])]
  simp only [if_neg hne, haccess]

end

/-! MOVE_LINK_CONFIG, R332 -/

/-- The device number as its register holds it. -/
def devReg (dev : Nat) : W64 := setFld (setBit (0 : W64) 7 true) 0 5 dev

/-- The routes, where the command names a table, and the device number. -/
def State.setDevice (s : State) (c : Cmd) : State :=
  (if c.p 0x28 8 = 0 then s else s.setRoutes (s.tableAt c (c.p 0x28 8) 24)).setReg .mmvDevNum (devReg (c.p 0x22 1))

section
variable (hdev : c.p 0x22 1 ≤ 23) (hquiet : (∀ q < 8, s.linkState q < 2) ∨ s.devNum = c.p 0x22 1)
  (htable : c.p 0x28 8 ≠ 0 → s.tableErr c.tableReq (c.p 0x28 8) 24 = none)
include hdev hquiet htable

theorem moveLinkConfig_of_device (hp : c.p 0x20 1 = 0xFF ∨ (c.p 0x20 1 ≤ 7 ∧ (c.p 0x23 1 = 1 ∨ c.p 0x23 1 = 2 ∨ c.p 0x23 1 = 4))) :
    moveLinkConfig c s = (if c.p 0x20 1 = 0xFF then s.setDevice c
      else (s.setDevice c).setPort (c.p 0x20 1) ((c.p 0x21 1).testBit 0) ((c.p 0x21 1).testBit 1) (c.p 0x23 1)).done c := by
  have hparams : ¬((7 < c.p 0x20 1 ∧ c.p 0x20 1 ≠ 0xFF) ∨ 23 < c.p 0x22 1 ∨
    (c.p 0x20 1 ≠ 0xFF ∧ c.p 0x23 1 ≠ 1 ∧ c.p 0x23 1 ≠ 2 ∧ c.p 0x23 1 ≠ 4)) := by omega
  have hnumber : (((List.range 8).any fun q => decide (2 ≤ s.linkState q)) && s.devNum != c.p 0x22 1) = false := by
    rcases hquiet with hdown | hsame
    · simp only [Bool.and_eq_false_iff, List.any_eq_false, List.mem_range, decide_eq_true_eq]
      exact .inl fun q hq => Nat.not_le.mpr (hdown q hq)
    · simp [hsame]
  rw [moveLinkConfig, s.firstFail_of_all_false c _ (by simp only [hparams, hnumber]; simp)]
  by_cases hra : c.p 0x28 8 = 0
  · rw [if_pos hra, State.setDevice, if_pos hra]
    rfl
  · rw [if_neg hra, State.withTable_of_readable _ (htable hra), State.setDevice, if_neg hra]
    rfl

theorem moveLinkConfig_of_number (hp : c.p 0x20 1 = 0xFF) : moveLinkConfig c s = (s.setDevice c).done c := by
  rw [moveLinkConfig_of_device hdev hquiet htable (.inl hp), if_pos hp]

theorem moveLinkConfig_of_port (hp : c.p 0x20 1 ≤ 7) (hw : c.p 0x23 1 = 1 ∨ c.p 0x23 1 = 2 ∨ c.p 0x23 1 = 4) : moveLinkConfig c s =
    ((s.setDevice c).setPort (c.p 0x20 1) ((c.p 0x21 1).testBit 0) ((c.p 0x21 1).testBit 1) (c.p 0x23 1)).done c := by
  rw [moveLinkConfig_of_device hdev hquiet htable (.inr ⟨hp, hw⟩), if_neg (by omega)]

end

theorem devReg_num {dev : Nat} (h : dev ≤ 23) : fld (devReg dev) 0 5 = dev := by
  rw [devReg, fld_setFld_self _ (by decide)]
  exact Nat.mod_eq_of_lt (by omega)

/-- A port that is off starts its training when it is enabled. -/
theorem State.setPort_of_off (auto_ : Bool) (w : Nat) (h : s.linkState p = 0) : (s.setPort p true auto_ w).linkState p = 1 ∧
    (s.setPort p true auto_ w).linkEn p = true ∧ (s.setPort p true auto_ w).reg .mmvDevNum = s.reg .mmvDevNum := by
  let v := setFld (setFld (setFld (0 : W64) 31 1 1) 30 1 (if auto_ then 1 else 0)) 28 2 (if w = 4 then 3 else w)
  have hoff : (s.setReg (.mmvLinkCtl p) v).linkState p = 0 := (State.fldOf_congr (State.setReg_reg_ne _ _ (by simp)) 24 3).trans h
  have heq : s.setPort p true auto_ w = (s.setReg (.mmvLinkCtl p) v).linkRestart p 1 := by
    rw [State.setPort, if_pos rfl]
    exact if_pos (.inl hoff)
  have hctl : ((s.setReg (.mmvLinkCtl p) v).linkRestart p 1).reg (.mmvLinkCtl p) = v :=
    (State.setFldOf_reg_ne _ _ _ _ (by simp)).trans (State.setReg_reg_self _ _ _)
  have hen : fld v 31 1 = 1 := by
    rw [fld_setFld_of_disjoint _ (by decide) (by decide), fld_setFld_of_disjoint _ (by decide) (by decide), fld_setFld_self _ (by decide)]
    rfl
  rw [heq]
  refine ⟨State.linkState_linkTo 1, ?_, ?_⟩
  · rw [State.linkEn, State.fldOf, hctl, hen]
    rfl
  · exact (State.setFldOf_reg_ne _ _ _ _ (by simp)).trans (State.setReg_reg_ne _ _ (by simp))

/-! MOVE_LINK_RETRAIN and MOVE_LINK_STATUS, R333, R341 -/

theorem moveLinkRetrain_of_enabled (hp : c.p 0x20 1 ≤ 7) (hmode : c.p 0x21 1 ≤ 1) (hms : c.p 0x24 4 ≤ 10000)
    (hnew : (s.mmv.retrains.any fun r => r.port == c.p 0x20 1) = false) (hen : s.linkEn (c.p 0x20 1) = true) : moveLinkRetrain c s =
      let v := (s.freeze (48 + c.p 0x20 1) true).setFldOf (.mmvLinkStat (c.p 0x20 1)) 31 1 1
      let w := if c.p 0x21 1 = 1 then (v.onPort (c.p 0x20 1)).foldl (fun (x : State) id => x.updCmd id fun y => { y with discard := true }) v else v
      w.setMmv fun m => { m with retrains := m.retrains ++
        [{ cmd := c.id, port := c.p 0x20 1, due := c.acceptNs + (if c.p 0x24 4 = 0 then 100 else c.p 0x24 4) * 1000000 }] } := by
  have hparams : ¬(7 < c.p 0x20 1 ∨ 1 < c.p 0x21 1 ∨ 10000 < c.p 0x24 4) := by omega
  rw [moveLinkRetrain, s.firstFail_of_all_false c _ (by simp only [hparams, hnew, hen]; simp)]

theorem moveLinkStatus_of_port (hp : c.p 0x20 1 ≤ 7) : moveLinkStatus c s = s.doneWith c (s.linkBank (c.p 0x20 1)) := if_neg (Nat.not_lt.mpr hp)

/-- Settles O34: with parameters in range no command is refused, and a port that is off leaves for DETECT when it is enabled. -/
theorem moveCommandsComplete : Obligations.MoveCommandsComplete := by
  unfold Obligations.MoveCommandsComplete
  intro dt id s c u
  refine ⟨?push, ?noRing, ?ring, ?config, ?retrain, ?status⟩
  case push => exact fun hr hmin hmax hbus haccess hclean => completes_cmd rfl rfl hr (movePushHost_of_readable hmin hmax hbus haccess hclean)
  case noRing =>
    exact fun hr hstream hnone hqueue howner hoff => completes_cmd rfl rfl hr (moveFrameRing_of_none hstream hqueue howner hoff hnone)
  case ring =>
    intro n k sb a lines w g hr hstream hslots hslots' hsize hsize' hblock hwindow hwindow' hlines hframes hqueue howner hoff halign haccess
    exact completes_cmd rfl rfl hr (moveFrameRing_of_writable hstream hqueue howner hoff hslots hslots' hsize hsize' hblock hwindow hwindow' hlines
      hframes halign haccess)
  case config =>
    intro dev num hr hdev hquiet
    refine ⟨fun hp hra => ?noRoutes, fun hp hra htable => ?routes, fun hp hw hra hen hoff => ?enable, ?port⟩
    case noRoutes =>
      have hdevice : u.setDevice c = u.setReg .mmvDevNum num := by rw [State.setDevice, if_pos hra]; rfl
      rw [← hdevice]
      exact completes_cmd rfl rfl hr (moveLinkConfig_of_number hdev hquiet (fun h => absurd hra h) hp)
    case routes =>
      have hdevice : u.setDevice c = (u.setRoutes (u.tableAt c (c.p 0x28 8) 24)).setReg .mmvDevNum num := by rw [State.setDevice, if_neg hra]; rfl
      rw [← hdevice]
      exact completes_cmd rfl rfl hr (moveLinkConfig_of_number hdev hquiet (fun _ => htable) hp)
    case enable =>
      have hdevice : u.setDevice c = u.setReg .mmvDevNum num := by rw [State.setDevice, if_pos hra]; rfl
      have hrow := completes_cmd (i := .moveLinkConfig dt id) rfl rfl hr (moveLinkConfig_of_port hdev hquiet (fun h => absurd hra h) hp (.inr (.inr hw)))
      have hdown : (u.setReg .mmvDevNum num).linkState (c.p 0x20 1) = 0 := (State.fldOf_congr (State.setReg_reg_ne _ _ (by simp)) 24 3).trans hoff
      rw [hen, show (s.atRow dt id).setDevice c = _ from hdevice] at hrow
      obtain ⟨hstate, henabled, hnum⟩ := State.setPort_of_off ((c.p 0x21 1).testBit 1) (c.p 0x23 1) hdown
      have hreg : ∀ (n : Nat) (v : State) (q : Reg), q ≠ .ccxHpMboxErr → (s.close n (v.done c).settle).reg q = v.reg q := fun n v q hq => by
        rw [State.close_reg, State.settle_reg_ne _ hq, State.done_reg_ne _ _ hq]
      refine ⟨_, hrow, ?_, ?_, ?_⟩
      · exact (State.fldOf_congr (hreg _ _ _ (by simp)) 24 3).trans hstate
      · rw [State.linkEn, State.fldOf_congr (hreg _ _ _ (by simp))]
        exact henabled
      · rw [State.devNum, State.fldOf, hreg _ _ _ (by simp), hnum, State.setReg_reg_self]
        exact devReg_num hdev
    case port =>
      intro p w ra v hp hw htable
      exact completes_cmd rfl rfl hr (moveLinkConfig_of_port hdev hquiet htable hp hw)
  case retrain =>
    intro p ms v w hr hp hmode hms hnew hen
    exact completes_cmd rfl rfl hr (moveLinkRetrain_of_enabled hp hmode hms hnew hen)
  case status => exact fun hr hp => completes_cmd rfl rfl hr (moveLinkStatus_of_port hp)

end Sys2Proof.Machine
end

section
/-! Cold start and warm reset (R69, R123, R471, R479 to R485, R494), and their obligation. -/
namespace Sys2Proof.Machine
variable {s t : State}

/-! Power-on and the cold start, R471, R481 -/

theorem vaonPowerOnRelease_of_off (h : s.pwr.vaon = false) :
    vaonPowerOnRelease s = (s.modPwr fun p => { p with vaon := true }).setReg .ssiPwrColdSrc 0x00010001 := if_neg (Bool.eq_false_iff.mp h)

theorem coldStart_of_held (hvaon : s.pwr.vaon = true) (hheld : s.pwr.porstHigh = false) : coldStart s =
    ((((s.modPwr fun p => { p with porstHigh := true, riseAt := s.ns, coldAt := s.ns }).setPwrBit 31 true).setPwrBit 7 false).showCauses).drawNonce.setStage 1 :=
  if_pos ⟨hvaon, hheld⟩

theorem porstLow_of_pin (h : s.pwr.porstHigh = true) : porstLow false s = s.coldReset 2 := by
  rw [porstLow, if_neg (by decide), if_pos h]

theorem State.setPwrBit_stage (i : Nat) (b : Bool) : (s.setPwrBit i b).stage = s.stage := State.stage_congr (State.modReg_reg_ne _ _ (by simp))

/-- With VCORE_EN as the Island has set it, VCORE_PG is seen. -/
theorem vcorePgSeen_of_enabled (hhigh : s.syncEn.pwr.porstHigh = true) (hen : s.syncEn.pwrBit 31 = true) (hpg : s.syncEn.pwrBit 30 = false) :
    vcorePgSeen s = let v := s.syncEn.setPwrBit 30 true
      if v.stage = 1 then (v.setReg .ccxPwrVset 750).modPwr fun p => { p with mainUp := true, phyUp := true } else v := by
  have hguard : ¬(s.syncEn.pwr.porstHigh = false ∨ s.syncEn.pwrBit 31 = false ∨ s.syncEn.pwrBit 30 = true) := by simp [hhigh, hen, hpg]
  rw [vcorePgSeen, if_neg hguard]

theorem vcorePgTimeout_of_late (hstage : s.syncEn.stage = 1) (hen : s.syncEn.pwrBit 31 = true) (hpg : s.syncEn.pwrBit 30 = false)
    (hlate : s.syncEn.pwr.riseAt + 10000000 ≤ s.syncEn.ns) : vcorePgTimeout s =
      let v := s.syncEn.modPwr fun p => { p with vcoreTries := s.syncEn.pwr.vcoreTries + 1 }
      if s.syncEn.pwr.vcoreTries + 1 < 3 then v.enOff (some (v.ns + 100000000)) else (v.enOff none).halt 0xFF := by
  have hguard : ¬(s.syncEn.stage ≠ 1 ∨ s.syncEn.pwrBit 31 = false ∨ s.syncEn.pwrBit 30 = true ∨ s.syncEn.ns < s.syncEn.pwr.riseAt + 10000000) := by
    simp [hstage, hen, hpg, hlate]
  rw [vcorePgTimeout, if_neg hguard]

theorem hbmInitDone_of_wait (hwait : s.stage = 1 ∨ s.stage = 6 ∧ s.pwr.warm.any (fun w => w.load && !w.held) = true) (hup : s.pwr.mainUp = true)
    (hempty : s.fldOf .mmvMemStat 31 1 = 0) : hbmInitDone s =
      (((s.clearMem 0 hbmSize).modPwr fun p => { p with hbmPoison := [], scrubPos := 0, scrubFrom := s.ns }).setFldOf .mmvMemStat 31 1 1).setStage 2 := by
  have hguard : ((s.stage == 1 || (s.stage == 6 && s.pwr.warm.any fun w => w.load && !w.held)) && s.pwr.mainUp && s.fldOf .mmvMemStat 31 1 == 0) = true := by
    rcases hwait with h | ⟨h, hload⟩
    · simp [h, hup, hempty]
    · simp only [h, hload, hup, hempty]; rfl
  rw [hbmInitDone, if_pos hguard]

/-- What the check of an image says in the load region, R123, R482. -/
def State.verdictImage (s : State) (failed : State) : State :=
  match s.checkPackage (s.rd loadBase s.ccx.imageLen) 1 with
  | .error e => failed.halt e
  | .ok (p, slot, digest) => (s.takeImage p slot digest).setStage 4

theorem imageVerifyDone_of_loaded (h : s.stage = 3) : imageVerifyDone s = s.verdictImage s := by
  have hplace : (s.stage == 6 && s.pwr.warm.any fun w => !w.held && !w.load) = false := by rw [h]; rfl
  rw [imageVerifyDone, if_pos (.inl h), State.verdictImage]
  rcases s.checkPackage (s.rd loadBase s.ccx.imageLen) 1 with e | ⟨p, slot, digest⟩
  · simp only [hplace, Bool.false_eq_true, if_false]
  · rfl

theorem imageVerifyDone_in_place {w : Warm} (h : s.stage = 6) (hwarm : s.pwr.warm = some w) (hload : w.load = false) (hheld : w.held = false) :
    imageVerifyDone s = s.verdictImage (s.addCause 3) := by
  have hplace : (s.stage == 6 && s.pwr.warm.any fun w => !w.held && !w.load) = true := by simp [h, hwarm, hload, hheld]
  rw [imageVerifyDone, if_pos (.inr hplace), State.verdictImage]
  rcases s.checkPackage (s.rd loadBase s.ccx.imageLen) 1 with e | ⟨p, slot, digest⟩
  · simp only [hplace, if_true]
  · rfl

/-! BIVEXA_READY, R127, R299, R485 -/

/-- Bivexa starts: the target of the governor, and the seeds of the cores. -/
def State.bootBivexa (s : State) : State :=
  ({ s with gov := { s.gov with target := if s.gov.ceiling = 0 then 550 else 750 } } : State).seedCores

/-- The generator of one core is seeded. -/
def State.drawSeed (s : State) (p : Nat) : State :=
  { (s.draw 16).2 with tar := { (s.draw 16).2.tar with rng := (s.draw 16).2.tar.rng ++ [(p, (s.draw 16).1)] } }

theorem State.seedCores_eq (s : State) : s.seedCores = (List.range 14).foldl State.drawSeed s := rfl

theorem State.bootBivexa_pwr (s : State) : s.bootBivexa.pwr = s.pwr := by
  rw [State.bootBivexa, State.seedCores_eq]
  exact foldl_keeps (·.pwr) State.drawSeed (fun _ _ => rfl) _ _

theorem State.foldl_drawSeed_rng_length (l : List Nat) (s : State) : (l.foldl State.drawSeed s).tar.rng.length = s.tar.rng.length + l.length := by
  induction l generalizing s with
  | nil => rfl
  | cons p l ih =>
    have hone : (s.drawSeed p).tar.rng.length = s.tar.rng.length + 1 := List.length_append
    rw [List.foldl_cons, ih, hone, List.length_cons]
    omega

theorem State.bootBivexa_rng_length (s : State) : s.bootBivexa.tar.rng.length = s.tar.rng.length + 14 := by
  rw [State.bootBivexa, State.seedCores_eq, State.foldl_drawSeed_rng_length, List.length_range]

theorem bivexaReady_of_cold (h : s.stage = 4) (hcold : s.pwr.warm = none) : bivexaReady s =
    (s.bootBivexa.defaultSources.setStage 5).raise 0x0A08 0
      (evData [s.bootBivexa.fldOf .ssiPwrColdSrc 0 4, s.bootBivexa.ns - s.bootBivexa.pwr.coldAt, (s.reg .ssiPwrRstCnt).toNat]) := by
  have hpwr : s.bootBivexa.pwr.warm = none := (congrArg Pwr.warm s.bootBivexa_pwr).trans hcold
  rw [bivexaReady, if_neg (not_not_intro h)]
  show (match s.bootBivexa.pwr.warm with | none => _ | some w => _) = _
  rw [hpwr]
  rfl

theorem bivexaReady_of_warm {w : Warm} (h : s.stage = 4) (hwarm : s.pwr.warm = some w) : bivexaReady s =
    let x := (((s.bootBivexa.modPwr fun p => { p with warm := none }).countWrap .ccxIdGen 0 32 1).restorePace).setStage 5
    ((x.raise 0x0A08 0 (evData [w.code, x.ns - w.at_, (s.reg .ssiPwrRstCnt).toNat])).clearTrigger 1).dropCause 3 := by
  have hpwr : s.bootBivexa.pwr.warm = some w := (congrArg Pwr.warm s.bootBivexa_pwr).trans hwarm
  rw [bivexaReady, if_neg (not_not_intro h)]
  show (match s.bootBivexa.pwr.warm with | none => _ | some w => _) = _
  rw [hpwr]
  rfl

/-- The stage register after a change of stage. -/
theorem State.setStage_idState (s : State) (st : Nat) :
    (s.setStage st).reg .ccxIdState = setFld (setFld (s.reg .ccxIdState) 16 8 st) 0 1 (if st = 5 then 1 else 0) := by
  rw [State.setStage, State.cause_reg_ne _ _ (by simp) (by simp), State.setFldOf_reg_self, State.setFldOf_reg_self]

theorem State.stage_of_set {st : Nat} (hst : st < 256) (h : t.reg .ccxIdState = (s.setStage st).reg .ccxIdState) : t.stage = st := by
  rw [State.stage, State.fldOf, h, State.setStage_idState, fld_setFld_of_disjoint _ (by decide) (by decide), fld_setFld_self _ (by decide)]
  exact Nat.mod_eq_of_lt hst

theorem State.ready_of_set {st : Nat} (h : t.reg .ccxIdState = (s.setStage st).reg .ccxIdState) : t.ready = decide (st = 5) := by
  rw [State.ready, h, State.setStage_idState, bit_setFld _ (by decide), if_pos (by decide)]
  by_cases hst : st = 5 <;> simp [hst]

theorem State.setStage_tar (s : State) (st : Nat) : (s.setStage st).tar = s.tar := by
  obtain ⟨c, l, m, o, h⟩ := State.cause_cases ((s.setFldOf .ccxIdState 16 8 st).setFldOf .ccxIdState 0 1 (if st = 5 then 1 else 0)) 3
  rw [State.setStage, h]
  rfl

theorem State.defaultSources_tar (s : State) : s.defaultSources.tar = s.tar :=
  foldl_keeps (·.tar) _ (fun v e => by split <;> rfl) _ s

/-- Bivexa brings the part to READY, with a seed for each core. -/
theorem bivexaReady_reaches (h : s.stage = 4) (hcold : s.pwr.warm = none) :
    (bivexaReady s).reg .ccxIdState = (s.bootBivexa.defaultSources.setStage 5).reg .ccxIdState ∧
      (bivexaReady s).tar.rng.length = s.tar.rng.length + 14 := by
  rw [bivexaReady_of_cold h hcold]
  refine ⟨State.raise_reg_ne _ _ _ _ (by simp), ?_⟩
  rw [State.raise_tar, State.setStage_tar, State.defaultSources_tar, State.bootBivexa_rng_length]

/-! A latched cause and the main domain's reset, R69, R480, R482, R484 -/

theorem State.request_of_warm {code : Nat} (hporst : s.pwr.porstHigh = true) (hcode : code ≤ 2) (hstage : s.ready = true ∨ s.stage = 7)
    (hfirst : ∀ e ∈ s.pwr.reqs, s.ns ≤ e.2 + 100) :
    s.request code = (s.countReset code).modPwr fun p => { p with reqs := p.reqs ++ [(code, s.ns)] } := by
  have hall : s.pwr.reqs.all (fun e => decide (s.ns ≤ e.2 + 100)) = true := List.all_eq_true.mpr fun e he => decide_eq_true (hfirst e he)
  rw [State.request, if_neg (by rw [hporst]; simp), if_pos hcode, if_pos ⟨hstage, hall⟩]

/-- The cause that a reset reports: of those within 100 ns of the first the highest, of later ones a VCORE reset or a thermal trip. -/
def resetReport (c0 t0 : Nat) (rest : List (Nat × Nat)) : Nat :=
  rest.foldl (fun (c : Nat) e => if e.2 ≤ t0 + 100 then Nat.max c e.1 else if 3 ≤ e.1 then e.1 else c) c0

/-- The state in which the main domain goes down: HALTED or READY is left, the event is told, the reflex triggered, HBM3E in self-refresh. -/
def State.beforeLoss (s : State) (code : Nat) : State :=
  let v := (s.setStage 6).raise 0x0A80 0 (evData [code])
  (v.trigger 1 v.fbMode).setFldOf .mmvMemStat 30 1 1

theorem mainResetEntry_of_latched {cause : ResetCause} {c0 t0 : Nat} {rest : List (Nat × Nat)} (hreqs : s.pwr.reqs = (c0, t0) :: rest)
    (hcause : (s.pwr.reqs.any fun e => e.1 == resetCode cause) = true) (hnew : s.pwr.warm = none ∨ s.stage = 7) : mainResetEntry cause s =
      ((s.beforeLoss (resetReport c0 t0 rest)).mainLoss !(s.stage == 4 || s.stage == 5)).modPwr fun p => { p with
        warm := some { code := resetReport c0 t0 rest, at_ := t0, load := !(s.stage == 4 || s.stage == 5), boundAt := t0, lowAt := s.ns }
        reqs := [], mainUp := false, scrubPos := 0 } := by
  have hagain : (s.pwr.warm.isSome && s.stage != 7) = false := by rcases hnew with h | h <;> simp [h]
  have hguard : (!(s.pwr.reqs.any fun e => e.1 == resetCode cause) || (s.pwr.warm.isSome && s.stage != 7)) = false := by rw [hcause, hagain]; rfl
  rw [mainResetEntry]
  rw [hreqs] at hguard ⊢
  exact if_neg (Bool.eq_false_iff.mp hguard)

/-! What the loss of the main domain leaves of the stage register, R484 -/

theorem State.enqueue_reg_ne (n : Nat) (p : Pkt) {r : Reg} (hcnt : r ≠ .siuQCnt n) (hstat : r ≠ .siuQStat n) : (s.enqueue n p).reg r = s.reg r := by
  have hput : ∀ (q : Bool) (x y : Strm), (if q then (s.setStrm n x).countSat (.siuQCnt n) 0 16 else (s.setStrm n y).syncQ n).reg r = s.reg r := by
    intro q x y
    split
    · exact State.countSat_reg_ne _ _ _ hcnt
    · exact (State.setFldOf_reg_ne _ _ _ _ hstat).trans (State.setFldOf_reg_ne _ _ _ _ hstat)
  exact hput _ _ _

theorem State.closeFrame_reg_ne (n : Nat) {r : Reg} (hcnt : r ≠ .siuQCnt n) (hstat : r ≠ .siuQStat n) (hframes : r ≠ .siuStreamFrames n) :
    (s.closeFrame n).reg r = s.reg r := by
  unfold State.closeFrame
  split
  · rfl
  · split
    · rfl
    · refine (State.countWrap_reg_ne _ _ _ _ hframes).trans ?_
      rw [State.modStrm_reg]
      split
      · exact State.enqueue_reg_ne _ _ hcnt hstat
      · rfl

theorem State.emptyQ_reg_ne (n : Nat) {r : Reg} (hstat : r ≠ .siuQStat n) : (s.emptyQ n).reg r = s.reg r :=
  (State.setFldOf_reg_ne _ _ _ _ hstat).trans (State.setFldOf_reg_ne _ _ _ _ hstat)

theorem State.loseFrame_reg_ne (n : Nat) {r : Reg} (hframes : r ≠ .siuStreamFrames n) : (s.loseFrame n).reg r = s.reg r := by
  unfold State.loseFrame
  split
  · rfl
  · rw [State.modStrm_reg]
    split
    · rfl
    · exact State.countWrap_reg_ne _ _ _ _ hframes

theorem State.disableStream_idState (n : Nat) : (s.disableStream n).reg .ccxIdState = s.reg .ccxIdState := by
  rw [State.disableStream, State.assignSlots_reg_ne (by simp) (by simp) (by simp) (by simp), State.modReg_reg_ne _ _ (by simp), State.setAlign,
    State.setFldOf_reg_ne _ _ _ _ (by simp), State.modReg_reg_ne _ _ (by simp), State.modStrm_reg,
    State.closeFrame_reg_ne _ (by simp) (by simp) (by simp)]

theorem State.loseStreams_idState : s.loseStreams.reg .ccxIdState = s.reg .ccxIdState := by
  refine foldl_keeps (·.reg .ccxIdState) _ (fun v n => ?_) _ s
  have hempty : ∀ x : State, (x.emptyQ n).reg .ccxIdState = x.reg .ccxIdState := fun x => State.emptyQ_reg_ne _ (by simp)
  have hframe : ∀ x : State, (x.loseFrame n).reg .ccxIdState = x.reg .ccxIdState := fun x => State.loseFrame_reg_ne _ (by simp)
  have hoff : ∀ x : State, (x.disableStream n).reg .ccxIdState = x.reg .ccxIdState := fun x => x.disableStream_idState n
  dsimp only
  split_ifs <;> simp only [State.modStrm_reg, hempty, hframe, hoff]

theorem State.setGey_reg_ne (i : Nat) (e : Gey) {r : Reg} (h : r ≠ .tnuGeyStat) : (s.setGey i e).reg r = s.reg r := State.setFldOf_reg_ne _ _ _ _ h

theorem State.withTnu_reg (s : State) (x : Tnu) (r : Reg) : ({ s with tnu := x } : State).reg r = s.reg r := rfl

theorem State.freeGey_reg_ne (i : Nat) {r : Reg} (h : r ≠ .tnuGeyStat) : (s.freeGey i).reg r = s.reg r := by
  rw [State.freeGey, State.withTnu_reg]
  exact State.setGey_reg_ne _ _ h

theorem State.loseEntry_reg_ne (i : Nat) (free : Bool) {r : Reg} (h : r ≠ .tnuGeyStat) : (s.loseEntry i free).reg r = s.reg r := by
  unfold State.loseEntry
  dsimp only
  split
  · split
    · exact State.setGey_reg_ne _ _ h
    · exact (State.freeGey_reg_ne _ h).trans (State.setGey_reg_ne _ _ h)
  · split <;> exact State.setGey_reg_ne _ _ h

theorem State.loseTime_reg_ne {r : Reg} (h : r ≠ .tnuGeyStat) : s.loseTime.reg r = s.reg r := by
  rw [State.loseTime, State.withTnu_reg]
  refine foldl_keeps (·.reg r) _ (fun v i => ?_) _ s.fresh.2
  split
  · rfl
  · exact State.loseEntry_reg_ne _ _ h

theorem State.losePort_reg_ne {r : Reg} (hptr : r ≠ .ccxHpDportPtr) (hstat : r ≠ .ccxHpDportStat) : s.losePort.reg r = s.reg r :=
  (State.setFldOf_reg_ne _ _ _ _ hstat).trans (State.setReg_reg_ne _ _ hptr)

theorem csrGet_filter_of_kept (c : List (Reg × W64)) {p : Reg → Bool} {r : Reg} (h : p r = false) : csrGet (c.filter fun e => !(p e.1)) r = csrGet c r := by
  induction c with
  | nil => rfl
  | cons e c ih =>
    by_cases hp : p e.1 = true
    · rw [List.filter_cons_of_neg (by simp [hp]), csrGet, if_neg (by rintro rfl; simp [hp] at h), ih]
    · rw [List.filter_cons_of_pos (by simp [hp]), csrGet, csrGet, ih]

theorem State.resetRegs_reg_of_kept {p : Reg → Bool} {r : Reg} (h : p r = false) : (s.resetRegs p).reg r = s.reg r := csrGet_filter_of_kept s.csr h

theorem State.loseRegs_reg_of_kept {r : Reg} (h : r.mainDomain = false) (hquota : ∀ n, r ≠ .mmvArbQuota n) : s.loseRegs.reg r = s.reg r :=
  (foldl_keeps (·.reg r) (fun (v : State) (e : Nat × Nat) => v.setFldOf (.mmvArbQuota e.1) 0 8 e.2)
    (fun _ _ => State.setFldOf_reg_ne _ _ _ _ (hquota _)) _ _).trans
    (State.resetRegs_reg_of_kept h)

theorem State.loseMem_reg (r : Reg) : s.loseMem.reg r = s.reg r := by
  rw [State.loseMem, State.clearMem_reg, State.clearMem_reg, State.clearMem_reg]
  exact foldl_keeps (·.reg r) _ (fun v n => v.clearMem_reg _ _ r) _ s

theorem State.loseControl_reg_ne (load : Bool) {r : Reg} (hsafe : r ≠ .ssiSafeStat) (hpart : ∀ p, r ≠ .ssiPartSafe p) :
    (s.loseControl load).reg r = s.reg r := by
  rw [State.loseControl, State.modStandby, State.setSsi_reg]
  refine (foldl_keeps (·.reg r) _ (fun v p => State.setFldOf_reg_ne _ _ _ _ (hpart p)) _ _).trans ?_
  rw [State.setFldOf_reg_ne _ _ _ _ hsafe, State.setFldOf_reg_ne _ _ _ _ hsafe]
  rfl

/-- What survives the engines' reset is what the registers, the memories and the control core's tables keep. -/
theorem State.mainLoss_idState (load : Bool) : (s.mainLoss load).reg .ccxIdState = s.reg .ccxIdState := by
  have hengines : ∀ (v : State) (t : Tar),
      ({ v with tar := t, chn := {}, trk := {}, pln := {}, mmv := {}, kv := {} } : State).reg .ccxIdState = v.reg .ccxIdState :=
    fun _ _ => rfl
  rw [State.mainLoss, State.setSsi_reg, State.loseControl_reg_ne _ (by simp) (by simp), hengines, State.loseMem_reg,
    State.loseRegs_reg_of_kept (by decide) (by simp), State.losePort_reg_ne (by simp) (by simp), State.loseTime_reg_ne (by simp), State.loseStreams_idState]

theorem State.loseRegs_hp : s.loseRegs.hp = s.hp := by
  rw [State.loseRegs]
  exact foldl_keeps (·.hp) _ (fun v e => v.setFldOf_hp _ _ _ _) _ _

theorem State.loseMem_hp : s.loseMem.hp = s.hp := by
  rw [State.loseMem, State.clearMem_hp, State.clearMem_hp, State.clearMem_hp]
  exact foldl_keeps (·.hp) _ (fun v n => v.clearMem_hp _ _) _ s

theorem State.losePort_mbox : s.losePort.hp.mbox = mboxReset := by
  rw [State.losePort, State.setFldOf_hp, State.setReg_hp]

/-- Control memory is gone: of the rest of the state only the safe-state counts and the standby record change. -/
theorem State.loseControl_keeps (load : Bool) : (s.loseControl load).ccx.cmds = [] ∧ (s.loseControl load).hp = s.hp ∧ (s.loseControl load).tar = s.tar ∧
    (s.loseControl load).mmv = s.mmv ∧ (s.loseControl load).kv = s.kv := by
  rw [State.loseControl, State.modStandby, State.setSsi_ccx, State.setSsi_hp, State.setSsi_tar, State.setSsi_mmv, State.setSsi_kv]
  have hcounts : ∀ v : State, let w := (List.range 8).foldl (fun (s : State) p => s.setFldOf (.ssiPartSafe p) 24 8 0) v
      w.ccx = v.ccx ∧ w.hp = v.hp ∧ w.tar = v.tar ∧ w.mmv = v.mmv ∧ w.kv = v.kv := fun v =>
    ⟨foldl_keeps (·.ccx) _ (fun x _ => x.setFldOf_ccx _ _ _ _) _ _, foldl_keeps (·.hp) _ (fun x _ => x.setFldOf_hp _ _ _ _) _ _,
      foldl_keeps (·.tar) _ (fun x _ => x.setFldOf_tar _ _ _ _) _ _, foldl_keeps (·.mmv) _ (fun x _ => x.setFldOf_mmv _ _ _ _) _ _,
      foldl_keeps (·.kv) _ (fun x _ => x.setFldOf_kv _ _ _ _) _ _⟩
  obtain ⟨hccx, hhp, htar, hmmv, hkv⟩ := hcounts _
  rw [hccx, hhp, htar, hmmv, hkv]
  exact ⟨rfl, rfl, rfl, rfl, rfl⟩

/-- The host port's contents, the commands and the engines' work are gone. -/
theorem State.mainLoss_loses (load : Bool) : (s.mainLoss load).ccx.cmds = [] ∧ (s.mainLoss load).hp.mbox = mboxReset ∧ (s.mainLoss load).tar.jobs = [] ∧
    (s.mainLoss load).mmv.moves = [] ∧ (s.mainLoss load).kv.seqs = [] := by
  rw [State.mainLoss, State.setSsi_ccx, State.setSsi_hp, State.setSsi_tar, State.setSsi_mmv, State.setSsi_kv]
  have hmbox : s.loseStreams.loseTime.losePort.loseRegs.loseMem.hp.mbox = mboxReset := by rw [State.loseMem_hp, State.loseRegs_hp, State.losePort_mbox]
  generalize s.loseStreams.loseTime.losePort.loseRegs.loseMem = v at hmbox ⊢
  obtain ⟨hcmds, hhp, htar, hmmv, hkv⟩ := State.loseControl_keeps (s := { v with
    tar := { residAt := v.tar.residAt, memAt := v.tar.memAt, starterNext := v.tar.starterNext, starterBad := v.tar.starterBad }
    chn := {}, trk := {}, pln := {}, mmv := {}, kv := {} }) load
  rw [hcmds, hhp, htar, hmmv, hkv]
  exact ⟨rfl, hmbox, rfl, rfl, rfl⟩

theorem State.toLane_reg_ne (mode : Nat) {r : Reg} (h : r ≠ .ssiRfxStat) : (s.toLane mode).reg r = s.reg r := by
  unfold State.toLane
  dsimp only
  split
  · exact State.setFldOf_reg_ne _ _ _ _ h
  · split <;> exact State.setFldOf_reg_ne _ _ _ _ h

theorem State.trigger_reg_ne (i mode : Nat) {r : Reg} (hm : r ≠ .ccxHpMboxErr) (hstat : r ≠ .ssiRfxStat) (hrefused : r ≠ .ssiRfxRefused) :
    (s.trigger i mode).reg r = s.reg r := by
  unfold State.trigger
  split
  · rfl
  · rw [State.failOffers_reg_ne hm hrefused, State.raise_reg_ne _ _ _ _ hm]
    split
    · exact (State.toLane_reg_ne mode hstat).trans (State.setFldOf_reg_ne _ _ _ _ hstat)
    · exact State.setFldOf_reg_ne _ _ _ _ hstat

theorem State.beforeLoss_idState (code : Nat) : (s.beforeLoss code).reg .ccxIdState = (s.setStage 6).reg .ccxIdState := by
  rw [State.beforeLoss, State.setFldOf_reg_ne _ _ _ _ (by simp), State.trigger_reg_ne _ _ (by simp) (by simp) (by simp),
    State.raise_reg_ne _ _ _ _ (by simp)]

/-- With nothing at work the close of a row leaves nothing at work. -/
theorem State.close_empty (s : State) (dt : Nat) (hjobs : t.tar.jobs = []) (hmoves : t.mmv.moves = []) (hseqs : t.kv.seqs = []) :
    (s.close dt t).tar.jobs = [] ∧ (s.close dt t).mmv.moves = [] ∧ (s.close dt t).kv.seqs = [] := by
  obtain ⟨m, h⟩ := t.pruneTar_cases
  rw [State.close, h]
  simp only [hjobs, hmoves, hseqs, List.filter_nil, and_self]

/-- The main domain is down at stage 6, its cause held for the report, its work gone. -/
theorem mainResetEntry_loses {cause : ResetCause} {c0 t0 : Nat} {rest : List (Nat × Nat)} (hreqs : s.pwr.reqs = (c0, t0) :: rest)
    (hcause : (s.pwr.reqs.any fun e => e.1 == resetCode cause) = true) (hnew : s.pwr.warm = none ∨ s.stage = 7) : let t := mainResetEntry cause s
    t.reg .ccxIdState = (s.setStage 6).reg .ccxIdState ∧ t.pwr.mainUp = false ∧ t.pwr.reqs = [] ∧
      (∀ w, t.pwr.warm = some w → w.code = resetReport c0 t0 rest) ∧ t.ccx.cmds = [] ∧ t.hp.mbox = mboxReset ∧ t.tar.jobs = [] ∧ t.mmv.moves = [] ∧
      t.kv.seqs = [] := by
  rw [mainResetEntry_of_latched hreqs hcause hnew]
  generalize (!(s.stage == 4 || s.stage == 5)) = load
  have hstate := (State.mainLoss_idState (s := s.beforeLoss (resetReport c0 t0 rest)) load).trans (State.beforeLoss_idState _)
  have hlost := State.mainLoss_loses (s := s.beforeLoss (resetReport c0 t0 rest)) load
  generalize (s.beforeLoss (resetReport c0 t0 rest)).mainLoss load = v at hstate hlost ⊢
  exact ⟨hstate, rfl, rfl, fun w hw => by cases hw; rfl, hlost⟩

/-! MAIN_DOMAIN_RELEASE and WARM_BOUND_TIMEOUT, R482 -/

theorem mainDomainRelease_of_good {w : Warm} (hwarm : s.pwr.warm = some w) (hheld : w.held = true) (hvcore : s.pwrBit 4 = false)
    (htrip : s.pwrBit 6 = false) (hpg : s.pwrBit 30 = true) (href : s.pwr.refs.contains .sref0 = true)
    (hsref : s.pwr.srefAt = 0 ∨ s.pwr.srefAt + 1000000 ≤ s.ns) : mainDomainRelease s =
      let v := (s.modPwr fun p => { p with mainUp := true, phyUp := true, scrubFrom := s.ns, warm := some { w with held := false } }).setFldOf .mmvMemStat 30 1 0
      let x := (v.setReg .ccxPwrVset 750).setFldOf .ccxIdState 8 8 w.code
      if w.load = true ∧ x.fldOf .mmvMemStat 31 1 = 1 then x.setStage 2 else x := by
  have hguard : ¬(!w.held || s.pwrBit 4 || s.pwrBit 6 || !s.pwrBit 30 ||
      !(s.pwr.refs.contains .sref0 && decide (s.pwr.srefAt = 0 ∨ s.pwr.srefAt + 1000000 ≤ s.ns))) = true := by
    rw [hheld, hvcore, htrip, hpg, href, decide_eq_true hsref]
    decide
  simp only [mainDomainRelease, hwarm]
  exact if_neg hguard

theorem warmBoundTimeout_of_late {w : Warm} (hwarm : s.pwr.warm = some w) (hload : w.load = false) (hmissed : w.missed = false)
    (htrip : s.pwrBit 6 = false) (hlate : w.boundAt + 250000000 ≤ s.ns) :
    warmBoundTimeout s = (s.modPwr fun p => { p with warm := some { w with missed := true } }).addCause 3 := by
  have hguard : ¬(w.load = true ∨ w.missed = true ∨ s.pwrBit 6 = true ∨ s.ns < w.boundAt + 250000000) := by simp [hload, hmissed, htrip, hlate]
  simp only [warmBoundTimeout, hwarm]
  exact if_neg hguard

theorem State.syncEn_porstHigh : s.syncEn.pwr.porstHigh = s.pwr.porstHigh := by
  unfold State.syncEn
  split
  · split <;> rfl
  · rfl

/-- Settles O47: each row's guard is what its clause assumes; the stage register lies outside the main domain, so its reset leaves the stage
at 6. The set point of 750 mV and the cause at the release, the governor's target at READY, and VCORE_EN at the cold start are log entry 78. -/
theorem resetRowsComplete : Obligations.ResetRowsComplete := by
  unfold Obligations.ResetRowsComplete
  intro dt s u
  refine ⟨?vaon, ?cold, ?porst, ?vaonLow, ?pg, ?pgLate, ?hbm, ?image, ?ready, ?request, ?entry, ?release, ?bound, ?pgSync, ?pgLateSync, ?hbmWarm, ?imageWarm,
    ?bivexa, ?requestHalted, ?entryAny, ?releaseAny⟩
  case vaon => exact fun h => completes_event rfl rfl (vaonPowerOnRelease_of_off h)
  case cold => exact fun hvaon hheld => completes_event rfl rfl (coldStart_of_held hvaon hheld)
  case porst => exact fun h => completes_event rfl rfl (porstLow_of_pin h)
  case vaonLow => exact completes_event rfl rfl rfl
  case pg =>
    intro hdue hhigh hen hpg hstage
    have hsync : u.syncEn = u := State.syncEn_of_none hdue
    refine completes_event rfl rfl ((vcorePgSeen_of_enabled (by rwa [hsync]) (by rwa [hsync]) (by rwa [hsync])).trans ?_)
    rw [hsync]
    exact if_pos ((State.setPwrBit_stage _ _).trans hstage)
  case pgLate =>
    intro hdue hstage hen hpg hlate
    have hsync : u.syncEn = u := State.syncEn_of_none hdue
    refine completes_event rfl rfl ((vcorePgTimeout_of_late (by rwa [hsync]) (by rwa [hsync]) (by rwa [hsync]) (by rwa [hsync])).trans ?_)
    rw [hsync]
    by_cases htries : u.pwr.vcoreTries < 2
    · rw [if_pos htries]
      exact if_pos (Nat.succ_lt_succ htries)
    · rw [if_neg htries]
      exact if_neg fun h => htries (Nat.lt_of_succ_lt_succ h)
  case hbm => exact fun hstage hup hempty => completes_event rfl rfl (hbmInitDone_of_wait (.inl hstage) hup hempty)
  case image => exact fun h => completes_event rfl rfl (imageVerifyDone_of_loaded h)
  case ready =>
    intro h hcold
    have hrow : Completes (.bivexaReady dt) s (bivexaReady u) := completes_event rfl rfl rfl
    obtain ⟨hstate, hlength⟩ := bivexaReady_reaches h hcold
    have hclosed : (s.close (Instr.bivexaReady dt).dt (bivexaReady u)).reg .ccxIdState = (u.bootBivexa.defaultSources.setStage 5).reg .ccxIdState := by
      rw [State.close_reg, hstate]
    exact ⟨_, hrow, State.ready_of_set hclosed, State.stage_of_set (by decide) hclosed, by rw [State.close_rng, hlength]⟩
  case request =>
    exact fun hporst hready hfirst => completes_event (f := fun s => s.request 2) rfl rfl (State.request_of_warm hporst (Nat.le_refl 2) (.inl hready) hfirst)
  case entry =>
    intro cause t0 hreqs hwarm _
    have hrow : Completes (.mainResetEntry dt cause) s (mainResetEntry cause u) := completes_event rfl rfl rfl
    obtain ⟨hstate, hdown, hnone, hcode, hcmds, hmbox, hjobs, hmoves, hseqs⟩ :=
      mainResetEntry_loses hreqs (by rw [hreqs]; exact Bool.or_eq_true_iff.mpr (.inl (beq_self_eq_true _))) (.inl hwarm)
    obtain ⟨hjobs, hmoves, hseqs⟩ := State.close_empty s (Instr.mainResetEntry dt cause).dt hjobs hmoves hseqs
    rw [← State.close_reg s (Instr.mainResetEntry dt cause).dt] at hstate
    refine ⟨_, hrow, State.stage_of_set (by decide) hstate, State.ready_of_set hstate, ?_⟩
    rw [State.close_pwr, State.close_ccx, State.close_hp]
    exact ⟨hdown, hnone, hcmds, hjobs, hmoves, hseqs, hmbox, hcode⟩
  case release =>
    intro w hwarm hheld hload hvcore htrip hpg href hsref
    refine completes_event rfl rfl ((mainDomainRelease_of_good hwarm hheld hvcore htrip hpg href (.inl hsref)).trans ?_)
    exact if_neg fun h => Bool.false_ne_true (hload ▸ h.1)
  case bound => exact fun w hwarm hload hmissed htrip hlate => completes_event rfl rfl (warmBoundTimeout_of_late hwarm hload hmissed htrip hlate)
  case pgSync =>
    intro x hhigh hen hpg v
    exact completes_event rfl rfl (vcorePgSeen_of_enabled (State.syncEn_porstHigh.trans hhigh) hen hpg)
  case pgLateSync =>
    intro x n v hstage hen hpg hlate
    exact completes_event rfl rfl (vcorePgTimeout_of_late hstage hen hpg hlate)
  case hbmWarm =>
    intro w hstage hwarm hload hheld hup hempty
    exact completes_event rfl rfl (hbmInitDone_of_wait (.inr ⟨hstage, by rw [hwarm, Option.any_some, hload, hheld]; rfl⟩) hup hempty)
  case imageWarm => exact fun w hstage hwarm hload hheld => completes_event rfl rfl (imageVerifyDone_in_place hstage hwarm hload hheld)
  case bivexa =>
    intro h rst v
    refine ⟨fun hcold => completes_event rfl rfl (bivexaReady_of_cold h hcold), fun w hwarm => ?_⟩
    exact completes_event rfl rfl (bivexaReady_of_warm h hwarm)
  case requestHalted =>
    exact fun hporst hstage hfirst => completes_event (f := fun s => s.request 2) rfl rfl (State.request_of_warm hporst (Nat.le_refl 2) (.inr hstage) hfirst)
  case entryAny =>
    intro cause c0 t0 rest hreqs hcause hnew code load w v
    exact completes_event rfl rfl (mainResetEntry_of_latched hreqs hcause hnew)
  case releaseAny =>
    intro w hwarm hheld hvcore htrip hpg href hsref v x
    exact completes_event rfl rfl (mainDomainRelease_of_good hwarm hheld hvcore htrip hpg href hsref)

end Sys2Proof.Machine
end

section
/-! What a store leaves alone (R71, R86, R181, R331), and its obligation. -/
namespace Sys2Proof.Machine
variable {s t : State} {p : Nat → Prop}

/-- From s on, where no page of the KV cache and no descriptor's slot is held, no byte of device memory that p names has changed. -/
structure State.Spares (s : State) (p : Nat → Prop) (t : State) : Prop where
  mem : SameMem s t p
  slots : t.tar.slots = []
  pages : t.kv.pages = []

namespace State.Spares

theorem of_same {u : State} (h : s.Spares p t) (hm : u.mem = t.mem) (ht : u.tar = t.tar) (hk : u.kv = t.kv) : s.Spares p u where
  mem := fun a ha => (congrArg (sget 0 · a) hm).trans (h.mem a ha)
  slots := ht ▸ h.slots
  pages := hk ▸ h.pages

/-- A step from the row's own state, which time alone has led to. -/
theorem elapsed (dt : Nat) (hslots : (s.elapse dt).tar.slots = []) (hpages : (s.elapse dt).kv.pages = []) : s.Spares p (s.elapse dt) :=
  ⟨fun _ _ => rfl, hslots, hpages⟩

theorem ite {u : State} {q : Prop} [Decidable q] (ht : s.Spares p t) (hu : s.Spares p u) : s.Spares p (if q then t else u) := by
  split
  · exact ht
  · exact hu

theorem setReg (h : s.Spares p t) (r : Reg) (v : W64) : s.Spares p (t.setReg r v) := h.of_same rfl rfl rfl

theorem withHp (h : s.Spares p t) (x : HostPort) : s.Spares p { t with hp := x } := h.of_same rfl rfl rfl

theorem setFldOf (h : s.Spares p t) (r : Reg) (lo len x : Nat) : s.Spares p (t.setFldOf r lo len x) := h.of_same rfl rfl rfl

theorem countSat (h : s.Spares p t) (r : Reg) (lo len : Nat) : s.Spares p (t.countSat r lo len) := h.of_same rfl rfl rfl

theorem countWrap (h : s.Spares p t) (r : Reg) (lo len k : Nat) : s.Spares p (t.countWrap r lo len k) := h.of_same rfl rfl rfl

theorem emit (h : s.Spares p t) (o : OutItem) : s.Spares p (t.emit o) := h.of_same rfl rfl rfl

theorem raise (h : s.Spares p t) (c q : Nat) (b : Bytes) : s.Spares p (t.raise c q b) :=
  h.of_same (t.raise_mem c q b) (t.raise_tar c q b) (t.raise_kv c q b)

theorem raiseLim (h : s.Spares p t) (c k q : Nat) (b : Bytes) : s.Spares p (t.raiseLim c k q b) :=
  h.of_same (t.raiseLim_mem c k q b) (t.raiseLim_tar c k q b) (t.raiseLim_kv c k q b)

theorem cause (h : s.Spares p t) (v : Nat) : s.Spares p (t.cause v) := by
  obtain ⟨c, l, m, o, heq⟩ := t.cause_cases v
  exact h.of_same (by rw [heq]) (by rw [heq]) (by rw [heq])

theorem setStage (h : s.Spares p t) (st : Nat) : s.Spares p (t.setStage st) := ((h.setFldOf _ _ _ _).setFldOf _ _ _ _).cause 3

theorem logAer (h : s.Spares p t) (e : PcieErr) : s.Spares p (t.logAer e) := by
  unfold State.logAer
  exact .cause (.ite ((h.withHp _).countSat _ _ _) ((h.withHp _).countSat _ _ _)) 5

theorem memUe (h : s.Spares p t) (q : Req) (inp a : Nat) : s.Spares p (t.memUe q inp a) :=
  ((h.countSat _ _ _).setReg _ _).raise _ _ _

theorem failAccess (h : s.Spares p t) (q : Req) (inp a st : Nat) : s.Spares p (t.failAccess q inp a st) := by
  unfold State.failAccess
  have hlast := h.ite (q := q = .system) (h.setReg (.mmvRangeLast q.num) (BitVec.ofNat 64 a))
  exact .ite ((hlast.countSat _ _ _).raiseLim _ _ _ _) (.raiseLim (.ite hlast (hlast.countSat _ _ _)) _ _ _ _)

theorem reportAccess (h : s.Spares p t) (q : Req) (u : Purpose) (write : Bool) (inp a n st : Nat) : s.Spares p (t.reportAccess q u write inp a n st) := by
  unfold State.reportAccess
  exact .ite (.ite ((h.failAccess q inp a st).raiseLim _ _ _ _) (h.failAccess q inp a st)) (.ite (h.memUe _ _ _) h)

/-! The ends of rows -/

theorem settle (h : s.Spares p t) : s.Spares p t.settle := by
  obtain ⟨hm, hk, ht⟩ := t.settle_mem h.pages h.slots
  obtain ⟨m, hprune⟩ := t.pruneTar_cases
  refine ⟨fun a ha => (congrArg (sget 0 · a) hm).trans (h.mem a ha), ?_, hk⟩
  rw [ht, hprune, h.slots]
  rfl

theorem close (h : s.Spares p t) (dt : Nat) : SameMem s (s.close dt t) p :=
  fun a ha => (congrArg (sget 0 · a) (t.pruneTar_mem h.slots)).trans (h.mem a ha)

/-! Stores -/

theorem wr (h : s.Spares p t) (a : Nat) (b : Bytes) (hout : ∀ x, p x → x < a ∨ a + b.length ≤ x) : s.Spares p (t.wr a b) where
  mem := fun x hx => (t.wr_rdByte_out a b x (hout x hx)).trans (h.mem x hx)
  slots := h.slots
  pages := h.pages

theorem store (h : s.Spares p t) (a : Nat) (b : Bytes) (hout : ∀ x, p x → x < a ∨ a + b.length ≤ x) : s.Spares p (t.store a b) := by
  have hw : s.Spares p ((t.wr a b).clearPoison a b.length) := (h.wr a b hout).of_same rfl rfl rfl
  unfold State.store
  exact .ite (.ite (.countWrap (.ite (hw.countWrap _ _ _ _) hw) _ _ _ _) (.ite (hw.countWrap _ _ _ _) hw)) hw

theorem storeTlp (h : s.Spares p t) (ptr : Nat) (l : List (Nat × Byte)) (hout : ∀ e ∈ l, ∀ x, p x → x < ptr + e.1 ∨ ptr + e.1 + 1 ≤ x) :
    s.Spares p (t.storeTlp ptr l) := by
  have hfold : ∀ (l : List (Nat × Byte)) (t : State), s.Spares p t → (∀ e ∈ l, ∀ x, p x → x < ptr + e.1 ∨ ptr + e.1 + 1 ≤ x) →
      s.Spares p (l.foldl (fun s e => s.wr (ptr + e.1) [e.2]) t) := by
    intro l
    induction l with
    | nil => exact fun t h _ => h
    | cons e l ih =>
      exact fun t h hout => ih _ (h.wr _ _ (hout e List.mem_cons_self)) fun e' he' => hout e' (List.mem_cons_of_mem _ he')
  exact (hfold l t h hout).of_same rfl rfl rfl

/-! The data port -/

theorem dportFail (h : s.Spares p t) (ptr : Nat) : s.Spares p (t.dportFail ptr) := (((h.countSat _ _ _).setFldOf _ _ _ _).raise _ _ _).cause 5

theorem passTlp (h : s.Spares p t) (ptr dws : Nat) : s.Spares p (t.passTlp ptr dws) := by
  have hptr : s.Spares p (t.advancePtr dws) := h.of_same rfl rfl rfl
  exact .ite (hptr.setStage 3) hptr

end State.Spares

/-- The bytes of a TLP lie within its length. -/
theorem tlpBytes_lt (dws : List W32) (first last : BitVec 4) {e : Nat × Byte} (he : e ∈ tlpBytes dws first last) : e.1 < 4 * dws.length := by
  obtain ⟨⟨d, i⟩, hd, hbyte⟩ := List.mem_flatMap.mp he
  obtain ⟨j, hj, hsome⟩ := List.mem_filterMap.mp hbyte
  have hi : i < dws.length := by simpa using (List.mem_zipIdx hd).2.1
  have hj4 : j < 4 := List.mem_range.mp hj
  dsimp only at hsome
  split_ifs at hsome <;> cases hsome <;> omega

section
variable (h : s.Spares p t)
include h

/-- At stage READY a TLP stores its enabled bytes, and fails or passes without a store else. -/
theorem dportWrite_spares (hstage : t.stage = 5) (dws : List W32) (first last : BitVec 4) (poisoned : Bool)
    (hout : ∀ x, p x → x < (t.reg .ccxHpDportPtr).toNat ∨ (t.reg .ccxHpDportPtr).toNat + 4 * dws.length ≤ x) :
    s.Spares p (dportWrite dws first last poisoned t) := by
  have hpoison : s.Spares p ((t.setFldOf .ccxHpDportStat 2 1 1).logAer .poisonedTlp) := (h.setFldOf _ _ _ _).logAer _
  have hdropped := State.Spares.ite (q := ((t.setFldOf .ccxHpDportStat 2 1 1).logAer .poisonedTlp).stage = 5 ∨
    ((t.setFldOf .ccxHpDportStat 2 1 1).logAer .poisonedTlp).stage = 2 ∨ ((t.setFldOf .ccxHpDportStat 2 1 1).logAer .poisonedTlp).stage = 3)
    (hpoison.countSat .ccxHpDportDrops 0 32) hpoison
  unfold dportWrite
  refine .ite h (.passTlp (.ite (.ite (hdropped.raise _ _ _) hdropped) ?_) _ _)
  rw [if_pos hstage]
  split
  · refine h.storeTlp _ _ fun e he x hx => ?_
    have hlt := tlpBytes_lt dws first last he
    rcases hout x hx with hlo | hhi <;> omega
  · exact (h.reportAccess _ _ _ _ _ _ _).dportFail _

theorem dportRead_spares (n : Nat) : s.Spares p (dportRead n t) := by
  unfold dportRead
  refine .ite h (.passTlp (.ite ?_ (h.emit _)) _ _)
  split
  · exact .ite (((h.memUe _ _ _).raise _ _ _).emit _) (h.emit _)
  · exact (State.Spares.dportFail (.ite (h.reportAccess _ _ _ _ _ _ _) h) _).emit _

theorem queueRead_spares (n : Nat) : s.Spares p (queueRead n t) := by
  unfold queueRead
  dsimp only
  split
  · exact h
  · exact .ite (h.of_same rfl rfl rfl) (h.of_same rfl rfl rfl)

/-- A flit of a peer stores its bytes where its access is allowed. -/
theorem linkFlitRx_spares (port part a : Nat) (b : Bytes) (hout : ∀ x, p x → x < a ∨ a + b.length ≤ x) :
    s.Spares p (linkFlitRx port .good (.write part a b) t) := by
  have hcount : s.Spares p (t.countWrap (.mmvLinkRxBytes port) 0 64 (flitBytes (.write part a b))) := h.countWrap _ _ _ _
  unfold linkFlitRx
  refine .ite h ?_
  dsimp only
  split
  · exact hcount.reportAccess _ _ _ _ _ _ _
  · exact hcount.store _ _ hout

theorem State.dropMbox_spares (slot : Nat) : s.Spares p (t.dropMbox slot) := (((h.setFldOf _ _ _ _).countSat _ _ _).raise _ _ _).cause 5

theorem mboxSlotWrite_spares (off : Nat) (b : Bytes) (poisoned : Bool) : s.Spares p (mboxSlotWrite off b poisoned t) := by
  have hwritten : s.Spares p (t.wrMb off (b.take (256 * (off / 256 + 1) - off))) := h.of_same rfl rfl rfl
  have hover : ∀ v : State, s.Spares p v → s.Spares p (v.handOver (off / 256)) := fun v hv =>
    .ite (hv.of_same rfl rfl rfl) (.ite (hv.of_same rfl rfl rfl) hv)
  unfold mboxSlotWrite
  exact .ite h (.ite (.ite (h.logAer _) h) (.ite (State.dropMbox_spares (h.logAer _) _) (.ite (State.dropMbox_spares h _)
    (.ite (hover _ hwritten) hwritten))))

end

/-! What a mailbox write leaves of the mailboxes, R71 -/

theorem State.raise_mbox (s : State) (c q : Nat) (b : Bytes) : (s.raise c q b).hp.mbox = s.hp.mbox := by
  unfold State.raise State.deliver State.queueEvent
  dsimp only
  split_ifs <;> rfl

theorem State.cause_mbox (s : State) (v : Nat) : (s.cause v).hp.mbox = s.hp.mbox := by
  obtain ⟨l, m, h⟩ := s.cause_hp v
  rw [h]

theorem State.logAer_mbox (s : State) (e : PcieErr) : (s.logAer e).hp.mbox = s.hp.mbox := by
  unfold State.logAer
  rw [State.cause_mbox]
  split <;> rfl

theorem State.dropMbox_mbox (s : State) (slot : Nat) : (s.dropMbox slot).hp.mbox = s.hp.mbox := by
  rw [State.dropMbox, State.cause_mbox, State.raise_mbox]
  rfl

theorem State.handOver_mbox (s : State) (slot : Nat) : (s.handOver slot).hp.mbox = s.hp.mbox := by
  unfold State.handOver
  split
  · rfl
  · split <;> rfl

theorem mboxSlotWrite_mbox (off : Nat) (b : Bytes) (poisoned : Bool) {a : Nat} (ha : a < off ∨ off + b.length ≤ a) :
    sget 0 (mboxSlotWrite off b poisoned s).hp.mbox a = sget 0 s.hp.mbox a := by
  have hlength : (b.take (256 * (off / 256 + 1) - off)).length ≤ b.length := List.length_take_le' _ _
  have hwritten : sget 0 (s.wrMb off (b.take (256 * (off / 256 + 1) - off))).hp.mbox a = sget 0 s.hp.mbox a :=
    sget_ssetAll_out 0 _ _ _ _ (by omega)
  unfold mboxSlotWrite
  dsimp only
  split_ifs
  · rfl
  · rw [State.logAer_mbox]
  · rfl
  · rw [State.dropMbox_mbox, State.logAer_mbox]
  · rw [State.dropMbox_mbox]
  · rw [State.handOver_mbox, hwritten]
  · exact hwritten

/-- A row that spares some bytes of memory leaves them as they were. -/
theorem State.Spares.sameMem {i : Instr} {dt : Nat} {f : State → State} (h : s.Spares p (f (s.elapse dt))) (hrow : exec i s = runEvent dt f s)
    (ht : exec i s = .next t) : SameMem s t p := by
  rw [hrow] at ht
  cases ht
  exact h.close dt

/-- Settles O55: every store of a row falls in the range that its clause names, and what ends with the row stores nothing where no page of the KV
cache and no descriptor's slot is held. The mailbox write is R71, the queue read R181. -/
theorem storeFrames : Obligations.StoreFrames := by
  unfold Obligations.StoreFrames
  intro dt s t u _ hslots hpages
  have hrow : ∀ p, s.Spares p u := fun p => State.Spares.elapsed dt hslots hpages
  refine ⟨?write, ?read, ?queue, ?flit, ?mbox⟩
  case write =>
    intro dws first last poisoned ptr hstage ht
    exact (dportWrite_spares (hrow _) hstage dws first last poisoned fun x hx => hx).sameMem rfl ht
  case read => exact fun n ht => (dportRead_spares (hrow _) n).sameMem rfl ht
  case queue => exact fun n ht => (queueRead_spares (hrow _) n).sameMem rfl ht
  case flit =>
    intro port part a b ht
    exact (State.Spares.settle (linkFlitRx_spares (hrow _) port part a b fun x hx => hx)).sameMem (f := fun s =>
      (linkFlitRx port .good (.write part a b) s).settle) rfl ht
  case mbox =>
    intro off b poisoned ht
    refine ⟨(mboxSlotWrite_spares (hrow _) off b poisoned).sameMem rfl ht, fun a ha => ?_⟩
    cases ht
    exact (congrArg (fun hp : HostPort => sget 0 hp.mbox a) (State.close_hp _ _ _)).trans (mboxSlotWrite_mbox off b poisoned ha)

end Sys2Proof.Machine
end
